-- ==== Sys2Proof/Word.lean ====
section
/-! DEFINITION. The words of the part: bytes, 16-bit fields, 32-bit words, and the two clocks. -/

namespace Sys2Proof

/-- One byte of the exchange memory or of a record. -/
abbrev Byte := BitVec 8

/-- A 16-bit field: a slip tag, a code of a cell module, a firmware version. -/
abbrev Half := BitVec 16

/-- A 32-bit word of the memory link (R168). -/
abbrev Word := BitVec 32

/-- A part time in ms: 32 bits, wrapping (R30). -/
abbrev Ms := BitVec 32

/-- A value of the µs time base: 32 bits, wrapping (R29). -/
abbrev Us := BitVec 32

/-- Differences of two µs times, and of two part times, are taken modulo 2^32 (R29, R30). -/
def elapsed (now since : BitVec 32) : Nat := (now - since).toNat

end Sys2Proof
end

