-- ==== Sys2Proof/Syntax.lean ====
section
/-! DEFINITION. The commands of the part: one constructor for each row of spec/opcode_table.json. A command's operands
are what comes from outside with the event: a word the host writes, the instant of an event on the chain, the content of
an answer, the readings of the converter channels, the read back of a store write. -/

namespace Sys2Proof

/-- The readings of the four converter channels at a latch instant, in the units of chapter 2: I in 10 mA, V_BATT,
V_LINK and V_COIL in 10 mV, before R26 holds them at full scale. -/
structure Readings where
  i : Int
  vBatt : Int
  vLink : Int
  vCoil : Int
  deriving DecidableEq, Repr

/-- A character error that the receiver finds in an answer as it comes in (R3): a framing error of its characters, or a
CRC-8 that does not match. A tag mismatch, a wrong address and a wrong code count are found by the model itself. -/
inductive CharError where
  | framing
  | crc8
  deriving DecidableEq, Repr

/-- The module status of a REPLY (R2). -/
structure ModuleStatus where
  balancing : Bool
  overTemp : Bool
  internalFault : Bool
  deriving DecidableEq, Repr

/-- The three coils (chapter 4). -/
inductive CoilName where
  | mainNeg
  | precharge
  | mainPos
  deriving DecidableEq, Repr

/-- How the copy whose write a reset cuts reads afterwards (R132: "faulted or erased"; R141 alone lets the key slot
become PRESENT "as the cut copy reads"). -/
inductive CutRead where
  | erased
  | faulted
  | whole
  deriving DecidableEq, Repr

/-- When an answer comes: the µs time base at its end, and the time in µs from the send time of the frame that is answered
to the arrival of the answer's first character (R3). -/
structure Arrival where
  us : Us
  first : Nat
  deriving DecidableEq, Repr

/-- The end of a wake tone: the µs time base at it, and whether the wake that it begins leaves room for a cause between the
reading of the wake target and the end of WAKING (R119). -/
structure ToneEnd where
  us : Us
  gap : Bool
  deriving DecidableEq, Repr

/-- The commands. `us` is the value of the µs time base at the event (disregarded while the time base is halted). The round
trip of an ECHO_BACK is the time to its first character in 0.1 µs (R11). `pick` names the one that is taken of the events
sent together with the oldest (R94). `places` lists the positions of staged bytes that read back otherwise than they were
written, and `bytes` what each of them reads back as (R151, R152). -/
inductive Instr where
  | powerOn (cut : CutRead)
  | resetLine (cut : CutRead)
  | hostWordWrite (addr : BitVec 15) (word : Word)
  | registerWrite (addr : BitVec 16) (word : Word)
  | note (word : Word)
  | wakeLink
  | post
  | refresh
  | clear
  | setMask
  | levels
  | tablesPlanTable
  | tablesLimitTable
  | tablesWakeTable
  | tablesModuleMap
  | hold
  | release
  | ackEvents
  | chunk
  | unknownKind
  | wakeLine
  | wakeChain
  | captureSent (us : Us)
  | pauseSent (us : Us)
  | frameSent (us : Us)
  | sleepBroadcast (us : Us)
  | balancingStopSent (us : Us)
  | reply (arrival : Arrival) (addr tag : Nat) (codes : List Half) (status : ModuleStatus) (version : Half) (err : Option CharError)
  | echoBack (us : Us) (addr roundTrip kind cells sensors : Nat) (version : Half) (err : Option CharError)
  | configReply (arrival : Arrival) (addr tag : Nat) (status : ModuleStatus) (version : Half) (err : Option CharError)
  | blockAck (arrival : Arrival) (addr : Nat) (index : Half) (toggle : Bool) (crc16 : Half) (err : Option CharError)
  | replyTimeout (us : Us)
  | characterGap (us : Us)
  | strayCharacters (us : Us)
  | suspectPeriodEnd
  | chainLossHold
  | autoSurveyTimer
  | conversionWaitEnd (us : Us)
  | wakeToneEnd (tone : ToneEnd)
  | moduleWakeTimeEnd
  | returnProbe (addr : Nat)
  | balancingEnd (addr : Nat)
  | sampleLatch (readings : Readings)
  | sampleComplete
  | partTimeTick (shunt : Nat)
  | snapshotTimer
  | planDue (index : Nat)
  | pauseWaitEnd (index : Nat)
  | burstCaptureDue
  | setBuilt
  | pageWriteEnd
  | coilReport (coil : CoilName) (mA : Nat) (also : Option (CoilName × Nat))
  | inrushEnd
  | prechargeTimeout
  | mainSettleEnd
  | openingSecondStep
  | weldWindowEnd
  | deferralLimit
  | hardCurrent
  | chainLoss
  | silenceWarn
  | silence
  | eventTake (pick : Nat)
  | snapshotWaitLimit
  | deepEntry
  | wakeTimer
  | wakeCurrent
  | wakingSettleEnd
  | wakeOutEnd
  | writeBegin
  | writeEnd (matched : Bool)
  | startUpReadEnd
  | absorptionStart
  | absorptionEnd
  | checkEnd (places : List Nat) (bytes : List Byte)
  | chainPauseLimit
  | switchProbe
  | switchWindowEnd
  | returnLimit (addr : Nat)
  | resetNReleased
  | vehicleWakeInputDeasserted
  | chainAlertDeasserted
  deriving DecidableEq, Repr

end Sys2Proof
end

