-- ==== Sys2Proof/Config.lean ====
section
/-! DEFINITION. The free values of the model: constants without a body, so that no proof can see what they are. -/

namespace Sys2Proof

/-- Which of the values that a word of a chunk buffer has held since its absorption began is the one the
absorption reads, when the host has written the word meanwhile (R149: "host writes into a buffer that is TAKING
change what is read"). A free value; log 13. Applied to the free counter and the word's offset. -/
opaque Config.absorbedAt : Nat → Nat → Nat

/-- The current of "the newest completed sample" where the converter history is empty. A free value; log 14. -/
opaque Config.freeCurrent : Nat → Int

/-- V_BATT and V_LINK of "the newest completed sample" where the converter history is empty. Free values;
log 14. -/
opaque Config.freeBatt : Nat → Nat
@[inherit_doc Config.freeBatt] opaque Config.freeLink : Nat → Nat

/-- Whether the store's check unit passes an image: a function of the key, of the image header (target, module type, version,
length), of the image bytes in order and of the tag of the header (R140, R151). The rules name no function. A free value;
log 92. -/
opaque Config.checkUnit (key : List Byte) (target kind version length : Nat) (image tag : List Byte) : Bool

end Sys2Proof
end

