-- ==== Sys2Proof/Machine/State.lean ====
section
/-! DEFINITION. The state of the part as plain data: each block of 00_scope.md is one structure, and each holds every
state, counter, table and record its chapter gives it. INVENTORY.md names the rule and the reset value of every field. -/

namespace Sys2Proof.Machine

/-- Who raises a fault: nobody. No rule of the spec lets an event stop the part; every event has an outcome (log 7). -/
inductive Fault where
  deriving DecidableEq, Repr

/-- Who raises a refusal: only an arm of `exec` that would have no meaning, and there is none. Safe. -/
inductive Refusal where
  /-- Raised by an arm of `exec` without a meaning. Safe: the run stops. -/
  | notModelled (mnemonic : String)
  deriving DecidableEq, Repr

/-! ### Attention unit (chapter 10) -/

/-- The six factor groups, in the order of 12.1. -/
inductive Group where
  | contactor | power | chain | sampling | update | port
  deriving DecidableEq, Repr

/-- The 20 attention factors, in rank order (chapter 10). -/
inductive Factor where
  | contactorChange | autoOpen | lockout | wakeReason | silenceWarn | chainState | surveyDone | moduleFault
  | setReady | setDropped | limitSoft | sumMismatch | planOverrun | updateState | storeFault | slipDone
  | eventNew | eventFull | noteFault | tableStatus
  deriving DecidableEq, Repr

/-- The attention unit (R184 to R190). -/
structure Attn where
  factors : BitVec 20
  enables : BitVec 20
  levels : List Nat
  mask : Nat
  line : Bool
  deriving DecidableEq, Repr

/-! ### Exchange port (chapter 9) -/

/-- The causes of a note fault (R174). -/
inductive NoteCause where
  | overrun | unknownKind | badArgument | slotNotPosted | noSuchSequence
  deriving DecidableEq, Repr

/-- The last note fault (R174). -/
structure NoteFaultRec where
  kind : Byte
  argument : BitVec 24
  cause : NoteCause
  deriving DecidableEq, Repr

/-- The blocks that own slip kinds (R178). -/
inductive Owner where
  | supervisor | power | chain | planner | store | update
  deriving DecidableEq, Repr

/-- The slot record of a slip in flight: the port's copy (R178) and the owning block (none while a BAD_SLIP is
completed). -/
structure SlipCopy where
  kind : Byte
  tag : Half
  args : List Byte
  owner : Option Owner
  deriving DecidableEq, Repr

/-- The origin of a table status entry (R182). -/
inductive Origin where
  | note | reset | reclamp
  deriving DecidableEq, Repr

/-- The outcome of a standing table (R182). -/
inductive TableOutcome where
  | taken | takenClamped | refusedTotals | refusedContactors | refusedUpdate
  deriving DecidableEq, Repr

/-- One clamp record: the plan index or address (0 for the limit and wake tables), the field's position, and whether it
is a HARD_LIMIT clamp (R182). -/
structure ClampRec where
  index : Nat
  field : Nat
  hard : Bool
  deriving DecidableEq, Repr

/-- A table status entry (R182); `clamps` holds the first four. -/
structure TableEntry where
  number : Nat
  origin : Origin
  outcome : TableOutcome
  count : Nat
  clamps : List ClampRec
  deriving DecidableEq, Repr

/-- The exchange port (R168 to R183). -/
structure Port where
  notes : List Word
  slots : List (Option SlipCopy)
  fault : Option NoteFaultRec
  faultCount : Nat
  tables : List TableEntry
  lastTable : Nat
  deriving DecidableEq, Repr

/-! ### Chain controller (chapter 1) -/

/-- The chain states, in the order of 1.2. -/
inductive ChainState where
  | down | surveying | up | suspect | asleep
  deriving DecidableEq, Repr

/-- The module states of the map, in the order of 1.4. -/
inductive ModState where
  | absent | inService | stale | faulted | outOfService
  deriving DecidableEq, Repr

/-- The fault causes of the map, in the order of 1.4. -/
inductive FaultCause where
  | mapMismatch | absent | missed | internal
  deriving DecidableEq, Repr

/-- The calibration source (R137). -/
inductive CalSource where
  | host | image
  deriving DecidableEq, Repr

/-- One entry of the working module map (1.4) with its balancing record (1.7; inactive when the mask is empty). -/
structure ModuleEntry where
  configured : Bool
  cells : Nat
  sensors : Nat
  source : CalSource
  gain : Nat
  offset : Int
  state : ModState
  cause : Option FaultCause
  miss : Nat
  delay : Nat
  delayClamped : Bool
  version : Half
  status : ModuleStatus
  balMask : Half
  balEnd : Ms
  deriving DecidableEq, Repr

/-- One entry of the survey result table (R11). -/
structure SurveyEntry where
  present : Bool
  kind : Nat
  cells : Nat
  sensors : Nat
  roundTrip : Nat
  delay : Nat
  delayClamped : Bool
  version : Half
  deriving DecidableEq, Repr

/-- The frame kinds the part sends, in the order of 1.1. -/
inductive FrameKind where
  | capture | read | echo | config | pause | block | switch | sleep | wake
  deriving DecidableEq, Repr

/-- A frame on the chain (R1): kind, address (31 for broadcast), tag and payload bytes. -/
structure Frame where
  kind : FrameKind
  addr : Nat
  tag : Nat
  payload : List Byte
  deriving DecidableEq, Repr

/-- What the chain line carries. -/
inductive Line where
  | idle
  /-- A frame is being sent. -/
  | sending (f : Frame)
  /-- The frame has left at `sent` and its reply window is open (R3). -/
  | window (f : Frame) (sent : Us)
  /-- The module conversion time after t_b (R19). -/
  | conversion (tb : Us)
  deriving DecidableEq, Repr

/-- The update engine's class 5 requests (R20, R165). -/
inductive FwReq where
  | block | switch | probe
  deriving DecidableEq, Repr

/-- The requests of the arbiter's users (R21). -/
inductive Req where
  | survey
  | burst
  | capture (plan : Nat)
  | patrol
  | firmware (r : FwReq)
  | pause (plan : Nat)
  | config
  | stop
  | returnEcho (addr : Nat)
  deriving DecidableEq, Repr

/-- The user that holds the chain (R21). -/
inductive Hold where
  /-- The survey, at an address, on its first or second ECHO (R11). -/
  | survey (addr : Nat) (second : Bool)
  | capture (plan : Nat)
  /-- A firmware exchange; `live` is clear once the engine disregards its answer (R165). -/
  | firmware (r : FwReq) (live : Bool)
  | pause (plan : Nat)
  | config
  | stop
  | returnEcho (addr : Nat)
  deriving DecidableEq, Repr

/-- The wake of the chain (R9). -/
inductive Wake where
  | none
  | tone (since : Ms)
  | settle (since : Ms) (gap : Bool)
  deriving DecidableEq, Repr

/-- A BALANCE slip in flight (R23): the addresses left with their masks (the head is the one in turn), the sends of the
head so far, and the counts of the result. `ending` is set once a balancing stop has ended the sending (R24). -/
structure Balance where
  slot : Nat
  todo : List (Nat × Half)
  tries : Nat
  duration : Nat
  sent : Nat
  acked : Nat
  skipped : Nat
  clamped : Bool
  lowestNotAcked : Nat
  anyNotAcked : Bool
  ending : Bool
  deriving DecidableEq, Repr

/-- The chain controller (R1 to R24). -/
structure Chain where
  state : ChainState
  origin : ChainState
  wasDown : Bool
  downSince : Ms
  errs : List Us
  suspectSince : Ms
  periodStart : Ms
  periodErrs : Nat
  capTag : Nat
  exTag : Nat
  survey : List SurveyEntry
  present : Nat
  configured : Nat
  breakLoc : Nat
  map : List ModuleEntry
  hold : Option Hold
  line : Line
  lastSent : Option (Frame × Us)
  requests : List Req
  sleepCmd : Bool
  wakeAfterSleep : Bool
  wake : Wake
  resetTone : Bool
  surveyTimer : Option Ms
  firstUp : Bool
  surveySlip : Option Nat
  balance : Option Balance
  returning : List (Nat × Ms)
  deriving DecidableEq, Repr

/-! ### Pack converter (chapter 2) -/

/-- A converter sample (R25, R26): time stamp, the held readings and the four saturation marks. -/
structure Sample where
  t : Us
  i : Int
  vBatt : Nat
  vLink : Nat
  vCoil : Nat
  satI : Bool
  satBatt : Bool
  satLink : Bool
  satCoil : Bool
  deriving DecidableEq, Repr

/-- A sleep-interval estimate that is collecting (R33). -/
structure Estimate where
  frozen : Nat
  currents : List Int
  deriving DecidableEq, Repr

/-- The pack converter and the two clocks (R25 to R37). -/
structure Conv where
  scanning : Bool
  us : Us
  part : Ms
  lastLatch : Us
  latched : Option Sample
  history : List Sample
  charge : Int
  chargeSat : Bool
  restored : Bool
  unsampled : Nat
  estimate : Option Estimate
  snapTimer : Nat
  recNumber : Nat
  deriving DecidableEq, Repr

/-! ### Capture planner (chapter 3) -/

/-- The contents of a plan, in the order of 3.1. -/
inductive Contents where
  | cells | temperatures | both
  deriving DecidableEq, Repr

/-- An entry of the plan table (3.1). -/
structure Plan where
  active : Bool
  period : Nat
  phase : Nat
  mask : BitVec 24
  contents : Contents
  pause : Nat
  publish : Bool
  deriving DecidableEq, Repr

/-- A bracketing pair as R53 needs it: the two currents, t_m − t_a, and the marks. -/
structure Pair where
  ia : Int
  ib : Int
  dt : Nat
  clamped : Bool
  sat : Bool
  deriving DecidableEq, Repr

/-- The readings of one address: cell values and temperatures with their CLAMPED flags, the aligned current with its
marks, and the reading age 0 to 254 (R50). -/
structure Reading where
  cells : List (Nat × Bool)
  temps : List (Int × Bool)
  current : Option Int
  alignClamped : Bool
  saturated : Bool
  age : Nat
  deriving DecidableEq, Repr

/-- One listed address of a capture: what R48 fixes at grant, the pair of R49, and what its turn brought (R50). -/
structure Item where
  addr : Nat
  cells : Nat
  sensors : Nat
  gain : Nat
  offset : Int
  delay : Nat
  state : ModState
  tm : Us
  pair : Option Pair
  settled : Bool
  reading : Option Reading
  deriving DecidableEq, Repr

/-- The broadcast readings of a capture (R49). -/
structure Broadcast where
  vBatt : Nat
  vLink : Nat
  i : Int
  sat : Bool
  deriving DecidableEq, Repr

/-- The stages of a capture (3.3). `pausing` is split at the PAUSE's send; `writing` is the page write, which 3.7 counts
as building. -/
inductive Stage where
  | pauseRequested
  | pausing (sent : Ms)
  | requested
  | held
  | building
  | writing
  deriving DecidableEq, Repr

/-- A capture in progress (R40 to R50). -/
structure Capture where
  plan : Nat
  mask : BitVec 24
  contents : Contents
  pause : Nat
  publish : Bool
  stage : Stage
  link : Nat
  slot : Option Nat
  items : List Item
  allListed : Bool
  tag : Nat
  tb : Option Us
  part : Ms
  bcast : Option Broadcast
  surge : Bool
  deriving DecidableEq, Repr

/-- A burst (R42): the linked event sequence, the event's part time, the captures begun (0 to 3). -/
structure Burst where
  seq : Nat
  part : Ms
  begun : Nat
  deriving DecidableEq, Repr

/-- The freshness record (R57). -/
structure Fresh where
  seq : Nat
  part : Ms
  soft : Bool
  deriving DecidableEq, Repr

/-- A sample page as the planner holds it (R63, R67): its header sequence (0 when empty) and its marks. -/
structure Page where
  seq : Nat
  held : Bool
  pending : Bool
  deriving DecidableEq, Repr

/-- The page write that is running (R64). -/
structure PageWrite where
  page : Nat
  seq : Nat
  deriving DecidableEq, Repr

/-- What the power controller takes from a patrol set (R45, R122). -/
structure PatrolSet where
  seq : Nat
  implausible : Bool
  surge : Bool
  saturated : Bool
  notFresh : List Nat
  cellMin : Option (Nat × Nat)
  cellMax : Option (Nat × Nat)
  tempMax : Option (Int × Nat)
  deriving DecidableEq, Repr

/-- The planner's answer to a patrol request (R45). -/
inductive PatrolReport where
  | notMade
  | made (set : PatrolSet)
  deriving DecidableEq, Repr

/-- The capture planner (R38 to R69). -/
structure Planner where
  plans : List Plan
  inForce : List Plan
  dueDone : List Bool
  overrun : List Bool
  captures : List Capture
  burst : Option Burst
  kept : List (Option Reading)
  high : Nat
  low : Nat
  temp : Nat
  implausible : Nat
  fresh : Option Fresh
  setSeq : Nat
  pages : List Page
  pageAge : List Nat
  writing : Option PageWrite
  latest : Option (Nat × Nat)
  quiet : Bool
  patrolReport : Option PatrolReport
  deriving DecidableEq, Repr

/-! ### Contactor supervisor (chapter 4) -/

/-- The supervisor states, in the order of chapter 4. -/
inductive SupState where
  | open_ | precharging | closing | closed | opening | weldCheck | lockedOut
  deriving DecidableEq, Repr

/-- A coil output with the part times of its last energize and of its next report (R71). -/
structure Coil where
  on : Bool
  since : Ms
  nextReport : Ms
  deriving DecidableEq, Repr

/-- The three coil outputs as one value. -/
structure Coils where
  mainNeg : Bool
  precharge : Bool
  mainPos : Bool
  deriving DecidableEq, Repr

/-- The causes of an autonomous open, in the order of chapter 5. -/
inductive OpenCause where
  | hardCellHigh | hardCellLow | hardTemp | hardCurrent | silence | chainLoss
  deriving DecidableEq, Repr

/-- A cause with its own detail (5.1): for the hard-limit causes the set sequence with the address and position of the worst
value (R59), the count for SILENCE, and for CHAIN_LOSS 1 chain down or 2 module FAULTED. -/
structure CauseRec where
  cause : OpenCause
  seq : Nat
  addr : Nat
  pos : Nat
  value : Nat
  deriving DecidableEq, Repr

/-- The CLOSE slip in flight (R76). -/
structure Close where
  slot : Nat
  entered : Ms
  ratio : Nat
  timeout : Nat
  reachedMs : Nat
  vLink : Nat
  vBatt : Nat
  deriving DecidableEq, Repr

/-- The running opening (R79, R80). -/
structure Opening where
  slots : List Nat
  release : Int
  causes : List OpenCause
  start : Ms
  deriving DecidableEq, Repr

/-- A weld window (R82): start, length, whether it belongs to a CLEAR_LOCKOUT, and whether it has ended and waits for a
sample. -/
structure Weld where
  start : Ms
  length : Nat
  forClear : Bool
  waitingSample : Bool
  deriving DecidableEq, Repr

/-- The CLEAR_LOCKOUT in flight with the V_LINK and V_BATT of its judging sample (R84). -/
structure Clear where
  slot : Nat
  vLink : Nat
  vBatt : Nat
  deriving DecidableEq, Repr

/-- A deferral (R88). -/
structure Deferral where
  start : Ms
  limit : Nat
  causes : List CauseRec
  deriving DecidableEq, Repr

/-- The once-settable settings (R92). -/
structure Once where
  set : Bool
  limit : Nat
  policyArmed : Bool
  moduleFault : Bool
  deriving DecidableEq, Repr

/-- The contactor supervisor (R70 to R93). -/
structure Sup where
  state : SupState
  waiting : Bool
  mainNeg : Coil
  precharge : Coil
  mainPos : Coil
  inrush : Option Ms
  lowSupply : Bool
  close : Option Close
  settleAt : Ms
  opening : Option Opening
  weld : Option Weld
  clear : Option Clear
  deferral : Option Deferral
  hardRun : Nat
  hardFell : Bool
  hardDue : Bool
  faultedSince : Option Ms
  lossHeld : Bool
  lossDue : Bool
  silence : Nat
  warn : Bool
  lapsed : Bool
  once : Once
  deriving DecidableEq, Repr

/-! ### Event recorder (chapter 5) -/

/-- The 14 event kinds, in the order of 5.1. -/
inductive EventKind where
  | closedDone | opened | autoOpen | prechargeTimeout | coilFault | weldSuspect | highCurrentBreak | lockoutCleared
  | silence | chainDown | chainUp | fullWake | updateOutcome | moduleRollback
  deriving DecidableEq, Repr

/-- The head of a record's detail, by kind (5.1, 12.4); the cause list stands beside it. -/
inductive Detail where
  | closedDone (ms vLink vBatt : Nat)
  | release (current : Int)
  | volts (vLink vBatt : Nat)
  | coilFault (coil : CoilName) (mA : Nat) (second : Option (CoilName × Nat))
  | weldSuspect (vLink vBatt ratio : Nat)
  | silence (limit grace : Nat)
  | chainDown (left : ChainState) (origin : Option ChainState) (breakLoc : Nat)
  | chainUp (present : Nat)
  | fullWake (sources : BitVec 5) (estimate : Option (Int × Int))
  | updateOutcome (target kind version switched rolledBack failed : Nat)
  | moduleRollback (addr sent : Nat) (reported : Option Nat)
  deriving DecidableEq, Repr

/-- The linked set of a record (5.1). -/
inductive Linked where
  | notBurst
  | awaited
  | none
  | linked (seq : Nat)
  deriving DecidableEq, Repr

/-- A window entry (R97): I in 10 mA, V_BATT and V_LINK in 100 mV. -/
structure WindowEntry where
  i : Int
  vBatt : Nat
  vLink : Nat
  deriving DecidableEq, Repr

/-- An event as its sender gives it (R94). `adding` marks an event of the running opening, which may still be given causes
(R102); `together` an event that was sent in the same step as the one before it in the queue; `fresh` one that was sent in
the present step. -/
structure SentEvent where
  kind : EventKind
  cause : Nat
  before : Coils
  after : Coils
  detail : Detail
  causes : List CauseRec
  deferred : Option Nat
  adding : Bool
  together : Bool
  fresh : Bool
  deriving DecidableEq, Repr

/-- An event record (5.1). `complete` is the status COMPLETE, otherwise OPEN. -/
structure EventRec where
  complete : Bool
  seq : Nat
  kind : EventKind
  cause : Nat
  part : Ms
  before : Coils
  after : Coils
  values : Option (Nat × Nat × Int)
  surge : Bool
  acked : Bool
  windowComplete : Bool
  windowSkipped : Bool
  deferred : Option Nat
  linked : Linked
  revision : Nat
  detail : Detail
  causes : List CauseRec
  adding : Bool
  tn : Us
  pre : List WindowEntry
  post : List WindowEntry
  deriving DecidableEq, Repr

/-- The event recorder (R94 to R105). -/
structure Recorder where
  slots : List (Option EventRec)
  age : List Nat
  next : Nat
  filling : List Nat
  inbox : List SentEvent
  deriving DecidableEq, Repr

/-! ### Power controller (chapter 6) -/

/-- The power states, in the order of chapter 6. -/
inductive PowerState where
  | run | enteringDeep | deep | waking | patrol
  deriving DecidableEq, Repr

/-- The wake target (R117). -/
inductive Target where
  | none | patrol | run
  deriving DecidableEq, Repr

/-- The wake sources, in the order of 6.3. -/
inductive Source where
  | timer | line | chain | current | link
  deriving DecidableEq, Repr

/-- The snapshot outcome of an entry (R109). -/
inductive SnapOutcome where
  | none | written | failed | skipped
  deriving DecidableEq, Repr

/-- The result of a patrol or of an attempt (R122). -/
inductive PatrolResult where
  | pass | breach | chainFail
  deriving DecidableEq, Repr

/-- The sleep entry in progress (R108): the SLEEP slip, the step 1 to 5, the time of the snapshot request. -/
structure Entry where
  slot : Nat
  step : Nat
  requestAt : Ms
  deriving DecidableEq, Repr

/-- The working wake table (R116). -/
structure WakeTable where
  timer : Nat
  line : Nat
  chain : Nat
  current : Nat
  chainFail : Nat
  period : Nat
  threshold : Nat
  deriving DecidableEq, Repr

/-- The breached sleep limits of a patrol set (R122). -/
structure Breached where
  cellLow : Bool
  cellHigh : Bool
  tempHigh : Bool
  imbalance : Bool
  deriving DecidableEq, Repr

/-- The patrol record (R121): attempts, promoted, and the judged result that waits to be logged, with its set. -/
structure Patrol where
  attempts : Nat
  promoted : Bool
  judged : Option (PatrolResult × Breached × Option PatrolSet)
  deriving DecidableEq, Repr

/-- The held estimate (R118): not yet handed over, "no average", or the average and the counter. -/
inductive Held where
  | awaited
  | noAverage
  | made (avg counter : Int)
  deriving DecidableEq, Repr

/-- The cause of the last reset (R125). -/
inductive ResetCause where
  | powerOn | resetLine
  deriving DecidableEq, Repr

/-- The power controller (R106 to R127). -/
structure Power where
  state : PowerState
  entry : Option Entry
  snapOutcome : SnapOutcome
  wakeTable : WakeTable
  pend : BitVec 5
  target : Target
  timer : Nat
  timerRunning : Bool
  compRun : Nat
  compFired : Bool
  settleAt : Ms
  settled : Bool
  patrol : Option Patrol
  nextSlot : Nat
  lastNumber : Nat
  estimate : Held
  lastWake : Option (BitVec 5 × Option PatrolResult)
  returning : Option (BitVec 5)
  lastReset : ResetCause
  resetCount : Nat
  wakeOut : Bool
  wakeOutAt : Ms
  deriving DecidableEq, Repr

/-! ### Settings store (chapter 7) -/

/-- The two banks. -/
inductive BankId where
  | a | b
  deriving DecidableEq, Repr

/-- One copy of a record (R128). -/
inductive Copy (α : Type) where
  | erased
  | faulted
  | valid (value : α) (count : Nat)
  deriving DecidableEq, Repr

/-- A record: its two copies (R128). -/
structure Record (α : Type) where
  c0 : Copy α
  c1 : Copy α
  deriving DecidableEq, Repr

/-- A bank (R129): its image, or none when it is invalid. An image is target LIMIT_IMAGE with a version and a body. -/
structure Image where
  version : Nat
  body : List Byte
  deriving DecidableEq, Repr

/-- The lockout record's contents. -/
structure Lockout where
  set : Bool
  part : Ms
  vLink : Nat
  vBatt : Nat
  deriving DecidableEq, Repr

/-- The charge snapshot's contents. -/
structure Snapshot where
  value : Int
  sat : Bool
  deriving DecidableEq, Repr

/-- The nonvolatile contents of the store (7.1). -/
structure Nv where
  marker : Record BankId
  floor : Record Nat
  fwFloors : Record (List Nat)
  key : Record (List Byte)
  wearNeg : Record Nat
  wearPos : Record Nat
  lockout : Record Lockout
  snapshot : Record Snapshot
  bankA : Option Image
  bankB : Option Image
  deriving DecidableEq, Repr

/-- The key slot's state (R140). -/
inductive KeySlot where
  | empty
  | present (key : List Byte)
  | faulted
  deriving DecidableEq, Repr

/-- The working copies of the records (chapter 7). A LOST marker names no bank. -/
structure Working where
  marker : Option BankId
  floor : Nat
  fwFloors : List Nat
  key : KeySlot
  wearNeg : Nat
  wearPos : Nat
  lockout : Lockout
  snapshot : Option Snapshot
  deriving DecidableEq, Repr

/-- The records and banks, by store item code 1 to 10 (12.2). -/
inductive StoreItem where
  | marker | floor | fwFloors | key | wearNeg | wearPos | lockout | snapshot | bankA | bankB
  deriving DecidableEq, Repr

/-- What a write request writes (R130). A floor write carries its version, a wear count its weight. -/
inductive Payload where
  | marker (bank : BankId)
  | floor (version : Nat)
  | fwFloor (kind version : Nat)
  | key (bytes : List Byte)
  | wearNeg (weight : Nat)
  | wearPos (weight : Nat)
  | lockout (v : Lockout)
  | snapshot (v : Snapshot)
  | bank (image : Image)
  deriving DecidableEq, Repr

/-- Who is told the outcome of a write (R130). -/
inductive Requester where
  | wear | weldSet | weldClear | snapTimer | entry | engine | keySlip | startUp
  deriving DecidableEq, Repr

/-- A waiting write request (R130). -/
structure WriteReq where
  payload : Payload
  who : List Requester
  deriving DecidableEq, Repr

/-- The write that is running (R131): its request, the bank a bank write goes to, and its start. -/
structure Running where
  req : WriteReq
  bank : BankId
  since : Ms
  deriving DecidableEq, Repr

/-- The 18 fields of the active limits (7.4). -/
structure Limits where
  cellMax : Int
  cellMin : Int
  tempMax : Int
  tempMin : Int
  hardCurrent : Int
  hardCount : Int
  breakLimit : Int
  deferral : Int
  ratio : Int
  timeout : Int
  weldRatio : Int
  weldWindow : Int
  coilMin : Int
  surge : Int
  chainHold : Int
  grace : Int
  gain : Int
  offset : Int
  deriving DecidableEq, Repr

/-- The seven fields of the limit table (7.5). -/
structure LimitTable where
  softMax : Int
  softMin : Int
  sumTol : Int
  sleepMin : Int
  sleepMax : Int
  sleepTemp : Int
  imbalance : Int
  deriving DecidableEq, Repr

/-- The start-up outcome (R134). -/
inductive StartOutcome where
  | markedBank | otherBank | factoryValues
  deriving DecidableEq, Repr

/-- The cause of a store fault (R143). -/
inductive StoreFaultCause where
  | writeFailed | recordLost | noImage
  deriving DecidableEq, Repr

/-- The settings store (R128 to R144). -/
structure Store where
  nv : Nv
  work : Working
  queue : List WriteReq
  running : Option Running
  startUp : Bool
  active : Limits
  activeBank : Option BankId
  activeVersion : Nat
  clampCount : Nat
  outcome : StartOutcome
  faultCause : Option StoreFaultCause
  faultItem : Option StoreItem
  faultCount : Nat
  lost : BitVec 16
  taken : LimitTable
  inForce : LimitTable
  rangeClamps : List Nat
  hardClamps : List Nat
  keySlip : Option Nat
  deriving DecidableEq, Repr

/-! ### Update engine (chapter 8) -/

/-- The update states, in the order of 8.1. -/
inductive UpdState where
  | idle | receiving | checking | verified | committing | distributing | switching
  deriving DecidableEq, Repr

/-- The outcomes, in the order of R146. -/
inductive UpdOutcome where
  | none | ok | tagFail | stagingFault | staleVersion | store | chainLost | noneSent | partial_ | aborted | resetDuring
  deriving DecidableEq, Repr

/-- The target of an update (R147). -/
inductive UpdTarget where
  | limitImage | moduleFirmware
  deriving DecidableEq, Repr

/-- The update header (R147). -/
structure Header where
  target : UpdTarget
  kind : Nat
  mask : BitVec 24
  version : Nat
  length : Nat
  tag : List Byte
  deriving DecidableEq, Repr

/-- The two chunk buffers. -/
inductive Buffer where
  | a | b
  deriving DecidableEq, Repr

/-- The absorption in progress (R149). `old` holds the words of the buffer that the host has written over since the
absorption began, with what they held. -/
structure Absorb where
  buffer : Buffer
  since : Ms
  index : Nat
  length : Nat
  crc : Word
  old : List (Nat × Word)
  deriving DecidableEq, Repr

/-- The record states, in the order of R156. -/
inductive DistState where
  | pending | sending | sent | failed | switched | rollback
  deriving DecidableEq, Repr

/-- The causes of FAILED, in the order of R156. -/
inductive DistCause where
  | notEligible | noAck | chainLost | aborted | reset
  deriving DecidableEq, Repr

/-- A distribution record (R156). `moved` is set when a module map taken after the record became SENT changed its
address (R161), or while it is SENDING (R156). -/
structure DistRec where
  addr : Nat
  state : DistState
  cause : Option DistCause
  lastAck : Option Nat
  reported : Option Nat
  moved : Bool
  deriving DecidableEq, Repr

/-- The current module (chapter 8): the position of its record, the toggle, the block index, the sends of that block. -/
structure Turn where
  pos : Nat
  toggle : Bool
  block : Nat
  attempts : Nat
  deriving DecidableEq, Repr

/-- The engine's use of the chain: nothing asked, a request waiting, or an exchange in progress. -/
inductive EngineLink where
  | none | waiting | exchange
  deriving DecidableEq, Repr

/-- The steps of a commit (R154), and the firmware floor write of R163. -/
inductive CommitStep where
  | none | bank | marker | floor | fwFloor
  deriving DecidableEq, Repr

/-- A switch window (R161): its start, the probes asked for, and the version last reported in it. -/
structure SwitchWindow where
  since : Ms
  probes : Nat
  reported : Option Nat
  deriving DecidableEq, Repr

/-- The kinds of slip of the engine that can be in flight (R146). -/
inductive EngineSlip where
  | check | apply
  deriving DecidableEq, Repr

/-- The update engine (R145 to R167). -/
structure Update where
  state : UpdState
  slip : Option (EngineSlip × Nat)
  aborts : List Nat
  header : Header
  staging : List Byte
  expected : Nat
  lastAcc : Option Nat
  runCrc : Word
  absorbing : Option Absorb
  waiting : List Buffer
  acc : Nat
  dup : Nat
  rej : Nat
  dist : List DistRec
  turn : Option Turn
  link : EngineLink
  pause : Option Ms
  switchPending : Bool
  commitReached : Bool
  floorWritten : Bool
  commit : CommitStep
  bankWritten : Option BankId
  window : Option SwitchWindow
  aborting : Bool
  outcome : UpdOutcome
  outcomeState : Option UpdState
  watches : List (Nat × Ms)
  checkAt : Ms
  deriving DecidableEq, Repr

/-! ### The part -/

/-- The levels of the input pins. -/
structure Pins where
  resetN : Bool
  wakeLine : Bool
  chainAlert : Bool
  deriving DecidableEq, Repr

/-- The exchange memory: the bytes that are not 0, by rising address (log 8). -/
abbrev Memory := List Host.Cell

/-- The whole part. -/
structure State where
  mem : Memory
  pins : Pins
  port : Port
  attn : Attn
  chain : Chain
  conv : Conv
  plan : Planner
  sup : Sup
  ev : Recorder
  power : Power
  store : Store
  upd : Update
  free : Nat
  pending : List Instr
  deriving DecidableEq, Repr

/-! ### The machine right after POWER_ON of a part fresh from manufacture (R129, R183, log 1)

Log 2 names the values that no rule gives. -/

/-- The exchange port (R183); the module map has been read with origin RESET. -/
def resetPort : Port :=
  { notes := []
    slots := List.replicate 8 none
    fault := none
    faultCount := 0
    tables :=
      List.replicate 3 { number := 0, origin := .note, outcome := .taken, count := 0, clamps := [] }
      ++ [{ number := 1
            origin := .reset
            outcome := .takenClamped
            count := 48
            clamps := [⟨1, 1, false⟩, ⟨1, 4, false⟩, ⟨2, 1, false⟩, ⟨2, 4, false⟩] }]
    lastTable := 3 }

/-- The chain controller: the first survey runs with origin DOWN, behind the wake tone (R4, R5, R13, R15, R22, R24, R126),
and the module map was read from the zero memory, each field clamped (R15, R16). -/
def resetChain : Chain :=
  { state := .surveying
    origin := .down
    wasDown := true
    downSince := 0
    errs := []
    suspectSince := 0
    periodStart := 0
    periodErrs := 0
    capTag := 1
    exTag := 1
    survey := List.replicate 24
      { present := false
        kind := 0
        cells := 0
        sensors := 0
        roundTrip := 0
        delay := 0
        delayClamped := false
        version := 0 }
    present := 0
    configured := 0
    breakLoc := 0
    map := List.replicate 24
      { configured := false
        cells := 4
        sensors := 0
        source := .host
        gain := 30000
        offset := 0
        state := .absent
        cause := none
        miss := 0
        delay := 0
        delayClamped := false
        version := 0
        status := { balancing := false, overTemp := false, internalFault := false }
        balMask := 0
        balEnd := 0 }
    hold := some (.survey 1 false)
    line := .idle
    lastSent := none
    requests := []
    sleepCmd := false
    wakeAfterSleep := false
    wake := .none
    resetTone := true
    surveyTimer := none
    firstUp := false
    surveySlip := none
    balance := none
    returning := [] }

/-- The pack converter (R36), its record written once (log 9). -/
def resetConv : Conv :=
  { scanning := true
    us := 0
    part := 0
    lastLatch := 0
    latched := none
    history := []
    charge := 0
    chargeSat := false
    restored := false
    unsampled := 0
    estimate := none
    snapTimer := 0
    recNumber := 1 }

/-- An inactive plan, as the clamped zero table gives it (R38, R39). -/
def resetPlan : Plan :=
  { active := false
    period := 5
    phase := 0
    mask := 0
    contents := .cells
    pause := 0
    publish := false }

/-- The capture planner (R39, R57, R60, R61, R69). -/
def resetPlanner : Planner :=
  { plans := List.replicate 8 resetPlan
    inForce := List.replicate 8 resetPlan
    dueDone := List.replicate 8 false
    overrun := List.replicate 8 false
    captures := []
    burst := none
    kept := List.replicate 24 none
    high := 0
    low := 0
    temp := 0
    implausible := 0
    fresh := none
    setSeq := 1
    pages := List.replicate 4 { seq := 0, held := false, pending := false }
    pageAge := []
    writing := none
    latest := none
    quiet := false
    patrolReport := none }

/-- The contactor supervisor, waiting for the start-up read (R74, R93). -/
def resetSup : Sup :=
  { state := .lockedOut
    waiting := true
    mainNeg := { on := false, since := 0, nextReport := 0 }
    precharge := { on := false, since := 0, nextReport := 0 }
    mainPos := { on := false, since := 0, nextReport := 0 }
    inrush := none
    lowSupply := false
    close := none
    settleAt := 0
    opening := none
    weld := none
    clear := none
    deferral := none
    hardRun := 0
    hardFell := false
    hardDue := false
    faultedSince := none
    lossHeld := false
    lossDue := false
    silence := 0
    warn := false
    lapsed := false
    once :=
      { set := false
        limit := 0
        policyArmed := true
        moduleFault := false } }

/-- The power controller (R126). -/
def resetPower : Power :=
  { state := .run
    entry := none
    snapOutcome := .none
    wakeTable :=
      { timer := 1
        line := 2
        chain := 2
        current := 2
        chainFail := 2
        period := 3600
        threshold := 200 }
    pend := 0
    target := .none
    timer := 0
    timerRunning := false
    compRun := 0
    compFired := false
    settleAt := 0
    settled := false
    patrol := none
    nextSlot := 0
    lastNumber := 0
    estimate := .noAverage
    lastWake := none
    returning := none
    lastReset := .powerOn
    resetCount := 0
    wakeOut := false
    wakeOutAt := 0 }

/-- The update engine (R166). -/
def resetUpdate : Update :=
  { state := .idle
    slip := none
    aborts := []
    header :=
      { target := .limitImage
        kind := 0
        mask := 0
        version := 0
        length := 0
        tag := [] }
    staging := []
    expected := 0
    lastAcc := none
    runCrc := 0xFFFFFFFF
    absorbing := none
    waiting := []
    acc := 0
    dup := 0
    rej := 0
    dist := []
    turn := none
    link := .none
    pause := none
    switchPending := false
    commitReached := false
    floorWritten := false
    commit := .none
    bankWritten := none
    window := none
    aborting := false
    outcome := .none
    outcomeState := none
    watches := []
    checkAt := 0 }

/-- The body of the factory image: the 18 fields of 7.4 as 4-byte signed values, at their factory values (R129, 12.3). -/
def factoryImage : List Byte :=
  [4, 0xA6, 0, 0, 0xA8, 0x61, 0, 0, 0x8A, 2, 0, 0, 0xD4, 0xFE, 0xFF, 0xFF, 0x50, 0xC3, 0, 0, 0x64, 0, 0, 0, 0xB8,
   0x88, 0, 0, 0x2C, 1, 0, 0, 0xB6, 3, 0, 0, 0x20, 3, 0, 0, 0x84, 3, 0, 0, 0xDC, 5, 0, 0, 0x2C, 1, 0, 0, 0x84, 3, 0,
   0, 0x64, 0, 0, 0, 0xC8, 0, 0, 0, 0, 0x80, 0, 0, 0, 0, 0, 0]

/-- The settings store of a part fresh from manufacture: every record ERASED, bank A the factory image at version 0, bank
B erased; the start-up read is under way (R129, R133, R138, R144; log 12). -/
def resetStore : Store :=
  { nv :=
      { marker := ⟨.erased, .erased⟩
        floor := ⟨.erased, .erased⟩
        fwFloors := ⟨.erased, .erased⟩
        key := ⟨.erased, .erased⟩
        wearNeg := ⟨.erased, .erased⟩
        wearPos := ⟨.erased, .erased⟩
        lockout := ⟨.erased, .erased⟩
        snapshot := ⟨.erased, .erased⟩
        bankA := some { version := 0, body := factoryImage }
        bankB := none }
    work :=
      { marker := some (.a)
        floor := 0
        fwFloors := List.replicate 8 0
        key := .empty
        wearNeg := 0
        wearPos := 0
        lockout := { set := false, part := 0, vLink := 0, vBatt := 0 }
        snapshot := none }
    queue := []
    running := none
    startUp := true
    active :=
      { cellMax := 42500
        cellMin := 25000
        tempMax := 650
        tempMin := -300
        hardCurrent := 50000
        hardCount := 100
        breakLimit := 35000
        deferral := 300
        ratio := 950
        timeout := 800
        weldRatio := 900
        weldWindow := 1500
        coilMin := 300
        surge := 900
        chainHold := 100
        grace := 200
        gain := 32768
        offset := 0 }
    activeBank := none
    activeVersion := 0
    clampCount := 0
    outcome := .markedBank
    faultCause := none
    faultItem := none
    faultCount := 0
    lost := 0
    taken :=
      { softMax := 41500
        softMin := 30000
        sumTol := 200
        sleepMin := 30000
        sleepMax := 42000
        sleepTemp := 600
        imbalance := 1000 }
    inForce :=
      { softMax := 41500
        softMin := 30000
        sumTol := 200
        sleepMin := 30000
        sleepMax := 42000
        sleepTemp := 600
        imbalance := 1000 }
    rangeClamps := []
    hardClamps := []
    keySlip := none }

/-- What the owners write at POWER_ON into the zero memory: the directory, and the update status (R173, R183). -/
def resetMem : Memory :=
  [(0, 1), (4, 0xFF), (16, 1), (17, 1), (20, 6), (23, 2), (84, 1), (104, 0x10), (105, 0xE), (108, 0xC8), (240, 1),
   (242, 1), (243, 1), (244, 0x30), (245, 1), (246, 1), (247, 1), (248, 4), (249, 2), (250, 1), (251, 2), (252, 4),
   (253, 3), (18490, 0xFF), (18491, 0xFF), (18492, 0xFF), (18493, 0xFF)]

/-- The machine right after reset: POWER_ON of a part fresh from manufacture (R183, log 1). -/
def State.reset : State :=
  { mem := resetMem
    pins := { resetN := false, wakeLine := false, chainAlert := false }
    port := resetPort
    attn := { factors := 0, enables := 0, levels := List.replicate 6 0, mask := 0, line := false }
    chain := resetChain
    conv := resetConv
    plan := resetPlanner
    sup := resetSup
    ev := { slots := List.replicate 16 none, age := [], next := 1, filling := [], inbox := [] }
    power := resetPower
    store := resetStore
    upd := resetUpdate
    free := 0
    pending := [] }

end Sys2Proof.Machine
end

