-- ==== Sys2Proof/Machine/Ops.lean ====
section
/-! DEFINITION. The named operations that every block shares: the exchange memory, byte order, rounding, clamping, lists
indexed by address, the cyclic checks. -/

namespace Sys2Proof.Machine

/-! ### The exchange memory (R168, R169, R183)

A byte that is not listed reads 0, as the whole memory does at POWER_ON (R183). -/

/-- The exchange memory is 32 KiB (R168). -/
def memSize : Nat := 0x8000

/-- Read one byte. -/
def Memory.read : Memory → Nat → Byte
  | [], _ => 0
  | (b, v) :: m, a => if b = a then v else Memory.read m a

/-- The cells of a run of bytes stored from `base`: bytes equal to what an unlisted address reads as are not listed, nor
addresses beyond the memory. -/
def Memory.cells (base : Nat) : List Byte → Memory
  | [] => []
  | v :: vs =>
    if v = 0 ∨ memSize ≤ base then Memory.cells (base + 1) vs
    else (base, v) :: Memory.cells (base + 1) vs

/-- The cells below an address. -/
def Memory.below (a : Nat) : Memory → Memory
  | [] => []
  | c :: m => if c.1 < a then c :: Memory.below a m else Memory.below a m

/-- The cells from an address on. -/
def Memory.from (a : Nat) : Memory → Memory
  | [] => []
  | c :: m => if c.1 < a then Memory.from a m else c :: Memory.from a m

/-- Store a run of bytes from `base`, keeping the canonical form. -/
def Memory.store (m : Memory) (base : Nat) (bs : List Byte) : Memory :=
  Memory.below base m ++ (Memory.cells base bs ++ Memory.from (base + bs.length) m)

/-- The addresses rise strictly from above `lo`, lie in the memory, and no listed byte is 0. -/
def Memory.wfFrom : Nat → Memory → Bool
  | _, [] => true
  | lo, (a, v) :: m => decide (lo ≤ a) && decide (a < memSize) && decide (v ≠ 0) && Memory.wfFrom (a + 1) m

/-- The canonical form: addresses strictly rising, inside the memory, no entry equal to what an unlisted address reads
as. -/
def Memory.wf (m : Memory) : Bool := Memory.wfFrom 0 m

/-- The bytes of a run of addresses. -/
def Memory.readBytes (m : Memory) (base : Nat) : Nat → List Byte
  | 0 => []
  | n + 1 => Memory.read m base :: Memory.readBytes m (base + 1) n

/-! ### Byte order: multi-byte fields are little-endian (chapter 12) -/

/-- The `n` bytes of a number, least significant first. -/
def le : Nat → Nat → List Byte
  | 0, _ => []
  | n + 1, v => BitVec.ofNat 8 v :: le n (v / 256)

/-- The `n` bytes of a signed number in two's complement, least significant first. -/
def les (n : Nat) (v : Int) : List Byte := le n (v % (256 ^ n : Nat)).toNat

/-- The number that bytes spell, least significant first. -/
def ofLe : List Byte → Nat
  | [] => 0
  | b :: bs => b.toNat + 256 * ofLe bs

/-- The signed number that bytes spell in two's complement. -/
def ofLes (bs : List Byte) : Int :=
  if ofLe bs < 256 ^ bs.length / 2 then (ofLe bs : Int) else (ofLe bs : Int) - (256 ^ bs.length : Nat)

/-- A yes, set or present is 1 and a no, clear or absent is 0 (chapter 12). -/
def flag (b : Bool) : Byte := if b then 1 else 0

/-- The number of a list of flags, the first in bit 0. -/
def flagBits : List Bool → Nat
  | [] => 0
  | b :: bs => (if b then 1 else 0) + 2 * flagBits bs

/-- Exactly `n` bytes: cut, or filled with zeros (R191). -/
def fit : Nat → List Byte → List Byte
  | 0, _ => []
  | n + 1, [] => 0 :: fit n []
  | n + 1, b :: bs => b :: fit n bs

/-- Read a little-endian number of `n` bytes. -/
def Memory.num (m : Memory) (a n : Nat) : Nat := ofLe (Memory.readBytes m a n)

/-- Read a signed little-endian number of `n` bytes. -/
def Memory.int (m : Memory) (a n : Nat) : Int := ofLes (Memory.readBytes m a n)

/-- Read one word (R169). -/
def Memory.word (m : Memory) (a : Nat) : Word := BitVec.ofNat 32 (Memory.num m a 4)

/-! ### Rounding and clamping (00, Units and numbers) -/

/-- Round half up: an exact half goes to the next integer above. -/
def roundHalfUp (n : Int) (d : Nat) : Int := (2 * n + d) / (2 * d : Nat)

/-- Round half away: an exact half goes away from zero. -/
def roundHalfAway (n : Int) (d : Nat) : Int :=
  if 0 ≤ n then (2 * n + d) / (2 * d : Nat) else -((2 * -n + d) / (2 * d : Nat))

/-- The nearest bound of a range. -/
def clampInt (lo hi v : Int) : Int := if v < lo then lo else if hi < v then hi else v

/-- The nearest bound of a range. -/
def clampNat (lo hi v : Nat) : Nat := if v < lo then lo else if hi < v then hi else v

/-- Advance a count that is held at a highest value. -/
def bump (hi v : Nat) : Nat := if v < hi then v + 1 else hi

/-- The next value of a counter that runs 1, 2, …, `hi` and then back to 1. -/
def cycle (hi v : Nat) : Nat := if v < hi then v + 1 else 1

/-! ### Lists -/

/-- Replace the entry at a position. -/
def setAt {α : Type} : List α → Nat → α → List α
  | [], _, _ => []
  | _ :: l, 0, v => v :: l
  | x :: l, n + 1, v => x :: setAt l n v

/-- Change the entry at a position. -/
def modifyAt {α : Type} : List α → Nat → (α → α) → List α
  | [], _, _ => []
  | x :: l, 0, f => f x :: l
  | x :: l, n + 1, f => x :: modifyAt l n f

/-- The entry at a position. -/
def getAt {α : Type} : List α → Nat → Option α
  | [], _ => none
  | x :: _, 0 => some x
  | _ :: l, n + 1 => getAt l n

/-- The last entry. -/
def lastOf {α : Type} : List α → Option α
  | [] => none
  | [x] => some x
  | _ :: y :: l => lastOf (y :: l)

/-- The entry of a list indexed by the addresses 1 to 24. -/
def atAddr {α : Type} (l : List α) (a : Nat) : Option α := if a = 0 then none else getAt l (a - 1)

/-- Change the entry of an address. -/
def modifyAddr {α : Type} (l : List α) (a : Nat) (f : α → α) : List α :=
  if a = 0 then l else modifyAt l (a - 1) f

/-- The addresses 1 to 24, ascending. -/
def addresses : List Nat :=
  [1, 2, 3, 4, 5, 6, 7, 8, 9, 10, 11, 12, 13, 14, 15, 16, 17, 18, 19, 20, 21, 22, 23, 24]

/-- Whether a mask selects an address: bit 0 is address 1 (12.2). -/
def selects (mask : BitVec 24) (a : Nat) : Bool := decide (a ≠ 0) && mask.getLsbD (a - 1)

/-! ### Cyclic checks -/

/-- One byte into the CRC-8 of chain frames (R1): polynomial x^8+x^2+x+1, most significant bit first. -/
def crc8Byte (crc b : Nat) : Nat :=
  let step (c : Nat) : Nat := if c / 128 % 2 = 1 then (2 * c % 256) ^^^ 0x07 else 2 * c % 256
  step (step (step (step (step (step (step (step (crc ^^^ b))))))))

/-- The CRC-8 of R1: initial value 0, no final inversion. -/
def crc8 (bs : List Byte) : Byte := BitVec.ofNat 8 (bs.foldl (fun c b => crc8Byte c b.toNat) 0)

/-- One byte into the CRC-16 of firmware blocks (R157): x^16+x^15+x^2+1, most significant bit first. -/
def crc16Byte (crc b : Nat) : Nat :=
  let step (c : Nat) : Nat := if c / 32768 % 2 = 1 then (2 * c % 65536) ^^^ 0x8005 else 2 * c % 65536
  step (step (step (step (step (step (step (step (crc ^^^ (b * 256)))))))))

/-- The CRC-16 of R157: initial value 0, no final inversion. -/
def crc16 (bs : List Byte) : Half := BitVec.ofNat 16 (bs.foldl (fun c b => crc16Byte c b.toNat) 0)

/-- One byte into the CRC-32 of R145: generator 0x04C11DB7 with each byte entered least significant bit first, so the
register is kept reflected (0xEDB88320). -/
def crc32Byte (crc b : Nat) : Nat :=
  let step (c : Nat) : Nat := if c % 2 = 1 then (c / 2) ^^^ 0xEDB88320 else c / 2
  step (step (step (step (step (step (step (step (crc ^^^ b))))))))

/-- Carry a running CRC-32 on over bytes (R149), without the final inversion, as the update status shows it (log 93). -/
def crc32On (run : Word) (bs : List Byte) : Word :=
  BitVec.ofNat 32 (bs.foldl (fun c b => crc32Byte c b.toNat) run.toNat)

/-- The initial value of a running CRC-32 (R145). -/
def crc32Init : Word := 0xFFFFFFFF

/-- The CRC-32 of R145. -/
def crc32 (bs : List Byte) : Word := ~~~ (crc32On crc32Init bs)

/-! ### Clocks -/

/-- The present part time (R30). -/
def State.now (s : State) : Ms := s.conv.part

/-- What the µs time base shows at an event of the chain: the instant of the event, or the halted value (R29). -/
def State.usAt (s : State) (us : Us) : Us := if s.conv.scanning then us else s.conv.us

/-- The µs time base stands at the instant of an event, unless it is halted (R29). -/
def State.atUs (s : State) (us : Us) : State := { s with conv.us := s.usAt us }

/-- At least `ms` have passed since a part time. -/
def State.passed (s : State) (since : Ms) (ms : Nat) : Bool := decide (ms ≤ elapsed s.now since)

/-- The newest completed sample (R27). -/
def State.newest (s : State) : Option Sample := lastOf s.conv.history

/-- The current of the newest completed sample; a free value while the history is empty (log 14). -/
def State.newestI (s : State) : Int :=
  match s.newest with
  | some x => x.i
  | none => Config.freeCurrent s.free

/-- V_LINK of the newest completed sample; a free value while the history is empty (log 14). -/
def State.newestLink (s : State) : Nat :=
  match s.newest with
  | some x => x.vLink
  | none => Config.freeLink s.free

/-- V_BATT of the newest completed sample; a free value while the history is empty (log 14). -/
def State.newestBatt (s : State) : Nat :=
  match s.newest with
  | some x => x.vBatt
  | none => Config.freeBatt s.free

/-- After a use of the newest sample the free counter advances, if a free value stood for it. -/
def State.drawn (s : State) : State :=
  match s.newest with
  | some _ => s
  | none => { s with free := s.free + 1 }

/-- The part stores bytes of its own. -/
def State.put (s : State) (base : Nat) (bs : List Byte) : State := { s with mem := s.mem.store base bs }

end Sys2Proof.Machine
end

