-- ==== Sys2Proof/Machine/Flags.lean ====
section
/-! DEFINITION. The attention unit's operations (chapter 10): raising and clearing factors, the factor word, the ATTN line
and the report of SUMMARY. -/

namespace Sys2Proof.Machine

/-- The rank of a factor, 1 to 20 (chapter 10). -/
def Factor.rank : Factor → Nat
  | .contactorChange => 1
  | .autoOpen => 2
  | .lockout => 3
  | .wakeReason => 4
  | .silenceWarn => 5
  | .chainState => 6
  | .surveyDone => 7
  | .moduleFault => 8
  | .setReady => 9
  | .setDropped => 10
  | .limitSoft => 11
  | .sumMismatch => 12
  | .planOverrun => 13
  | .updateState => 14
  | .storeFault => 15
  | .slipDone => 16
  | .eventNew => 17
  | .eventFull => 18
  | .noteFault => 19
  | .tableStatus => 20

/-- A factor's bit in the factor word, the enable word and a CLEAR mask: rank − 1 (12.1). -/
def Factor.bit (f : Factor) : Nat := f.rank - 1

/-- The group of a factor (chapter 10). -/
def Factor.group : Factor → Group
  | .contactorChange | .autoOpen | .lockout => .contactor
  | .wakeReason | .silenceWarn => .power
  | .chainState | .surveyDone | .moduleFault => .chain
  | .setReady | .setDropped | .limitSoft | .sumMismatch | .planOverrun => .sampling
  | .updateState | .storeFault => .update
  | .slipDone | .eventNew | .eventFull | .noteFault | .tableStatus => .port

/-- The position of a group among the level fields (12.1). -/
def Group.index : Group → Nat
  | .contactor => 0
  | .power => 1
  | .chain => 2
  | .sampling => 3
  | .update => 4
  | .port => 5

/-- The 20 factors in rank order. -/
def Factor.all : List Factor :=
  [.contactorChange, .autoOpen, .lockout, .wakeReason, .silenceWarn, .chainState, .surveyDone, .moduleFault, .setReady,
   .setDropped, .limitSoft, .sumMismatch, .planOverrun, .updateState, .storeFault, .slipDone, .eventNew, .eventFull,
   .noteFault, .tableStatus]

/-- The mask with a factor's bit alone. -/
def Factor.word (f : Factor) : BitVec 20 := BitVec.ofNat 20 (2 ^ f.bit)

/-- Whether a factor is pending (R184). -/
def Attn.pending (a : Attn) (f : Factor) : Bool := a.factors.getLsbD f.bit

/-- Whether a factor is enabled (R186). -/
def Attn.enabled (a : Attn) (f : Factor) : Bool := a.enables.getLsbD f.bit

/-- The working level of a factor's group (R186). -/
def Attn.level (a : Attn) (f : Factor) : Nat := (getAt a.levels f.group.index).getD 0

/-- A factor calls while it is pending, enabled, and its group's level is above the mask level (R188). -/
def Attn.calls (a : Attn) (f : Factor) : Bool := a.pending f && a.enabled f && decide (a.mask < a.level f)

/-- The power states in which ATTN follows its condition (R106, R188). -/
def PowerState.awake : PowerState → Bool
  | .run | .enteringDeep => true
  | .deep | .waking | .patrol => false

/-- The condition of ATTN (R188). -/
def attnCondition (p : PowerState) (a : Attn) : Bool := p.awake && Factor.all.any a.calls

/-- ATTN is judged (R188). -/
def State.judgeAttn (s : State) : State :=
  { s with attn.line := attnCondition s.power.state s.attn }

/-- The address of the factor word (12.1). -/
def factorWordAt : Nat := 0x100

/-- The factor states change: the factor word is rewritten at a change (R184), and ATTN is judged. -/
def State.setFactors (s : State) (w : BitVec 20) : State :=
  if w = s.attn.factors then s
  else State.judgeAttn { s with attn.factors := w, mem := s.mem.store factorWordAt (le 4 w.toNat) }

/-- A block raises a factor: it becomes pending, or stays pending (R184). -/
def State.raise (s : State) (f : Factor) : State := s.setFactors (s.attn.factors ||| f.word)

/-- CLEAR: every factor of the mask becomes clear, the factor word is rewritten once, ATTN is judged again; making a
pending CHAIN_STATE clear also clears the "was down since last clear" mark, and a bit for a factor that is already clear
changes nothing (R185, R5). -/
def State.clearFactors (s : State) (m : BitVec 20) : State :=
  let s1 : State := { s with
    attn.factors := s.attn.factors &&& ~~~m
    mem := s.mem.store factorWordAt (le 4 (s.attn.factors &&& ~~~m).toNat) }
  let s2 : State :=
    if m.getLsbD Factor.chainState.bit && s.attn.pending .chainState then { s1 with chain.wasDown := false } else s1
  s2.judgeAttn

/-- The enables and the six levels are read from the attention area, a level above 3 taken as 3 (R186, 12.1), and ATTN is
judged. -/
def State.readLevels (s : State) : State :=
  State.judgeAttn { s with
    attn.enables := BitVec.ofNat 20 (s.mem.num 0x104 4)
    attn.levels := (s.mem.readBytes 0x108 6).map fun b => min b.toNat 3 }

/-- The mask level is set and ATTN is judged (R187). -/
def State.setMaskLevel (s : State) (l : Nat) : State := State.judgeAttn { s with attn.mask := l }

/-- The pending, enabled factors in rank order. -/
def Attn.shown (a : Attn) : List Factor := Factor.all.filter fun f => a.pending f && a.enabled f

/-- The highest level of SUMMARY, whatever the mask level (R189). -/
def Attn.highest (a : Attn) : Option Nat :=
  match a.shown with
  | [] => none
  | fs => some (fs.foldl (fun m f => max m (a.level f)) 0)

/-- The holding factor of SUMMARY: the lowest rank at the highest level (R189). -/
def Attn.holding (a : Attn) : Option Factor :=
  match a.highest with
  | none => none
  | some l => a.shown.find? fun f => decide (a.level f = l)

end Sys2Proof.Machine
end

