-- ==== Sys2Proof/Machine/Formats.lean ====
section
/-! DEFINITION. The layouts of chapter 12: the codes of named values, the bytes of each record that the part shows, and
`mirror`, which rewrites a record when the state it shows has changed.

Named values without a code of their own are coded by their position, from 0; where the field may be absent, from 1
(chapter 12). -/

namespace Sys2Proof.Machine

/-! ### Codes -/

/-- Chain states run DOWN 0 to ASLEEP 4 (chapter 12). -/
def ChainState.code : ChainState → Nat
  | .down => 0
  | .surveying => 1
  | .up => 2
  | .suspect => 3
  | .asleep => 4

/-- Module states in the order of 1.4. -/
def ModState.code : ModState → Nat
  | .absent => 0
  | .inService => 1
  | .stale => 2
  | .faulted => 3
  | .outOfService => 4

/-- A module's fault cause runs MAP_MISMATCH 1 to INTERNAL 4 (chapter 12). -/
def FaultCause.code : FaultCause → Nat
  | .mapMismatch => 1
  | .absent => 2
  | .missed => 3
  | .internal => 4

/-- Supervisor states in the order of chapter 4. -/
def SupState.code : SupState → Nat
  | .open_ => 0
  | .precharging => 1
  | .closing => 2
  | .closed => 3
  | .opening => 4
  | .weldCheck => 5
  | .lockedOut => 6

/-- Power states in the order of chapter 6. -/
def PowerState.code : PowerState → Nat
  | .run => 0
  | .enteringDeep => 1
  | .deep => 2
  | .waking => 3
  | .patrol => 4

/-- Wake targets (12.2). -/
def Target.code : Target → Nat
  | .none => 0
  | .patrol => 1
  | .run => 2

/-- Snapshot outcomes (12.2). -/
def SnapOutcome.code : SnapOutcome → Nat
  | .none => 0
  | .written => 1
  | .failed => 2
  | .skipped => 3

/-- Patrol results (12.2, 12.5). -/
def PatrolResult.code : PatrolResult → Nat
  | .pass => 1
  | .breach => 2
  | .chainFail => 3

/-- Reset causes (12.2). -/
def ResetCause.code : ResetCause → Nat
  | .powerOn => 0
  | .resetLine => 1

/-- Store item codes (12.2). -/
def StoreItem.code : StoreItem → Nat
  | .marker => 1
  | .floor => 2
  | .fwFloors => 3
  | .key => 4
  | .wearNeg => 5
  | .wearPos => 6
  | .lockout => 7
  | .snapshot => 8
  | .bankA => 9
  | .bankB => 10

/-- Banks: none 0, A 1, B 2 (12.2). -/
def bankCode : Option BankId → Nat
  | none => 0
  | some .a => 1
  | some .b => 2

/-- Start-up outcomes (12.2). -/
def StartOutcome.code : StartOutcome → Nat
  | .markedBank => 0
  | .otherBank => 1
  | .factoryValues => 2

/-- Store fault causes: none 0 (12.2). -/
def storeFaultCode : Option StoreFaultCause → Nat
  | none => 0
  | some .writeFailed => 1
  | some .recordLost => 2
  | some .noImage => 3

/-- Key slot states (12.2). -/
def KeySlot.code : KeySlot → Nat
  | .empty => 0
  | .present _ => 1
  | .faulted => 2

/-- Update states in the order of 8.1. -/
def UpdState.code : UpdState → Nat
  | .idle => 0
  | .receiving => 1
  | .checking => 2
  | .verified => 3
  | .committing => 4
  | .distributing => 5
  | .switching => 6

/-- Update outcomes run NONE 0 to RESET_DURING 10 (chapter 12). -/
def UpdOutcome.code : UpdOutcome → Nat
  | .none => 0
  | .ok => 1
  | .tagFail => 2
  | .stagingFault => 3
  | .staleVersion => 4
  | .store => 5
  | .chainLost => 6
  | .noneSent => 7
  | .partial_ => 8
  | .aborted => 9
  | .resetDuring => 10

/-- Targets as the image header codes them (12.3). -/
def UpdTarget.code : UpdTarget → Nat
  | .limitImage => 1
  | .moduleFirmware => 2

/-- Distribution record states in the order of R156. -/
def DistState.code : DistState → Nat
  | .pending => 0
  | .sending => 1
  | .sent => 2
  | .failed => 3
  | .switched => 4
  | .rollback => 5

/-- A distribution record's failure cause runs NOT_ELIGIBLE 1 to RESET 5 (chapter 12). -/
def DistCause.code : DistCause → Nat
  | .notEligible => 1
  | .noAck => 2
  | .chainLost => 3
  | .aborted => 4
  | .reset => 5

/-- Event kinds in the order of the table of 5.1. -/
def EventKind.code : EventKind → Nat
  | .closedDone => 0
  | .opened => 1
  | .autoOpen => 2
  | .prechargeTimeout => 3
  | .coilFault => 4
  | .weldSuspect => 5
  | .highCurrentBreak => 6
  | .lockoutCleared => 7
  | .silence => 8
  | .chainDown => 9
  | .chainUp => 10
  | .fullWake => 11
  | .updateOutcome => 12
  | .moduleRollback => 13

/-- Autonomous causes: HARD_CELL_HIGH 1 to CHAIN_LOSS 6 (12.4). -/
def OpenCause.code : OpenCause → Nat
  | .hardCellHigh => 1
  | .hardCellLow => 2
  | .hardTemp => 3
  | .hardCurrent => 4
  | .silence => 5
  | .chainLoss => 6

/-- Coils: MAIN_NEG 1, PRECHARGE 2, MAIN_POS 3 (12.4). -/
def coilCode : CoilName → Nat
  | .mainNeg => 1
  | .precharge => 2
  | .mainPos => 3

/-- Note fault causes, absent 0, in the order of R174. -/
def NoteCause.code : NoteCause → Nat
  | .overrun => 1
  | .unknownKind => 2
  | .badArgument => 3
  | .slotNotPosted => 4
  | .noSuchSequence => 5

/-- Origins of a table status entry, in the order of R182. -/
def Origin.code : Origin → Nat
  | .note => 0
  | .reset => 1
  | .reclamp => 2

/-- Outcomes of a table, in the order of R182. -/
def TableOutcome.code : TableOutcome → Nat
  | .taken => 0
  | .takenClamped => 1
  | .refusedTotals => 2
  | .refusedContactors => 3
  | .refusedUpdate => 4

/-- The linked set: not a burst kind 0, AWAITED 1, NONE 2, linked 3 (12.4). -/
def Linked.code : Linked → Nat
  | .notBurst => 0
  | .awaited => 1
  | .none => 2
  | .linked _ => 3

/-- One byte. -/
def byte (n : Nat) : Byte := BitVec.ofNat 8 n

/-- The coil outputs as bits MAIN_NEG, PRECHARGE, MAIN_POS (12.2, 12.4). -/
def Coils.bits (c : Coils) : Nat := flagBits [c.mainNeg, c.precharge, c.mainPos]

/-- The present coil outputs. -/
def Sup.coils (p : Sup) : Coils := ⟨p.mainNeg.on, p.precharge.on, p.mainPos.on⟩

/-- The surge state (R73). The end of the inrush part is kept while it has not passed. -/
def Sup.surge (p : Sup) : Bool := p.inrush.isSome || p.lowSupply

/-! ### Directory records -/

/-- The contactor record, 0x0014 to 0x0027, less the silence count, which is rewritten once per 10 ms (12.2, chapter 4). -/
def contactorBytes (p : Sup) : List Byte :=
  [byte p.state.code, byte p.coils.bits, flag p.surge,
   byte (flagBits [p.once.set, p.once.policyArmed, p.once.moduleFault])]
  ++ le 2 p.once.limit ++ [byte (flagBits [p.warn, p.lapsed])]
  ++ (match p.deferral with
      | none => 0 :: le 4 0 ++ le 2 0
      | some d =>
        byte (flagBits (true :: [OpenCause.hardCellHigh, .hardCellLow, .hardTemp, .hardCurrent, .silence, .chainLoss].map
          fun c => d.causes.any fun r => decide (r.cause = c)))
        :: le 4 d.start.toNat ++ le 2 d.limit)
  ++ [0, 0]

/-- The converter record without its write number: 0x0030 to 0x0053 (R35, 12.2). -/
def converterBytes (c : Conv) : List Byte :=
  (match lastOf c.history with
   | none => fit 24 []
   | some x => le 4 x.t.toNat ++ les 4 x.i ++ le 4 x.vBatt ++ le 4 x.vLink ++ le 2 x.vCoil
      ++ [flag x.satI, flag x.satBatt, flag x.satLink, flag x.satCoil, 0, 0])
  ++ les 8 c.charge ++ [flag c.chargeSat, flag c.restored, flag (!c.scanning), 0]

/-- The power record, 0x0060 to 0x008F (R125, 12.2). -/
def powerBytes (p : Power) : List Byte :=
  fit 48 ([byte p.state.code, byte p.target.code, byte p.pend.toNat,
    byte (match p.entry with | none => 0 | some e => e.step), byte p.snapOutcome.code, byte p.lastReset.code]
  ++ le 2 p.resetCount ++ le 4 p.wakeTable.period ++ le 2 p.wakeTable.threshold
  ++ [byte p.nextSlot, 0] ++ le 2 p.lastNumber
  ++ [byte (match p.lastWake with
        | none => 0
        | some (src, r) => 1 + 2 * src.toNat + 64 * (match r with | none => 0 | some r => r.code))])

/-- The item of a write request; a bank write's item needs the bank. -/
def Payload.item (bank : BankId) : Payload → StoreItem
  | .marker _ => .marker
  | .floor _ => .floor
  | .fwFloor _ _ => .fwFloors
  | .key _ => .key
  | .wearNeg _ => .wearNeg
  | .wearPos _ => .wearPos
  | .lockout _ => .lockout
  | .snapshot _ => .snapshot
  | .bank _ => if bank = .a then .bankA else .bankB

/-- The store record, 0x0090 to 0x00AF (R143, 12.2). -/
def storeBytes (t : Store) : List Byte :=
  fit 32 ([byte t.outcome.code, byte (bankCode t.activeBank)] ++ le 2 t.activeVersion
  ++ [byte t.clampCount, byte t.work.key.code] ++ le 2 t.work.floor
  ++ [byte t.queue.length, byte (match t.running with | none => 0 | some r => (r.req.payload.item r.bank).code),
      byte (storeFaultCode t.faultCause), byte (match t.faultItem with | none => 0 | some i => i.code)]
  ++ le 2 t.faultCount ++ le 2 t.lost.toNat)

/-- The last note fault, 0x00B4 to 0x00BB (R174, 12.2). Where it ends the model chooses (log 91). -/
def noteFaultBytes (p : Port) : List Byte :=
  (match p.fault with
   | none => [0, 0, 0, 0, 0]
   | some f => f.kind :: le 3 f.argument.toNat ++ [byte f.cause.code])
  ++ le 2 p.faultCount ++ [0]

/-- Clamp records, four of 2 bytes (12.2). -/
def clampBytes (l : List ClampRec) : List Byte :=
  fit 8 (l.flatMap fun c => [byte (c.index % 128 + (if c.hard then 128 else 0)), byte c.field])

/-- A table status entry without its write number (12.2). -/
def tableBytes (e : TableEntry) : List Byte :=
  [byte e.origin.code, byte e.outcome.code, byte e.count] ++ clampBytes e.clamps

/-- The address of a table status entry (12.2). -/
def tableAt (id : Nat) : Nat := 0xC0 + 16 * id

/-! ### Survey table and module status mirror -/

/-- A survey entry (12.2). -/
def surveyBytes (e : SurveyEntry) : List Byte :=
  fit 16 ([flag e.present, byte e.kind, byte e.cells, byte e.sensors] ++ le 2 e.roundTrip
    ++ [byte e.delay, flag e.delayClamped] ++ le 2 e.version.toNat)

/-- The address of a survey entry (12.2). -/
def surveyAt (a : Nat) : Nat := 0x1010 + 16 * (a - 1)

/-- A module status mirror entry (12.2). -/
def moduleBytes (e : ModuleEntry) : List Byte :=
  fit 16 ([byte e.state.code, byte (match e.cause with | none => 0 | some c => c.code), byte e.miss, byte e.delay,
      byte (flagBits [e.delayClamped, e.status.balancing, e.status.overTemp, e.status.internalFault])]
    ++ le 2 e.version.toNat ++ le 2 e.balMask.toNat ++ le 4 e.balEnd.toNat)

/-- The address of a module status mirror entry, by list position (12.2). -/
def moduleAt (i : Nat) : Nat := 0x1200 + 16 * i

/-! ### Event records (12.4) -/

/-- An entry of a cause list (12.4). A position above 255 is written modulo 256 (log 103). -/
def CauseRec.bytes (c : CauseRec) : List Byte :=
  byte c.cause.code :: (match c.cause with
    | .hardCellHigh | .hardCellLow | .hardTemp => byte c.pos :: le 4 c.seq
    | .hardCurrent => []
    | .silence => le 2 c.value
    | .chainLoss => [byte c.value])

/-- The head of a detail (12.4). The width of the second current of a COIL_FAULT, that of the first, the model chooses
(log 66). -/
def Detail.bytes : Detail → List Byte
  | .closedDone ms vl vb => le 2 ms ++ le 3 vl ++ le 3 vb
  | .release i => les 3 i
  | .volts vl vb => le 3 vl ++ le 3 vb
  | .coilFault c mA second =>
    byte (coilCode c) :: le 2 mA
      ++ (match second with | none => [0, 0, 0] | some (d, n) => byte (coilCode d) :: le 2 n)
  | .weldSuspect vl vb r => le 3 vl ++ le 3 vb ++ le 2 r
  | .silence l g => le 2 l ++ le 2 g
  | .chainDown left origin k =>
    [byte left.code, byte (match origin with | none => 0 | some o => o.code + 1), byte k]
  | .chainUp n => [byte n]
  | .fullWake src est =>
    byte src.toNat :: (match est with | none => [] | some (avg, c) => 1 :: les 3 avg ++ les 8 c)
  | .updateOutcome t k v sw rb fl => [byte t, byte k] ++ le 2 v ++ [byte sw, byte rb, byte fl]
  | .moduleRollback a v r => byte a :: le 2 v ++ (match r with | none => [] | some n => 1 :: le 2 n)

/-- A window entry is a 48-bit value (12.4). -/
def WindowEntry.bytes (w : WindowEntry) : List Byte :=
  le 6 ((w.i % 131072).toNat + 131072 * (w.vBatt % 16384) + 2147483648 * (w.vLink % 16384))

/-- An event record, 256 bytes (12.4). -/
def EventRec.bytes (r : EventRec) : List Byte :=
  [byte (if r.complete then 2 else 1), byte r.revision,
   byte (flagBits [r.surge, r.acked, r.windowComplete, r.windowSkipped, r.deferred.isSome, r.values.isSome]),
   byte r.kind.code]
  ++ le 3 r.seq
  ++ [byte r.cause, byte (r.before.bits + 16 * r.after.bits), byte r.pre.length, byte r.post.length,
      byte r.linked.code]
  ++ le 4 r.part.toNat ++ le 4 (match r.linked with | .linked n => n | _ => 0)
  ++ (match r.values with
      | none => fit 9 []
      | some (vb, vl, i) => le 3 vb ++ le 3 vl ++ les 3 i)
  ++ le 2 (r.deferred.getD 0) ++ [0]
  ++ fit 32 (r.detail.bytes ++ r.causes.flatMap CauseRec.bytes)
  ++ fit 96 (r.pre.flatMap WindowEntry.bytes) ++ fit 96 (r.post.flatMap WindowEntry.bytes)

/-- The address of an event slot (12.2). -/
def eventAt (slot : Nat) : Nat := 0x1800 + 256 * slot

/-! ### Update status (12.2) -/

/-- The target of the header as the update status shows it: 0 while no UPDATE_BEGIN has passed since POWER_ON, for no
header is held then (R191; a passed one declares a length above 0, R147; log 2). -/
def Header.targetCode (h : Header) : Nat := if h.length = 0 then 0 else h.target.code

/-- The update status, which reaches from 0x4820 to the distribution records at 0x4880 (12.2, log 91). The running CRC-32 is
shown as the register holds it, not inverted (log 93), and each mark as a byte (log 94). -/
def updateBytes (u : Update) : List Byte :=
  fit 96 ([byte u.state.code, byte u.outcome.code, byte u.header.targetCode, byte u.header.kind]
  ++ le 4 u.header.mask.toNat ++ le 2 u.header.version ++ le 4 u.header.length
  ++ le 4 u.staging.length ++ le 4 u.expected ++ le 4 (u.lastAcc.getD 0) ++ le 4 u.runCrc.toNat
  ++ le 2 u.acc ++ le 2 u.dup ++ le 2 u.rej
  ++ [flag u.switchPending, flag u.commitReached, flag u.floorWritten])

/-- Update state, outcome and the state in which it arose, 0x00B0 (12.2). -/
def updateWord (u : Update) : List Byte :=
  [byte u.state.code, byte u.outcome.code, byte (match u.outcomeState with | none => 0 | some x => x.code + 1), 0]

/-- A distribution record (12.2). -/
def distBytes (d : DistRec) : List Byte :=
  [byte d.addr, byte d.state.code, byte (match d.cause with | none => 0 | some c => c.code), flag d.reported.isSome]
  ++ le 2 (d.lastAck.getD 0xFFFF) ++ le 2 (d.reported.getD 0)

/-- The distribution record area: 24 records (12.2). -/
def distArea (l : List DistRec) : List Byte := fit 192 (l.flatMap distBytes)

/-! ### Rewriting what has changed

Each record is rewritten by its owner when the state it shows changes (R16, R106, R125, R143, R146, chapters 3 to 8). A
host write to a word stands until then (R172, R191). -/

/-- Rewrite a whole record if its bytes have changed. -/
def mirrorBlock (base : Nat) (old new : List Byte) (m : Memory) : Memory :=
  if old = new then m else m.store base new

/-- Rewrite the words of a record that have changed. -/
def mirrorWords : Nat → List Byte → List Byte → Memory → Memory
  | base, a :: b :: c :: d :: old, a' :: b' :: c' :: d' :: new, m =>
    mirrorWords (base + 4) old new (if [a, b, c, d] = [a', b', c', d'] then m else m.store base [a', b', c', d'])
  | _, _, _, m => m

/-- The module status mirror: an entry is rewritten when its working entry changes (1.4). -/
def mirrorModules : Nat → List ModuleEntry → List ModuleEntry → Memory → Memory
  | i, o :: old, n :: new, m => mirrorModules (i + 1) old new (if o = n then m else m.store (moduleAt i) (moduleBytes n))
  | _, _, _, m => m

/-- The slot of the record that a step has taken, if it has taken one: every taking advances the sequence counter and sets
its slot at the newest end of the age order (R95). -/
def takenSlotOf (o n : Recorder) : Option Nat := if o.next = n.next then none else n.age.getLast?

/-- Store the words of a record that a write of the part touches, whether or not their bytes change. -/
def storeTouched (touched : Nat → Bool) : Nat → List Byte → Memory → Memory
  | base, a :: b :: c :: d :: l, m =>
    storeTouched touched (base + 4) l (if touched base then m.store base [a, b, c, d] else m)
  | _, _, m => m

/-- The bytes that a cause list takes. -/
def causeLength (l : List CauseRec) : Nat := (l.flatMap CauseRec.bytes).length

/-- The fields of an event record that its change writes afresh, as the offsets from which and up to which they lie: the
post-event entries that have joined (R98), the causes that have joined (R102), a link's code and sequence (R101), and in a
revision the status and the revision count (R102). -/
def EventRec.written (o n : EventRec) : List (Nat × Nat) :=
  let list := 0x20 + n.detail.bytes.length
  [(0xA0 + 6 * o.post.length, 0xA0 + 6 * n.post.length),
   (list + causeLength o.causes, min 0x40 (list + causeLength n.causes))]
  ++ (if o.linked = n.linked then [] else [(0x0B, 0x0C), (0x10, 0x14)])
  ++ (if o.complete && decide (n.revision = bump 255 o.revision) && decide (o.linked ≠ n.linked ∨ o.causes ≠ n.causes) then
      [(0x00, 0x02)] else [])

/-- Whether the word at an offset holds a byte of one of some fields. -/
def touchedBy (fields : List (Nat × Nat)) (k : Nat) : Bool :=
  fields.any fun f => decide (f.1 < f.2) && decide (f.1 < k + 4) && decide (k < f.2)

/-- A changed event record: its words whose bytes have changed, and those of the fields that the change writes afresh with the
bytes that they held (R98, R102, R191). -/
def mirrorRecord (base : Nat) (o n : EventRec) (m : Memory) : Memory :=
  storeTouched (fun a => touchedBy (o.written n) (a - base)) base n.bytes (mirrorWords base o.bytes n.bytes m)

/-- One event slot: a record just taken is written whole, whatever record it replaces (R94), a changed one by the words that
the change writes (R98, R101 to R103). -/
def mirrorSlot (whole : Bool) (slot : Nat) (old new : Option EventRec) (m : Memory) : Memory :=
  match old, new with
  | some o, some n =>
    if whole then m.store (eventAt slot) n.bytes else mirrorRecord (eventAt slot) o n m
  | none, some n => m.store (eventAt slot) n.bytes
  | _, none => m.store (eventAt slot) [0, 0, 0, 0]

/-- The event area, of which one slot may have been taken. -/
def mirrorEvents (taken : Option Nat) : Nat → List (Option EventRec) → List (Option EventRec) → Memory → Memory
  | i, o :: old, n :: new, m =>
    mirrorEvents taken (i + 1) old new
      (if o = n ∧ taken ≠ some i then m else mirrorSlot (decide (taken = some i)) i o n m)
  | _, _, _, m => m

/-- The planner's directory words: the latest-set pointer, and the hard breach counts with the implausible run (12.2). -/
def pointerBytes (p : Planner) : List Byte :=
  match p.latest with
  | none => [0xFF, 0, 0, 0, 0, 0, 0, 0]
  | some (page, seq) => [byte page, 0, 0, 0] ++ le 4 seq

@[inherit_doc pointerBytes] def countBytes (p : Planner) : List Byte :=
  [byte p.high, byte p.low, byte p.temp, byte p.implausible]

/-- The chain's directory word (R5, 12.2). -/
def chainBytes (c : Chain) : List Byte := [byte c.state.code, flag c.wasDown, 0, 0]

/-- The contactor record: a change of the supervisor state (R74) or a SET_ONCE that sets the settings (R92) rewrites it whole,
its unoccupied bytes with 0 (R191); any other change rewrites the words of the fields that change (chapter 4). The silence
count keeps its own moments (log 60). -/
def mirrorContactor (o n : Sup) (m : Memory) : Memory :=
  if o.state = n.state ∧ o.once.set = n.once.set then mirrorWords 0x14 (contactorBytes o) (contactorBytes n) m
  else (m.store 0x14 (contactorBytes n)).store 0x28 (fit 8 [])

/-- The update status with the distribution records: a change of the update state rewrites them whole (R146, R191), any other
change the words that change. -/
def mirrorUpdate (o n : Update) (m : Memory) : Memory :=
  if o.state = n.state then
    mirrorWords 0x4820 (updateBytes o) (updateBytes n) (mirrorWords 0x4880 (distArea o.dist) (distArea n.dist) m)
  else (m.store 0x4880 (distArea n.dist)).store 0x4820 (updateBytes n)

/-- Whether another SLEEP's entry stands where one stood: the new one's slip has ended the old (R108), through RUN and back to
ENTERING_DEEP within its taking. -/
def Power.resumed (o n : Power) : Bool :=
  match o.entry, n.entry with
  | some x, some y => decide (x.slot ≠ y.slot)
  | _, _ => false

/-- The power record: rewritten when a field of it changes, also when its fields change and change back within one taking
(R106, R125). -/
def mirrorPower (o n : Power) (m : Memory) : Memory :=
  if o.resumed n then m.store 0x60 (powerBytes n) else mirrorBlock 0x60 (powerBytes o) (powerBytes n) m

/-- The records of the directory that follow their owner's state. -/
def mirrorDirectory (o n : State) (m : Memory) : Memory :=
  let m := mirrorBlock 0x04 (pointerBytes o.plan) (pointerBytes n.plan) m
  let m := mirrorWords 0x0C (countBytes o.plan) (countBytes n.plan) m
  let m := mirrorWords 0x10 (chainBytes o.chain) (chainBytes n.chain) m
  let m := if o.sup = n.sup then m else mirrorContactor o.sup n.sup m
  let m := if o.power = n.power then m else mirrorPower o.power n.power m
  let m := if o.store = n.store then m else mirrorBlock 0x90 (storeBytes o.store) (storeBytes n.store) m
  mirrorWords 0xB0 (updateWord o.upd) (updateWord n.upd) m

/-- Rewrite every mirrored record whose state differs between `o` and `n`. -/
def mirror (o n : State) : State :=
  let m := mirrorDirectory o n n.mem
  let m := if o.chain.map = n.chain.map then m else mirrorModules 0 o.chain.map n.chain.map m
  let m := if o.ev.slots = n.ev.slots ∧ o.ev.next = n.ev.next then m
    else mirrorEvents (takenSlotOf o.ev n.ev) 0 o.ev.slots n.ev.slots m
  let m := if o.upd = n.upd then m else mirrorUpdate o.upd n.upd m
  { n with mem := m }

/-! ### Records written at the moments their rules name -/

/-- The silence count of the contactor record, rewritten once per 10 ms (chapter 4). -/
def State.showSilence (s : State) : State := s.put 0x24 (le 4 s.sup.silence)

/-- The converter record is rewritten, bracketed by its write number (R35). -/
def State.showConverter (s : State) : State :=
  let n := cycle 65535 s.conv.recNumber
  { s with
    conv.recNumber := n
    mem := s.mem.store 0x30 (converterBytes s.conv ++ le 2 n ++ fit 10 []) }

end Sys2Proof.Machine
end

