-- ==== Sys2Proof/Machine/Slips.lean ====
section
/-! DEFINITION. The exchange port's shared operations (chapter 9): link service and the registers, note faults, slip
completions, the table status. -/

namespace Sys2Proof.Machine

/-! ### The memory link -/

/-- The link is served in RUN and ENTERING_DEEP while RESET_N is not asserted (R170). -/
def State.linkServed (s : State) : Bool := s.power.state.awake && !s.pins.resetN

/-- IDENT: part code 0x2C24, silicon revision 1, layout revision 1 (12.1). -/
def ident : Word := 0x01012C24

/-- The layout revision (R173). -/
def layoutRevision : Byte := 1

/-- The report of SUMMARY (R189), laid out as 12.1 gives it; the bits 12.1 assigns to no field read 0 (log 105). -/
def State.summary (s : State) : Word :=
  BitVec.ofNat 32
    (flagBits [s.attn.line, s.attn.highest.isSome]
      + 4 * (s.attn.highest.getD 0)
      + 16 * (match s.attn.holding with | none => 0 | some f => f.rank)
      + 512 * s.power.state.code
      + 4096 * s.sup.state.code
      + 65536 * s.port.notes.length)

/-- What a host read of one word returns (R168, R170, R171); a read changes nothing. -/
def State.hostRead (s : State) (addr : BitVec 16) : Word :=
  let a := 4 * (addr.toNat / 4)
  if !s.linkServed then 0xFFFFFFFF
  else if a < memSize then s.mem.word a
  else if a = 0x8000 then ident
  else if a = 0x8008 then s.summary
  else 0

/-! ### Note faults (R174) -/

/-- The kind of a note word: bits 24 to 31 (12.1). -/
def noteKind (w : Word) : Byte := (w >>> 24).setWidth 8

/-- The argument of a note word: bits 0 to 23 (12.1). -/
def noteArg (w : Word) : BitVec 24 := w.setWidth 24

/-- A discarded note is recorded as a note fault and NOTE_FAULT is raised (R174). -/
def State.noteFault (s : State) (w : Word) (cause : NoteCause) : State :=
  let p : Port := { s.port with
    fault := some ⟨noteKind w, noteArg w, cause⟩
    faultCount := bump 65535 s.port.faultCount }
  State.raise { s with port := p, mem := s.mem.store 0xB4 (noteFaultBytes p) } .noteFault

/-! ### Slips -/

/-- The 14 slip kinds (R178, 12.3). -/
inductive SlipKind where
  | close | open_ | clearLockout | setOnce | sleep | survey | balance | captureNow | installKey | readStore
  | updateBegin | updateCheck | updateApply | updateAbort
  deriving DecidableEq, Repr

/-- The slip kind a code names (12.3). -/
def slipKindOf (b : Byte) : Option SlipKind :=
  match b.toNat with
  | 1 => some .close
  | 2 => some .open_
  | 3 => some .clearLockout
  | 4 => some .setOnce
  | 5 => some .sleep
  | 6 => some .survey
  | 7 => some .balance
  | 8 => some .captureNow
  | 9 => some .installKey
  | 10 => some .readStore
  | 11 => some .updateBegin
  | 12 => some .updateCheck
  | 13 => some .updateApply
  | 14 => some .updateAbort
  | _ => none

/-- The owner of a slip kind (R178). -/
def SlipKind.owner : SlipKind → Owner
  | .close | .open_ | .clearLockout | .setOnce => .supervisor
  | .sleep => .power
  | .survey | .balance => .chain
  | .captureNow => .planner
  | .installKey | .readStore => .store
  | .updateBegin | .updateCheck | .updateApply | .updateAbort => .update

/-- The result codes (R180). -/
inductive ResultCode where
  | ok | okClamped | refused | busy | aborted | cancelled | badSlip
  deriving DecidableEq, Repr

/-- The result causes (12.3). -/
inductive ResultCause where
  | lockout | safetyUnset | updateActive | power | chain | noFreshSet | softLimit | battLow
  | silenceLapsed | prechargeTimeout | coilFault | notLocked | stillWelded | store | badRange | alreadySet
  | contactors | windows | emptyMask | noAck | keyPresent | badKey | keyAbsent | tooLong
  | staleVersion | wrongState | incomplete | tagFail | stagingFault | chainLost | noneSent | partial_
  deriving DecidableEq, Repr

/-- Result code codes (12.3). -/
def ResultCode.code : ResultCode → Nat
  | .ok => 1
  | .okClamped => 2
  | .refused => 3
  | .busy => 4
  | .aborted => 5
  | .cancelled => 6
  | .badSlip => 7

/-- Result cause codes (12.3). -/
def ResultCause.code : ResultCause → Nat
  | .lockout => 1
  | .safetyUnset => 2
  | .updateActive => 3
  | .power => 4
  | .chain => 5
  | .noFreshSet => 6
  | .softLimit => 7
  | .battLow => 8
  | .silenceLapsed => 9
  | .prechargeTimeout => 10
  | .coilFault => 11
  | .notLocked => 12
  | .stillWelded => 13
  | .store => 14
  | .badRange => 15
  | .alreadySet => 16
  | .contactors => 17
  | .windows => 18
  | .emptyMask => 19
  | .noAck => 20
  | .keyPresent => 21
  | .badKey => 22
  | .keyAbsent => 23
  | .tooLong => 24
  | .staleVersion => 25
  | .wrongState => 26
  | .incomplete => 27
  | .tagFail => 28
  | .stagingFault => 29
  | .chainLost => 30
  | .noneSent => 31
  | .partial_ => 32

/-- How a slip completes: its code, its cause (of a REFUSED alone) and its result fields. -/
structure Result where
  code : ResultCode
  cause : Option ResultCause
  fields : List Byte
  deriving DecidableEq, Repr

/-- A completion with OK and result fields. -/
def Result.okWith (fields : List Byte) : Result := ⟨.ok, none, fields⟩

/-- A completion with another code and no cause. -/
def Result.plain (c : ResultCode) (fields : List Byte := []) : Result := ⟨c, none, fields⟩

/-- A completion REFUSED with a cause. -/
def Result.refuse (c : ResultCause) (fields : List Byte := []) : Result := ⟨.refused, some c, fields⟩

/-- The address of a slip slot (12.2). -/
def slotAt (slot : Nat) : Nat := 0x200 + 64 * slot

/-- The writes of a completion, in the order of R179; the 32 key bytes of an INSTALL_KEY are overwritten first (R141). -/
def completionWrites (slot : Nat) (c : SlipCopy) (r : Result) (m : Memory) : Memory :=
  let b := slotAt slot
  let m := if slipKindOf c.kind = some .installKey then m.store (b + 8) (fit 32 []) else m
  let m := m.store (b + 52) (fit 12 r.fields)
  let m := m.store (b + 48) [byte r.code.code, byte (match r.cause with | none => 0 | some x => x.code), 0, 0]
  let m := m.store (b + 4) (c.kind :: 0 :: le 2 c.tag.toNat)
  m.store b (le 4 3)

/-- The owner completes a slip: the completion is written with DONE last, the slot's record shows it not in flight, and
SLIP_DONE is raised (R179). -/
def State.complete (s : State) (slot : Nat) (r : Result) : State :=
  match getAt s.port.slots slot with
  | some (some c) =>
    State.raise { s with
      mem := completionWrites slot c r s.mem
      port.slots := setAt s.port.slots slot none } .slipDone
  | _ => s

/-- Complete several slips alike, in order. -/
def State.completeAll (s : State) (slots : List Nat) (r : Result) : State :=
  slots.foldl (fun s k => s.complete k r) s

/-! ### Table status (R182) -/

/-- The outcome of a table that is taken: TAKEN, or TAKEN_CLAMPED with any clamp. -/
def takenOutcome (clamps : List ClampRec) : TableOutcome := if clamps = [] then .taken else .takenClamped

/-- The last byte of the clamp records of table 3's entry: it shares the word at 0xFC with the last table id (12.2). -/
def lastClampByte (tables : List TableEntry) : Byte :=
  match getAt tables 3 with
  | none => 0
  | some e => (getAt (clampBytes e.clamps) 7).getD 0

/-- The number of fields that some clamps concern, each counted once: a field of the limit table may have a RANGE clamp and
then a HARD_LIMIT clamp (R138, R139, R182). -/
def clampedFields : List ClampRec → Nat
  | [] => 0
  | c :: l => (if l.any fun d => decide (d.index = c.index ∧ d.field = c.field) then 0 else 1) + clampedFields l

/-- Write a table status entry: number 0, the fields, the new number, then the word of the last table id; an origin of NOTE
or RECLAMP raises TABLE_STATUS (R182). The order of the clamps, of which the first four are named, is that of the table (log
106). Each word is written whole (R169), the bytes without a field as 0 (R191). -/
def State.tableStatus (s : State) (id : Nat) (origin : Origin) (outcome : TableOutcome) (clamps : List ClampRec) : State :=
  match getAt s.port.tables id with
  | none => s
  | some old =>
    let e : TableEntry := ⟨cycle 65535 old.number, origin, outcome, min (clampedFields clamps) 255, clamps.take 4⟩
    let tables := setAt s.port.tables id e
    let m := s.mem.store (tableAt id) (le 2 e.number ++ tableBytes e ++ [0, 0, 0])
    let s1 : State := { s with
      port.tables := tables
      port.lastTable := id
      mem := m.store 0xFC [lastClampByte tables, byte id, 0, 0] }
    match origin with
    | .reset => s1
    | .note | .reclamp => s1.raise .tableStatus

end Sys2Proof.Machine
end

