-- ==== Sys2Proof/Machine/Operands.lean ====
section
/-! DEFINITION. What the host writes and the part reads: the arguments of slips (12.3), the standing tables with their
clamping (R16, R38, R116, R137, R138), and the chunk descriptors (12.2). -/

namespace Sys2Proof.Machine

/-! ### Slip arguments -/

/-- A number of `n` argument bytes from an offset. -/
def argNum (args : List Byte) (off n : Nat) : Nat := ofLe (fit n (args.drop off))

/-- The image header of UPDATE_BEGIN before any check: version, mask, length, module type, target code, tag (12.3). -/
structure RawHeader where
  version : Nat
  mask : BitVec 24
  length : Nat
  kind : Nat
  target : Nat
  tag : List Byte
  deriving DecidableEq, Repr

/-- The image header occupies the 40 argument bytes (12.3). -/
def rawHeader (args : List Byte) : RawHeader :=
  let w := argNum args 5 3
  { version := argNum args 0 2
    mask := BitVec.ofNat 24 (argNum args 2 3)
    length := w % 262144
    kind := w / 262144 % 16
    target := w / 4194304
    tag := fit 32 (args.drop 8) }

/-- CELLS 0, TEMPERATURES 1, BOTH 2, in the order of 3.1. -/
def contentsOf : Nat → Option Contents
  | 0 => some .cells
  | 1 => some .temperatures
  | 2 => some .both
  | _ => none

/-! ### The plan table (R38) -/

/-- Positions of the plan table's fields in the standing table (12.2, log 17): contents 1, pause 2, period 4, phase 5. -/
def planAt (i : Nat) : Nat := 0x400 + 16 * i

/-- One entry of the plan table, clamped, with its clamp records (R38). An active or publish byte is yes when it is 1
(log 67). The clamps come in the order of the fields in 12.2 (log 106). -/
def readPlan (m : Memory) (i : Nat) : Plan × List ClampRec :=
  let b := planAt i
  let c := contentsOf (m.num (b + 1) 1)
  let pause := m.num (b + 2) 1
  let period := m.num (b + 4) 2
  let phase := m.num (b + 6) 2
  let period' := clampNat 5 60000 period
  let phase' := if phase < period' then phase else period' - 1
  ({ active := decide (m.num b 1 = 1)
     period := period'
     phase := phase'
     mask := BitVec.ofNat 24 (m.num (b + 8) 4)
     contents := c.getD .both
     pause := min pause 50
     publish := decide (m.num (b + 3) 1 = 1) },
   (if c.isNone then [⟨i, 1, false⟩] else []) ++ (if 50 < pause then [⟨i, 2, false⟩] else [])
   ++ (if period' ≠ period then [⟨i, 4, false⟩] else []) ++ (if phase' ≠ phase then [⟨i, 5, false⟩] else []))

/-- The whole plan table (R38), its clamps by ascending plan index (log 106). -/
def readPlans (m : Memory) : List Plan × List ClampRec :=
  let l := [0, 1, 2, 3, 4, 5, 6, 7].map (readPlan m)
  (l.map (·.1), l.flatMap (·.2))

/-! ### The wake table (R116) -/

/-- The wake table, clamped (R116), its clamps in the order of the fields in 12.2 (log 106). -/
def readWakeTable (m : Memory) : WakeTable × List ClampRec :=
  let lv (k : Nat) : Nat := m.num (0x4A0 + k) 1
  let fix (v : Nat) : Nat := if v ≤ 2 then v else 2
  let cf := lv 4
  let cf' := if cf = 1 ∨ cf = 2 then cf else 2
  let period := m.num 0x4A8 4
  let threshold := m.num 0x4AC 2
  ({ timer := fix (lv 0), line := fix (lv 1), chain := fix (lv 2), current := fix (lv 3)
     chainFail := cf'
     period := clampNat 10 86400 period
     threshold := clampNat 50 2000 threshold },
   ([0, 1, 2, 3].flatMap fun k => if fix (lv k) ≠ lv k then [⟨0, k, false⟩] else [])
   ++ (if cf' ≠ cf then [⟨0, 4, false⟩] else [])
   ++ (if clampNat 10 86400 period ≠ period then [⟨0, 5, false⟩] else [])
   ++ (if clampNat 50 2000 threshold ≠ threshold then [⟨0, 6, false⟩] else []))

/-! ### The module map (R16, R137) -/

/-- The host's fields of one module map entry after clamping. -/
structure HostModule where
  configured : Bool
  cells : Nat
  sensors : Nat
  source : CalSource
  gain : Nat
  offset : Int
  deriving DecidableEq, Repr

/-- One entry of the module map, clamped (R16, R137). With source IMAGE the host's gain and offset are ignored, and the
defaults of the active limits are taken. A configured byte is yes when it is 1 (log 63). The clamps come in the
order of the fields in 12.2 (log 106). -/
def readModule (m : Memory) (lim : Limits) (a : Nat) : HostModule × List ClampRec :=
  let b := 0x500 + 16 * (a - 1)
  let cells := m.num (b + 1) 1
  let sensors := m.num (b + 2) 1
  let src := m.num (b + 3) 1
  let gain := m.num (b + 4) 2
  let offset := m.int (b + 6) 2
  let image := decide (src = 1)
  ({ configured := decide (m.num b 1 = 1)
     cells := clampNat 4 16 cells
     sensors := min sensors 4
     source := if image then .image else .host
     gain := if image then lim.gain.toNat else clampNat 30000 35535 gain
     offset := if image then lim.offset else clampInt (-500) 500 offset },
   (if clampNat 4 16 cells ≠ cells then [⟨a, 1, false⟩] else [])
   ++ (if 4 < sensors then [⟨a, 2, false⟩] else [])
   ++ (if 1 < src then [⟨a, 3, false⟩] else [])
   ++ (if !image && decide (clampNat 30000 35535 gain ≠ gain) then [⟨a, 4, false⟩] else [])
   ++ (if !image && decide (clampInt (-500) 500 offset ≠ offset) then [⟨a, 5, false⟩] else []))

/-- The whole module map (R16), its clamps by ascending address (log 106). -/
def readModules (m : Memory) (lim : Limits) : List HostModule × List ClampRec :=
  let l := addresses.map (readModule m lim)
  (l.map (·.1), l.flatMap (·.2))

/-- Cells and sensors of the configured modules (R16, Totals). -/
def mapTotals (l : List HostModule) : Nat × Nat :=
  l.foldl (fun t h => if h.configured then (t.1 + h.cells, t.2 + h.sensors) else t) (0, 0)

/-! ### The limit table (R138) -/

/-- The ranges of the limit table's fields, in order (7.5). -/
def limitRanges : List (Int × Int) :=
  [(0, 50000), (0, 50000), (50, 2000), (0, 50000), (0, 50000), (-400, 1500), (0, 50000)]

/-- The seven fields as a list, in order. -/
def LimitTable.toList (t : LimitTable) : List Int :=
  [t.softMax, t.softMin, t.sumTol, t.sleepMin, t.sleepMax, t.sleepTemp, t.imbalance]

/-- The fields clamped to their ranges, with the positions of those that were clamped. -/
def clampFields : Nat → List (Int × Int) → List Int → List Int × List Nat
  | i, (lo, hi) :: rs, v :: vs =>
    let r := clampFields (i + 1) rs vs
    (clampInt lo hi v :: r.1, if clampInt lo hi v = v then r.2 else i :: r.2)
  | _, _, _ => ([], [])

/-- The host's limit table clamped to its ranges, with the positions of the clamped fields (R138). -/
def readLimitTable (m : Memory) : LimitTable × List Nat :=
  let raw := [0, 1, 2, 3, 4, 5, 6].map fun k => m.int (0x480 + 4 * k) 4
  let r := clampFields 0 limitRanges raw
  match r.1 with
  | [a, b, c, d, e, f, g] => (⟨a, b, c, d, e, f, g⟩, r.2)
  | _ => (⟨0, 0, 50, 0, 0, 0, 0⟩, r.2)

/-- The defaults after POWER_ON (7.5). -/
def limitDefaults : LimitTable := ⟨41500, 30000, 200, 30000, 42000, 600, 1000⟩

/-- The values in force: each field of the column "kept inside" clamped to its hard limit (R139). -/
def insideHard (lim : Limits) (t : LimitTable) : LimitTable :=
  { t with
    softMax := min t.softMax lim.cellMax
    softMin := max t.softMin lim.cellMin
    sleepMin := max t.sleepMin lim.cellMin
    sleepMax := min t.sleepMax lim.cellMax
    sleepTemp := min t.sleepTemp lim.tempMax }

/-- Positions where two limit tables differ: the HARD_LIMIT clamps (R139). -/
def changedFields : Nat → List Int → List Int → List Nat
  | i, a :: as, b :: bs => if a = b then changedFields (i + 1) as bs else i :: changedFields (i + 1) as bs
  | _, _, _ => []

/-! ### Limit images (R135) -/

/-- Ranges and factory values of the 18 fields, in order (7.4). -/
def imageFields : List (Int × Int × Int) :=
  [(20000, 50000, 42500), (0, 40000, 25000), (0, 1500, 650), (-400, 500, -300), (5000, 59999, 50000), (10, 1000, 100),
   (10000, 60000, 35000), (50, 1000, 300), (800, 990, 950), (100, 5000, 800), (500, 990, 900), (500, 5000, 1500),
   (50, 2000, 300), (600, 1200, 900), (20, 500, 100), (50, 1000, 200), (30000, 35535, 32768), (-500, 500, 0)]

/-- Limits from the list of their 18 values. -/
def limitsOf (l : List Int) : Limits :=
  let f (k : Nat) : Int := (getAt l k).getD 0
  ⟨f 0, f 1, f 2, f 3, f 4, f 5, f 6, f 7, f 8, f 9, f 10, f 11, f 12, f 13, f 14, f 15, f 16, f 17⟩

/-- The factory values (7.4). -/
def factoryLimits : Limits := limitsOf (imageFields.map fun x => x.2.2)

/-- The fields of a body, each clamped to its range, with whether it was changed; a field that the body does not reach
takes its factory value, and that counts as a change (R135, 12.3). -/
def imageValues : List (Int × Int × Int) → List Byte → List (Int × Bool)
  | [], _ => []
  | (lo, hi, _) :: fs, a :: b :: c :: d :: body =>
    let v := ofLes [a, b, c, d]
    (clampInt lo hi v, decide (clampInt lo hi v ≠ v)) :: imageValues fs body
  | (_, _, f) :: fs, _ => (f, true) :: imageValues fs []

/-- The active limits of a body with the image clamp count (R135). -/
def loadImage (body : List Byte) : Limits × Nat :=
  let vs := imageValues imageFields body
  let l := limitsOf (vs.map (·.1))
  let clamped (k : Nat) : Bool := ((getAt vs k).map (·.2)).getD false
  let fixCell := decide (l.cellMax ≤ l.cellMin)
  let fixTemp := decide (l.tempMax ≤ l.tempMin)
  ({ l with
     cellMin := if fixCell then l.cellMax - 1 else l.cellMin
     tempMin := if fixTemp then l.tempMax - 1 else l.tempMin },
   (vs.filter (·.2)).length + (if fixCell && !clamped 1 then 1 else 0) + (if fixTemp && !clamped 3 then 1 else 0))

/-- The body of the factory image: its 18 fields as 4-byte signed values (R129, 12.3). -/
def factoryBody : List Byte := imageFields.flatMap fun x => les 4 x.2.2

/-! ### Chunk descriptors (12.2) -/

/-- The address of a buffer's descriptor. -/
def descriptorAt : Buffer → Nat
  | .a => 0x4800
  | .b => 0x4810

/-- The address of a chunk buffer. -/
def bufferAt : Buffer → Nat
  | .a => 0x5000
  | .b => 0x6000

/-- The states of a buffer (12.2). -/
inductive BufferState where
  | empty | filled | taking | duplicate | rejected
  deriving DecidableEq, Repr

/-- The reject causes (12.2). -/
inductive RejectCause where
  | order | crc | length | notReceiving | notFilled
  deriving DecidableEq, Repr

/-- Buffer state codes (12.2). -/
def BufferState.code : BufferState → Nat
  | .empty => 0
  | .filled => 1
  | .taking => 2
  | .duplicate => 3
  | .rejected => 4

/-- Reject cause codes, none 0 (12.2). -/
def rejectCode : Option RejectCause → Nat
  | none => 0
  | some .order => 1
  | some .crc => 2
  | some .length => 3
  | some .notReceiving => 4
  | some .notFilled => 5

/-- The state byte of a buffer's descriptor. -/
def bufferState (m : Memory) (buf : Buffer) : Nat := m.num (descriptorAt buf + 11) 1

/-- The part writes the word at 8 of a descriptor: the length as read, the reject cause, and the state last (R148, 12.2). -/
def State.setBuffer (s : State) (buf : Buffer) (length : Nat) (st : BufferState) (cause : Option RejectCause) : State :=
  s.put (descriptorAt buf + 8) (le 2 length ++ [byte (rejectCode cause), byte st.code])

end Sys2Proof.Machine
end

