-- ==== Sys2Proof/Machine/EventOps.lean ====
section
/-! DEFINITION. The event recorder's operations (chapter 5): sending and taking events, windows, links, revisions,
acknowledgement. -/

namespace Sys2Proof.Machine

/-! ### Sending (R94) -/

/-- A block sends an event: it waits to be taken (R94, log 11), together with the events before it of the same step. -/
def State.send (s : State) (e : SentEvent) : State :=
  { s with ev.inbox := s.ev.inbox ++ [{ e with together := (lastOf s.ev.inbox).any (·.fresh), fresh := true }] }

/-- The step ends: what it sent has been sent. -/
def State.endSending (s : State) : State := { s with ev.inbox := s.ev.inbox.map fun e => { e with fresh := false } }

/-- An event that changes no coil carries the present outputs as before and after (R94). -/
def State.sendStill (s : State) (kind : EventKind) (cause : Nat) (d : Detail) : State :=
  s.send ⟨kind, cause, s.sup.coils, s.sup.coils, d, [], none, false, false, false⟩

/-! ### Records -/

/-- The kinds that have a window and ask for a burst (5.1). -/
def EventKind.windowed : EventKind → Bool
  | .closedDone | .opened | .autoOpen | .prechargeTimeout | .coilFault | .weldSuspect | .highCurrentBreak => true
  | .lockoutCleared | .silence | .chainDown | .chainUp | .fullWake | .updateOutcome | .moduleRollback => false

/-- The record in a slot. -/
def Recorder.at (v : Recorder) (slot : Nat) : Option EventRec := (getAt v.slots slot).getD none

/-- Change the record in a slot. -/
def Recorder.change (v : Recorder) (slot : Nat) (f : EventRec → EventRec) : Recorder :=
  { v with slots := modifyAt v.slots slot (Option.map f) }

/-- The lowest-numbered EMPTY slot. -/
def firstEmpty : Nat → List (Option EventRec) → Option Nat
  | _, [] => none
  | i, none :: _ => some i
  | i, some _ :: l => firstEmpty (i + 1) l

/-- Whether the record in a slot carries ACKED. -/
def Recorder.ackedAt (v : Recorder) (slot : Nat) : Bool := ((v.at slot).map (·.acked)).getD false

/-- The slot of the next record, and whether it replaces the newest unacknowledged record (R96). -/
def Recorder.chooseSlot (v : Recorder) : Nat × Bool :=
  match firstEmpty 0 v.slots with
  | some i => (i, false)
  | none =>
    match v.age.find? v.ackedAt with
    | some i => (i, false)
    | none => ((lastOf v.age).getD 15, true)

/-- Whether some record of the area holds a sequence. -/
def Recorder.holds (v : Recorder) (seq : Nat) : Bool :=
  v.slots.any fun r => match r with | none => false | some r => decide (r.seq = seq)

/-- The highest event sequence (R95). -/
def maxEventSeq : Nat := 16777215

/-- The first value from `n` on that no record of the area holds (R95); 16 records cannot hold 17 values. -/
def Recorder.freeSeq (v : Recorder) : Nat → Nat → Nat
  | 0, n => n
  | fuel + 1, n => if v.holds n then Recorder.freeSeq v fuel (cycle maxEventSeq n) else n

/-- The record in a slot leaves the area, with its window, its link and its additions (R96). -/
def Recorder.empty (v : Recorder) (slot : Nat) : Recorder :=
  { v with
    slots := setAt v.slots slot none
    age := v.age.filter (· ≠ slot)
    filling := v.filling.filter (· ≠ slot) }

/-- A window entry of a sample (R97). -/
def WindowEntry.of (x : Sample) : WindowEntry :=
  ⟨x.i, (roundHalfUp x.vBatt 10).toNat, (roundHalfUp x.vLink 10).toNat⟩

/-- The pre-event entries: the history entries stamped t_n − 400 × k µs for k = 15 down to 0, oldest first (R97). -/
def preEntries (h : List Sample) (tn : Us) : List WindowEntry :=
  [15, 14, 13, 12, 11, 10, 9, 8, 7, 6, 5, 4, 3, 2, 1, 0].filterMap fun k =>
    (h.find? fun x => decide (x.t = tn - BitVec.ofNat 32 (400 * k))).map WindowEntry.of

/-- The record in a slot becomes COMPLETE and EVENT_NEW is raised (R100). -/
def State.completeRecord (s : State) (slot : Nat) : State :=
  State.raise { s with ev := s.ev.change slot fun r => { r with complete := true } } .eventNew

/-- The record of a taken event before its window is given (R94). -/
def State.newRecord (s : State) (e : SentEvent) (seq : Nat) : EventRec :=
  { complete := false
    seq := seq
    kind := e.kind
    cause := e.cause
    part := s.now
    before := e.before
    after := e.after
    values := s.newest.map fun x => (x.vBatt, x.vLink, x.i)
    surge := s.sup.surge
    acked := false
    windowComplete := false
    windowSkipped := false
    deferred := e.deferred
    linked := if e.kind.windowed then .awaited else .notBurst
    revision := 0
    detail := e.detail
    causes := e.causes
    adding := e.adding
    tn := 0
    pre := []
    post := [] }

/-- A skipped window: counts 0, WINDOW_SKIPPED set, and the record COMPLETE at once (R98). -/
def State.skipWindow (s : State) (slot : Nat) : State :=
  State.completeRecord
    { s with ev := s.ev.change slot fun r => { r with windowSkipped := true, pre := [], post := [] } } slot

/-- The window of a new windowed record in a slot: filled (R97), or skipped when the history is empty or the converter is
not scanning (R97), or when two windows fill already (R98). -/
def State.openWindow (s : State) (slot : Nat) : State :=
  match s.newest with
  | none => s.skipWindow slot
  | some x =>
    if s.conv.scanning && decide (s.ev.filling.length < 2) then
      let v := s.ev.change slot fun r => { r with tn := x.t, pre := preEntries s.conv.history x.t }
      { s with ev := { v with filling := v.filling ++ [slot] } }
    else s.skipWindow slot

/-- The recorder takes one event whole (R94 to R98). -/
def State.takeEvent (s : State) (e : SentEvent) : State :=
  let c := s.ev.chooseSlot
  let v := s.ev.empty c.1
  let seq := v.freeSeq 17 v.next
  let r := s.newRecord e seq
  let s1 : State := { s with ev := { v with
    slots := setAt v.slots c.1 (some r)
    age := v.age ++ [c.1]
    next := cycle maxEventSeq seq } }
  let s2 := if c.2 then s1.raise .eventFull else s1
  if e.kind.windowed then s2.openWindow c.1 else s2.completeRecord c.1

/-! ### Filling (R98, R99) -/

/-- A completed sample enters one filling window; the 16th completes it, with SURGE if surge holds at that moment (R98). -/
def State.fillOne (s : State) (x : Sample) (slot : Nat) : State :=
  match s.ev.at slot with
  | none => s
  | some r =>
    if (x.t - r.tn).toNat = 400 * (r.post.length + 1) then
      let v := s.ev.change slot fun r => { r with post := r.post ++ [WindowEntry.of x] }
      if r.post.length + 1 < 16 then { s with ev := v }
      else
        let v := v.change slot fun r => { r with windowComplete := true, surge := r.surge || s.sup.surge }
        State.completeRecord { s with ev := { v with filling := v.filling.filter (· ≠ slot) } } slot
    else s

/-- A completed sample enters the filling windows, in the order of their events (R98). -/
def State.fillWindows (s : State) (x : Sample) : State := s.ev.filling.foldl (fun s k => s.fillOne x k) s

/-- Every filling window ends early: a stop, a start or a restart of the converter (R99). -/
def State.endWindows (s : State) : State :=
  s.ev.filling.foldl (fun s k => State.completeRecord
      { s with ev := s.ev.change k fun r => { r with windowSkipped := true } } k)
    { s with ev.filling := [] }

/-- While surge holds, SURGE is set on the records whose window is filling (R98). -/
def State.markSurge (s : State) : State :=
  if s.sup.surge && !s.ev.filling.isEmpty then
    { s with ev := s.ev.filling.foldl (fun v k => v.change k fun r => { r with surge := true }) s.ev }
  else s

/-! ### Links and additions (R101, R102) -/

/-- A COMPLETE record is rewritten as a revision, and EVENT_NEW is raised again; an OPEN record is rewritten without one
(R101, R102). -/
def State.rewrite (s : State) (slot : Nat) (f : EventRec → EventRec) : State :=
  match s.ev.at slot with
  | none => s
  | some r =>
    if r.complete then
      State.raise { s with ev := s.ev.change slot fun r => { f r with revision := bump 255 r.revision } } .eventNew
    else { s with ev := s.ev.change slot f }

/-- The slot of the first record that meets a test. -/
def slotWhere (p : EventRec → Bool) : Nat → List (Option EventRec) → Option Nat
  | _, [] => none
  | i, none :: l => slotWhere p (i + 1) l
  | i, some r :: l => if p r then some i else slotWhere p (i + 1) l

/-- The planner answers the record that asked for a burst, once; an answer for a record that has gone is dropped
(R101). -/
def State.answerLink (s : State) (seq : Nat) (a : Option Nat) : State :=
  match slotWhere (fun r => decide (r.seq = seq) && decide (r.linked = .awaited)) 0 s.ev.slots with
  | none => s
  | some k => s.rewrite k fun r => { r with linked := match a with | none => .none | some n => .linked n }

/-- Whether a cause stands in the cause field or in the detail list. -/
def causeStands (kind : EventKind) (cause : Nat) (l : List CauseRec) (c : CauseRec) : Bool :=
  (decide (kind = .autoOpen) && decide (cause = c.cause.code)) || l.any fun d => decide (d.cause = c.cause)

/-- The supervisor adds a cause to the record of the running opening, which may not have been taken yet (R102). -/
def State.addCause (s : State) (c : CauseRec) : State :=
  match s.ev.inbox.find? (·.adding) with
  | some _ =>
    { s with ev.inbox := s.ev.inbox.map fun e =>
        if e.adding && !causeStands e.kind e.cause e.causes c then { e with causes := e.causes ++ [c] } else e }
  | none =>
    match slotWhere (·.adding) 0 s.ev.slots with
    | none => s
    | some k =>
      match s.ev.at k with
      | none => s
      | some r =>
        if causeStands r.kind r.cause r.causes c then s
        else s.rewrite k fun r => { r with causes := r.causes ++ [c] }

/-- The opening has ended: no cause can be added any more (R102). -/
def State.endAdditions (s : State) : State :=
  { s with
    ev.inbox := s.ev.inbox.map fun e => { e with adding := false }
    ev.slots := s.ev.slots.map (Option.map fun r => { r with adding := false }) }

/-! ### Acknowledgement (R103) -/

/-- The slots of the age order up to and including one. -/
def upTo (slot : Nat) : List Nat → List Nat
  | [] => []
  | x :: l => if x = slot then [x] else x :: upTo slot l

/-- ACKED is set on the record with a sequence and on every older one; none if no such record stands (R103). -/
def State.ackUpTo (s : State) (seq : Nat) : Option State :=
  match slotWhere (fun r => decide (r.seq = seq)) 0 s.ev.slots with
  | none => none
  | some k =>
    some { s with ev := (upTo k s.ev.age).foldl (fun v i => v.change i fun r => { r with acked := true }) s.ev }

/-! ### RESET_LINE (R105) -/

/-- What RESET_LINE leaves of a record (R105): every field of R94 of a record in the area has been written, since a taking
is one step. -/
def EventRec.settle (filling : Bool) (r : EventRec) : EventRec :=
  { r with
    complete := true
    windowSkipped := r.windowSkipped || filling
    linked := if r.linked = .awaited then .none else r.linked
    adding := false }

/-- The records of the area after RESET_LINE (R105). -/
def settleSlots (filling : List Nat) : Nat → List (Option EventRec) → List (Option EventRec)
  | _, [] => []
  | i, r :: l => r.map (EventRec.settle (filling.contains i)) :: settleSlots filling (i + 1) l

/-- The recorder after RESET_LINE, and whether a record became COMPLETE (R105). -/
def Recorder.reset (v : Recorder) : Recorder × Bool :=
  ({ v with slots := settleSlots v.filling 0 v.slots, filling := [], inbox := [] },
   v.slots.any fun r => match r with | none => false | some r => !r.complete)

end Sys2Proof.Machine
end

