-- ==== Sys2Proof/Machine/StoreOps.lean ====
section
/-! DEFINITION. The settings store's operations (chapter 7): records and copies, the write queue, writes and their ends,
the choice of the active image, the loading of the active limits. -/

namespace Sys2Proof.Machine

/-! ### Records (R128) -/

/-- Of two write counts that differ, `a` is the later (R128). -/
def laterCount (a c : Nat) : Bool :=
  let d := (a + 65535 - c) % 65535
  decide (1 ≤ d ∧ d ≤ 32767)

/-- Which copy holds the record's value, with the value and its write count; none if no copy is valid (R128). -/
def Record.choice {α : Type} (r : Record α) : Option (Bool × α × Nat) :=
  match r.c0, r.c1 with
  | .valid v n, .valid w m => if laterCount m n then some (true, w, m) else some (false, v, n)
  | .valid v n, _ => some (false, v, n)
  | _, .valid w m => some (true, w, m)
  | _, _ => none

/-- No valid copy and at least one faulted: LOST (R128). -/
def Record.lost {α : Type} (r : Record α) : Bool :=
  match r.c0, r.c1 with
  | .valid _ _, _ => false
  | _, .valid _ _ => false
  | .erased, .erased => false
  | _, _ => true

/-- The value in force: the chosen copy's, the default of an ERASED record, or the value when LOST (R128). -/
def Record.value {α : Type} (r : Record α) (default lost : α) : α :=
  match r.choice with
  | some (_, v, _) => v
  | none => if r.lost then lost else default

/-- A write goes to the copy that does not hold the value, with the count advanced, or to copy 0 with count 1; `f` gives
what the copy then is (R128). -/
def Record.write {α : Type} (r : Record α) (f : Nat → Copy α) : Record α :=
  match r.choice with
  | some (true, _, n) => { r with c0 := f (cycle 65535 n) }
  | some (false, _, n) => { r with c1 := f (cycle 65535 n) }
  | none => { r with c0 := f 1 }

/-- The working copies that the start-up read sets (R128, R133). -/
def Nv.working (n : Nv) : Working :=
  { marker := match n.marker.choice with
      | some (_, bk, _) => some bk
      | none => if n.marker.lost then none else some .a
    floor := n.floor.value 0 65535
    fwFloors := n.fwFloors.value [0, 0, 0, 0, 0, 0, 0, 0]
      [65535, 65535, 65535, 65535, 65535, 65535, 65535, 65535]
    key := match n.key.choice with
      | some (_, k, _) => .present k
      | none => if n.key.lost then .faulted else .empty
    wearNeg := n.wearNeg.value 0 0
    wearPos := n.wearPos.value 0 0
    lockout := n.lockout.value ⟨false, 0, 0, 0⟩ ⟨true, 0, 0, 0⟩
    snapshot := n.snapshot.choice.map fun x => x.2.1 }

/-- The record items that are LOST, as the bits of the store record: bit n − 1 for item code n (R133, 12.2). -/
def Nv.lostBits (n : Nv) : BitVec 16 :=
  BitVec.ofNat 16 (flagBits [n.marker.lost, n.floor.lost, n.fwFloors.lost, n.key.lost, n.wearNeg.lost, n.wearPos.lost,
    n.lockout.lost, n.snapshot.lost])

/-- The lowest-coded LOST record (log 18). -/
def Nv.firstLost (n : Nv) : Option StoreItem :=
  ([(n.marker.lost, StoreItem.marker), (n.floor.lost, .floor), (n.fwFloors.lost, .fwFloors), (n.key.lost, .key),
    (n.wearNeg.lost, .wearNeg), (n.wearPos.lost, .wearPos), (n.lockout.lost, .lockout),
    (n.snapshot.lost, .snapshot)].find? (·.1)).map (·.2)

/-! ### Banks (R129, R130) -/

/-- The image of a bank. -/
def Nv.image (n : Nv) : BankId → Option Image
  | .a => n.bankA
  | .b => n.bankB

/-- Change a bank. -/
def Nv.setImage (n : Nv) (bk : BankId) (i : Option Image) : Nv :=
  match bk with
  | .a => { n with bankA := i }
  | .b => { n with bankB := i }

/-- The other bank. -/
def BankId.other : BankId → BankId
  | .a => .b
  | .b => .a

/-- The inactive bank: the one the marker's value in force does not name (R130); while the marker is LOST, the one that is
not active, or bank A when none is active (log 19). -/
def Store.inactive (t : Store) : BankId :=
  match t.work.marker with
  | some bk => bk.other
  | none =>
    match t.activeBank with
    | some bk => bk.other
    | none => .a

/-! ### The write queue (R130) -/

/-- The wear count's ceiling. -/
def wearMax : Nat := 4294967295

/-- A floor write whose version is not above the floor in force is done at once, without a write (R130). -/
def Store.alreadyDone (t : Store) : Payload → Bool
  | .floor v => decide (v ≤ t.work.floor)
  | .fwFloor k v => decide (v ≤ (getAt t.work.fwFloors k).getD 65535)
  | _ => false

/-- The waiting request that a new one of the same record joins (R130). -/
def Payload.join : Payload → Payload → Option Payload
  | .snapshot _, .snapshot v => some (.snapshot v)
  | .wearNeg a, .wearNeg c => some (.wearNeg (min wearMax (a + c)))
  | .wearPos a, .wearPos c => some (.wearPos (min wearMax (a + c)))
  | .floor a, .floor c => some (.floor (max a c))
  | .fwFloor k a, .fwFloor j c => if k = j then some (.fwFloor k (max a c)) else none
  | _, _ => none

/-- A request joins the first waiting one that it can, keeping that one's place, or goes to the end (R130). -/
def enqueue (p : Payload) (who : Requester) : List WriteReq → List WriteReq
  | [] => [⟨p, [who]⟩]
  | q :: l =>
    match q.payload.join p with
    | some p' => ⟨p', q.who ++ [who]⟩ :: l
    | none => q :: enqueue p who l

/-- A write is requested (R130). The caller has seen that it is not already done. -/
def State.requestWrite (s : State) (p : Payload) (who : Requester) : State :=
  if s.store.alreadyDone p then s else { s with store.queue := enqueue p who s.store.queue }

/-- The waiting requests that a requester made are withdrawn, with those that had joined them (R131). -/
def State.withdrawWrites (s : State) (p : WriteReq → Bool) : State :=
  { s with store.queue := s.store.queue.filter fun q => !p q }

/-- The duration of a write: a record 5 ms, a bank 40 ms (R131). -/
def Payload.duration : Payload → Nat
  | .bank _ => 40
  | _ => 5

/-- The oldest waiting write begins, if no write runs and surge does not hold (R131). -/
def State.beginWrite (s : State) : State :=
  match s.store.running, s.store.queue with
  | none, q :: l =>
    if s.sup.surge then s
    else { s with store.queue := l, store.running := some ⟨q, s.store.inactive, s.now⟩ }
  | _, _ => s

/-! ### Store faults (R143) -/

/-- STORE_FAULT is raised: the count advances and the last fault is written (R143). -/
def State.storeFault (s : State) (c : StoreFaultCause) (item : Option StoreItem) : State :=
  State.raise { s with
    store.faultCause := some c
    store.faultItem := item
    store.faultCount := bump 65535 s.store.faultCount } .storeFault

/-! ### Ends of writes (R128, R132) -/

/-- What the end or the cut of a write makes of the store's nonvolatile contents: `put` gives the record, `image` the bank
(R128, R132). -/
def Nv.apply (n : Nv) (w : Working) (bank : BankId) (put : {α : Type} → Record α → α → Record α)
    (image : Image → Option Image) : Payload → Nv
  | .marker bk => { n with marker := put n.marker bk }
  | .floor v => { n with floor := put n.floor v }
  | .fwFloor k v => { n with fwFloors := put n.fwFloors (setAt w.fwFloors k v) }
  | .key k => { n with key := put n.key k }
  | .wearNeg d => { n with wearNeg := put n.wearNeg (min wearMax (w.wearNeg + d)) }
  | .wearPos d => { n with wearPos := put n.wearPos (min wearMax (w.wearPos + d)) }
  | .lockout v => { n with lockout := put n.lockout v }
  | .snapshot v => { n with snapshot := put n.snapshot v }
  | .bank i => n.setImage bank (image i)

/-- A write that ended: the written copy is valid, or faulted if the read back does not match (R132). -/
def Record.ended {α : Type} (matched : Bool) (r : Record α) (v : α) : Record α :=
  r.write fun n => if matched then .valid v n else .faulted

/-- The nonvolatile contents when a write ends (R132). -/
def Nv.ended (n : Nv) (w : Working) (r : Running) (matched : Bool) : Nv :=
  n.apply w r.bank (Record.ended matched) (fun i => if matched then some i else none) r.req.payload

/-- The working copies when the write of a payload succeeds: that of its record becomes what the record now holds (R132).
-/
def Working.follow (w : Working) (n : Nv) : Payload → Working
  | .marker _ => { w with marker := n.working.marker }
  | .floor _ => { w with floor := n.working.floor }
  | .fwFloor _ _ => { w with fwFloors := n.working.fwFloors }
  | .key _ => { w with key := n.working.key }
  | .wearNeg _ => { w with wearNeg := n.working.wearNeg }
  | .wearPos _ => { w with wearPos := n.working.wearPos }
  | .lockout _ => { w with lockout := n.working.lockout }
  | .snapshot _ => { w with snapshot := n.working.snapshot }
  | .bank _ => w

/-- The working copies when the write of a payload fails: the values in force do not change (R132), but the key slot
becomes FAULTED (R141). A record that had no valid copy is LOST from then on, and its value when lost comes into force with
the next start-up read (R83, R128; log 80). -/
def Working.fails (w : Working) (n : Nv) : Payload → Working
  | .key _ => { w with key := n.working.key }
  | _ => w

/-- The running write has ended: its copy is valid or faulted, and a failure is a store fault (R132). -/
def State.finishWrite (s : State) (r : Running) (matched : Bool) : State :=
  let nv := s.store.nv.ended s.store.work r matched
  if matched then
    { s with store.nv := nv, store.work := s.store.work.follow nv r.req.payload, store.running := none }
  else
    State.storeFault { s with
      store.nv := nv
      store.work := s.store.work.fails nv r.req.payload
      store.running := none } .writeFailed (some (r.req.payload.item r.bank))

/-- A record whose write a reset cuts keeps its value: the written copy reads faulted or erased, the other copy holds the
old value (R132). A record without a valid copy keeps the copies that it had, so that its value after the reset is the
old one too (R132, R155, R167; log 81). -/
def Record.cut {α : Type} (c : Copy α) (r : Record α) : Record α :=
  match r.choice with
  | none => r
  | some _ => r.write fun _ => c

/-- A reset cuts the running write (R132): its record keeps its value; the key slot's copy may read whole (R141, log 20);
a bank is left invalid. -/
def Nv.cut (n : Nv) (w : Working) (r : Running) (c : CutRead) : Nv :=
  match r.req.payload, c with
  | .key _, .whole => n.ended w r true
  | p, .erased => n.apply w r.bank (fun q _ => q.cut .erased) (fun _ => none) p
  | p, _ => n.apply w r.bank (fun q _ => q.cut .faulted) (fun _ => none) p

/-- The nonvolatile contents after a reset. -/
def Store.nvAfterReset (t : Store) (c : CutRead) : Nv :=
  match t.running with
  | none => t.nv
  | some r => t.nv.cut t.work r c

/-! ### The active limits (R134 to R139) -/

/-- The clamp records of the limit table's entry: RANGE, then HARD_LIMIT (R138, R139). -/
def limitClamps (range hard : List Nat) : List ClampRec :=
  range.map (fun k => ⟨0, k, false⟩) ++ hard.map (fun k => ⟨0, k, true⟩)

/-- The values in force of the limit table are computed from the taken values (R139). -/
def State.computeInForce (s : State) : State :=
  let f := insideHard s.store.active s.store.taken
  { s with
    store.inForce := f
    store.hardClamps := changedFields 0 s.store.taken.toList f.toList }

/-- The working module map takes the default calibration into its IMAGE entries (R137). -/
def recalibrate (l : Limits) (m : List ModuleEntry) : List ModuleEntry :=
  m.map fun e => if e.source = .image then { e with gain := l.gain.toNat, offset := l.offset } else e

/-- The active limits are loaded and handed to their readers at one instant (R136): the limit table is clamped again and
the default calibration applied again. -/
def State.loadLimits (s : State) (l : Limits) (clamps : Nat) (origin : Origin) : State :=
  let old := s.store.hardClamps
  let s1 := State.computeInForce { s with
    store.active := l
    store.clampCount := clamps
    chain.map := recalibrate l s.chain.map }
  let c := limitClamps s1.store.rangeClamps s1.store.hardClamps
  match origin with
  | .reclamp => if s1.store.hardClamps = old then s1 else s1.tableStatus 1 .reclamp (takenOutcome c) c
  | _ => s1.tableStatus 1 origin (takenOutcome c) c

/-- The limits of a bank's image are loaded (R135, R136). -/
def State.loadBank (s : State) (bk : BankId) (origin : Origin) : State :=
  match s.store.nv.image bk with
  | none => s
  | some i =>
    let r := loadImage i.body
    State.loadLimits { s with store.activeBank := some bk, store.activeVersion := i.version } r.1 r.2 origin

/-- The choice of R134: the bank used, and whether it is the marked one. -/
def Nv.startChoice (n : Nv) (w : Working) : Option (BankId × Bool) :=
  let fit (bk : BankId) : Bool := match n.image bk with
    | none => false
    | some i => decide (w.floor ≤ i.version)
  let version (bk : BankId) : Nat := match n.image bk with
    | none => 0
    | some i => i.version
  match w.marker with
  | some bk =>
    if (n.image bk).isSome then some (bk, true)
    else if fit bk.other then some (bk.other, false)
    else none
  | none =>
    match fit .a, fit .b with
    | true, true => some (if version .b ≤ version .a then .a else .b, false)
    | true, false => some (.a, false)
    | false, true => some (.b, false)
    | false, false => none

/-- Steps 1 to 4 of R134, with the load of R136. A NO_IMAGE fault names no record or bank (log 98). -/
def State.chooseImage (s : State) : State :=
  match s.store.nv.startChoice s.store.work with
  | none =>
    let s1 := State.storeFault { s with
      store.activeBank := none, store.activeVersion := 0, store.outcome := .factoryValues } .noImage none
    s1.loadLimits factoryLimits 0 .reset
  | some (bk, marked) =>
    let s1 := State.loadBank { s with
      store.outcome := if marked then .markedBank else .otherBank } bk .reset
    let s2 := if marked then s1 else s1.requestWrite (.marker bk) .startUp
    s2.requestWrite (.floor s2.store.activeVersion) .startUp

/-- The store's part of the end of the start-up read (R133, R134). -/
def State.readStore (s : State) : State :=
  let w := s.store.nv.working
  let lost := s.store.nv.lostBits
  let s1 : State := { s with store.work := w, store.lost := lost, store.startUp := false }
  let s2 := if lost = 0 then s1 else s1.storeFault .recordLost s1.store.nv.firstLost
  s2.chooseImage

/-! ### READ_STORE (R142) -/

/-- The bytes of a page of READ_STORE (12.3); while no bank is active, the other bank is the inactive one
(log 19). -/
def Store.page (t : Store) : Nat → Option (List Byte)
  | 0 =>
    let other := match t.activeBank with
      | some bk => t.nv.image bk.other
      | none => t.nv.image t.inactive
    some ([byte (bankCode t.activeBank)] ++ le 2 t.activeVersion ++ [byte t.outcome.code] ++ le 2 t.work.floor
      ++ [flag other.isSome] ++ le 2 (match other with | none => 0 | some i => i.version) ++ [byte t.work.key.code])
  | 1 => some ((t.work.fwFloors.take 6).flatMap (le 2))
  | 2 => some ((t.work.fwFloors.drop 6).flatMap (le 2) ++ le 4 t.work.wearNeg ++ le 4 t.work.wearPos)
  | 3 =>
    let l := t.work.lockout
    some (le 4 l.part.toNat ++ le 3 l.vLink ++ le 3 l.vBatt ++ [flag l.set])
  | 4 =>
    match t.work.snapshot with
    | none => some (le 8 0 ++ [0, 0])
    | some x => some (les 8 x.value ++ [flag x.sat, 1])
  | _ => none

end Sys2Proof.Machine
end

