-- ==== Sys2Proof/Machine/ChainOps.lean ====
section
/-! DEFINITION. The chain controller's operations (chapter 1): frames and tags, errors, the survey, module states, the
BALANCE slip, the arbiter's requests. -/

namespace Sys2Proof.Machine

/-! ### State questions (R5) -/

/-- The chain is down: DOWN, or SURVEYING in a survey that began in DOWN (R5). -/
def Chain.down (c : Chain) : Bool :=
  decide (c.state = .down) || (decide (c.state = .surveying) && decide (c.origin = .down))

/-- The working map entry of an address. -/
def Chain.entry (c : Chain) (a : Nat) : Option ModuleEntry := atAddr c.map a

/-- Change the working map entry of an address. -/
def State.editModule (s : State) (a : Nat) (f : ModuleEntry → ModuleEntry) : State :=
  { s with chain.map := modifyAddr s.chain.map a f }

/-- The configured addresses. -/
def Chain.configuredAddrs (c : Chain) : List Nat :=
  addresses.filter fun a => match c.entry a with
    | none => false
    | some e => e.configured

/-- Whether a mask selects a configured address. -/
def Chain.selectsConfigured (c : Chain) (mask : BitVec 24) : Bool := c.configuredAddrs.any (selects mask)

/-- The configured set: the configured flag, cell count and sensor count of every address (1.4). -/
def configuredSet (m : List ModuleEntry) : List (Bool × Nat × Nat) := m.map fun e => (e.configured, e.cells, e.sensors)

/-! ### Frames (R1, R3, R4) -/

/-- The broadcast address (R1). -/
def broadcast : Nat := 31

/-- A frame that takes its tag from the exchange tag counter begins to be sent (R4). -/
def State.beginExchange (s : State) (kind : FrameKind) (addr : Nat) (payload : List Byte) : State :=
  { s with
    chain.line := .sending ⟨kind, addr, s.chain.exTag, payload⟩
    chain.exTag := cycle 255 s.chain.exTag }

/-- A CAPTURE broadcast takes its tag from the capture tag counter (R4). -/
def State.beginCapture (s : State) : State :=
  { s with
    chain.line := .sending ⟨.capture, broadcast, s.chain.capTag, []⟩
    chain.capTag := cycle 255 s.chain.capTag }

/-- A READ carries its capture's tag (R4). -/
def State.beginRead (s : State) (addr tag : Nat) : State :=
  { s with chain.line := .sending ⟨.read, addr, tag, []⟩ }

/-- A frame that the part sends at one instant outside any hold: SLEEP and WAKE (R1, R9). Its send time is what the µs time
base shows (R29). -/
def State.sendAtOnce (s : State) (kind : FrameKind) : State :=
  { s with
    chain.lastSent := some (⟨kind, broadcast, s.chain.exTag, []⟩, s.conv.us)
    chain.exTag := cycle 255 s.chain.exTag }

/-- Whether a frame expects an answer (1.1). -/
def Frame.answered (f : Frame) : Bool :=
  match f.kind with
  | .read | .echo | .block => true
  | .config => decide (f.addr ≠ broadcast)
  | .capture | .pause | .switch | .sleep | .wake => false

/-- The characters of a frame: address, kind, tag, length, payload, CRC-8 (R1); the kinds are coded by their order in 1.1
(log 21). -/
def FrameKind.code : FrameKind → Nat
  | .capture => 0
  | .read => 1
  | .echo => 2
  | .config => 3
  | .pause => 4
  | .block => 5
  | .switch => 6
  | .sleep => 7
  | .wake => 8

@[inherit_doc FrameKind.code] def Frame.bytes (f : Frame) : List Byte :=
  let body := [byte f.kind.code, byte f.tag, byte f.payload.length] ++ f.payload
  byte f.addr :: body ++ [crc8 body]

/-- The reply window of a frame in µs: 700 for the survey's ECHO, otherwise 2 × L + 300 (R3). -/
def Chain.windowOf (c : Chain) (f : Frame) : Nat :=
  match c.hold with
  | some (.survey _ _) => 700
  | _ => 2 * ((c.entry f.addr).map (·.delay)).getD 0 + 300

/-- A CONFIG carries the cell mask and the duration in s (R23). -/
def configPayload (mask : Half) (duration : Nat) : List Byte := le 2 mask.toNat ++ le 2 duration

/-! ### Link health (R6 to R8) -/

/-- A character error is counted: in the window of the last 10 ms in UP, in the running period in SUSPECT, and not
otherwise (R6, R7). An error exactly 10,000 µs old is no longer in the window (log 78). The first period of SUSPECT begins with
no error counted (log 64). -/
def State.countError (s : State) (us : Us) : State :=
  match s.chain.state with
  | .up =>
    let l := s.chain.errs.filter (fun t => decide (elapsed us t < 10000)) ++ [us]
    if l.length < 8 then { s with chain.errs := l }
    else { s with
      chain.state := .suspect
      chain.errs := l
      chain.suspectSince := s.now
      chain.periodStart := s.now
      chain.periodErrs := 0 }
  | .suspect => { s with chain.periodErrs := s.chain.periodErrs + 1 }
  | .down | .surveying | .asleep => s

/-- The chain enters UP with an empty error window (R6, R7, R9, R13). -/
def State.enterUp (s : State) : State := { s with chain.state := .up, chain.errs := [] }

/-- The chain becomes down other than at a reset (R5, R8), and the automatic survey timer starts (R13). -/
def State.becomeDown (s : State) (origin : Option ChainState) (breakLoc : Nat) : State :=
  let s1 : State := { s with
    chain.state := .down
    chain.wasDown := true
    chain.downSince := s.now
    chain.surveyTimer := some s.now }
  (s1.raise .chainState).sendStill .chainDown 0
    (.chainDown (if origin.isSome then .surveying else .suspect) origin breakLoc)

/-! ### Requests (R10, R21) -/

/-- A user asks for the chain; a user whose request waits is not given a second one (R21). -/
def State.request (s : State) (r : Req) : State :=
  if s.chain.requests.contains r then s else { s with chain.requests := s.chain.requests ++ [r] }

/-- A request is withdrawn, granted or answered: it waits no more. -/
def State.dropRequest (s : State) (r : Req) : State := { s with chain.requests := s.chain.requests.filter (· ≠ r) }

/-- Whether a survey holds the chain. -/
def Chain.surveyHolds (c : Chain) : Bool :=
  match c.hold with
  | some (.survey _ _) => true
  | _ => false

/-- A survey is asked for; it joins one that waits or runs (R10), or the one that the wake of a cancelled sleep entry
begins (R22). -/
def State.requestSurvey (s : State) : State :=
  if s.chain.surveyHolds || decide (s.chain.state = .asleep) || s.chain.sleepCmd then s else s.request .survey

/-- The arbiter class of a request (1.6), and its order within class 3. -/
def Req.rank : Req → Nat × Nat
  | .survey => (1, 0)
  | .burst => (2, 0)
  | .capture p => (3, p)
  | .patrol => (4, 0)
  | .firmware _ => (5, 0)
  | .pause _ | .config | .stop | .returnEcho _ => (6, 0)

/-- One request comes before another that was made earlier: a lower class, or a lower plan index in class 3 (R21). -/
def Req.before (a b : Req) : Bool :=
  decide (a.rank.1 < b.rank.1) || (decide (a.rank.1 = b.rank.1) && decide (a.rank.2 < b.rank.2))

/-- The request that the arbiter grants (R21). -/
def pickRequest : List Req → Option Req
  | [] => none
  | r :: l =>
    match pickRequest l with
    | none => some r
    | some q => some (if q.before r then q else r)

/-! ### BALANCE and the balancing stop (R23, R24) -/

/-- The result fields of a BALANCE slip (12.3). -/
def Balance.fields (b : Balance) : List Byte :=
  [byte b.sent, byte b.acked, byte b.skipped, byte b.lowestNotAcked]

/-- The BALANCE slip ends (R23, R24). -/
def State.endBalance (s : State) (b : Balance) (code : ResultCode) (cause : Option ResultCause) : State :=
  State.complete { s with chain.balance := none, chain.requests := s.chain.requests.filter (· ≠ .config) } b.slot
    ⟨code, cause, b.fields⟩

/-- The head of a BALANCE slip's list is settled without a CONFIG: as skipped if none was sent, otherwise as not
acknowledged (R23, log 65). -/
def Balance.passHead (b : Balance) (a : Nat) (l : List (Nat × Half)) : Balance :=
  if b.tries = 0 then { b with todo := l, skipped := b.skipped + 1 }
  else { b with
    todo := l
    tries := 0
    lowestNotAcked := if b.anyNotAcked then b.lowestNotAcked else a
    anyNotAcked := true }

/-- Whether the module of an address is OUT_OF_SERVICE. -/
def Chain.outOf (c : Chain) (a : Nat) : Bool := (c.entry a).any fun e => decide (e.state = .outOfService)

/-- OUT_OF_SERVICE modules at the head of a BALANCE slip's list are sent no CONFIG (R18). -/
def Balance.skipHeads (c : Chain) (fuel : Nat) (b : Balance) : Balance :=
  match fuel, b.todo with
  | fuel + 1, (a, _) :: l => if c.outOf a then Balance.skipHeads c fuel (b.passHead a l) else b
  | _, _ => b

/-- The BALANCE slip goes on: it ends ABORTED after a stop was asked for (R24), ends when every address is settled, or asks
for the next CONFIG (R23). -/
def State.balanceNext (s : State) : State :=
  match s.chain.balance with
  | none => s
  | some b0 =>
    let b := b0.skipHeads s.chain 24
    if b.ending then s.endBalance b .aborted none
    else if b.todo = [] then
      if b.anyNotAcked then s.endBalance b .refused (some .noAck)
      else s.endBalance b (if b.clamped || decide (0 < b.skipped) then .okClamped else .ok) none
    else State.request { s with chain.balance := some b } .config

/-- A module went OUT_OF_SERVICE while the CONFIG request for it waits: the request is not for it any more, and the slip goes
on (R18). -/
def State.balanceReact (s : State) : State :=
  match s.chain.balance with
  | none => s
  | some b =>
    match b.todo with
    | [] => s
    | (a, _) :: _ =>
      if s.chain.requests.contains .config && s.chain.outOf a then (s.dropRequest .config).balanceNext else s

/-- A balancing stop is asked for; it joins one that waits (R24). A BALANCE slip in flight sends no further CONFIG: it ends
at once, or when its exchange ends. -/
def State.askStop (s : State) : State :=
  let s1 := s.request .stop
  match s1.chain.balance with
  | none => s1
  | some b =>
    if s1.chain.hold = some .config then { s1 with chain.balance := some { b with ending := true } }
    else s1.endBalance b .aborted none

/-- Every balancing record becomes inactive (R24). -/
def State.clearBalancing (s : State) : State :=
  { s with chain.map := s.chain.map.map fun e => { e with balMask := 0, balEnd := 0 } }

/-- The CONFIG exchange of the BALANCE slip has ended, acknowledged or failed (R23). -/
def State.balanceAnswered (s : State) (acked : Bool) : State :=
  match s.chain.balance with
  | none => s
  | some b =>
    match b.todo with
    | [] => s.balanceNext
    | (a, mask) :: l =>
      if acked then
        let s1 := s.editModule a fun e =>
          { e with
            balMask := mask
            balEnd := if mask = 0 then 0 else s.now + BitVec.ofNat 32 (1000 * b.duration) }
        State.balanceNext { s1 with chain.balance := some { b with todo := l, tries := 0, acked := b.acked + 1 } }
      else if b.tries < 3 then s.balanceNext
      else
        State.balanceNext { s with chain.balance := some { b with
          todo := l
          tries := 0
          lowestNotAcked := if b.anyNotAcked then b.lowestNotAcked else a
          anyNotAcked := true } }

/-! ### Module states (R17, R18) -/

/-- MODULE_FAULT is raised if the module was not already FAULTED (with a cause, if one is given). -/
def raiseFault (was : ModuleEntry) (cause : Option FaultCause) (s : State) : State :=
  if decide (was.state = .faulted) && (cause.isNone || decide (was.cause = cause)) then s else s.raise .moduleFault

/-- The states that R17 gives a row: IN_SERVICE, STALE, and FAULTED with cause MISSED or INTERNAL. An entry that left
them since its READ was sent is not changed by the outcome (log 22). -/
def ModuleEntry.follows (e : ModuleEntry) : Bool :=
  match e.state with
  | .inService | .stale => true
  | .faulted => decide (e.cause = some .missed ∨ e.cause = some .internal)
  | .absent | .outOfService => false

/-- A READ is answered by a good reply (R17). -/
def State.goodReply (s : State) (a : Nat) (status : ModuleStatus) (version : Half) : State :=
  match s.chain.entry a with
  | none => s
  | some e =>
    if !e.follows then s
    else if status.internalFault then
      raiseFault e none (s.editModule a fun e =>
        { e with status := status, version := version, miss := 0, state := .faulted, cause := some .internal })
    else s.editModule a fun e =>
      { e with status := status, version := version, miss := 0, state := .inService, cause := none }

/-- A READ ends in a miss (R17). -/
def State.miss (s : State) (a : Nat) : State :=
  match s.chain.entry a with
  | none => s
  | some e =>
    match e.state with
    | .inService | .stale =>
      if e.miss < 2 then s.editModule a fun e => { e with miss := e.miss + 1, state := .stale }
      else
        State.raise (s.editModule a fun e => { e with miss := 3, state := .faulted, cause := some .missed }) .moduleFault
    | .faulted =>
      if e.cause = some .missed ∨ e.cause = some .internal then
        s.editModule a fun e => { e with miss := bump 3 e.miss }
      else s
    | .absent | .outOfService => s

/-- A module leaves OUT_OF_SERVICE: IN_SERVICE with miss count 0 (R18). -/
def State.backInService (s : State) (a : Nat) : State :=
  State.editModule { s with chain.returning := s.chain.returning.filter fun r => decide (r.1 ≠ a) } a fun e =>
    if e.state = .outOfService then { e with state := .inService, miss := 0, cause := none } else e

/-- A module enters OUT_OF_SERVICE (R18). -/
def State.outOfService (s : State) (a : Nat) : State :=
  s.editModule a fun e => { e with state := .outOfService, cause := none }

/-- A module is handed back as "return on next echo" (R18). Its probes follow every 200 ms, the first one 200 ms after the
hand-back (log 85). -/
def State.handBack (s : State) (a : Nat) : State :=
  { s with chain.returning := s.chain.returning.filter (fun r => decide (r.1 ≠ a)) ++ [(a, s.now)] }

/-- An ECHO_BACK with a correct CRC-8 from an address: it returns a handed-back module and updates the firmware version of
a configured entry (R18). The update engine is given it by the caller. -/
def State.echoed (s : State) (a : Nat) (version : Half) : State :=
  let s1 := if s.chain.returning.any (fun r => decide (r.1 = a)) then s.backInService a else s
  s1.editModule a fun e => if e.configured then { e with version := version } else e

/-! ### The survey (R10 to R13) -/

/-- The latch delay of a round trip and whether it was clamped (R11). -/
def latchDelay (roundTrip : Nat) : Nat × Bool :=
  let d := (roundHalfUp roundTrip 20).toNat
  if 200 < d then (200, true) else (d, false)

/-- The survey entry of an absent address (R11). -/
def absentEntry : SurveyEntry := ⟨false, 0, 0, 0, 0, 0, false, 0⟩

/-- A settled address is compared with the working map (R12). -/
def State.compare (s : State) (a : Nat) (v : SurveyEntry) : State :=
  match s.chain.entry a with
  | none => s
  | some e =>
    if !e.configured then s
    else if e.state = .outOfService then
      if v.present then
        s.editModule a fun e => { e with delay := v.delay, delayClamped := v.delayClamped, version := v.version }
      else s
    else if !v.present then
      raiseFault e (some .absent)
        (s.editModule a fun e => { e with state := .faulted, cause := some .absent })
    else
      let s1 := s.editModule a fun e =>
        { e with delay := v.delay, delayClamped := v.delayClamped, version := v.version }
      if v.cells = e.cells ∧ v.sensors = e.sensors then
        s1.editModule a fun e => { e with state := .inService, miss := 0, cause := none }
      else
        raiseFault e (some .mapMismatch)
          (s1.editModule a fun e => { e with state := .faulted, cause := some .mapMismatch })

/-- The header of the survey result table (R13, 12.2), one word (log 91). -/
def State.showSurveyHeader (s : State) : State :=
  s.put 0x1000 [byte s.chain.present, byte s.chain.configured, byte s.chain.breakLoc, 0]

/-- Whether a configured entry is present with matching counts (R13). -/
def matchesMap (p : SurveyEntry × ModuleEntry) : Bool :=
  !p.2.configured || (p.1.present && decide (p.1.cells = p.2.cells) && decide (p.1.sensors = p.2.sensors))

/-- The lowest configured address that is absent, 0 for none (R13). -/
def breakOf : Nat → List (SurveyEntry × ModuleEntry) → Nat
  | _, [] => 0
  | a, p :: l => if p.2.configured && !p.1.present then a else breakOf (a + 1) l

/-- Address 24 is settled: the survey ends (R8, R13, R14). -/
def State.endSurvey (s : State) : State :=
  let zs := s.chain.survey.zip s.chain.map
  let n := (s.chain.survey.filter (·.present)).length
  let up := (s.chain.map.any (·.configured)) && zs.all matchesMap
  let brk := breakOf 1 zs
  let origin := s.chain.origin
  let s1 : State := State.showSurveyHeader { s with
    chain.present := n
    chain.configured := (s.chain.map.filter (·.configured)).length
    chain.breakLoc := brk
    chain.hold := none
    chain.line := .idle }
  let s2 : State :=
    if up then
      let t := s1.enterUp
      let t := if origin = .down then (t.raise .chainState).sendStill .chainUp 0 (.chainUp n) else t
      if t.chain.firstUp then t else State.askStop { t with chain.firstUp := true }
    else if origin = .down then { s1 with chain.state := .down, chain.surveyTimer := some s1.now }
    else s1.becomeDown (some origin) brk
  let s3 := s2.raise .surveyDone
  match s3.chain.surveySlip with
  | none => s3
  | some slot =>
    State.complete { s3 with chain.surveySlip := none } slot
      (.okWith [byte s3.chain.present, byte s3.chain.configured, byte s3.chain.breakLoc, byte s3.chain.state.code])

/-- An address of the survey is settled: its entry is written, compared with the map, and the survey goes on to the next
address or ends (R11 to R13). -/
def State.settleAddr (s : State) (a : Nat) (v : SurveyEntry) : State :=
  let s1 : State := State.put { s with chain.survey := modifyAddr s.chain.survey a fun _ => v } (surveyAt a)
    (surveyBytes v)
  let s2 := s1.compare a v
  if a < 24 then State.beginExchange { s2 with chain.hold := some (.survey (a + 1) false) } .echo (a + 1) []
  else s2.endSurvey

/-- The survey's ECHO has no good answer: it is sent once more, or the address is absent (R11). -/
def State.surveyFailed (s : State) (a : Nat) (second : Bool) : State :=
  if second then s.settleAddr a absentEntry
  else State.beginExchange { s with chain.hold := some (.survey a true) } .echo a []

/-- The survey is granted the chain: the chain enters SURVEYING from the state it was in, and the first ECHO is sent
(R10, R11). -/
def State.beginSurvey (s : State) : State :=
  State.beginExchange { s with
    chain.origin := s.chain.state
    chain.state := .surveying
    chain.surveyTimer := none
    chain.hold := some (.survey 1 false) } .echo 1 []

/-! ### The module map (R15, R16, R137) -/

/-- A working entry that takes the host's fields and starts as R15 states. -/
def HostModule.fresh (h : HostModule) : ModuleEntry :=
  { configured := h.configured
    cells := h.cells
    sensors := h.sensors
    source := h.source
    gain := h.gain
    offset := h.offset
    state := .absent
    cause := none
    miss := 0
    delay := 0
    delayClamped := false
    version := 0
    status := ⟨false, false, false⟩
    balMask := 0
    balEnd := 0 }

/-- Whether an entry's configured flag, cell count or sensor count changes (R16). -/
def HostModule.changes (h : HostModule) (e : ModuleEntry) : Bool :=
  !(decide (h.configured = e.configured) && decide (h.cells = e.cells) && decide (h.sensors = e.sensors))

/-- A working entry takes the host's fields: it enters ABSENT with miss count 0 if its part of the configured set changed
(R16). -/
def HostModule.take (h : HostModule) (e : ModuleEntry) : ModuleEntry :=
  let e1 := { e with
    configured := h.configured
    cells := h.cells
    sensors := h.sensors
    source := h.source
    gain := h.gain
    offset := h.offset }
  if h.changes e then { e1 with state := .absent, cause := none, miss := 0 } else e1

end Sys2Proof.Machine
end

