-- ==== Sys2Proof/Machine/ConvOps.lean ====
section
/-! DEFINITION. The pack converter's operations (chapter 2): the scan, the history, the charge counter, the sleep-interval
estimate, and the stop, start and restart commands. -/

namespace Sys2Proof.Machine

/-! ### Samples (R25 to R27) -/

/-- The readings of one latch instant, held at full scale with their marks (R26). A voltage below 0 is reported as 0. -/
def sampleOf (t : Us) (r : Readings) : Sample :=
  { t := t
    i := clampInt (-60000) 60000 r.i
    vBatt := (clampInt 0 120000 r.vBatt).toNat
    vLink := (clampInt 0 120000 r.vLink).toNat
    vCoil := (clampInt 0 3200 r.vCoil).toNat
    satI := decide (r.i ≤ -60000 ∨ 60000 ≤ r.i)
    satBatt := decide (120000 ≤ r.vBatt)
    satLink := decide (120000 ≤ r.vLink)
    satCoil := decide (3200 ≤ r.vCoil) }

/-- The history holds 64 samples; the oldest gives way (R27). -/
def pushSample (h : List Sample) (x : Sample) : List Sample := if h.length < 64 then h ++ [x] else h.drop 1 ++ [x]

/-- The history entry with a time stamp (R27). -/
def sampleAt (h : List Sample) (t : Us) : Option Sample := h.find? fun x => decide (x.t = t)

/-! ### The charge counter (R31) -/

/-- The counter's extreme, 2^63 − 1 (R31). -/
def chargeMax : Int := 9223372036854775807

/-- An addition to the counter, saturating; a saturated counter does not change (R31). -/
def addCharge (charge : Int) (sat : Bool) (d : Int) : Int × Bool :=
  if sat then (charge, true)
  else if chargeMax < charge + d then (chargeMax, true)
  else if charge + d < -chargeMax then (-chargeMax, true)
  else (charge + d, false)

/-- Add to the counter. -/
def State.charge (s : State) (d : Int) : State :=
  let r := addCharge s.conv.charge s.conv.chargeSat d
  { s with conv.charge := r.1, conv.chargeSat := r.2 }

/-! ### The sleep-interval estimate (R32, R33) -/

/-- The ceiling of the unsampled interval count in ms (R32). -/
def unsampledMax : Nat := 86400000

/-- The sum of currents. -/
def sumInts : List Int → Int
  | [] => 0
  | x :: l => x + sumInts l

/-- The elapsed time of an estimate in 100 µs units (R33). -/
def estimateSpan (frozen periodS : Nat) : Nat := 10 * min (min frozen (2 * (1000 * periodS))) unsampledMax

/-- The estimate is made over the samples collected, or there is no average when none was; it is handed to the power
controller and the converter record is rewritten (R33, R35). -/
def State.makeEstimate (s : State) : State :=
  match s.conv.estimate with
  | none => s
  | some e =>
    match e.currents with
    | [] => { s with conv.estimate := none, power.estimate := .noAverage }
    | _ :: _ =>
      let avg := roundHalfAway (sumInts e.currents) e.currents.length
      let t := State.charge { s with conv.estimate := none }
        (avg * (estimateSpan e.frozen s.power.wakeTable.period : Nat))
      State.showConverter { t with power.estimate := .made avg t.conv.charge }

/-- A completed sample is collected; with the 16th the estimate is made (R33). -/
def State.collect (s : State) (i : Int) : State :=
  match s.conv.estimate with
  | none => s
  | some e =>
    let t : State := { s with conv.estimate := some { e with currents := e.currents ++ [i] } }
    if e.currents.length + 1 < 16 then t else t.makeEstimate

/-! ### Stop, start and restart (R28) -/

/-- At each stop, start and restart the hard current run is 0 (R85), and the low-supply part of surge does not hold while
the converter is stopped or its history empty (R73). -/
def State.clearRun (s : State) : State :=
  { s with sup.hardRun := 0, sup.hardFell := false, sup.lowSupply := false }

/-- The stop command: the time base halts, a collecting estimate ends, the unsampled count starts, filling windows end
(R28, R33, R99), and the converter record is rewritten (R35). A sample not yet complete is discarded (R25). -/
def State.stopConverter (s : State) : State :=
  if !s.conv.scanning then s
  else
    let t := State.makeEstimate { s with conv.scanning := false, conv.latched := none, conv.unsampled := 0 }
    t.clearRun.endWindows.showConverter

/-- The history is emptied, the µs time base is set to 0, and the next latch is at 100 (R25, R28). -/
def State.clearScan (s : State) : State :=
  State.clearRun
    { s with conv.scanning := true, conv.us := 0, conv.lastLatch := 0, conv.latched := none, conv.history := [] }

/-- The restart command (R28). -/
def State.restartConverter (s : State) : State := if s.conv.scanning then s.clearScan.endWindows else s

/-- The start command: the unsampled count is frozen and an estimate opened with it (R28); while scanning it acts as
restart. -/
def State.startConverter (s : State) : State :=
  if s.conv.scanning then s.restartConverter
  else
    State.endWindows { s.clearScan with
      conv.estimate := some ⟨s.conv.unsampled, []⟩
      power.estimate := .awaited }

/-! ### Restore (R36) -/

/-- The counter after the restore: with a valid snapshot it continues from the snapshot's value and mark, to which the sum
added since the reset is added; without one it keeps its sum and its marks (R36). -/
def Conv.restore (c : Conv) : Option Snapshot → Conv
  | none => c
  | some x =>
    let r := addCharge x.value x.sat c.charge
    { c with charge := r.1, chargeSat := r.2, restored := true }

/-- The restore, at the end of the start-up read after a POWER_ON; the converter record is rewritten, whether or not a valid
snapshot is held (R35, R36). A start-up read that a RESET_LINE began restores nothing (R37), also where the RESET_LINE came
before the restore of the POWER_ON: that one is then never made, which is the model's choice (log 99). -/
def State.restoreCharge (s : State) : State :=
  match s.power.lastReset with
  | .powerOn => State.showConverter { s with conv := s.conv.restore s.store.work.snapshot }
  | .resetLine => s

/-! ### Snapshot requests (R34) -/

/-- A snapshot request: the snapshot timer is set to 0 and the store is handed the counter and its mark (R34). -/
def State.requestSnapshot (s : State) (who : Requester) : State :=
  State.requestWrite { s with conv.snapTimer := 0 } (.snapshot ⟨s.conv.charge, s.conv.chargeSat⟩) who

end Sys2Proof.Machine
end

