-- ==== Sys2Proof/Machine/SupOps.lean ====
section
/-! DEFINITION. The contactor supervisor's operations (chapter 4): coils, state changes, openings, causes, coil faults, weld
judgements, the silence timer. -/

namespace Sys2Proof.Machine

/-! ### State and coils (R70, R73, R74) -/

/-- Closed or closing: PRECHARGING, CLOSING or CLOSED (4.2). -/
def SupState.isClosing (st : SupState) : Bool :=
  match st with
  | .precharging | .closing | .closed => true
  | .open_ | .opening | .weldCheck | .lockedOut => false

/-- At rest: OPEN, WELD_CHECK or LOCKED_OUT (4.2). -/
def SupState.atRest (st : SupState) : Bool :=
  match st with
  | .open_ | .weldCheck | .lockedOut => true
  | .precharging | .closing | .closed | .opening => false

/-- A change of the supervisor state raises CONTACTOR_CHANGE (R74). The CHAIN_LOSS condition does not hold outside the
closing states (R86). -/
def State.toSup (s : State) (st : SupState) : State :=
  State.raise { s with sup.state := st, sup.lossHeld := s.sup.lossHeld && st.isClosing } .contactorChange

/-- A coil is energized now: its first report falls 40 ms later (R71). -/
def coilOn (now : Ms) : Coil := ⟨true, now, now + 40⟩

/-- A coil is released; its energize time stands, its report is cancelled (R70, R71). -/
def Coil.release (c : Coil) : Coil := { c with on := false }

/-- Each energize sets the end of the inrush to 40 ms after it (R73). -/
def State.inrush (s : State) : State := { s with sup.inrush := some (s.now + 40) }

/-- The coil of a name. -/
def Sup.coil (p : Sup) : CoilName → Coil
  | .mainNeg => p.mainNeg
  | .precharge => p.precharge
  | .mainPos => p.mainPos

/-! ### Wear (R81) -/

/-- The weight of a release by the magnitude of the current (R81). -/
def wearWeight (i : Int) (breakLimit : Int) : Nat :=
  if i.natAbs < 500 then 1 else if (i.natAbs : Int) < breakLimit then 10 else 1000

/-- MAIN_POS is released: if it was energized, its wear count advances by the newest sample's weight (R81). -/
def State.releasePos (s : State) : State :=
  if s.sup.mainPos.on then
    State.requestWrite { s with sup.mainPos := s.sup.mainPos.release }
      (.wearPos (wearWeight s.newestI s.store.active.breakLimit)) .wear
  else s

/-- MAIN_NEG is released: if it was energized, its wear count advances by the newest sample's weight (R81). -/
def State.releaseNeg (s : State) : State :=
  if s.sup.mainNeg.on then
    State.requestWrite { s with sup.mainNeg := s.sup.mainNeg.release }
      (.wearNeg (wearWeight s.newestI s.store.active.breakLimit)) .wear
  else s

/-- PRECHARGE is released; it has no wear count (R81). -/
def State.releasePrecharge (s : State) : State := { s with sup.precharge := s.sup.precharge.release }

/-! ### Openings (R79, R80, R87, R88) -/

/-- The CLOSE slip in flight completes ABORTED, its result fields 0 (R79, R87, log 70). -/
def State.abortClose (s : State) : State :=
  match s.sup.close with
  | none => s
  | some c => State.complete { s with sup.close := none } c.slot (.plain .aborted)

/-- The length of a running deferral, in ms (R88). -/
def State.deferralLength (s : State) : Option Nat := s.sup.deferral.map fun d => elapsed s.now d.start

/-- The first step of an opening (R80). `slot` is the OPEN slip that begins it, if one does; otherwise it is an autonomous
open and `causes` starts with the first cause taken, which stands in the cause field alone (R87, log 74). A deferral that runs
ends here (R88). -/
def State.startOpening (s : State) (slot : Option Nat) (causes : List CauseRec) : State :=
  let i := s.newestI
  let before := s.sup.coils
  let deferred := s.deferralLength
  let s1 := (s.releasePos.releasePrecharge).drawn
  let s2 := State.toSup { s1 with
    sup.deferral := none
    sup.opening := some ⟨slot.toList, i, causes.map (·.cause), s.now⟩ } .opening
  let after := s2.sup.coils
  let auto := slot.isNone
  let s3 := s2.abortClose.send
    { kind := if auto then .autoOpen else .opened
      cause := if auto then (match causes with | [] => 0 | c :: _ => c.cause.code) else 0
      before := before
      after := after
      detail := .release i
      causes := if auto then causes.drop 1 else causes
      deferred := deferred
      adding := true
      together := false
      fresh := false }
  let s4 :=
    if s.store.active.breakLimit ≤ (i.natAbs : Int) then
      s3.send ⟨.highCurrentBreak, 0, before, after, .release i, [], none, false, false, false⟩
    else s3
  if auto then (s4.raise .autoOpen).askStop else s4

/-- The result fields of an OPEN slip: the release current and the number of causes (R79, 12.3). -/
def Opening.fields (o : Opening) : List Byte := les 4 o.release ++ [byte o.causes.length]

/-- The second step, or the coil fault that takes its place: MAIN_NEG is released, the opening ends, WELD_CHECK begins with
its window, and the waiting OPEN slips complete (R72, R80). -/
def State.endOpening (s : State) : State :=
  match s.sup.opening with
  | none => s
  | some o =>
    let s1 := s.releaseNeg.drawn
    let s2 := State.toSup { s1 with
      sup.opening := none
      sup.weld := some ⟨s.now, s.store.active.weldWindow.toNat, false, false⟩ } .weldCheck
    s2.endAdditions.completeAll o.slots (.okWith o.fields)

/-- A cause that falls due is handled according to the supervisor state (R87). -/
def State.causeDue (s : State) (c : CauseRec) : State :=
  match s.sup.state with
  | .open_ | .weldCheck | .lockedOut => s
  | .opening =>
    match s.sup.opening with
    | none => s
    | some o =>
      if o.causes.contains c.cause then s
      else State.addCause { s with sup.opening := some { o with causes := o.causes ++ [c.cause] } } c
  | .precharging | .closing | .closed =>
    match s.sup.deferral with
    | some d =>
      if d.causes.any fun r => decide (r.cause = c.cause) then s
      else { s with sup.deferral := some { d with causes := d.causes ++ [c] } }
    | none =>
      if (s.newestI.natAbs : Int) < s.store.active.breakLimit then s.startOpening none [c]
      else
        State.drawn { s with sup.deferral := some ⟨s.now, s.store.active.deferral.toNat, [c]⟩ }

/-- Several causes are taken one after another, in the order given (R87, log 73). -/
def State.causesDue (s : State) (l : List CauseRec) : State := l.foldl State.causeDue s

/-- The deferral ends in an autonomous open (R88). -/
def State.endDeferral (s : State) : State :=
  match s.sup.deferral with
  | none => s
  | some d => s.startOpening none d.causes

/-- The causes and the length of the deferral that an event ends (R72, R77, R88). -/
def State.deferralCauses (s : State) : List CauseRec :=
  match s.sup.deferral with
  | none => []
  | some d => d.causes

/-! ### Coil faults (R72) -/

/-- A coil fault, with the second coil if two faulted together (R72); a CLOSE that it ends has result fields 0 (log 70). -/
def State.coilFault (s : State) (coil : CoilName) (mA : Nat) (second : Option (CoilName × Nat)) : State :=
  let before := s.sup.coils
  let causes := s.deferralCauses
  let length := s.deferralLength
  let s1 : State :=
    if s.sup.state = .opening then s.endOpening
    else
      let t := (s.releasePos.releaseNeg.releasePrecharge).drawn
      let t := State.toSup { t with sup.deferral := none } .open_
      match t.sup.close with
      | none => t
      | some c => State.complete { t with sup.close := none } c.slot (.refuse .coilFault)
  s1.send ⟨.coilFault, 0, before, s1.sup.coils, .coilFault coil mA second, causes, length, false, false, false⟩

/-! ### Weld checks (R82 to R84) -/

/-- V_LINK × 1000 ≥ ratio × V_BATT (R76, R82). -/
def reaches (ratio : Nat) (vLink vBatt : Nat) : Bool := decide (ratio * vBatt ≤ vLink * 1000)

/-- The result fields of a CLEAR_LOCKOUT slip (12.3). -/
def Clear.fields (c : Clear) : List Byte := le 4 c.vLink ++ le 4 c.vBatt

/-- A weld window is judged on a sample (R82 to R84). -/
def State.judgeWeld (s : State) (w : Weld) (x : Sample) : State :=
  let ratio := s.store.active.weldRatio.toNat
  let s0 : State := { s with sup.weld := none }
  let welded := reaches ratio x.vLink x.vBatt
  if w.forClear then
    match s.sup.clear with
    | none => s0
    | some c =>
      let c := { c with vLink := x.vLink, vBatt := x.vBatt }
      if welded then
        State.complete { s0 with sup.clear := none } c.slot (.refuse .stillWelded c.fields)
      else
        State.requestWrite { s0 with sup.clear := some c } (.lockout ⟨false, s.now, x.vLink, x.vBatt⟩) .weldClear
  else if welded then
    let s1 := s0.sendStill .weldSuspect 0 (.weldSuspect x.vLink x.vBatt ratio)
    State.requestWrite ((s1.toSup .lockedOut).raise .lockout) (.lockout ⟨true, s.now, x.vLink, x.vBatt⟩) .weldSet
  else s0.toSup .open_

/-- The store reports the write of the lockout record as clear (R84). The result fields of the slip, OK or REFUSED, are V_LINK
and V_BATT of the judging sample, as with STILL_WELDED (log 79). -/
def State.lockoutCleared (s : State) (done : Bool) : State :=
  match s.sup.clear with
  | none => s
  | some c =>
    let s0 : State := { s with sup.clear := none }
    if done then
      State.sendStill ((s0.toSup .open_).complete c.slot (.okWith c.fields)) .lockoutCleared 0 (.volts c.vLink c.vBatt)
    else s0.complete c.slot (.refuse .store c.fields)

/-! ### CLOSE (R75, R76) -/

/-- The checks of a CLOSE in OPEN, in order; the first that fails (R75). -/
def State.closeFails (s : State) : Option ResultCause :=
  if !s.sup.once.set then some .safetyUnset
  else if decide (s.upd.state = .committing ∨ s.upd.state = .switching)
      || s.chain.map.any (fun e => decide (e.state = .outOfService)) then some .updateActive
  else if s.chain.state ≠ .up then some .chain
  else
    match s.plan.fresh with
    | none => some .noFreshSet
    | some f =>
      if 500 < elapsed s.now f.part ∨ s.plan.implausible = 3 then some .noFreshSet
      else if f.soft then some .softLimit
      else if (match s.newest with | none => true | some x => decide (x.vBatt < 5000)) then some .battLow
      else if decide (0 < s.sup.once.limit) && s.sup.lapsed then some .silenceLapsed
      else none

/-! ### CHAIN_LOSS (R86) -/

/-- Whether the map holds a configured FAULTED module (R86). -/
def anyFaulted (m : List ModuleEntry) : Bool := m.any fun e => e.configured && decide (e.state = .faulted)

/-- The chain has been down for longer than the hold (R86). -/
def State.downTooLong (s : State) : Bool :=
  s.chain.down && decide (s.store.active.chainHold < (elapsed s.now s.chain.downSince : Nat))

/-- Some configured module has been FAULTED for longer than the hold, and that counts as chain loss (R86). -/
def State.faultedTooLong (s : State) : Bool :=
  s.sup.once.moduleFault && (match s.sup.faultedSince with
    | none => false
    | some t => decide (s.store.active.chainHold < (elapsed s.now t : Nat)))

/-- The CHAIN_LOSS condition (R86). -/
def State.lossHolds (s : State) : Bool :=
  s.sup.once.policyArmed && s.sup.state.isClosing && (s.downTooLong || s.faultedTooLong)

/-- The CHAIN_LOSS cause, with what was lost: chain down 1, module FAULTED 2 (12.4), as it stands when the cause is handled
(log 72). -/
def State.lossCause (s : State) : CauseRec := ⟨.chainLoss, 0, 0, 0, if s.chain.down then 1 else 2⟩

/-- The condition is judged; CHAIN_LOSS falls due at the moment it begins to hold (R86). -/
def State.judgeLoss (s : State) : State :=
  let h := s.lossHolds
  { s with sup.lossHeld := h, sup.lossDue := s.sup.lossDue || (h && !s.sup.lossHeld) }

/-- The close begins: MAIN_NEG and PRECHARGE are energized together, PRECHARGING is entered (R76), and the CHAIN_LOSS
condition is judged, which may take it at once (R86). -/
def State.beginClose (s : State) (slot : Nat) : State :=
  let s1 := State.inrush { s with
    sup.mainNeg := coilOn s.now
    sup.precharge := coilOn s.now
    sup.close := some ⟨slot, s.now, s.store.active.ratio.toNat, s.store.active.timeout.toNat, 0, 0, 0⟩ }
  let s2 := State.judgeLoss (s1.toSup .precharging)
  if s2.sup.lossDue then State.causeDue { s2 with sup.lossDue := false } s2.lossCause else s2

/-- The result fields of a CLOSE slip (12.3). -/
def closeFields (ms vLink vBatt : Nat) : List Byte := le 2 ms ++ [0, 0] ++ le 4 vLink ++ le 4 vBatt

/-! ### The silence timer (R89, R90) -/

/-- The silence timer is armed while the limit is not 0 (R89). -/
def Sup.armed (p : Sup) : Bool := decide (0 < p.once.limit)

/-- The count is set to 0, and with it the warning mark (R89, R90). -/
def State.clearSilence (s : State) : State := { s with sup.silence := 0, sup.warn := false }

/-- The limit plus the grace of the active limits (R90). -/
def State.silenceEnd (s : State) : Nat := s.sup.once.limit + s.store.active.grace.toNat

/-- The warning (R90). -/
def State.silenceWarning (s : State) : State := State.raise { s with sup.warn := true } .silenceWarn

/-- The expiry (R90): at rest a SILENCE event is sent; otherwise SILENCE falls due, with the count as it stood before it was
set to 0 (log 86). -/
def State.silenceExpiry (s : State) : State :=
  let n := s.sup.silence
  let s1 : State := State.clearSilence { s with sup.lapsed := true }
  if s.sup.state.atRest then s1.sendStill .silence 0 (.silence s.sup.once.limit s.store.active.grace.toNat)
  else s1.causeDue ⟨.silence, 0, 0, 0, n⟩

/-- The count advances by 1 ms; an armed count does not pass limit plus grace without an expiry (R89, R90), an unarmed one
holds at its highest value (log 71). -/
def State.countSilence (s : State) : State :=
  if s.power.state.awake then
    { s with sup.silence :=
        if s.sup.armed then max s.sup.silence (min (s.sup.silence + 1) s.silenceEnd) else bump 4294967295 s.sup.silence }
  else s

/-! ### SET_ONCE (R92) -/

/-- The result fields of a SET_ONCE slip (12.3): policy armed 0, not armed 1; module-fault yes 1, no 0 (log 23). -/
def Once.fields (o : Once) : List Byte :=
  le 2 o.limit ++ [byte (if o.policyArmed then 0 else 1), flag o.moduleFault, flag o.set]

/-! ### Samples (R73, R76, R82, R85, R88) -/

/-- The hard current run after a sample (R85). -/
def State.countHard (s : State) (i : Int) : State :=
  let n := s.store.active.hardCount.toNat
  if s.store.active.hardCurrent < (i.natAbs : Int) then
    let run := min n (s.sup.hardRun + 1)
    if decide (n ≤ run) && !s.sup.hardFell then
      { s with sup.hardRun := run, sup.hardFell := true, sup.hardDue := true }
    else { s with sup.hardRun := run }
  else { s with sup.hardRun := 0, sup.hardFell := false }

/-- Precharge is reached: MAIN_POS is energized and CLOSING entered (R76). -/
def State.reachPrecharge (s : State) (x : Sample) : State :=
  match s.sup.state, s.sup.close with
  | .precharging, some c =>
    if reaches c.ratio x.vLink x.vBatt then
      State.toSup (State.inrush { s with
        sup.mainPos := coilOn s.now
        sup.settleAt := s.now
        sup.close := some { c with
          reachedMs := elapsed s.now c.entered
          vLink := x.vLink
          vBatt := x.vBatt } }) .closing
    else s
  | _, _ => s

/-- The supervisor judges a completed sample (log 24 on the order). -/
def State.supSample (s : State) (x : Sample) : State :=
  let s1 : State := { s with sup.lowSupply := decide ((x.vCoil : Int) < s.store.active.surge) }
  let s2 := s1.countHard x.i
  let s3 := if s2.sup.deferral.isSome && decide ((x.i.natAbs : Int) < s2.store.active.breakLimit) then s2.endDeferral
    else s2
  let s4 := s3.reachPrecharge x
  match s4.sup.weld with
  | some w => if w.waitingSample then s4.judgeWeld w x else s4
  | none => s4

end Sys2Proof.Machine
end

