-- ==== Sys2Proof/Machine/PlannerOps.lean ====
section
/-! DEFINITION. The capture planner's operations (chapter 3): captures from due time to hold, pairs, readings, the set
arithmetic, the building of a set, the sample pages. -/

namespace Sys2Proof.Machine

/-! ### Plan indices (3.2) -/

/-- The burst, CAPTURE_NOW and patrol plan indices (3.2). -/
def burstPlan : Nat := 8
@[inherit_doc burstPlan] def nowPlan : Nat := 9
@[inherit_doc burstPlan] def patrolPlan : Nat := 10

/-- The request with which a plan's capture asks for the chain (3.2). -/
def captureReq (p : Nat) : Req := if p = burstPlan then .burst else if p = patrolPlan then .patrol else .capture p

/-- The plan of a capture request. -/
def Req.capturePlan : Req → Option Nat
  | .burst => some burstPlan
  | .patrol => some patrolPlan
  | .capture p => some p
  | _ => none

/-! ### Captures in progress (R40 to R48) -/

/-- A capture that has begun (R47, 3.2). -/
def newCapture (p : Nat) (mask : BitVec 24) (c : Contents) (publish : Bool) : Capture :=
  { plan := p
    mask := mask
    contents := c
    pause := 0
    publish := publish
    stage := .requested
    link := 0
    slot := none
    items := []
    allListed := false
    tag := 0
    tb := none
    part := 0
    bcast := none
    surge := false }

/-- Whether a plan has a capture in progress, in any stage (R41). -/
def Planner.busy (p : Planner) (plan : Nat) : Bool := p.captures.any fun c => decide (c.plan = plan)

/-- A capture that has begun but does not hold the chain yet. -/
def Stage.early (st : Stage) : Bool :=
  match st with
  | .pauseRequested | .pausing _ | .requested => true
  | .held | .building | .writing => false

/-- The capture that holds the chain. -/
def Capture.holding (c : Capture) : Bool := decide (c.stage = .held)

/-- Change the capture that holds the chain. -/
def State.editHeld (s : State) (f : Capture → Capture) : State :=
  { s with plan.captures := s.plan.captures.map fun c => if c.holding then f c else c }

/-- A capture begins: it asks for its PAUSE or for the chain (R47). -/
def State.beginPlanCapture (s : State) (c : Capture) : State :=
  if c.pause = 0 then
    State.request { s with plan.captures := s.plan.captures ++ [{ c with stage := .requested }] } (captureReq c.plan)
  else
    State.request { s with plan.captures := s.plan.captures ++ [{ c with stage := .pauseRequested }] } (.pause c.plan)

/-- The early captures of a plan end without a set, and their requests are withdrawn (R42, R46, R47). -/
def State.dropEarly (s : State) (p : Nat) : State :=
  State.dropRequest (State.dropRequest
    { s with plan.captures := s.plan.captures.filter fun c => !(decide (c.plan = p) && c.stage.early) } (.pause p))
    (captureReq p)

/-- The planner becomes quiet: plan captures 0 to 7 that are pausing or requested are withdrawn (R46). -/
def State.becomeQuiet (s : State) : State :=
  [0, 1, 2, 3, 4, 5, 6, 7].foldl (fun s p => s.dropEarly p) { s with plan.quiet := true }

/-- Captures have ended: none is in progress and no burst capture is still to come (R46). -/
def Planner.ended (p : Planner) : Bool :=
  p.captures.isEmpty && (match p.burst with
    | none => true
    | some b => decide (3 ≤ b.begun))

/-- The result fields of a CAPTURE_NOW slip without a set: every field absent, the page none (R191, 12.3); that they are
absent is the model's choice (log 101). -/
def noPage : List Byte := [0, 0, 0, 0, 0xFF]

/-- The arbiter answers a capture's request CHAIN_DOWN or CHAIN_ASLEEP: the capture ends without a set (R43, R44, R45,
R47). -/
def State.captureNotMade (s : State) (p : Nat) : State :=
  let slots := (s.plan.captures.filter fun c => decide (c.plan = p) && c.stage.early).filterMap (·.slot)
  let s1 := (s.dropEarly p).completeAll slots (.refuse .chain noPage)
  if p = patrolPlan then { s1 with plan.patrolReport := some .notMade } else s1

/-! ### Bursts (R42, R43) -/

/-- Whether a capture of a burst runs or is building for an event sequence. -/
def Planner.burstRuns (p : Planner) (seq : Nat) : Bool :=
  p.captures.any fun c => decide (c.plan = burstPlan) && decide (c.link = seq)

/-- A burst capture begins (R42). -/
def State.beginBurstCapture (s : State) (b : Burst) : State :=
  State.beginPlanCapture { s with plan.burst := some { b with begun := b.begun + 1 } }
    { newCapture burstPlan 0xFFFFFF .both true with link := b.seq }

/-- A windowed record asks for a burst: it replaces a burst that is still in progress or to come; the old burst's captures
that do not hold the chain and are not building are dropped (R42). If none of them is left, the old burst produced no
further set (R43). -/
def State.askBurst (s : State) (seq : Nat) (part : Ms) : State :=
  let old := s.plan.burst
  let s1 : State := { s.dropEarly burstPlan with plan.burst := some ⟨seq, part, 0⟩ }
  match old with
  | none => s1
  | some b => if s1.plan.burstRuns b.seq then s1 else s1.answerLink b.seq none

/-- The first capture of a new burst begins at the request, or when the old one's held capture has ended (R42); a burst
whose three captures have ended is over, and its record is told if it had no set (R43). -/
def State.burstReact (s : State) : State :=
  match s.plan.burst with
  | none => s
  | some b =>
    if b.begun = 0 then
      if s.plan.captures.any fun c => decide (c.plan = burstPlan) && c.holding then s else s.beginBurstCapture b
    else if b.begun = 3 ∧ s.plan.burstRuns b.seq = false then
      State.answerLink { s with plan.burst := none } b.seq none
    else s

/-! ### Grant and broadcast (R48, R49) -/

/-- What a capture fixes for one listed address at its grant (R48). -/
def fixItem (c : Chain) (a : Nat) : Option Item :=
  (c.entry a).map fun e =>
    { addr := a
      cells := e.cells
      sensors := e.sensors
      gain := e.gain
      offset := e.offset
      delay := e.delay
      state := e.state
      tm := 0
      pair := none
      settled := false
      reading := none }

/-- A capture is granted the chain: the planner fixes what it works with, and the CAPTURE broadcast begins (R19, R48). The
burst and the patrol list every configured address (3.2). -/
def State.grantCapture (s : State) (p : Nat) : State :=
  let all := s.chain.configuredAddrs
  let fix (c : Capture) : Capture :=
    if decide (c.plan = p) && decide (c.stage = .requested) then
      let mask := if p = burstPlan ∨ p = patrolPlan then 0xFFFFFF else c.mask
      let l := all.filter (selects mask)
      { c with stage := .held, items := l.filterMap (fixItem s.chain), allListed := decide (l = all) }
    else c
  State.beginCapture { s with
    plan.captures := s.plan.captures.map fix
    chain.hold := some (.capture p) }

/-- The CAPTURE broadcast has left at t_b: the latch times are known (R19, R48), and SURGE is marked if surge holds at that
moment (R54). -/
def Capture.sent (c : Capture) (tag : Nat) (tb : Us) (now : Ms) (surge : Bool) : Capture :=
  { c with
    tag := tag
    tb := some tb
    part := now
    surge := c.surge || surge
    items := c.items.map fun m => { m with tm := tb + BitVec.ofNat 32 m.delay } }

/-- A sample's time stamp lies after a µs time. After a restart of the time base the first sample of the emptied history
lies after every earlier time (R29, R49). -/
def liesAfter (h : List Sample) (x : Sample) (t : Us) : Bool :=
  (decide (x.t ≠ t) && decide (elapsed x.t t < 2147483648)) || (decide (h = [x]) && decide (1000 ≤ elapsed t x.t))

/-- The bracketing pair of a latch time with the sample just completed (R49). -/
def pairOf (h : List Sample) (x : Sample) (tm : Us) : Pair :=
  match sampleAt h (x.t - 100) with
  | some a => ⟨a.i, x.i, elapsed tm a.t, false, a.satI || x.satI⟩
  | none => ⟨x.i, x.i, 0, true, x.satI⟩

/-- The broadcast readings come from the nearest sample (R49). -/
def broadcastOf (h : List Sample) (x : Sample) (tb : Us) : Broadcast :=
  let y := match sampleAt h (x.t - 100) with
    | some a => if elapsed tb a.t < 50 then a else x
    | none => x
  ⟨y.vBatt, y.vLink, y.i, y.satI⟩

/-- The pairs and the broadcast readings that a completed sample gives a capture (R49). -/
def Capture.pairUp (h : List Sample) (x : Sample) (c : Capture) : Capture :=
  match c.tb with
  | none => c
  | some tb =>
    { c with
      bcast := if c.bcast.isNone && liesAfter h x tb then some (broadcastOf h x tb) else c.bcast
      items := c.items.map fun m =>
        if m.pair.isNone && liesAfter h x m.tm then { m with pair := some (pairOf h x m.tm) } else m }

/-- Every pair and the broadcast readings are recorded (R49). -/
def Capture.paired (c : Capture) : Bool := c.bcast.isSome && c.items.all fun m => m.pair.isSome

/-! ### Readings (R50 to R53) -/

/-- A cell code converted with gain and offset; the second part is CLAMPED (R51). -/
def cellValue (gain : Nat) (offset : Int) (code : Half) : Nat × Bool :=
  let v := roundHalfUp ((code.toNat * gain : Nat) : Int) 32768 + offset
  ((clampInt 0 50000 v).toNat, decide (v < 0 ∨ 50000 < v))

/-- A temperature code converted; the second part is CLAMPED (R52). -/
def tempValue (code : Half) : Int × Bool :=
  let t := (code.toNat : Int) - 400
  (min t 1500, decide (1500 < t))

/-- The aligned current of a pair (R53). -/
def Pair.current (p : Pair) : Int := p.ia + roundHalfAway ((p.ib - p.ia) * p.dt) 100

/-- The kept readings of an address. -/
def Planner.keptAt (p : Planner) (a : Nat) : Option Reading := (atAddr p.kept a).getD none

/-- The readings of a good reply: the codes of the capture's contents converted, the other list kept (R50). -/
def Item.goodReading (m : Item) (c : Contents) (old : Option Reading) (codes : List Half) : Reading :=
  let cells := (codes.take m.cells).map (cellValue m.gain m.offset)
  let temps := (codes.drop m.cells).map tempValue
  { cells := if c = .temperatures then (old.map (·.cells)).getD [] else cells
    temps := if c = .cells then (old.map (·.temps)).getD [] else temps
    current := m.pair.map Pair.current
    alignClamped := (m.pair.map (·.clamped)).getD false
    saturated := (m.pair.map (·.sat)).getD false
    age := 0 }

/-- Kept readings one capture older (R50). -/
def Reading.older (r : Reading) : Reading := { r with age := bump 254 r.age }

/-- An address ends its turn in the held capture: the reading it brings is set and kept (R50), whatever the working map has
come to hold for the address since the grant (log 25). `state` is the module's state after the outcome, or none when it was
not read. -/
def State.settleItem (s : State) (a : Nat) (r : Option Reading) (state : Option ModState) : State :=
  let listed := s.plan.captures.any fun c => c.holding && c.items.any fun m => decide (m.addr = a)
  let s1 := s.editHeld fun c => { c with items := c.items.map fun m =>
    if m.addr = a then { m with settled := true, reading := r, state := state.getD m.state } else m }
  if listed then { s1 with plan.kept := modifyAddr s1.plan.kept a fun _ => r } else s1

/-- An address is missed or not read: its kept readings grow older (R50). -/
def State.settleOld (s : State) (a : Nat) (state : Option ModState) : State :=
  s.settleItem a ((s.plan.keptAt a).map Reading.older) state

/-- An address gave a good reply (R50). -/
def State.settleGood (s : State) (a : Nat) (codes : List Half) (state : Option ModState) : State :=
  match s.plan.captures.find? Capture.holding with
  | none => s
  | some c =>
    match c.items.find? (fun m => decide (m.addr = a)) with
    | none => s
    | some m => s.settleItem a (some (m.goodReading c.contents (s.plan.keptAt a) codes)) state

/-- Whether an address is sent a READ, judged by the working map when its turn comes (R19). -/
def readable (e : ModuleEntry) : Bool :=
  e.configured && (match e.state with
    | .inService | .stale => true
    | .faulted => decide (e.cause = some .missed ∨ e.cause = some .internal)
    | .absent | .outOfService => false)

/-- The capture's hold has ended: its set waits to be built, behind the sets whose holds ended before (R19, R62). -/
def State.endHold (s : State) : State :=
  { s with
    chain.hold := none
    chain.line := .idle
    plan.captures := s.plan.captures.filter (fun c => !c.holding)
      ++ (s.plan.captures.filter Capture.holding).map fun c => { c with stage := .building } }

/-- The READ frames go on with the next address that is read; those before it that are not are handed over as not read;
after the last the hold ends (R19). -/
def State.nextRead : List Item → State → State
  | [], s => s.endHold
  | m :: l, s =>
    if m.settled then State.nextRead l s
    else if (s.chain.entry m.addr).any readable then
      match s.plan.captures.find? Capture.holding with
      | none => s
      | some c => s.beginRead m.addr c.tag
    else State.nextRead l (s.settleOld m.addr none)

/-- The held capture goes on to its next READ (R19). -/
def State.readOn (s : State) : State :=
  match s.plan.captures.find? Capture.holding with
  | none => s
  | some c => State.nextRead c.items s

/-- The chain became down: what the held capture has not read is not read, and its hold ends (R7, R50). -/
def State.abandonReads (s : State) : State :=
  match s.plan.captures.find? Capture.holding with
  | none => s
  | some c => State.endHold ((c.items.filter fun m => !m.settled).foldl (fun s m => s.settleOld m.addr none) s)

/-! ### The set (R54 to R59) -/

/-- A position of a cell list: its value, CLAMPED, fresh; none when empty (R54). -/
structure CellPos where
  value : Option (Nat × Bool)
  fresh : Bool
  addr : Nat
  deriving DecidableEq, Repr

/-- A position of a temperature list. -/
structure TempPos where
  value : Option (Int × Bool)
  fresh : Bool
  addr : Nat
  deriving DecidableEq, Repr

/-- Exactly `n` positions of a list of readings; a list that was never answered leaves its positions empty (log 68). -/
def positions {α : Type} (l : List α) : Nat → List (Option α)
  | 0 => []
  | n + 1 =>
    match l with
    | [] => none :: positions l n
    | x :: l => some x :: positions l n

/-- The cell positions of a set, by address and cell (R54). -/
def cellList (items : List Item) : List CellPos :=
  items.flatMap fun m => (positions ((m.reading.map (·.cells)).getD []) m.cells).map fun v =>
    ⟨v, (m.reading.map (fun r => decide (r.age = 0))).getD false, m.addr⟩

/-- The temperature positions of a set. -/
def tempList (items : List Item) : List TempPos :=
  items.flatMap fun m => (positions ((m.reading.map (·.temps)).getD []) m.sensors).map fun v =>
    ⟨v, (m.reading.map (fun r => decide (r.age = 0))).getD false, m.addr⟩

/-- The best of numbered values, the lowest position winning a tie; `better a b` says a beats b. -/
def bestAt {α : Type} (better : α → α → Bool) : Nat → List (Option α) → Option (α × Nat)
  | _, [] => none
  | i, none :: l => bestAt better (i + 1) l
  | i, some v :: l =>
    match bestAt better (i + 1) l with
    | some (w, j) => if better w v then some (w, j) else some (v, i)
    | none => some (v, i)

/-- The sum of the non-empty positions (R55). -/
def sumCells : List CellPos → Nat
  | [] => 0
  | c :: l => (match c.value with | none => 0 | some v => v.1) + sumCells l

/-- The lowest value and its position. -/
def lowest (l : List (Option Nat)) : Option (Nat × Nat) := bestAt (fun a b => decide (a < b)) 0 l

/-- The highest value and its position. -/
def highest (l : List (Option Nat)) : Option (Nat × Nat) := bestAt (fun a b => decide (b < a)) 0 l

/-- The highest temperature and its position. -/
def highestTemp (l : List (Option Int)) : Option (Int × Nat) := bestAt (fun a b => decide (b < a)) 0 l

/-- The non-empty cell values by position (R55). -/
def allCells (l : List CellPos) : List (Option Nat) := l.map fun c => c.value.map (·.1)

/-- The fresh cell values by position (R58, R59, R122). -/
def freshCells (l : List CellPos) : List (Option Nat) := l.map fun c => if c.fresh then c.value.map (·.1) else none

/-- The fresh temperatures by position. -/
def freshTemps (l : List TempPos) : List (Option Int) := l.map fun c => if c.fresh then c.value.map (·.1) else none

/-- A set as it is built: the sequence and everything computed from the capture. -/
structure SampleSet where
  seq : Nat
  capture : Capture
  bcast : Broadcast
  hasCells : Bool
  hasTemps : Bool
  cells : List CellPos
  temps : List TempPos
  softHigh : List Bool
  softLow : List Bool
  stats : Option ((Nat × Nat) × (Nat × Nat) × Nat)
  partial_ : Bool
  saturated : Bool
  sumChecked : Bool
  implausible : Bool
  overrun : Bool
  deriving DecidableEq, Repr

/-- Whether a fresh cell position lies above the soft maximum or below the soft minimum (R58). -/
def softFlags (t : LimitTable) (l : List CellPos) : List Bool × List Bool :=
  ((freshCells l).map (fun v => v.any fun n => decide (t.softMax < (n : Int))),
   (freshCells l).map (fun v => v.any fun n => decide ((n : Int) < t.softMin)))

/-- The plausibility judgement (R56). -/
def implausibleSum (sum vBatt : Nat) (tol : Int) : Bool :=
  decide (tol < (((roundHalfUp (sum : Int) 100) - (vBatt : Int)).natAbs : Int))

/-- The set of a capture (R54 to R58). -/
def State.makeSet (s : State) (c : Capture) (b : Broadcast) : SampleSet :=
  let hasCells := decide (c.contents ≠ .temperatures)
  let hasTemps := decide (c.contents ≠ .cells)
  let cells := if hasCells then cellList c.items else []
  let temps := if hasTemps then tempList c.items else []
  let soft := softFlags s.store.inForce cells
  let stats := match lowest (allCells cells), highest (allCells cells) with
    | some lo, some hi => some (lo, hi, sumCells cells)
    | _, _ => none
  let checked := stats.isSome && c.allListed
  { seq := s.plan.setSeq
    capture := c
    bcast := b
    hasCells := hasCells
    hasTemps := hasTemps
    cells := cells
    temps := temps
    softHigh := soft.1
    softLow := soft.2
    stats := stats
    partial_ := c.items.any fun m => match m.reading with
      | none => true
      | some r => decide (r.age ≠ 0)
    saturated := b.sat || c.items.any fun m => (m.reading.map (·.saturated)).getD false
    sumChecked := checked
    implausible := checked && (match stats with
      | none => false
      | some (_, _, sum) => implausibleSum sum b.vBatt s.store.inForce.sumTol)
    overrun := (getAt s.plan.overrun c.plan).getD false }

/-- Whether a set carries a soft-limit flag (R57, R58). -/
def SampleSet.soft (x : SampleSet) : Bool := x.softHigh.any id || x.softLow.any id

/-- The flags of a set (R54, 12.5). -/
def SampleSet.flags (x : SampleSet) : Nat :=
  flagBits [x.capture.surge, x.implausible, x.partial_, x.saturated, x.overrun, decide (x.capture.plan = burstPlan),
    decide (x.capture.plan = patrolPlan)]

/-- The sequence that follows (R61). -/
def maxSetSeq : Nat := 4294967295

/-- The implausible run and the freshness record after a set other than a patrol set (R57). -/
def Planner.trust (p : Planner) (x : SampleSet) : Planner :=
  if !x.sumChecked then p
  else if x.implausible then
    if x.capture.surge then p else { p with implausible := bump 3 p.implausible }
  else if x.partial_ then { p with implausible := 0 }
  else { p with implausible := 0, fresh := some ⟨x.seq, x.capture.part, x.soft⟩ }

/-- The highest fresh cell above the hard maximum (R59). -/
def SampleSet.tooHigh (x : SampleSet) (l : Limits) : Option (Nat × Nat) :=
  (highest (freshCells x.cells)).filter fun v => decide (l.cellMax < (v.1 : Int))

/-- The lowest fresh cell below the hard minimum (R59). -/
def SampleSet.tooLow (x : SampleSet) (l : Limits) : Option (Nat × Nat) :=
  (lowest (freshCells x.cells)).filter fun v => decide ((v.1 : Int) < l.cellMin)

/-- How far a temperature lies beyond its hard limit (R59). -/
def beyondTemp (l : Limits) (t : Int) : Int := max (t - l.tempMax) (l.tempMin - t)

/-- The fresh temperature furthest beyond its hard limit (R59). -/
def SampleSet.badTemp (x : SampleSet) (l : Limits) : Option (Int × Nat) :=
  (bestAt (fun a b => decide (b < a)) 0 ((freshTemps x.temps).map (Option.map (beyondTemp l)))).filter
    fun v => decide (0 < v.1)

/-- One hard breach count after a set: raised, held at 2; set to 0; or unchanged (R59). -/
def breachCount (eligible breach : Bool) (n : Nat) : Nat :=
  if !eligible then n else if breach then bump 2 n else 0

/-- The trigger of a count, with the set's sequence and the address and position of the worst value (R59). `addrs` holds
the address of each position. -/
def trigger (eligible : Bool) (after : Nat) (cause : OpenCause) (seq : Nat) (addrs : List Nat) (pos : Option Nat) :
    List CauseRec :=
  match pos with
  | none => []
  | some p => if eligible && decide (after = 2) then [⟨cause, seq, (getAt addrs p).getD 0, p, 0⟩] else []

/-- The three counts after a set and the triggers that it hands over (R59), in the order of the counts (log 73). -/
def Planner.breach (p : Planner) (x : SampleSet) (l : Limits) : Planner × List CauseRec :=
  let clean := !x.implausible && !x.capture.surge
  let ec := x.hasCells && clean
  let et := x.hasTemps && clean
  let hi := x.tooHigh l
  let lo := x.tooLow l
  let bt := x.badTemp l
  let high := breachCount ec hi.isSome p.high
  let low := breachCount ec lo.isSome p.low
  let temp := breachCount et bt.isSome p.temp
  ({ p with high := high, low := low, temp := temp },
   trigger ec high .hardCellHigh x.seq (x.cells.map (·.addr)) (hi.map (·.2))
   ++ trigger ec low .hardCellLow x.seq (x.cells.map (·.addr)) (lo.map (·.2))
   ++ trigger et temp .hardTemp x.seq (x.temps.map (·.addr)) (bt.map (·.2)))

/-- What a patrol set hands the power controller (R45, R122). -/
def SampleSet.patrol (x : SampleSet) : PatrolSet :=
  { seq := x.seq
    implausible := x.implausible
    surge := x.capture.surge
    saturated := x.saturated
    notFresh := (x.capture.items.filter fun m => match m.reading with
      | none => true
      | some r => decide (r.age ≠ 0)).map (·.addr)
    cellMin := lowest (freshCells x.cells)
    cellMax := highest (freshCells x.cells)
    tempMax := highestTemp (freshTemps x.temps) }

/-! ### The sample page (R61 to R66, 12.5) -/

/-- The address of a page (12.2). -/
def pageAt (page : Nat) : Nat := 0x2800 + 2048 * page

/-- A module entry (12.5). -/
def Item.bytes (m : Item) : List Byte :=
  [byte m.addr, byte m.state.code, byte (match m.reading with | none => 255 | some r => r.age),
   byte (match m.reading with
     | none => 0
     | some r => flagBits [r.alignClamped, r.saturated, r.current.isSome]),
   byte m.cells, byte m.sensors, 0, 0] ++ les 4 ((m.reading.bind (·.current)).getD 0)

/-- A cell position (12.5). -/
def cellBytes : CellPos × Bool × Bool → List Byte
  | (c, hi, lo) =>
    match c.value with
    | none => [0, 0, 0, 0]
    | some (v, cl) => le 2 v ++ [byte (flagBits [cl, hi, lo]), 0]

/-- A temperature position (12.5). -/
def tempBytes (t : TempPos) : List Byte :=
  match t.value with
  | none => [0, 0, 0, 0]
  | some (v, cl) => les 2 v ++ [flag cl, 0]

/-- The page from 0x004 to 0x7FB: the body of a set (R64, 12.5). Lists longer than the page's room are cut (log 69). -/
def SampleSet.body (x : SampleSet) : List Byte :=
  [byte x.capture.plan, byte x.capture.tag, byte x.flags, byte x.capture.items.length]
  ++ le 4 x.capture.part.toNat ++ le 4 x.bcast.vBatt ++ le 4 x.bcast.vLink ++ les 4 x.bcast.i
  ++ le 4 x.capture.link ++ le 2 x.cells.length ++ le 2 x.temps.length
  ++ (match x.stats with
      | none => le 2 0 ++ [0xFF, 0xFF] ++ le 2 0 ++ [0xFF, 0xFF] ++ le 4 0
      | some (lo, hi, sum) => le 2 lo.1 ++ le 2 lo.2 ++ le 2 hi.1 ++ le 2 hi.2 ++ le 4 sum)
  ++ fit 288 (x.capture.items.flatMap Item.bytes)
  ++ fit 1024 ((x.cells.zip (x.softHigh.zip x.softLow)).flatMap cellBytes)
  ++ fit 688 (x.temps.flatMap tempBytes)

/-- The lowest-numbered empty unheld page (R63). -/
def emptyPage : Nat → List Page → Option Nat
  | _, [] => none
  | i, p :: l => if p.seq = 0 ∧ p.held = false then some i else emptyPage (i + 1) l

/-- The page that a set is published to: the lowest empty unheld page, or the unheld page published longest ago (R63). -/
def Planner.choosePage (p : Planner) : Option Nat :=
  match emptyPage 0 p.pages with
  | some i => some i
  | none => p.pageAge.find? fun i => ((getAt p.pages i).map fun q => !q.held).getD false

/-- The page write begins: header 0, then the body (R64). -/
def State.beginPageWrite (s : State) (x : SampleSet) (page : Nat) : State :=
  let s1 : State := { s with
    plan.pages := modifyAt s.plan.pages page fun p => { p with seq := 0 }
    plan.pageAge := s.plan.pageAge.filter (· ≠ page)
    plan.writing := some ⟨page, x.seq⟩ }
  (s1.put (pageAt page) (le 4 0)).put (pageAt page + 4) x.body

/-- The page write ends: trailer, header, pointer, SET_READY, and a pending hold takes effect (R64, R65). -/
def State.endPageWrite (s : State) (w : PageWrite) : State :=
  let s1 : State := { s with
    plan.pages := modifyAt s.plan.pages w.page fun p => { p with seq := w.seq, held := p.held || p.pending, pending := false }
    plan.pageAge := s.plan.pageAge ++ [w.page]
    plan.writing := none
    plan.latest := some (w.page, w.seq)
    plan.captures := s.plan.captures.filter fun c => decide (c.stage ≠ .writing) }
  State.raise ((s1.put (pageAt w.page + 0x7FC) (le 4 w.seq)).put (pageAt w.page) (le 4 w.seq)) .setReady

/-! ### Building (R60, R62) -/

/-- The first capture that waits to be built (R62). -/
def Planner.nextBuild (p : Planner) : Option Capture :=
  if p.writing.isSome then none else p.captures.find? fun c => decide (c.stage = .building)

/-- The result fields of a CAPTURE_NOW slip (12.3). -/
def SampleSet.nowFields (x : SampleSet) (page : Option Nat) : List Byte :=
  le 4 x.seq ++ [byte (page.getD 0xFF), byte x.flags,
    byte (x.capture.items.filter fun m => match m.reading with
      | none => false
      | some r => decide (r.age = 0)).length]

/-- The effects of a built set that come before its publication, less the triggers it hands the supervisor: its sequence,
the factors, the freshness record, the implausible run and the counts (R57 to R61). -/
def State.actOnSet (s : State) (x : SampleSet) : State × List CauseRec :=
  let s1 : State := { s with
    plan.setSeq := cycle maxSetSeq s.plan.setSeq
    plan.overrun := modifyAt s.plan.overrun x.capture.plan fun _ => false }
  if x.capture.plan = patrolPlan then (s1, [])
  else
    let s2 := if x.soft then s1.raise .limitSoft else s1
    let s3 := if x.implausible && !x.capture.surge then s2.raise .sumMismatch else s2
    let r := (s3.plan.trust x).breach x s3.store.active
    ({ s3 with plan := r.1 }, r.2)

/-- The publication of a built set, and the reports to the users that wait for it (R43, R44, R45, R63, R66). -/
def State.publish (s : State) (x : SampleSet) : State :=
  let page := if x.capture.publish then s.plan.choosePage else none
  let rest := s.plan.captures.filter fun c => !(decide (c.stage = .building) && decide (c = x.capture))
  let s1 : State := match page with
    | some p => State.beginPageWrite { s with
        plan.captures := { x.capture with stage := .writing, slot := none } :: rest } x p
    | none => { s with plan.captures := rest }
  let s2 := if x.capture.publish && page.isNone then s1.raise .setDropped else s1
  let s3 := if x.capture.plan = burstPlan then s2.answerLink x.capture.link (some x.seq) else s2
  let s4 : State := if x.capture.plan = patrolPlan then
      { s3 with plan.patrolReport := some (.made x.patrol) } else s3
  match x.capture.slot with
  | none => s4
  | some slot => s4.complete slot (.okWith (x.nowFields page))

/-- The kept readings of an address are discarded (R50). -/
def discardKept (old new : List ModuleEntry) (kept : List (Option Reading)) : List (Option Reading) :=
  match old, new, kept with
  | o :: os, n :: ns, k :: ks =>
    (if o.configured = n.configured ∧ o.cells = n.cells ∧ o.sensors = n.sensors then k else none)
      :: discardKept os ns ks
  | _, _, ks => ks

end Sys2Proof.Machine
end

