-- ==== Sys2Proof/Machine/PowerOps.lean ====
section
/-! DEFINITION. The power controller's operations (chapter 6): sleep entry, wakes, the patrol and its log, the entry into
RUN from a wake. -/

namespace Sys2Proof.Machine

/-! ### Wake flags (R113, R117, R119) -/

/-- The position of a source, from WAKE_TIMER to WAKE_LINK (12.2). -/
def Source.index : Source → Nat
  | .timer => 0
  | .line => 1
  | .chain => 2
  | .current => 3
  | .link => 4

/-- The level of a source; WAKE_LINK's is fixed at 2 (6.3). -/
def WakeTable.level (t : WakeTable) : Source → Nat
  | .timer => t.timer
  | .line => t.line
  | .chain => t.chain
  | .current => t.current
  | .link => 2

/-- The five sources. -/
def Source.all : List Source := [.timer, .line, .chain, .current, .link]

/-- A source's pending flag. -/
def Source.flag (x : Source) : BitVec 5 := BitVec.ofNat 5 (2 ^ x.index)

/-- Whether some pending flag belongs to a source that meets a test on its level. -/
def Power.pendingWith (p : Power) (test : Nat → Bool) : Bool :=
  Source.all.any fun x => p.pend.getLsbD x.index && test (p.wakeTable.level x)

/-- In DEEP the power controller looks at the pending flags; a flag of level 0 is disregarded (R117). -/
def State.lookAtFlags (s : State) : State :=
  if s.power.state = .deep && s.power.pendingWith (fun l => decide (l ≠ 0)) then
    { s with
      power.state := .waking
      power.target := if s.power.pendingWith (fun l => decide (l = 2)) then .run else .patrol
      power.settleAt := s.now
      power.settled := false }
  else s

/-- A cause sets its source's pending flag, unless its level is 0 (R113); in WAKING before the target is read and in PATROL a
level-2 cause promotes the wake, unless the part already returns to DEEP (R119). -/
def State.noteCause (s : State) (x : Source) : State :=
  let l := s.power.wakeTable.level x
  if l = 0 then s
  else
    let s1 : State := { s with power.pend := s.power.pend ||| x.flag }
    if decide (l = 2) && decide (s1.power.target = .patrol) && s1.power.returning.isNone then
      match s1.power.state with
      | .waking => { s1 with power.target := .run }
      | .patrol => { s1 with
          power.target := .run
          power.patrol := s1.power.patrol.map fun p => { p with promoted := true } }
      | _ => s1.lookAtFlags
    else s1.lookAtFlags

/-- The vehicle wake input is watched from ENTERING_DEEP to the next RUN (6.3). -/
def PowerState.watched (p : PowerState) : Bool := decide (p ≠ .run)

/-! ### Sleep entry (R107 to R111) -/

/-- The checks of a SLEEP slip, in order (R107). -/
def State.sleepRefusal (s : State) : Option Result :=
  if s.sup.state = .weldCheck then some (.plain .busy)
  else if s.sup.state = .lockedOut then some (.refuse .lockout)
  else if s.sup.state ≠ .open_ then some (.refuse .contactors)
  else if s.upd.state ≠ .idle then some (.refuse .updateActive)
  else if s.ev.filling ≠ [] then some (.refuse .windows)
  else none

/-- The result fields of a SLEEP slip (12.3). -/
def Power.sleepFields (p : Power) : List Byte :=
  le 4 p.wakeTable.period ++ le 2 p.wakeTable.threshold ++ [byte p.snapOutcome.code]

/-- Sleep entry begins with step 1: the planner becomes quiet (R107, R108). An input that is already asserted makes its
cause at this instant (R114). -/
def State.beginEntry (s : State) (slot : Nat) : State :=
  let s1 : State := { s.becomeQuiet with
    power.state := .enteringDeep
    power.entry := some ⟨slot, 1, s.now⟩
    power.snapOutcome := .none }
  let s2 := if s1.pins.wakeLine then s1.noteCause .line else s1
  if s2.pins.chainAlert && decide (s2.chain.state = .asleep) then s2.noteCause .chain else s2

/-- The power controller is no longer one of the requesters of any snapshot write (R111). -/
def State.forgetEntryWrites (s : State) : State :=
  { s with
    store.queue := s.store.queue.map fun q => { q with who := q.who.filter (· ≠ .entry) }
    store.running := s.store.running.map fun r =>
      { r with req := { r.req with who := r.req.who.filter (· ≠ .entry) } } }

/-- The chain is given the wake command: the wake tone begins (R9). -/
def State.wakeChain (s : State) : State := { s with chain.wake := .tone s.now }

/-- A POST of a POSTED slot cancels the entry (R111): the steps reached are undone, the SLEEP slip completes CANCELLED, and
the power state is RUN before the posted slip is taken. That the power record shows no wake target while the chain then goes
through its wake is the model's choice (log 102). -/
def State.cancelEntry (s : State) : State :=
  match s.power.entry with
  | none => s
  | some e =>
    let s1 : State := State.forgetEntryWrites { s with plan.quiet := false }
    let s2 : State :=
      if e.step < 4 then s1
      else if s1.chain.sleepCmd then { s1 with chain.wakeAfterSleep := true }
      else s1.wakeChain
    let s3 := s2.complete e.slot ⟨.cancelled, none, s2.power.sleepFields⟩
    State.judgeAttn { s3 with power.state := .run, power.entry := none, conv.snapTimer := 0 }

/-- Step 3 has ended: step 4 gives the chain controller the sleep command (R108, R109). -/
def State.endSnapshotStep (s : State) (o : SnapOutcome) : State :=
  match s.power.entry with
  | none => s
  | some e =>
    if e.step = 3 then
      { s with power.entry := some { e with step := 4 }, power.snapOutcome := o, chain.sleepCmd := true }
    else s

/-- The patrol timer is loaded at the entry into DEEP (R114), and the flags are looked at (R117). -/
def State.toDeep (s : State) : State :=
  State.lookAtFlags (State.judgeAttn { s with
    power.state := .deep
    power.target := .none
    power.timer := 1000 * s.power.wakeTable.period
    power.timerRunning := true
    power.compRun := 0
    power.compFired := false })

/-- Steps 5 and 6 (R108, R110). -/
def State.enterDeep (s : State) (slot : Nat) : State :=
  let s1 := s.stopConverter
  let s2 := s1.complete slot (.okWith s1.power.sleepFields)
  State.toDeep { s2 with power.entry := none }

/-! ### The entry into RUN from a wake (R120) -/

/-- The estimate that a FULL_WAKE event holds (5.1). -/
def Held.detail : Held → Option (Int × Int)
  | .made avg c => some (avg, c)
  | .awaited | .noAverage => none

/-- The part enters RUN from a wake; `result` is the patrol result that called for it, if one did (R120). -/
def State.enterRun (s : State) (result : Option PatrolResult) : State :=
  let src := s.power.pend
  let s1 := State.restartConverter { s with power.state := .run }
  let s2 := if s1.chain.state = .surveying then s1 else s1.requestSurvey
  let s3 : State := State.clearSilence { s2 with
    sup.lapsed := false
    plan.high := 0
    plan.low := 0
    plan.temp := 0
    plan.implausible := 0
    plan.fresh := none
    plan.quiet := false
    plan.patrolReport := none
    conv.snapTimer := 0 }
  let s4 := (s3.sendStill .fullWake 0 (.fullWake src s3.power.estimate.detail)).raise .wakeReason
  State.judgeAttn { s4 with
    power.wakeOut := true
    power.wakeOutAt := s4.now
    power.lastWake := some (src, result)
    power.pend := 0
    power.target := .none
    power.patrol := none
    power.returning := none }

/-- A level-2 cause comes in WAKING after the chain controller has read the target PATROL at the end of its module wake time,
and before WAKING has ended (R119). -/
def State.lateCause (s : State) (x : Source) : Bool :=
  decide (s.power.wakeTable.level x = 2) && decide (s.power.state = .waking) && decide (s.power.target = .patrol)
    && s.power.settled && decide (s.chain.wake = .none)

/-- A cause of a wake source: its flag is set, and it acts on the wake in progress (R113, R117, R119). After the reading of
the target PATROL a level-2 cause ends WAKING, and the part enters RUN from the wake. -/
def State.wakeCause (s : State) (x : Source) : State :=
  if s.lateCause x then State.enterRun { s with power.pend := s.power.pend ||| x.flag } none else s.noteCause x

/-- The chain alert is asserted as the chain falls ASLEEP: WAKE_CHAIN's watching period begins with a cause, whose flag is none
of those of a patrol that ends with this sleep (R114, R124). With level 0 the cause is ignored (R113), and a disregarded
flag that is still set is cleared with that patrol's flags (R117). -/
def State.alertAtSleep (s : State) : State :=
  if s.power.wakeTable.level .chain = 0 then s
  else State.wakeCause { s with power.returning := s.power.returning.map fun r => r &&& ~~~Source.chain.flag } .chain

/-! ### The patrol (R121 to R124) -/

/-- The sleep limits that a patrol set breaches (R122). -/
def breaches (t : LimitTable) (x : PatrolSet) : Breached :=
  { cellLow := x.cellMin.any fun v => decide ((v.1 : Int) < t.sleepMin)
    cellHigh := x.cellMax.any fun v => decide (t.sleepMax < (v.1 : Int))
    tempHigh := x.tempMax.any fun v => decide (t.sleepTemp < v.1)
    imbalance := match x.cellMin, x.cellMax with
      | some lo, some hi => decide (t.imbalance < (hi.1 : Int) - (lo.1 : Int))
      | _, _ => false }

/-- Whether some sleep limit is breached. -/
def Breached.any (b : Breached) : Bool := b.cellLow || b.cellHigh || b.tempHigh || b.imbalance

/-- No limit breached. -/
def noBreach : Breached := ⟨false, false, false, false⟩

/-- The result of an attempt (R122). -/
def judgePatrol (t : LimitTable) : PatrolReport → PatrolResult × Breached × Option PatrolSet
  | .notMade => (.chainFail, noBreach, none)
  | .made x =>
    let b := breaches t x
    (if b.any then .breach else if x.notFresh = [] then .pass else .chainFail, b, some x)

/-- A patrol capture is asked for (R45). -/
def State.askPatrol (s : State) : State :=
  State.beginPlanCapture { s with plan.patrolReport := none } (newCapture patrolPlan 0xFFFFFF .both true)

/-- The entry into PATROL: an empty map gives CHAIN_FAIL with 0 attempts, otherwise the first capture is asked for
(R121). -/
def State.enterPatrol (s : State) : State :=
  if s.chain.configuredAddrs = [] then
    { s with
      power.state := .patrol
      power.patrol := some ⟨0, false, some (.chainFail, noBreach, none)⟩ }
  else
    State.askPatrol { s with power.state := .patrol, power.patrol := some ⟨1, false, none⟩ }

/-- The address of a patrol entry (12.2). -/
def patrolAt (slot : Nat) : Nat := 0x1400 + 32 * slot

/-- A patrol entry from 0x02 on (12.5). A position above 255 is written modulo 256 (log 103). -/
def patrolBytes (now : Ms) (charge : Int) (held : Held) (attempts : Nat) (promoted : Bool)
    (r : PatrolResult) (b : Breached) (x : Option PatrolSet) : List Byte :=
  let lo := x.bind (·.cellMin)
  let hi := x.bind (·.cellMax)
  let t := x.bind (·.tempMax)
  let avg : Option (Int × Int) := held.detail
  [byte (r.code + 4 * flagBits [b.cellLow, b.cellHigh, b.tempHigh, b.imbalance] + 64 * attempts),
   byte (flagBits [promoted, x.isSome, (x.map (·.implausible)).getD false, (x.map (·.surge)).getD false,
     (x.map (·.saturated)).getD false, lo.isSome, t.isSome, avg.isSome]),
   byte ((lo.map (·.2)).getD 0), byte ((hi.map (·.2)).getD 0), byte ((t.map (·.2)).getD 0)]
  ++ les 3 ((avg.map (·.1)).getD 0)
  ++ le 2 ((lo.map (·.1)).getD 0) ++ le 2 ((hi.map (·.1)).getD 0) ++ les 2 ((t.map (·.1)).getD 0)
  ++ le 4 now.toNat ++ le 4 ((x.map (·.seq)).getD 0)
  ++ les 8 (match avg with | some (_, c) => c | none => charge)

/-- A patrol is logged in the next slot, with the next number (R122, R123). -/
def State.logPatrol (s : State) (p : Patrol) (r : PatrolResult) (b : Breached) (x : Option PatrolSet) : State :=
  let n := cycle 65535 s.power.lastNumber
  let slot := s.power.nextSlot
  State.put { s with
      power.nextSlot := if slot < 31 then slot + 1 else 0
      power.lastNumber := n }
    (patrolAt slot) (le 2 n ++ patrolBytes s.now s.conv.charge s.power.estimate p.attempts p.promoted r b x)

/-- The return to DEEP begins: the chain is told to sleep, and the flags of the patrol's wake are noted (R124). -/
def State.beginReturn (s : State) : State :=
  { s with
    power.returning := some s.power.pend
    power.patrol := none
    chain.sleepCmd := true }

/-- A logged patrol ends by its result and the wake target (R124). -/
def State.endPatrol (s : State) (r : PatrolResult) : State :=
  match r with
  | .pass => if s.power.target = .run then s.enterRun none else s.beginReturn
  | .breach => s.enterRun (some .breach)
  | .chainFail =>
    if s.power.target = .run ∨ s.power.wakeTable.chainFail = 2 then s.enterRun (some .chainFail) else s.beginReturn

end Sys2Proof.Machine
end

