-- ==== Sys2Proof/Machine/UpdateOps.lean ====
section
/-! DEFINITION. The update engine's operations (chapter 8): chunk intake, the end of an update, the commit, distribution,
switching, aborts. -/

namespace Sys2Proof.Machine

/-! ### State changes and slips (R146) -/

/-- A change of the update state raises UPDATE_STATE (R146). -/
def State.toUpd (s : State) (st : UpdState) : State := State.raise { s with upd.state := st } .updateState

/-- The number of distribution records in a state. -/
def countDist (l : List DistRec) (st : DistState) : Nat := (l.filter fun d => decide (d.state = st)).length

/-- The lowest address in a state, 0 for none. -/
def lowestDist (l : List DistRec) (st : DistState) : Nat :=
  match l.find? fun d => decide (d.state = st) with
  | none => 0
  | some d => d.addr

/-- The two result fields of every slip of the engine (R146, 12.3). -/
def Update.fields (u : Update) : List Byte := [byte u.state.code, byte u.outcome.code]

/-- The result fields of an UPDATE_APPLY (R154, R163, 12.3). The marks of a limit image as bits of one byte are the model's
choice (log 94). -/
def Update.applyFields (u : Update) : List Byte :=
  u.fields ++ (match u.header.target with
    | .limitImage =>
      [byte (bankCode u.bankWritten)] ++ le 2 u.header.version
        ++ [byte (flagBits [u.switchPending, u.commitReached, u.floorWritten])]
    | .moduleFirmware =>
      [byte (countDist u.dist .switched), byte (countDist u.dist .rollback), byte (countDist u.dist .failed),
       byte (lowestDist u.dist .switched), byte (lowestDist u.dist .rollback), byte (lowestDist u.dist .failed)])

/-- The result fields of an UPDATE_ABORT (12.3). -/
def Update.abortFields (u : Update) : List Byte := u.fields ++ [flag u.commitReached]

/-- The fields of the engine's slip in flight. -/
def Update.slipFields (u : Update) : EngineSlip → List Byte
  | .check => u.fields
  | .apply => u.applyFields

/-! ### Chunk buffers (R148 to R150) -/

/-- A buffer is given back: the descriptor's state is written last and UPDATE_STATE is raised (R149). -/
def State.giveBack (s : State) (buf : Buffer) (length : Nat) (st : BufferState) (cause : Option RejectCause) : State :=
  (s.setBuffer buf length st cause).raise .updateState

/-- A buffer is rejected: the rejected count advances (R149). -/
def State.reject (s : State) (buf : Buffer) (length : Nat) (cause : RejectCause) : State :=
  State.giveBack { s with upd.rej := bump 65535 s.upd.rej } buf length .rejected (some cause)

/-- The fields of a descriptor as the part reads them (12.2). -/
structure Descriptor where
  index : Nat
  crc : Word
  length : Nat
  deriving DecidableEq, Repr

/-- Read a chunk descriptor. -/
def readDescriptor (m : Memory) (buf : Buffer) : Descriptor :=
  ⟨m.num (descriptorAt buf) 4, m.word (descriptorAt buf + 4), m.num (descriptorAt buf + 8) 2⟩

/-- How an absorption begins (R149). -/
inductive Intake where
  | rejected (cause : RejectCause)
  | duplicate
  | take
  deriving DecidableEq, Repr

/-- The judgement of a descriptor, in order (R149). -/
def Update.judge (u : Update) (d : Descriptor) : Intake :=
  if u.state ≠ .receiving then .rejected .notReceiving
  else if d.length < 1 ∨ 4096 < d.length then .rejected .length
  else if u.lastAcc = some d.index then .duplicate
  else if d.index ≠ u.expected then .rejected .order
  else if u.header.length < u.staging.length + d.length then .rejected .length
  else .take

/-- The oldest waiting buffer begins to be absorbed, or is given back at once (R149). The descriptor is read here, once: its
CRC-32 is the one that the absorption's end compares (log 82). -/
def State.absorbNext (s : State) : State :=
  match s.upd.absorbing, s.upd.waiting with
  | none, buf :: l =>
    let d := readDescriptor s.mem buf
    let t : State := { s with upd.waiting := l }
    match s.upd.judge d with
    | .rejected c => t.reject buf d.length c
    | .duplicate => State.giveBack { t with upd.dup := bump 65535 t.upd.dup } buf d.length .duplicate none
    | .take =>
      State.setBuffer { t with upd.absorbing := some ⟨buf, t.now, d.index, d.length, d.crc, []⟩ } buf d.length .taking
        none
  | _, _ => s

/-- The values that a word of the buffer has held since the absorption began, oldest first. -/
def heldValues (m : Memory) (old : List (Nat × Word)) (a : Nat) : List Word :=
  (old.filter fun p => decide (p.1 = a)).map (·.2) ++ [m.word a]

/-- The word that the absorption reads: the one the buffer holds, or a free choice among those it has held since the
absorption began, if the host wrote it meanwhile (R149, log 13). -/
def absorbedWord (m : Memory) (old : List (Nat × Word)) (free a : Nat) : Word :=
  let l := heldValues m old a
  (getAt l (Config.absorbedAt free a % l.length)).getD 0

/-- The bytes that the absorption reads. -/
def absorbedBytes (m : Memory) (old : List (Nat × Word)) (free : Nat) : Nat → Nat → List Byte
  | _, 0 => []
  | a, n + 1 => le 4 (absorbedWord m old free a).toNat ++ absorbedBytes m old free (a + 4) n

/-- The chunk of an absorption that ends: the buffer as it stands, unless the host wrote to it meanwhile (R149). -/
def State.absorbed (s : State) (b : Absorb) : List Byte :=
  if b.old = [] then s.mem.readBytes (bufferAt b.buffer) b.length
  else (absorbedBytes s.mem b.old s.free (bufferAt b.buffer) ((b.length + 3) / 4)).take b.length

/-- The absorption ends: the chunk is accepted if its CRC-32 matches (R149). -/
def State.endAbsorption (s : State) (b : Absorb) : State :=
  let data := s.absorbed b
  let t : State := { s with upd.absorbing := none, free := if b.old = [] then s.free else s.free + 1 }
  if crc32 data = b.crc then
    State.giveBack { t with
      upd.staging := t.upd.staging ++ data
      upd.runCrc := crc32On t.upd.runCrc data
      upd.lastAcc := some b.index
      upd.expected := b.index + 1
      upd.acc := bump 65535 t.upd.acc } b.buffer b.length .empty none
  else t.reject b.buffer b.length .crc

/-- Intake stops: the buffer being absorbed is given back (R150). -/
def State.stopIntake (s : State) : State :=
  match s.upd.absorbing with
  | none => s
  | some b => State.reject { s with upd.absorbing := none } b.buffer b.length .notReceiving

/-! ### The end of an update (R146) -/

/-- The engine's requests that still wait are withdrawn (R165). -/
def State.dropFirmware (s : State) : State :=
  { s with chain.requests := s.chain.requests.filter fun r => match r with
    | .firmware _ => false
    | _ => true }

/-- An exchange of the engine that the chain carries is disregarded from now on (R165). -/
def State.disregard (s : State) : State :=
  match s.chain.hold with
  | some (.firmware r _) => { s with chain.hold := some (.firmware r false) }
  | _ => s

/-- The update ends: the outcome, staging, the event, the slip in flight and the aborts that wait (R146, R155, R164). -/
def State.endUpdate (s : State) (o : UpdOutcome) (code : ResultCode) (cause : Option ResultCause) : State :=
  let u := s.upd
  let fw := decide (u.header.target = .moduleFirmware)
  let n (st : DistState) : Nat := if fw then countDist u.dist st else 0
  let s1 := State.stopIntake s
  let s2 : State := State.disregard (State.dropFirmware { s1 with
    upd.outcome := o
    upd.outcomeState := some u.state
    upd.staging := []
    upd.turn := none
    upd.link := .none
    upd.pause := none
    upd.window := none
    upd.commit := .none
    upd.aborting := false
    upd.aborts := []
    upd.slip := none })
  let s3 := (s2.toUpd .idle).sendStill .updateOutcome o.code
    (.updateOutcome u.header.target.code u.header.kind u.header.version (n .switched) (n .rollback) (n .failed))
  let s4 := match u.slip with
    | none => s3
    | some (k, slot) => s3.complete slot ⟨code, cause, s3.upd.slipFields k⟩
  s4.completeAll u.aborts (.okWith s4.upd.abortFields)

/-- The update ends ABORTED (R155, R164). -/
def State.endAborted (s : State) : State := s.endUpdate .aborted .aborted none

/-! ### Distribution (R156 to R160) -/

/-- Whether an address is eligible for the update (R156). An absent survey entry reports no type (log 90). -/
def State.eligible (s : State) (a : Nat) : Bool :=
  (match s.chain.entry a with
   | none => false
   | some e => e.configured && (match e.state with
      | .inService | .stale => true
      | .faulted => decide (e.cause = some .missed ∨ e.cause = some .internal)
      | .absent | .outOfService => false))
  && (match atAddr s.chain.survey a with
      | none => false
      | some v => v.present && decide (v.kind = s.upd.header.kind))

/-- Change the distribution record at a position. -/
def State.editDist (s : State) (pos : Nat) (f : DistRec → DistRec) : State :=
  { s with upd.dist := modifyAt s.upd.dist pos f }

/-- The record at a position becomes FAILED (R156). -/
def State.failDist (s : State) (pos : Nat) (c : DistCause) : State :=
  s.editDist pos fun d => { d with state := .failed, cause := some c }

/-- The position of the first record in a state. -/
def firstDist (st : DistState) : Nat → List DistRec → Option (Nat × DistRec)
  | _, [] => none
  | i, d :: l => if d.state = st then some (i, d) else firstDist st (i + 1) l

/-- The record in turn. -/
def Update.current (u : Update) : Option (Turn × DistRec) :=
  match u.turn with
  | none => none
  | some t => (getAt u.dist t.pos).map fun d => (t, d)

/-- The engine asks for the chain (R20, R165). -/
def State.askChain (s : State) (r : FwReq) : State := State.request { s with upd.link := .waiting } (.firmware r)

/-- Switching ends (R163): the floor write when every record is SWITCHED, otherwise PARTIAL. -/
def State.endSwitching (s : State) : State :=
  if s.upd.dist.all fun d => decide (d.state = .switched) then
    let p : Payload := .fwFloor s.upd.header.kind s.upd.header.version
    if s.store.alreadyDone p then State.endUpdate { s with upd.floorWritten := true } .ok .ok none
    else State.requestWrite { s with upd.commit := .fwFloor, upd.turn := none } p .engine
  else s.endUpdate .partial_ .refused (some .partial_)

/-- The next SENT record's turn comes in SWITCHING (R161); `fuel` bounds the records passed over. -/
def State.nextSwitch : Nat → State → State
  | 0, s => s.endSwitching
  | fuel + 1, s =>
    match firstDist .sent 0 s.upd.dist with
    | none => s.endSwitching
    | some (pos, d) =>
      if s.eligible d.addr && !d.moved then
        State.askChain { s.outOfService d.addr with upd.turn := some ⟨pos, false, 0, 0⟩ } .switch
      else State.nextSwitch fuel (s.failDist pos .notEligible)

/-- The state becomes SWITCHING (R153, R160). -/
def State.enterSwitching (s : State) : State :=
  State.nextSwitch 24 (State.toUpd { s with upd.switchPending := false } .switching)

/-- The supervisor is OPEN or LOCKED_OUT (R153). -/
def Sup.gate (p : Sup) : Bool := decide (p.state = .open_ ∨ p.state = .lockedOut)

/-- Distribution ends (R160). -/
def State.endDistribution (s : State) : State :=
  let s0 : State := { s with upd.turn := none, upd.link := .none }
  if countDist s0.upd.dist .sent = 0 then s0.endUpdate .noneSent .refused (some .noneSent)
  else if s0.sup.gate then s0.enterSwitching
  else { s0 with upd.switchPending := true }

/-- The next record's turn comes in DISTRIBUTING (R156). -/
def State.nextRecord : Nat → State → State
  | 0, s => s.endDistribution
  | fuel + 1, s =>
    match firstDist .pending 0 s.upd.dist with
    | none => s.endDistribution
    | some (pos, d) =>
      if s.eligible d.addr then
        State.askChain { s.editDist pos (fun d => { d with state := .sending }) with
          upd.turn := some ⟨pos, false, 0, 0⟩ } .block
      else State.nextRecord fuel (s.failDist pos .notEligible)

/-- The number of blocks of an image (R157). -/
def blockCount (length : Nat) : Nat := (length + 255) / 256

/-- The 256 bytes of a block, filled with zeros (R157). -/
def blockData (staging : List Byte) (block : Nat) : List Byte := fit 256 (staging.drop (256 * block))

/-- The payload of a BLOCK frame (R157). -/
def blockPayload (staging : List Byte) (t : Turn) : List Byte :=
  le 2 t.block ++ [flag t.toggle] ++ blockData staging t.block

/-- The outcome of a block's exchange (R158). -/
inductive BlockOutcome where
  | acked | failed | mismatch
  deriving DecidableEq, Repr

/-- The judgement of a BLOCK_ACK without a character error (R158). -/
def judgeBlock (staging : List Byte) (t : Turn) (index : Half) (toggle : Bool) (crc : Half) : BlockOutcome :=
  if index.toNat ≠ t.block ∨ toggle ≠ t.toggle then .failed
  else if crc = crc16 (blockData staging t.block) then .acked
  else .mismatch

/-- The records of an aborted or failed distribution: SENDING and PENDING become FAILED (R159, R164). -/
def failRest (c : DistCause) (l : List DistRec) : List DistRec :=
  l.map fun d => if d.state = .sending ∨ d.state = .pending then { d with state := .failed, cause := some c } else d

/-- A SENDING record's address left the configured set or changed its counts, or is FAULTED with cause MAP_MISMATCH or
ABSENT (R156). -/
def State.spoiled (s : State) (d : DistRec) : Bool :=
  d.moved || (match s.chain.entry d.addr with
    | none => false
    | some e => decide (e.state = .faulted ∧ (e.cause = some .mapMismatch ∨ e.cause = some .absent)))

/-- The exchange of a block has ended (R156, R158, R164). An abort that waits comes first: the record is FAILED ABORTED, also
when its last block was acknowledged or it is not eligible any more; of these two NOT_ELIGIBLE comes first, before SENT and
before NO_ACK (log 83). -/
def State.blockEnded (s : State) (o : BlockOutcome) : State :=
  match s.upd.current with
  | none => s
  | some (t, d) =>
    let s0 : State := { s with upd.link := .none }
    let s1 := if o = .acked then s0.editDist t.pos (fun d => { d with lastAck := some t.block }) else s0
    if s.upd.aborting then
      State.endAborted { s1 with upd.dist := failRest .aborted s1.upd.dist }
    else if s.spoiled d then State.nextRecord 24 (s1.failDist t.pos .notEligible)
    else
      match o with
      | .acked =>
        if t.block + 1 < blockCount s.upd.header.length then
          State.askChain { s1 with upd.turn := some ⟨t.pos, !t.toggle, t.block + 1, 0⟩ } .block
        else State.nextRecord 24 (s1.editDist t.pos fun d => { d with state := .sent })
      | .failed =>
        if t.attempts < 4 then s1.askChain .block else State.nextRecord 24 (s1.failDist t.pos .noAck)
      | .mismatch =>
        if t.attempts < 4 then
          State.askChain { s1 with upd.turn := some { t with toggle := !t.toggle } } .block
        else State.nextRecord 24 (s1.failDist t.pos .noAck)

/-- A request of the engine is answered CHAIN_DOWN: a probe is skipped; a block or a SWITCH waits for the chain (R159,
R161). -/
def State.firmwareDown (s : State) (r : FwReq) : State :=
  match r with
  | .probe => s
  | .block | .switch =>
    { s with
      upd.link := .none
      upd.pause := match s.upd.pause with | none => some s.now | some t => some t }

/-! ### Switching (R161 to R163) -/

/-- The module in turn has been judged: an abort that waits ends the update, otherwise the next record's turn comes (R161,
R164). -/
def State.afterJudged (s : State) : State :=
  let s0 : State := State.dropFirmware { s with upd.window := none, upd.turn := none, upd.link := .none }
  if s.upd.aborting then s0.endAborted else State.nextSwitch 24 s0

/-- The engine is handed an ECHO_BACK: the module's return watch ends (R162), and in the module's switch window it judges
or records the version (R161). That a SWITCHED record shows the new version is the model's choice (log 109). -/
def State.engineEcho (s : State) (a : Nat) (version : Half) : State :=
  let s0 : State := { s with upd.watches := s.upd.watches.filter fun w => decide (w.1 ≠ a) }
  match s.upd.window, s.upd.current with
  | some w, some (t, d) =>
    if decide (d.addr = a) && decide (elapsed s.now w.since < 2000) then
      if version.toNat = s.upd.header.version then
        State.afterJudged
          (State.backInService (s0.editDist t.pos fun d =>
            { d with state := .switched, reported := some version.toNat }) a)
      else
        { s0.editDist t.pos (fun d => { d with reported := some version.toNat }) with
          upd.window := some { w with reported := some version.toNat } }
    else s0
  | _, _ => s0

/-- The switch window ends without the new version: ROLLBACK (R161, R162). -/
def State.rollBack (s : State) (w : SwitchWindow) (t : Turn) (d : DistRec) : State :=
  let s1 := s.editDist t.pos fun d => { d with state := .rollback }
  let s2 := s1.sendStill .moduleRollback 0 (.moduleRollback d.addr s.upd.header.version w.reported)
  let s3 := s2.handBack d.addr
  State.afterJudged { s3 with
    upd.watches := s3.upd.watches.filter (fun w => decide (w.1 ≠ d.addr)) ++ [(d.addr, s3.now)] }

/-! ### The store's reports (R154, R155, R163) -/

/-- The store reports a write of the engine (R154, R163); `bank` is the bank of a bank write. -/
def State.engineTold (s : State) (bank : BankId) (done : Bool) : State :=
  match s.upd.commit with
  | .none => s
  | .bank =>
    let s1 : State := if done then { s with upd.bankWritten := some bank } else s
    if s.upd.aborting then s1.endAborted
    else if done then State.requestWrite { s1 with upd.commit := .marker } (.marker bank) .engine
    else s1.endUpdate .store .refused (some .store)
  | .marker =>
    if done then
      let s1 : State := { s with upd.commitReached := true, upd.commit := .floor }
      let p : Payload := .floor s1.upd.header.version
      if s1.store.alreadyDone p then State.endUpdate { s1 with upd.floorWritten := true } .ok .ok none
      else s1.requestWrite p .engine
    else s.endUpdate .store .refused (some .store)
  | .floor | .fwFloor =>
    if done then State.endUpdate { s with upd.floorWritten := true } .ok .ok none
    else s.endUpdate .store .refused (some .store)

/-- Whether a request of the engine waits in the write queue. -/
def Store.engineWaits (t : Store) : Bool := t.queue.any fun q => q.who.contains .engine

/-- The engine withdraws its waiting write (R131, R155). -/
def State.withdrawEngine (s : State) : State := s.withdrawWrites fun q => q.who.contains .engine

/-! ### UPDATE_BEGIN, CHECK, APPLY, ABORT -/

/-- The checks of UPDATE_BEGIN in IDLE, in order (R147). -/
def State.beginFails (s : State) (h : RawHeader) : Option ResultCause :=
  match s.store.work.key with
  | .empty => some .keyAbsent
  | .faulted => some .keyAbsent
  | .present _ =>
    if h.target ≠ 1 ∧ h.target ≠ 2 then some .badRange
    else if h.target = 2 ∧ (7 < h.kind ∨ h.mask = 0) then some .badRange
    else if h.length = 0 then some .badRange
    else if (if h.target = 1 then 2048 else 131072) < h.length then some .tooLong
    else if h.target = 1 then
      if h.version ≤ s.store.work.floor ∨ h.version ≤ s.store.activeVersion then some .staleVersion else none
    else if h.version ≤ (getAt s.store.work.fwFloors h.kind).getD 65535 then some .staleVersion
    else none

/-- A record in state PENDING (R147). -/
def pendingRecord (a : Nat) : DistRec := ⟨a, .pending, none, none, none, false⟩

/-- What a passed UPDATE_BEGIN sets (R147). -/
def State.beginUpdate (s : State) (h : RawHeader) : State :=
  let fw := decide (h.target = 2)
  State.toUpd { s with
    upd.header := { target := if fw then .moduleFirmware else .limitImage
                    kind := if fw then h.kind else 0
                    mask := if fw then h.mask else 0
                    version := h.version
                    length := h.length
                    tag := h.tag }
    upd.staging := []
    upd.expected := 0
    upd.lastAcc := none
    upd.runCrc := crc32Init
    upd.acc := 0
    upd.dup := 0
    upd.rej := 0
    upd.dist := if fw then (addresses.filter (selects h.mask)).map pendingRecord else []
    upd.bankWritten := none
    upd.switchPending := false
    upd.commitReached := false
    upd.floorWritten := false } .receiving

/-- The duration of the tag check in ms (R151). -/
def checkTime (length : Nat) : Nat := (length + 1023) / 1024

/-- An UPDATE_ABORT waits (R164). -/
def State.waitAbort (s : State) (slot : Nat) : State :=
  { s with upd.aborts := s.upd.aborts ++ [slot], upd.aborting := true }

/-- An UPDATE_ABORT is taken (R155, R164). -/
def State.takeAbort (s : State) (slot : Nat) : State :=
  if s.upd.aborts ≠ [] then { s with upd.aborts := s.upd.aborts ++ [slot] }
  else
    let now : State := { s with upd.aborts := [slot] }
    match s.upd.state with
    | .idle => s.complete slot (.okWith s.upd.abortFields)
    | .receiving | .checking | .verified => now.endAborted
    | .committing =>
      match s.upd.commit with
      | .bank => if s.store.engineWaits then now.withdrawEngine.endAborted else s.waitAbort slot
      | .marker => if s.store.engineWaits then now.withdrawEngine.endAborted else now
      | .none | .floor | .fwFloor => now
    | .distributing =>
      if s.upd.link = .exchange then s.waitAbort slot
      else State.endAborted { now with upd.dist := failRest .aborted now.upd.dist }
    | .switching =>
      if s.upd.commit = .fwFloor then now
      else if s.upd.window.isSome then s.waitAbort slot
      else
        match s.upd.current with
        | none => now.endAborted
        | some (_, d) => State.endAborted (now.backInService d.addr)

/-- An UPDATE_APPLY in VERIFIED (R154, R156). -/
def State.applyUpdate (s : State) (slot : Nat) : State :=
  match s.upd.header.target with
  | .limitImage =>
    if s.sup.gate then
      State.requestWrite (State.toUpd { s with upd.slip := some (.apply, slot), upd.commit := .bank } .committing)
        (.bank ⟨s.upd.header.version, s.upd.staging⟩) .engine
    else s.complete slot (.refuse .contactors s.upd.applyFields)
  | .moduleFirmware =>
    State.nextRecord 24 (State.toUpd { s with upd.slip := some (.apply, slot) } .distributing)

/-! ### What the engine does when its surroundings change (R156, R159, R160) -/

/-- The SENDING record is spoiled and no exchange carries it: it fails, and the next record's turn comes (R156). In a chain
pause nothing is requested for it until the chain enters UP, and the pause goes on from its own start (R159). -/
def State.failSpoiled (s : State) (t : Turn) : State :=
  let s1 := State.nextRecord 24
    (State.dropFirmware { s.failDist t.pos .notEligible with upd.pause := none, upd.link := .none })
  if s.upd.pause.isSome && decide (s1.upd.state = .distributing) && s1.upd.turn.isSome then
    State.dropFirmware { s1 with upd.pause := s.upd.pause, upd.link := .none }
  else s1

/-- The pause ends when the chain enters UP (R159, R161); a spoiled SENDING record that no exchange carries fails at once
(R156); the pending switch looks at the supervisor (R160). -/
def State.updateReact (s : State) : State :=
  if s.upd.pause.isSome && decide (s.chain.state = .up) then
    let s0 : State := { s with upd.pause := none }
    match s.upd.state with
    | .distributing => s0.askChain .block
    | .switching => s0.askChain .switch
    | _ => s0
  else
    match s.upd.state with
    | .distributing =>
      match s.upd.current with
      | some (t, d) =>
        if decide (d.state = .sending) && decide (s.upd.link ≠ .exchange) && s.spoiled d then
          s.failSpoiled t
        else s
      | none => if s.upd.switchPending && s.sup.gate then s.enterSwitching else s
    | _ => s

/-- The pause limit passes (R159, R161). -/
def State.pauseLimit (s : State) : State :=
  match s.upd.state with
  | .distributing =>
    State.endUpdate { s with upd.dist := failRest .chainLost s.upd.dist } .chainLost .refused (some .chainLost)
  | .switching =>
    let s0 := match s.upd.current with
      | none => s
      | some (_, d) => s.backInService d.addr
    s0.endUpdate .chainLost .refused (some .chainLost)
  | _ => s

end Sys2Proof.Machine
end

