-- ==== Sys2Proof/Machine/Settle.lean ====
section
/-! DEFINITION. What follows at once within a step: the grants of the chain arbiter, the answers CHAIN_DOWN and
CHAIN_ASLEEP, the next step of a sleep entry, of a patrol or of an update; and the end of every step, which rewrites the
records that show the state. -/

namespace Sys2Proof.Machine

/-- What a meaning answers. -/
abbrev Out := Host.Outcome State Fault Refusal

/-! ### Answers (R22) -/

/-- The arbiter answers a waiting request CHAIN_DOWN or CHAIN_ASLEEP (R22); the user decides what follows (R23, R43 to R47,
R159). A survey waits, or joins the survey of the wake; a balancing stop waits while the chain is down (R24), and is answered
CHAIN_ASLEEP (log 33). -/
def State.answerDown (s : State) (r : Req) : State :=
  if !s.chain.requests.contains r then s
  else
    match r with
    | .survey => if s.chain.state = .asleep then s.dropRequest .survey else s
    | .stop => if s.chain.state = .asleep then s.dropRequest .stop else s
    | .burst => s.captureNotMade burstPlan
    | .patrol => s.captureNotMade patrolPlan
    | .capture p => s.captureNotMade p
    | .pause p => s.captureNotMade p
    | .firmware q => (s.dropRequest r).firmwareDown q
    | .config =>
      match s.chain.balance with
      | none => s.dropRequest r
      | some b => (s.dropRequest r).endBalance b .refused (some .chain)
    | .returnEcho _ => s.dropRequest r

/-- While the chain is down or ASLEEP the waiting requests are answered (R22). -/
def State.answerRequests (s : State) : State :=
  if s.chain.down || decide (s.chain.state = .asleep) then s.chain.requests.foldl State.answerDown s else s

/-! ### Grants (R21, R22) -/

/-- The exchange of the update engine that is granted (R20, R157, R161, R165). -/
def State.grantFirmware (s : State) (r : FwReq) : State :=
  match s.upd.current with
  | none => s
  | some (t, d) =>
    let s0 : State := { s with chain.hold := some (.firmware r true) }
    match r with
    | .block =>
      State.beginExchange { s0 with
        upd.link := .exchange
        upd.turn := some { t with attempts := t.attempts + 1 } } .block d.addr (blockPayload s.upd.staging t)
    | .switch => State.beginExchange { s0 with upd.link := .exchange } .switch d.addr (le 2 s.upd.header.version)
    | .probe => s0.beginExchange .echo d.addr []

/-- The CONFIG of the BALANCE slip's address in turn is granted (R23). -/
def State.grantConfig (s : State) : State :=
  match s.chain.balance with
  | none => s
  | some b =>
    match b.todo with
    | [] => s
    | (a, mask) :: _ =>
      State.beginExchange { s with
        chain.hold := some .config
        chain.balance := some { b with
          tries := b.tries + 1
          sent := if b.tries = 0 then b.sent + 1 else b.sent } } .config a (configPayload mask b.duration)

/-- The pause in ms of a plan's pausing capture. -/
def Planner.pauseOf (p : Planner) (plan : Nat) : Nat :=
  match p.captures.find? fun c => decide (c.plan = plan) && decide (c.stage = .pauseRequested) with
  | none => 0
  | some c => c.pause

/-- A request is granted: its hold begins with its first frame (R1, R21). -/
def State.grant (s : State) (r : Req) : State :=
  let s0 := s.dropRequest r
  match r with
  | .survey => s0.beginSurvey
  | .burst => s0.grantCapture burstPlan
  | .patrol => s0.grantCapture patrolPlan
  | .capture p => s0.grantCapture p
  | .firmware q => s0.grantFirmware q
  | .pause p =>
    State.beginExchange { s0 with chain.hold := some (.pause p) } .pause broadcast [byte (s0.plan.pauseOf p)]
  | .config => s0.grantConfig
  -- the stop's CONFIG has duration 0 (log 75)
  | .stop => State.beginExchange { s0 with chain.hold := some .stop } .config broadcast (configPayload 0 0)
  | .returnEcho a => State.beginExchange { s0 with chain.hold := some (.returnEcho a) } .echo a []

/-- The chain is free: no hold, nothing on the line, no sleep command waiting (R9) and no wake in progress. -/
def Chain.free (c : Chain) : Bool :=
  c.hold.isNone && decide (c.line = .idle) && !c.sleepCmd && decide (c.wake = .none) && decide (c.state ≠ .asleep)

/-- The requests that the chain's state lets through (R22). -/
def Chain.grantable (c : Chain) : List Req :=
  if c.down then c.requests.filter fun r => decide (r = .survey ∨ r = .stop) else c.requests

/-- The arbiter grants the waiting request of the lowest class while the chain is free (R21). A CONFIG request for a module
that went OUT_OF_SERVICE while it waited is not granted (R18). -/
def State.arbiterGrant (s : State) : State :=
  if s.chain.free then
    let t := s.balanceReact
    match pickRequest t.chain.grantable with
    | none => t
    | some r => t.grant r
  else s

/-! ### Sleep entry (R108) -/

/-- A step of the entry ends when what it waits for has come (R108). Step 2 ends once no stop waits and none holds the chain,
also when the stop was answered CHAIN_ASLEEP: no stop has then been sent and the balancing records stand (log 77). -/
def State.entryReact (s : State) : State :=
  match s.power.entry with
  | none => s
  | some e =>
    match e.step with
    | 1 => if s.plan.ended then State.askStop { s with power.entry := some { e with step := 2 } } else s
    | 2 =>
      if s.chain.requests.contains .stop || decide (s.chain.hold = some .stop) then s
      else State.requestSnapshot { s with power.entry := some { e with step := 3, requestAt := s.now } } .entry
    | 4 =>
      if s.chain.state = .asleep ∧ s.chain.sleepCmd = false ∧ s.chain.wake = .none then
        { s with power.entry := some { e with step := 5 } }
      else s
    | _ => s

/-! ### Patrol (R121, R122, R124) -/

/-- The planner's report is judged, with a retry where one is due; a judged patrol is logged once the held estimate has come,
and ends (R121, R122, R124). -/
def State.patrolReact (s : State) : State :=
  match s.power.patrol with
  | none => s
  | some p =>
    match p.judged, s.plan.patrolReport with
    | some (r, b, x), _ =>
      if s.power.estimate = .awaited then s else (s.logPatrol p r b x).endPatrol r
    | none, some rep =>
      let j := judgePatrol s.store.inForce rep
      if decide (j.1 = .chainFail) && decide (p.attempts = 1) && !p.promoted then
        State.askPatrol { s with power.patrol := some { p with attempts := 2 } }
      else
        { s with power.patrol := some { p with judged := some j }, plan.patrolReport := none }
    | none, none => s

/-- Once the chain is ASLEEP the return to DEEP is complete: the converter stops, the flags of the patrol's wake are cleared
(R124). -/
def State.returnReact (s : State) : State :=
  match s.power.returning with
  | none => s
  | some src =>
    if s.chain.state = .asleep then
      let s1 := s.stopConverter
      State.toDeep { s1 with power.pend := s1.power.pend &&& ~~~src, power.returning := none }
    else s

/-! ### All of it -/

/-- One round of what follows at once. -/
def State.round (s : State) : State :=
  (State.answerRequests s.burstReact).patrolReact.returnReact.updateReact.entryReact.answerRequests.arbiterGrant

/-- What follows at once within a step; four rounds reach the end of every chain of reactions. -/
def State.settle (s : State) : State := s.round.round.round.round

/-! ### The end of a step -/

/-- The faulted-since time follows the working map (R86). -/
def State.trackFaulted (o n : State) : State :=
  if anyFaulted n.chain.map then
    if anyFaulted o.chain.map then n else { n with sup.faultedSince := some n.now }
  else { n with sup.faultedSince := none }

/-- While surge holds, the capture that holds the chain after its broadcast is marked SURGE (R54). -/
def State.markCaptureSurge (s : State) : State :=
  if s.sup.surge then s.editHeld fun c => { c with surge := c.surge || c.tb.isSome } else s

/-- The end of every step: what follows the map and the surge state, the events sent in the step, and the records that show
the state. -/
def State.finish (o n : State) : State := mirror o (State.trackFaulted o n).markSurge.markCaptureSurge.endSending

/-- A step whose effect needs no reaction of another block. -/
def State.done (o n : State) : Out := .next (State.finish o n)

/-- A step after which the other blocks react at once. -/
def State.react (o n : State) : Out := .next (State.finish o n.settle)

end Sys2Proof.Machine
end

