-- ==== Sys2Proof/Machine/SlipTaking.lean ====
section
/-! DEFINITION. The taking of each slip kind by its owner (R178), and the slip intake of a POST (R177). -/

namespace Sys2Proof.Machine

/-! ### Supervisor: CLOSE, OPEN, CLEAR_LOCKOUT, SET_ONCE (R75, R79, R84, R92) -/

/-- A CLOSE or CLEAR_LOCKOUT is in flight (R75). -/
def Sup.slipInFlight (p : Sup) : Bool := p.close.isSome || p.clear.isSome

/-- CLOSE (R75, R76). The zero result fields of one that is turned away here are the model's choice (log 101). -/
def State.takeClose (s : State) (slot : Nat) : State :=
  if s.sup.slipInFlight then s.complete slot (.plain .busy)
  else
    match s.sup.state with
    | .open_ =>
      match s.closeFails with
      | some c => s.complete slot (.refuse c)
      | none => s.beginClose slot
    | .lockedOut => s.complete slot (.refuse .lockout)
    | .precharging | .closing | .closed | .opening | .weldCheck => s.complete slot (.plain .busy)

/-- OPEN (R79). The zero result fields of one that completes at once are the model's choice (log 100). -/
def State.takeOpen (s : State) (slot : Nat) : State :=
  match s.sup.state with
  | .precharging | .closing | .closed => s.startOpening (some slot) s.deferralCauses
  | .opening =>
    match s.sup.opening with
    | none => s.complete slot (.okWith [])
    | some o => { s with sup.opening := some { o with slots := o.slots ++ [slot] } }
  | .open_ | .weldCheck | .lockedOut => s.complete slot (.okWith [])

/-- CLEAR_LOCKOUT (R74, R75, R84). The zero result fields of one that is turned away here are the model's choice (log 101). -/
def State.takeClear (s : State) (slot : Nat) : State :=
  if s.sup.slipInFlight || s.sup.waiting then s.complete slot (.plain .busy)
  else
    match s.sup.state with
    | .lockedOut =>
      { s with
        sup.clear := some ⟨slot, 0, 0⟩
        sup.weld := some ⟨s.now, s.store.active.weldWindow.toNat, true, false⟩ }
    | .weldCheck => s.complete slot (.plain .busy)
    | .open_ | .precharging | .closing | .closed | .opening => s.complete slot (.refuse .notLocked)

/-- The timer that becomes armed past L warns at once, and past L + G expires at once (R90). -/
def State.armSilence (s : State) : State :=
  if !s.sup.armed then s
  else
    let s1 := if decide (s.sup.once.limit ≤ s.sup.silence) && !s.sup.warn then s.silenceWarning else s
    if s1.silenceEnd ≤ s1.sup.silence then s1.silenceExpiry else s1

/-- SET_ONCE (R92); policy armed 0, not armed 1, module-fault yes 1, no 0 (log 23). -/
def State.takeSetOnce (s : State) (slot : Nat) (args : List Byte) : State :=
  let limit := argNum args 0 2
  let policy := argNum args 2 1
  let mf := argNum args 3 1
  if s.sup.slipInFlight then s.complete slot (.plain .busy s.sup.once.fields)
  else if s.sup.once.set then s.complete slot (.refuse .alreadySet s.sup.once.fields)
  else if 1 < policy ∨ 1 < mf then s.complete slot (.refuse .badRange s.sup.once.fields)
  else
    let limit' := if limit = 0 then 0 else clampNat 100 5000 limit
    let s1 : State := { s with sup.once := ⟨true, limit', decide (policy = 0), decide (mf = 1)⟩ }
    let s2 := s1.complete slot
      ⟨if limit' = limit then .ok else .okClamped, none, s1.sup.once.fields⟩
    s2.armSilence

/-! ### Power controller: SLEEP (R107) -/

/-- SLEEP (R107). A SLEEP that is turned away has no snapshot outcome (log 26). -/
def State.takeSleep (s : State) (slot : Nat) : State :=
  match s.sleepRefusal with
  | some r => s.complete slot { r with fields := Power.sleepFields { s.power with snapOutcome := .none } }
  | none => s.beginEntry slot

/-! ### Chain controller: SURVEY, BALANCE (R14, R23) -/

/-- SURVEY (R14). The zero result fields of one that is BUSY are the model's choice (log 101). -/
def State.takeSurvey (s : State) (slot : Nat) : State :=
  if s.chain.surveySlip.isSome || s.chain.balance.isSome then s.complete slot (.plain .busy)
  else State.requestSurvey { s with chain.surveySlip := some slot }

/-- The cell mask of an address with the bits beyond its cell count cleared (R23). -/
def cutMask (mask : Half) (cells : Nat) : Half := mask &&& BitVec.ofNat 16 (2 ^ cells - 1)

/-- The addresses that a BALANCE slip sends to with their masks, how many it skips, and whether it clamped a mask (R23). That
this is judged once, by the working map at the taking, is the model's choice (log 96). -/
def balanceTodo (c : Chain) (args : List Byte) (first : Nat) : Nat → Nat → List (Nat × Half) × Nat × Bool
  | 0, _ => ([], 0, false)
  | n + 1, i =>
    let r := balanceTodo c args first n (i + 1)
    let mask : Half := BitVec.ofNat 16 (argNum args (4 + 2 * i) 2)
    match c.entry (first + i) with
    | none => (r.1, r.2.1 + 1, r.2.2)
    | some e =>
      if e.configured && decide (e.state = .inService ∨ e.state = .stale) then
        ((first + i, cutMask mask e.cells) :: r.1, r.2.1, r.2.2 || decide (cutMask mask e.cells ≠ mask))
      else (r.1, r.2.1 + 1, r.2.2)

/-- BALANCE (R23). The zero result fields of one that is turned away here are the model's choice (log 101). -/
def State.takeBalance (s : State) (slot : Nat) (args : List Byte) : State :=
  let first := argNum args 0 1
  let count := argNum args 1 1
  let duration := argNum args 2 2
  if s.chain.surveySlip.isSome || s.chain.balance.isSome then s.complete slot (.plain .busy)
  else if first < 1 ∨ 24 < first ∨ count < 1 ∨ 16 < count ∨ 24 < first + count - 1 then
    s.complete slot (.refuse .badRange)
  else if s.chain.down then s.complete slot (.refuse .chain)
  else
    let r := balanceTodo s.chain args first count 0
    let b : Balance :=
      { slot := slot
        todo := r.1
        tries := 0
        duration := clampNat 1 3600 duration
        sent := 0
        acked := 0
        skipped := r.2.1
        clamped := r.2.2 || decide (clampNat 1 3600 duration ≠ duration)
        lowestNotAcked := 0
        anyNotAcked := false
        ending := false }
    State.balanceNext { s with chain.balance := some b }

/-! ### Capture planner: CAPTURE_NOW (R44) -/

/-- CAPTURE_NOW (R44). The result fields of one that is turned away here are the model's choice (log 101). -/
def State.takeCaptureNow (s : State) (slot : Nat) (args : List Byte) : State :=
  let mask : BitVec 24 := BitVec.ofNat 24 (argNum args 0 4)
  if s.plan.captures.any fun c => c.slot.isSome then s.complete slot (.plain .busy noPage)
  else
    match contentsOf (argNum args 4 1) with
    | none => s.complete slot (.refuse .badRange noPage)
    | some c =>
      if !s.chain.selectsConfigured mask then s.complete slot (.refuse .emptyMask noPage)
      else if s.chain.down then s.complete slot (.refuse .chain noPage)
      else s.beginPlanCapture { newCapture nowPlan mask c true with slot := some slot }

/-! ### Settings store: INSTALL_KEY, READ_STORE (R141, R142) -/

/-- Whether a write of the key slot waits or runs (R141). -/
def Store.keyWrite (t : Store) : Bool :=
  let isKey (p : Payload) : Bool := match p with
    | .key _ => true
    | _ => false
  t.queue.any (fun q => isKey q.payload) || (t.running.map fun r => isKey r.req.payload).getD false

/-- INSTALL_KEY (R141). The slot's state is the record's, also before the start-up read has ended (log 12). -/
def State.takeInstallKey (s : State) (slot : Nat) (args : List Byte) : State :=
  let k := s.store.nv.working.key
  if s.store.keySlip.isSome then s.complete slot (.plain .busy [byte k.code])
  else if decide (k ≠ .empty) || s.store.keyWrite then s.complete slot (.refuse .keyPresent [byte k.code])
  else if (fit 32 args).all (fun b => decide (b = 0)) then s.complete slot (.refuse .badKey [byte k.code])
  else State.requestWrite { s with store.keySlip := some slot } (.key (fit 32 args)) .keySlip

/-- The store reports the key slot write (R141). -/
def State.keyWritten (s : State) (done : Bool) : State :=
  match s.store.keySlip with
  | none => s
  | some slot =>
    let k := s.store.work.key
    State.complete { s with store.keySlip := none } slot
      (if done then .okWith [byte k.code] else .refuse .store [byte k.code])

/-- READ_STORE (R142). The zero result fields of one that is BUSY or refused are the model's choice (log 101). -/
def State.takeReadStore (s : State) (slot : Nat) (args : List Byte) : State :=
  if s.store.keySlip.isSome then s.complete slot (.plain .busy)
  else
    match s.store.page (argNum args 0 1) with
    | none => s.complete slot (.refuse .badRange)
    | some l => s.complete slot (.okWith l)

/-! ### Update engine (R146, R147, R151, R154, R164) -/

/-- A slip or an abort of the engine is in flight (R146). -/
def Update.busy (u : Update) : Bool := u.slip.isSome || !u.aborts.isEmpty

/-- UPDATE_BEGIN (R147). -/
def State.takeBegin (s : State) (slot : Nat) (args : List Byte) : State :=
  if s.upd.busy then s.complete slot (.plain .busy s.upd.fields)
  else if s.upd.state ≠ .idle then s.complete slot (.refuse .wrongState s.upd.fields)
  else
    match s.beginFails (rawHeader args) with
    | some c => s.complete slot (.refuse c s.upd.fields)
    | none =>
      let s1 := s.beginUpdate (rawHeader args)
      s1.complete slot (.okWith s1.upd.fields)

/-- UPDATE_CHECK (R151). -/
def State.takeCheck (s : State) (slot : Nat) : State :=
  if s.upd.busy then s.complete slot (.plain .busy s.upd.fields)
  else if s.upd.state ≠ .receiving then s.complete slot (.refuse .wrongState s.upd.fields)
  else if s.upd.staging.length < s.upd.header.length then s.complete slot (.refuse .incomplete s.upd.fields)
  else State.toUpd { s with upd.slip := some (.check, slot), upd.checkAt := s.now } .checking

/-- UPDATE_APPLY (R154, R156). -/
def State.takeApply (s : State) (slot : Nat) : State :=
  if s.upd.busy then s.complete slot (.plain .busy s.upd.applyFields)
  else if s.upd.state ≠ .verified then s.complete slot (.refuse .wrongState s.upd.applyFields)
  else s.applyUpdate slot

/-! ### The slip intake (R177, R178) -/

/-- The owner of a slip takes it (R178). -/
def State.handSlip (s : State) (slot : Nat) (k : SlipKind) (args : List Byte) : State :=
  match k with
  | .close => s.takeClose slot
  | .open_ => s.takeOpen slot
  | .clearLockout => s.takeClear slot
  | .setOnce => s.takeSetOnce slot args
  | .sleep => s.takeSleep slot
  | .survey => s.takeSurvey slot
  | .balance => s.takeBalance slot args
  | .captureNow => s.takeCaptureNow slot args
  | .installKey => s.takeInstallKey slot args
  | .readStore => s.takeReadStore slot args
  | .updateBegin => s.takeBegin slot args
  | .updateCheck => s.takeCheck slot
  | .updateApply => s.takeApply slot
  | .updateAbort => s.takeAbort slot

/-- The slot's record shows it not in flight and its state word reads POSTED (R177). -/
def State.posted (s : State) (slot : Nat) : Bool :=
  decide (getAt s.port.slots slot = some none) && decide (s.mem.word (slotAt slot) = 1)

/-- The copy that a taking makes of a slot (R178). -/
def copySlot (m : Memory) (slot : Nat) : SlipCopy :=
  let b := slotAt slot
  let kind : Byte := m.read (b + 4)
  { kind := kind
    tag := BitVec.ofNat 16 (m.num (b + 6) 2)
    args := m.readBytes (b + 8) 40
    owner := (slipKindOf kind).map SlipKind.owner }

/-- The copy stands in the slot's record and the slot reads TAKEN (R178, steps 2 and 3). -/
def State.copyAndTake (s : State) (slot : Nat) : State :=
  { s with
    port.slots := setAt s.port.slots slot (some (copySlot s.mem slot))
    mem := s.mem.store (slotAt slot) (le 4 2) }

/-- A slip is taken: in ENTERING_DEEP the entry is cancelled first; then the copy, TAKEN, and the kind (R178). -/
def State.takeSlip (s : State) (slot : Nat) : State :=
  let s1 := if s.power.state = .enteringDeep then s.cancelEntry else s
  let c := copySlot s1.mem slot
  let s2 := s1.copyAndTake slot
  match slipKindOf c.kind with
  | none => s2.complete slot (.plain .badSlip)
  | some k => s2.handSlip slot k c.args

end Sys2Proof.Machine
end

