-- ==== Sys2Proof/Machine/ChainSteps.lean ====
section
/-! DEFINITION. The meanings of the cell chain's steps (chapter 1): frames that have left, answers, failed answers, and the
chain controller's timers. -/

namespace Sys2Proof.Machine

/-! ### Frames that have left (R1, R3, R9, R19, R24, R47) -/

/-- The frame being sent. -/
def Line.frame : Line → Option Frame
  | .sending f => some f
  | .idle | .window _ _ | .conversion _ => none

/-- The frame whose last character has left is the last one sent, at the send time that the µs time base shows (R1, R29). -/
def State.sentFrame (s : State) (f : Frame) : State := { s with chain.lastSent := some (f, s.conv.us) }

/-- The hold has ended and the line is idle. -/
def State.endExchange (s : State) : State := { s with chain.hold := none, chain.line := .idle }

/-- The held capture goes on after an exchange, or hands over what it has not read if the chain became down (R7, R19). -/
def State.captureGoesOn (s : State) : State := if s.chain.down then s.abandonReads else s.readOn

/-- CAPTURE_SENT: the planner is handed the tag and t_b, and the conversion wait begins (R19, R48); if the chain became down
meanwhile, nothing more is sent (R7). -/
def execCaptureSent (us : Us) (s : State) : Out :=
  match s.chain.line.frame with
  | none => s.done (s.atUs us)
  | some f =>
    if f.kind = .capture then
      let s0 := (s.atUs us).sentFrame f
      let s1 : State := { s0 with chain.line := .conversion s0.conv.us }
      let s2 := s1.editHeld fun c => c.sent f.tag s1.conv.us s1.now s1.sup.surge
      s.react (if s2.chain.down then s2.abandonReads else s2)
    else s.done (s.atUs us)

/-- The capture whose PAUSE has been sent counts its wait from now (R47). -/
def Capture.paused (p : Nat) (now : Ms) (c : Capture) : Capture :=
  if c.plan = p ∧ c.stage = .pauseRequested then { c with stage := .pausing now } else c

/-- PAUSE_SENT: the hold of one frame ends, and the planner counts its wait (R19, R47). A capture of the plan that was
withdrawn while the frame was being sent is not there any more; one whose own PAUSE still waits keeps waiting. -/
def execPauseSent (us : Us) (s : State) : Out :=
  match s.chain.line.frame, s.chain.hold with
  | some f, some (.pause p) =>
    let s0 := ((s.atUs us).sentFrame f).endExchange
    s.react (if s0.chain.requests.contains (.pause p) then s0
      else { s0 with plan.captures := s0.plan.captures.map (Capture.paused p s0.now) })
  | _, _ => s.done (s.atUs us)

/-- Whether a frame is one of FRAME_SENT: an addressed READ, ECHO, CONFIG, BLOCK or SWITCH. -/
def Frame.addressed (f : Frame) : Bool :=
  match f.kind with
  | .read | .echo | .block | .switch => true
  | .config => decide (f.addr ≠ broadcast)
  | .capture | .pause | .sleep | .wake => false

/-- The SWITCH has left: its hold ends, and the module's switch window begins, unless the engine disregards it (R20, R161,
R165). -/
def State.switchSent (s : State) : State :=
  match s.chain.hold with
  | some (.firmware _ true) =>
    { s.endExchange with upd.link := .none, upd.window := some ⟨s.now, 0, none⟩ }
  | _ => s.endExchange

/-- FRAME_SENT: a reply window opens where an answer is expected (R3); a SWITCH ends its hold (R20). -/
def execFrameSent (us : Us) (s : State) : Out :=
  match s.chain.line.frame with
  | none => s.done (s.atUs us)
  | some f =>
    if f.addressed then
      let s0 := (s.atUs us).sentFrame f
      if f.answered then s.react { s0 with chain.line := .window f s0.conv.us } else s.react s0.switchSent
    else s.done (s.atUs us)

/-- The chain may carry the SLEEP broadcast: the sleep command waits and the chain is free (R9). -/
def Chain.sleepReady (c : Chain) : Bool :=
  c.sleepCmd && c.hold.isNone && decide (c.line = .idle) && decide (c.wake = .none) && decide (c.state ≠ .asleep)

/-- SLEEP_BROADCAST: SLEEP is sent and the chain enters ASLEEP; a wake that follows a cancelled entry begins at once (R9,
R111), and a chain alert that is asserted outside RUN is a cause at this instant (R114). -/
def execSleepBroadcast (us : Us) (s : State) : Out :=
  if s.chain.sleepReady then
    let s0 := (s.atUs us).sendAtOnce .sleep
    let s1 : State := { s0 with
      chain.state := .asleep
      chain.sleepCmd := false
      chain.wakeAfterSleep := false
      chain.surveyTimer := none }
    let s2 := if s.chain.wakeAfterSleep then s1.wakeChain else s1
    s.react (if s2.pins.chainAlert && s2.power.state.watched then s2.alertAtSleep else s2)
  else s.done (s.atUs us)

/-- BALANCING_STOP_SENT: every balancing record becomes inactive and the stop is done (R24). -/
def execBalancingStopSent (us : Us) (s : State) : Out :=
  match s.chain.line.frame, s.chain.hold with
  | some f, some .stop => s.react (((s.atUs us).sentFrame f).endExchange.clearBalancing)
  | _, _ => s.done (s.atUs us)

/-! ### Answers (R3, R17, R18, R23, R158) -/

/-- The frame whose reply window is open, if it is of a kind. -/
def Chain.awaits (c : Chain) (k : FrameKind) : Option Frame :=
  match c.line with
  | .window f _ => if f.kind = k then some f else none
  | .idle | .sending _ | .conversion _ => none

/-- Whether an answer has a character error: one that the receiver found, an address that is not the addressed module's, or
a first character that arrived when the reply window had passed (R3). -/
def answerError (f : Frame) (addr : Nat) (err : Option CharError) (late : Bool) : Bool :=
  err.isSome || decide (addr ≠ f.addr) || late

/-- An answer whose first character arrived `first` µs after the frame's send time lies past the reply window (R3). -/
def Chain.late (c : Chain) (f : Frame) (first : Nat) : Bool := decide (c.windowOf f < first)

/-- The codes that the held capture expects of an address: its cells and its sensors as fixed at grant (R3, R48). -/
def Planner.codesOf (p : Planner) (a : Nat) : Nat :=
  match p.captures.find? Capture.holding with
  | none => 0
  | some c =>
    match c.items.find? fun m => decide (m.addr = a) with
    | none => 0
    | some m => m.cells + m.sensors

/-- The map state of an address. -/
def Chain.stateOf (c : Chain) (a : Nat) : Option ModState := (c.entry a).map (·.state)

/-- A READ ended in a miss: it is counted once, the entry follows, and the planner is told (R3, R17, R50). -/
def State.readMissed (s : State) (us : Us) (a : Nat) : State :=
  let t := (s.countError us).miss a
  (t.settleOld a (t.chain.stateOf a)).captureGoesOn

/-- A READ ended in a good reply (R17, R50). -/
def State.readGood (s : State) (a : Nat) (codes : List Half) (status : ModuleStatus) (version : Half) : State :=
  let t := s.goodReply a status version
  (t.settleGood a codes (t.chain.stateOf a)).captureGoesOn

/-- REPLY (R3, R17, R19). -/
def execReply (arrival : Arrival) (addr tag : Nat) (codes : List Half) (status : ModuleStatus) (version : Half)
    (err : Option CharError) (s : State) : Out :=
  match s.chain.awaits .read with
  | none => s.done (s.atUs arrival.us)
  | some f =>
    let s0 := s.atUs arrival.us
    if answerError f addr err (s.chain.late f arrival.first) || decide (codes.length ≠ s.plan.codesOf f.addr)
        || decide (tag ≠ f.tag) then
      s.react (s0.readMissed (s.usAt arrival.us) f.addr)
    else s.react (s0.readGood f.addr codes status version)

/-- An exchange of the engine has no good answer (R3, R158); a probe's is nothing to it (R161). -/
def State.firmwareFailed (s : State) (us : Us) (r : FwReq) (live : Bool) : State :=
  let t := s.endExchange.countError us
  match r, live with
  | .block, true => t.blockEnded .failed
  | _, _ => t

/-- The exchange in progress ends without a good answer: it is counted, but for the survey's ECHO, and handed to its user as
failed (R3, R11, R17, R23, R158). -/
def State.answerFailed (s : State) (us : Us) (f : Frame) : State :=
  match s.chain.hold with
  | some (.survey a second) => s.surveyFailed a second
  | some (.capture _) => s.readMissed us f.addr
  | some (.firmware r live) => s.firmwareFailed us r live
  | some .config => (s.endExchange.countError us).balanceAnswered false
  | some (.returnEcho _) | some (.pause _) | some .stop | none => s.endExchange.countError us

/-- The survey entry of an ECHO_BACK (R11). -/
def surveyEntryOf (roundTrip kind cells sensors : Nat) (version : Half) : SurveyEntry :=
  let d := latchDelay roundTrip
  ⟨true, kind, cells, sensors, roundTrip, d.1, d.2, version⟩

/-- A good ECHO_BACK: it returns a handed-back module, updates the version, goes to the engine, and settles the survey's
address or ends its exchange (R11, R18). -/
def State.echoGood (s : State) (a : Nat) (v : SurveyEntry) : State :=
  match s.chain.hold with
  | some (.survey _ _) => ((s.echoed a v.version).engineEcho a v.version).settleAddr a v
  | _ => (s.endExchange.echoed a v.version).engineEcho a v.version

/-- ECHO_BACK (R3, R11, R18). Its round trip says when its first character arrived, in 0.1 µs. -/
def execEchoBack (us : Us) (addr roundTrip kind cells sensors : Nat) (version : Half) (err : Option CharError)
    (s : State) : Out :=
  match s.chain.awaits .echo with
  | none => s.done (s.atUs us)
  | some f =>
    let s0 := s.atUs us
    if answerError f addr err (decide (10 * s.chain.windowOf f < roundTrip)) then
      s.react (s0.answerFailed (s.usAt us) f)
    else s.react (s0.echoGood f.addr (surveyEntryOf roundTrip kind cells sensors version))

/-- CONFIG_REPLY: a status form with the right tag acknowledges the balancing and reports the module status and version
(R2, R3, R23); a wrong tag is no character error but a failed answer. -/
def execConfigReply (arrival : Arrival) (addr tag : Nat) (status : ModuleStatus) (version : Half) (err : Option CharError)
    (s : State) : Out :=
  match s.chain.awaits .config with
  | none => s.done (s.atUs arrival.us)
  | some f =>
    let s0 := s.atUs arrival.us
    if answerError f addr err (s.chain.late f arrival.first) then s.react (s0.answerFailed (s.usAt arrival.us) f)
    else if tag ≠ f.tag then s.react (s0.endExchange.balanceAnswered false)
    else
      let s1 := s0.endExchange.editModule f.addr fun e => { e with status := status, version := version }
      s.react (s1.balanceAnswered true)

/-- A BLOCK_ACK without a character error is judged by the engine (R158); one it disregards only ends the hold (R165). -/
def State.blockAcked (s : State) (index : Half) (toggle : Bool) (crc : Half) : State :=
  match s.chain.hold, s.upd.current with
  | some (.firmware _ true), some (t, _) =>
    s.endExchange.blockEnded (judgeBlock s.upd.staging t index toggle crc)
  | _, _ => s.endExchange

/-- BLOCK_ACK (R3, R20, R158). -/
def execBlockAck (arrival : Arrival) (addr : Nat) (index : Half) (toggle : Bool) (crc16 : Half) (err : Option CharError)
    (s : State) : Out :=
  match s.chain.awaits .block with
  | none => s.done (s.atUs arrival.us)
  | some f =>
    let s0 := s.atUs arrival.us
    if answerError f addr err (s.chain.late f arrival.first) then s.react (s0.answerFailed (s.usAt arrival.us) f)
    else s.react (s0.blockAcked index toggle crc16)

/-- REPLY_TIMEOUT: the reply window has closed with no character (R3). -/
def execReplyTimeout (us : Us) (s : State) : Out :=
  match s.chain.line with
  | .window f sent =>
    if s.chain.windowOf f ≤ elapsed (s.usAt us) sent then s.react ((s.atUs us).answerFailed (s.usAt us) f)
    else s.done (s.atUs us)
  | .idle | .sending _ | .conversion _ => s.done (s.atUs us)

/-- CHARACTER_GAP: the answer fails with a framing error (R3). -/
def execCharacterGap (us : Us) (s : State) : Out :=
  match s.chain.line with
  | .window f _ => s.react ((s.atUs us).answerFailed (s.usAt us) f)
  | .idle | .sending _ | .conversion _ => s.done (s.atUs us)

/-- STRAY_CHARACTERS: a burst while no reply window is open counts as one framing error (R3). -/
def execStrayCharacters (us : Us) (s : State) : Out :=
  match s.chain.line with
  | .window _ _ => s.done (s.atUs us)
  | .idle | .sending _ | .conversion _ => s.done ((s.atUs us).countError (s.usAt us))

/-! ### Timers (R7, R9, R13, R18, R19, R23) -/

/-- The length of a SUSPECT period, in ms (R7). -/
def suspectPeriod : Nat := 10

/-- SUSPECT_PERIOD_END: with fewer than 2 errors the chain enters UP, otherwise the next period begins (R7). -/
def execSuspectPeriodEnd (s : State) : Out :=
  if decide (s.chain.state = .suspect) && s.passed s.chain.periodStart suspectPeriod then
    if s.chain.periodErrs < 2 then s.react s.enterUp
    else s.react { s with
      chain.periodStart := s.chain.periodStart + BitVec.ofNat 32 suspectPeriod
      chain.periodErrs := 0 }
  else s.done s

/-- CHAIN_LOSS_HOLD: the time in SUSPECT exceeds the hold and the chain becomes down; a capture in its conversion wait sends
no READ (R7, R8). -/
def execChainLossHold (s : State) : Out :=
  if s.chain.state = .suspect ∧ s.store.active.chainHold < (elapsed s.now s.chain.suspectSince : Nat) then
    let t := s.becomeDown none 0
    s.react (match t.chain.line with
      | .conversion _ => t.abandonReads
      | .idle | .sending _ | .window _ _ => t)
  else s.done s

/-- The automatic survey timer, in ms (R13). -/
def autoSurvey : Nat := 200

/-- AUTO_SURVEY_TIMER (R10, R13). -/
def execAutoSurveyTimer (s : State) : Out :=
  match s.chain.surveyTimer with
  | none => s.done s
  | some t =>
    if s.passed t autoSurvey then s.react (State.requestSurvey { s with chain.surveyTimer := none }) else s.done s

/-- The module conversion time, in µs (R19). -/
def conversionTime : Nat := 1000

/-- CONVERSION_WAIT_END: 1 ms after t_b the READ frames begin; by then every pair is recorded (R19, R49). -/
def execConversionWaitEnd (us : Us) (s : State) : Out :=
  match s.chain.line with
  | .conversion tb =>
    if decide (conversionTime ≤ elapsed (s.usAt us) tb) && (s.plan.captures.find? Capture.holding).any Capture.paired then
      s.react ((s.atUs us).captureGoesOn)
    else s.done (s.atUs us)
  | .idle | .sending _ | .window _ _ => s.done (s.atUs us)

/-- The length of the wake tone, in ms (R9). -/
def wakeTone : Nat := 1

/-- The wake tone of a reset has ended: no WAKE broadcast follows, and the first survey sends its first ECHO (R126, R127,
R11). -/
def State.endResetTone (s : State) : State :=
  let t : State := { s with chain.resetTone := false }
  match t.chain.hold, t.chain.line with
  | some (.survey a _), .idle => t.beginExchange .echo a []
  | _, _ => t

/-- WAKE_TONE_END: WAKE is sent and the module wake time begins (R9); the tone of a reset ends without a WAKE (R126,
R127). -/
def execWakeToneEnd (tone : ToneEnd) (s : State) : Out :=
  match s.chain.wake with
  | .tone since =>
    if s.passed since wakeTone then
      s.done { (s.atUs tone.us).sendAtOnce .wake with chain.wake := .settle s.now tone.gap }
    else s.done (s.atUs tone.us)
  | .none | .settle _ _ =>
    if s.chain.resetTone && s.passed 0 wakeTone then s.done (s.atUs tone.us).endResetTone
    else s.done (s.atUs tone.us)

/-- The spacing of return probes, in ms (R18). -/
def returnSpacing : Nat := 200

/-- RETURN_PROBE: an ECHO to a module handed back as "return on next echo" is requested (R18). -/
def execReturnProbe (addr : Nat) (s : State) : Out :=
  match s.chain.returning.find? fun r => decide (r.1 = addr) with
  | none => s.done s
  | some (_, last) =>
    if s.passed last returnSpacing && decide (s.chain.stateOf addr = some .outOfService) then
      s.react (State.request { s with
        chain.returning := s.chain.returning.map fun r => if r.1 = addr then (addr, s.now) else r } (.returnEcho addr))
    else s.done s

/-- BALANCING_END: the record's end time is reached and it becomes inactive (R23). -/
def execBalancingEnd (addr : Nat) (s : State) : Out :=
  match s.chain.entry addr with
  | none => s.done s
  | some e =>
    if e.balMask ≠ 0 ∧ elapsed s.now e.balEnd < 2147483648 then
      s.done (s.editModule addr fun e => { e with balMask := 0, balEnd := 0 })
    else s.done s

end Sys2Proof.Machine
end

