-- ==== Sys2Proof/Machine/ConvSteps.lean ====
section
/-! DEFINITION. The meanings of the converter's and the clocks' steps (chapter 2): SAMPLE_LATCH, SAMPLE_COMPLETE,
PART_TIME_TICK, SNAPSHOT_TIMER. -/

namespace Sys2Proof.Machine

/-- The µs time base after an event at a µs time: it never goes back (R29). -/
def laterUs (old new : Us) : Us := if elapsed new old < 2147483648 then new else old

/-- The spacing of latches and the time from a latch to its completion, in µs (R25). -/
def latchSpacing : Nat := 100
@[inherit_doc latchSpacing] def completionTime : Nat := 40

/-- SAMPLE_LATCH: the four channels are latched together 100 µs after the latch before (R25, R26). -/
def execSampleLatch (readings : Readings) (s : State) : Out :=
  if s.conv.scanning then
    let t := s.conv.lastLatch + BitVec.ofNat 32 latchSpacing
    s.done { s with
      conv.us := laterUs s.conv.us t
      conv.lastLatch := t
      conv.latched := some (sampleOf t readings) }
  else s.done s

/-- A sample completes: it enters the history, is added to the charge counter, and is judged by its readers (R25; log 24 on
the order). -/
def State.completeSample (s : State) (x : Sample) : State :=
  let s1 : State := { s with
    conv.us := laterUs s.conv.us (x.t + BitVec.ofNat 32 completionTime)
    conv.latched := none
    conv.history := pushSample s.conv.history x }
  let s2 := s1.charge x.i
  let s3 : State := { s2 with plan.captures := s2.plan.captures.map (Capture.pairUp s2.conv.history x) }
  ((s3.collect x.i).supSample x).fillWindows x

/-- SAMPLE_COMPLETE: a sample that has been latched and not discarded completes (R25, R27, R31, R33, R49, R98). -/
def execSampleComplete (s : State) : Out :=
  match s.conv.latched with
  | some x => if s.conv.scanning then s.react (s.completeSample x) else s.done s
  | none => s.done s

/-- The snapshot timer's end, in ms (R34). -/
def snapshotEnd : Nat := 600000

/-- The low-rate counts of a converter that is stopped (R32, R115). -/
def State.countStopped (s : State) (shunt : Nat) : State :=
  if s.conv.scanning then s
  else
    let above := decide (s.power.wakeTable.threshold < shunt)
    { s with
      conv.unsampled := bump unsampledMax s.conv.unsampled
      power.compRun := if above then bump 1000 s.power.compRun else 0
      power.compFired := above && s.power.compFired }

/-- The patrol timer counts down in DEEP (R114). -/
def State.countPatrol (s : State) : State :=
  if decide (s.power.state = .deep) && s.power.timerRunning then { s with power.timer := s.power.timer - 1 } else s

/-- The snapshot timer advances in RUN (R34). -/
def State.countSnapshot (s : State) : State :=
  if s.power.state = .run then { s with conv.snapTimer := bump snapshotEnd s.conv.snapTimer } else s

/-- The silence count in the contactor record is rewritten once per 10 ms (chapter 4), at the part times that 10 divides, in
every power state (log 87). -/
def State.silenceShown (s : State) : State := if s.conv.part.toNat % 10 = 0 then s.showSilence else s

/-- A millisecond passes: part time advances, a plan table that was taken comes into force, and the millisecond counts
advance (R30, R32, R34, R35, R38, R86, R89, R114, R115). -/
def State.tick (s : State) (shunt : Nat) : State :=
  let s1 : State := { s with
    conv.part := s.conv.part + 1
    plan.inForce := s.plan.plans
    plan.dueDone := s.plan.dueDone.map fun _ => false }
  let s2 := (((s1.countStopped shunt).countPatrol).countSnapshot).countSilence
  let s3 := if s2.conv.scanning then s2.showConverter else s2
  s3.silenceShown.judgeLoss

/-- PART_TIME_TICK (R30); `shunt` is the least |I| at the shunt within the millisecond, in 10 mA (R115). -/
def execPartTimeTick (shunt : Nat) (s : State) : Out := s.done (s.tick shunt)

/-- SNAPSHOT_TIMER: the timer reaches 600,000 ms in RUN and makes a snapshot request (R34). -/
def execSnapshotTimer (s : State) : Out :=
  if decide (s.power.state = .run) && decide (snapshotEnd ≤ s.conv.snapTimer) then
    s.done (s.requestSnapshot .snapTimer)
  else s.done s

end Sys2Proof.Machine
end

