-- ==== Sys2Proof/Machine/PlannerSteps.lean ====
section
/-! DEFINITION. The meanings of the capture planner's steps (chapter 3): PLAN_DUE, PAUSE_WAIT_END, BURST_CAPTURE_DUE,
SET_BUILT, PAGE_WRITE_END. -/

namespace Sys2Proof.Machine

/-! ### Due times (R40, R41) -/

/-- A plan is due at a part time (R40). -/
def Plan.due (p : Plan) (now : Ms) : Bool := p.active && decide (now.toNat % p.period = p.phase)

/-- The capture of a host plan that falls due (R40, R47). -/
def planCapture (i : Nat) (p : Plan) : Capture := { newCapture i p.mask p.contents p.publish with pause := p.pause }

/-- A plan falls due: it passes without effect, begins a capture, or skips the due time with an overrun (R40, R41). -/
def State.fallDue (s : State) (i : Nat) (p : Plan) : State :=
  let t : State := { s with plan.dueDone := setAt s.plan.dueDone i true }
  if !t.chain.selectsConfigured p.mask then t
  else if t.plan.busy i then State.raise { t with plan.overrun := setAt t.plan.overrun i true } .planOverrun
  else t.beginPlanCapture (planCapture i p)

/-- Whether a plan is due in this millisecond and has not fallen due yet (R40). -/
def State.isDue (s : State) (i : Nat) : Bool :=
  decide (s.power.state = .run) && !((getAt s.plan.dueDone i).getD true)
    && (getAt s.plan.inForce i).any fun p => p.due s.now

/-- The plan of an index falls due, if it is due. -/
def State.tryDue (s : State) (i : Nat) : State :=
  if s.isDue i then
    match getAt s.plan.inForce i with
    | none => s
    | some p => s.fallDue i p
  else s

/-- The plans up to an index fall due together, so that the arbiter serves them in plan index order (R21, R41). -/
def State.dueUpTo (s : State) (i : Nat) : State := (List.range (i + 1)).foldl State.tryDue s

/-- PLAN_DUE (R40, R41): with a plan, the plans of a lower index that are due in the same millisecond fall due (log 29). -/
def execPlanDue (index : Nat) (s : State) : Out := if s.isDue index then s.react (s.dueUpTo index) else s.done s

/-! ### Pauses and bursts (R42, R47) -/

/-- Whether a capture's pause has passed (R47). -/
def Capture.pauseOver (p : Nat) (now : Ms) (c : Capture) : Bool :=
  decide (c.plan = p) && (match c.stage with
    | .pausing sent => decide (c.pause ≤ elapsed now sent)
    | .pauseRequested | .requested | .held | .building | .writing => false)

/-- PAUSE_WAIT_END: the capture is requested in its plan's class (R47). -/
def execPauseWaitEnd (index : Nat) (s : State) : Out :=
  if s.plan.captures.any (Capture.pauseOver index s.now) then
    s.react (State.request { s with
      plan.captures := s.plan.captures.map fun c =>
        if c.pauseOver index s.now then { c with stage := .requested } else c } (captureReq index))
  else s.done s

/-- The spacing of burst captures from the event, in ms (R42). -/
def burstSpacing : Nat := 20

/-- BURST_CAPTURE_DUE: the second or third capture begins 20 or 40 ms after the event, once the previous one has ended
(R42). -/
def execBurstCaptureDue (s : State) : Out :=
  match s.plan.burst with
  | none => s.done s
  | some b =>
    if decide (1 ≤ b.begun ∧ b.begun ≤ 2) && s.passed b.part (burstSpacing * b.begun) && !s.plan.burstRuns b.seq then
      s.react (s.beginBurstCapture b)
    else s.done s

/-! ### Sets and pages (R60, R62 to R66) -/

/-- The set of a capture is built: the freshness record and the counts, then the triggers, then the publication (R60). -/
def State.buildSet (s : State) (c : Capture) (b : Broadcast) : State :=
  let x := s.makeSet c b
  let r := s.actOnSet x
  (r.1.causesDue r.2).publish x

/-- SET_BUILT: the set whose hold ended first is built, when no set is being written (R60, R62). -/
def execSetBuilt (s : State) : Out :=
  match s.plan.nextBuild with
  | none => s.done s
  | some c =>
    match c.bcast with
    | none => s.done s
    | some bc => s.react (s.buildSet c bc)

/-- PAGE_WRITE_END (R64, R65). -/
def execPageWriteEnd (s : State) : Out :=
  match s.plan.writing with
  | none => s.done s
  | some w => s.react (s.endPageWrite w)

end Sys2Proof.Machine
end

