-- ==== Sys2Proof/Machine/Port.lean ====
section
/-! DEFINITION. The meanings of the memory link's commands and of the note takings (chapter 9): HOST_WORD_WRITE to
WAKE_LINK, and POST to UNKNOWN_KIND. -/

namespace Sys2Proof.Machine

/-! ### The memory link (R169 to R171, R175) -/

/-- While a chunk buffer is absorbed, a word of it that the host writes over is remembered with what it held (R149,
log 13). -/
def Absorb.overwritten (m : Memory) (a : Nat) (x : Absorb) : Absorb :=
  if bufferAt x.buffer ≤ a ∧ a < bufferAt x.buffer + 4096 then { x with old := x.old ++ [(a, m.word a)] } else x

/-- The word of the memory that an address of the link names: its two lowest bits are disregarded (R168). -/
def wordAt (addr : BitVec 15) : Nat := 4 * (addr.toNat / 4)

/-- The power states in which an access of the link is a WAKE_LINK cause: DEEP, WAKING and PATROL (R115, R170). -/
def PowerState.asleep (p : PowerState) : Bool := !p.awake

/-- An access of the host that is not served: in DEEP, WAKING and PATROL it is a WAKE_LINK cause, whether a read, a write or a
write to NOTE (R115); none arises while RESET_N is asserted (R170). -/
def State.accessAsleep (s : State) : Out :=
  if s.power.state.asleep && !s.pins.resetN then s.react (s.wakeCause .link) else s.done s

/-- HOST_WORD_WRITE: on a served link the word is stored whole (R169, R170); otherwise it is not stored (R115). -/
def execHostWordWrite (addr : BitVec 15) (word : Word) (s : State) : Out :=
  if s.linkServed then
    let a := wordAt addr
    s.done { s with
      upd.absorbing := s.upd.absorbing.map (Absorb.overwritten s.mem a)
      mem := s.mem.store a (le 4 word.toNat) }
  else s.accessAsleep

/-- REGISTER_WRITE: disregarded (R168, R171), though an access as any other where the link is not served (R115). -/
def execRegisterWrite (_addr : BitVec 16) (_word : Word) (s : State) : Out := s.accessAsleep

/-- The note queue holds at most 8 notes (R175). -/
def noteRoom : Nat := 8

/-- NOTE: a word that arrives on a served link joins the queue, or is dropped with OVERRUN (R170, R175); otherwise it is not
stored, and does not join the queue (R110, R115). -/
def execNote (word : Word) (s : State) : Out :=
  if !s.linkServed then s.accessAsleep
  else if s.port.notes.length < noteRoom then s.done { s with port.notes := s.port.notes ++ [word] }
  else s.done (s.noteFault word .overrun)

/-- WAKE_LINK: a transaction's command byte, or a word that it reads, in DEEP, WAKING or PATROL is a WAKE_LINK cause (R115,
R170). -/
def execWakeLink (s : State) : Out := s.accessAsleep

/-! ### Transactions (R168) -/

/-- A transaction of the host: its command byte, its 16-bit byte address, the words that the host sends after it, and how many
words it reads. -/
structure Transaction where
  command : Byte
  addr : BitVec 16
  words : List Word
  reads : Nat
  deriving DecidableEq, Repr

/-- The address of the k-th word of a transaction: the two lowest bits are disregarded, each word advances it by 4, past
0x7FFC into the registers, and it does not wrap: no address stands for a word after 0xFFFC (R168). -/
def wordAddress (addr : BitVec 16) (k : Nat) : Option (BitVec 16) :=
  let a := 4 * (addr.toNat / 4) + 4 * k
  if a < 0x10000 then some (BitVec.ofNat 16 a) else none

/-- The command that a word written to an address is: a store into the memory, a note, or a write that is disregarded (R168,
R171). -/
def wordCommand (a : BitVec 16) (w : Word) : Instr :=
  if a.toNat < memSize then .hostWordWrite (a.setWidth 15) w
  else if a = 0x8004 then .note w
  else .registerWrite a w

/-- The commands of the words from the k-th on; a word after 0xFFFC is disregarded (R168), an access that stores nothing. -/
def wordCommands (addr : BitVec 16) : Nat → List Word → List Instr
  | _, [] => []
  | k, w :: l =>
    (match wordAddress addr k with
      | some a => wordCommand a w
      | none => .wakeLink) :: wordCommands addr (k + 1) l

/-- The commands of a transaction: the cause that its command byte may be (R170), then, for the write command 0xB2, its
words in order, and for the read command 0x4D an access for each word read, which may be a cause of its own (R115, log 88).
Any other command byte stores nothing and drives nothing (R168). -/
def Transaction.commands (x : Transaction) : List Instr :=
  .wakeLink :: (if x.command = 0xB2 then wordCommands x.addr 0 x.words
    else if x.command = 0x4D then List.replicate x.reads .wakeLink else [])

/-- The host makes a transaction: its commands join the queue. -/
def State.transact (s : State) (x : Transaction) : State := { s with pending := s.pending ++ x.commands }

/-- The word that the part drives as the k-th of a transaction, taken as the word begins: for the read command 0x4D what the
address reads, 0 after 0xFFFC on a served link; for any other command byte nothing (R168, R170). -/
def State.drives (s : State) (command : Byte) (addr : BitVec 16) (k : Nat) : Option Word :=
  if command = 0x4D then
    some (match wordAddress addr k with
      | some a => s.hostRead a
      | none => if s.linkServed then 0 else 0xFFFFFFFF)
  else none

/-! ### Taking a note (R176) -/

/-- The ten note kinds (12.1). -/
inductive NoteKind where
  | post | refresh | clear | setMask | levels | tables | hold | release | ackEvents | chunk
  deriving DecidableEq, Repr

/-- The note kind that a code names (12.1). -/
def noteKindOf (b : Byte) : Option NoteKind :=
  match b.toNat with
  | 1 => some .post
  | 2 => some .refresh
  | 3 => some .clear
  | 4 => some .setMask
  | 5 => some .levels
  | 6 => some .tables
  | 7 => some .hold
  | 8 => some .release
  | 9 => some .ackEvents
  | 10 => some .chunk
  | _ => none

/-- The arguments that each kind accepts (R176). -/
def NoteKind.accepts (k : NoteKind) (arg : BitVec 24) : Bool :=
  match k with
  | .post => decide (arg.toNat ≤ 7)
  | .refresh | .levels => decide (arg.toNat = 0)
  | .clear => decide (arg.toNat < 2 ^ 20)
  | .setMask | .tables | .hold | .release => decide (arg.toNat ≤ 3)
  | .ackEvents => true
  | .chunk => decide (arg.toNat ≤ 1)

/-- The oldest waiting note is taken, if it is of a kind: with an argument outside its kind's range it is discarded with
BAD_ARGUMENT, otherwise it is handed on (R176). A note of another kind is not this step's to take. -/
def State.takeNote (s : State) (k : NoteKind) (hand : Word → State → State) : State :=
  match s.port.notes with
  | [] => s
  | w :: l =>
    if noteKindOf (noteKind w) = some k then
      let t : State := { s with port.notes := l }
      if k.accepts (noteArg w) then hand w t else t.noteFault w .badArgument
    else s

/-- A TABLES note is taken by the step of its table; one with an argument that names no table is discarded by any of the
four (R176, R181). -/
def State.takeTables (s : State) (id : Nat) (hand : State → State) : State :=
  match s.port.notes with
  | [] => s
  | w :: _ =>
    if (noteArg w).toNat ≤ 3 ∧ (noteArg w).toNat ≠ id then s
    else s.takeNote .tables fun _ t => hand t

/-- POST: the named slot's slip is taken, or the note is discarded with SLOT_NOT_POSTED (R177, R178). -/
def execPost (s : State) : Out :=
  s.react (s.takeNote .post fun w t =>
    let slot := (noteArg w).toNat
    if t.posted slot then t.takeSlip slot else t.noteFault w .slotNotPosted)

/-- REFRESH: the silence count and the warning mark, and the lapsed mark, are cleared (R89 to R91). -/
def execRefresh (s : State) : Out :=
  s.done (s.takeNote .refresh fun _ t => { t.clearSilence with sup.lapsed := false })

/-- CLEAR (R185). -/
def execClear (s : State) : Out :=
  s.done (s.takeNote .clear fun w t => t.clearFactors ((noteArg w).setWidth 20))

/-- SET_MASK (R187). -/
def execSetMask (s : State) : Out :=
  s.done (s.takeNote .setMask fun w t => t.setMaskLevel (noteArg w).toNat)

/-- LEVELS (R186). -/
def execLevels (s : State) : Out := s.done (s.takeNote .levels fun _ t => t.readLevels)

/-! ### Standing tables (R38, R116, R138, R16) -/

/-- The plan table is clamped and taken; it governs due times from the next millisecond (R38). -/
def State.takePlanTable (s : State) : State :=
  let r := readPlans s.mem
  State.tableStatus { s with plan.plans := r.1 } 0 .note (takenOutcome r.2) r.2

/-- TABLES for the plan table (R38, R181). -/
def execTablesPlanTable (s : State) : Out := s.done (s.takeTables 0 State.takePlanTable)

/-- The limit table is clamped and taken, and the values in force are computed (R138, R139). -/
def State.takeLimitTable (s : State) : State :=
  let r := readLimitTable s.mem
  let s1 := State.computeInForce { s with store.taken := r.1, store.rangeClamps := r.2 }
  let c := limitClamps s1.store.rangeClamps s1.store.hardClamps
  s1.tableStatus 1 .note (takenOutcome c) c

/-- TABLES for the limit table (R138, R181). -/
def execTablesLimitTable (s : State) : Out := s.done (s.takeTables 1 State.takeLimitTable)

/-- The wake table is clamped and taken (R116). Inputs that are asserted already are not judged anew by the new levels
(log 97). -/
def State.takeWakeTable (s : State) : State :=
  let r := readWakeTable s.mem
  State.tableStatus { s with power.wakeTable := r.1 } 2 .note (takenOutcome r.2) r.2

/-- TABLES for the wake table (R116, R181). -/
def execTablesWakeTable (s : State) : Out := s.done (s.takeTables 2 State.takeWakeTable)

/-- The configured set of a module map as the host gives it (1.4). -/
def hostSet (l : List HostModule) : List (Bool × Nat × Nat) := l.map fun h => (h.configured, h.cells, h.sensors)

/-- The working entries that a taken map leaves (R16). -/
def takeModules : List HostModule → List ModuleEntry → List ModuleEntry
  | h :: hs, e :: es => h.take e :: takeModules hs es
  | _, es => es

/-- Whether an address's part of the configured set differs between two maps. -/
def setMoved (old new : List ModuleEntry) (a : Nat) : Bool :=
  match atAddr old a, atAddr new a with
  | some o, some n => !(decide (o.configured = n.configured) && decide (o.cells = n.cells) && decide (o.sensors = n.sensors))
  | _, _ => false

/-- A distribution record that is SENDING or SENT notes that a map changed its address (R156, R161). -/
def DistRec.noteMove (old new : List ModuleEntry) (d : DistRec) : DistRec :=
  match d.state with
  | .sending | .sent => { d with moved := d.moved || setMoved old new d.addr }
  | .pending | .failed | .switched | .rollback => d

/-- A module map is taken (R16, R18, R50, R156, R161). That a handed-back module whose address it changes becomes ABSENT, and that
its return ECHOs then end, is the model's choice (log 107). -/
def State.setModules (s : State) (l : List HostModule) : State :=
  let old := s.chain.map
  let new := takeModules l old
  let s1 : State := { s with
    chain.map := new
    chain.returning := s.chain.returning.filter fun r => !setMoved old new r.1
    plan.kept := discardKept old new s.plan.kept
    upd.dist := s.upd.dist.map (DistRec.noteMove old new) }
  if configuredSet old = configuredSet new then s1 else s1.requestSurvey

/-- The outcome of a module map before it is taken (R16, steps 2 and 3). -/
def State.mapRefusal (s : State) (l : List HostModule) : Option TableOutcome :=
  let t := mapTotals l
  if 256 < t.1 ∨ 64 < t.2 then some .refusedTotals
  else if hostSet l = configuredSet s.chain.map then none
  else if s.sup.state ≠ .open_ then some .refusedContactors
  else if s.upd.state = .switching then some .refusedUpdate
  else none

/-- The module map is clamped, then refused or taken whole (R16, R137). -/
def State.takeModuleMap (s : State) : State :=
  let r := readModules s.mem s.store.active
  match s.mapRefusal r.1 with
  | some o => s.tableStatus 3 .note o r.2
  | none => (s.setModules r.1).tableStatus 3 .note (takenOutcome r.2) r.2

/-- TABLES for the module map (R16, R181). -/
def execTablesModuleMap (s : State) : Out := s.react (s.takeTables 3 State.takeModuleMap)

/-! ### HOLD and RELEASE (R67, R68) -/

/-- Whether a page is being written (R64, R67). -/
def Planner.writes (p : Planner) (page : Nat) : Bool :=
  match p.writing with
  | none => false
  | some w => decide (w.page = page)

/-- The effect of HOLD on a page (R67). -/
def Page.hold (written : Bool) (p : Page) : Page :=
  if p.held || p.pending then p else if written then { p with pending := true } else { p with held := true }

/-- The effect of RELEASE on a page (R68). -/
def Page.release (p : Page) : Page := { p with held := false, pending := false }

/-- HOLD (R67). -/
def execHold (s : State) : Out :=
  s.done (s.takeNote .hold fun w t =>
    { t with plan.pages := modifyAt t.plan.pages (noteArg w).toNat (Page.hold (t.plan.writes (noteArg w).toNat)) })

/-- RELEASE (R68). -/
def execRelease (s : State) : Out :=
  s.done (s.takeNote .release fun w t =>
    { t with plan.pages := modifyAt t.plan.pages (noteArg w).toNat Page.release })

/-! ### ACK_EVENTS, CHUNK and unknown kinds (R103, R148, R176) -/

/-- ACK_EVENTS: the record and every older one are marked, or NO_SUCH_SEQUENCE is recorded (R103). -/
def execAckEvents (s : State) : Out :=
  s.done (s.takeNote .ackEvents fun w t =>
    match t.ackUpTo (noteArg w).toNat with
    | some u => u
    | none => t.noteFault w .noSuchSequence)

/-- The buffer that a CHUNK argument names (12.1). -/
def bufferOf (arg : BitVec 24) : Buffer := if arg.toNat = 0 then .a else .b

/-- The engine acts on the buffer's state at the CHUNK note (R148). -/
def State.chunkNote (s : State) (buf : Buffer) : State :=
  let st := bufferState s.mem buf
  if st = BufferState.filled.code then
    if s.upd.waiting.contains buf then s else { s with upd.waiting := s.upd.waiting ++ [buf] }
  else if st = BufferState.taking.code then s
  else s.reject buf (s.mem.num (descriptorAt buf + 8) 2) .notFilled

/-- CHUNK (R148). -/
def execChunk (s : State) : Out := s.done (s.takeNote .chunk fun w t => t.chunkNote (bufferOf (noteArg w)))

/-- UNKNOWN_KIND: a note whose kind is none of the ten is taken and discarded (R174, R176). -/
def execUnknownKind (s : State) : Out :=
  s.done (match s.port.notes with
    | [] => s
    | w :: l =>
      match noteKindOf (noteKind w) with
      | some _ => s
      | none => State.noteFault { s with port.notes := l } w .unknownKind)

end Sys2Proof.Machine
end

