-- ==== Sys2Proof/Machine/PowerSteps.lean ====
section
/-! DEFINITION. The meanings of the power controller's steps (chapter 6): the wake inputs and sources, the sleep entry's
limits, the steps of WAKING, WAKE_OUT. -/

namespace Sys2Proof.Machine

/-! ### The wake inputs (R113, R114) -/

/-- WAKE_LINE: the vehicle wake input is asserted; within its watching period that is a cause (R113, R114). -/
def execWakeLine (s : State) : Out :=
  let t : State := { s with pins.wakeLine := true }
  if t.power.state.watched then t.react (t.wakeCause .line) else s.done t

/-- WAKE_CHAIN: the chain alert input is asserted; while the chain is ASLEEP outside RUN that is a cause (R9, R113, R114). -/
def execWakeChain (s : State) : Out :=
  let t : State := { s with pins.chainAlert := true }
  if t.power.state.watched && decide (t.chain.state = .asleep) then t.react (t.wakeCause .chain) else s.done t

/-- VEHICLE_WAKE_INPUT_DEASSERTED: the cause no longer holds as a level; a pending flag stays (R113, R114). -/
def execVehicleWakeInputDeasserted (s : State) : Out := s.done { s with pins.wakeLine := false }

/-- CHAIN_ALERT_DEASSERTED: the cause no longer holds as a level; a pending flag stays (R113, R114). -/
def execChainAlertDeasserted (s : State) : Out := s.done { s with pins.chainAlert := false }

/-! ### The patrol timer and the sleep-current comparator (R114, R115) -/

/-- WAKE_TIMER: the patrol timer has reached 0 in DEEP; it makes its cause and stops (R114). -/
def execWakeTimer (s : State) : Out :=
  if decide (s.power.state = .deep) && s.power.timerRunning && decide (s.power.timer = 0) then
    s.react (State.wakeCause { s with power.timerRunning := false } .timer)
  else s.done s

/-- The run of the sleep-current comparator that makes a cause, in ms (R115). -/
def currentRun : Nat := 1000

/-- WAKE_CURRENT: the comparator's run has reached 1000 ms; it makes one cause and holds (R115). -/
def execWakeCurrent (s : State) : Out :=
  if !s.conv.scanning && s.power.state.watched && decide (currentRun ≤ s.power.compRun) && !s.power.compFired then
    s.react (State.wakeCause { s with power.compFired := true } .current)
  else s.done s

/-! ### Sleep entry (R109, R110) -/

/-- The limit of the wait for the snapshot write, in ms (R109). -/
def snapshotWait : Nat := 250

/-- Whether the snapshot request of the entry waits, its write not begun (R109). -/
def Store.entryWaits (t : Store) : Bool := t.queue.any fun q => q.who.contains .entry

/-- SNAPSHOT_WAIT_LIMIT: the request whose write has not begun is withdrawn, and the outcome is SKIPPED (R109).
That a timer's request which waited first and which it joined goes with it is the model's choice (log 104). -/
def execSnapshotWaitLimit (s : State) : Out :=
  match s.power.entry with
  | none => s.done s
  | some e =>
    if decide (e.step = 3) && s.passed e.requestAt snapshotWait && s.store.entryWaits then
      s.react ((s.withdrawWrites fun q => q.who.contains .entry).endSnapshotStep .skipped)
    else s.done s

/-- DEEP_ENTRY: with the chain ASLEEP and the note queue empty, the converter is stopped, the SLEEP slip completes OK and
the power state becomes DEEP (R108, R110). -/
def execDeepEntry (s : State) : Out :=
  match s.power.entry with
  | none => s.done s
  | some e =>
    if e.step = 5 ∧ s.port.notes = [] then s.react (s.enterDeep e.slot) else s.done s

/-! ### WAKING (R118) -/

/-- The settle of WAKING, in ms (R118). -/
def wakingSettle : Nat := 2

/-- WAKING_SETTLE_END: the converter is given the start command and the chain controller the wake command (R118). -/
def execWakingSettleEnd (s : State) : Out :=
  if decide (s.power.state = .waking) && !s.power.settled && s.passed s.power.settleAt wakingSettle then
    s.react (State.wakeChain (State.startConverter { s with power.settled := true }))
  else s.done s

/-- The module wake time, in ms (R9). -/
def moduleWakeTime : Nat := 5

/-- The chain controller reads the wake target: UP for a patrol, a survey with origin ASLEEP for RUN (R9, R118). WAKING ends
with it, or later where the wake leaves room for a cause that comes between the two (R119, log 76). After a cancelled sleep
entry the target is RUN (R111). -/
def State.endModuleWake (s : State) (gap : Bool) : State :=
  let t : State := { s with chain.wake := .none }
  match t.power.state, t.power.target with
  | .waking, .run => t.beginSurvey.enterRun none
  | .waking, _ => if gap then t.enterUp else t.enterUp.enterPatrol
  | _, _ => t.beginSurvey

/-- MODULE_WAKE_TIME_END: the target is read 5 ms after the tone; WAKING that has outlasted the reading ends (R9, R118). -/
def execModuleWakeTimeEnd (s : State) : Out :=
  match s.chain.wake with
  | .settle since gap => if s.passed since moduleWakeTime then s.react (s.endModuleWake gap) else s.done s
  | .none => if decide (s.power.state = .waking) && s.power.settled then s.react s.enterPatrol else s.done s
  | .tone _ => s.done s

/-- The length of the WAKE_OUT pulse, in ms (R120). -/
def wakeOutTime : Nat := 10

/-- WAKE_OUT_END (R120). -/
def execWakeOutEnd (s : State) : Out :=
  if s.power.wakeOut && s.passed s.power.wakeOutAt wakeOutTime then s.done { s with power.wakeOut := false }
  else s.done s

end Sys2Proof.Machine
end

