-- ==== Sys2Proof/Machine/Resets.lean ====
section
/-! DEFINITION. The two resets and the release of RESET_N: POWER_ON, RESET_LINE, RESET_N_RELEASED (R183 and the reset rule of
each chapter). -/

namespace Sys2Proof.Machine

/-! ### What each block takes at a reset -/

/-- `n` entries alike. -/
def copies {α : Type} : Nat → α → List α
  | 0, _ => []
  | n + 1, x => x :: copies n x

/-- The chain controller: the first survey runs, with origin DOWN (R4, R5, R13, R15, R22, R24); the wake tone of the reset is
on the line, ahead of the survey's first ECHO (R126, R127). -/
def chainAtReset (map : List ModuleEntry) : Chain :=
  { state := .surveying
    origin := .down
    wasDown := true
    downSince := 0
    errs := []
    suspectSince := 0
    periodStart := 0
    periodErrs := 0
    capTag := 1
    exTag := 1
    survey := copies 24 absentEntry
    present := 0
    configured := 0
    breakLoc := 0
    map := map
    hold := some (.survey 1 false)
    line := .idle
    lastSent := none
    requests := []
    sleepCmd := false
    wakeAfterSleep := false
    wake := .none
    resetTone := true
    surveyTimer := none
    firstUp := false
    surveySlip := none
    balance := none
    returning := [] }

/-- The pack converter (R36, R37); the counter and its marks are given. -/
def convAtReset (charge : Int) (sat restored : Bool) (record : Nat) : Conv :=
  { scanning := true
    us := 0
    part := 0
    lastLatch := 0
    latched := none
    history := []
    charge := charge
    chargeSat := sat
    restored := restored
    unsampled := 0
    estimate := none
    snapTimer := 0
    recNumber := record }

/-- An empty unheld page (R69). -/
def emptyPageEntry : Page := ⟨0, false, false⟩

/-- The capture planner (R39, R57, R60, R61, R69). -/
def planAtReset (plans : List Plan) (seq : Nat) : Planner :=
  { plans := plans
    inForce := plans
    dueDone := copies 8 false
    overrun := copies 8 false
    captures := []
    burst := none
    kept := copies 24 none
    high := 0
    low := 0
    temp := 0
    implausible := 0
    fresh := none
    setSeq := seq
    pages := copies 4 emptyPageEntry
    pageAge := []
    writing := none
    latest := none
    quiet := false
    patrolReport := none }

/-- A coil that is off with no report to come. -/
def coilOff : Coil := ⟨false, 0, 0⟩

/-- The cleared once-settable settings (R92). -/
def onceCleared : Once := ⟨false, 0, true, false⟩

/-- The contactor supervisor (R74, R93). -/
def supAtReset (once : Once) : Sup :=
  { state := .lockedOut
    waiting := true
    mainNeg := coilOff
    precharge := coilOff
    mainPos := coilOff
    inrush := none
    lowSupply := false
    close := none
    settleAt := 0
    opening := none
    weld := none
    clear := none
    deferral := none
    hardRun := 0
    hardFell := false
    hardDue := false
    faultedSince := none
    lossHeld := false
    lossDue := false
    silence := 0
    warn := false
    lapsed := false
    once := once }

/-- The default wake table (R116). -/
def defaultWakeTable : WakeTable := ⟨1, 2, 2, 2, 2, 3600, 200⟩

/-- The power controller after POWER_ON (R126). -/
def powerAtPowerOn : Power :=
  { state := .run
    entry := none
    snapOutcome := .none
    wakeTable := defaultWakeTable
    pend := 0
    target := .none
    timer := 0
    timerRunning := false
    compRun := 0
    compFired := false
    settleAt := 0
    settled := false
    patrol := none
    nextSlot := 0
    lastNumber := 0
    estimate := .noAverage
    lastWake := none
    returning := none
    lastReset := .powerOn
    resetCount := 0
    wakeOut := false
    wakeOutAt := 0 }

/-- The power controller after RESET_LINE (R127). -/
def powerAtResetLine (p : Power) : Power :=
  { powerAtPowerOn with
    snapOutcome := p.snapOutcome
    wakeTable := p.wakeTable
    nextSlot := p.nextSlot
    lastNumber := p.lastNumber
    lastWake := p.lastWake
    lastReset := .resetLine
    resetCount := bump 65535 p.resetCount }

/-- The working copies from POWER_ON to the end of the start-up read (log 12). -/
def workAtReset : Working :=
  { marker := some .a
    floor := 0
    fwFloors := copies 8 0
    key := .empty
    wearNeg := 0
    wearPos := 0
    lockout := ⟨false, 0, 0, 0⟩
    snapshot := none }

/-- The settings store after POWER_ON (R133, R138, R144). -/
def storeAtPowerOn (nv : Nv) : Store :=
  { nv := nv
    work := workAtReset
    queue := []
    running := none
    startUp := true
    active := factoryLimits
    activeBank := none
    activeVersion := 0
    clampCount := 0
    outcome := .markedBank
    faultCause := none
    faultItem := none
    faultCount := 0
    lost := 0
    taken := limitDefaults
    inForce := insideHard factoryLimits limitDefaults
    rangeClamps := []
    hardClamps := []
    keySlip := none }

/-- The settings store after RESET_LINE (R133, R138, R144). The working copies stand until the start-up read reads them
afresh; what they, the active bank and its version show until then is the model's choice (log 12). -/
def storeAtResetLine (t : Store) (nv : Nv) : Store :=
  let f := insideHard factoryLimits t.taken
  { t with
    nv := nv
    queue := []
    running := none
    startUp := true
    active := factoryLimits
    inForce := f
    hardClamps := changedFields 0 t.taken.toList f.toList
    keySlip := none }

/-- The update engine after POWER_ON (R166). -/
def updAtPowerOn : Update :=
  { state := .idle
    slip := none
    aborts := []
    header := ⟨.limitImage, 0, 0, 0, 0, []⟩
    staging := []
    expected := 0
    lastAcc := none
    runCrc := crc32Init
    absorbing := none
    waiting := []
    acc := 0
    dup := 0
    rej := 0
    dist := []
    turn := none
    link := .none
    pause := none
    switchPending := false
    commitReached := false
    floorWritten := false
    commit := .none
    bankWritten := none
    window := none
    aborting := false
    outcome := .none
    outcomeState := none
    watches := []
    checkAt := 0 }

/-- The update engine after RESET_LINE (R167). That the header and the bank written, which R167 does not name, are kept is the
model's choice (log 89). -/
def updAtResetLine (u : Update) : Update :=
  { updAtPowerOn with
    header := u.header
    dist := if u.state = .distributing then
        u.dist.map fun d => if d.state = .sending then { d with state := .failed, cause := some .reset } else d
      else u.dist
    switchPending := u.switchPending
    commitReached := u.commitReached
    floorWritten := u.floorWritten
    bankWritten := u.bankWritten
    outcome := if u.state = .idle then u.outcome else .resetDuring
    outcomeState := if u.state = .idle then u.outcomeState else some u.state }

/-- A table status entry that was never written (R183). -/
def unwrittenEntry : TableEntry := ⟨0, .note, .taken, 0, []⟩

/-! ### The records that every owner writes at a reset (R173) -/

/-- The survey result table and the module status mirror, all of them (R15). -/
def State.showTables (s : State) : State :=
  let a := s.showSurveyHeader.put (surveyAt 1) (s.chain.survey.flatMap surveyBytes)
  a.put (moduleAt 0) (s.chain.map.flatMap moduleBytes)

/-- The directory (R173) but for the store record, which is written at the end of the start-up read (R144). -/
def State.showDirectory (s : State) : State :=
  let a := s.put 0x00 [layoutRevision, 0, 0, 0]
  let a := a.put 0x04 (pointerBytes s.plan ++ countBytes s.plan ++ chainBytes s.chain ++ contactorBytes s.sup)
  let a := (a.showSilence.put 0x28 (fit 8 [])).showConverter
  let a := a.put 0x60 (powerBytes s.power)
  let a := a.put 0xB0 (updateWord s.upd ++ noteFaultBytes s.port)
  a.put 0x100 (le 4 s.attn.factors.toNat)

/-- The update status with the distribution records (R166, R167). -/
def State.showUpdate (s : State) : State :=
  (s.put 0x4820 (updateBytes s.upd)).put 0x4880 (distArea s.upd.dist)

/-- The header and trailer sequences of the four pages are 0 (R69). -/
def State.clearPages (s : State) : State :=
  [0, 1, 2, 3].foldl (fun s p => (s.put (pageAt p) (le 4 0)).put (pageAt p + 0x7FC) (le 4 0)) s

/-! ### POWER_ON (R183) -/

/-- The part after POWER_ON with given nonvolatile contents and pins: every block at its POWER_ON values, the memory zero
and then written by the owners. -/
def powerOnState (nv : Nv) (pins : Pins) (free : Nat) (pending : List Instr) : State :=
  let r := readModules [] factoryLimits
  let s : State :=
    { mem := []
      pins := pins
      port := ⟨[], copies 8 none, none, 0, copies 4 unwrittenEntry, 0⟩
      attn := ⟨0, 0, copies 6 0, 0, false⟩
      chain := chainAtReset (r.1.map HostModule.fresh)
      conv := convAtReset 0 false false 0
      plan := planAtReset (readPlans []).1 1
      sup := supAtReset onceCleared
      ev := ⟨copies 16 none, [], 1, [], []⟩
      power := powerAtPowerOn
      store := storeAtPowerOn nv
      upd := updAtPowerOn
      free := free
      pending := pending }
  (s.showDirectory.showTables.showUpdate).tableStatus 3 .reset (takenOutcome r.2) r.2

/-- POWER_ON: the supply rises (R183). The inputs keep their levels; RESET_N is not asserted. -/
def execPowerOn (cut : CutRead) (s : State) : Out :=
  .next (powerOnState (s.store.nvAfterReset cut) { s.pins with resetN := false } s.free s.pending)

/-! ### RESET_LINE (R183) -/

/-- The 8 slots: the key bytes of an INSTALL_KEY in flight are overwritten with zeros, then every state reads FREE (R141,
R183). -/
def State.freeSlots (s : State) : State :=
  let s1 := match s.store.keySlip with
    | none => s
    | some k => s.put (slotAt k + 8) (fit 32 [])
  [0, 1, 2, 3, 4, 5, 6, 7].foldl (fun s k => s.put (slotAt k) (le 4 0)) s1

/-- A descriptor whose state is FILLED or TAKING is given back REJECTED with cause NOT_RECEIVING (R150). -/
def State.resetBuffer (s : State) (buf : Buffer) : State :=
  let st := bufferState s.mem buf
  if st = 1 ∨ st = 2 then s.giveBack buf (s.mem.num (descriptorAt buf + 8) 2) .rejected (some .notReceiving) else s

/-- The attention unit after RESET_LINE: the enables and levels are reread, everything else is clear (R190). -/
def State.resetAttn (s : State) : State :=
  State.readLevels { s with attn := ⟨0, s.attn.enables, s.attn.levels, 0, false⟩ }

/-- Every block takes its RESET_LINE values; nothing is raised yet. -/
def State.resetBlocks (s : State) (cut : CutRead) : State :=
  let plans := readPlans s.mem
  let mods := readModules s.mem factoryLimits
  { s with
    pins.resetN := true
    port := ⟨[], copies 8 none, none, 0, s.port.tables, s.port.lastTable⟩
    chain := chainAtReset (mods.1.map HostModule.fresh)
    conv := convAtReset s.conv.charge s.conv.chargeSat s.conv.restored s.conv.recNumber
    plan := planAtReset plans.1 s.plan.setSeq
    sup := supAtReset s.sup.once
    ev := s.ev.reset.1
    power := powerAtResetLine s.power
    store := storeAtResetLine s.store (s.store.nvAfterReset cut)
    upd := updAtResetLine s.upd }

/-- RESET_LINE: RESET_N is asserted (R183). The supervisor's wait in LOCKED_OUT, whatever state it comes from, raises no
CONTACTOR_CHANGE (log 84). The plan table's status entry is written before the module map's (log 95). -/
def execResetLine (cut : CutRead) (s : State) : Out :=
  let s1 := (s.freeSlots).resetBlocks cut
  let s2 := s1.resetAttn.showDirectory.showTables.showUpdate.clearPages
  let s3 : State := { s2 with
    mem := mirrorEvents none 0 s.ev.slots s2.ev.slots (mirrorBlock 0x90 (storeBytes s.store) (storeBytes s2.store) s2.mem) }
  let plans := readPlans s.mem
  let mods := readModules s.mem factoryLimits
  let s4 := (s3.tableStatus 0 .reset (takenOutcome plans.2) plans.2).tableStatus 3 .reset (takenOutcome mods.2) mods.2
  let s5 := (s4.resetBuffer .a).resetBuffer .b
  let s6 := if s.upd.state = .idle then s5 else s5.raise .updateState
  .next (if s.ev.reset.2 then s6.raise .eventNew else s6)

/-- RESET_N is deasserted: the link is served again from this instant (R170). -/
def execResetNReleased (s : State) : Out := .next { s with pins.resetN := false }

end Sys2Proof.Machine
end

