-- ==== Sys2Proof/Machine/StoreSteps.lean ====
section
/-! DEFINITION. The meanings of the event recorder's step (chapter 5) and of the settings store's steps (chapter 7):
EVENT_TAKE, WRITE_BEGIN, WRITE_END, START_UP_READ_END. -/

namespace Sys2Proof.Machine

/-! ### EVENT_TAKE (R94) -/

/-- The event that is taken and those left: the oldest, or the one at a place among those sent together with it, the last of
them for a place beyond them (R94). -/
def pickEvent : Nat → List SentEvent → Option (SentEvent × List SentEvent)
  | _, [] => none
  | 0, e :: l => some (e, l)
  | n + 1, e :: l =>
    match l with
    | f :: _ =>
      if f.together then (pickEvent n l).map fun p => (p.1, e :: p.2) else some (e, l)
    | [] => some (e, [])

/-- A record of a windowed kind asks for a burst with its sequence and part time, once it is written (R42, R94). -/
def State.askForBurst (s : State) : State :=
  match (lastOf s.ev.age).bind s.ev.at with
  | none => s
  | some r => if r.kind.windowed then s.askBurst r.seq r.part else s

/-- EVENT_TAKE: the recorder takes an event sent to it (R94 to R98). -/
def execEventTake (pick : Nat) (s : State) : Out :=
  match pickEvent pick s.ev.inbox with
  | none => s.done s
  | some (e, l) => s.react (State.askForBurst (State.takeEvent { s with ev.inbox := l } e))

/-! ### Writes (R131, R132) -/

/-- WRITE_BEGIN (R131). -/
def execWriteBegin (s : State) : Out := s.done s.beginWrite

/-- A requester is told the outcome of the write that served its request (R34, R84, R109, R130, R141, R154, R163). -/
def State.told (s : State) (bank : BankId) (done : Bool) (who : Requester) : State :=
  match who with
  | .weldClear => s.lockoutCleared done
  | .entry => s.endSnapshotStep (if done then .written else .failed)
  | .engine => s.engineTold bank done
  | .keySlip => s.keyWritten done
  | .wear | .weldSet | .snapTimer | .startUp => s

/-- A marker write that succeeds makes the image of the bank it names active (R136). -/
def State.activate (s : State) (p : Payload) (done : Bool) : State :=
  match p, done with
  | .marker bk, true => s.loadBank bk .reclamp
  | _, _ => s

/-- The running write ends: the record or bank follows, and every requester it served is told (R130, R132, R136). -/
def State.endWrite (s : State) (r : Running) (matched : Bool) : State :=
  r.req.who.foldl (fun t w => t.told r.bank matched w) ((s.finishWrite r matched).activate r.req.payload matched)

/-- WRITE_END: a record write ends 5 ms and a bank write 40 ms after it begins; `matched` is the read back (R131, R132). -/
def execWriteEnd (matched : Bool) (s : State) : Out :=
  match s.store.running with
  | none => s.done s
  | some r =>
    if s.passed r.since r.req.payload.duration then s.react (s.endWrite r matched) else s.done s

/-! ### The start-up read (R74, R133) -/

/-- The length of the start-up read, in ms (R133). -/
def startUpTime : Nat := 2

/-- The supervisor leaves its wait by the lockout record; this first choice raises no CONTACTOR_CHANGE (R74). -/
def State.leaveWait (s : State) : State :=
  if s.store.work.lockout.set then State.raise { s with sup.waiting := false } .lockout
  else { s with sup.waiting := false, sup.state := .open_ }

/-- The end of the start-up read (R36, R74, R133, R144). -/
def State.endStartUp (s : State) : State :=
  let s1 := s.readStore.restoreCharge
  (s1.put 0x90 (storeBytes s1.store)).leaveWait

/-- START_UP_READ_END: 2 ms after the reset (R133). -/
def execStartUpReadEnd (s : State) : Out :=
  if s.store.startUp && s.passed 0 startUpTime then s.react s.endStartUp else s.done s

end Sys2Proof.Machine
end

