-- ==== Sys2Proof/Machine/SupSteps.lean ====
section
/-! DEFINITION. The meanings of the contactor supervisor's steps (chapter 4): coil reports, inrush, the steps of closing and
opening, weld windows, deferrals, causes that fall due, silence. -/

namespace Sys2Proof.Machine

/-! ### Coil reports (R71, R72) -/

/-- A part time has been reached (R30). -/
def reached (now t : Ms) : Bool := decide (elapsed now t < 2147483648)

/-- The spacing of a coil's reports after the first, in ms (R71). -/
def reportSpacing : Nat := 100

/-- A coil's report has been made: the next falls 100 ms later (R71). -/
def Coil.reported (c : Coil) : Coil := { c with nextReport := c.nextReport + BitVec.ofNat 32 reportSpacing }

/-- Change a coil. -/
def Sup.setCoil (p : Sup) (n : CoilName) (c : Coil) : Sup :=
  match n with
  | .mainNeg => { p with mainNeg := c }
  | .precharge => { p with precharge := c }
  | .mainPos => { p with mainPos := c }

/-- Whether a report of a coil falls due (R71). -/
def State.reportDue (s : State) (n : CoilName) : Bool := (s.sup.coil n).on && reached s.now (s.sup.coil n).nextReport

/-- A coil's report is taken: the time of the next one is set. -/
def State.takeReport (s : State) (n : CoilName) : State :=
  { s with sup := s.sup.setCoil n (s.sup.coil n).reported }

/-- A report below the coil minimum current is a fault (R71). -/
def State.faulty (s : State) (mA : Nat) : Bool := decide ((mA : Int) < s.store.active.coilMin)

/-- COIL_REPORT: a report that falls due is taken, with the report of a second coil at the same instant, if there is one;
each below the minimum is a coil fault, two together one fault (R71, R72). -/
def execCoilReport (coil : CoilName) (mA : Nat) (also : Option (CoilName × Nat)) (s : State) : Out :=
  let second := also.filter fun d => decide (d.1 ≠ coil) && s.reportDue d.1
  if s.reportDue coil then
    let t := match second with
      | none => s.takeReport coil
      | some d => (s.takeReport coil).takeReport d.1
    let bad := second.filter fun d => s.faulty d.2
    if s.faulty mA then s.react (t.coilFault coil mA bad)
    else
      match bad with
      | some d => s.react (t.coilFault d.1 d.2 none)
      | none => s.react t
  else s.done s

/-- INRUSH_END: 40 ms after the last energize (R73). -/
def execInrushEnd (s : State) : Out :=
  match s.sup.inrush with
  | none => s.done s
  | some t => if reached s.now t then s.done { s with sup.inrush := none } else s.done s

/-! ### Closing (R77, R78) -/

/-- The precharge timeout: MAIN_NEG and PRECHARGE are released, OPEN is entered, the CLOSE is refused, and a deferral ends
(R77, R81, R88). The precharge time 0 in the CLOSE's result fields is the model's choice (log 108). -/
def State.prechargeFails (s : State) (c : Close) : State :=
  let before := s.sup.coils
  let vl := s.newestLink
  let vb := s.newestBatt
  let causes := s.deferralCauses
  let length := s.deferralLength
  let s1 := (s.releaseNeg.releasePrecharge).drawn
  let s2 := State.toSup { s1 with sup.close := none, sup.deferral := none } .open_
  let s3 := s2.complete c.slot (.refuse .prechargeTimeout (closeFields 0 vl vb))
  s3.send ⟨.prechargeTimeout, 0, before, s3.sup.coils, .volts vl vb, causes, length, false, false, false⟩

/-- PRECHARGE_TIMEOUT (R77). -/
def execPrechargeTimeout (s : State) : Out :=
  match s.sup.state, s.sup.close with
  | .precharging, some c => if s.passed c.entered c.timeout then s.react (s.prechargeFails c) else s.done s
  | _, _ => s.done s

/-- The main settle, in ms (R78). -/
def mainSettle : Nat := 30

/-- The end of the main settle: PRECHARGE is released, CLOSED is entered, the CLOSE completes OK (R78). -/
def State.settled (s : State) (c : Close) : State :=
  let before := s.sup.coils
  let s1 := State.toSup { s.releasePrecharge with sup.close := none } .closed
  let s2 := s1.complete c.slot (.okWith (closeFields c.reachedMs c.vLink c.vBatt))
  s2.send ⟨.closedDone, 0, before, s2.sup.coils, .closedDone c.reachedMs c.vLink c.vBatt, [], none, false, false, false⟩

/-- MAIN_SETTLE_END (R78). -/
def execMainSettleEnd (s : State) : Out :=
  match s.sup.state, s.sup.close with
  | .closing, some c => if s.passed s.sup.settleAt mainSettle then s.react (s.settled c) else s.done s
  | _, _ => s.done s

/-! ### Opening and weld check (R80, R82, R88) -/

/-- The time between the steps of an opening, in ms (R80). -/
def openingStep : Nat := 20

/-- OPENING_SECOND_STEP (R80). -/
def execOpeningSecondStep (s : State) : Out :=
  match s.sup.opening with
  | none => s.done s
  | some o => if s.passed o.start openingStep then s.react s.endOpening else s.done s

/-- WELD_WINDOW_END: the newest sample is judged, or the next one if the history is empty (R82). -/
def execWeldWindowEnd (s : State) : Out :=
  match s.sup.weld with
  | none => s.done s
  | some w =>
    if !w.waitingSample && s.passed w.start w.length then
      match s.newest with
      | none => s.done { s with sup.weld := some { w with waitingSample := true } }
      | some x => s.react (s.judgeWeld w x)
    else s.done s

/-- DEFERRAL_LIMIT (R88). -/
def execDeferralLimit (s : State) : Out :=
  match s.sup.deferral with
  | none => s.done s
  | some d => if s.passed d.start d.limit then s.react s.endDeferral else s.done s

/-! ### Causes that fall due (R85, R86, R90) -/

/-- HARD_CURRENT: the run has reached N; the cause falls due once (R85). -/
def execHardCurrent (s : State) : Out :=
  if s.sup.hardDue then s.react (State.causeDue { s with sup.hardDue := false } ⟨.hardCurrent, 0, 0, 0, 0⟩) else s.done s

/-- CHAIN_LOSS: the condition has begun to hold; the cause falls due once (R86). -/
def execChainLoss (s : State) : Out :=
  if s.sup.lossDue then s.react (State.causeDue { s with sup.lossDue := false } s.lossCause) else s.done s

/-- The count has reached the limit of an armed timer and no warning stands (R90). -/
def State.warnDue (s : State) : Bool :=
  s.sup.armed && decide (s.sup.once.limit ≤ s.sup.silence) && !s.sup.warn

/-- SILENCE_WARN (R90). -/
def execSilenceWarn (s : State) : Out := if s.warnDue then s.done s.silenceWarning else s.done s

/-- SILENCE: the count has reached limit plus grace; the warning comes first if it has not come yet (R90). -/
def execSilence (s : State) : Out :=
  if s.sup.armed && decide (s.silenceEnd ≤ s.sup.silence) then
    let t := if s.warnDue then s.silenceWarning else s
    s.react t.silenceExpiry
  else s.done s

end Sys2Proof.Machine
end

