-- ==== Sys2Proof/Machine/UpdateSteps.lean ====
section
/-! DEFINITION. The meanings of the update engine's steps (chapter 8): ABSORPTION_START, ABSORPTION_END, CHECK_END,
CHAIN_PAUSE_LIMIT, SWITCH_PROBE, SWITCH_WINDOW_END, RETURN_LIMIT. -/

namespace Sys2Proof.Machine

/-- ABSORPTION_START (R149). -/
def execAbsorptionStart (s : State) : Out := s.done s.absorbNext

/-- The length of an absorption, in ms (R149). -/
def absorptionTime : Nat := 1

/-- ABSORPTION_END (R149). -/
def execAbsorptionEnd (s : State) : Out :=
  match s.upd.absorbing with
  | none => s.done s
  | some x => if s.passed x.since absorptionTime then s.done (s.endAbsorption x) else s.done s

/-- The check passed: the state becomes VERIFIED and the UPDATE_CHECK completes OK (R152). -/
def State.verified (s : State) : State :=
  let s1 := State.toUpd { s with upd.slip := none } .verified
  match s.upd.slip with
  | none => s1
  | some (_, slot) => s1.complete slot (.okWith s1.upd.fields)

/-- What staging reads back as, where some of its bytes read back otherwise than they were written (R151). -/
def rereadStaging (staging : List Byte) (places : List Nat) (bytes : List Byte) : List Byte :=
  (places.zip bytes).foldl (fun l f => setAt l f.1 f.2) staging

/-- The store's check unit on an image: it passes or fails it under the installed key and the tag of the header (R140, R151);
by what function the rules do not say (log 92). -/
def checkUnit (key : KeySlot) (h : Header) (image : List Byte) : Bool :=
  match key with
  | .present k => Config.checkUnit k h.target.code h.kind h.version h.length image h.tag
  | .empty | .faulted => false

/-- The outcome of the check, from whether the CRC-32 of the reread equals the running one and from the check unit's answer
(R152). -/
def State.endCheck (s : State) (rereadEqual pass : Bool) : State :=
  if !rereadEqual then s.endUpdate .stagingFault .refused (some .stagingFault)
  else if pass then s.verified
  else s.endUpdate .tagFail .refused (some .tagFail)

/-- CHECK_END: the check's time has passed. The bytes that staging reads back go to the check unit, and their CRC-32 is
computed again and compared with the running one (R151, R152). -/
def execCheckEnd (places : List Nat) (bytes : List Byte) (s : State) : Out :=
  if decide (s.upd.state = .checking) && s.passed s.upd.checkAt (checkTime s.upd.header.length) then
    let image := rereadStaging s.upd.staging places bytes
    s.done (s.endCheck (decide (crc32On crc32Init image = s.upd.runCrc)) (checkUnit s.store.work.key s.upd.header image))
  else s.done s

/-- The limit of a chain pause and of a return watch, in ms (R159, R162). -/
def tenSeconds : Nat := 10000

/-- CHAIN_PAUSE_LIMIT (R159, R161). -/
def execChainPauseLimit (s : State) : Out :=
  match s.upd.pause with
  | none => s.done s
  | some t => if s.passed t tenSeconds then s.react s.pauseLimit else s.done s

/-- The spacing of probes, their number and the length of a switch window (R161). -/
def probeSpacing : Nat := 200
@[inherit_doc probeSpacing] def probeCount : Nat := 9
@[inherit_doc probeSpacing] def switchWindow : Nat := 2000

/-- SWITCH_PROBE: a probe ECHO is requested every 200 ms within the window, at most 9 (R161). -/
def execSwitchProbe (s : State) : Out :=
  match s.upd.window with
  | none => s.done s
  | some w =>
    if decide (w.probes < probeCount) && s.passed w.since (probeSpacing * (w.probes + 1))
        && !s.passed w.since switchWindow then
      s.react (State.request { s with upd.window := some { w with probes := w.probes + 1 } } (.firmware .probe))
    else s.done s

/-- SWITCH_WINDOW_END: the window ends without the new version: ROLLBACK (R161). -/
def execSwitchWindowEnd (s : State) : Out :=
  match s.upd.window, s.upd.current with
  | some w, some (t, d) => if s.passed w.since switchWindow then s.react (s.rollBack w t d) else s.done s
  | _, _ => s.done s

/-- RETURN_LIMIT: the return watch of an address has run 10,000 ms; the module returns to IN_SERVICE (R162). -/
def execReturnLimit (addr : Nat) (s : State) : Out :=
  match s.upd.watches.find? fun w => decide (w.1 = addr) with
  | none => s.done s
  | some (_, t) =>
    if s.passed t tenSeconds then
      s.react (State.backInService { s with upd.watches := s.upd.watches.filter fun w => decide (w.1 ≠ addr) } addr)
    else s.done s

end Sys2Proof.Machine
end

