-- ==== Sys2Proof/Machine/Dispatch.lean ====
section
/-! DEFINITION. The meaning of every command: one arm for each row of spec/opcode_table.json. -/

namespace Sys2Proof.Machine

def exec (i : Instr) (s : State) : Host.Outcome State Fault Refusal :=
  match i with
  | .powerOn cut => Sys2Proof.Machine.execPowerOn cut s
  | .resetLine cut => Sys2Proof.Machine.execResetLine cut s
  | .hostWordWrite addr word => Sys2Proof.Machine.execHostWordWrite addr word s
  | .registerWrite addr word => Sys2Proof.Machine.execRegisterWrite addr word s
  | .note word => Sys2Proof.Machine.execNote word s
  | .wakeLink => Sys2Proof.Machine.execWakeLink s
  | .post => Sys2Proof.Machine.execPost s
  | .refresh => Sys2Proof.Machine.execRefresh s
  | .clear => Sys2Proof.Machine.execClear s
  | .setMask => Sys2Proof.Machine.execSetMask s
  | .levels => Sys2Proof.Machine.execLevels s
  | .tablesPlanTable => Sys2Proof.Machine.execTablesPlanTable s
  | .tablesLimitTable => Sys2Proof.Machine.execTablesLimitTable s
  | .tablesWakeTable => Sys2Proof.Machine.execTablesWakeTable s
  | .tablesModuleMap => Sys2Proof.Machine.execTablesModuleMap s
  | .hold => Sys2Proof.Machine.execHold s
  | .release => Sys2Proof.Machine.execRelease s
  | .ackEvents => Sys2Proof.Machine.execAckEvents s
  | .chunk => Sys2Proof.Machine.execChunk s
  | .unknownKind => Sys2Proof.Machine.execUnknownKind s
  | .wakeLine => Sys2Proof.Machine.execWakeLine s
  | .wakeChain => Sys2Proof.Machine.execWakeChain s
  | .captureSent us => Sys2Proof.Machine.execCaptureSent us s
  | .pauseSent us => Sys2Proof.Machine.execPauseSent us s
  | .frameSent us => Sys2Proof.Machine.execFrameSent us s
  | .sleepBroadcast us => Sys2Proof.Machine.execSleepBroadcast us s
  | .balancingStopSent us => Sys2Proof.Machine.execBalancingStopSent us s
  | .reply arrival addr tag codes status version err => Sys2Proof.Machine.execReply arrival addr tag codes status version err s
  | .echoBack us addr roundTrip kind cells sensors version err => Sys2Proof.Machine.execEchoBack us addr roundTrip kind cells sensors version err s
  | .configReply arrival addr tag status version err => Sys2Proof.Machine.execConfigReply arrival addr tag status version err s
  | .blockAck arrival addr index toggle crc16 err => Sys2Proof.Machine.execBlockAck arrival addr index toggle crc16 err s
  | .replyTimeout us => Sys2Proof.Machine.execReplyTimeout us s
  | .characterGap us => Sys2Proof.Machine.execCharacterGap us s
  | .strayCharacters us => Sys2Proof.Machine.execStrayCharacters us s
  | .suspectPeriodEnd => Sys2Proof.Machine.execSuspectPeriodEnd s
  | .chainLossHold => Sys2Proof.Machine.execChainLossHold s
  | .autoSurveyTimer => Sys2Proof.Machine.execAutoSurveyTimer s
  | .conversionWaitEnd us => Sys2Proof.Machine.execConversionWaitEnd us s
  | .wakeToneEnd tone => Sys2Proof.Machine.execWakeToneEnd tone s
  | .moduleWakeTimeEnd => Sys2Proof.Machine.execModuleWakeTimeEnd s
  | .returnProbe addr => Sys2Proof.Machine.execReturnProbe addr s
  | .balancingEnd addr => Sys2Proof.Machine.execBalancingEnd addr s
  | .sampleLatch readings => Sys2Proof.Machine.execSampleLatch readings s
  | .sampleComplete => Sys2Proof.Machine.execSampleComplete s
  | .partTimeTick shunt => Sys2Proof.Machine.execPartTimeTick shunt s
  | .snapshotTimer => Sys2Proof.Machine.execSnapshotTimer s
  | .planDue index => Sys2Proof.Machine.execPlanDue index s
  | .pauseWaitEnd index => Sys2Proof.Machine.execPauseWaitEnd index s
  | .burstCaptureDue => Sys2Proof.Machine.execBurstCaptureDue s
  | .setBuilt => Sys2Proof.Machine.execSetBuilt s
  | .pageWriteEnd => Sys2Proof.Machine.execPageWriteEnd s
  | .coilReport coil mA also => Sys2Proof.Machine.execCoilReport coil mA also s
  | .inrushEnd => Sys2Proof.Machine.execInrushEnd s
  | .prechargeTimeout => Sys2Proof.Machine.execPrechargeTimeout s
  | .mainSettleEnd => Sys2Proof.Machine.execMainSettleEnd s
  | .openingSecondStep => Sys2Proof.Machine.execOpeningSecondStep s
  | .weldWindowEnd => Sys2Proof.Machine.execWeldWindowEnd s
  | .deferralLimit => Sys2Proof.Machine.execDeferralLimit s
  | .hardCurrent => Sys2Proof.Machine.execHardCurrent s
  | .chainLoss => Sys2Proof.Machine.execChainLoss s
  | .silenceWarn => Sys2Proof.Machine.execSilenceWarn s
  | .silence => Sys2Proof.Machine.execSilence s
  | .eventTake pick => Sys2Proof.Machine.execEventTake pick s
  | .snapshotWaitLimit => Sys2Proof.Machine.execSnapshotWaitLimit s
  | .deepEntry => Sys2Proof.Machine.execDeepEntry s
  | .wakeTimer => Sys2Proof.Machine.execWakeTimer s
  | .wakeCurrent => Sys2Proof.Machine.execWakeCurrent s
  | .wakingSettleEnd => Sys2Proof.Machine.execWakingSettleEnd s
  | .wakeOutEnd => Sys2Proof.Machine.execWakeOutEnd s
  | .writeBegin => Sys2Proof.Machine.execWriteBegin s
  | .writeEnd matched => Sys2Proof.Machine.execWriteEnd matched s
  | .startUpReadEnd => Sys2Proof.Machine.execStartUpReadEnd s
  | .absorptionStart => Sys2Proof.Machine.execAbsorptionStart s
  | .absorptionEnd => Sys2Proof.Machine.execAbsorptionEnd s
  | .checkEnd places bytes => Sys2Proof.Machine.execCheckEnd places bytes s
  | .chainPauseLimit => Sys2Proof.Machine.execChainPauseLimit s
  | .switchProbe => Sys2Proof.Machine.execSwitchProbe s
  | .switchWindowEnd => Sys2Proof.Machine.execSwitchWindowEnd s
  | .returnLimit addr => Sys2Proof.Machine.execReturnLimit addr s
  | .resetNReleased => Sys2Proof.Machine.execResetNReleased s
  | .vehicleWakeInputDeasserted => Sys2Proof.Machine.execVehicleWakeInputDeasserted s
  | .chainAlertDeasserted => Sys2Proof.Machine.execChainAlertDeasserted s

end Sys2Proof.Machine
end

