-- ==== Sys2Proof/Safety.lean ====
section
/-! DEFINITION. The terms in which claims speak of the part: a command that completes, the invariants that every step keeps,
a part without work that goes on by itself, and what the reactions within a step never change. -/

namespace Sys2Proof.Machine

/-! ### Completion -/

/-- A command completes at a state, with a next state of a property. -/
def Goes (c : Instr) (s : State) (p : State → Prop) : Prop := ∃ t, exec c s = .next t ∧ p t

/-! ### Invariants -/

/-- The exchange memory is in its canonical form (log 8). -/
def State.canonical (s : State) : Prop := s.mem.wf = true

/-- ATTN is asserted exactly while its condition holds (R188). -/
def State.attnRight (s : State) : Prop := s.attn.line = attnCondition s.power.state s.attn

/-- Queues and levels keep their bounds: 8 notes (R175), 64 samples (R27), two filling windows (R98), levels up to 3
(R186, R187). -/
def State.bounded (s : State) : Prop :=
  s.port.notes.length ≤ 8 ∧ s.conv.history.length ≤ 64 ∧ s.ev.filling.length ≤ 2 ∧ (∀ l ∈ s.attn.levels, l ≤ 3)
    ∧ s.attn.mask ≤ 3

/-- What the end of every step sees to: a faulted-since time exactly while the map holds a FAULTED module (R86); while surge
holds, SURGE stands on every record whose window fills (R98) and on the capture that holds the chain after its broadcast
(R54); the events of the step have been sent (R94). -/
def State.calm (s : State) : Prop :=
  s.sup.faultedSince.isSome = anyFaulted s.chain.map
    ∧ (s.sup.surge = true → ∀ k ∈ s.ev.filling, ∀ r, s.ev.at k = some r → r.surge = true)
    ∧ (s.sup.surge = true → ∀ c ∈ s.plan.captures, c.holding = true → c.tb.isSome = true → c.surge = true)
    ∧ ∀ e ∈ s.ev.inbox, e.fresh = false

/-- The part has 8 slots, 4 table status entries, 24 addresses in the survey table, the working map and the kept readings, 4
sample pages, 16 event slots and 32 entries of the patrol log; an INSTALL_KEY in flight stands in one of the slots. -/
def State.shaped (s : State) : Prop :=
  s.port.slots.length = 8 ∧ s.port.tables.length = 4 ∧ s.chain.survey.length = 24 ∧ s.chain.map.length = 24
    ∧ s.plan.kept.length = 24 ∧ s.plan.pages.length = 4 ∧ s.ev.slots.length = 16
    ∧ (∀ k, s.store.keySlip = some k → k < 8) ∧ s.power.nextSlot ≤ 31

/-- A slip is in flight in a slot. -/
def State.inFlight (s : State) (k : Nat) : Prop := k ≤ 7 ∧ ∃ c, getAt s.port.slots k = some (some c)

/-- The slots of the slips that the blocks record as theirs: CLOSE, CLEAR_LOCKOUT, the OPENs of an opening, SURVEY, BALANCE,
CAPTURE_NOW, INSTALL_KEY, UPDATE_CHECK or UPDATE_APPLY, the UPDATE_ABORTs that wait, and SLEEP. -/
def State.slips (s : State) : List Nat :=
  (s.sup.close.map (·.slot)).toList ++ (s.sup.clear.map (·.slot)).toList ++ (s.sup.opening.map (·.slots)).getD []
    ++ s.chain.surveySlip.toList ++ (s.chain.balance.map (·.slot)).toList ++ s.plan.captures.filterMap (·.slot)
    ++ s.store.keySlip.toList ++ (s.upd.slip.map (·.2)).toList ++ s.upd.aborts ++ (s.power.entry.map (·.slot)).toList

/-- Each slip that a block records is in flight in its slot, and no slot is recorded twice (R178, R179). -/
def State.slipsRight (s : State) : Prop := s.slips.Nodup ∧ ∀ k ∈ s.slips, s.inFlight k

/-- The coils that each state of the supervisor energizes (4.2). -/
def SupState.rightCoils : SupState → Coils
  | .open_ | .weldCheck | .lockedOut => ⟨false, false, false⟩
  | .precharging => ⟨true, true, false⟩
  | .closing => ⟨true, true, true⟩
  | .closed => ⟨true, false, true⟩
  | .opening => ⟨true, false, false⟩

/-- The contactor supervisor agrees with itself, with the power controller, with the store's start-up read and with the
update engine: what the laws of R70 and R153 rest on. -/
structure State.Lawful (s : State) : Prop where
  coils : s.sup.coils = s.sup.state.rightCoils
  asleep : s.power.state ≠ .run → s.sup.state = .open_
  update : s.upd.state = .committing ∨ s.upd.state = .switching → s.sup.state = .open_ ∨ s.sup.state = .lockedOut
  opening : s.sup.opening.isSome = true ↔ s.sup.state = .opening
  close : s.sup.close.isSome = true → s.sup.state = .precharging ∨ s.sup.state = .closing
  weld : ∀ w, s.sup.weld = some w → w.forClear = false → s.sup.state = .weldCheck
  clear : s.sup.clear.isSome = true → s.sup.state = .lockedOut
  deferral : s.sup.deferral.isSome = true → s.sup.state.isClosing = true
  startUp : s.store.startUp = true → s.sup.waiting = true
  waiting : s.sup.waiting = true → s.sup.state = .lockedOut ∧ s.sup.clear = none
  entry : s.power.entry.isSome = true ↔ s.power.state = .enteringDeep
  patrol : s.power.patrol.isSome = true → s.power.state = .patrol
  returning : s.power.returning.isSome = true → s.power.state = .patrol ∧ s.power.patrol = none
  notes : s.power.state.awake = false → s.port.notes = []

/-! ### A part without work that goes on by itself -/

/-- No sleep entry, patrol or return to DEEP is in progress. -/
def State.awake (s : State) : Prop := s.power.entry = none ∧ s.power.patrol = none ∧ s.power.returning = none

/-- The chain is held in UP, SUSPECT or a survey that did not begin in DOWN: a request waits, whoever makes it. -/
def Chain.occupied (c : Chain) : Prop := c.hold.isSome = true ∧ c.down = false ∧ c.state ≠ .asleep

/-- No block has work that goes on by itself within a step: no burst, no distribution or chain pause of the update engine; a
sleep entry waits for its snapshot, for the chain or for its last step, a patrol for its capture, a return to DEEP for the chain. -/
def State.resting (s : State) : Prop :=
  s.plan.burst = none ∧ s.upd.pause = none ∧ s.upd.state ≠ .distributing
    ∧ (∀ e, s.power.entry = some e → e.step = 3 ∨ e.step = 5 ∨ e.step = 4 ∧ s.chain.state ≠ .asleep)
    ∧ (∀ p, s.power.patrol = some p → p.judged = none ∧ s.plan.patrolReport = none)
    ∧ (∀ r, s.power.returning = some r → s.chain.state ≠ .asleep)

/-- Nothing waits that could react within a step: every block rests, and no request waits for the chain, or the chain is
held. -/
def State.restful (s : State) : Prop := s.resting ∧ (s.chain.requests = [] ∨ s.chain.occupied)

/-! ### What a next state shares with the state before -/

/-- The bytes of memory outside a range read as before. -/
def State.sameOutside (s t : State) (lo hi : Nat) : Prop :=
  ∀ a, a < lo ∨ hi ≤ a → Memory.read t.mem a = Memory.read s.mem a

/-- The bytes of memory outside the ranges of a list read as before. -/
def State.sameBut (s t : State) (ranges : List (Nat × Nat)) : Prop :=
  ∀ a, (∀ r ∈ ranges, a < r.1 ∨ r.2 ≤ a) → Memory.read t.mem a = Memory.read s.mem a

/-! The records of chapter 12 that the part rewrites as its state changes, as ranges of memory. -/

/-- The pointer and the latest page (12.2). -/
def pointerRec : Nat × Nat := (0x04, 0x0C)
/-- The breach and implausible counts. -/
def countRec : Nat × Nat := (0x0C, 0x10)
/-- The chain record. -/
def chainRec : Nat × Nat := (0x10, 0x14)
/-- The contactor record but for the silence count. -/
def contactorRec : Nat × Nat := (0x14, 0x24)
/-- The last two words of the contactor record, which no field occupies; they are written with the whole record (log 60). -/
def contactorTail : Nat × Nat := (0x28, 0x30)
/-- The silence count. -/
def silenceRec : Nat × Nat := (0x24, 0x28)
/-- The converter record. -/
def converterRec : Nat × Nat := (0x30, 0x60)
/-- The power record. -/
def powerRec : Nat × Nat := (0x60, 0x90)
/-- The store record. -/
def storeRec : Nat × Nat := (0x90, 0xB0)
/-- The update word. -/
def updateRec : Nat × Nat := (0xB0, 0xB4)
/-- The last note fault. -/
def noteFaultRec : Nat × Nat := (0xB4, 0xBC)
/-- The status entry of a table. -/
def entryRec (id : Nat) : Nat × Nat := (tableAt id, tableAt id + 16)
/-- The word that holds the last table id. -/
def lastTableRec : Nat × Nat := (0xFC, 0x100)
/-- The factor word. -/
def factorRec : Nat × Nat := (0x100, 0x104)
/-- A slot of the slip area. -/
def slotRec (k : Nat) : Nat × Nat := (slotAt k, slotAt k + 64)
/-- The slots of the slip area. -/
def slotsRec : Nat × Nat := (0x200, 0x400)
/-- The survey result table. -/
def surveyRec : Nat × Nat := (0x1000, 0x1190)
/-- The module status mirror. -/
def mapRec : Nat × Nat := (0x1200, 0x1380)
/-- The event area. -/
def eventRec : Nat × Nat := (0x1800, 0x2800)
/-- The chunk descriptors. -/
def chunkRec : Nat × Nat := (0x4800, 0x4820)
/-- The update status and the distribution records. -/
def statusRec : Nat × Nat := (0x4820, 0x4940)

/-- A slot reads DONE with a result code and a cause (0 for none), its slip is not in flight, and SLIP_DONE is pending. -/
def State.showsDone (t : State) (k code cause : Nat) : Prop :=
  t.mem.num (slotAt k) 4 = 3 ∧ t.mem.num (slotAt k + 48) 1 = code ∧ t.mem.num (slotAt k + 49) 1 = cause
    ∧ getAt t.port.slots k = some none ∧ t.attn.pending .slipDone = true

/-- The update of a state has ended in another with an outcome; the engine's slip that was in flight has completed with a
result code and a cause. -/
def State.updateEnds (t s : State) (o : UpdOutcome) (code cause : Nat) : Prop :=
  t.upd.state = .idle ∧ t.upd.outcome = o ∧ t.upd.outcomeState = some s.upd.state ∧ t.upd.staging = [] ∧ t.upd.slip = none
    ∧ t.upd.aborts = [] ∧ t.attn.pending .updateState = true
    ∧ ∀ q k, s.upd.slip = some (q, k) → k ∉ s.upd.aborts → s.inFlight k → t.showsDone k code cause

/-- A patrol has been logged in the next slot, with the next number: its result (1 PASS, 2 BREACH, 3 CHAIN_FAIL), the
breached limits as bits, the attempts, the promotion and the part time. -/
def State.logged (t s : State) (result breached attempts : Nat) (promoted : Bool) : Prop :=
  t.power.lastNumber = (if s.power.lastNumber < 65535 then s.power.lastNumber + 1 else 1)
    ∧ t.power.nextSlot = (if s.power.nextSlot < 31 then s.power.nextSlot + 1 else 0)
    ∧ t.mem.num (patrolAt s.power.nextSlot) 2 = t.power.lastNumber
    ∧ t.mem.num (patrolAt s.power.nextSlot + 2) 1 = result + 4 * breached + 64 * attempts
    ∧ (t.mem.read (patrolAt s.power.nextSlot + 3)).getLsbD 0 = promoted
    ∧ t.mem.num (patrolAt s.power.nextSlot + 0x10) 4 = s.now.toNat

/-- The blocks that a step of another block leaves alone, whatever reacts to it within the step: the port but for completed
slips, the levels, the store but for its queue, the pages, the clock, and what the update engine has intaken. -/
def State.sameAround (s t : State) : Prop :=
  t.port.notes = s.port.notes ∧ t.port.fault = s.port.fault ∧ t.port.faultCount = s.port.faultCount
    ∧ t.port.tables = s.port.tables ∧ t.port.lastTable = s.port.lastTable
    ∧ t.attn.enables = s.attn.enables ∧ t.attn.levels = s.attn.levels ∧ t.attn.mask = s.attn.mask
    ∧ t.store = { s.store with queue := t.store.queue }
    ∧ t.plan.plans = s.plan.plans ∧ t.plan.inForce = s.plan.inForce ∧ t.plan.kept = s.plan.kept
    ∧ t.plan.setSeq = s.plan.setSeq ∧ t.plan.pages = s.plan.pages ∧ t.plan.pageAge = s.plan.pageAge
    ∧ t.plan.writing = s.plan.writing ∧ t.plan.latest = s.plan.latest
    ∧ t.conv.part = s.conv.part ∧ t.pins = s.pins ∧ t.power.wakeTable = s.power.wakeTable
    ∧ t.power.lastReset = s.power.lastReset ∧ t.power.resetCount = s.power.resetCount
    ∧ t.upd.header = s.upd.header ∧ t.upd.expected = s.upd.expected ∧ t.upd.lastAcc = s.upd.lastAcc
    ∧ t.upd.runCrc = s.upd.runCrc ∧ t.upd.acc = s.upd.acc ∧ t.upd.dup = s.upd.dup
    ∧ t.upd.waiting = s.upd.waiting

/-- The contactor supervisor's state, coils, openings, weld window, deferral and settings. -/
def State.sameContactors (s t : State) : Prop :=
  t.sup.state = s.sup.state ∧ t.sup.coils = s.sup.coils ∧ t.sup.mainNeg = s.sup.mainNeg
    ∧ t.sup.precharge = s.sup.precharge ∧ t.sup.mainPos = s.sup.mainPos ∧ t.sup.close = s.sup.close
    ∧ t.sup.opening = s.sup.opening ∧ t.sup.weld = s.sup.weld ∧ t.sup.clear = s.sup.clear
    ∧ t.sup.deferral = s.sup.deferral ∧ t.sup.once = s.sup.once

end Sys2Proof.Machine
end

