-- ==== Sys2Proof/Certificates/Slice0/Obligations.lean ====
section
/-! DEFINITION. The statements for the provers: what each command does, what every step keeps, what the resets leave. Each
is a closed proposition; OBLIGATIONS.json lists them with the rules they state. -/

open Sys2Proof Sys2Proof.Machine

/-! ### The queue, and what every step keeps -/

/-- A step carries out the command at the front of the queue, on the state with the queue's rest. On an empty queue the
part idles: the model's choice, log 27. -/
def Obligations.StepRunsFrontCommand : Prop :=
  (∀ (c : Instr) (rest : List Instr) (s : State),
    s.pending = c :: rest → step s = exec c { s with pending := rest })
  ∧ (∀ s : State, s.pending = [] → step s = .next s)

/-- No command stops the part: every one answers a next state, whatever the state and the operands. That none has a fault
is read from the spec (log 7). -/
def Obligations.NoCommandStops : Prop :=
  ∀ (c : Instr) (s : State), ∃ t, exec c s = .next t

/-- The machine right after reset meets every invariant below. The starting state is the model's choice (log 1, 2). -/
def Obligations.ResetMeetsInvariants : Prop :=
  State.reset.canonical ∧ State.reset.attnRight ∧ State.reset.bounded ∧ State.reset.calm ∧ State.reset.shaped
    ∧ State.reset.Lawful ∧ State.reset.slipsRight

/-- Every step keeps the canonical form of the exchange memory (the model's form of it, log 8). -/
def Obligations.StepKeepsCanonicalMemory : Prop :=
  ∀ s t : State, s.canonical → step s = .next t → t.canonical

/-- Every step keeps ATTN equal to its condition (R188). The premise Lawful, which StepKeepsContactorLaws keeps, says among
other things that no note waits in DEEP, WAKING and PATROL (R110), so that no sleep entry begins there. -/
def Obligations.StepKeepsAttnCondition : Prop :=
  ∀ s t : State, s.attnRight → s.Lawful → step s = .next t → t.attnRight

/-- Every step keeps the bounds of the note queue (R175), the history (R27), the filling windows (R98) and the levels
(R186, R187). -/
def Obligations.StepKeepsBounds : Prop :=
  ∀ s t : State, s.bounded → step s = .next t → t.bounded

/-- Every step keeps a faulted-since time exactly while the working map holds a FAULTED module (R86), the SURGE marks of
filling windows (R98) and of the capture that holds the chain (R54) as the surge state has them. The last clause, that no
event of the queue of events sent is marked as sent in the running step, is about a field of the model's own (log 11). -/
def Obligations.StepKeepsSurgeMarks : Prop :=
  ∀ s t : State, s.calm → step s = .next t → t.calm

/-- Every step keeps the numbers of slots, tables, addresses, pages, event slots and patrol log entries that the part has, and
it keeps every slip that a block records as its own in flight in its slot, each slot recorded once (R178, R179). -/
def Obligations.StepKeepsShape : Prop :=
  (∀ s t : State, s.shaped → step s = .next t → t.shaped)
  ∧ (∀ s t : State, s.slipsRight → step s = .next t → t.slipsRight)

/-- After the SET_ONCE that sets them, the once-settable settings keep their values at every step but a POWER_ON (the
law of R92). -/
def Obligations.StepKeepsOnceSettings : Prop :=
  ∀ s t : State, s.sup.once.set = true → (∀ cut l, s.pending ≠ .powerOn cut :: l) → step s = .next t →
    t.sup.once = s.sup.once

/-- The coil laws of R70 and the supervisor's half of the law of R153 hold after every step from a state in which the
supervisor agrees with itself and with its surroundings, and every step keeps that agreement: MAIN_POS is energized
only with MAIN_NEG; PRECHARGE and MAIN_POS together only in CLOSING; no coil while the power state is not RUN;
COMMITTING and SWITCHING only while the supervisor is OPEN or LOCKED_OUT. -/
def Obligations.StepKeepsContactorLaws : Prop :=
  ∀ s t : State, s.Lawful → step s = .next t →
    t.Lawful
      ∧ (t.sup.mainPos.on = true → t.sup.mainNeg.on = true)
      ∧ (t.sup.precharge.on = true → t.sup.mainPos.on = true → t.sup.state = .closing)
      ∧ (t.power.state ≠ .run → t.sup.coils = ⟨false, false, false⟩)
      ∧ (t.upd.state = .committing ∨ t.upd.state = .switching →
          t.sup.state = .open_ ∨ t.sup.state = .lockedOut)

/-! ### The memory link and the note queue -/

/-- A word that the host writes on a served link is stored whole; every other byte and every block stays. While the link is
not served, words written are not stored, no note arrives, and each such access is what WAKE_LINK is (WakeCauses); with
RESET_N asserted, or where the part is awake, WAKE_LINK changes nothing. A register write on a served link is disregarded.
What a write does to a running absorption is the model's choice (log 13). A transaction begins with a WAKE_LINK. With command
0xB2 the commands of its words follow in their order and nothing else, at an address that advances by 4 and does not wrap: a
store below 0x8000, a note at 0x8004, a register write that is disregarded at the other addresses up to 0xFFFC, and a
WAKE_LINK, which stores nothing, after it; with 0x4D a WAKE_LINK for each word read (that each word is an access of its own
is read from the spec, log 88), any other nothing more. With command 0x4D the part drives what the address reads, 0 after
0xFFFC, all ones while the link is not served, and for any other command nothing. NOTE reads 0. SUMMARY reads, as at the
read, ATTN, the power state, the supervisor state, the number of notes waiting, and the level and the rank of the holding
factor: the pending, enabled factor of the highest level and, of those, the lowest rank; none if no factor is pending and
enabled; that its bits 15 and 20 to 31, which no field has, read 0 is the model's choice (log 105). That a transaction is
these commands is the model's form of it (log 58). -/
def Obligations.HostWrites : Prop :=
  (∀ (addr : BitVec 15) (word : Word) (s : State), s.canonical → s.calm → s.linkServed = true →
    Goes (.hostWordWrite addr word) s fun t =>
      (∀ k, k < 4 → Memory.read t.mem (wordAt addr + k) = BitVec.ofNat 8 (word.toNat / 256 ^ k))
        ∧ s.sameOutside t (wordAt addr) (wordAt addr + 4)
        ∧ t = { s with mem := t.mem, upd.absorbing := t.upd.absorbing })
  ∧ (∀ (a : BitVec 16) (b : BitVec 15) (w : Word) (s : State), s.calm →
    (s.linkServed = true → exec (.registerWrite a w) s = .next s)
      ∧ (s.linkServed = false → exec (.registerWrite a w) s = exec .wakeLink s
          ∧ exec (.hostWordWrite b w) s = exec .wakeLink s ∧ exec (.note w) s = exec .wakeLink s)
      ∧ (s.pins.resetN = true ∨ s.power.state.awake = true → exec .wakeLink s = .next s))
  ∧ (∀ (addr : BitVec 16) (words : List Word) (reads : Nat) (cs : List Instr),
    cs = Transaction.commands ⟨0xB2, addr, words, reads⟩ →
      cs.length = words.length + 1 ∧ getAt cs 0 = some .wakeLink
      ∧ (∀ (k a : Nat) (w : Word), getAt words k = some w → a = 4 * (addr.toNat / 4) + 4 * k →
          getAt cs (k + 1) = some (if a < 0x8000 then .hostWordWrite (BitVec.ofNat 15 a) w
            else if a = 0x8004 then .note w
            else if a < 0x10000 then .registerWrite (BitVec.ofNat 16 a) w
            else .wakeLink)))
  ∧ (∀ (command : Byte) (addr : BitVec 16) (words : List Word) (reads k a : Nat) (s : State),
    a = 4 * (addr.toNat / 4) + 4 * k →
      Transaction.commands ⟨0x4D, addr, words, reads⟩ = List.replicate (reads + 1) .wakeLink
      ∧ (command ≠ 0xB2 → command ≠ 0x4D → Transaction.commands ⟨command, addr, words, reads⟩ = [.wakeLink])
      ∧ (command ≠ 0x4D → s.drives command addr k = none)
      ∧ (s.linkServed = false → s.drives 0x4D addr k = some 0xFFFFFFFF)
      ∧ (s.linkServed = true → a < 0x8000 → s.drives 0x4D addr k = some (s.mem.word a))
      ∧ (s.linkServed = true → a = 0x8000 → s.drives 0x4D addr k = some 0x01012C24)
      ∧ (s.linkServed = true → a = 0x8004 → s.drives 0x4D addr k = some 0)
      ∧ (s.linkServed = true → 0x800C ≤ a → s.drives 0x4D addr k = some 0)
      ∧ (s.linkServed = true → s.bounded → a = 0x8008 → ∃ w : Word, s.drives 0x4D addr k = some w
          ∧ w.getLsbD 0 = s.attn.line ∧ w.toNat / 512 % 8 = s.power.state.code ∧ w.toNat / 4096 % 16 = s.sup.state.code
          ∧ w.toNat / 65536 = s.port.notes.length
          ∧ ((∀ f : Factor, s.attn.pending f = true → s.attn.enabled f = false) → w.toNat / 2 % 256 = 0)
          ∧ (∀ f : Factor, s.attn.pending f = true → s.attn.enabled f = true →
              (∀ g : Factor, s.attn.pending g = true → s.attn.enabled g = true →
                s.attn.level g < s.attn.level f ∨ s.attn.level g = s.attn.level f ∧ f.rank ≤ g.rank) →
              w.toNat / 2 % 2 = 1 ∧ w.toNat / 4 % 4 = s.attn.level f ∧ w.toNat / 16 % 32 = f.rank)))

/-- A note that arrives on a served link with fewer than 8 notes waiting joins the queue at the newest end, and nothing
else changes. A note that finds 8 waiting is dropped with OVERRUN: its kind, argument and the cause are the last note
fault, the count advances, held at 65535, and NOTE_FAULT is pending. -/
def Obligations.NoteArrives : Prop :=
  (∀ (w : Word) (s : State), s.calm → s.linkServed = true → s.port.notes.length < 8 →
    exec (.note w) s = .next { s with port.notes := s.port.notes ++ [w] })
  ∧ (∀ (w : Word) (s : State), s.canonical → s.calm → s.linkServed = true → 8 ≤ s.port.notes.length →
    Goes (.note w) s fun t =>
      t.port = { s.port with
        fault := some ⟨noteKind w, noteArg w, .overrun⟩
        faultCount := bump 65535 s.port.faultCount }
        ∧ t.attn.pending .noteFault = true
        ∧ t = { s with port := t.port, attn := t.attn, mem := t.mem }
        ∧ (∀ a, (a < 0xB4 ∨ 0xBC ≤ a) → (a < 0x100 ∨ 0x104 ≤ a) →
            Memory.read t.mem a = Memory.read s.mem a))

/-- The command that takes a note of a kind; a TABLES note has one for each table id, of which the plan table's is named
here. -/
def noteCommand : NoteKind → Instr
  | .post => .post
  | .refresh => .refresh
  | .clear => .clear
  | .setMask => .setMask
  | .levels => .levels
  | .tables => .tablesPlanTable
  | .hold => .hold
  | .release => .release
  | .ackEvents => .ackEvents
  | .chunk => .chunk

/-- A note whose argument lies outside the range of its kind leaves the queue, is recorded with BAD_ARGUMENT, and is
handed to nobody. A note of none of the ten kinds is taken and discarded with UNKNOWN_KIND. -/
def Obligations.DiscardedNotes : Prop :=
  (∀ (k : NoteKind) (w : Word) (rest : List Word) (s : State), s.canonical → s.calm → s.restful → s.port.notes = w :: rest →
    noteKindOf (noteKind w) = some k → k.accepts (noteArg w) = false →
    Goes (noteCommand k) s fun t =>
      t = { s with
          port.notes := rest
          port.fault := some ⟨noteKind w, noteArg w, .badArgument⟩
          port.faultCount := bump 65535 s.port.faultCount
          attn := t.attn
          mem := t.mem }
        ∧ t.attn.pending .noteFault = true ∧ s.sameBut t [noteFaultRec, factorRec])
  ∧ (∀ (w : Word) (rest : List Word) (s : State), s.canonical → s.calm → s.port.notes = w :: rest →
    noteKindOf (noteKind w) = none →
    Goes .unknownKind s fun t =>
      t = { s with
          port.notes := rest
          port.fault := some ⟨noteKind w, noteArg w, .unknownKind⟩
          port.faultCount := bump 65535 s.port.faultCount
          attn := t.attn
          mem := t.mem }
        ∧ t.attn.pending .noteFault = true ∧ s.sameBut t [noteFaultRec, factorRec])

/-- SET_MASK sets the mask level and LEVELS reads the enables and the six levels, a level above 3 taken as 3; each judges
ATTN again and changes nothing else. A REFRESH note sets the silence count to 0 and clears the warning mark and the
lapsed mark; of the memory only the contactor record may be rewritten. -/
def Obligations.MaskLevelsAndRefreshNotes : Prop :=
  (∀ (w : Word) (rest : List Word) (s : State), s.calm → s.port.notes = w :: rest →
    (noteKindOf (noteKind w) = some .setMask → (noteArg w).toNat ≤ 3 →
      Goes .setMask s fun t =>
        t.attn.mask = (noteArg w).toNat ∧ t.attn.factors = s.attn.factors ∧ t.attn.enables = s.attn.enables
          ∧ t.attn.levels = s.attn.levels ∧ t.attnRight
          ∧ t = { s with port.notes := rest, attn := t.attn })
    ∧ (noteKindOf (noteKind w) = some .levels → (noteArg w).toNat = 0 →
      Goes .levels s fun t =>
        t.attn.enables = BitVec.ofNat 20 (s.mem.num 0x104 4)
          ∧ t.attn.levels = (s.mem.readBytes 0x108 6).map (fun b => min b.toNat 3)
          ∧ t.attn.factors = s.attn.factors ∧ t.attn.mask = s.attn.mask ∧ t.attnRight
          ∧ t = { s with port.notes := rest, attn := t.attn }))
  ∧ (∀ (w : Word) (rest : List Word) (s : State), s.canonical → s.calm → s.port.notes = w :: rest →
    noteKindOf (noteKind w) = some .refresh → (noteArg w).toNat = 0 →
    Goes .refresh s fun t =>
      t = { s with
        port.notes := rest
        sup.silence := 0
        sup.warn := false
        sup.lapsed := false
        mem := t.mem }
        ∧ s.sameOutside t 0x14 0x24)

/-- CLEAR makes every factor of its mask clear and no other, rewrites the factor word, judges ATTN again, and making a
pending CHAIN_STATE clear clears the "was down since last clear" mark. -/
def Obligations.ClearNote : Prop :=
  ∀ (w : Word) (rest : List Word) (s : State), s.canonical → s.calm → s.port.notes = w :: rest →
    noteKindOf (noteKind w) = some .clear → (noteArg w).toNat < 2 ^ 20 →
    Goes .clear s fun t =>
      (∀ f : Factor, t.attn.pending f = (s.attn.pending f && !(noteArg w).getLsbD f.bit))
        ∧ t.attnRight ∧ t.attn.enables = s.attn.enables ∧ t.attn.levels = s.attn.levels ∧ t.attn.mask = s.attn.mask
        ∧ t.chain = { s.chain with wasDown :=
            s.chain.wasDown && !((noteArg w).getLsbD Factor.chainState.bit && s.attn.pending .chainState) }
        ∧ t.mem.num 0x100 4 = t.attn.factors.toNat
        ∧ t = { s with port.notes := rest, attn := t.attn, chain := t.chain, mem := t.mem }
        ∧ (∀ a, (a < 0x10 ∨ 0x14 ≤ a) → (a < 0x100 ∨ 0x104 ≤ a) → Memory.read t.mem a = Memory.read s.mem a)

/-! ### Notes handed to the supervisor, the planner, the recorder and the update engine -/

/-- The effect of HOLD by the page's state: a page that is held or has a pending hold is unchanged, one being written gets
a pending hold, any other is held at once; no other page and nothing else changes. RELEASE clears the hold mark and
the pending hold of its page and changes nothing else. -/
def Obligations.HoldAndReleaseNotes : Prop :=
  (∀ (w : Word) (rest : List Word) (s : State) (q : Page), s.calm → s.port.notes = w :: rest →
    noteKindOf (noteKind w) = some .hold → (noteArg w).toNat ≤ 3 → getAt s.plan.pages (noteArg w).toNat = some q →
    Goes .hold s fun t =>
      t = { s with port.notes := rest, plan.pages := t.plan.pages }
        ∧ (q.held = true ∨ q.pending = true → t.plan.pages = s.plan.pages)
        ∧ (q.held = false → q.pending = false → s.plan.writes (noteArg w).toNat = true →
            getAt t.plan.pages (noteArg w).toNat = some { q with pending := true })
        ∧ (q.held = false → q.pending = false → s.plan.writes (noteArg w).toNat = false →
            getAt t.plan.pages (noteArg w).toNat = some { q with held := true })
        ∧ ∀ j, j ≠ (noteArg w).toNat → getAt t.plan.pages j = getAt s.plan.pages j)
  ∧ (∀ (w : Word) (rest : List Word) (s : State) (q : Page), s.calm → s.port.notes = w :: rest →
    noteKindOf (noteKind w) = some .release → (noteArg w).toNat ≤ 3 →
    getAt s.plan.pages (noteArg w).toNat = some q →
    Goes .release s fun t =>
      t = { s with port.notes := rest, plan.pages := t.plan.pages }
        ∧ getAt t.plan.pages (noteArg w).toNat = some { q with held := false, pending := false }
        ∧ ∀ j, j ≠ (noteArg w).toNat → getAt t.plan.pages j = getAt s.plan.pages j)

/-- ACK_EVENTS sets ACKED on the record with its sequence and on every older one, and changes no other field of a record
and nothing else; without such a record it changes nothing and NO_SUCH_SEQUENCE is recorded. -/
def Obligations.AckEventsNote : Prop :=
  ∀ (w : Word) (rest : List Word) (s : State), s.canonical → s.calm → s.shaped → s.port.notes = w :: rest →
    noteKindOf (noteKind w) = some .ackEvents →
    (∀ k, slotWhere (fun r => decide (r.seq = (noteArg w).toNat)) 0 s.ev.slots = some k →
      Goes .ackEvents s fun t =>
        (∀ j, t.ev.at j = (s.ev.at j).map fun r => if j ∈ upTo k s.ev.age then { r with acked := true } else r)
          ∧ t = { s with port.notes := rest, ev.slots := t.ev.slots, mem := t.mem }
          ∧ s.sameOutside t 0x1800 0x2800)
    ∧ (slotWhere (fun r => decide (r.seq = (noteArg w).toNat)) 0 s.ev.slots = none →
      Goes .ackEvents s fun t =>
        t = { s with
            port.notes := rest
            port.fault := some ⟨noteKind w, noteArg w, .noSuchSequence⟩
            port.faultCount := bump 65535 s.port.faultCount
            attn := t.attn
            mem := t.mem }
          ∧ t.attn.pending .noteFault = true ∧ s.sameBut t [noteFaultRec, factorRec])

/-- A CHUNK note acts on the buffer's state: a FILLED buffer joins the waiting ones once, a TAKING one goes on, and one
in another of the five states is given back REJECTED with cause NOT_FILLED and the rejected count advanced. That a state
word of none of the five (5 to 255) is treated so too is read from the spec (log 55). -/
def Obligations.ChunkNote : Prop :=
  ∀ (w : Word) (rest : List Word) (s : State), s.canonical → s.calm → s.port.notes = w :: rest →
    noteKindOf (noteKind w) = some .chunk → (noteArg w).toNat ≤ 1 →
    (bufferState s.mem (bufferOf (noteArg w)) = 1 → s.upd.waiting.contains (bufferOf (noteArg w)) = false →
      exec .chunk s = .next { s with
        port.notes := rest
        upd.waiting := s.upd.waiting ++ [bufferOf (noteArg w)] })
    ∧ (bufferState s.mem (bufferOf (noteArg w)) = 1 → s.upd.waiting.contains (bufferOf (noteArg w)) = true →
      exec .chunk s = .next { s with port.notes := rest })
    ∧ (bufferState s.mem (bufferOf (noteArg w)) = 2 → exec .chunk s = .next { s with port.notes := rest })
    ∧ (bufferState s.mem (bufferOf (noteArg w)) ≠ 1 → bufferState s.mem (bufferOf (noteArg w)) ≠ 2 →
      Goes .chunk s fun t =>
        bufferState t.mem (bufferOf (noteArg w)) = 4
          ∧ t.mem.num (descriptorAt (bufferOf (noteArg w)) + 10) 1 = 5
          ∧ t.attn.pending .updateState = true
          ∧ t = { s with
              port.notes := rest
              upd.rej := bump 65535 s.upd.rej
              attn := t.attn
              mem := t.mem }
          ∧ (∀ a, (a < 0x100 ∨ 0x104 ≤ a) → (a < 0x4800 ∨ 0x4880 ≤ a) →
              Memory.read t.mem a = Memory.read s.mem a))

/-! ### Standing tables -/

/-- The port after a TABLES note whose table's status entry is written. -/
def entryWritten (s : State) (rest : List Word) (id : Nat) (e : TableEntry) : Port :=
  { s.port with notes := rest, tables := setAt s.port.tables id e, lastTable := id }

/-- A TABLES note for the plan, limit or wake table: the table is clamped and taken whole, its status entry is written with
origin NOTE and the next number, and TABLE_STATUS is pending; no other entry and nothing else of the part changes. The clamp
count is the number of fields clamped: a field of the limit table with a RANGE and a HARD_LIMIT clamp counts once. Each field
taken is the host's, brought to the nearest bound of its range: a plan's period to 5 to 60000, its phase to below the period,
its pause to at most 50, other contents to BOTH; the seven limits to their ranges; a level or a chain-failure level other
than those named to 2, the patrol period to 10 to 86400, the threshold to 50 to 2000. The HARD_LIMIT clamps are the fields
whose value in force is not the one taken: the soft and sleep maximum and the sleep temperature brought down to the hard
maximum, the soft and sleep minimum up to the hard cell minimum. That the first four clamps are named in the order of the
table, entries by ascending index and fields by their order in 12.2, is the model's choice (log 106), and so is that an
active or publish byte other than 0 and 1 is no (log 67); the positions that name the fields are read from the spec (log 17).
That a wake table makes no wake cause of an input that is asserted already as its level is raised from 0 is the model's
choice (log 97). -/
def Obligations.TablesTakenWhole : Prop :=
  ∀ (w : Word) (rest : List Word) (s : State) (old : TableEntry), s.canonical → s.calm → s.port.notes = w :: rest →
    noteKindOf (noteKind w) = some .tables → getAt s.port.tables (noteArg w).toNat = some old →
    ((noteArg w).toNat = 0 →
      Goes .tablesPlanTable s fun t =>
        t.attn.pending .tableStatus = true
          ∧ t = { s with
              port := entryWritten s rest 0 ⟨cycle 65535 old.number, .note, takenOutcome (readPlans s.mem).2,
                min (clampedFields (readPlans s.mem).2) 255, (readPlans s.mem).2.take 4⟩
              plan.plans := (readPlans s.mem).1
              attn := t.attn
              mem := t.mem }
          ∧ (∀ i, i < 8 → ∃ p, getAt t.plan.plans i = some p
              ∧ p.period = max 5 (min 60000 (s.mem.num (0x404 + 16 * i) 2))
              ∧ p.phase = min (s.mem.num (0x406 + 16 * i) 2) (p.period - 1)
              ∧ p.pause = min 50 (s.mem.num (0x402 + 16 * i) 1)
              ∧ p.mask = BitVec.ofNat 24 (s.mem.num (0x408 + 16 * i) 4)
              ∧ p.contents = (if s.mem.num (0x401 + 16 * i) 1 = 0 then .cells
                  else if s.mem.num (0x401 + 16 * i) 1 = 1 then .temperatures else .both))
          ∧ s.sameBut t [entryRec 0, lastTableRec, factorRec])
    ∧ ((noteArg w).toNat = 1 →
      Goes .tablesLimitTable s fun t =>
        t.attn.pending .tableStatus = true
          ∧ (∃ c, c = limitClamps (readLimitTable s.mem).2 t.store.hardClamps
            ∧ t = { s with
                port := entryWritten s rest 1
                  ⟨cycle 65535 old.number, .note, takenOutcome c, ((List.range 7).filter fun k =>
                    decide (k ∈ (readLimitTable s.mem).2 ∨ k ∈ t.store.hardClamps)).length, c.take 4⟩
                store.taken := (readLimitTable s.mem).1
                store.inForce := insideHard s.store.active (readLimitTable s.mem).1
                store.rangeClamps := (readLimitTable s.mem).2
                store.hardClamps := t.store.hardClamps
                attn := t.attn
                mem := t.mem })
          ∧ t.store.hardClamps =
              (if t.store.inForce.softMax = t.store.taken.softMax then [] else [0])
              ++ (if t.store.inForce.softMin = t.store.taken.softMin then [] else [1])
              ++ (if t.store.inForce.sleepMin = t.store.taken.sleepMin then [] else [3])
              ++ (if t.store.inForce.sleepMax = t.store.taken.sleepMax then [] else [4])
              ++ (if t.store.inForce.sleepTemp = t.store.taken.sleepTemp then [] else [5])
          ∧ t.store.inForce =
              { t.store.taken with
                softMax := min t.store.taken.softMax s.store.active.cellMax
                softMin := max t.store.taken.softMin s.store.active.cellMin
                sleepMin := max t.store.taken.sleepMin s.store.active.cellMin
                sleepMax := min t.store.taken.sleepMax s.store.active.cellMax
                sleepTemp := min t.store.taken.sleepTemp s.store.active.tempMax }
          ∧ t.store.taken =
              { softMax := max 0 (min 50000 (s.mem.int 0x480 4))
                softMin := max 0 (min 50000 (s.mem.int 0x484 4))
                sumTol := max 50 (min 2000 (s.mem.int 0x488 4))
                sleepMin := max 0 (min 50000 (s.mem.int 0x48C 4))
                sleepMax := max 0 (min 50000 (s.mem.int 0x490 4))
                sleepTemp := max (-400) (min 1500 (s.mem.int 0x494 4))
                imbalance := max 0 (min 50000 (s.mem.int 0x498 4)) }
          ∧ s.sameBut t [entryRec 1, lastTableRec, factorRec])
    ∧ ((noteArg w).toNat = 2 →
      Goes .tablesWakeTable s fun t =>
        t.attn.pending .tableStatus = true
          ∧ t = { s with
              port := entryWritten s rest 2 ⟨cycle 65535 old.number, .note, takenOutcome (readWakeTable s.mem).2,
                min (clampedFields (readWakeTable s.mem).2) 255, (readWakeTable s.mem).2.take 4⟩
              power.wakeTable := (readWakeTable s.mem).1
              attn := t.attn
              mem := t.mem }
          ∧ t.power.wakeTable =
              { timer := min 2 (s.mem.num 0x4A0 1)
                line := min 2 (s.mem.num 0x4A1 1)
                chain := min 2 (s.mem.num 0x4A2 1)
                current := min 2 (s.mem.num 0x4A3 1)
                chainFail := if s.mem.num 0x4A4 1 = 1 then 1 else 2
                period := max 10 (min 86400 (s.mem.num 0x4A8 4))
                threshold := max 50 (min 2000 (s.mem.num 0x4AC 2)) }
          ∧ s.sameBut t [powerRec, entryRec 2, lastTableRec, factorRec])

/-- A TABLES note for the module map: a refused table leaves the working map in force and its entry names the cause; a taken
one whose configured set is that of the working map takes effect without a survey; with a changed configured set every
address whose configured flag, cell count or sensor count changed is ABSENT with miss count 0, and a survey is requested, on
a chain that is held. Cell and sensor counts are brought to 4 to 16 and 0 to 4. That a configured byte other than 0 and 1 is
no is the model's choice (log 63), and so is that a module handed back as OUT_OF_SERVICE becomes ABSENT too, where its
address changed (log 107). -/
def Obligations.ModuleMapNote : Prop :=
  ∀ (w : Word) (rest : List Word) (s : State) (old : TableEntry), s.canonical → s.calm → s.shaped →
    s.restful → s.port.notes = w :: rest → noteKindOf (noteKind w) = some .tables → (noteArg w).toNat = 3 → getAt s.port.tables 3 = some old →
    (∀ o, s.mapRefusal (readModules s.mem s.store.active).1 = some o →
      Goes .tablesModuleMap s fun t =>
        (∃ e, e.number = cycle 65535 old.number ∧ e.origin = .note ∧ e.outcome = o
            ∧ t = { s with port := entryWritten s rest 3 e, attn := t.attn, mem := t.mem })
          ∧ t.attn.pending .tableStatus = true ∧ s.sameBut t [entryRec 3, lastTableRec, factorRec])
    ∧ (s.mapRefusal (readModules s.mem s.store.active).1 = none →
      configuredSet s.chain.map = configuredSet (takeModules (readModules s.mem s.store.active).1 s.chain.map) →
      Goes .tablesModuleMap s fun t =>
        t.chain.map = takeModules (readModules s.mem s.store.active).1 s.chain.map
          ∧ (∃ e, t.port = entryWritten s rest 3 e ∧ e.number = cycle 65535 old.number ∧ e.origin = .note
              ∧ e.outcome = takenOutcome (readModules s.mem s.store.active).2)
          ∧ t.attn.pending .tableStatus = true
          ∧ t = { s with
              port := t.port
              chain.map := t.chain.map
              chain.returning := t.chain.returning
              plan.kept := t.plan.kept
              upd.dist := t.upd.dist
              sup.faultedSince := if anyFaulted t.chain.map then s.sup.faultedSince else none
              attn := t.attn
              mem := t.mem }
          ∧ s.sameBut t [entryRec 3, lastTableRec, factorRec, mapRec])
    ∧ (s.mapRefusal (readModules s.mem s.store.active).1 = none →
      configuredSet s.chain.map ≠ configuredSet (takeModules (readModules s.mem s.store.active).1 s.chain.map) →
      s.chain.occupied → s.chain.surveyHolds = false → s.chain.sleepCmd = false →
      s.chain.requests.contains .survey = false →
      Goes .tablesModuleMap s fun t =>
        t.chain.requests = s.chain.requests ++ [.survey]
          ∧ (∀ i e, getAt s.chain.map i = some e → ∃ e', getAt t.chain.map i = some e'
              ∧ e'.cells = max 4 (min 16 (s.mem.num (0x501 + 16 * i) 1)) ∧ e'.sensors = min 4 (s.mem.num (0x502 + 16 * i) 1)
              ∧ (e'.configured ≠ e.configured ∨ e'.cells ≠ e.cells ∨ e'.sensors ≠ e.sensors →
                  e'.state = .absent ∧ e'.miss = 0)
              ∧ (e'.configured = e.configured → e'.cells = e.cells → e'.sensors = e.sensors →
                  e'.state = e.state ∧ e'.miss = e.miss))
          ∧ (∃ e, t.port = entryWritten s rest 3 e ∧ e.number = cycle 65535 old.number ∧ e.origin = .note
              ∧ e.outcome = takenOutcome (readModules s.mem s.store.active).2)
          ∧ t.attn.pending .tableStatus = true
          ∧ t = { s with
              port := t.port
              chain.map := t.chain.map
              chain.requests := t.chain.requests
              chain.returning := t.chain.returning
              plan.kept := t.plan.kept
              upd.dist := t.upd.dist
              sup.faultedSince := if anyFaulted t.chain.map then s.sup.faultedSince else none
              attn := t.attn
              mem := t.mem }
          ∧ s.sameBut t [entryRec 3, lastTableRec, factorRec, mapRec])

/-! ### Slips -/

/-- The oldest note is a POST for slot k, which holds a posted slip of a kind; none for a kind code that names none. -/
def postedSlip (s : State) (w : Word) (rest : List Word) (k : Nat) (kind : Option SlipKind) : Prop :=
  s.port.notes = w :: rest ∧ noteKindOf (noteKind w) = some .post ∧ (noteArg w).toNat = k ∧ k ≤ 7
    ∧ s.posted k = true ∧ slipKindOf (Memory.read s.mem (slotAt k + 4)) = kind

/-- The argument bytes of a slot. -/
def slipArgs (s : State) (k : Nat) : List Byte := s.mem.readBytes (slotAt k + 8) 40

/-- What the taking of a posted slip leaves before its owner acts: the note is gone, the copy stands in the slot's record,
the slot reads TAKEN. -/
def takenSlip (s : State) (rest : List Word) (k : Nat) : State :=
  { s with
    port.notes := rest
    port.slots := setAt s.port.slots k (some (copySlot s.mem k))
    mem := s.mem.store (slotAt k) (le 4 2) }

/-- The slot reads TAKEN and its slip is in flight. -/
def stillTaken (t : State) (k : Nat) : Prop :=
  t.mem.num (slotAt k) 4 = 2 ∧ ∃ c, getAt t.port.slots k = some (some c)

/-- The slips that complete at their taking with no other effect: the result code (1 OK, 3 REFUSED, 4 BUSY), the cause (0
for none) and the result fields, by the checks of each kind in their order. -/
def answerAtOnce (s : State) (args : List Byte) : SlipKind → Option (Nat × Nat × List Byte)
  | .close =>
    if s.sup.slipInFlight then some (4, 0, [])
    else if s.sup.state = .open_ then s.closeFails.map fun c => (3, c.code, [])
    else if s.sup.state = .lockedOut then some (3, 1, [])
    else some (4, 0, [])
  | .open_ => if s.sup.state.atRest then some (1, 0, []) else none
  | .clearLockout =>
    if s.sup.slipInFlight = true ∨ s.sup.waiting = true ∨ s.sup.state = .weldCheck then some (4, 0, [])
    else if s.sup.state = .lockedOut then none
    else some (3, 12, [])
  | .setOnce =>
    if s.sup.slipInFlight then some (4, 0, s.sup.once.fields)
    else if s.sup.once.set then some (3, 16, s.sup.once.fields)
    else if 1 < argNum args 2 1 ∨ 1 < argNum args 3 1 then some (3, 15, s.sup.once.fields)
    else none
  | .sleep =>
    let f := le 4 s.power.wakeTable.period ++ le 2 s.power.wakeTable.threshold ++ [0]
    if s.sup.state = .weldCheck then some (4, 0, f)
    else if s.sup.state = .lockedOut then some (3, 1, f)
    else if s.sup.state ≠ .open_ then some (3, 17, f)
    else if s.upd.state ≠ .idle then some (3, 3, f)
    else if s.ev.filling ≠ [] then some (3, 18, f)
    else none
  | .survey => if s.chain.surveySlip.isSome = true ∨ s.chain.balance.isSome = true then some (4, 0, []) else none
  | .balance =>
    if s.chain.surveySlip.isSome = true ∨ s.chain.balance.isSome = true then some (4, 0, [])
    else if argNum args 0 1 < 1 ∨ argNum args 1 1 < 1 ∨ 16 < argNum args 1 1
        ∨ 24 < argNum args 0 1 + argNum args 1 1 - 1 then some (3, 15, [])
    else if s.chain.down then some (3, 5, [])
    else none
  | .captureNow =>
    if s.plan.captures.any (fun c => c.slot.isSome) then some (4, 0, [0, 0, 0, 0, 0xFF])
    else if 2 < argNum args 4 1 then some (3, 15, [0, 0, 0, 0, 0xFF])
    else if s.chain.selectsConfigured (BitVec.ofNat 24 (argNum args 0 4)) = false then
      some (3, 19, [0, 0, 0, 0, 0xFF])
    else if s.chain.down then some (3, 5, [0, 0, 0, 0, 0xFF])
    else none
  | .installKey =>
    if s.store.keySlip.isSome then some (4, 0, [byte s.store.nv.working.key.code])
    else if s.store.nv.working.key ≠ .empty ∨ s.store.keyWrite = true then
      some (3, 21, [byte s.store.nv.working.key.code])
    else if args.take 32 = List.replicate 32 0 then some (3, 22, [byte s.store.nv.working.key.code])
    else none
  | .readStore =>
    if s.store.keySlip.isSome then some (4, 0, [])
    else
      match s.store.page (argNum args 0 1) with
      | none => some (3, 15, [])
      | some l => some (1, 0, l)
  | .updateBegin =>
    if s.upd.busy then some (4, 0, s.upd.fields)
    else if s.upd.state ≠ .idle then some (3, 26, s.upd.fields)
    else (s.beginFails (rawHeader args)).map fun c => (3, c.code, s.upd.fields)
  | .updateCheck =>
    if s.upd.busy then some (4, 0, s.upd.fields)
    else if s.upd.state ≠ .receiving then some (3, 26, s.upd.fields)
    else if s.upd.staging.length < s.upd.header.length then some (3, 27, s.upd.fields)
    else none
  | .updateApply =>
    if s.upd.busy then some (4, 0, s.upd.applyFields)
    else if s.upd.state ≠ .verified then some (3, 26, s.upd.applyFields)
    else if s.upd.header.target = .limitImage ∧ s.sup.state ≠ .open_ ∧ s.sup.state ≠ .lockedOut then
      some (3, 17, s.upd.applyFields)
    else none
  | .updateAbort => if s.upd.aborts = [] ∧ s.upd.state = .idle then some (1, 0, s.upd.abortFields) else none

/-- A POST whose slot cannot be taken leaves the slot as it is and is discarded with SLOT_NOT_POSTED. A posted slip that
completes at its taking: one of no slip kind with BAD_SLIP, and one of each of the 14 kinds where its checks turn it away or
answer it at once. The slot reads DONE with the code, the cause, the fields and the tag of the taking, is not in flight,
SLIP_DONE is pending, the argument bytes are as they were, but for the key bytes of an INSTALL_KEY, which are overwritten
with zeros, and nothing else changes. The zero fields of an OPEN that completes at once (log 100) and the fields of a slip
turned away where no rule gives them, zero or page none (log 101), are the model's choices, and so are, of an UPDATE_APPLY
turned away, the three marks packed in one byte (log 94) and the bank written that a RESET_LINE leaves (log 89). The codes of
the settings in the fields are log 23, the other bank that READ_STORE shows while no bank is active log 19, the key slot's
state before the start-up read log 12, the snapshot outcome of a SLEEP turned away log 26. -/
def Obligations.PostHandledAtOnce : Prop :=
  (∀ (w : Word) (rest : List Word) (s : State), s.canonical → s.calm → s.restful → s.port.notes = w :: rest →
    noteKindOf (noteKind w) = some .post → (noteArg w).toNat ≤ 7 → s.posted (noteArg w).toNat = false →
    Goes .post s fun t =>
      t = { s with
          port.notes := rest
          port.fault := some ⟨noteKind w, noteArg w, .slotNotPosted⟩
          port.faultCount := bump 65535 s.port.faultCount
          attn := t.attn
          mem := t.mem }
        ∧ t.attn.pending .noteFault = true ∧ s.sameBut t [noteFaultRec, factorRec])
  ∧ (∀ (w : Word) (rest : List Word) (s : State) (k : Nat) (kind : Option SlipKind) (code cause : Nat)
      (fields : List Byte), s.canonical → s.calm → s.restful → s.power.state ≠ .enteringDeep →
    postedSlip s w rest k kind →
    (match kind with
      | none => some (7, 0, [])
      | some q => answerAtOnce s (slipArgs s k) q) = some (code, cause, fields) →
    Goes .post s fun t =>
      t.showsDone k code cause ∧ t.mem.readBytes (slotAt k + 52) 12 = fit 12 fields
        ∧ t.mem.num (slotAt k + 6) 2 = s.mem.num (slotAt k + 6) 2
        ∧ (kind = some .installKey → t.mem.readBytes (slotAt k + 8) 40 = List.replicate 32 0 ++ (slipArgs s k).drop 32)
        ∧ (kind ≠ some .installKey → t.mem.readBytes (slotAt k + 8) 40 = slipArgs s k)
        ∧ t = { s with port.notes := rest, attn := t.attn, mem := t.mem } ∧ s.sameBut t [slotRec k, factorRec])

/-- A CLOSE in OPEN that passes its checks energizes MAIN_NEG and PRECHARGE together and enters PRECHARGING, with the
ratio and the timeout of the active limits fixed for the close; the slip stays in flight. A CLEAR_LOCKOUT in
LOCKED_OUT starts a weld window of its own and stays in flight. A SET_ONCE that passes its checks sets the settings,
the limit clamped to 100 to 5000 unless it is 0, and completes with OK, or OK_CLAMPED after a clamp; where the silence
count has not reached the limit nothing else changes. The codes of the policy and the module-fault flag are the
model's (log 23). -/
def Obligations.CloseBegins : Prop :=
  ∀ (w : Word) (rest : List Word) (k : Nat) (s : State), s.power.state ≠ .enteringDeep → s.sup.slipInFlight = false →
    (postedSlip s w rest k (some .close) → s.sup.state = .open_ → s.closeFails = none → s.faultedTooLong = false →
      s.sup.lossDue = false →
      Goes .post s fun t =>
        t.sup.state = .precharging ∧ t.sup.mainNeg = coilOn s.now ∧ t.sup.precharge = coilOn s.now
          ∧ t.sup.mainPos = s.sup.mainPos ∧ t.sup.inrush = some (s.now + 40)
          ∧ t.sup.close = some ⟨k, s.now, s.store.active.ratio.toNat, s.store.active.timeout.toNat, 0, 0, 0⟩
          ∧ (s.canonical → s.restful → stillTaken t k)
          ∧ State.sameAround { s with port.notes := rest } t)
    ∧ (s.canonical → s.calm → s.restful → postedSlip s w rest k (some .clearLockout) → s.sup.waiting = false →
        s.sup.state = .lockedOut →
      exec .post s = .next { takenSlip s rest k with
        sup.clear := some ⟨k, 0, 0⟩
        sup.weld := some ⟨s.now, s.store.active.weldWindow.toNat, true, false⟩ })
    ∧ (∀ (args : List Byte) (limit limit' policy mf : Nat), s.canonical → s.calm → s.restful →
        postedSlip s w rest k (some .setOnce) → s.sup.once.set = false → args = slipArgs s k →
        limit = argNum args 0 2 → policy = argNum args 2 1 → mf = argNum args 3 1 → policy ≤ 1 → mf ≤ 1 →
        limit' = (if limit = 0 then 0 else max 100 (min 5000 limit)) →
      Goes .post s fun t =>
        t.sup.once = ⟨true, limit', decide (policy = 0), decide (mf = 1)⟩
          ∧ t.showsDone k (if limit' = limit then 1 else 2) 0
          ∧ (limit' = 0 ∨ s.sup.silence < limit' →
              t = { s with port.notes := rest, sup.once := t.sup.once, attn := t.attn, mem := t.mem }
                ∧ s.sameBut t [slotRec k, contactorRec, contactorTail, factorRec])
          ∧ State.sameAround { s with port.notes := rest } t)

/-! ### Resets and pins -/

/-- POWER_ON brings the part to the state after reset with the nonvolatile contents that the store finds: one of a running
write's record cut, everything else as it stood. The wake inputs, the free counter and the queue of the model stay.
That these three stay is the model's choice (log 5, 28, 61). -/
def Obligations.PowerOnTakesResetState : Prop :=
  ∀ (cut : CutRead) (s : State),
    exec (.powerOn cut) s = .next { State.reset with
      pins := ⟨false, s.pins.wakeLine, s.pins.chainAlert⟩
      store.nv := s.store.nvAfterReset cut
      free := s.free
      pending := s.pending }
    ∧ (s.store.running = none → s.store.nvAfterReset cut = s.store.nv)

/-- The values right after POWER_ON that the spec gives: power, chain, converter, supervisor, planner, recorder, port,
attention unit, update engine and the start-up read. The wake tone of the reset is on the line, ahead of the first
survey's first ECHO, which has not been sent (log 47). -/
def Obligations.ResetValues : Prop :=
  State.reset.power.state = .run ∧ State.reset.power.lastReset = .powerOn ∧ State.reset.power.resetCount = 0
    ∧ State.reset.power.pend = 0 ∧ State.reset.power.wakeOut = false ∧ State.reset.power.estimate = .noAverage
    ∧ State.reset.chain.state = .surveying ∧ State.reset.chain.origin = .down ∧ State.reset.chain.wasDown = true
    ∧ State.reset.chain.resetTone = true ∧ State.reset.chain.line = .idle ∧ State.reset.chain.exTag = 1
    ∧ State.reset.chain.capTag = 1 ∧ State.reset.chain.hold = some (.survey 1 false) ∧ State.reset.conv.scanning = true ∧ State.reset.conv.part = 0
    ∧ State.reset.conv.us = 0 ∧ State.reset.conv.history = [] ∧ State.reset.sup.state = .lockedOut
    ∧ State.reset.sup.waiting = true ∧ State.reset.sup.coils = ⟨false, false, false⟩
    ∧ State.reset.sup.once.set = false ∧ State.reset.sup.silence = 0 ∧ State.reset.plan.setSeq = 1
    ∧ State.reset.plan.latest = none ∧ State.reset.ev.slots = List.replicate 16 none ∧ State.reset.ev.next = 1
    ∧ State.reset.port.notes = [] ∧ State.reset.port.slots = List.replicate 8 none ∧ State.reset.port.fault = none
    ∧ State.reset.port.faultCount = 0 ∧ State.reset.attn.factors = 0 ∧ State.reset.attn.enables = 0
    ∧ State.reset.attn.levels = List.replicate 6 0 ∧ State.reset.attn.mask = 0 ∧ State.reset.attn.line = false
    ∧ State.reset.upd.state = .idle ∧ State.reset.store.startUp = true

/-- RESET_LINE asserts RESET_N and returns the part to RUN with empty queues of notes, events, captures and writes, with open
coils and clear factors; the charge counter, the next set and event sequences, the once-settable settings, the wake table,
the patrol log's counters, the last full wake and the taken limit table are kept, the RESET_LINE count advances, the enables
and levels are read again, ATTN follows them. The update engine is in IDLE with nothing staged, waiting or in flight, its
intake and counts as at the start and its return watches ended; in IDLE its outcome and its distribution records are kept; in
another state the outcome is RESET_DURING with that state, and the records are kept but for those SENDING in DISTRIBUTING,
which are FAILED with cause RESET; the update word and the update status show it. A chunk descriptor that reads FILLED or
TAKING is given back REJECTED with cause NOT_RECEIVING, its other fields as they were, and any other stays (R150). That the
header and the bank written are kept is the model's choice (log 89), and that the three marks are kept with the records is
read from the spec (log 44). That the wake inputs keep their levels is the model's choice (log 61), and that no
CONTACTOR_CHANGE is raised (log 84); that UPDATE_STATE, for an update ended or a buffer given back, and EVENT_NEW, raised by
the reset itself, come after the clearing is read from the spec (log 42), and so is that the wake tone of the reset stands
ahead of the first survey's first ECHO, on an idle line with the exchange tag at 1 (log 47). -/
def Obligations.ResetLineKeeps : Prop :=
  ∀ (cut : CutRead) (s : State), s.canonical → s.shaped →
    Goes (.resetLine cut) s fun t =>
      t.pins = { s.pins with resetN := true } ∧ t.power.state = .run ∧ t.power.lastReset = .resetLine
        ∧ t.power.resetCount = bump 65535 s.power.resetCount ∧ t.power.pend = 0 ∧ t.power.wakeOut = false
        ∧ t.power.wakeTable = s.power.wakeTable ∧ t.power.nextSlot = s.power.nextSlot
        ∧ t.power.lastNumber = s.power.lastNumber ∧ t.power.lastWake = s.power.lastWake
        ∧ t.conv.charge = s.conv.charge ∧ t.conv.chargeSat = s.conv.chargeSat ∧ t.conv.part = 0 ∧ t.conv.us = 0
        ∧ t.conv.history = [] ∧ t.plan.setSeq = s.plan.setSeq ∧ t.plan.latest = none ∧ t.plan.captures = []
        ∧ t.sup.once = s.sup.once ∧ t.sup.state = .lockedOut ∧ t.sup.waiting = true
        ∧ t.sup.coils = ⟨false, false, false⟩ ∧ t.ev.next = s.ev.next ∧ t.ev.age = s.ev.age
        ∧ t.store.nv = s.store.nvAfterReset cut ∧ t.store.taken = s.store.taken ∧ t.store.startUp = true
        ∧ t.port.notes = [] ∧ t.port.slots = List.replicate 8 none ∧ t.port.fault = none ∧ t.port.faultCount = 0
        ∧ (∀ f : Factor, f ≠ .updateState → f ≠ .eventNew → t.attn.pending f = false) ∧ t.attnRight
        ∧ t.store.queue = [] ∧ t.store.running = none ∧ t.ev.inbox = [] ∧ t.ev.filling = []
        ∧ t.chain.requests = [] ∧ t.chain.resetTone = true ∧ t.chain.line = .idle ∧ t.chain.exTag = 1
        ∧ t.chain.capTag = 1 ∧ t.chain.wasDown = true
        ∧ t.attn.mask = 0 ∧ t.attn.enables = BitVec.ofNat 20 (s.mem.num 0x104 4)
        ∧ t.attn.levels = (s.mem.readBytes 0x108 6).map (fun b => min b.toNat 3)
        ∧ t.upd.state = .idle ∧ t.chain.state = .surveying ∧ t.chain.origin = .down
        ∧ t.upd.staging = [] ∧ t.upd.expected = 0 ∧ t.upd.lastAcc = none ∧ t.upd.absorbing = none ∧ t.upd.waiting = []
        ∧ t.upd.acc = 0 ∧ t.upd.dup = 0 ∧ t.upd.rej = 0 ∧ t.upd.slip = none ∧ t.upd.aborts = [] ∧ t.upd.aborting = false
        ∧ t.upd.turn = none ∧ t.upd.window = none ∧ t.upd.pause = none ∧ t.upd.watches = [] ∧ t.upd.commit = .none
        ∧ t.upd.outcome = (if s.upd.state = .idle then s.upd.outcome else .resetDuring)
        ∧ t.upd.outcomeState = (if s.upd.state = .idle then s.upd.outcomeState else some s.upd.state)
        ∧ (s.upd.state ≠ .distributing → t.upd.dist = s.upd.dist)
        ∧ (s.upd.state = .distributing → t.upd.dist = s.upd.dist.map fun d =>
            if d.state = .sending then { d with state := .failed, cause := some .reset } else d)
        ∧ t.upd.header = s.upd.header ∧ t.upd.bankWritten = s.upd.bankWritten
        ∧ t.upd.switchPending = s.upd.switchPending ∧ t.upd.commitReached = s.upd.commitReached
        ∧ t.upd.floorWritten = s.upd.floorWritten
        ∧ t.mem.readBytes 0xB0 2 = [0, byte t.upd.outcome.code] ∧ t.mem.readBytes 0x4820 2 = [0, byte t.upd.outcome.code]
        ∧ (∀ buf : Buffer,
            (bufferState s.mem buf = 1 ∨ bufferState s.mem buf = 2 →
              bufferState t.mem buf = 4 ∧ t.mem.num (descriptorAt buf + 10) 1 = 4
                ∧ t.mem.readBytes (descriptorAt buf) 10 = s.mem.readBytes (descriptorAt buf) 10)
            ∧ (bufferState s.mem buf ≠ 1 → bufferState s.mem buf ≠ 2 →
              t.mem.readBytes (descriptorAt buf) 16 = s.mem.readBytes (descriptorAt buf) 16))
        ∧ (t.attn.pending .updateState = true ↔ s.upd.state ≠ .idle
            ∨ ∃ buf : Buffer, bufferState s.mem buf = 1 ∨ bufferState s.mem buf = 2)
        ∧ (∀ k, k < 8 → t.mem.num (slotAt k) 4 = 0)
        ∧ (∀ a, (0x104 ≤ a ∧ a < 0x200 ∨ 0x400 ≤ a ∧ a < 0x1000 ∨ 0x1400 ≤ a ∧ a < 0x1800 ∨ 0x4940 ≤ a) →
            Memory.read t.mem a = Memory.read s.mem a)

/-- The release of RESET_N and the releases of the two wake inputs set their pin and change nothing else; on a link that
is not in DEEP, WAKING or PATROL the release of RESET_N serves the link again. -/
def Obligations.PinsReleased : Prop :=
  ∀ s : State, s.calm →
    exec .resetNReleased s = .next { s with pins.resetN := false }
      ∧ State.linkServed { s with pins.resetN := false } = s.power.state.awake
      ∧ exec .vehicleWakeInputDeasserted s = .next { s with pins.wakeLine := false }
      ∧ exec .chainAlertDeasserted s = .next { s with pins.chainAlert := false }

/-! ### Wake sources -/

/-- The command with which each wake source makes its cause, and when the command makes it. -/
def wakeCommand : Source → Instr
  | .timer => .wakeTimer
  | .line => .wakeLine
  | .chain => .wakeChain
  | .current => .wakeCurrent
  | .link => .wakeLink

@[inherit_doc wakeCommand] def wakes (s : State) : Source → Prop
  | .timer => s.power.state = .deep ∧ s.power.timerRunning = true ∧ s.power.timer = 0
  | .line => s.power.state ≠ .run
  | .chain => s.power.state ≠ .run ∧ s.chain.state = .asleep
  | .current => s.power.state ≠ .run ∧ s.conv.scanning = false ∧ 1000 ≤ s.power.compRun ∧ s.power.compFired = false
  | .link => s.power.state ≠ .run ∧ s.power.state ≠ .enteringDeep ∧ s.pins.resetN = false

/-- A wake cause: the command of a source whose level is 0 leaves every pending flag as it is; that of any other source
sets its flag and no other. In DEEP it begins WAKING, with target RUN if a pending flag has level 2 and PATROL
otherwise; in WAKING and PATROL a level-2 cause promotes the target, and any other cause leaves the state and the
target. Of the rest of the part only the input pin of the source, the wake record and the memory's power record
change. An input makes its cause at its assertion (log 30). A level-2 cause that comes in WAKING after the target PATROL
was read is apart (log 76): ModuleWakeEnds has it. -/
def Obligations.WakeCauses : Prop :=
  ∀ (x : Source) (s : State), s.canonical → s.calm → s.restful → wakes s x → s.lateCause x = false →
    Goes (wakeCommand x) s fun t =>
      (s.power.wakeTable.level x = 0 →
          t.power.pend = s.power.pend ∧ t.power.state = s.power.state ∧ t.power.target = s.power.target)
      ∧ (s.power.wakeTable.level x ≠ 0 →
          t.power.pend = s.power.pend ||| x.flag
          ∧ (s.power.state = .deep → t.power.state = .waking ∧ t.power.settled = false ∧ t.power.settleAt = s.now
              ∧ t.power.target = if t.power.pendingWith (fun l => decide (l = 2)) then .run else .patrol)
          ∧ (s.power.state ≠ .deep → t.power.state = s.power.state
              ∧ t.power.target = if s.power.wakeTable.level x = 2 ∧ s.power.target = .patrol
                  ∧ s.power.returning = none ∧ (s.power.state = .waking ∨ s.power.state = .patrol) then .run
                else s.power.target))
      ∧ t = { s with
          pins.wakeLine := s.pins.wakeLine || decide (x = .line)
          pins.chainAlert := s.pins.chainAlert || decide (x = .chain)
          power := t.power
          mem := t.mem }
      ∧ s.sameBut t [powerRec]

/-! ### Waking, sleeping and the wake pulse -/

/-- The microsecond time base stands at the instant of a chain event while the converter scans, and is halted
otherwise. -/
def usAfter (s : State) (us : Us) : Us := if s.conv.scanning then us else s.conv.us

/-- The settle of WAKING ends 2 ms after it began: the converter starts to scan with an empty history, an estimate is
opened with the unsampled count frozen, and the wake tone begins. The wake tone of 1 ms ends with the WAKE broadcast,
which takes its tag from the exchange tag counter, and the module wake time begins; the tone of a reset ends without a
WAKE, and the first survey sends its first ECHO. WAKE_OUT is deasserted 10 ms after it was asserted, and nothing else
changes. The µs time base follows the operand (log 4); where the reset's tone stands is read from the spec (log 47). -/
def Obligations.WakingSteps : Prop :=
  (∀ s : State, s.canonical → s.calm → s.restful → s.power.state = .waking → s.power.settled = false →
    2 ≤ elapsed s.now s.power.settleAt → s.conv.scanning = false → s.ev.filling = [] →
    Goes .wakingSettleEnd s fun t =>
      t = { s with
        power.settled := true
        power.estimate := .awaited
        conv.scanning := true
        conv.us := 0
        conv.lastLatch := 0
        conv.latched := none
        conv.history := []
        conv.estimate := some ⟨s.conv.unsampled, []⟩
        sup.hardRun := 0
        sup.hardFell := false
        sup.lowSupply := false
        chain.wake := .tone s.now
        mem := t.mem }
      ∧ s.sameBut t [contactorRec, powerRec])
  ∧ (∀ s : State, s.calm →
    (∀ (us : Us) (gap : Bool) (since : Ms), s.chain.wake = .tone since → 1 ≤ elapsed s.now since →
      exec (.wakeToneEnd ⟨us, gap⟩) s = .next { s with
        conv.us := usAfter s us
        chain.lastSent := some (⟨.wake, 31, s.chain.exTag, []⟩, usAfter s us)
        chain.exTag := cycle 255 s.chain.exTag
        chain.wake := .settle s.now gap })
    ∧ (∀ (us : Us) (gap : Bool) (a : Nat) (second : Bool), s.chain.wake = .none → s.chain.resetTone = true → 1 ≤ elapsed s.now 0 →
      s.chain.hold = some (.survey a second) → s.chain.line = .idle →
      exec (.wakeToneEnd ⟨us, gap⟩) s = .next { s with
        conv.us := usAfter s us
        chain.resetTone := false
        chain.line := .sending ⟨.echo, a, s.chain.exTag, []⟩
        chain.exTag := cycle 255 s.chain.exTag })
    ∧ (s.canonical → s.power.wakeOut = true → 10 ≤ elapsed s.now s.power.wakeOutAt →
        Goes .wakeOutEnd s fun t =>
          t = { s with power.wakeOut := false, mem := t.mem } ∧ s.sameBut t [powerRec]))

/-- The module wake time ends 5 ms after the WAKE broadcast. A wake with target RUN begins a survey with origin ASLEEP
and enters RUN: the flags are the last wake's and are cleared, WAKE_OUT and WAKE_REASON are raised, the converter is
restarted, the silence count, the breach counts, the implausible run and the freshness record are reset, and a FULL_WAKE
event holds the sources and the held estimate. One with target PATROL enters UP with an empty error window and PATROL, with the
first patrol capture asked for; with no configured module the patrol is logged at once as CHAIN_FAIL with 0 attempts and
ends by the chain-failure level. Where the wake's tone end left room between the two (log 76), the chain is UP, WAKING
stands, and a second MODULE_WAKE_TIME_END enters PATROL; a level-2 cause of any source that comes between them, WAKE_LINE or
WAKE_LINK, enters RUN at once, with a survey. -/
def Obligations.ModuleWakeEnds : Prop :=
  ∀ (s : State) (since : Ms) (gap : Bool), s.chain.wake = .settle since gap → 5 ≤ elapsed s.now since → s.power.state = .waking →
    s.chain.state = .asleep → s.plan.burst = none → s.power.entry = none → s.power.returning = none →
    s.upd.state = .idle → s.upd.pause = none →
    (s.power.target = .run → s.chain.requests = [] →
      Goes .moduleWakeTimeEnd s fun t =>
        t.power.state = .run ∧ t.power.pend = 0 ∧ t.power.lastWake = some (s.power.pend, none)
          ∧ t.power.wakeOut = true ∧ t.attn.pending .wakeReason = true ∧ t.chain.state = .surveying
          ∧ t.chain.origin = .asleep ∧ t.chain.line = .sending ⟨.echo, 1, s.chain.exTag, []⟩ ∧ t.chain.wake = .none
          ∧ t.conv.snapTimer = 0 ∧ t.sup.silence = 0 ∧ t.sup.warn = false ∧ t.sup.lapsed = false ∧ t.plan.high = 0
          ∧ t.plan.low = 0 ∧ t.plan.temp = 0 ∧ t.plan.implausible = 0 ∧ t.plan.fresh = none
          ∧ (s.conv.scanning = true → t.conv.scanning = true ∧ t.conv.history = [] ∧ t.conv.us = 0)
          ∧ (s.calm → s.power.estimate ≠ .awaited → ∃ e, t.ev.inbox = s.ev.inbox ++ [e] ∧ e.kind = .fullWake
              ∧ (∀ avg c, s.power.estimate = .made avg c → e.detail = .fullWake s.power.pend (some (avg, c)))
              ∧ (s.power.estimate = .noAverage → e.detail = .fullWake s.power.pend none))
          ∧ s.sameAround t ∧ s.sameContactors t)
    ∧ (s.power.target = .patrol → gap = false → s.chain.requests = [] → s.chain.configuredAddrs ≠ [] → s.chain.hold = none →
        s.chain.line = .idle → s.chain.sleepCmd = false →
      Goes .moduleWakeTimeEnd s fun t =>
        t.power.state = .patrol ∧ t.power.patrol = some ⟨1, false, none⟩ ∧ t.chain.state = .up ∧ t.chain.errs = []
          ∧ t.chain.wake = .none ∧ t.chain.hold = some (.capture patrolPlan)
          ∧ t.chain.line = .sending ⟨.capture, 31, s.chain.capTag, []⟩ ∧ s.sameAround t ∧ s.sameContactors t)
    ∧ (s.power.target = .patrol → gap = false → s.canonical → s.chain.configuredAddrs = [] → s.chain.requests = [] →
        s.power.estimate ≠ .awaited → s.power.nextSlot ≤ 31 →
      Goes .moduleWakeTimeEnd s fun t =>
        t.power.patrol = none ∧ t.chain.wake = .none ∧ t.logged s 3 0 0 false
          ∧ (s.power.wakeTable.chainFail ≠ 2 → t.power.state = .patrol ∧ t.power.returning = some s.power.pend
              ∧ t.chain.sleepCmd = true)
          ∧ (s.power.wakeTable.chainFail = 2 → t.power.state = .run ∧ t.power.pend = 0
              ∧ t.power.lastWake = some (s.power.pend, some .chainFail) ∧ t.power.wakeOut = true)
          ∧ s.sameAround t ∧ s.sameContactors t)
    ∧ (s.power.target = .patrol → gap = true → s.canonical → s.calm → s.restful → s.chain.requests = [] →
      Goes .moduleWakeTimeEnd s fun t =>
        t = { s with chain.state := .up, chain.errs := [], chain.wake := .none, mem := t.mem }
          ∧ s.sameBut t [chainRec])
    ∧ (∀ u : State, u.chain.wake = .none → u.power.state = .waking → u.power.settled = true → u.power.target = .patrol →
        u.chain.state = .up → u.plan.burst = none → u.power.entry = none → u.power.returning = none →
        u.power.patrol = none → u.upd.state = .idle → u.upd.pause = none → u.chain.requests = [] → u.chain.free = true →
      (u.chain.configuredAddrs ≠ [] → Goes .moduleWakeTimeEnd u fun t =>
        t.power.state = .patrol ∧ t.power.patrol = some ⟨1, false, none⟩
          ∧ t.chain.hold = some (.capture patrolPlan) ∧ u.sameAround t ∧ u.sameContactors t)
      ∧ (∀ x : Source, wakes u x → u.power.wakeTable.level x = 2 → Goes (wakeCommand x) u fun t =>
        t.power.state = .run ∧ t.power.pend = 0
          ∧ t.power.lastWake = some (u.power.pend ||| x.flag, none) ∧ t.power.wakeOut = true
          ∧ t.attn.pending .wakeReason = true ∧ t.chain.state = .surveying ∧ t.chain.origin = .up
          ∧ State.sameAround { u with pins.wakeLine := u.pins.wakeLine || decide (x = .line) } t ∧ u.sameContactors t))

/-- The wait for the entry's snapshot write ends 250 ms after its request: the waiting request is withdrawn, the outcome is
SKIPPED, and the sleep command is given; that a timer's request which waited first, and which the entry's joined, goes with
it is the model's choice (log 104). SLEEP on a free chain whose sleep command waits: the chain enters ASLEEP, the broadcast
takes its tag from the exchange tag counter, and a wake that had to wait for it begins at once. Step 5 of a sleep entry, once
the note queue is empty: the converter stops and the SLEEP slip completes; without a pending flag the part is in DEEP, with
the patrol timer loaded from the wake table. Step 4 of an entry ends with the chain ASLEEP, and a return from a patrol ends
in DEEP, where a flag that is none of the patrol's begins the next wake. A SLEEP slip that passes its checks begins the
entry, whose step 1 ends at once without a capture in progress, with snapshot outcome none (the model's choice, log 15); a
POST of another posted slip during the entry ends it: the SLEEP slip is CANCELLED, the power state is RUN, and a chain on its
way to sleep is woken again. A POST of a second SLEEP cancels the entry likewise and begins another. The µs time base follows
the operand (log 4). -/
def Obligations.SleepEntrySteps : Prop :=
  (∀ (s : State) (e : Entry), s.power.entry = some e → e.step = 3 → 250 ≤ elapsed s.now e.requestAt →
    (∃ q ∈ s.store.queue, Requester.entry ∈ q.who) →
    Goes .snapshotWaitLimit s fun t =>
      t.power.snapOutcome = .skipped ∧ (s.restful → s.chain.state ≠ .asleep →
          t.power.entry = some { e with step := 4 } ∧ t.chain.sleepCmd = true
            ∧ t.store.queue = s.store.queue.filter fun q => !q.who.contains .entry)
        ∧ s.sameAround t ∧ s.sameContactors t)
  ∧ (∀ (us : Us) (s : State), s.chain.sleepReady = true →
    Goes (.sleepBroadcast us) s fun t =>
      t.chain.lastSent = some (⟨.sleep, 31, s.chain.exTag, []⟩, usAfter s us)
        ∧ t.chain.wake = (if s.chain.wakeAfterSleep then .tone s.now else .none)
        ∧ t.chain.wakeAfterSleep = false
        ∧ (s.restful → s.power.entry = none → s.power.returning = none →
            t.chain.state = .asleep ∧ t.chain.sleepCmd = false ∧ t.chain.surveyTimer = none)
        ∧ (∀ e, s.restful → s.power.entry = some e → e.step = 4 → s.power.patrol = none → s.power.returning = none →
            s.chain.wakeAfterSleep = false →
            t.chain.state = .asleep ∧ t.chain.sleepCmd = false ∧ t.power.entry = some { e with step := 5 })
        ∧ (∀ src, s.restful → s.power.returning = some src → s.power.entry = none → s.power.patrol = none →
            s.power.state = .patrol → s.chain.wakeAfterSleep = false → s.pins.chainAlert = false →
            t.chain.state = .asleep ∧ t.power.returning = none ∧ t.power.pend = s.power.pend &&& ~~~src
              ∧ t.conv.scanning = false ∧ t.power.timer = 1000 * s.power.wakeTable.period
              ∧ t.power.timerRunning = true
              ∧ (t.power.pendingWith (fun l => decide (l ≠ 0)) = false → t.power.state = .deep)
              ∧ (t.power.pendingWith (fun l => decide (l ≠ 0)) = true → t.power.state = .waking))
        ∧ s.sameAround t ∧ s.sameContactors t)
  ∧ (∀ (s : State) (e : Entry), s.power.entry = some e → e.step = 5 → s.port.notes = [] → s.restful → s.power.patrol = none →
    s.power.pendingWith (fun l => decide (l ≠ 0)) = false → s.chain.requests = [] →
    Goes .deepEntry s fun t =>
      t.power.state = .deep ∧ t.power.entry = none ∧ t.power.timer = 1000 * s.power.wakeTable.period
        ∧ t.power.timerRunning = true ∧ t.power.compRun = 0 ∧ t.attn.line = false ∧ t.conv.scanning = false
        ∧ (s.canonical → s.inFlight e.slot → t.showsDone e.slot 1 0) ∧ s.sameAround t ∧ s.sameContactors t)
  ∧ (∀ (w : Word) (rest : List Word) (k : Nat) (s : State), s.canonical → s.slipsRight → s.power.patrol = none →
    s.power.returning = none →
    (postedSlip s w rest k (some .sleep) → s.power.state = .run → s.sup.state = .open_ → s.upd.state = .idle →
      s.ev.filling = [] → s.restful → s.plan.captures = [] → s.chain.requests = [] → s.chain.balance = none →
      s.chain.free = true →
      Goes .post s fun t =>
        t.power.state = .enteringDeep ∧ t.power.entry = some ⟨k, 2, s.now⟩ ∧ t.plan.quiet = true
          ∧ t.power.snapOutcome = .none ∧ t.chain.hold = some .stop ∧ stillTaken t k
          ∧ State.sameAround { s with port.notes := rest } t ∧ s.sameContactors t)
    ∧ (∀ (e : Entry) (kind : Option SlipKind), postedSlip s w rest k kind → kind ≠ some .sleep →
      s.power.state = .enteringDeep → s.power.entry = some e → s.inFlight e.slot →
      Goes .post s fun t =>
        t.showsDone e.slot 6 0 ∧ t.power.state = .run ∧ t.power.entry = none ∧ t.plan.quiet = false
          ∧ (4 ≤ e.step → s.chain.sleepCmd = true → t.chain.wakeAfterSleep = true)
          ∧ (4 ≤ e.step → s.chain.sleepCmd = false → t.chain.wake = .tone s.now))
    ∧ (∀ e : Entry, postedSlip s w rest k (some .sleep) → s.power.state = .enteringDeep → s.power.entry = some e →
      s.inFlight e.slot → s.sup.state = .open_ → s.upd.state = .idle → s.ev.filling = [] →
      Goes .post s fun t =>
        t.showsDone e.slot 6 0 ∧ t.power.state = .enteringDeep ∧ stillTaken t k
          ∧ (∃ f, t.power.entry = some f ∧ f.slot = k ∧ f.step ≤ 3) ∧ t.plan.quiet = true
          ∧ (4 ≤ e.step → s.chain.sleepCmd = true → t.chain.wakeAfterSleep = true)
          ∧ (4 ≤ e.step → s.chain.sleepCmd = false → t.chain.wake = .tone s.now) ∧ s.sameContactors t))

/-! ### Frames that have left the chain -/

/-- What the end of a frame changes: a CAPTURE gives the held capture its tag, t_b and latch times, with SURGE if surge
holds, and begins the conversion wait; a frame that is answered opens its reply window; a SWITCH ends the engine's
hold and begins the switch window, unless the engine disregards it; a PAUSE ends its hold and begins the plan's pause.
Nothing else changes. The µs time base follows the operand (log 4), and the send time is what it then shows. -/
def Obligations.FramesLeave : Prop :=
  ∀ (us : Us) (f : Frame) (s : State), s.calm → s.restful → s.chain.line = .sending f →
    (f.kind = .capture → s.chain.down = false →
      exec (.captureSent us) s = .next { s with
        conv.us := usAfter s us
        chain.lastSent := some (f, usAfter s us)
        chain.line := .conversion (usAfter s us)
        plan.captures := s.plan.captures.map fun c =>
          if c.holding then c.sent f.tag (usAfter s us) s.now s.sup.surge else c })
    ∧ (f.addressed = true → f.answered = true →
      exec (.frameSent us) s = .next { s with
        conv.us := usAfter s us
        chain.lastSent := some (f, usAfter s us)
        chain.line := .window f (usAfter s us) })
    ∧ (f.kind = .switch → s.chain.requests = [] → ∀ (r : FwReq) (live : Bool), s.chain.hold = some (.firmware r live) →
      exec (.frameSent us) s = .next { s with
        conv.us := usAfter s us
        chain.lastSent := some (f, usAfter s us)
        chain.hold := none
        chain.line := .idle
        upd.link := if live then .none else s.upd.link
        upd.window := if live then some ⟨s.now, 0, none⟩ else s.upd.window })
    ∧ (∀ p, s.chain.requests = [] → s.chain.hold = some (.pause p) →
      exec (.pauseSent us) s = .next { s with
        conv.us := usAfter s us
        chain.lastSent := some (f, usAfter s us)
        chain.hold := none
        chain.line := .idle
        plan.captures := s.plan.captures.map fun c =>
          if c.plan = p ∧ c.stage = .pauseRequested then { c with stage := .pausing s.now } else c })

/-- Once the balancing stop has been sent, every balancing record is inactive and the chain is free; of the memory only the
module status mirror is rewritten. A return probe asks for an ECHO to a module handed back that is OUT_OF_SERVICE, 200 ms
after the last; the end of a balancing record's time makes it inactive and rewrites only the module's entry of the mirror. A
sleep entry whose step 2 waited for the stop goes on with step 3: a snapshot of the charge counter is in the write queue for
it, and the snapshot timer is 0. The µs time base follows the operand (log 4). That the end time of an inactive record is 0
is read from the spec (log 38). -/
def Obligations.BalancingStopsAndProbes : Prop :=
  (∀ (us : Us) (f : Frame) (s : State), s.canonical → s.shaped → s.calm → s.restful → s.chain.requests = [] →
    s.chain.line = .sending f → s.chain.hold = some .stop →
    Goes (.balancingStopSent us) s fun t =>
      t = { s with
        conv.us := usAfter s us
        chain.lastSent := some (f, usAfter s us)
        chain.hold := none
        chain.line := .idle
        chain.map := s.chain.map.map fun e => { e with balMask := 0, balEnd := 0 }
        mem := t.mem }
      ∧ s.sameBut t [mapRec])
  ∧ (∀ (us : Us) (f : Frame) (e : Entry) (s : State), s.plan.burst = none → s.upd.pause = none →
    s.upd.state ≠ .distributing → s.power.patrol = none → s.power.returning = none → s.power.entry = some e → e.step = 2 →
    s.chain.requests = [] → s.chain.line = .sending f → s.chain.hold = some .stop →
    Goes (.balancingStopSent us) s fun t =>
      t.power.entry = some { e with step := 3, requestAt := s.now } ∧ t.power.state = s.power.state
        ∧ t.power.snapOutcome = s.power.snapOutcome
        ∧ (∃ q ∈ t.store.queue, q.payload = .snapshot ⟨s.conv.charge, s.conv.chargeSat⟩ ∧ Requester.entry ∈ q.who)
        ∧ t.conv = { s.conv with us := usAfter s us, snapTimer := 0 }
        ∧ t.chain.hold = none ∧ t.chain.line = .idle ∧ t.chain.lastSent = some (f, usAfter s us) ∧ t.chain.state = s.chain.state
        ∧ t.chain.map = (s.chain.map.map fun e => { e with balMask := 0, balEnd := 0 })
        ∧ s.sameAround t ∧ s.sameContactors t)
  ∧ (∀ (addr : Nat) (s : State), s.canonical → s.shaped → s.calm →
    (∀ last, s.restful → s.chain.occupied → s.chain.returning.find? (fun r => decide (r.1 = addr)) = some (addr, last) →
      200 ≤ elapsed s.now last → (s.chain.entry addr).map (·.state) = some .outOfService →
      s.chain.requests.contains (.returnEcho addr) = false →
      exec (.returnProbe addr) s = .next { s with
        chain.returning := s.chain.returning.map fun r => if r.1 = addr then (addr, s.now) else r
        chain.requests := s.chain.requests ++ [.returnEcho addr] })
    ∧ (∀ e, s.chain.entry addr = some e → e.balMask ≠ 0 → elapsed s.now e.balEnd < 2 ^ 31 →
      Goes (.balancingEnd addr) s fun t =>
        t = { s with
          chain.map := modifyAddr s.chain.map addr fun e => { e with balMask := 0, balEnd := 0 }
          mem := t.mem }
        ∧ s.sameOutside t (moduleAt (addr - 1)) (moduleAt addr)))

/-- What becomes of a listed address at its turn without a READ: the address has had its turn, with its kept reading, one
capture older, an age of 254 held. -/
def passedOver (s : State) (n : Item) : Item :=
  { n with
    settled := true
    reading := (s.plan.keptAt n.addr).map fun r => { r with age := if r.age < 254 then r.age + 1 else 254 } }

/-- The conversion wait ends 1 ms after t_b, once every pair is recorded: the READ of the first address that is read is sent with
the capture's tag. The listed addresses before it are not read: their kept readings grow older and stand for them. With no
listed address, and with none that is read, the hold ends and the capture waits to be built. The µs time base follows the
operand (log 4). -/
def Obligations.ReadsBegin : Prop :=
  ∀ (us tb : Us) (c : Capture) (s : State), s.calm → s.restful → s.chain.line = .conversion tb → 1000 ≤ elapsed (usAfter s us) tb →
    s.chain.down = false → s.plan.captures.find? Capture.holding = some c → c.paired = true →
    (∀ (m : Item) (l : List Item), c.items = m :: l → m.settled = false → (s.chain.entry m.addr).any readable = true →
      exec (.conversionWaitEnd us) s = .next { s with
        conv.us := usAfter s us
        chain.line := .sending ⟨.read, m.addr, c.tag, []⟩ })
    ∧ (c.items = [] → s.chain.requests = [] →
      exec (.conversionWaitEnd us) s = .next { s with
        conv.us := usAfter s us
        chain.hold := none
        chain.line := .idle
        plan.captures := s.plan.captures.filter (fun c => !c.holding)
          ++ (s.plan.captures.filter Capture.holding).map fun c => { c with stage := .building } })
    ∧ (∀ (before : List Item) (m : Item) (after : List Item), c.items = before ++ m :: after →
        (c.items.map (·.addr)).Nodup → (∀ n ∈ before, (s.chain.entry n.addr).any readable = false) →
        (∀ n ∈ c.items, n.settled = false) → (s.chain.entry m.addr).any readable = true →
      Goes (.conversionWaitEnd us) s fun t =>
        t.chain.line = .sending ⟨.read, m.addr, c.tag, []⟩
          ∧ t.plan.captures.find? Capture.holding = some { c with items := before.map (passedOver s) ++ m :: after }
          ∧ (∀ n ∈ before, t.plan.keptAt n.addr = (passedOver s n).reading)
          ∧ (∀ a, (∀ n ∈ before, n.addr ≠ a) → t.plan.keptAt a = s.plan.keptAt a)
          ∧ t = { s with
              conv.us := usAfter s us
              chain.line := t.chain.line
              plan.captures := t.plan.captures
              plan.kept := t.plan.kept })
    ∧ (s.chain.requests = [] → (c.items.map (·.addr)).Nodup → (∀ n ∈ c.items, n.settled = false) →
        (∀ n ∈ c.items, (s.chain.entry n.addr).any readable = false) →
      Goes (.conversionWaitEnd us) s fun t =>
        t.chain.hold = none ∧ t.chain.line = .idle
          ∧ { c with stage := .building, items := c.items.map (passedOver s) } ∈ t.plan.captures
          ∧ (∀ n ∈ c.items, t.plan.keptAt n.addr = (passedOver s n).reading)
          ∧ (∀ a, (∀ n ∈ c.items, n.addr ≠ a) → t.plan.keptAt a = s.plan.keptAt a)
          ∧ t = { s with
              conv.us := usAfter s us
              chain.hold := none
              chain.line := .idle
              plan.captures := t.plan.captures
              plan.kept := t.plan.kept })

/-! ### Answers -/

/-- The item of a capture that is sent the next READ once an address has ended its turn: the first one, in the ascending order
of the list, that has not ended its own and that the working map lets be read (R19). -/
def nextToRead (s : State) (c : Capture) (addr : Nat) : Option Item :=
  c.items.find? fun n => decide (n.addr ≠ addr) && !n.settled && (s.chain.entry n.addr).any readable

/-- A REPLY within its window and without an error, with the capture's tag and the expected number of codes: the module is
IN_SERVICE with miss count 0, its status and version as reported; the converted readings are kept for the address; no error
is counted; the READ of the next item that is read is sent, or, without one, the hold ends. Of the rest of the part only the faulted-since time follows the map. One
that reports an internal fault does the same, but the module is FAULTED with cause INTERNAL, and MODULE_FAULT is raised if
it was not FAULTED before. The µs time base follows the operand (log 4). -/
def Obligations.GoodReply : Prop :=
  ∀ (us sent : Us) (first p : Nat) (f : Frame) (codes : List Half) (status : ModuleStatus) (version : Half) (c : Capture)
    (m : Item) (e : ModuleEntry) (s : State), s.canonical → s.shaped → s.calm → s.restful → s.chain.requests = [] →
    s.chain.line = .window f sent → f.kind = .read → s.chain.hold = some (.capture p) → s.chain.down = false →
    s.plan.captures.find? Capture.holding = some c → c.items.find? (fun m => decide (m.addr = f.addr)) = some m →
    codes.length = m.cells + m.sensors → s.chain.entry f.addr = some e → e.follows = true →
    first ≤ s.chain.windowOf f →
    (status.internalFault = false → Goes (.reply ⟨us, first⟩ f.addr f.tag codes status version none) s fun t =>
      t.chain.map = modifyAddr s.chain.map f.addr (fun e =>
          { e with status := status, version := version, miss := 0, state := .inService, cause := none })
        ∧ t.chain.errs = s.chain.errs ∧ t.chain.periodErrs = s.chain.periodErrs ∧ t.chain.state = s.chain.state
        ∧ t.plan.keptAt f.addr = some (m.goodReading c.contents (s.plan.keptAt f.addr) codes)
        ∧ (match nextToRead s c f.addr with
          | some n => t.chain.line = .sending ⟨.read, n.addr, c.tag, []⟩ ∧ t.chain.hold = s.chain.hold
          | none => t.chain.line = .idle ∧ t.chain.hold = none)
        ∧ t = { s with
            conv.us := usAfter s us
            chain.map := t.chain.map
            chain.line := t.chain.line
            chain.hold := t.chain.hold
            plan.captures := t.plan.captures
            plan.kept := t.plan.kept
            sup.faultedSince := if anyFaulted t.chain.map then s.sup.faultedSince else none
            mem := t.mem }
        ∧ s.sameBut t [mapRec])
    ∧ (status.internalFault = true → Goes (.reply ⟨us, first⟩ f.addr f.tag codes status version none) s fun t =>
      t.chain.map = modifyAddr s.chain.map f.addr (fun e =>
          { e with status := status, version := version, miss := 0, state := .faulted, cause := some .internal })
        ∧ t.chain.errs = s.chain.errs ∧ t.chain.periodErrs = s.chain.periodErrs ∧ t.chain.state = s.chain.state
        ∧ (e.state = .faulted → t.attn = s.attn) ∧ (e.state ≠ .faulted → t.attn.pending .moduleFault = true)
        ∧ t.plan.keptAt f.addr = some (m.goodReading c.contents (s.plan.keptAt f.addr) codes)
        ∧ (match nextToRead s c f.addr with
          | some n => t.chain.line = .sending ⟨.read, n.addr, c.tag, []⟩ ∧ t.chain.hold = s.chain.hold
          | none => t.chain.line = .idle ∧ t.chain.hold = none)
        ∧ t = { s with
            conv.us := usAfter s us
            chain.map := t.chain.map
            chain.line := t.chain.line
            chain.hold := t.chain.hold
            plan.captures := t.plan.captures
            plan.kept := t.plan.kept
            sup.faultedSince := if anyFaulted t.chain.map then
                if anyFaulted s.chain.map then s.sup.faultedSince else some s.now
              else none
            attn := t.attn
            mem := t.mem }
        ∧ s.sameBut t [factorRec, mapRec])

/-- The commands with which an answer in a reply window fails, each at its instant: no character within the window, a
gap of characters, or an answer with a character error, whose first character past the window is one; a REPLY fails
with a wrong tag or number of codes too. -/
def answerFails (s : State) (f : Frame) (sent us : Us) : Instr → Prop
  | .replyTimeout u => usAfter s u = us ∧ s.chain.windowOf f ≤ elapsed us sent
  | .characterGap u => usAfter s u = us
  | .reply arrival addr tag codes _ _ err =>
    usAfter s arrival.us = us ∧ f.kind = .read
      ∧ (err.isSome = true ∨ addr ≠ f.addr ∨ s.chain.windowOf f < arrival.first ∨ tag ≠ f.tag
        ∨ codes.length ≠ s.plan.codesOf f.addr)
  | .echoBack u addr roundTrip _ _ _ _ err =>
    usAfter s u = us ∧ f.kind = .echo
      ∧ (err.isSome = true ∨ addr ≠ f.addr ∨ 10 * s.chain.windowOf f < roundTrip)
  | .configReply arrival addr _ _ _ err =>
    usAfter s arrival.us = us ∧ f.kind = .config ∧ (err.isSome = true ∨ addr ≠ f.addr ∨ s.chain.windowOf f < arrival.first)
  | .blockAck arrival addr _ _ _ err =>
    usAfter s arrival.us = us ∧ f.kind = .block ∧ (err.isSome = true ∨ addr ≠ f.addr ∨ s.chain.windowOf f < arrival.first)
  | _ => False

/-- A READ that ends in a miss, in UP with fewer than 8 errors in the last 10 ms: the error joins the window; a module
that was IN_SERVICE or STALE becomes STALE with the miss counted, and at the third miss FAULTED with cause MISSED,
which raises MODULE_FAULT and starts the faulted-since time. The READ of the next item that is read is sent, or, without one,
the hold ends. Of the rest of the part only the held capture and the
kept readings change. The µs time base follows the operand (log 4). That an error exactly 10,000 µs old is out of the
window is the model's choice (log 78). -/
def Obligations.ReadMisses : Prop :=
  ∀ (c : Instr) (us sent : Us) (p : Nat) (f : Frame) (e : ModuleEntry) (s : State), s.canonical → s.shaped → s.calm →
    s.restful → s.chain.requests = [] → s.chain.line = .window f sent → f.kind = .read →
    s.chain.hold = some (.capture p) → answerFails s f sent us c → s.chain.state = .up →
    (s.chain.errs.filter fun t => decide (elapsed us t < 10000)).length < 7 → s.chain.entry f.addr = some e →
    e.configured = true → (e.state = .inService ∨ e.state = .stale) →
    Goes c s fun t =>
      t.chain.errs = (s.chain.errs.filter fun t => decide (elapsed us t < 10000)) ++ [us] ∧ t.chain.state = .up
        ∧ (e.miss < 2 → t.chain.map
            = modifyAddr s.chain.map f.addr (fun e => { e with miss := e.miss + 1, state := .stale })
          ∧ t.attn = s.attn ∧ t.sup = s.sup)
        ∧ (2 ≤ e.miss → t.chain.map
            = modifyAddr s.chain.map f.addr (fun e => { e with miss := 3, state := .faulted, cause := some .missed })
          ∧ t.attn.pending .moduleFault = true
          ∧ t.sup = { s.sup with
              faultedSince := if anyFaulted s.chain.map then s.sup.faultedSince else some s.now })
        ∧ (∀ cap, s.plan.captures.find? Capture.holding = some cap → match nextToRead s cap f.addr with
          | some n => t.chain.line = .sending ⟨.read, n.addr, cap.tag, []⟩ ∧ t.chain.hold = s.chain.hold
          | none => t.chain.line = .idle ∧ t.chain.hold = none)
        ∧ t = { s with
            conv.us := us
            chain.errs := t.chain.errs
            chain.map := t.chain.map
            chain.line := t.chain.line
            chain.hold := t.chain.hold
            plan.captures := t.plan.captures
            plan.kept := t.plan.kept
            sup := t.sup
            attn := t.attn
            mem := t.mem }
        ∧ s.sameBut t [factorRec, mapRec]

/-- The survey's ECHO to an address: without a good answer it is sent once more with the next exchange tag, and no error
is counted; a second failure settles the address as absent. An absent address that is configured is FAULTED with cause
ABSENT, its latch delay kept, and raises MODULE_FAULT unless it was so already; one that is OUT_OF_SERVICE stays so. After
address 24 the survey ends. The µs time base follows the operand (log 4). -/
def Obligations.SurveyEchoFails : Prop :=
  ∀ (c : Instr) (us sent : Us) (a : Nat) (second : Bool) (f : Frame) (s : State), s.canonical → s.shaped → s.calm →
    s.restful → s.chain.line = .window f sent → f.kind = .echo → s.chain.hold = some (.survey a second) →
    answerFails s f sent us c →
    (second = false → exec c s = .next { s with
        conv.us := us
        chain.hold := some (.survey a true)
        chain.line := .sending ⟨.echo, a, s.chain.exTag, []⟩
        chain.exTag := cycle 255 s.chain.exTag })
    ∧ (∀ e, second = true → 1 ≤ a → a < 24 → s.chain.entry a = some e → e.configured = true → e.state ≠ .outOfService →
      Goes c s fun t =>
        t.chain.survey = modifyAddr s.chain.survey a (fun _ => absentEntry)
          ∧ t.chain.map = modifyAddr s.chain.map a (fun e => { e with state := .faulted, cause := some .absent })
          ∧ (e.state ≠ .faulted ∨ e.cause ≠ some .absent → t.attn.pending .moduleFault = true)
          ∧ (e.state = .faulted → e.cause = some .absent → t.attn = s.attn)
          ∧ t.chain.hold = some (.survey (a + 1) false)
          ∧ t.chain.line = .sending ⟨.echo, a + 1, s.chain.exTag, []⟩ ∧ t.chain.errs = s.chain.errs
          ∧ s.sameAround t ∧ s.sameContactors t)
    ∧ (second = true → a = 24 → s.chain.requests = [] → s.chain.firstUp = true →
      Goes c s fun t =>
        t.chain.survey = modifyAddr s.chain.survey a (fun _ => absentEntry) ∧ t.attn.pending .surveyDone = true
          ∧ t.chain.hold = none ∧ t.chain.line = .idle
          ∧ t.chain.present = (t.chain.survey.filter (·.present)).length
          ∧ s.sameAround t ∧ s.sameContactors t)
    ∧ (second = true → 1 ≤ a → a < 24 →
        (∀ e, s.chain.entry a = some e → e.configured = false ∨ e.state = .outOfService) →
      Goes c s fun t =>
        t = { s with
          conv.us := us
          chain.survey := modifyAddr s.chain.survey a fun _ => absentEntry
          chain.hold := some (.survey (a + 1) false)
          chain.line := .sending ⟨.echo, a + 1, s.chain.exTag, []⟩
          chain.exTag := cycle 255 s.chain.exTag
          mem := t.mem }
        ∧ s.sameOutside t (surveyAt a) (surveyAt a + 16))

/-- A good ECHO_BACK in a survey, below address 24, within the survey's reply window of 700 µs: the survey entry holds what
the module reported with the latch delay of the round trip; a configured entry with matching counts becomes IN_SERVICE with
miss count 0, the delay and the version, one with other counts FAULTED with cause MAP_MISMATCH; the ECHO to the next address
is sent. A good ECHO_BACK of a return probe, within its reply window (2 × L + 300 µs, R3), from a module handed back, returns
it to IN_SERVICE with miss count 0, takes its version and ends its return watch. One of a switch probe, within its reply
window and in the switch window: another version than the update's is recorded and the window stays; the update's version
makes the record SWITCHED, with that version as the one reported (the model's choice, log 109), and returns the module to
IN_SERVICE. If another record is SENT, the first of them is next: with its address eligible its module goes OUT_OF_SERVICE
and is sent the SWITCH, at once on a chain that is free. If that was the last SENT record, switching ends: with every record
SWITCHED and the floor below the version the firmware floor's write is asked for, otherwise the update ends in IDLE with
outcome PARTIAL; an abort that waits ends it with outcome ABORTED instead. The µs time base follows the operand (log 4). -/
def Obligations.SurveyEchoBack : Prop :=
  (∀ (us sent : Us) (a rt kind cells sensors : Nat) (version : Half) (second : Bool) (f : Frame) (e : ModuleEntry)
    (s : State), s.canonical → s.shaped → s.restful → s.chain.line = .window f sent → f.kind = .echo → f.addr = a →
    s.chain.hold = some (.survey a second) → 1 ≤ a → a < 24 → s.chain.entry a = some e → e.configured = true →
    e.state ≠ .outOfService → s.chain.returning = [] → s.upd.window = none → s.upd.state ≠ .switching → rt ≤ 7000 →
    Goes (.echoBack us a rt kind cells sensors version none) s fun t =>
      t.chain.survey = modifyAddr s.chain.survey a
          (fun _ => ⟨true, kind, cells, sensors, rt, (latchDelay rt).1, (latchDelay rt).2, version⟩)
        ∧ t.chain.line = .sending ⟨.echo, a + 1, s.chain.exTag, []⟩ ∧ t.chain.hold = some (.survey (a + 1) false)
        ∧ t.chain.errs = s.chain.errs
        ∧ (cells = e.cells ∧ sensors = e.sensors → t.chain.map = modifyAddr s.chain.map a fun e =>
            { e with
              delay := (latchDelay rt).1
              delayClamped := (latchDelay rt).2
              version := version
              state := .inService
              miss := 0
              cause := none })
        ∧ (¬(cells = e.cells ∧ sensors = e.sensors) → t.chain.map = (modifyAddr s.chain.map a fun e =>
            { e with
              delay := (latchDelay rt).1
              delayClamped := (latchDelay rt).2
              version := version
              state := .faulted
              cause := some .mapMismatch })
          ∧ (e.state ≠ .faulted ∨ e.cause ≠ some .mapMismatch → t.attn.pending .moduleFault = true))
        ∧ s.sameAround t ∧ s.sameContactors t)
  ∧ (∀ (us sent : Us) (rt kind cells sensors : Nat) (version : Half) (f : Frame) (e : ModuleEntry) (s : State),
    s.canonical → s.shaped → s.calm → s.restful → s.chain.requests = [] → s.chain.line = .window f sent → f.kind = .echo →
    s.chain.entry f.addr = some e → e.configured = true → e.state = .outOfService →
    rt ≤ 10 * s.chain.windowOf f →
    (∀ a, s.chain.hold = some (.returnEcho a) → s.chain.returning.any (fun r => decide (r.1 = f.addr)) = true →
      s.upd.window = none →
      Goes (.echoBack us f.addr rt kind cells sensors version none) s fun t =>
        t = { s with
            conv.us := usAfter s us
            chain.hold := none
            chain.line := .idle
            chain.returning := s.chain.returning.filter fun r => decide (r.1 ≠ f.addr)
            chain.map := modifyAddr s.chain.map f.addr fun e =>
              { e with state := .inService, miss := 0, cause := none, version := version }
            upd.watches := s.upd.watches.filter fun w => decide (w.1 ≠ f.addr)
            mem := t.mem }
          ∧ s.sameBut t [mapRec])
    ∧ (∀ live w tn d, s.chain.hold = some (.firmware .probe live) → s.upd.state = .switching → s.upd.window = some w →
        s.upd.current = some (tn, d) → d.addr = f.addr → elapsed s.now w.since < 2000 →
      (version.toNat ≠ s.upd.header.version →
        Goes (.echoBack us f.addr rt kind cells sensors version none) s fun t =>
          t.upd.window = some { w with reported := some version.toNat }
            ∧ t.upd.dist = modifyAt s.upd.dist tn.pos (fun d => { d with reported := some version.toNat })
            ∧ t.upd.state = .switching ∧ t.chain.hold = none ∧ t.chain.line = .idle
            ∧ (s.chain.returning = [] → (t.chain.entry f.addr).map (·.state) = some .outOfService)
            ∧ s.sameAround t ∧ s.sameContactors t)
      ∧ (version.toNat = s.upd.header.version →
          (∀ j d', getAt s.upd.dist j = some d' → j ≠ tn.pos → d'.state ≠ .sent) → d.state = .sent →
        Goes (.echoBack us f.addr rt kind cells sensors version none) s fun t =>
          t.upd.dist = modifyAt s.upd.dist tn.pos
              (fun d => { d with state := .switched, reported := some version.toNat })
            ∧ t.upd.window = none ∧ t.chain.hold = none
            ∧ t.chain.entry f.addr
                = some { e with state := .inService, miss := 0, cause := none, version := version }
            ∧ (s.upd.aborting = true → t.updateEnds s .aborted 5 0)
            ∧ (s.upd.aborting = false → (t.upd.dist.any fun d => decide (d.state ≠ .switched)) = true →
                t.updateEnds s .partial_ 3 32)
            ∧ (s.upd.aborting = false → (∀ d' ∈ t.upd.dist, d'.state = .switched) →
                (∀ n, getAt s.store.work.fwFloors s.upd.header.kind = some n → n < s.upd.header.version →
                  t.upd.state = .switching ∧ t.upd.commit = .fwFloor ∧ ∃ q ∈ t.store.queue, .engine ∈ q.who
                    ∧ ∃ v, q.payload = .fwFloor s.upd.header.kind v ∧ s.upd.header.version ≤ v))
            ∧ s.sameAround t ∧ s.sameContactors t)
      ∧ (∀ (n : Nat) (d' : DistRec) (e' : ModuleEntry), version.toNat = s.upd.header.version → s.upd.aborting = false →
          n ≠ tn.pos → getAt s.upd.dist n = some d' → d'.state = .sent →
          (∀ j x, j < n → j ≠ tn.pos → getAt s.upd.dist j = some x → x.state ≠ .sent) → d'.moved = false →
          s.eligible d'.addr = true → d'.addr ≠ f.addr → s.chain.entry d'.addr = some e' → s.chain.down = false →
          s.chain.state ≠ .asleep → s.chain.sleepCmd = false → s.chain.wake = .none →
        Goes (.echoBack us f.addr rt kind cells sensors version none) s fun t =>
          t.upd.dist = modifyAt s.upd.dist tn.pos
              (fun d => { d with state := .switched, reported := some version.toNat })
            ∧ t.upd.state = .switching ∧ t.upd.turn = some ⟨n, false, 0, 0⟩ ∧ t.upd.window = none
            ∧ t.upd.link = .exchange ∧ t.chain.hold = some (.firmware .switch true)
            ∧ t.chain.line = .sending ⟨.switch, d'.addr, s.chain.exTag, le 2 s.upd.header.version⟩
            ∧ t.chain.entry f.addr
                = some { e with state := .inService, miss := 0, cause := none, version := version }
            ∧ t.chain.entry d'.addr = some { e' with state := .outOfService, cause := none }
            ∧ s.sameAround t ∧ s.sameContactors t)))

/-- The end of the survey at address 24, with the chain free of other work, at a good ECHO_BACK: the survey entry holds what the
module reported, in the table too, and a configured entry of the map that is not OUT_OF_SERVICE becomes IN_SERVICE by
matching counts and FAULTED with cause MAP_MISMATCH by others; SURVEY_DONE is raised and the counts of present and configured
modules and the break location are recorded, in the table's header too. With a module configured and every configured module
present and matching the chain is UP with an empty error window; a chain that comes up from DOWN raises CHAIN_STATE and sends
a CHAIN_UP event with the number of present modules. Otherwise, so also with no module configured, a survey that began in
DOWN leaves DOWN, and any other makes the chain become down, with CHAIN_STATE, the mark and a CHAIN_DOWN event; either starts
the automatic survey timer. The first survey since a reset to end in UP asks for the balancing stop, which a free chain sends
at once, and a BALANCE slip in flight is ABORTED; that the stop's CONFIG has the duration 0 besides its empty mask is the
model's choice (log 75). A SURVEY slip in flight completes with OK and these numbers. The µs time base follows the operand
(log 4). -/
def Obligations.SurveyEnds : Prop :=
  ∀ (us sent : Us) (rt kind cells sensors : Nat) (version : Half) (second : Bool) (f : Frame) (s : State),
    s.shaped → s.restful → s.chain.requests = [] → s.chain.line = .window f sent → f.kind = .echo → f.addr = 24 →
    s.chain.hold = some (.survey 24 second) → s.chain.returning = [] → s.upd.window = none →
    s.upd.state ≠ .switching → s.power.returning = none → rt ≤ 7000 →
    Goes (.echoBack us 24 rt kind cells sensors version none) s fun t =>
      t.attn.pending .surveyDone = true ∧ t.chain.present = (t.chain.survey.filter (·.present)).length
        ∧ t.chain.configured = (s.chain.map.filter (·.configured)).length
        ∧ t.chain.breakLoc = breakOf 1 (t.chain.survey.zip t.chain.map)
        ∧ t.chain.survey = modifyAddr s.chain.survey 24
            (fun _ => ⟨true, kind, cells, sensors, rt, (latchDelay rt).1, (latchDelay rt).2, version⟩)
        ∧ (s.canonical →
            t.mem.readBytes (surveyAt 24) 10 = [1, byte kind, byte cells, byte sensors] ++ le 2 rt
                ++ [byte (latchDelay rt).1, if (latchDelay rt).2 then 1 else 0] ++ le 2 version.toNat
              ∧ t.mem.readBytes 0x1000 3 = [byte t.chain.present, byte t.chain.configured, byte t.chain.breakLoc])
        ∧ (∀ e, s.chain.entry 24 = some e →
            (e.configured = false → t.chain.map = s.chain.map)
            ∧ (e.configured = true → e.state = .outOfService → t.chain.map = modifyAddr s.chain.map 24 fun e =>
                { e with delay := (latchDelay rt).1, delayClamped := (latchDelay rt).2, version := version })
            ∧ (e.configured = true → e.state ≠ .outOfService → cells = e.cells ∧ sensors = e.sensors →
                t.chain.map = modifyAddr s.chain.map 24 fun e =>
                  { e with
                    delay := (latchDelay rt).1
                    delayClamped := (latchDelay rt).2
                    version := version
                    state := .inService
                    miss := 0
                    cause := none })
            ∧ (e.configured = true → e.state ≠ .outOfService → ¬(cells = e.cells ∧ sensors = e.sensors) →
                (t.chain.map = modifyAddr s.chain.map 24 fun e =>
                  { e with
                    delay := (latchDelay rt).1
                    delayClamped := (latchDelay rt).2
                    version := version
                    state := .faulted
                    cause := some .mapMismatch })
                ∧ (e.state ≠ .faulted ∨ e.cause ≠ some .mapMismatch → t.attn.pending .moduleFault = true)))
        ∧ (s.chain.firstUp = true ∨ t.chain.state = .down → t.chain.line = .idle ∧ t.chain.hold = none)
        ∧ ((t.chain.map.any (·.configured)) = true → (t.chain.survey.zip t.chain.map).all matchesMap = true →
            t.chain.state = .up ∧ t.chain.errs = [] ∧ t.chain.firstUp = true
              ∧ (s.chain.origin = .down → t.attn.pending .chainState = true
                ∧ (s.calm → ∃ e, t.ev.inbox = s.ev.inbox ++ [e] ∧ e.kind = .chainUp ∧ e.detail = .chainUp t.chain.present))
              ∧ (s.chain.origin ≠ .down → s.calm → t.ev.inbox = s.ev.inbox)
              ∧ (s.chain.firstUp = false →
                (s.chain.sleepCmd = false → s.chain.wake = .none → t.chain.hold = some .stop
                  ∧ t.chain.line = .sending ⟨.config, 31, s.chain.exTag, [0, 0, 0, 0]⟩ ∧ t.chain.requests = [])
                ∧ (s.chain.sleepCmd = true ∨ s.chain.wake ≠ .none → t.chain.requests = [.stop])
                ∧ (∀ b, s.chain.balance = some b → t.chain.balance = none
                  ∧ (s.canonical → s.inFlight b.slot → s.chain.surveySlip ≠ some b.slot → t.showsDone b.slot 5 0))))
        ∧ ((t.chain.map.any (·.configured)) = false ∨ (t.chain.survey.zip t.chain.map).all matchesMap = false →
            t.chain.state = .down ∧ t.chain.surveyTimer = some s.now ∧ t.chain.firstUp = s.chain.firstUp
              ∧ (s.chain.origin = .down → t.chain.downSince = s.chain.downSince ∧ (s.calm → t.ev.inbox = s.ev.inbox))
              ∧ (s.chain.origin ≠ .down → t.chain.wasDown = true ∧ t.chain.downSince = s.now
                ∧ t.attn.pending .chainState = true
                ∧ (s.calm → ∃ e, t.ev.inbox = s.ev.inbox ++ [e] ∧ e.kind = .chainDown
                  ∧ e.detail = .chainDown .surveying (some s.chain.origin) t.chain.breakLoc)))
        ∧ (∀ k, s.canonical → s.chain.surveySlip = some k → s.inFlight k →
            (s.chain.firstUp = true ∨ ∀ b, s.chain.balance = some b → b.slot ≠ k) →
            t.showsDone k 1 0 ∧ t.mem.readBytes (slotAt k + 52) 4
              = [byte t.chain.present, byte t.chain.configured, byte t.chain.breakLoc, byte t.chain.state.code])
        ∧ s.sameAround t ∧ s.sameContactors t

/-- A CONFIG that is acknowledged as the last of its BALANCE slip: the address's balancing record holds the mask and
its end time, the reported status and version are taken, and the slip completes with OK, or OK_CLAMPED after a clamp
or a skipped address. A wrong tag leaves the map with its records and counts no character error. The last clause, and
the status taken from a CONFIG, are read from the spec (log 36, 37). -/
def Obligations.ConfigAnswered : Prop :=
  ∀ (us sent : Us) (first : Nat) (f : Frame) (status : ModuleStatus) (version : Half) (bal : Balance) (mask : Half)
    (s : State), s.canonical → first ≤ s.chain.windowOf f → s.chain.line = .window f sent → f.kind = .config → s.chain.hold = some .config →
    s.chain.balance = some bal → bal.todo = [(f.addr, mask)] →
    (s.restful → s.chain.requests = [] → bal.anyNotAcked = false → bal.ending = false →
      s.inFlight bal.slot → mask ≠ 0 →
      Goes (.configReply ⟨us, first⟩ f.addr f.tag status version none) s fun t =>
        t.chain.map = modifyAddr s.chain.map f.addr (fun e =>
            { e with
              status := status
              version := version
              balMask := mask
              balEnd := s.now + BitVec.ofNat 32 (1000 * bal.duration) })
          ∧ t.chain.balance = none ∧ t.chain.line = .idle ∧ t.chain.hold = none
          ∧ t.showsDone bal.slot (if bal.clamped = true ∨ 0 < bal.skipped then 2 else 1) 0
          ∧ s.sameAround t ∧ s.sameContactors t)
    ∧ (∀ tag, tag ≠ f.tag →
      Goes (.configReply ⟨us, first⟩ f.addr tag status version none) s fun t =>
        t.chain.errs = s.chain.errs ∧ t.chain.periodErrs = s.chain.periodErrs
          ∧ (s.restful → t.chain.map = s.chain.map))

/-- The first record of a list that is in a state. -/
def firstIn (st : DistState) (l : List DistRec) (n : Nat) (d : DistRec) : Prop :=
  getAt l n = some d ∧ d.state = st ∧ ∀ j x, j < n → getAt l j = some x → x.state ≠ st

/-- In DISTRIBUTING the block of a turn is being sent to the address of a record, one send more than before. -/
def blockGoesOut (s t : State) (d : DistRec) (tn : Turn) : Prop :=
  t.upd.state = .distributing ∧ t.upd.turn = some { tn with attempts := tn.attempts + 1 } ∧ t.upd.link = .exchange
    ∧ t.chain.hold = some (.firmware .block true)
    ∧ t.chain.line = .sending ⟨.block, d.addr, s.chain.exTag, blockPayload s.upd.staging tn⟩

/-- The record in turn has ended in DISTRIBUTING, which leaves the records `l`. The first PENDING record whose address is
eligible is SENDING and its first block is sent. Without a PENDING record distribution ends: with no record SENT the update
ends with NONE_SENT; with one, the state is SWITCHING and the first SENT record's module is OUT_OF_SERVICE and sent the SWITCH
while the supervisor is OPEN or LOCKED_OUT, and the switch is pending otherwise. -/
def turnPasses (s t : State) (l : List DistRec) : Prop :=
  (∀ n d, firstIn .pending l n d → d.moved = false → s.eligible d.addr = true →
      t.upd.dist = modifyAt l n (fun d => { d with state := .sending }) ∧ blockGoesOut s t d ⟨n, false, 0, 0⟩)
    ∧ ((∀ d ∈ l, d.state ≠ .pending) →
      ((∀ d ∈ l, d.state ≠ .sent) → t.upd.dist = l ∧ t.updateEnds s .noneSent 3 31)
      ∧ ((∃ d ∈ l, d.state = .sent) → s.sup.state ≠ .open_ → s.sup.state ≠ .lockedOut →
        t.upd.state = .distributing ∧ t.upd.dist = l ∧ t.upd.switchPending = true ∧ t.upd.turn = none
          ∧ t.chain.hold = none ∧ t.chain.line = .idle)
      ∧ (∀ n d e, firstIn .sent l n d → s.sup.state = .open_ ∨ s.sup.state = .lockedOut → d.moved = false →
          s.eligible d.addr = true → s.chain.entry d.addr = some e →
        t.upd.state = .switching ∧ t.attn.pending .updateState = true ∧ t.upd.dist = l ∧ t.upd.switchPending = false
          ∧ t.upd.turn = some ⟨n, false, 0, 0⟩ ∧ t.upd.link = .exchange
          ∧ t.chain.hold = some (.firmware .switch true)
          ∧ t.chain.line = .sending ⟨.switch, d.addr, s.chain.exTag, le 2 s.upd.header.version⟩
          ∧ t.chain.entry d.addr = some { e with state := .outOfService, cause := none }))

/-- A BLOCK_ACK in DISTRIBUTING: one that repeats index and toggle bit with the block's CRC acknowledges the block, and the next
block is sent at once with the toggle bit changed; after the last block the record is SENT, and the next record's turn comes
or distribution ends. A block with a failed answer, or acknowledged with another index or toggle bit, is sent again with the
toggle bit unchanged, one acknowledged with another CRC-16 with the toggle bit changed; after the fourth send the record is
FAILED with cause NO_ACK, and the next record's turn comes or distribution ends. A failed answer is counted as an error of
the chain. With an abort that waits the update ends in IDLE with outcome ABORTED, the acknowledged block in the record, and
every SENDING and PENDING record FAILED with that cause; that this holds for a record whose last block was acknowledged too
is the model's choice (log 83). One whose exchange the engine has withdrawn, whatever its contents, is disregarded: it only
ends the hold, also with no update and no record in turn; with a later update in DISTRIBUTING whose block request waits, that
block is then sent and its record stands. The µs time base follows the operand (log 4). -/
def Obligations.BlockAcknowledged : Prop :=
  ∀ (us sent : Us) (first : Nat) (f : Frame) (tn : Turn) (d : DistRec) (live : Bool) (s : State), s.awake →
    first ≤ s.chain.windowOf f → s.plan.burst = none →
    s.upd.pause = none → s.chain.line = .window f sent → f.kind = .block →
    s.chain.hold = some (.firmware .block live) →
    (live = true → s.chain.requests = [] → s.upd.current = some (tn, d) → s.upd.state = .distributing →
      s.upd.aborting = false → s.spoiled d = false → s.chain.state = .up → s.chain.sleepCmd = false → s.chain.wake = .none →
      tn.block + 1 < blockCount s.upd.header.length → ∀ (index crc : Half), index.toNat = tn.block →
      crc = crc16 (blockData s.upd.staging tn.block) →
      Goes (.blockAck ⟨us, first⟩ f.addr index tn.toggle crc none) s fun t =>
        t.upd.dist = modifyAt s.upd.dist tn.pos (fun d => { d with lastAck := some tn.block })
          ∧ t.upd.turn = some ⟨tn.pos, !tn.toggle, tn.block + 1, 1⟩
          ∧ t.chain.hold = some (.firmware .block true) ∧ t.upd.link = .exchange ∧ t.upd.state = .distributing
          ∧ t.chain.line = .sending ⟨.block, d.addr, s.chain.exTag,
              blockPayload s.upd.staging ⟨tn.pos, !tn.toggle, tn.block + 1, 0⟩⟩
          ∧ t.chain.errs = s.chain.errs ∧ s.sameAround t ∧ s.sameContactors t)
    ∧ (live = true → s.chain.requests = [] → s.upd.current = some (tn, d) → s.canonical → s.upd.state = .distributing →
      s.upd.aborting = true →
      ∀ (index crc : Half), index.toNat = tn.block → crc = crc16 (blockData s.upd.staging tn.block) →
      Goes (.blockAck ⟨us, first⟩ f.addr index tn.toggle crc none) s fun t =>
        t.upd.dist = (modifyAt s.upd.dist tn.pos fun d => { d with lastAck := some tn.block }).map
            (fun d => if d.state = .sending ∨ d.state = .pending then
              { d with state := .failed, cause := some .aborted } else d)
          ∧ t.updateEnds s .aborted 5 0 ∧ t.upd.aborting = false
          ∧ (∀ k ∈ s.upd.aborts, s.inFlight k → t.showsDone k 1 0 ∨ ∃ q, s.upd.slip = some (q, k))
          ∧ s.sameAround t ∧ s.sameContactors t)
    ∧ (live = false → s.chain.requests = [] → s.calm → s.restful → ∀ (index crc : Half) (toggle : Bool),
      exec (.blockAck ⟨us, first⟩ f.addr index toggle crc none) s = .next { s with
        conv.us := usAfter s us
        chain.hold := none
        chain.line := .idle })
    ∧ (live = false → s.chain.requests = [.firmware .block] → s.upd.current = some (tn, d) → s.upd.state = .distributing →
      s.upd.switchPending = false → s.spoiled d = false → s.chain.state = .up → s.chain.sleepCmd = false →
      s.chain.wake = .none → ∀ (index crc : Half) (toggle : Bool),
      Goes (.blockAck ⟨us, first⟩ f.addr index toggle crc none) s fun t =>
        t.upd = { s.upd with link := .exchange, turn := some { tn with attempts := tn.attempts + 1 } }
          ∧ t.chain.hold = some (.firmware .block true)
          ∧ t.chain.line = .sending ⟨.block, d.addr, s.chain.exTag, blockPayload s.upd.staging tn⟩
          ∧ t.chain.errs = s.chain.errs ∧ t.chain.map = s.chain.map ∧ s.sameAround t ∧ s.sameContactors t)
    ∧ (live = true → s.canonical → s.chain.requests = [] → s.upd.current = some (tn, d) → s.upd.state = .distributing →
      s.upd.aborting = false → s.spoiled d = false → s.chain.state = .up ∨ s.chain.state = .suspect →
      s.chain.sleepCmd = false → s.chain.wake = .none →
      (∀ (index crc : Half), index.toNat = tn.block → crc = crc16 (blockData s.upd.staging tn.block) →
          blockCount s.upd.header.length ≤ tn.block + 1 →
        Goes (.blockAck ⟨us, first⟩ f.addr index tn.toggle crc none) s fun t =>
          turnPasses s t (modifyAt s.upd.dist tn.pos fun d => { d with lastAck := some tn.block, state := .sent })
            ∧ t.chain.errs = s.chain.errs ∧ s.sameAround t ∧ s.sameContactors t)
      ∧ (∀ (c : Instr) (failedAt : Us), answerFails s f sent failedAt c →
        Goes c s fun t =>
          (tn.attempts < 4 → blockGoesOut s t d tn ∧ t.upd.dist = s.upd.dist)
            ∧ (4 ≤ tn.attempts →
              turnPasses s t (modifyAt s.upd.dist tn.pos fun d => { d with state := .failed, cause := some .noAck }))
            ∧ (s.chain.state = .suspect → t.chain.periodErrs = s.chain.periodErrs + 1)
            ∧ (s.chain.state = .up →
              t.chain.errs = (s.chain.errs.filter fun t => decide (elapsed failedAt t < 10000)) ++ [failedAt])
            ∧ s.sameAround t ∧ s.sameContactors t)
      ∧ (∀ (index crc : Half) (toggle : Bool), index.toNat ≠ tn.block ∨ toggle ≠ tn.toggle →
        Goes (.blockAck ⟨us, first⟩ f.addr index toggle crc none) s fun t =>
          (tn.attempts < 4 → blockGoesOut s t d tn ∧ t.upd.dist = s.upd.dist)
            ∧ (4 ≤ tn.attempts →
              turnPasses s t (modifyAt s.upd.dist tn.pos fun d => { d with state := .failed, cause := some .noAck }))
            ∧ s.sameAround t ∧ s.sameContactors t)
      ∧ (∀ (index crc : Half), index.toNat = tn.block → crc ≠ crc16 (blockData s.upd.staging tn.block) →
        Goes (.blockAck ⟨us, first⟩ f.addr index tn.toggle crc none) s fun t =>
          (tn.attempts < 4 → blockGoesOut s t d { tn with toggle := !tn.toggle } ∧ t.upd.dist = s.upd.dist)
            ∧ (4 ≤ tn.attempts →
              turnPasses s t (modifyAt s.upd.dist tn.pos fun d => { d with state := .failed, cause := some .noAck }))
            ∧ s.sameAround t ∧ s.sameContactors t))

/-! ### Link health -/

/-- Stray characters outside a reply window: one error joins the window of the last 10 ms in UP, and the eighth there
enters SUSPECT; in SUSPECT it is counted in the period; in DOWN, SURVEYING and ASLEEP nothing is counted. In a reply
window nothing is counted. A SUSPECT period of 10 ms ends: with fewer than 2 errors the chain enters UP with an empty
window, otherwise the next period begins. That the periods follow without a gap is read from the spec (log 59); that the
first counts none of the errors before it is the model's choice (log 64), and so is that an error exactly 10,000 µs old is
out of the window (log 78); the µs time base follows the operand (log 4). -/
def Obligations.LinkHealth : Prop :=
  (∀ (us : Us) (s : State), s.canonical → s.calm →
    ((∀ f sent, s.chain.line ≠ .window f sent) →
      (s.chain.state = .up → (s.chain.errs.filter fun t => decide (elapsed (usAfter s us) t < 10000)).length < 7 →
        exec (.strayCharacters us) s = .next { s with
          conv.us := usAfter s us
          chain.errs := (s.chain.errs.filter fun t => decide (elapsed (usAfter s us) t < 10000)) ++ [usAfter s us] })
      ∧ (s.chain.state = .up → 7 ≤ (s.chain.errs.filter fun t => decide (elapsed (usAfter s us) t < 10000)).length →
        Goes (.strayCharacters us) s fun t =>
          t = { s with
            conv.us := usAfter s us
            chain.state := .suspect
            chain.errs := (s.chain.errs.filter fun t => decide (elapsed (usAfter s us) t < 10000)) ++ [usAfter s us]
            chain.suspectSince := s.now
            chain.periodStart := s.now
            chain.periodErrs := 0
            mem := t.mem }
          ∧ s.sameBut t [chainRec])
      ∧ (s.chain.state = .suspect →
        exec (.strayCharacters us) s = .next { s with
          conv.us := usAfter s us
          chain.periodErrs := s.chain.periodErrs + 1 })
      ∧ (s.chain.state ≠ .up → s.chain.state ≠ .suspect →
        exec (.strayCharacters us) s = .next { s with conv.us := usAfter s us }))
    ∧ (∀ f sent, s.chain.line = .window f sent →
        exec (.strayCharacters us) s = .next { s with conv.us := usAfter s us }))
  ∧ (∀ s : State, s.canonical → s.calm → s.restful → s.chain.state = .suspect → 10 ≤ elapsed s.now s.chain.periodStart →
    (s.chain.periodErrs < 2 →
      Goes .suspectPeriodEnd s fun t =>
        t = { s with chain.state := .up, chain.errs := [], mem := t.mem } ∧ s.sameBut t [chainRec])
    ∧ (2 ≤ s.chain.periodErrs →
      exec .suspectPeriodEnd s = .next { s with
        chain.periodStart := s.chain.periodStart + 10
        chain.periodErrs := 0 }))

/-- The time in SUSPECT exceeds the chain-loss hold on an idle line: the chain is DOWN, the down-since time and the
automatic survey timer start, CHAIN_STATE is raised and a CHAIN_DOWN event is sent. 200 ms after its start the
automatic survey timer asks for a survey, which a free chain in DOWN grants at once: SURVEYING with origin DOWN, and
the first ECHO is sent. -/
def Obligations.ChainLostAndSurveyed : Prop :=
  (∀ s : State, s.canonical → s.calm → s.restful → s.chain.requests = [] → s.chain.line = .idle →
    s.chain.state = .suspect → s.store.active.chainHold < (elapsed s.now s.chain.suspectSince : Nat) →
    Goes .chainLossHold s fun t =>
      t.attn.pending .chainState = true
        ∧ t = { s with
            chain.state := .down
            chain.wasDown := true
            chain.downSince := s.now
            chain.surveyTimer := some s.now
            attn := t.attn
            ev.inbox := s.ev.inbox ++ [⟨.chainDown, 0, s.sup.coils, s.sup.coils, .chainDown .suspect none 0, [], none,
              false, false, false⟩]
            mem := t.mem }
        ∧ s.sameBut t [chainRec, factorRec])
  ∧ (∀ (s : State) (tm : Ms), s.canonical → s.calm → s.resting → s.chain.requests = [] → s.chain.surveyTimer = some tm →
    200 ≤ elapsed s.now tm → s.chain.free = true → s.chain.state = .down →
    Goes .autoSurveyTimer s fun t =>
      t = { s with
        chain.state := .surveying
        chain.origin := .down
        chain.surveyTimer := none
        chain.hold := some (.survey 1 false)
        chain.line := .sending ⟨.echo, 1, s.chain.exTag, []⟩
        chain.exTag := cycle 255 s.chain.exTag
        mem := t.mem }
      ∧ s.sameBut t [chainRec])

/-! ### The converter and the clocks -/

/-- The charge counter with its SATURATED mark after an addition: held at ±(2^63 − 1) with the mark, and unchanged once it
stands (R31). -/
def chargeAdded (c : Int × Bool) (d : Int) : Int × Bool :=
  if c.2 = true then c
  else (max (-(2 ^ 63 - 1)) (min (2 ^ 63 - 1) (c.1 + d)), decide (2 ^ 63 - 1 < (c.1 + d).natAbs))

/-- The weight by which a release counts, by the magnitude of the current: 1 below 5 A, 1000 from the break limit on, 10
between. -/
def releaseWear (s : State) (i : Int) : Nat :=
  if i.natAbs < 500 then 1 else if (i.natAbs : Int) < s.store.active.breakLimit then 10 else 1000

/-- A balancing stop has been asked for, no other request waiting: a free chain sends it at once, DOWN or not; on a chain that is
held it waits. A BALANCE slip in flight sends no further CONFIG: it ends with the exchange in progress, or is ABORTED at once. That
the stop's CONFIG has the duration 0 besides its empty mask is the model's choice (log 75). -/
def stopAsked (s t : State) : Prop :=
  (s.chain.occupied → .stop ∈ t.chain.requests)
    ∧ (s.chain.requests = [] → s.chain.free = true →
        t.chain.hold = some .stop ∧ t.chain.line = .sending ⟨.config, 31, s.chain.exTag, [0, 0, 0, 0]⟩)
    ∧ (∀ b, s.chain.balance = some b →
        (s.chain.hold = some .config → t.chain.balance = some { b with ending := true })
        ∧ (s.chain.hold ≠ some .config → t.chain.balance = none
          ∧ (s.canonical → s.inFlight b.slot → t.showsDone b.slot 5 0)))

/-- An opening has begun as an autonomous open, with a release current and its causes in the order taken: MAIN_POS and PRECHARGE
are released and OPENING entered; a CLOSE in flight is ABORTED; AUTO_OPEN and CONTACTOR_CHANGE are pending; an AUTO_OPEN event
holds the first cause in its cause field and the others in its detail, with the length of the deferral that it ends, followed by
HIGH_CURRENT_BREAK if the release current is at or above the break limit; the wear count of MAIN_POS advances; the balancing stop
is asked for. That the first cause stands in the cause field by its code alone is the model's choice (log 74), and so is the
stop's duration 0 (log 75). -/
def autonomousOpen (s t : State) (i : Int) (causes : List CauseRec) : Prop :=
  t.sup.state = .opening ∧ t.sup.mainPos.on = false ∧ t.sup.precharge.on = false ∧ t.sup.mainNeg = s.sup.mainNeg
    ∧ t.sup.opening = some ⟨[], i, causes.map (·.cause), s.now⟩ ∧ t.sup.close = none ∧ t.sup.deferral = none
    ∧ t.sup.once = s.sup.once ∧ t.attn.pending .autoOpen = true ∧ t.attn.pending .contactorChange = true
    ∧ (∀ c, s.sup.close = some c → s.canonical → s.inFlight c.slot → t.showsDone c.slot 5 0)
    ∧ (s.calm → s.restful → t.ev.inbox = s.ev.inbox
        ++ ⟨.autoOpen, (causes.head?.map (·.cause.code)).getD 0, s.sup.coils, ⟨s.sup.mainNeg.on, false, false⟩, .release i,
            causes.drop 1, s.deferralLength, true, false, false⟩
          :: (if s.store.active.breakLimit ≤ (i.natAbs : Int) then
            [⟨.highCurrentBreak, 0, s.sup.coils, ⟨s.sup.mainNeg.on, false, false⟩, .release i, [], none, false, true, false⟩]
            else []))
    ∧ (s.restful → s.sup.mainPos.on = true → (∀ q ∈ s.store.queue, ∀ d, q.payload ≠ .wearPos d) →
        t.store.queue = s.store.queue ++ [⟨.wearPos (releaseWear s i), [.wear]⟩])
    ∧ (s.restful → stopAsked s t)

/-- The bracketing pair that a completed sample x, with the history h, gives a listed address: once the sample's time stamp lies
after the latch time, with the entry 100 µs older, or with the sample alone and ALIGN_CLAMPED where the history holds none. A
restarted time base, whose only sample lies long before the latch time, counts as after it (log 39). -/
def pairTaken (h : List Sample) (x : Sample) (m m' : Item) : Prop :=
  m' = { m with pair := m'.pair }
    ∧ (m.pair.isSome = true → m'.pair = m.pair)
    ∧ (m.pair = none → x.t ≠ m.tm → elapsed x.t m.tm < 2 ^ 31 →
      (∀ a, h.find? (fun y => decide (y.t = x.t - 100)) = some a →
          m'.pair = some ⟨a.i, x.i, elapsed m.tm a.t, false, a.satI || x.satI⟩)
      ∧ (h.find? (fun y => decide (y.t = x.t - 100)) = none → m'.pair = some ⟨x.i, x.i, 0, true, x.satI⟩))
    ∧ (m.pair = none → x.t = m.tm ∨ 2 ^ 31 ≤ elapsed x.t m.tm →
      (h ≠ [x] → m'.pair = none)
      ∧ (h = [x] → m'.pair = if 1000 ≤ elapsed m.tm x.t then some ⟨x.i, x.i, 0, true, x.satI⟩ else none))

/-- The broadcast readings that a completed sample gives a capture whose CAPTURE has left at tb: once its time stamp lies after
tb, those of the nearer one of it and the entry 100 µs older. -/
def broadcastTaken (h : List Sample) (x : Sample) (tb : Us) (old new : Option Broadcast) : Prop :=
  (old.isSome = true → new = old)
    ∧ (old = none → x.t ≠ tb → elapsed x.t tb < 2 ^ 31 → ∃ y : Sample, new = some ⟨y.vBatt, y.vLink, y.i, y.satI⟩
      ∧ (∀ a, h.find? (fun z => decide (z.t = x.t - 100)) = some a → y = if elapsed tb a.t < 50 then a else x)
      ∧ (h.find? (fun z => decide (z.t = x.t - 100)) = none → y = x))
    ∧ (old = none → x.t = tb ∨ 2 ^ 31 ≤ elapsed x.t tb → h ≠ [x] → new = none)

/-- SAMPLE_LATCH while the converter scans latches the four channels 100 µs after the latch before, each held at its full scale
with its mark and a voltage below 0 reported as 0, and changes nothing else but the µs time base; a stopped converter latches
nothing. A latched sample completes: it joins the history, from which the oldest of 64 gives way; the charge counter takes
its current, held at ±(2^63 − 1) with the saturation mark, and a saturated counter stays; the hard current run counts it; in
PRECHARGING a sample that reaches the ratio energizes MAIN_POS and enters CLOSING. A sample stamped 400 µs after the last of
a filling window, or after its event's, joins the window, any other leaves it; the 16th completes the record, which raises
EVENT_NEW; SURGE stands on the record if surge holds; two windows that fill take the sample each by its own. A collecting
estimate takes the current; with the 16th it is made and added to the counter, and handed to the power controller. A sample
below the break limit ends a deferral in an autonomous open. A weld window that waits for a sample is judged on it:
LOCKED_OUT with LOCKOUT, a WELD_SUSPECT event and the write of the lockout record, or OPEN; the window of a CLEAR_LOCKOUT
refuses the slip STILL_WELDED or asks for the write of the record as clear. A capture in progress takes its bracketing pairs
and broadcast readings. The order of the readers of a sample is the model's choice (log 24), and so are what a restarted time
base does to a pair (log 39) and the part time and voltages of the cleared record (log 35); that a HIGH_CURRENT_BREAK is sent
together with its opening's event is the model's form (log 34). Of an autonomous open, the result fields of an aborted CLOSE
(log 70), the first cause in the event's cause field by its code alone (log 74) and the duration 0 in the balancing stop's
CONFIG (log 75) are the model's choices. -/
def Obligations.SampleLatchesAndCompletes : Prop :=
  (∀ (r : Readings) (s : State), s.calm →
    (s.conv.scanning = true →
      exec (.sampleLatch r) s = .next { s with
        conv.us := laterUs s.conv.us (s.conv.lastLatch + 100)
        conv.lastLatch := s.conv.lastLatch + 100
        conv.latched := some
          { t := s.conv.lastLatch + 100
            i := max (-60000) (min 60000 r.i)
            vBatt := (max 0 (min 120000 r.vBatt)).toNat
            vLink := (max 0 (min 120000 r.vLink)).toNat
            vCoil := (max 0 (min 3200 r.vCoil)).toNat
            satI := decide (60000 ≤ r.i.natAbs)
            satBatt := decide (120000 ≤ r.vBatt)
            satLink := decide (120000 ≤ r.vLink)
            satCoil := decide (3200 ≤ r.vCoil) } })
    ∧ (s.conv.scanning = false → exec (.sampleLatch r) s = .next s))
  ∧ (∀ (x : Sample) (s : State), s.awake → s.conv.scanning = true → s.conv.latched = some x →
    (∀ w, s.sup.weld = some w → w.waitingSample = false) →
    (∀ d, s.sup.deferral = some d → s.store.active.breakLimit ≤ (x.i.natAbs : Int)) →
    Goes .sampleComplete s fun t =>
      t.conv.history = (if s.conv.history.length < 64 then s.conv.history ++ [x] else s.conv.history.drop 1 ++ [x])
        ∧ t.conv.latched = none
        ∧ ((∀ e, s.conv.estimate = some e → e.currents.length < 15) →
            (t.conv.charge, t.conv.chargeSat) = chargeAdded (s.conv.charge, s.conv.chargeSat) x.i)
        ∧ t.sup.lowSupply = decide ((x.vCoil : Int) < s.store.active.surge)
        ∧ t.sup.hardRun = (if s.store.active.hardCurrent < (x.i.natAbs : Int) then
            min s.store.active.hardCount.toNat (s.sup.hardRun + 1) else 0)
        ∧ (∀ c, s.sup.state = .precharging → s.sup.close = some c → c.ratio * x.vBatt ≤ x.vLink * 1000 →
            t.sup.state = .closing ∧ t.sup.mainPos = coilOn s.now ∧ t.sup.settleAt = s.now
              ∧ t.sup.inrush = some (s.now + 40)
              ∧ t.sup.close = some { c with
                  reachedMs := elapsed s.now c.entered
                  vLink := x.vLink
                  vBatt := x.vBatt })
        ∧ (s.sup.state ≠ .precharging → s.sameContactors t)
        ∧ t.sup.mainNeg = s.sup.mainNeg ∧ t.sup.precharge = s.sup.precharge ∧ t.sup.silence = s.sup.silence
        ∧ (∀ k r, s.restful → k ∈ s.ev.filling → s.ev.at k = some r →
            ((x.t - r.tn).toNat ≠ 400 * (r.post.length + 1) →
              t.ev.at k = some { r with surge := r.surge || t.sup.surge } ∧ k ∈ t.ev.filling)
            ∧ ((x.t - r.tn).toNat = 400 * (r.post.length + 1) → r.post.length < 15 →
              t.ev.at k = some { r with
                  post := r.post ++ [⟨x.i, (x.vBatt + 5) / 10, (x.vLink + 5) / 10⟩]
                  surge := r.surge || t.sup.surge } ∧ k ∈ t.ev.filling)
            ∧ ((x.t - r.tn).toNat = 400 * (r.post.length + 1) → r.post.length = 15 →
              t.ev.at k = some { r with
                  post := r.post ++ [⟨x.i, (x.vBatt + 5) / 10, (x.vLink + 5) / 10⟩]
                  windowComplete := true
                  complete := true
                  surge := r.surge || t.sup.surge }
                ∧ k ∉ t.ev.filling ∧ t.attn.pending .eventNew = true))
        ∧ (s.restful → ∀ j, j ∉ s.ev.filling → t.ev.at j = s.ev.at j ∧ j ∉ t.ev.filling)
        ∧ s.sameAround t)
  ∧ (∀ (x : Sample) (s : State), s.restful → s.conv.scanning = true → s.conv.latched = some x →
    (∀ e, s.conv.estimate = some e →
      (e.currents.length < 15 → Goes .sampleComplete s fun t =>
        t.conv.estimate = some { e with currents := e.currents ++ [x.i] } ∧ t.power.estimate = s.power.estimate
          ∧ (t.conv.charge, t.conv.chargeSat) = chargeAdded (s.conv.charge, s.conv.chargeSat) x.i)
      ∧ (∀ avg : Int, e.currents.length = 15 → avg = roundHalfAway (e.currents ++ [x.i]).sum 16 →
        Goes .sampleComplete s fun t =>
          t.conv.estimate = none ∧ t.power.estimate = .made avg t.conv.charge
            ∧ (t.conv.charge, t.conv.chargeSat) = chargeAdded (chargeAdded (s.conv.charge, s.conv.chargeSat) x.i)
                (avg * (10 * min (min e.frozen (2000 * s.power.wakeTable.period)) 86400000 : Nat))))
    ∧ (∀ n c, getAt s.plan.captures n = some c →
      (c.tb = none → Goes .sampleComplete s fun t => getAt t.plan.captures n = some c)
      ∧ (∀ tb, c.tb = some tb → Goes .sampleComplete s fun t =>
        ∃ c', getAt t.plan.captures n = some c'
          ∧ c' = { c with bcast := c'.bcast, items := c'.items, surge := c.surge || (c.holding && t.sup.surge) }
          ∧ broadcastTaken t.conv.history x tb c.bcast c'.bcast ∧ c'.items.length = c.items.length
          ∧ ∀ j m, getAt c.items j = some m → ∃ m', getAt c'.items j = some m' ∧ pairTaken t.conv.history x m m')))
  ∧ (∀ (x : Sample) (s : State), s.slipsRight → s.conv.scanning = true → s.conv.latched = some x →
    (∀ d, s.sup.deferral = some d → s.sup.weld = none → (x.i.natAbs : Int) < s.store.active.breakLimit →
      Goes .sampleComplete s fun t => autonomousOpen s t x.i d.causes ∧ s.sameAround t)
    ∧ (∀ w, s.sup.weld = some w → w.waitingSample = true → s.sup.deferral = none →
      (w.forClear = false → s.sup.state = .weldCheck →
        Goes .sampleComplete s fun t =>
          t.sup.weld = none ∧ t.sup.coils = s.sup.coils ∧ t.sup.once = s.sup.once ∧ t.attn.pending .contactorChange = true
            ∧ (s.store.active.weldRatio.toNat * x.vBatt ≤ x.vLink * 1000 →
              t.sup.state = .lockedOut ∧ t.attn.pending .lockout = true
                ∧ (s.calm → s.restful → t.ev.inbox = s.ev.inbox ++ [⟨.weldSuspect, 0, s.sup.coils, s.sup.coils,
                    .weldSuspect x.vLink x.vBatt s.store.active.weldRatio.toNat, [], none, false, false, false⟩])
                ∧ (s.restful → t.store.queue
                    = s.store.queue ++ [⟨.lockout ⟨true, s.now, x.vLink, x.vBatt⟩, [.weldSet]⟩]))
            ∧ (x.vLink * 1000 < s.store.active.weldRatio.toNat * x.vBatt →
              t.sup.state = .open_
                ∧ (s.calm → s.restful → t.ev.inbox = s.ev.inbox ∧ t.store.queue = s.store.queue))
            ∧ s.sameAround t)
      ∧ (∀ c, w.forClear = true → s.sup.clear = some c → s.sup.state = .lockedOut →
        Goes .sampleComplete s fun t =>
          t.sup.state = .lockedOut ∧ t.sup.weld = none ∧ t.sup.coils = s.sup.coils ∧ t.sup.once = s.sup.once
            ∧ (s.store.active.weldRatio.toNat * x.vBatt ≤ x.vLink * 1000 →
              t.sup.clear = none ∧ (s.canonical → s.inFlight c.slot → t.showsDone c.slot 3 13
                ∧ t.mem.readBytes (slotAt c.slot + 52) 8 = le 4 x.vLink ++ le 4 x.vBatt))
            ∧ (x.vLink * 1000 < s.store.active.weldRatio.toNat * x.vBatt →
              t.sup.clear = some ⟨c.slot, x.vLink, x.vBatt⟩
                ∧ (s.restful → t.store.queue
                    = s.store.queue ++ [⟨.lockout ⟨false, s.now, x.vLink, x.vBatt⟩, [.weldClear]⟩]))
            ∧ s.sameAround t)))

/-- A millisecond: part time advances, the taken plan table comes into force and every plan may fall due again. In RUN
with the converter scanning the snapshot timer and an unarmed silence count advance, an armed one up to limit plus
grace, and the converter record is rewritten with the next write number. In DEEP with the converter stopped the
unsampled count advances and the patrol timer counts down, and the comparator's run advances while the shunt current
stays above the threshold and is 0 otherwise. That time passes by this command, and the marks of handled due times,
are the model's choices (log 4, 10, 52). -/
def Obligations.MillisecondPasses : Prop :=
  ∀ (shunt : Nat) (s : State), s.canonical → s.calm →
    (s.power.state = .run → s.conv.scanning = true →
      Goes (.partTimeTick shunt) s fun t =>
        t = { s with
          conv.part := s.conv.part + 1
          conv.snapTimer := if s.conv.snapTimer < 600000 then s.conv.snapTimer + 1 else 600000
          conv.recNumber := if s.conv.recNumber < 65535 then s.conv.recNumber + 1 else 1
          plan.inForce := s.plan.plans
          plan.dueDone := s.plan.dueDone.map fun _ => false
          sup.silence := t.sup.silence
          sup.lossHeld := t.lossHolds
          sup.lossDue := s.sup.lossDue || (t.lossHolds && !s.sup.lossHeld)
          mem := t.mem }
        ∧ (s.sup.once.limit = 0 → s.sup.silence < 2 ^ 32 - 1 → t.sup.silence = s.sup.silence + 1)
        ∧ (0 < s.sup.once.limit → s.sup.silence < s.silenceEnd → t.sup.silence = s.sup.silence + 1)
        ∧ (0 < s.sup.once.limit → s.silenceEnd ≤ s.sup.silence → t.sup.silence = s.sup.silence)
        ∧ s.sameBut t [silenceRec, converterRec])
    ∧ (s.power.state = .deep → s.conv.scanning = false → s.power.timerRunning = true →
      Goes (.partTimeTick shunt) s fun t =>
        t = { s with
          conv.part := s.conv.part + 1
          conv.unsampled := if s.conv.unsampled < 86400000 then s.conv.unsampled + 1 else 86400000
          plan.inForce := s.plan.plans
          plan.dueDone := s.plan.dueDone.map fun _ => false
          power.timer := s.power.timer - 1
          power.compRun := if s.power.wakeTable.threshold < shunt then bump 1000 s.power.compRun else 0
          power.compFired := decide (s.power.wakeTable.threshold < shunt) && s.power.compFired
          sup.lossHeld := t.lossHolds
          sup.lossDue := s.sup.lossDue || (t.lossHolds && !s.sup.lossHeld)
          mem := t.mem }
        ∧ s.sameBut t [silenceRec])

/-! ### The settings store -/

/-- The snapshot timer's 600,000 ms in RUN put a snapshot of the charge counter in the write queue and set the timer to 0;
the oldest waiting write begins while no write runs, unless surge holds. An INSTALL_KEY that passes its checks puts the
key's write in the queue and stays in flight. That its checks read the key slot's record, also before the start-up read
has ended, is the model's choice (log 12). -/
def Obligations.WritesQueuedAndBegun : Prop :=
  ∀ s : State, s.canonical → s.calm →
    (s.power.state = .run → 600000 ≤ s.conv.snapTimer →
      Goes .snapshotTimer s fun t =>
        t = { s with conv.snapTimer := 0, store.queue := t.store.queue, mem := t.mem } ∧ s.sameBut t [storeRec]
          ∧ ∃ q ∈ t.store.queue, q.payload = .snapshot ⟨s.conv.charge, s.conv.chargeSat⟩ ∧ Requester.snapTimer ∈ q.who)
    ∧ (∀ q l, s.store.running = none → s.store.queue = q :: l →
      (s.sup.surge = false →
        Goes .writeBegin s fun t =>
          t = { s with
            store.queue := l
            store.running := some ⟨q, s.store.inactive, s.now⟩
            mem := t.mem }
          ∧ s.sameBut t [storeRec])
      ∧ (s.sup.surge = true → exec .writeBegin s = .next s))
    ∧ (∀ r, s.store.running = some r → exec .writeBegin s = .next s)
    ∧ (∀ (w : Word) (rest : List Word) (k : Nat), s.restful → s.power.state ≠ .enteringDeep →
        postedSlip s w rest k (some .installKey) → answerAtOnce s (slipArgs s k) .installKey = none →
      Goes .post s fun t =>
        t = { takenSlip s rest k with
            store.keySlip := some k
            store.queue := s.store.queue ++ [⟨.key ((slipArgs s k).take 32), [.keySlip]⟩]
            mem := t.mem }
          ∧ stillTaken t k ∧ s.sameBut t [slotRec k, storeRec])

/-- The running write, of a payload, for a requester alone, has run its time: a record 5 ms, a bank 40 ms. -/
def writeEnding (s : State) (r : Running) (p : Payload) (who : Requester) : Prop :=
  s.store.running = some r ∧ r.req.payload = p ∧ r.req.who = [who]
    ∧ (match p with | .bank _ => 40 | _ => 5) ≤ elapsed s.now r.since

/-- The write counts of a record's valid copies stay in the range that they have. -/
def countsFit {α : Type} (r : Record α) : Prop :=
  ∀ v n, r.c0 = .valid v n ∨ r.c1 = .valid v n → n ≤ 65535

/-- STORE_FAULT has been raised for a failed write of an item: the cause, the item and the count of the last store fault. -/
def writeFault (s t : State) (item : StoreItem) : Prop :=
  t.attn.pending .storeFault = true ∧ t.store.faultCause = some .writeFailed ∧ t.store.faultItem = some item
    ∧ t.store.faultCount = (if s.store.faultCount < 65535 then s.store.faultCount + 1 else 65535)

/-- A write that one requester alone asked for ends, 5 ms after it began for a record and 40 ms for a bank: the lockout record
set or clear, the marker, the engine's bank and floors, the floor that the start-up read repairs, the key, the entry's snapshot
and that of the snapshot timer, and the wear counts. Read back as written, the new value is in force;
otherwise the write is a store fault with cause WRITE_FAILED, and the values in force do not change; that this holds at once
for a record without a valid copy too is the model's choice (log 80). The lockout record, set by the supervisor: nothing else
changes. Written as clear for a CLEAR_LOCKOUT: the supervisor is OPEN, a LOCKOUT_CLEARED event is sent and the slip is OK, or
else REFUSED with cause STORE; its result fields are the voltages of the judging sample (the model's choice, log 79). The
marker: the image of the bank it names is active and loaded, the limit table and the IMAGE calibrations follow; a failure
leaves the old ones. The engine's steps: after the bank its marker is requested, unless an abort waits; after the marker the
commit is reached and the floor requested, or the update ends OK with the floor done already; the end of a floor ends the
update OK; a failed step ends it STORE. The key slot: PRESENT and the INSTALL_KEY OK, or FAULTED and REFUSED with cause STORE;
the key bytes of the slot are overwritten with zeros. The entry's snapshot: the outcome, and step 4. The snapshot timer's and
the repaired floor: nothing else changes but the store record and, after a failure, STORE_FAULT. A wear count: advanced, held
at 2^32 − 1, or a store fault. -/
def Obligations.LockoutWriteEnds : Prop :=
  ∀ (r : Running) (s : State), s.canonical → s.calm → s.restful →
    (∀ v, writeEnding s r (.lockout v) .weldSet → countsFit s.store.nv.lockout →
      (Goes (.writeEnd true) s fun t =>
        t.store.work.lockout = v
          ∧ t = { s with
              store.nv.lockout := t.store.nv.lockout
              store.work.lockout := t.store.work.lockout
              store.running := none
              mem := t.mem }
          ∧ s.sameBut t [storeRec])
      ∧ (Goes (.writeEnd false) s fun t =>
        (∀ c, s.store.nv.lockout.choice = some c → t.store.nv.lockout.choice = some c) ∧ writeFault s t .lockout
          ∧ t = { s with
              store.nv.lockout := t.store.nv.lockout
              store.running := none
              store.faultCause := t.store.faultCause
              store.faultItem := t.store.faultItem
              store.faultCount := t.store.faultCount
              attn := t.attn
              mem := t.mem }
          ∧ s.sameBut t [storeRec, factorRec]))
    ∧ (∀ v c, writeEnding s r (.lockout v) .weldClear → countsFit s.store.nv.lockout → s.sup.clear = some c →
      (Goes (.writeEnd true) s fun t =>
        t.sup.state = .open_ ∧ t.sup.clear = none ∧ t.store.work = { s.store.work with lockout := v }
          ∧ (∃ e, t.ev.inbox = s.ev.inbox ++ [e] ∧ e.kind = .lockoutCleared ∧ e.detail = .volts c.vLink c.vBatt)
          ∧ (s.inFlight c.slot → t.showsDone c.slot 1 0
              ∧ t.mem.readBytes (slotAt c.slot + 52) 8 = le 4 c.vLink ++ le 4 c.vBatt))
      ∧ (Goes (.writeEnd false) s fun t =>
        t.sup.state = s.sup.state ∧ t.sup.clear = none ∧ t.store.work = s.store.work ∧ writeFault s t .lockout
          ∧ t.ev.inbox = s.ev.inbox
          ∧ (s.inFlight c.slot → t.showsDone c.slot 3 14
              ∧ t.mem.readBytes (slotAt c.slot + 52) 8 = le 4 c.vLink ++ le 4 c.vBatt)))
    ∧ (∀ bk i, writeEnding s r (.marker bk) .startUp ∨ writeEnding s r (.marker bk) .engine →
        s.store.nv.image bk = some i → countsFit s.store.nv.marker →
      (Goes (.writeEnd true) s fun t =>
        t.store.work = { s.store.work with marker := some bk } ∧ t.store.active = (loadImage i.body).1
          ∧ t.store.activeBank = some bk ∧ t.store.activeVersion = i.version
          ∧ t.store.inForce = insideHard t.store.active s.store.taken
          ∧ (∀ a e, s.chain.entry a = some e → (t.chain.entry a).map (fun e => (e.gain, e.offset))
              = some (if e.source = .image then (t.store.active.gain.toNat, t.store.active.offset)
                  else (e.gain, e.offset)))
          ∧ (r.req.who = [.engine] → s.upd.commit = .marker → t.upd.commitReached = true
            ∧ (s.store.work.floor < s.upd.header.version → t.upd.state = s.upd.state ∧ t.upd.commit = .floor
                ∧ ∃ q ∈ t.store.queue, .engine ∈ q.who ∧ ∃ v, q.payload = .floor v ∧ s.upd.header.version ≤ v)
            ∧ (s.upd.header.version ≤ s.store.work.floor → t.updateEnds s .ok 1 0))
          ∧ s.sameContactors t)
      ∧ (Goes (.writeEnd false) s fun t =>
        t.store.work = s.store.work ∧ t.store.active = s.store.active ∧ t.store.activeBank = s.store.activeBank
          ∧ t.store.activeVersion = s.store.activeVersion ∧ t.chain.map = s.chain.map ∧ writeFault s t .marker
          ∧ (r.req.who = [.engine] → s.upd.commit = .marker → t.updateEnds s .store 3 14) ∧ s.sameContactors t))
    ∧ (∀ i, writeEnding s r (.bank i) .engine → s.upd.commit = .bank →
      (∀ matched, s.upd.aborting = true → Goes (.writeEnd matched) s fun t =>
        t.updateEnds s .aborted 5 0 ∧ t.store.queue = s.store.queue ∧ t.store.active = s.store.active
          ∧ t.store.nv = s.store.nv.setImage r.bank (if matched then some i else none)
          ∧ (∀ k ∈ s.upd.aborts, s.inFlight k → (∀ q, s.upd.slip ≠ some (q, k)) → t.showsDone k 1 0))
      ∧ (s.upd.aborting = false → Goes (.writeEnd true) s fun t =>
        t.store.nv = s.store.nv.setImage r.bank (some i) ∧ t.store.work = s.store.work
          ∧ t.store.active = s.store.active ∧ t.upd.bankWritten = some r.bank ∧ t.upd.commit = .marker
          ∧ t.upd.state = s.upd.state ∧ t.store.queue = s.store.queue ++ [⟨.marker r.bank, [.engine]⟩])
      ∧ (s.upd.aborting = false → Goes (.writeEnd false) s fun t =>
        t.store.nv = s.store.nv.setImage r.bank none ∧ t.updateEnds s .store 3 14
          ∧ writeFault s t (match r.bank with | .a => .bankA | .b => .bankB)))
    ∧ (∀ v, writeEnding s r (.floor v) .engine → s.upd.commit = .floor → countsFit s.store.nv.floor →
      (Goes (.writeEnd true) s fun t =>
        t.store.work = { s.store.work with floor := v } ∧ t.upd.floorWritten = true ∧ t.updateEnds s .ok 1 0)
      ∧ (Goes (.writeEnd false) s fun t =>
        t.store.work = s.store.work ∧ t.store.active = s.store.active ∧ t.upd.floorWritten = s.upd.floorWritten
          ∧ t.updateEnds s .store 3 14 ∧ writeFault s t .floor))
    ∧ (∀ n v, writeEnding s r (.fwFloor n v) .engine → s.upd.commit = .fwFloor → countsFit s.store.nv.fwFloors →
      (Goes (.writeEnd true) s fun t =>
        t.store.work = { s.store.work with fwFloors := setAt s.store.work.fwFloors n v } ∧ t.upd.floorWritten = true
          ∧ t.updateEnds s .ok 1 0)
      ∧ (Goes (.writeEnd false) s fun t =>
        t.store.work = s.store.work ∧ t.upd.floorWritten = s.upd.floorWritten ∧ t.updateEnds s .store 3 14
          ∧ writeFault s t .fwFloors))
    ∧ (∀ key k, writeEnding s r (.key key) .keySlip → s.store.keySlip = some k → s.store.nv.key.choice = none →
      (Goes (.writeEnd true) s fun t =>
        t.store.work = { s.store.work with key := .present key } ∧ t.store.keySlip = none
          ∧ (s.inFlight k → t.showsDone k 1 0 ∧ t.mem.num (slotAt k + 52) 1 = 1
            ∧ (∀ c, getAt s.port.slots k = some (some c) → slipKindOf c.kind = some .installKey →
                t.mem.readBytes (slotAt k + 8) 32 = List.replicate 32 0)))
      ∧ (Goes (.writeEnd false) s fun t =>
        t.store.work = { s.store.work with key := .faulted } ∧ t.store.keySlip = none ∧ writeFault s t .key
          ∧ (s.inFlight k → t.showsDone k 3 14 ∧ t.mem.num (slotAt k + 52) 1 = 2
            ∧ (∀ c, getAt s.port.slots k = some (some c) → slipKindOf c.kind = some .installKey →
                t.mem.readBytes (slotAt k + 8) 32 = List.replicate 32 0))))
    ∧ (∀ v e, writeEnding s r (.snapshot v) .entry → s.power.entry = some e → e.step = 3 → countsFit s.store.nv.snapshot →
      (Goes (.writeEnd true) s fun t =>
        t.store.work = { s.store.work with snapshot := some v } ∧ t.power.snapOutcome = .written
          ∧ t.chain.sleepCmd = true ∧ t.power.entry = some { e with step := 4 })
      ∧ (Goes (.writeEnd false) s fun t =>
        t.store.work = s.store.work ∧ t.power.snapOutcome = .failed ∧ writeFault s t .snapshot
          ∧ t.chain.sleepCmd = true ∧ t.power.entry = some { e with step := 4 }))
    ∧ (∀ d, (writeEnding s r (.wearPos d) .wear → countsFit s.store.nv.wearPos →
        Goes (.writeEnd true) s fun t =>
          t.store.work = { s.store.work with wearPos := min (2 ^ 32 - 1) (s.store.work.wearPos + d) })
      ∧ (writeEnding s r (.wearNeg d) .wear → countsFit s.store.nv.wearNeg →
        Goes (.writeEnd true) s fun t =>
          t.store.work = { s.store.work with wearNeg := min (2 ^ 32 - 1) (s.store.work.wearNeg + d) })
      ∧ (writeEnding s r (.wearPos d) .wear → Goes (.writeEnd false) s fun t =>
          t.store.work = s.store.work ∧ writeFault s t .wearPos)
      ∧ (writeEnding s r (.wearNeg d) .wear → Goes (.writeEnd false) s fun t =>
          t.store.work = s.store.work ∧ writeFault s t .wearNeg))
    ∧ (∀ v, writeEnding s r (.snapshot v) .snapTimer → countsFit s.store.nv.snapshot →
      (Goes (.writeEnd true) s fun t =>
        t.store.work.snapshot = some v
          ∧ t = { s with
              store.nv.snapshot := t.store.nv.snapshot
              store.work.snapshot := t.store.work.snapshot
              store.running := none
              mem := t.mem }
          ∧ s.sameBut t [storeRec])
      ∧ (Goes (.writeEnd false) s fun t =>
        (∀ c, s.store.nv.snapshot.choice = some c → t.store.nv.snapshot.choice = some c) ∧ writeFault s t .snapshot
          ∧ t = { s with
              store.nv.snapshot := t.store.nv.snapshot
              store.running := none
              store.faultCause := t.store.faultCause
              store.faultItem := t.store.faultItem
              store.faultCount := t.store.faultCount
              attn := t.attn
              mem := t.mem }
          ∧ s.sameBut t [storeRec, factorRec]))
    ∧ (∀ v, writeEnding s r (.floor v) .startUp → countsFit s.store.nv.floor →
      (Goes (.writeEnd true) s fun t =>
        t.store.work.floor = v
          ∧ t = { s with
              store.nv.floor := t.store.nv.floor
              store.work.floor := t.store.work.floor
              store.running := none
              mem := t.mem }
          ∧ s.sameBut t [storeRec])
      ∧ (Goes (.writeEnd false) s fun t =>
        (∀ c, s.store.nv.floor.choice = some c → t.store.nv.floor.choice = some c) ∧ writeFault s t .floor
          ∧ t = { s with
              store.nv.floor := t.store.nv.floor
              store.running := none
              store.faultCause := t.store.faultCause
              store.faultItem := t.store.faultItem
              store.faultCount := t.store.faultCount
              attn := t.attn
              mem := t.mem }
          ∧ s.sameBut t [storeRec, factorRec]))

/-- The start-up read ends 2 ms after the reset: the working copies are those of the records, the image of the bank that the
marker names becomes active if the bank is valid, otherwise that of another bank whose version is not below the floor, with a
write of the marker asked for, and with no bank to use the factory values, with NO_IMAGE. LOST records raise STORE_FAULT once,
with cause RECORD_LOST, of which the last fault names the one of the lowest item code (the model's choice, log 18; a NO_IMAGE
names none, log 98). If a bank is used and its version is above the floor in force, a floor write of that version is asked
for, after that of the marker; with no bank used no write is asked for. The supervisor ends its wait in LOCKED_OUT, with
the LOCKOUT factor, if the lockout record is set and in OPEN otherwise; this first choice raises no CONTACTOR_CHANGE. After a
POWER_ON the charge counter is restored: with a snapshot it continues from the snapshot's value and mark, to which the sum
added since the reset is added, and RESTORED is set; without one it keeps its sum and its marks; the converter record is
rewritten with the next write number, and an estimate, the history and the clocks stay. After a RESET_LINE the converter
keeps everything; that this holds too where the RESET_LINE came before the restore of the POWER_ON is the model's choice (log
99). -/
def Obligations.StartUpReadEnds : Prop :=
  ∀ s : State, s.store.startUp = true → 2 ≤ elapsed s.now 0 →
    Goes .startUpReadEnd s fun t =>
      t.store.startUp = false ∧ t.store.work = s.store.nv.working ∧ t.store.nv = s.store.nv
        ∧ t.store.lost = s.store.nv.lostBits
        ∧ (∀ bk i, s.store.nv.working.marker = some bk → s.store.nv.image bk = some i →
            t.store.active = (loadImage i.body).1 ∧ t.store.activeBank = some bk ∧ t.store.activeVersion = i.version
              ∧ t.store.outcome = .markedBank)
        ∧ (∀ bk i, s.store.nv.image bk = some i → s.store.nv.working.floor ≤ i.version →
            (s.store.nv.working.marker = some bk.other ∧ s.store.nv.image bk.other = none
              ∨ s.store.nv.working.marker = none ∧ ∀ j, s.store.nv.image bk.other = some j →
                  s.store.nv.working.floor ≤ j.version → j.version < i.version ∨ j.version = i.version ∧ bk = .a) →
            t.store.active = (loadImage i.body).1 ∧ t.store.activeBank = some bk ∧ t.store.activeVersion = i.version
              ∧ t.store.outcome = .otherBank ∧ (s.restful → ∃ q ∈ t.store.queue, q.payload = .marker bk))
        ∧ (s.store.nv.startChoice s.store.nv.working = none →
            t.store.active = factoryLimits ∧ t.store.activeBank = none ∧ t.store.activeVersion = 0
              ∧ t.store.outcome = .factoryValues ∧ t.store.faultCause = some .noImage ∧ t.store.faultItem = none
              ∧ t.attn.pending .storeFault = true
              ∧ t.store.faultCount = (if s.store.nv.lostBits = 0 then bump 65535 s.store.faultCount
                  else bump 65535 (bump 65535 s.store.faultCount))
              ∧ (s.restful → t.store.queue = s.store.queue))
        ∧ (s.store.nv.startChoice s.store.nv.working ≠ none →
            (s.store.nv.lostBits ≠ 0 → t.attn.pending .storeFault = true ∧ t.store.faultCause = some .recordLost
              ∧ t.store.faultItem = s.store.nv.firstLost ∧ t.store.faultCount = bump 65535 s.store.faultCount)
            ∧ (s.store.nv.lostBits = 0 → t.attn.pending .storeFault = s.attn.pending .storeFault
              ∧ t.store.faultCause = s.store.faultCause ∧ t.store.faultItem = s.store.faultItem
              ∧ t.store.faultCount = s.store.faultCount))
        ∧ (∀ bk, s.restful → t.store.activeBank = some bk →
            (s.store.nv.working.floor < t.store.activeVersion → ∃ q ∈ t.store.queue, .startUp ∈ q.who
              ∧ ∃ v, q.payload = .floor v ∧ t.store.activeVersion ≤ v)
            ∧ (s.store.queue = [] → t.store.queue
                = (if t.store.outcome = .otherBank then [⟨.marker bk, [.startUp]⟩] else [])
                  ++ if s.store.nv.working.floor < t.store.activeVersion then
                    [⟨.floor t.store.activeVersion, [.startUp]⟩] else []))
        ∧ t.store.inForce = insideHard t.store.active s.store.taken
        ∧ t.sup.waiting = false
        ∧ t.sup.state = (if s.store.nv.working.lockout.set = true then s.sup.state else .open_)
        ∧ (s.Lawful → s.store.nv.working.lockout.set = true → t.sup.state = .lockedOut)
        ∧ (s.store.nv.working.lockout.set = true → t.attn.pending .lockout = true)
        ∧ (s.store.nv.working.lockout.set = false → t.attn.pending .lockout = s.attn.pending .lockout)
        ∧ t.attn.pending .contactorChange = s.attn.pending .contactorChange
        ∧ (s.awake → s.power.lastReset = .powerOn →
            (∀ x, s.store.nv.working.snapshot = some x →
              t.conv = { s.conv with
                charge := (chargeAdded (x.value, x.sat) s.conv.charge).1
                chargeSat := (chargeAdded (x.value, x.sat) s.conv.charge).2
                restored := true
                recNumber := if s.conv.recNumber < 65535 then s.conv.recNumber + 1 else 1 })
            ∧ (s.store.nv.working.snapshot = none →
              t.conv = { s.conv with recNumber := if s.conv.recNumber < 65535 then s.conv.recNumber + 1 else 1 }))
        ∧ (s.awake → s.power.lastReset = .resetLine → t.conv = s.conv)
        ∧ t.sup.mainNeg = s.sup.mainNeg ∧ t.sup.precharge = s.sup.precharge ∧ t.sup.mainPos = s.sup.mainPos
        ∧ t.port.notes = s.port.notes ∧ t.plan.pages = s.plan.pages ∧ t.conv.part = s.conv.part ∧ t.pins = s.pins

/-! ### The event recorder -/

/-- The record in a slot right after an event without a window was taken into it. -/
def eventWritten (s t : State) (e : SentEvent) (k : Nat) : Prop :=
  ∃ r, t.ev.at k = some r ∧ r.complete = true ∧ r.seq = s.ev.next ∧ r.part = s.now ∧ r.kind = e.kind
    ∧ r.cause = e.cause ∧ r.before = e.before ∧ r.after = e.after ∧ r.detail = e.detail ∧ r.causes = e.causes
    ∧ r.surge = s.sup.surge ∧ r.acked = false ∧ r.linked = .notBurst
    ∧ r.values = s.newest.map fun x => (x.vBatt, x.vLink, x.i)

/-- EVENT_TAKE with an EMPTY slot: the oldest event sent becomes the record of the lowest EMPTY slot, with the next
sequence that no record holds and the part time of its taking; of two sent together the later one may be taken first.
One of a kind without a window is COMPLETE at once and raises EVENT_NEW; one with a window fills from the newest
sample and asks for a burst, whose first capture is requested on a chain that is held. With no EMPTY slot the record takes the
place of the oldest ACKED one; without an ACKED one that of the newest, and EVENT_FULL is raised. The queue of events sent is
the model's choice (log 11). -/
def Obligations.EventTaken : Prop :=
  (∀ (e : SentEvent) (l : List SentEvent) (k : Nat) (s : State), s.canonical → s.shaped → s.calm → s.restful →
    s.ev.inbox = e :: l → firstEmpty 0 s.ev.slots = some k → s.ev.holds s.ev.next = false →
    (e.kind.windowed = false →
      Goes (.eventTake 0) s fun t =>
        t = { s with
          ev.slots := t.ev.slots
          ev.age := s.ev.age.filter (· ≠ k) ++ [k]
          ev.next := if s.ev.next < 16777215 then s.ev.next + 1 else 1
          ev.filling := s.ev.filling.filter (· ≠ k)
          ev.inbox := l
          attn := t.attn
          mem := t.mem }
        ∧ eventWritten s t e k
        ∧ (∀ j, j ≠ k → t.ev.at j = s.ev.at j) ∧ t.attn.pending .eventNew = true
        ∧ s.sameBut t [factorRec, (eventAt k, eventAt (k + 1))])
    ∧ (∀ x, e.kind.windowed = true → s.newest = some x → s.conv.scanning = true → s.ev.filling.length < 2 →
        s.awake → s.plan.captures = [] → s.chain.occupied → Req.burst ∉ s.chain.requests →
        Req.pause burstPlan ∉ s.chain.requests →
      Goes (.eventTake 0) s fun t =>
        t.ev.age = s.ev.age.filter (· ≠ k) ++ [k]
          ∧ t.ev.filling = s.ev.filling.filter (· ≠ k) ++ [k]
          ∧ (∃ r, t.ev.at k = some r ∧ r.complete = false ∧ r.seq = s.ev.next ∧ r.kind = e.kind ∧ r.tn = x.t
              ∧ r.pre = preEntries s.conv.history x.t ∧ r.linked = .awaited)
          ∧ t.plan.burst = some ⟨s.ev.next, s.now, 1⟩ ∧ t.chain.requests = s.chain.requests ++ [.burst]
          ∧ s.sameAround t ∧ s.sameContactors t)
    ∧ (∀ g l', l = g :: l' → g.together = true → g.kind.windowed = false →
      Goes (.eventTake 1) s fun t =>
        t.ev.inbox = e :: l'
          ∧ (∃ r, t.ev.at k = some r ∧ r.seq = s.ev.next ∧ r.part = s.now ∧ r.kind = g.kind ∧ r.detail = g.detail)
          ∧ (∀ j, j ≠ k → t.ev.at j = s.ev.at j)))
  ∧ (∀ (e : SentEvent) (l : List SentEvent) (older newer : List Nat) (k : Nat) (s : State), s.canonical → s.shaped → s.calm →
    s.restful → s.ev.inbox = e :: l → (∀ j, j < 16 → (s.ev.at j).isSome = true) → s.ev.holds s.ev.next = false →
    e.kind.windowed = false → k < 16 → s.ev.age = older ++ k :: newer → k ∉ older → k ∉ newer →
    (∀ j ∈ older, s.ev.ackedAt j = false) →
    (s.ev.ackedAt k = true →
      Goes (.eventTake 0) s fun t =>
        eventWritten s t e k ∧ (∀ j, j ≠ k → t.ev.at j = s.ev.at j) ∧ t.ev.age = older ++ newer ++ [k]
          ∧ t.ev.filling = s.ev.filling.filter (· ≠ k) ∧ t.attn.pending .eventNew = true
          ∧ t.attn.pending .eventFull = s.attn.pending .eventFull)
    ∧ (newer = [] → s.ev.ackedAt k = false →
      Goes (.eventTake 0) s fun t =>
        eventWritten s t e k ∧ (∀ j, j ≠ k → t.ev.at j = s.ev.at j) ∧ t.ev.age = older ++ [k]
          ∧ t.ev.filling = s.ev.filling.filter (· ≠ k) ∧ t.attn.pending .eventNew = true
          ∧ t.attn.pending .eventFull = true))

/-! ### The capture planner -/

/-- A plan falls due with no plan of a lower index due: one whose mask selects no configured address passes without
effect; one whose capture is still in progress is overrun and raises PLAN_OVERRUN; otherwise a capture begins, which
asks for the chain, or for its PAUSE if it has one, and on a free chain in UP is granted at once: its CAPTURE is sent
with the capture tag. That each due time is handled once is the model's choice (log 10, 29). -/
def Obligations.PlanFallsDue : Prop :=
  ∀ (i : Nat) (p : Plan) (s : State), s.canonical → s.calm → s.restful → i ≤ 7 → s.power.state = .run →
    getAt s.plan.dueDone i = some false → getAt s.plan.inForce i = some p → p.active = true →
    s.now.toNat % p.period = p.phase → (∀ j, j < i → s.isDue j = false) →
    (s.chain.selectsConfigured p.mask = false →
      exec (.planDue i) s = .next { s with plan.dueDone := setAt s.plan.dueDone i true })
    ∧ (s.chain.selectsConfigured p.mask = true → s.plan.busy i = true →
      Goes (.planDue i) s fun t =>
        t.attn.pending .planOverrun = true
          ∧ t = { s with
              plan.dueDone := setAt s.plan.dueDone i true
              plan.overrun := setAt s.plan.overrun i true
              attn := t.attn
              mem := t.mem }
          ∧ s.sameBut t [factorRec])
    ∧ (s.chain.selectsConfigured p.mask = true → s.plan.busy i = false → s.chain.occupied →
        s.chain.requests.contains (.capture i) = false → s.chain.requests.contains (.pause i) = false →
      exec (.planDue i) s = .next { s with
        plan.dueDone := setAt s.plan.dueDone i true
        plan.captures := s.plan.captures ++ [{ newCapture i p.mask p.contents p.publish with
          pause := p.pause
          stage := if p.pause = 0 then .requested else .pauseRequested }]
        chain.requests := s.chain.requests ++ [if p.pause = 0 then .capture i else .pause i] })
    ∧ (s.chain.selectsConfigured p.mask = true → s.plan.busy i = false → p.pause = 0 → s.chain.requests = [] →
        s.chain.free = true → s.chain.state = .up →
      Goes (.planDue i) s fun t =>
        t.chain.hold = some (.capture i) ∧ t.chain.line = .sending ⟨.capture, 31, s.chain.capTag, []⟩
          ∧ t.chain.capTag = (if s.chain.capTag < 255 then s.chain.capTag + 1 else 1) ∧ t.chain.requests = []
          ∧ (∃ c, t.plan.captures = s.plan.captures ++ [c] ∧ c.plan = i ∧ c.stage = .held
              ∧ c.items.map (·.addr) = s.chain.configuredAddrs.filter (selects p.mask))
          ∧ s.sameAround t ∧ s.sameContactors t)

/-- On a chain that is held, the end of a plan's pause asks for its capture, and the second or third capture of a burst begins 20
or 40 ms after the event once none of the burst is in progress; a SURVEY slip asks for the survey, a BALANCE slip with an
address to send to for its first CONFIG, its duration held at 1 to 3600 s, and a CAPTURE_NOW slip for its capture, each
staying in flight. Nothing else changes. That the addresses of a BALANCE slip, the skipped ones and the mask bits cleared are
judged at its taking, and stand whatever the map becomes, is the model's choice (log 96). -/
def Obligations.CapturesAskForTheChain : Prop :=
  ∀ s : State, s.calm → s.chain.occupied → s.upd.pause = none → s.upd.state ≠ .distributing → s.awake →
    (∀ i, s.plan.burst = none → i ≤ 7 → s.plan.captures.any (Capture.pauseOver i s.now) = true →
        s.chain.requests.contains (.capture i) = false →
      exec (.pauseWaitEnd i) s = .next { s with
        plan.captures := s.plan.captures.map fun c =>
          if c.pauseOver i s.now then { c with stage := .requested } else c
        chain.requests := s.chain.requests ++ [.capture i] })
    ∧ (∀ b, s.plan.burst = some b → b.begun = 1 ∨ b.begun = 2 → 20 * b.begun ≤ elapsed s.now b.part →
        s.plan.burstRuns b.seq = false → s.chain.requests.contains .burst = false →
      exec .burstCaptureDue s = .next { s with
        plan.burst := some { b with begun := b.begun + 1 }
        plan.captures := s.plan.captures ++ [{ newCapture burstPlan 0xFFFFFF .both true with link := b.seq }]
        chain.requests := s.chain.requests ++ [.burst] })
    ∧ (∀ (w : Word) (rest : List Word) (k : Nat) (args : List Byte), s.canonical → s.plan.burst = none →
        s.power.state ≠ .enteringDeep → args = slipArgs s k →
      (postedSlip s w rest k (some .survey) → answerAtOnce s args .survey = none → s.chain.surveyHolds = false →
          s.chain.sleepCmd = false → s.chain.requests.contains .survey = false →
        exec .post s = .next { takenSlip s rest k with
          chain.surveySlip := some k
          chain.requests := s.chain.requests ++ [.survey] })
      ∧ (∀ r, postedSlip s w rest k (some .balance) → answerAtOnce s args .balance = none →
          r = balanceTodo s.chain args (argNum args 0 1) (argNum args 1 1) 0 → r.1 ≠ [] →
          s.chain.requests.contains .config = false →
        exec .post s = .next { takenSlip s rest k with
          chain.balance := some
            { slot := k
              todo := r.1
              tries := 0
              duration := max 1 (min 3600 (argNum args 2 2))
              sent := 0
              acked := 0
              skipped := r.2.1
              clamped := r.2.2 || decide (argNum args 2 2 < 1 ∨ 3600 < argNum args 2 2)
              lowestNotAcked := 0
              anyNotAcked := false
              ending := false }
          chain.requests := s.chain.requests ++ [.config] })
      ∧ (∀ c, postedSlip s w rest k (some .captureNow) → answerAtOnce s args .captureNow = none →
          contentsOf (argNum args 4 1) = some c → s.chain.requests.contains (.capture 9) = false →
        exec .post s = .next { takenSlip s rest k with
          plan.captures := s.plan.captures
            ++ [{ newCapture 9 (BitVec.ofNat 24 (argNum args 0 4)) c true with slot := some k }]
          chain.requests := s.chain.requests ++ [.capture 9] }))

/-- The temperature at a position is fresh and lies beyond its hard limit, no fresh one lies further beyond, and none of a
lower position as far. -/
def worstTemp (l : Limits) (temps : List TempPos) (j : Nat) (q : TempPos) : Prop :=
  getAt temps j = some q ∧ q.fresh = true ∧ ∃ v, q.value = some v ∧ 0 < beyondTemp l v.1
    ∧ ∀ j' q' v', getAt temps j' = some q' → q'.fresh = true → q'.value = some v' →
        beyondTemp l v'.1 < beyondTemp l v.1 ∨ beyondTemp l v'.1 = beyondTemp l v.1 ∧ j ≤ j'

/-- A count of a set's hard breaches has made its cause: it opens a closed contactor at a current below the break limit and
joins a new deferral at one at or above it. -/
def causeTaken (s t : State) (y : Sample) (r : CauseRec) : Prop :=
  ((y.i.natAbs : Int) < s.store.active.breakLimit →
      t.sup.state = .opening ∧ ∃ o, t.sup.opening = some o ∧ r.cause ∈ o.causes)
    ∧ (s.store.active.breakLimit ≤ (y.i.natAbs : Int) → ∃ d, t.sup.deferral = some d ∧ r ∈ d.causes)

/-- The sleep limits that the fresh values of a set breach, as bits: CELL_LOW 1, CELL_HIGH 2, TEMP_HIGH 4, IMBALANCE 8. -/
def patrolBreach (l : LimitTable) (x : SampleSet) (n : Nat) : Prop :=
  n < 16
    ∧ (n % 2 = 1 ↔ ∃ p ∈ x.cells, p.fresh = true ∧ ∃ v, p.value = some v ∧ (v.1 : Int) < l.sleepMin)
    ∧ (n / 2 % 2 = 1 ↔ ∃ p ∈ x.cells, p.fresh = true ∧ ∃ v, p.value = some v ∧ l.sleepMax < (v.1 : Int))
    ∧ (n / 4 % 2 = 1 ↔ ∃ p ∈ x.temps, p.fresh = true ∧ ∃ v, p.value = some v ∧ l.sleepTemp < v.1)
    ∧ (n / 8 = 1 ↔ ∃ p ∈ x.cells, ∃ q ∈ x.cells, p.fresh = true ∧ q.fresh = true ∧ ∃ v w, p.value = some v
        ∧ q.value = some w ∧ l.imbalance < (w.1 : Int) - (v.1 : Int))

/-- A fresh cell value lies above the soft maximum or below the soft minimum. -/
def softBreach (l : LimitTable) (p : CellPos) : Prop :=
  p.fresh = true ∧ ∃ v, p.value = some v ∧ (l.softMax < (v.1 : Int) ∨ (v.1 : Int) < l.softMin)

/-- The part is in RUN from a wake, with its flags and the patrol result that called for it. -/
def wokenWith (s t : State) (r : Option PatrolResult) : Prop :=
  t.power.state = .run ∧ t.power.pend = 0 ∧ t.power.lastWake = some (s.power.pend, r) ∧ t.power.wakeOut = true

/-- The return to DEEP has begun: the chain is told to sleep, and the power state stays PATROL. -/
def returnsToDeep (s t : State) : Prop :=
  t.power.state = .patrol ∧ t.power.returning = some s.power.pend ∧ t.chain.sleepCmd = true

/-- A set is built of the first capture that waits, while no page is being written: the set sequence advances and the plan's
overrun mark is cleared. A published set goes to the lowest empty unheld page or else to the unheld page published longest
ago, whose write begins with header sequence 0; without such a page SET_DROPPED is raised. A set's sum is checked if it has a
cell value and lists every configured address, and the set is IMPLAUSIBLE if the sum then differs from the broadcast V_BATT
by more than the tolerance in force. A plausible set whose sum was checked and that is not PARTIAL, SURGE or not, of no
patrol, becomes the freshness record and ends the implausible run; a PARTIAL one ends the run alone; an IMPLAUSIBLE one
without SURGE, of no patrol, advances it, held at 3, and raises SUM_MISMATCH; one with SURGE, and a set whose sum was not
checked, change neither. A set of no patrol with a fresh cell value outside the soft limits in force raises LIMIT_SOFT. The
CAPTURE_NOW slip of a set completes OK with the sequence, the page or none, the flags and the number of fresh entries. A
plausible set without SURGE, of no patrol, raises each hard breach count of its lists that it breaches, held at 2, and sets
each other to 0; a count that is 2 after it is a cause, HARD_CELL_HIGH, HARD_CELL_LOW or HARD_TEMP, with the set's sequence
and the worst value's address and position: it opens a closed contactor at a low current and joins a new deferral at a high
one. A set of a SURGE capture changes no count of hard breaches and takes no cause. The sequence of a burst's set is written
as the linked set of the record that awaits it, in a COMPLETE record as a revision, which raises EVENT_NEW. A patrol's set is
judged on its fresh values by the sleep limits in force. Without a breach but with an address that is not fresh, the first
attempt of a patrol that is not promoted is followed by a second capture; otherwise the patrol is logged with its last
attempt's result (PASS, BREACH or CHAIN_FAIL) and ends: in RUN, by a promotion, a BREACH or the chain-failure level 2, or
else by the return to DEEP. The order of causes of one set is the model's choice (log 73); that a promoted patrol that passes
leaves no result in the last wake is read from the spec (log 50). -/
def Obligations.SetIsBuilt : Prop :=
  ∀ (c : Capture) (b : Broadcast) (s : State), s.shaped → s.slipsRight → s.plan.writing = none →
    s.plan.captures.find? (fun c => decide (c.stage = .building)) = some c → c.bcast = some b →
    (Goes .setBuilt s fun t =>
      t.plan.setSeq = (if s.plan.setSeq < 2 ^ 32 - 1 then s.plan.setSeq + 1 else 1)
        ∧ t.plan.overrun = modifyAt s.plan.overrun c.plan (fun _ => false)
        ∧ t.plan.writing = (if c.publish then s.plan.choosePage else none).map (fun p => ⟨p, s.plan.setSeq⟩)
        ∧ (s.awake → c.plan ≠ patrolPlan → (s.makeSet c b).sumChecked = true → (s.makeSet c b).implausible = false →
            (s.makeSet c b).partial_ = false →
            t.plan.fresh = some ⟨s.plan.setSeq, c.part, (s.makeSet c b).soft⟩ ∧ t.plan.implausible = 0)
        ∧ (∀ x, x = s.makeSet c b →
            (x.sumChecked = true ↔ c.allListed = true ∧ ∃ p ∈ x.cells, p.value.isSome = true)
            ∧ (x.implausible = true ↔ x.sumChecked = true ∧ s.store.inForce.sumTol
                < ((((((x.cells.filterMap (·.value)).map (·.1)).sum : Nat) : Int) + 50) / 100 - (b.vBatt : Int)).natAbs)
            ∧ (s.awake → c.plan ≠ patrolPlan →
              (x.sumChecked = true → x.implausible = false → x.partial_ = true →
                t.plan.implausible = 0 ∧ t.plan.fresh = s.plan.fresh)
              ∧ (x.implausible = true → c.surge = false → t.plan.fresh = s.plan.fresh
                ∧ t.plan.implausible = if s.plan.implausible < 3 then s.plan.implausible + 1 else 3)
              ∧ (x.sumChecked = false ∨ x.implausible = true ∧ c.surge = true →
                t.plan.implausible = s.plan.implausible ∧ t.plan.fresh = s.plan.fresh))
            ∧ (c.plan ≠ patrolPlan → x.implausible = true → c.surge = false → t.attn.pending .sumMismatch = true)
            ∧ (c.plan = patrolPlan ∨ x.implausible = false ∨ c.surge = true →
                t.attn.pending .sumMismatch = s.attn.pending .sumMismatch)
            ∧ (c.plan ≠ patrolPlan → (∃ p ∈ x.cells, softBreach s.store.inForce p) → t.attn.pending .limitSoft = true)
            ∧ (c.plan = patrolPlan ∨ (∀ p ∈ x.cells, ¬ softBreach s.store.inForce p) →
                t.attn.pending .limitSoft = s.attn.pending .limitSoft)
            ∧ (∀ k, c.slot = some k → s.canonical → s.inFlight k → t.showsDone k 1 0
              ∧ t.mem.readBytes (slotAt k + 52) 7 = le 4 s.plan.setSeq
                ++ [byte (if c.publish then s.plan.choosePage.getD 0xFF else 0xFF),
                  byte (flagBits [c.surge, x.implausible, x.partial_, x.saturated, x.overrun, decide (c.plan = burstPlan),
                    decide (c.plan = patrolPlan)]),
                  byte (c.items.filter fun m => m.reading.any fun r => decide (r.age = 0)).length]))
        ∧ (∀ x, x = s.makeSet c b → s.awake → c.plan ≠ patrolPlan → c.surge = false → x.implausible = false →
            (x.hasCells = true →
              t.plan.high = (if ∃ p ∈ x.cells, p.fresh = true ∧ ∃ v, p.value = some v ∧ s.store.active.cellMax < (v.1 : Int)
                then bump 2 s.plan.high else 0)
              ∧ t.plan.low = (if ∃ p ∈ x.cells, p.fresh = true ∧ ∃ v, p.value = some v
                    ∧ (v.1 : Int) < s.store.active.cellMin
                then bump 2 s.plan.low else 0))
            ∧ (x.hasTemps = true →
              t.plan.temp = (if ∃ p ∈ x.temps, p.fresh = true ∧ ∃ v, p.value = some v
                    ∧ (s.store.active.tempMax < v.1 ∨ v.1 < s.store.active.tempMin)
                then bump 2 s.plan.temp else 0))
            ∧ (∀ y v j, s.sup.state.isClosing = true → s.sup.deferral = none → s.newest = some y →
                x.hasCells = true → highest (freshCells x.cells) = some (v, j) → s.store.active.cellMax < (v : Int) →
                1 ≤ s.plan.high →
                ∃ q, getAt x.cells j = some q ∧ causeTaken s t y ⟨.hardCellHigh, s.plan.setSeq, q.addr, j, 0⟩)
            ∧ (∀ y v j, s.sup.state.isClosing = true → s.sup.deferral = none → s.newest = some y →
                x.hasCells = true → lowest (freshCells x.cells) = some (v, j) → (v : Int) < s.store.active.cellMin →
                1 ≤ s.plan.low →
                ∃ q, getAt x.cells j = some q ∧ causeTaken s t y ⟨.hardCellLow, s.plan.setSeq, q.addr, j, 0⟩)
            ∧ (∀ y j q, s.sup.state.isClosing = true → s.sup.deferral = none → s.newest = some y →
                x.hasTemps = true → worstTemp s.store.active x.temps j q → 1 ≤ s.plan.temp →
                causeTaken s t y ⟨.hardTemp, s.plan.setSeq, q.addr, j, 0⟩))
        ∧ (∀ p, s.canonical → c.publish = true → s.plan.choosePage = some p → p ≤ 3 →
            t.mem.num (pageAt p) 4 = 0
              ∧ getAt t.plan.pages p = (getAt s.plan.pages p).map (fun q => { q with seq := 0 })
              ∧ (∀ j, j ≠ p → getAt t.plan.pages j = getAt s.plan.pages j)
              ∧ t.plan.pageAge = s.plan.pageAge.filter (· ≠ p))
        ∧ (c.publish = true → s.plan.choosePage = none →
            t.attn.pending .setDropped = true ∧ t.plan.pages = s.plan.pages ∧ t.plan.pageAge = s.plan.pageAge)
        ∧ (∀ k r, s.awake → c.plan = burstPlan → s.sup.state ≠ .opening → s.ev.at k = some r → r.seq = c.link →
            r.linked = .awaited → (∀ j r', j ≠ k → s.ev.at j = some r' → r'.seq ≠ c.link) →
            ∃ r', t.ev.at k = some r' ∧ r'.linked = .linked s.plan.setSeq ∧ r'.complete = r.complete ∧ r'.seq = r.seq
              ∧ r'.acked = r.acked ∧ r'.revision = (if r.complete then bump 255 r.revision else r.revision)
              ∧ (r.complete = true → t.attn.pending .eventNew = true))
        ∧ t.port.notes = s.port.notes ∧ t.plan.kept = s.plan.kept ∧ t.plan.latest = s.plan.latest
        ∧ t.conv.part = s.conv.part ∧ t.pins = s.pins)
    ∧ (∀ p, s.canonical → s.calm → s.restful → c.surge = true → c.slot = none → c.plan ≤ 7 → c.publish = true →
        s.plan.choosePage = some p →
      Goes .setBuilt s fun t =>
        t.mem.num (pageAt p) 4 = 0 ∧ getAt t.plan.pages p = (getAt s.plan.pages p).map (fun q => { q with seq := 0 })
          ∧ (∀ j, j ≠ p → getAt t.plan.pages j = getAt s.plan.pages j)
          ∧ t.plan.high = s.plan.high ∧ t.plan.low = s.plan.low ∧ t.plan.temp = s.plan.temp
          ∧ t = { s with
              plan.setSeq := t.plan.setSeq
              plan.overrun := t.plan.overrun
              plan.captures := t.plan.captures
              plan.implausible := t.plan.implausible
              plan.fresh := t.plan.fresh
              plan.pages := t.plan.pages
              plan.pageAge := s.plan.pageAge.filter (· ≠ p)
              plan.writing := some ⟨p, s.plan.setSeq⟩
              attn := t.attn
              mem := t.mem }
          ∧ s.sameBut t [countRec, factorRec, (pageAt p, pageAt p + 2044)])
    ∧ (s.canonical → s.calm → s.restful → c.surge = true → c.slot = none → c.plan ≤ 7 → c.publish = true →
        s.plan.choosePage = none →
      Goes .setBuilt s fun t =>
        t.attn.pending .setDropped = true ∧ t.plan.pages = s.plan.pages ∧ s.sameBut t [countRec, factorRec])
    ∧ (∀ (n attempts : Nat) (promoted : Bool) (x : SampleSet), s.canonical → s.resting → s.chain.requests = [] →
        c.plan = patrolPlan → c.contents = .both → x = s.makeSet c b → patrolBreach s.store.inForce x n →
        s.power.state = .patrol → s.power.patrol = some ⟨attempts, promoted, none⟩ → 1 ≤ attempts → attempts ≤ 2 →
        s.power.entry = none → s.power.returning = none → s.power.estimate ≠ .awaited → s.power.nextSlot ≤ 31 →
        s.chain.down = false → s.chain.state ≠ .asleep →
      (n ≠ 0 → Goes .setBuilt s fun t => t.logged s 2 n attempts promoted ∧ wokenWith s t (some .breach))
      ∧ (n = 0 → (∀ m ∈ c.items, ∃ r, m.reading = some r ∧ r.age = 0) → Goes .setBuilt s fun t =>
        t.logged s 1 0 attempts promoted ∧ t.power.patrol = none
          ∧ (s.power.target = .run → wokenWith s t none)
          ∧ (s.power.target ≠ .run → returnsToDeep s t))
      ∧ (n = 0 → (∃ m ∈ c.items, ∀ r, m.reading = some r → r.age ≠ 0) → (attempts = 2 ∨ promoted = true) →
        Goes .setBuilt s fun t =>
          t.logged s 3 0 attempts promoted ∧ t.power.patrol = none
            ∧ (s.power.target = .run ∨ s.power.wakeTable.chainFail = 2 → wokenWith s t (some .chainFail))
            ∧ (s.power.target ≠ .run → s.power.wakeTable.chainFail ≠ 2 → returnsToDeep s t))
      ∧ (n = 0 → (∃ m ∈ c.items, ∀ r, m.reading = some r → r.age ≠ 0) → attempts = 1 → promoted = false →
        Goes .setBuilt s fun t =>
          t.power.state = .patrol ∧ t.power.patrol = some ⟨2, false, none⟩ ∧ t.power.nextSlot = s.power.nextSlot
            ∧ ∃ c' ∈ t.plan.captures, c'.plan = patrolPlan ∧ (c'.stage = .requested ∨ c'.stage = .held)))

/-- The page write ends: trailer and header hold the set's sequence, the pointer and the latest set follow, a pending hold
takes effect, and SET_READY is raised. -/
def Obligations.PageWriteEnds : Prop :=
  ∀ (w : PageWrite) (q : Page) (s : State), s.canonical → s.calm → s.restful → s.plan.writing = some w → w.page ≤ 3 →
    w.seq < 2 ^ 32 → getAt s.plan.pages w.page = some q →
    Goes .pageWriteEnd s fun t =>
      t.mem.num (pageAt w.page) 4 = w.seq ∧ t.mem.num (pageAt w.page + 0x7FC) 4 = w.seq
        ∧ getAt t.plan.pages w.page = some ⟨w.seq, q.held || q.pending, false⟩
        ∧ (∀ j, j ≠ w.page → getAt t.plan.pages j = getAt s.plan.pages j) ∧ t.attn.pending .setReady = true
        ∧ t = { s with
            plan.pages := t.plan.pages
            plan.pageAge := s.plan.pageAge ++ [w.page]
            plan.writing := none
            plan.latest := some (w.page, w.seq)
            plan.captures := s.plan.captures.filter fun c => decide (c.stage ≠ .writing)
            attn := t.attn
            mem := t.mem }
        ∧ s.sameBut t [pointerRec, factorRec, (pageAt w.page, pageAt w.page + 4),
            (pageAt w.page + 0x7FC, pageAt w.page + 0x800)]

/-! ### The contactor supervisor -/

/-- A coil's report that falls due, alone or with that of a second coil at the same instant. Alone and at or above the coil
minimum only the next report's time moves by 100 ms. Below it, with a second coil below it too or with none: in a state other
than OPENING every coil is released, OPEN is entered without a weld check, a CLOSE in flight is REFUSED with cause COIL_FAULT,
and a deferral ends. In OPENING, with a supervisor that agrees with itself (Lawful), MAIN_NEG is released at once, the opening
ends and WELD_CHECK begins with its window; the OPEN slips that waited complete OK. In every case one COIL_FAULT event names
the coil and its current, the second coil and its own, and the causes and the length of the deferral that it ends, and the
wear counts of the main contactors that it releases advance. The second coil of a report is an operand (log 49); that the
result fields of the CLOSE are 0 is the model's choice (log 70). -/
def Obligations.CoilReports : Prop :=
  ∀ (n : CoilName) (mA : Nat) (s : State), (s.sup.coil n).on = true → elapsed s.now (s.sup.coil n).nextReport < 2 ^ 31 →
    (s.calm → s.restful → s.store.active.coilMin ≤ (mA : Int) →
      exec (.coilReport n mA none) s = .next { s with
        sup.mainNeg.nextReport := s.sup.mainNeg.nextReport + if n = .mainNeg then 100 else 0
        sup.precharge.nextReport := s.sup.precharge.nextReport + if n = .precharge then 100 else 0
        sup.mainPos.nextReport := s.sup.mainPos.nextReport + if n = .mainPos then 100 else 0 })
    ∧ (∀ also : Option (CoilName × Nat), (mA : Int) < s.store.active.coilMin →
      (∀ d, also = some d → d.1 ≠ n ∧ (s.sup.coil d.1).on = true
        ∧ elapsed s.now (s.sup.coil d.1).nextReport < 2 ^ 31 ∧ (d.2 : Int) < s.store.active.coilMin) →
      (s.sup.state ≠ .opening → Goes (.coilReport n mA also) s fun t =>
        t.sup.state = .open_ ∧ t.sup.coils = ⟨false, false, false⟩ ∧ t.sup.close = none ∧ t.sup.deferral = none
          ∧ t.sup.opening = s.sup.opening ∧ t.sup.weld = s.sup.weld ∧ t.sup.once = s.sup.once
          ∧ t.attn.pending .contactorChange = true
          ∧ (s.calm → s.restful → t.ev.inbox = s.ev.inbox ++ [⟨.coilFault, 0, s.sup.coils, ⟨false, false, false⟩,
              .coilFault n mA also, s.deferralCauses, s.deferralLength, false, false, false⟩])
          ∧ (∀ c, s.sup.close = some c → s.canonical → s.restful → s.inFlight c.slot →
              t.showsDone c.slot 3 11 ∧ t.mem.readBytes (slotAt c.slot + 52) 12 = List.replicate 12 0)
          ∧ (∀ x, s.newest = some x → s.restful →
              (∀ q ∈ s.store.queue, ∀ d, q.payload ≠ .wearPos d ∧ q.payload ≠ .wearNeg d) →
              t.store.queue = s.store.queue
                ++ ((if s.sup.mainPos.on then [⟨.wearPos (releaseWear s x.i), [.wear]⟩] else [])
                ++ if s.sup.mainNeg.on then [⟨.wearNeg (releaseWear s x.i), [.wear]⟩] else []))
          ∧ s.sameAround t)
      ∧ (∀ o, s.Lawful → s.sup.state = .opening → s.sup.opening = some o → Goes (.coilReport n mA also) s fun t =>
        t.sup.state = .weldCheck ∧ t.sup.coils = ⟨false, false, false⟩ ∧ t.sup.opening = none
          ∧ t.sup.weld = some ⟨s.now, s.store.active.weldWindow.toNat, false, false⟩ ∧ t.sup.close = none
          ∧ t.sup.deferral = none ∧ t.sup.once = s.sup.once ∧ t.attn.pending .contactorChange = true
          ∧ (s.calm → s.restful → t.ev.inbox = (s.ev.inbox.map fun e => { e with adding := false })
              ++ [⟨.coilFault, 0, s.sup.coils, ⟨false, false, false⟩, .coilFault n mA also, [], none, false, false, false⟩])
          ∧ (∀ k ∈ o.slots, s.canonical → s.restful → s.inFlight k → t.showsDone k 1 0
              ∧ t.mem.readBytes (slotAt k + 52) 5 = les 4 o.release ++ [byte o.causes.length])
          ∧ (∀ x, s.newest = some x → s.restful → (∀ q ∈ s.store.queue, ∀ d, q.payload ≠ .wearNeg d) →
              t.store.queue = s.store.queue ++ [⟨.wearNeg (releaseWear s x.i), [.wear]⟩])
          ∧ s.sameAround t))

/-- Inrush ends at its time; the silence warning comes when an armed count has reached the limit and none stands; the
expiry of an armed count at limit plus grace, at rest, clears the count and the warning, marks the timer lapsed and
sends a SILENCE event. Nothing else changes. -/
def Obligations.InrushAndSilence : Prop :=
  ∀ s : State, s.canonical → s.calm →
    (∀ tm, s.sup.inrush = some tm → elapsed s.now tm < 2 ^ 31 →
      Goes .inrushEnd s fun t => t = { s with sup.inrush := none, mem := t.mem } ∧ s.sameBut t [contactorRec])
    ∧ (0 < s.sup.once.limit → s.sup.once.limit ≤ s.sup.silence → s.sup.warn = false →
      Goes .silenceWarn s fun t =>
        t.attn.pending .silenceWarn = true ∧ t = { s with sup.warn := true, attn := t.attn, mem := t.mem }
          ∧ s.sameBut t [contactorRec, factorRec])
    ∧ (s.restful → 0 < s.sup.once.limit → s.sup.once.limit + s.store.active.grace.toNat ≤ s.sup.silence →
        s.sup.warn = true → s.sup.state.atRest = true →
      Goes .silence s fun t =>
        t = { s with
          sup.silence := 0
          sup.warn := false
          sup.lapsed := true
          ev.inbox := s.ev.inbox ++ [⟨.silence, 0, s.sup.coils, s.sup.coils,
            .silence s.sup.once.limit s.store.active.grace.toNat, [], none, false, false, false⟩]
          mem := t.mem }
        ∧ s.sameBut t [contactorRec])

/-- A close ends. At the precharge timeout MAIN_NEG and PRECHARGE are released, OPEN is entered without a weld check and the
slip is REFUSED with PRECHARGE_TIMEOUT; its result fields and a PRECHARGE_TIMEOUT event hold V_LINK and V_BATT of the newest
sample, the event also the causes and the length of the deferral that ends with the close; the wear count of MAIN_NEG
advances. 30 ms after CLOSING was entered PRECHARGE is released, CLOSED is entered and the slip is OK; its result fields and
a CLOSED_DONE event hold the time to precharge reached and V_LINK and V_BATT of the sample that reached it; a deferral goes
on. That the precharge time of the slip that the timeout refuses is 0 is the model's choice (log 108). -/
def Obligations.CloseEnds : Prop :=
  ∀ (c : Close) (s : State), s.canonical → s.restful → s.sup.close = some c → s.inFlight c.slot →
    (s.sup.state = .precharging → c.timeout ≤ elapsed s.now c.entered →
      Goes .prechargeTimeout s fun t =>
        t.sup.state = .open_ ∧ t.sup.mainNeg.on = false ∧ t.sup.precharge.on = false
          ∧ t.sup.mainPos = s.sup.mainPos ∧ t.sup.close = none ∧ t.sup.deferral = none ∧ t.showsDone c.slot 3 10
          ∧ t.attn.pending .contactorChange = true ∧ t.sup.once = s.sup.once ∧ t.sup.silence = s.sup.silence
          ∧ t.sup.weld = s.sup.weld ∧ t.sup.opening = s.sup.opening
          ∧ (∃ vLink vBatt, t.mem.readBytes (slotAt c.slot + 52) 12 = [0, 0, 0, 0] ++ le 4 vLink ++ le 4 vBatt
            ∧ (∀ x, s.newest = some x → vLink = x.vLink ∧ vBatt = x.vBatt))
          ∧ (s.calm → ∃ vLink vBatt, t.ev.inbox = s.ev.inbox
              ++ [⟨.prechargeTimeout, 0, s.sup.coils, ⟨false, false, s.sup.mainPos.on⟩, .volts vLink vBatt,
                s.deferralCauses, s.deferralLength, false, false, false⟩]
            ∧ (∀ x, s.newest = some x → vLink = x.vLink ∧ vBatt = x.vBatt))
          ∧ (∀ x, s.newest = some x → s.sup.mainNeg.on = true → (∀ q ∈ s.store.queue, ∀ d, q.payload ≠ .wearNeg d) →
              t.store.queue = s.store.queue ++ [⟨.wearNeg (releaseWear s x.i), [.wear]⟩])
          ∧ s.sameAround t)
    ∧ (s.sup.state = .closing → 30 ≤ elapsed s.now s.sup.settleAt →
      Goes .mainSettleEnd s fun t =>
        t.sup.state = .closed ∧ t.sup.mainNeg = s.sup.mainNeg ∧ t.sup.precharge.on = false
          ∧ t.sup.mainPos = s.sup.mainPos ∧ t.sup.close = none ∧ t.sup.deferral = s.sup.deferral
          ∧ t.showsDone c.slot 1 0 ∧ t.mem.num (slotAt c.slot + 52) 2 = c.reachedMs % 65536
          ∧ t.mem.readBytes (slotAt c.slot + 54) 10 = [0, 0] ++ le 4 c.vLink ++ le 4 c.vBatt
          ∧ (s.calm → t.ev.inbox = s.ev.inbox
              ++ [⟨.closedDone, 0, s.sup.coils, ⟨s.sup.mainNeg.on, false, s.sup.mainPos.on⟩,
                .closedDone c.reachedMs c.vLink c.vBatt, [], none, false, false, false⟩])
          ∧ t.store.queue = s.store.queue
          ∧ t.attn.pending .contactorChange = true ∧ t.sup.once = s.sup.once ∧ t.sup.silence = s.sup.silence
          ∧ s.sameAround t)

/-- The second step of an opening, 20 ms after the first, releases MAIN_NEG and enters WELD_CHECK with its window. A weld
window that has passed is judged on the newest sample: LOCKED_OUT if V_LINK × 1000 ≥ ratio × V_BATT, with LOCKOUT raised, a
WELD_SUSPECT event sent and the write of the lockout record as set asked for, with the part time and the voltages of the
sample; OPEN otherwise, with no event and no write; either raises CONTACTOR_CHANGE; with an empty history it waits for a
sample. The window of a CLEAR_LOCKOUT refuses the slip STILL_WELDED by the same test; otherwise the write of the lockout
record as clear is asked for, and the slip stays in flight; the state stays either way. The OPEN slips that waited complete
OK at the second step, with the release current and the number of causes, and the wear count of MAIN_NEG advances. The part
time and the voltages of the cleared record are the model's choice (log 35). -/
def Obligations.OpeningAndWeldWindow : Prop :=
  ∀ s : State,
    (∀ o, s.sup.opening = some o → 20 ≤ elapsed s.now o.start →
      Goes .openingSecondStep s fun t =>
        t.sup.state = .weldCheck ∧ t.sup.mainNeg.on = false ∧ t.sup.opening = none
          ∧ t.sup.weld = some ⟨s.now, s.store.active.weldWindow.toNat, false, false⟩
          ∧ t.sup.mainPos = s.sup.mainPos ∧ t.sup.precharge = s.sup.precharge ∧ t.sup.close = s.sup.close
          ∧ t.sup.once = s.sup.once ∧ s.sameAround t
          ∧ (∀ k ∈ o.slots, s.canonical → s.restful → s.inFlight k → t.showsDone k 1 0
              ∧ t.mem.readBytes (slotAt k + 52) 5 = les 4 o.release ++ [byte o.causes.length])
          ∧ (∀ x, s.newest = some x → s.sup.mainNeg.on = true → s.awake →
              (∀ q ∈ s.store.queue, ∀ d, q.payload ≠ .wearNeg d) →
              t.store.queue = s.store.queue ++ [⟨.wearNeg (releaseWear s x.i), [.wear]⟩]))
    ∧ (∀ w, s.sup.weld = some w → w.waitingSample = false → w.length ≤ elapsed s.now w.start →
      (s.newest = none → s.calm →
        exec .weldWindowEnd s = .next { s with sup.weld := some { w with waitingSample := true } })
      ∧ (∀ x, s.newest = some x → w.forClear = false →
        Goes .weldWindowEnd s fun t =>
          t.sup.state = (if s.store.active.weldRatio.toNat * x.vBatt ≤ x.vLink * 1000 then .lockedOut else .open_)
            ∧ t.sup.weld = none ∧ t.sup.coils = s.sup.coils ∧ t.sup.close = s.sup.close
            ∧ t.sup.opening = s.sup.opening ∧ t.sup.once = s.sup.once ∧ t.attn.pending .contactorChange = true
            ∧ (s.store.active.weldRatio.toNat * x.vBatt ≤ x.vLink * 1000 →
              t.attn.pending .lockout = true
                ∧ (s.calm → s.restful → t.ev.inbox = s.ev.inbox ++ [⟨.weldSuspect, 0, s.sup.coils, s.sup.coils,
                    .weldSuspect x.vLink x.vBatt s.store.active.weldRatio.toNat, [], none, false, false, false⟩])
                ∧ (s.restful → t.store.queue
                    = s.store.queue ++ [⟨.lockout ⟨true, s.now, x.vLink, x.vBatt⟩, [.weldSet]⟩]))
            ∧ (x.vLink * 1000 < s.store.active.weldRatio.toNat * x.vBatt →
              t.attn.pending .lockout = s.attn.pending .lockout
                ∧ (s.calm → s.restful → t.ev.inbox = s.ev.inbox ∧ t.store.queue = s.store.queue))
            ∧ s.sameAround t)
      ∧ (∀ x c, s.newest = some x → w.forClear = true → s.sup.clear = some c →
        Goes .weldWindowEnd s fun t =>
          t.sup.state = s.sup.state ∧ t.sup.weld = none ∧ t.sup.coils = s.sup.coils
            ∧ (s.store.active.weldRatio.toNat * x.vBatt ≤ x.vLink * 1000 →
                t.sup.clear = none ∧ (s.canonical → s.restful → s.inFlight c.slot →
                  t.showsDone c.slot 3 13
                    ∧ t.mem.readBytes (slotAt c.slot + 52) 8 = le 4 x.vLink ++ le 4 x.vBatt))
            ∧ (x.vLink * 1000 < s.store.active.weldRatio.toNat * x.vBatt →
                t.sup.clear = some ⟨c.slot, x.vLink, x.vBatt⟩
                  ∧ (s.restful → ∃ q ∈ t.store.queue,
                      q.payload = .lockout ⟨false, s.now, x.vLink, x.vBatt⟩ ∧ Requester.weldClear ∈ q.who))
            ∧ t.sup.once = s.sup.once ∧ s.sameAround t))

/-- The commands with which a cause of an autonomous open falls due, and the cause. -/
def fallsDue (s : State) : Instr → CauseRec → Prop
  | .hardCurrent, c => s.sup.hardDue = true ∧ c = ⟨.hardCurrent, 0, 0, 0, 0⟩
  | .chainLoss, c => s.sup.lossDue = true ∧ c = ⟨.chainLoss, 0, 0, 0, if s.chain.down then 1 else 2⟩
  | .silence, c =>
    0 < s.sup.once.limit ∧ s.sup.once.limit + s.store.active.grace.toNat ≤ s.sup.silence
      ∧ c = ⟨.silence, 0, 0, 0, s.sup.silence⟩
  | _, _ => False

/-- HARD_CURRENT, CHAIN_LOSS and SILENCE in PRECHARGING, CLOSING or CLOSED with no deferral: below the break limit MAIN_POS and
PRECHARGE are released at once and OPENING begins with the cause; at or above it a deferral with the cause begins and the
contactors stay. At the deferral's limit OPENING begins with its causes. Either is an autonomous open: it raises AUTO_OPEN,
sends an AUTO_OPEN event with the first cause in its cause field and the others in its detail, with HIGH_CURRENT_BREAK if the
release current is at or above the break limit, aborts a CLOSE, counts the wear of MAIN_POS and asks for the balancing stop.
In OPENING a new cause joins the running opening and the detail of its record, in a COMPLETE one as a revision, which raises
EVENT_NEW; a cause that the opening has already changes neither. An OPEN slip in PRECHARGING, CLOSING or CLOSED opens
likewise, at once and also with a deferral: it waits on the opening, a CLOSE in flight is ABORTED, an OPENED event is sent,
with HIGH_CURRENT_BREAK if the current is at or above the break limit, and the wear count of MAIN_POS advances. In OPENING an
OPEN waits on the running opening, and nothing else changes. Each cause is handled by its own command (log 56), what was lost
is read when CHAIN_LOSS is handled (log 72), that a SILENCE cause holds the count as it stood before the expiry set it to 0
is the model's choice (log 86), and so are that the first cause stands in the cause field by its code alone (log 74) and that
the balancing stop's CONFIG has the duration 0 besides its empty mask (log 75); that the two events of an opening are sent
together is the model's form (log 34). -/
def Obligations.CausesOpen : Prop :=
  ∀ (x : Sample) (s : State), s.newest = some x → s.slipsRight →
    (∀ c r, fallsDue s c r → s.sup.state.isClosing = true → s.sup.deferral = none →
      ((x.i.natAbs : Int) < s.store.active.breakLimit →
        Goes c s fun t => autonomousOpen s t x.i [r] ∧ s.sameAround t)
      ∧ (s.store.active.breakLimit ≤ (x.i.natAbs : Int) →
        Goes c s fun t =>
          t.sup.state = s.sup.state ∧ t.sup.coils = s.sup.coils ∧ t.sup.close = s.sup.close
            ∧ t.sup.opening = s.sup.opening
            ∧ t.sup.deferral = some ⟨s.now, s.store.active.deferral.toNat, [r]⟩ ∧ t.sup.once = s.sup.once
            ∧ s.sameAround t))
    ∧ (∀ d, s.sup.deferral = some d → d.limit ≤ elapsed s.now d.start →
      Goes .deferralLimit s fun t => autonomousOpen s t x.i d.causes ∧ s.sameAround t)
    ∧ (∀ c r o, fallsDue s c r → s.calm → s.restful → s.sup.state = .opening → s.sup.opening = some o →
      (r.cause ∈ o.causes → Goes c s fun t => t.sup.opening = s.sup.opening ∧ ∀ j, t.ev.at j = s.ev.at j)
      ∧ (∀ k e, r.cause ∉ o.causes → (∀ y ∈ s.ev.inbox, y.adding = false) → s.ev.at k = some e → e.adding = true →
          (∀ j e', j ≠ k → s.ev.at j = some e' → e'.adding = false) → (e.kind = .autoOpen → e.cause ≠ r.cause.code) →
          (∀ y ∈ e.causes, y.cause ≠ r.cause) →
        Goes c s fun t =>
          t.sup.state = .opening ∧ t.sup.opening = some { o with causes := o.causes ++ [r.cause] }
            ∧ t.ev.at k = some { e with
                causes := e.causes ++ [r]
                revision := if e.complete then bump 255 e.revision else e.revision }
            ∧ (e.complete = true → t.attn.pending .eventNew = true) ∧ (∀ j, j ≠ k → t.ev.at j = s.ev.at j)
            ∧ s.sameAround t))
    ∧ (∀ (w : Word) (rest : List Word) (k : Nat), postedSlip s w rest k (some .open_) → s.canonical → s.calm →
        s.restful → s.power.state ≠ .enteringDeep →
      (s.sup.state.isClosing = true → Goes .post s fun t =>
        t.sup.state = .opening ∧ t.sup.mainPos.on = false ∧ t.sup.precharge.on = false
          ∧ t.sup.mainNeg = s.sup.mainNeg ∧ t.sup.opening = some ⟨[k], x.i, s.deferralCauses.map (·.cause), s.now⟩
          ∧ t.sup.close = none ∧ t.sup.deferral = none ∧ stillTaken t k
          ∧ (∀ c, s.sup.close = some c → s.inFlight c.slot → t.showsDone c.slot 5 0)
          ∧ t.ev.inbox = s.ev.inbox
              ++ ⟨.opened, 0, s.sup.coils, ⟨s.sup.mainNeg.on, false, false⟩, .release x.i, s.deferralCauses,
                  s.deferralLength, true, false, false⟩
                :: (if s.store.active.breakLimit ≤ (x.i.natAbs : Int) then
                  [⟨.highCurrentBreak, 0, s.sup.coils, ⟨s.sup.mainNeg.on, false, false⟩, .release x.i, [], none, false,
                    true, false⟩] else [])
          ∧ (s.sup.mainPos.on = true → (∀ q ∈ s.store.queue, ∀ d, q.payload ≠ .wearPos d) →
              t.store.queue = s.store.queue ++ [⟨.wearPos (releaseWear s x.i), [.wear]⟩])
          ∧ t.attn.pending .contactorChange = true ∧ t.sup.once = s.sup.once
          ∧ State.sameAround { s with port.notes := rest } t)
      ∧ (∀ o, s.sup.state = .opening → s.sup.opening = some o →
        exec .post s = .next { takenSlip s rest k with sup.opening := some { o with slots := o.slots ++ [k] } }))

/-! ### The update engine -/

/-- The oldest waiting buffer is judged: with no update in RECEIVING it is given back REJECTED with cause NOT_RECEIVING,
with a length outside 1 to 4096 REJECTED with cause LENGTH, with the last accepted index DUPLICATE with the duplicate count
advanced, with the expected index and a length beyond the declared one REJECTED with cause LENGTH; each raises UPDATE_STATE.
One with the expected index and a length that fits begins to be absorbed and reads TAKING; one with another index is given
back REJECTED with cause ORDER and the rejected count advanced, unless it repeats the last accepted one. An absorption ends
1 ms after it began, with no host write to the buffer meanwhile: a chunk whose CRC-32 matches joins staging, is the last
accepted one and is counted, and its buffer reads EMPTY; otherwise the buffer is given back REJECTED with cause CRC and the
rejected count advanced. Either raises UPDATE_STATE. That the CRC-32 compared is the one read as TAKING began is the model's
choice (log 82). -/
def Obligations.ChunkAbsorption : Prop :=
  (∀ (buf : Buffer) (l : List Buffer) (d : Descriptor) (s : State), s.canonical → s.calm → s.upd.waiting = buf :: l →
    s.upd.absorbing = none → d = readDescriptor s.mem buf →
    (∀ cause, (s.upd.state ≠ .receiving ∧ cause = 4
        ∨ s.upd.state = .receiving ∧ (d.length = 0 ∨ 4096 < d.length) ∧ cause = 3
        ∨ s.upd.state = .receiving ∧ 1 ≤ d.length ∧ d.length ≤ 4096 ∧ s.upd.lastAcc ≠ some d.index
          ∧ d.index = s.upd.expected ∧ s.upd.header.length < s.upd.staging.length + d.length ∧ cause = 3) →
      Goes .absorptionStart s fun t =>
        bufferState t.mem buf = 4 ∧ t.mem.num (descriptorAt buf + 10) 1 = cause ∧ t.attn.pending .updateState = true
          ∧ t = { s with
              upd.waiting := l
              upd.rej := if s.upd.rej < 65535 then s.upd.rej + 1 else 65535
              attn := t.attn
              mem := t.mem }
          ∧ s.sameBut t [factorRec, statusRec, (descriptorAt buf + 8, descriptorAt buf + 12)])
    ∧ (s.upd.state = .receiving → 1 ≤ d.length → d.length ≤ 4096 → s.upd.lastAcc = some d.index →
      Goes .absorptionStart s fun t =>
        bufferState t.mem buf = 3 ∧ t.attn.pending .updateState = true
          ∧ t = { s with
              upd.waiting := l
              upd.dup := if s.upd.dup < 65535 then s.upd.dup + 1 else 65535
              attn := t.attn
              mem := t.mem }
          ∧ s.sameBut t [factorRec, statusRec, (descriptorAt buf + 8, descriptorAt buf + 12)]))
  ∧ (∀ (buf : Buffer) (l : List Buffer) (d : Descriptor) (s : State), s.canonical → s.calm → s.upd.waiting = buf :: l →
    s.upd.absorbing = none → s.upd.state = .receiving → d = readDescriptor s.mem buf → 1 ≤ d.length → d.length ≤ 4096 →
    s.upd.lastAcc ≠ some d.index →
    (d.index = s.upd.expected → s.upd.staging.length + d.length ≤ s.upd.header.length →
      Goes .absorptionStart s fun t =>
        bufferState t.mem buf = 2
          ∧ t = { s with
              upd.waiting := l
              upd.absorbing := some ⟨buf, s.now, d.index, d.length, d.crc, []⟩
              mem := t.mem }
          ∧ s.sameOutside t (descriptorAt buf + 8) (descriptorAt buf + 12))
    ∧ (d.index ≠ s.upd.expected →
      Goes .absorptionStart s fun t =>
        bufferState t.mem buf = 4 ∧ t.mem.num (descriptorAt buf + 10) 1 = 1 ∧ t.attn.pending .updateState = true
          ∧ t = { s with
              upd.waiting := l
              upd.rej := if s.upd.rej < 65535 then s.upd.rej + 1 else 65535
              attn := t.attn
              mem := t.mem }
          ∧ s.sameBut t [factorRec, statusRec, (descriptorAt buf + 8, descriptorAt buf + 12)]))
  ∧ (∀ (x : Absorb) (data : List Byte) (s : State), s.canonical → s.calm → s.upd.absorbing = some x → x.old = [] →
    1 ≤ elapsed s.now x.since → data = s.mem.readBytes (bufferAt x.buffer) x.length →
    (crc32 data = x.crc →
      Goes .absorptionEnd s fun t =>
        bufferState t.mem x.buffer = 0 ∧ t.attn.pending .updateState = true
          ∧ t = { s with
              upd.absorbing := none
              upd.staging := s.upd.staging ++ data
              upd.runCrc := crc32On s.upd.runCrc data
              upd.lastAcc := some x.index
              upd.expected := x.index + 1
              upd.acc := if s.upd.acc < 65535 then s.upd.acc + 1 else 65535
              attn := t.attn
              mem := t.mem }
          ∧ s.sameBut t [factorRec, statusRec, (descriptorAt x.buffer + 8, descriptorAt x.buffer + 12)])
    ∧ (crc32 data ≠ x.crc →
      Goes .absorptionEnd s fun t =>
        bufferState t.mem x.buffer = 4 ∧ t.mem.num (descriptorAt x.buffer + 10) 1 = 2
          ∧ t.attn.pending .updateState = true
          ∧ t = { s with
              upd.absorbing := none
              upd.rej := if s.upd.rej < 65535 then s.upd.rej + 1 else 65535
              attn := t.attn
              mem := t.mem }
          ∧ s.sameBut t [factorRec, statusRec, (descriptorAt x.buffer + 8, descriptorAt x.buffer + 12)]))

/-- The engine's slips that pass their checks. UPDATE_BEGIN: the header is taken, staging and counts are emptied, one
PENDING record stands for each selected address of a module update, the state is RECEIVING and the slip OK. UPDATE_CHECK:
the state is CHECKING and the slip stays in flight. UPDATE_APPLY of a limit image: COMMITTING, with the write of the
inactive bank asked for. UPDATE_APPLY of a module image: DISTRIBUTING, with the first PENDING record whose address is
eligible SENDING and its first block asked for; without one the update ends with outcome NONE_SENT. UPDATE_ABORT in
RECEIVING, CHECKING or VERIFIED, in COMMITTING before the bank or the marker write begins, in DISTRIBUTING without a block
exchange and in SWITCHING before the SWITCH is sent (while its frame is being sent, as read from the spec, log 45), also
while a request waits or the chain is paused: IDLE with outcome ABORTED, staging cleared, the slip OK, a check or apply in
flight ABORTED, a waiting write or request withdrawn, the pause ended, SENDING and PENDING records FAILED with cause ABORTED,
a module in turn back IN_SERVICE. With the bank write running, a block
exchange or a switch window in progress it waits; with the marker write running or a floor write requested it is too late:
either way nothing changes but the abort's mark and its slot, which reads TAKEN, and a later abort joins it. The end of the tag check: if the CRC-32 of what
staging reads back is the running one, the state is VERIFIED and the UPDATE_CHECK is OK where the check unit passes it, and
the update ends in IDLE with outcome TAG_FAIL where it fails it; otherwise the update ends with outcome STAGING_FAULT. At an
end staging is cleared, and the slip is REFUSED with that cause. The bytes that read back otherwise are an operand (log 49),
the unit's answer is a free function (log 92). -/
def Obligations.CheckEnds : Prop :=
  (∀ (w : Word) (rest : List Word) (k : Nat) (h : RawHeader) (s : State), s.canonical → s.calm → s.restful →
    s.slipsRight → s.power.state ≠ .enteringDeep → h = rawHeader (slipArgs s k) →
    (postedSlip s w rest k (some .updateBegin) → answerAtOnce s (slipArgs s k) .updateBegin = none →
      Goes .post s fun t =>
        t.upd.state = .receiving ∧ t.upd.header.version = h.version ∧ t.upd.header.length = h.length
          ∧ t.upd.header.tag = h.tag ∧ (t.upd.header.target = .moduleFirmware ↔ h.target = 2)
          ∧ t.upd.staging = [] ∧ t.upd.expected = 0 ∧ t.upd.lastAcc = none ∧ t.upd.acc = 0 ∧ t.upd.dup = 0
          ∧ t.upd.rej = 0 ∧ t.upd.switchPending = false ∧ t.upd.commitReached = false ∧ t.upd.floorWritten = false
          ∧ (h.target = 1 → t.upd.dist = [])
          ∧ (h.target = 2 → t.upd.dist.map (fun d => (d.addr, d.state, d.lastAck))
              = (addresses.filter (selects h.mask)).map fun a => (a, .pending, none))
          ∧ t.showsDone k 1 0 ∧ t.attn.pending .updateState = true
          ∧ t = { s with port.notes := rest, upd := t.upd, attn := t.attn, mem := t.mem })
    ∧ (postedSlip s w rest k (some .updateCheck) → answerAtOnce s (slipArgs s k) .updateCheck = none →
      Goes .post s fun t =>
        t = { takenSlip s rest k with
            upd.state := .checking
            upd.slip := some (.check, k)
            upd.checkAt := s.now
            attn := t.attn
            mem := t.mem }
          ∧ stillTaken t k ∧ t.attn.pending .updateState = true)
    ∧ (postedSlip s w rest k (some .updateApply) → answerAtOnce s (slipArgs s k) .updateApply = none →
      s.upd.header.target = .limitImage →
      Goes .post s fun t =>
        t = { takenSlip s rest k with
            upd.state := .committing
            upd.slip := some (.apply, k)
            upd.commit := .bank
            store.queue := s.store.queue ++ [⟨.bank ⟨s.upd.header.version, s.upd.staging⟩, [.engine]⟩]
            attn := t.attn
            mem := t.mem }
          ∧ stillTaken t k ∧ t.attn.pending .updateState = true)
    ∧ (∀ (before after : List DistRec) (d : DistRec), postedSlip s w rest k (some .updateApply) →
        answerAtOnce s (slipArgs s k) .updateApply = none → s.upd.header.target = .moduleFirmware →
        s.chain.occupied → s.chain.requests.contains (.firmware .block) = false →
        s.upd.dist = before ++ d :: after → (∀ x ∈ before, x.state ≠ .pending) → d.state = .pending → d.moved = false →
        s.eligible d.addr = true →
      Goes .post s fun t =>
        t = { takenSlip s rest k with
            upd.state := .distributing
            upd.slip := some (.apply, k)
            upd.dist := before ++ { d with state := .sending } :: after
            upd.turn := some ⟨before.length, false, 0, 0⟩
            upd.link := .waiting
            chain.requests := s.chain.requests ++ [.firmware .block]
            attn := t.attn
            mem := t.mem }
          ∧ stillTaken t k ∧ t.attn.pending .updateState = true)
    ∧ (postedSlip s w rest k (some .updateApply) → answerAtOnce s (slipArgs s k) .updateApply = none →
        s.upd.header.target = .moduleFirmware → s.upd.dist.length ≤ 24 →
        (∀ d ∈ s.upd.dist, d.state = .pending ∧ s.eligible d.addr = false) →
      Goes .post s fun t =>
        t.upd.state = .idle ∧ t.upd.outcome = .noneSent ∧ t.upd.outcomeState = some .distributing
          ∧ t.upd.dist = s.upd.dist.map (fun d => { d with state := .failed, cause := some .notEligible })
          ∧ t.showsDone k 3 31 ∧ t.sup = s.sup ∧ t.store = s.store)
    ∧ (postedSlip s w rest k (some .updateAbort) → s.upd.aborts = [] → s.upd.slip = none →
      s.upd.state = .receiving ∨ s.upd.state = .verified →
      Goes .post s fun t =>
        t.upd.state = .idle ∧ t.upd.outcome = .aborted ∧ t.upd.outcomeState = some s.upd.state ∧ t.upd.staging = []
          ∧ t.upd.absorbing = none ∧ t.showsDone k 1 0 ∧ t.attn.pending .updateState = true
          ∧ t.sup = s.sup ∧ t.store = s.store ∧ t.conv = s.conv ∧ t.plan = s.plan ∧ t.power = s.power
          ∧ t.port = { s.port with notes := rest }))
  ∧ (∀ (w : Word) (rest : List Word) (k : Nat) (s : State), s.canonical → s.slipsRight → s.awake → s.plan.burst = none →
    s.power.state ≠ .enteringDeep → postedSlip s w rest k (some .updateAbort) →
    (s.upd.aborts = [] →
      (s.upd.state = .checking
        ∨ s.upd.state = .committing ∧ (s.upd.commit = .bank ∨ s.upd.commit = .marker) ∧ (∃ q ∈ s.store.queue, .engine ∈ q.who)
        ∨ s.upd.state = .distributing ∧ s.upd.link ≠ .exchange
        ∨ s.upd.state = .switching ∧ s.upd.commit ≠ .fwFloor ∧ s.upd.window = none →
        Goes .post s fun t =>
          t.updateEnds s .aborted 5 0 ∧ t.showsDone k 1 0
            ∧ (s.upd.state = .committing → t.store.queue = s.store.queue.filter fun q => !q.who.contains .engine)
            ∧ t.upd.dist = (if s.upd.state = .distributing then s.upd.dist.map (fun d =>
                if d.state = .sending ∨ d.state = .pending then { d with state := .failed, cause := some .aborted } else d)
              else s.upd.dist)
            ∧ (∀ tn d e, s.upd.state = .switching → s.upd.current = some (tn, d) → s.chain.entry d.addr = some e →
                e.state = .outOfService →
                t.chain.entry d.addr = some { e with state := .inService, miss := 0, cause := none })
            ∧ t.upd.pause = none ∧ (∀ r, .firmware r ∉ t.chain.requests)
            ∧ t.store.nv = s.store.nv ∧ t.store.active = s.store.active ∧ s.sameContactors t)
      ∧ (s.upd.pause = none → s.chain.requests = [] ∨ s.chain.occupied →
        s.upd.state = .committing ∧ s.upd.commit = .bank ∧ (∀ q ∈ s.store.queue, .engine ∉ q.who)
        ∨ s.upd.state = .distributing ∧ s.upd.link = .exchange ∧ s.upd.switchPending = false
        ∨ s.upd.state = .switching ∧ s.upd.commit ≠ .fwFloor ∧ s.upd.window.isSome = true →
        Goes .post s fun t =>
          t.upd = { s.upd with aborts := [k], aborting := true } ∧ stillTaken t k ∧ t.store = s.store
            ∧ s.sameContactors t
            ∧ (s.calm → t = { takenSlip s rest k with upd.aborts := [k], upd.aborting := true }))
      ∧ (s.upd.pause = none → s.chain.requests = [] ∨ s.chain.occupied →
        s.upd.state = .committing ∧ s.upd.commit = .marker ∧ (∀ q ∈ s.store.queue, .engine ∉ q.who)
        ∨ s.upd.state = .committing ∧ s.upd.commit = .floor
        ∨ s.upd.state = .switching ∧ s.upd.commit = .fwFloor →
        Goes .post s fun t =>
          t.upd = { s.upd with aborts := [k] } ∧ stillTaken t k ∧ t.store = s.store ∧ s.sameContactors t
            ∧ (s.calm → t = { takenSlip s rest k with upd.aborts := [k] })))
    ∧ (s.upd.aborts ≠ [] → s.upd.pause = none → s.chain.requests = [] ∨ s.chain.occupied →
      (s.upd.state = .distributing → s.upd.link = .exchange ∧ s.upd.switchPending = false) →
      Goes .post s fun t =>
        t.upd = { s.upd with aborts := s.upd.aborts ++ [k] } ∧ stillTaken t k ∧ t.store = s.store ∧ s.sameContactors t
          ∧ (s.calm → t = { takenSlip s rest k with upd.aborts := s.upd.aborts ++ [k] })))
  ∧ (∀ (k : Nat) (places : List Nat) (bytes : List Byte) (s : State), s.canonical → s.slipsRight → s.upd.state = .checking →
    s.upd.slip = some (.check, k) → s.inFlight k →
    (s.upd.header.length + 1023) / 1024 ≤ elapsed s.now s.upd.checkAt → s.upd.aborts = [] →
    Goes (.checkEnd places bytes) s fun t =>
      t.upd.slip = none ∧ t.attn.pending .updateState = true
        ∧ (crc32On crc32Init (rereadStaging s.upd.staging places bytes) = s.upd.runCrc →
            if checkUnit s.store.work.key s.upd.header (rereadStaging s.upd.staging places bytes) = true then
              t.upd.state = .verified ∧ t.upd.outcome = s.upd.outcome ∧ t.upd.staging = s.upd.staging ∧ t.showsDone k 1 0
            else
              t.upd.state = .idle ∧ t.upd.outcome = .tagFail ∧ t.upd.outcomeState = some .checking
                ∧ t.upd.staging = [] ∧ t.showsDone k 3 28)
        ∧ (crc32On crc32Init (rereadStaging s.upd.staging places bytes) ≠ s.upd.runCrc →
            t.upd.state = .idle ∧ t.upd.outcome = .stagingFault ∧ t.upd.outcomeState = some .checking
              ∧ t.upd.staging = [] ∧ t.showsDone k 3 29)
        ∧ t.sup = { s.sup with faultedSince := t.sup.faultedSince } ∧ t.store = s.store ∧ t.plan.pages = s.plan.pages
        ∧ t.power = s.power ∧ t.conv = s.conv ∧ t.port.notes = s.port.notes)

/-- 10,000 ms of a chain pause end an update in DISTRIBUTING or SWITCHING in IDLE with outcome CHAIN_LOST; in DISTRIBUTING
every SENDING and PENDING record is FAILED with that cause, and in SWITCHING the module in turn returns to IN_SERVICE.
In a switch window a probe is asked for every 200 ms, at most 9, on a chain that is held; at the window's end without
the new version the record is ROLLBACK, a MODULE_ROLLBACK event is sent with the address, the version sent and the one last
reported, and the module is handed back with a return watch; that the hand-back carries its own instant, from which the 200
ms to the first return probe count, is the model's choice (log 85). 10,000 ms later the watch ends and the module returns to
IN_SERVICE with miss count 0. -/
def Obligations.UpdateTimers : Prop :=
  (∀ (tm : Ms) (s : State), s.awake → s.plan.burst = none → s.chain.requests = [] → s.upd.pause = some tm →
    10000 ≤ elapsed s.now tm →
    ((s.upd.state = .distributing ∨ s.upd.state = .switching) →
      Goes .chainPauseLimit s fun t =>
        t.upd.state = .idle ∧ t.upd.outcome = .chainLost ∧ t.upd.outcomeState = some s.upd.state ∧ t.upd.staging = []
          ∧ t.upd.pause = none ∧ t.attn.pending .updateState = true
          ∧ (s.upd.state = .distributing → t.upd.dist = s.upd.dist.map fun d =>
              if d.state = .sending ∨ d.state = .pending then
                { d with state := .failed, cause := some .chainLost }
              else d)
          ∧ (∀ tn d e, s.upd.state = .switching → s.upd.current = some (tn, d) → s.chain.entry d.addr = some e →
              e.state = .outOfService → (t.chain.entry d.addr).map (·.state) = some .inService)
          ∧ s.sameContactors t))
  ∧ (∀ s : State,
    (∀ w, s.calm → s.restful → s.chain.occupied → s.upd.window = some w → w.probes < 9 →
        200 * (w.probes + 1) ≤ elapsed s.now w.since → elapsed s.now w.since < 2000 →
        s.chain.requests.contains (.firmware .probe) = false →
      exec .switchProbe s = .next { s with
        upd.window := some { w with probes := w.probes + 1 }
        chain.requests := s.chain.requests ++ [.firmware .probe] })
    ∧ (∀ w tn d, s.upd.window = some w → s.upd.current = some (tn, d) → 2000 ≤ elapsed s.now w.since →
      Goes .switchWindowEnd s fun t =>
        getAt t.upd.dist tn.pos = some { d with state := .rollback }
          ∧ (∃ x ∈ t.ev.inbox, x.kind = .moduleRollback
              ∧ x.detail = .moduleRollback d.addr s.upd.header.version w.reported)
          ∧ t.chain.returning = s.chain.returning.filter (fun r => decide (r.1 ≠ d.addr)) ++ [(d.addr, s.now)]
          ∧ t.upd.watches = s.upd.watches.filter (fun r => decide (r.1 ≠ d.addr)) ++ [(d.addr, s.now)]
          ∧ s.sameAround t ∧ s.sameContactors t)
    ∧ (∀ addr tm, s.canonical → s.shaped → s.calm → s.restful →
        s.upd.watches.find? (fun w => decide (w.1 = addr)) = some (addr, tm) → 10000 ≤ elapsed s.now tm →
      Goes (.returnLimit addr) s fun t =>
        t = { s with
          upd.watches := s.upd.watches.filter fun w => decide (w.1 ≠ addr)
          chain.returning := s.chain.returning.filter fun r => decide (r.1 ≠ addr)
          chain.map := modifyAddr s.chain.map addr fun e =>
            if e.state = .outOfService then { e with state := .inService, miss := 0, cause := none } else e
          mem := t.mem }
        ∧ s.sameBut t [mapRec]))
end

