-- ==== Sys2Proof/Laws/Memory.lean ====
section
/-! SUPPORT. The laws of the exchange memory: a store keeps the canonical form, a read of a stored byte gives it, and every
other byte reads as before. -/

namespace Sys2Proof.Machine

/-! ### The canonical form -/

theorem wfFrom_mono {lo lo' : Nat} {m : Memory} (h : lo' ≤ lo) (w : Memory.wfFrom lo m = true) :
    Memory.wfFrom lo' m = true := by
  cases m with
  | nil => rfl
  | cons c m =>
    obtain ⟨a, v⟩ := c
    simp only [Memory.wfFrom, Bool.and_eq_true, decide_eq_true_eq] at w ⊢
    exact ⟨⟨⟨by omega, w.1.1.2⟩, w.1.2⟩, w.2⟩

theorem wfFrom_append {xs ys : Memory} {lo mid : Nat} (hx : Memory.wfFrom lo xs = true)
    (hk : ∀ c ∈ xs, c.1 < mid) (hy : Memory.wfFrom mid ys = true) (hm : lo ≤ mid) :
    Memory.wfFrom lo (xs ++ ys) = true := by
  induction xs generalizing lo with
  | nil => exact wfFrom_mono hm hy
  | cons c xs ih =>
    obtain ⟨a, v⟩ := c
    simp only [Memory.wfFrom, Bool.and_eq_true, decide_eq_true_eq, List.cons_append] at hx ⊢
    have h1 := hk (a, v) (by simp)
    exact ⟨hx.1, ih hx.2 (fun c hc => hk c (by simp [hc])) h1⟩

theorem below_lt {a : Nat} {m : Memory} : ∀ c ∈ Memory.below a m, c.1 < a := by
  induction m with
  | nil => simp [Memory.below]
  | cons c m ih => intro d hd; simp only [Memory.below] at hd; split at hd <;> simp_all <;> aesop

theorem below_wf {a lo : Nat} {m : Memory} (w : Memory.wfFrom lo m = true) :
    Memory.wfFrom lo (Memory.below a m) = true := by
  induction m generalizing lo with
  | nil => rfl
  | cons c m ih =>
    obtain ⟨b, v⟩ := c
    simp only [Memory.wfFrom, Bool.and_eq_true, decide_eq_true_eq] at w
    simp only [Memory.below]
    split
    · simp only [Memory.wfFrom, Bool.and_eq_true, decide_eq_true_eq]
      exact ⟨w.1, ih w.2⟩
    · exact wfFrom_mono (by omega) (ih w.2)

theorem from_wf {a lo : Nat} {m : Memory} (w : Memory.wfFrom lo m = true) :
    Memory.wfFrom a (Memory.from a m) = true := by
  induction m generalizing lo with
  | nil => rfl
  | cons c m ih =>
    obtain ⟨b, v⟩ := c
    simp only [Memory.wfFrom, Bool.and_eq_true, decide_eq_true_eq] at w
    simp only [Memory.from]
    split
    · exact ih w.2
    · rename_i hb
      simp only [Memory.wfFrom, Bool.and_eq_true, decide_eq_true_eq]
      refine ⟨⟨⟨by simpa using hb, w.1.1.2⟩, w.1.2⟩, ?_⟩
      have : Memory.from a m = m := by
        clear ih
        have hab : a ≤ b + 1 := by simp at hb; omega
        have h := wfFrom_mono hab w.2
        clear w hb hab
        induction m with
        | nil => rfl
        | cons d m ih2 =>
          obtain ⟨e, u⟩ := d
          simp only [Memory.wfFrom, Bool.and_eq_true, decide_eq_true_eq] at h
          simp only [Memory.from]
          rw [if_neg (by omega), ih2 (wfFrom_mono (by omega) h.2)]
      rw [this]; exact w.2

theorem cells_lt {base : Nat} {bs : List Byte} : ∀ c ∈ Memory.cells base bs, c.1 < base + bs.length := by
  induction bs generalizing base with
  | nil => simp [Memory.cells]
  | cons v vs ih =>
    intro c hc
    simp only [Memory.cells] at hc
    split at hc
    · have := ih c hc; simp; omega
    · rcases List.mem_cons.1 hc with rfl | hc
      · simp
      · have := ih c hc; simp; omega

theorem cells_wf {base : Nat} {bs : List Byte} : Memory.wfFrom base (Memory.cells base bs) = true := by
  induction bs generalizing base with
  | nil => rfl
  | cons v vs ih =>
    simp only [Memory.cells]
    split
    · exact wfFrom_mono (by omega) ih
    · rename_i h
      simp only [Memory.wfFrom, Bool.and_eq_true, decide_eq_true_eq]
      exact ⟨⟨⟨by omega, by omega⟩, by tauto⟩, ih⟩

/-- A store keeps the canonical form. -/
theorem store_wf {m : Memory} {base : Nat} {bs : List Byte} (w : m.wf = true) : (m.store base bs).wf = true := by
  unfold Memory.wf Memory.store at *
  refine wfFrom_append (mid := base) (below_wf w) below_lt ?_ (Nat.zero_le _)
  exact wfFrom_append (mid := base + bs.length) cells_wf cells_lt (from_wf w) (by omega)

/-! ### Reads -/

theorem read_of_lt {lo a : Nat} {m : Memory} (w : Memory.wfFrom lo m = true) (h : a < lo) : Memory.read m a = 0 := by
  induction m generalizing lo with
  | nil => rfl
  | cons c m ih =>
    obtain ⟨b, v⟩ := c
    simp only [Memory.wfFrom, Bool.and_eq_true, decide_eq_true_eq] at w
    simp only [Memory.read]
    rw [if_neg (by omega)]
    exact ih w.2 (by omega)

/-- Beyond the memory every byte of a canonical memory reads 0. -/
theorem read_beyond {m : Memory} (w : m.wf = true) {a : Nat} (h : memSize ≤ a) : Memory.read m a = 0 := by
  unfold Memory.wf at w
  generalize 0 = lo at w
  induction m generalizing lo with
  | nil => rfl
  | cons c m ih =>
    obtain ⟨b, v⟩ := c
    simp only [Memory.wfFrom, Bool.and_eq_true, decide_eq_true_eq] at w
    simp only [Memory.read]
    rw [if_neg (by omega)]
    exact ih _ w.2

theorem read_below {a b : Nat} {m : Memory} :
    Memory.read (Memory.below b m) a = if a < b then Memory.read m a else 0 := by
  induction m with
  | nil => simp [Memory.below, Memory.read]
  | cons c m ih =>
    obtain ⟨d, v⟩ := c
    simp only [Memory.below]
    split
    · simp only [Memory.read, ih]
      split
      · subst_vars; simp_all
      · rfl
    · simp only [Memory.read, ih]
      split
      · rw [if_neg (by omega)]
      · rfl

theorem read_from {a b : Nat} {m : Memory} :
    Memory.read (Memory.from b m) a = if a < b then 0 else Memory.read m a := by
  induction m with
  | nil => simp [Memory.from, Memory.read]
  | cons c m ih =>
    obtain ⟨d, v⟩ := c
    simp only [Memory.from]
    split
    · simp only [ih, Memory.read]
      split
      · rfl
      · rw [if_neg (by omega)]
    · simp only [Memory.read, ih]
      split
      · rw [if_neg (by omega)]
      · rfl

theorem read_cells {base a : Nat} {bs : List Byte} :
    Memory.read (Memory.cells base bs) a
      = if base ≤ a ∧ a < memSize then (bs[a - base]?).getD 0 else 0 := by
  induction bs generalizing base with
  | nil => simp [Memory.cells, Memory.read]
  | cons v vs ih =>
    by_cases hb : base = a
    · subst hb
      simp only [Memory.cells]
      split
      · rename_i h
        rw [ih, if_neg (by omega)]
        split
        · rcases h with rfl | h
          · simp
          · omega
        · rfl
      · rename_i h; simp [Memory.read]; omega
    · have hs : Memory.read (Memory.cells (base + 1) vs) a
          = if base ≤ a ∧ a < memSize then (((v :: vs)[a - base]?).getD 0) else 0 := by
        rw [ih]
        by_cases h1 : base + 1 ≤ a ∧ a < memSize
        · rw [if_pos h1, if_pos (by omega)]
          have : a - base = (a - (base + 1)) + 1 := by omega
          rw [this, List.getElem?_cons_succ]
        · rw [if_neg h1, if_neg (by omega)]
      simp only [Memory.cells]
      split
      · exact hs
      · simp only [Memory.read]; rw [if_neg hb]; exact hs

theorem read_append {xs ys : Memory} {lo a : Nat} (w : Memory.wfFrom lo xs = true) :
    Memory.read (xs ++ ys) a = if Memory.read xs a = 0 then Memory.read ys a else Memory.read xs a := by
  induction xs generalizing lo with
  | nil => simp [Memory.read]
  | cons c xs ih =>
    obtain ⟨b, v⟩ := c
    simp only [Memory.wfFrom, Bool.and_eq_true, decide_eq_true_eq] at w
    simp only [List.cons_append, Memory.read]
    split
    · rw [if_neg w.1.2]
    · exact ih w.2

/-- What every byte reads after a store: a stored byte inside the memory reads as stored, every other as before. -/
theorem read_store {m : Memory} {base a : Nat} {bs : List Byte} (w : m.wf = true) :
    Memory.read (m.store base bs) a
      = if base ≤ a ∧ a < base + bs.length ∧ a < memSize then (bs[a - base]?).getD 0
        else if base ≤ a ∧ a < base + bs.length then 0 else Memory.read m a := by
  have w0 : Memory.wfFrom 0 m = true := w
  unfold Memory.store
  rw [read_append (below_wf (a := base) w0), read_append (cells_wf), read_below, read_cells, read_from]
  by_cases h1 : a < base
  · simp only [h1, if_true]
    have hn : ¬ base ≤ a := by omega
    have hl : a < base + bs.length := by omega
    simp [hn, hl]
    intro h; exact h.symm
  · by_cases h2 : a < base + bs.length
    · by_cases h3 : a < memSize
      · simp [h1, h2, h3, Nat.not_lt.1 h1]
        exact fun h => h.symm
      · simp [h1, h2, h3]
    · have : bs[a - base]? = none := by simp; omega
      simp [h1, h2, this]

/-- A byte outside the stored run reads as before. -/
theorem read_store_of_out {m : Memory} {base a : Nat} {bs : List Byte} (w : m.wf = true)
    (h : a < base ∨ base + bs.length ≤ a) : Memory.read (m.store base bs) a = Memory.read m a := by
  rw [read_store w, if_neg (by omega), if_neg (by omega)]

/-- A stored byte inside the memory reads as stored. -/
theorem read_store_of_in {m : Memory} {base : Nat} {bs : List Byte} (w : m.wf = true) {k : Nat} (h : k < bs.length)
    (hm : base + k < memSize) : Memory.read (m.store base bs) (base + k) = bs[k] := by
  rw [read_store w, if_pos (by omega)]
  simp [h]

/-- Two canonical memories that read alike are equal: the form is canonical. -/
theorem eq_of_read {m n : Memory} {lo : Nat} (hm : Memory.wfFrom lo m = true) (hn : Memory.wfFrom lo n = true)
    (h : ∀ a, Memory.read m a = Memory.read n a) : m = n := by
  induction m generalizing n lo with
  | nil =>
    cases n with
    | nil => rfl
    | cons c n =>
      obtain ⟨b, v⟩ := c
      simp only [Memory.wfFrom, Bool.and_eq_true, decide_eq_true_eq] at hn
      exact absurd (by simpa [Memory.read] using (h b).symm) hn.1.2
  | cons c m ih =>
    obtain ⟨b, v⟩ := c
    simp only [Memory.wfFrom, Bool.and_eq_true, decide_eq_true_eq] at hm
    cases n with
    | nil => exact absurd (by simpa [Memory.read] using h b) hm.1.2
    | cons d n =>
      obtain ⟨e, u⟩ := d
      simp only [Memory.wfFrom, Bool.and_eq_true, decide_eq_true_eq] at hn
      have hbe : b = e := by
        rcases Nat.lt_trichotomy b e with hlt | heq | hlt
        · have h1 := h b
          simp only [Memory.read, if_true] at h1
          rw [if_neg (by omega), read_of_lt hn.2 (by omega)] at h1
          exact absurd h1 hm.1.2
        · exact heq
        · have h1 := h e
          simp only [Memory.read, if_true] at h1
          rw [if_neg (by omega), read_of_lt hm.2 (by omega)] at h1
          exact absurd h1.symm hn.1.2
      subst hbe
      have hv : v = u := by have h1 := h b; simpa [Memory.read] using h1
      subst hv
      congr 1
      refine ih hm.2 hn.2 fun a => ?_
      by_cases hab : b = a
      · subst hab; rw [read_of_lt hm.2 (by omega), read_of_lt hn.2 (by omega)]
      · have h1 := h a
        simpa [Memory.read, hab] using h1

/-! ### Runs of bytes -/

/-- Memories that read alike over a run have the same bytes there. -/
theorem readBytes_congr {m n : Memory} {base k : Nat} (h : ∀ a, base ≤ a → a < base + k → Memory.read m a = Memory.read n a) : Memory.readBytes m base k = Memory.readBytes n base k := by
  induction k generalizing base with
  | zero => rfl
  | succ k ih => simp only [Memory.readBytes]; rw [h base (by omega) (by omega), ih (fun a h1 h2 => h a (by omega) (by omega))]

/-- A number spelt in `n` bytes reads back modulo 256 ^ n. -/
theorem ofLe_le (n v : Nat) : ofLe (le n v) = v % 256 ^ n := by
  induction n generalizing v with
  | zero => simp [le, ofLe, Nat.mod_one]
  | succ n ih =>
    simp only [le, ofLe, ih]
    rw [BitVec.toNat_ofNat, show (2 : Nat) ^ 8 = 256 from rfl, pow_succ, Nat.mul_comm (256 ^ n) 256, Nat.mod_mul]

/-- A stored run reads back whole. -/
theorem readBytes_store {m : Memory} {base : Nat} {bs : List Byte} (w : m.wf = true) (hm : base + bs.length ≤ memSize) :
    Memory.readBytes (m.store base bs) base bs.length = bs := by
  have key : ∀ k j, j + k = bs.length → Memory.readBytes (m.store base bs) (base + j) k = bs.drop j := by
    intro k
    induction k with
    | zero => intro j hj; simp [Memory.readBytes]; omega
    | succ k ih =>
      intro j hj
      simp only [Memory.readBytes]
      rw [read_store_of_in w (by omega) (by omega), show base + j + 1 = base + (j+1) by omega, ih (j+1) (by omega)]
      rw [← List.drop_eq_getElem_cons]
  simpa using key bs.length 0 (by simp)

end Sys2Proof.Machine
end

