-- ==== Sys2Proof/Laws/EffectsBase.lean ====
section
/-! SUPPORT. What the shared operations on the attention unit, the formats, the slips and the event records leave alone, one lemma for each; each keeps the canonical form of the memory. -/

set_option linter.all false

namespace Sys2Proof.Machine

/-! ### The recorder's records -/

@[simp] theorem Recorder.change_frame (v : Recorder) (k : Nat) (f : EventRec → EventRec) :
    (v.change k f).age = v.age ∧ (v.change k f).next = v.next ∧ (v.change k f).filling = v.filling ∧
    (v.change k f).inbox = v.inbox := by simp [Recorder.change]

@[simp] theorem Recorder.empty_frame (v : Recorder) (k : Nat) :
    (v.empty k).next = v.next ∧ (v.empty k).inbox = v.inbox := by simp [Recorder.empty]

@[simp] theorem Recorder.changes_frame (v : Recorder) (l : List Nat) (f : EventRec → EventRec) :
    (l.foldl (fun v k => v.change k f) v).age = v.age ∧ (l.foldl (fun v k => v.change k f) v).next = v.next ∧
    (l.foldl (fun v k => v.change k f) v).filling = v.filling ∧
    (l.foldl (fun v k => v.change k f) v).inbox = v.inbox := by
  induction l generalizing v with
  | nil => simp
  | cons x l ih => simp [ih]

/-! ### The records that show the state -/

@[simp] theorem mirrorBlock_wf {base : Nat} {old new : List Byte} {m : Memory} (hw : m.wf = true) :
    (mirrorBlock base old new m).wf = true := by
  unfold mirrorBlock; split
  · exact hw
  · exact store_wf hw

@[simp] theorem mirrorWords_wf {base : Nat} {old new : List Byte} {m : Memory} (hw : m.wf = true) :
    (mirrorWords base old new m).wf = true := by
  induction base, old, new, m using mirrorWords.induct with
  | case1 base a b c d old a' b' c' d' new m ih =>
    unfold mirrorWords
    apply ih
    split
    · exact hw
    · exact store_wf hw
  | case2 base old new m h => rw [mirrorWords]; exacts [hw, h]

@[simp] theorem mirrorModules_wf {i : Nat} {old new : List ModuleEntry} {m : Memory} (hw : m.wf = true) :
    (mirrorModules i old new m).wf = true := by
  induction old generalizing i new m with
  | nil => unfold mirrorModules; exact hw
  | cons o old ih =>
    cases new with
    | nil => unfold mirrorModules; exact hw
    | cons n new =>
      unfold mirrorModules; apply ih
      split
      · exact hw
      · exact store_wf hw

@[simp] theorem storeTouched_wf {touched : Nat → Bool} {base : Nat} {l : List Byte} {m : Memory} (hw : m.wf = true) :
    (storeTouched touched base l m).wf = true := by
  induction base, l, m using storeTouched.induct (touched := touched) with
  | case1 base m a b c d l ih =>
    unfold storeTouched
    apply ih
    split
    · exact store_wf hw
    · exact hw
  | case2 base l m h => rw [storeTouched]; exacts [hw, h]

@[simp] theorem mirrorRecord_wf {base : Nat} {o n : EventRec} {m : Memory} (hw : m.wf = true) :
    (mirrorRecord base o n m).wf = true := by simp [mirrorRecord, hw]

@[simp] theorem mirrorPower_wf {o n : Power} {m : Memory} (hw : m.wf = true) : (mirrorPower o n m).wf = true := by
  unfold mirrorPower; split <;> simp [hw, store_wf]

@[simp] theorem mirrorSlot_wf {whole : Bool} {slot : Nat} {old new : Option EventRec} {m : Memory} (hw : m.wf = true) :
    (mirrorSlot whole slot old new m).wf = true := by
  unfold mirrorSlot; (repeat' split) <;> simp (maxDischargeDepth := 20) [hw, store_wf]

@[simp] theorem mirrorEvents_wf {taken : Option Nat} {i : Nat} {old new : List (Option EventRec)} {m : Memory} (hw : m.wf = true) :
    (mirrorEvents taken i old new m).wf = true := by
  induction old generalizing i new m with
  | nil => unfold mirrorEvents; exact hw
  | cons o old ih =>
    cases new with
    | nil => unfold mirrorEvents; exact hw
    | cons n new =>
      unfold mirrorEvents; apply ih
      split
      · exact hw
      · exact mirrorSlot_wf hw

@[simp] theorem mirrorContactor_wf {o n : Sup} {m : Memory} (hw : m.wf = true) : (mirrorContactor o n m).wf = true := by
  unfold mirrorContactor; split <;> simp [hw, store_wf]

@[simp] theorem mirrorUpdate_wf {o n : Update} {m : Memory} (hw : m.wf = true) : (mirrorUpdate o n m).wf = true := by
  unfold mirrorUpdate; split <;> simp [hw, store_wf]

@[simp] theorem mirrorDirectory_wf {o n : State} {m : Memory} (hw : m.wf = true) :
    (mirrorDirectory o n m).wf = true := by
  unfold mirrorDirectory
  (repeat' split) <;> simp (maxDischargeDepth := 20) [hw]

theorem mirror_wf0 {o n : State} (hw : n.mem.wf = true) : (mirror o n).mem.wf = true := by
  unfold mirror
  simp only []
  repeat' split
  all_goals simp (maxDischargeDepth := 20) [hw]

/-! ### Completions -/

@[simp] theorem completionWrites_wf {slot : Nat} {c : SlipCopy} {r : Result} {m : Memory} (hw : m.wf = true) :
    (completionWrites slot c r m).wf = true := by
  unfold completionWrites
  split <;> exact store_wf (store_wf (store_wf (store_wf (by first | exact hw | exact store_wf hw))))

/-- What `atUs` leaves alone. -/
@[simp] theorem atUs_frame (s : State) (us : Us) :
    (s.atUs us).mem = s.mem ∧ (s.atUs us).pins = s.pins ∧ (s.atUs us).port = s.port ∧ (s.atUs us).attn = s.attn ∧
    (s.atUs us).chain = s.chain ∧ (s.atUs us).conv.scanning = s.conv.scanning ∧ (s.atUs us).conv.part = s.conv.part ∧
    (s.atUs us).conv.lastLatch = s.conv.lastLatch ∧ (s.atUs us).conv.latched = s.conv.latched ∧
    (s.atUs us).conv.history = s.conv.history ∧ (s.atUs us).conv.charge = s.conv.charge ∧
    (s.atUs us).conv.chargeSat = s.conv.chargeSat ∧ (s.atUs us).conv.restored = s.conv.restored ∧
    (s.atUs us).conv.unsampled = s.conv.unsampled ∧ (s.atUs us).conv.estimate = s.conv.estimate ∧
    (s.atUs us).conv.snapTimer = s.conv.snapTimer ∧ (s.atUs us).conv.recNumber = s.conv.recNumber ∧
    (s.atUs us).plan = s.plan ∧ (s.atUs us).sup = s.sup ∧ (s.atUs us).ev = s.ev ∧ (s.atUs us).power = s.power ∧
    (s.atUs us).store = s.store ∧ (s.atUs us).upd = s.upd ∧ (s.atUs us).free = s.free ∧
    (s.atUs us).pending = s.pending := by
  simp only [State.atUs]; (repeat' split) <;> (first | rfl | simp)

/-- What `drawn` leaves alone. -/
@[simp] theorem drawn_frame (s : State) :
    (s.drawn).mem = s.mem ∧ (s.drawn).pins = s.pins ∧ (s.drawn).port = s.port ∧ (s.drawn).attn = s.attn ∧
    (s.drawn).chain = s.chain ∧ (s.drawn).conv = s.conv ∧ (s.drawn).plan = s.plan ∧ (s.drawn).sup = s.sup ∧
    (s.drawn).ev = s.ev ∧ (s.drawn).power = s.power ∧ (s.drawn).store = s.store ∧ (s.drawn).upd = s.upd ∧
    (s.drawn).pending = s.pending := by
  simp only [State.drawn]; (repeat' split) <;> (first | rfl | simp)

/-- What `put` leaves alone. -/
@[simp] theorem put_frame (s : State) (base : Nat) (bs : List Byte) :
    (s.put base bs).pins = s.pins ∧ (s.put base bs).port = s.port ∧ (s.put base bs).attn = s.attn ∧
    (s.put base bs).chain = s.chain ∧ (s.put base bs).conv = s.conv ∧ (s.put base bs).plan = s.plan ∧
    (s.put base bs).sup = s.sup ∧ (s.put base bs).ev = s.ev ∧ (s.put base bs).power = s.power ∧
    (s.put base bs).store = s.store ∧ (s.put base bs).upd = s.upd ∧ (s.put base bs).free = s.free ∧
    (s.put base bs).pending = s.pending := by
  simp only [State.put]; (repeat' split) <;> (first | rfl | simp)

/-- `put` keeps the canonical form of the memory. -/
@[simp] theorem put_wf (s : State) (base : Nat) (bs : List Byte) (hw : s.mem.wf = true) :
    (s.put base bs).mem.wf = true := by
  simp only [State.put]; (repeat' split) <;> first | exact hw | simp (maxDischargeDepth := 20) [hw, store_wf]

/-- What `judgeAttn` leaves alone. -/
@[simp] theorem judgeAttn_frame (s : State) :
    (s.judgeAttn).mem = s.mem ∧ (s.judgeAttn).pins = s.pins ∧ (s.judgeAttn).port = s.port ∧
    (s.judgeAttn).attn.factors = s.attn.factors ∧ (s.judgeAttn).attn.enables = s.attn.enables ∧
    (s.judgeAttn).attn.levels = s.attn.levels ∧ (s.judgeAttn).attn.mask = s.attn.mask ∧
    (s.judgeAttn).chain = s.chain ∧ (s.judgeAttn).conv = s.conv ∧ (s.judgeAttn).plan = s.plan ∧
    (s.judgeAttn).sup = s.sup ∧ (s.judgeAttn).ev = s.ev ∧ (s.judgeAttn).power = s.power ∧
    (s.judgeAttn).store = s.store ∧ (s.judgeAttn).upd = s.upd ∧ (s.judgeAttn).free = s.free ∧
    (s.judgeAttn).pending = s.pending := by
  simp only [State.judgeAttn]; (repeat' split) <;> (first | rfl | simp)

/-- What `setFactors` leaves alone. -/
@[simp] theorem setFactors_frame (s : State) (w : BitVec 20) :
    (s.setFactors w).pins = s.pins ∧ (s.setFactors w).port = s.port ∧
    (s.setFactors w).attn.enables = s.attn.enables ∧ (s.setFactors w).attn.levels = s.attn.levels ∧
    (s.setFactors w).attn.mask = s.attn.mask ∧ (s.setFactors w).chain = s.chain ∧ (s.setFactors w).conv = s.conv ∧
    (s.setFactors w).plan = s.plan ∧ (s.setFactors w).sup = s.sup ∧ (s.setFactors w).ev = s.ev ∧
    (s.setFactors w).power = s.power ∧ (s.setFactors w).store = s.store ∧ (s.setFactors w).upd = s.upd ∧
    (s.setFactors w).free = s.free ∧ (s.setFactors w).pending = s.pending := by
  simp only [State.setFactors]; (repeat' split) <;> (first | rfl | simp)

/-- `setFactors` keeps the canonical form of the memory. -/
@[simp] theorem setFactors_wf (s : State) (w : BitVec 20) (hw : s.mem.wf = true) :
    (s.setFactors w).mem.wf = true := by
  simp only [State.setFactors]; (repeat' split) <;> first | exact hw | simp (maxDischargeDepth := 20) [hw, store_wf]

/-- What `raise` leaves alone. -/
@[simp] theorem raise_frame (s : State) (f : Factor) :
    (s.raise f).pins = s.pins ∧ (s.raise f).port = s.port ∧ (s.raise f).attn.enables = s.attn.enables ∧
    (s.raise f).attn.levels = s.attn.levels ∧ (s.raise f).attn.mask = s.attn.mask ∧ (s.raise f).chain = s.chain ∧
    (s.raise f).conv = s.conv ∧ (s.raise f).plan = s.plan ∧ (s.raise f).sup = s.sup ∧ (s.raise f).ev = s.ev ∧
    (s.raise f).power = s.power ∧ (s.raise f).store = s.store ∧ (s.raise f).upd = s.upd ∧ (s.raise f).free = s.free ∧
    (s.raise f).pending = s.pending := by
  simp only [State.raise]; (repeat' split) <;> (first | rfl | simp)

/-- `raise` keeps the canonical form of the memory. -/
@[simp] theorem raise_wf (s : State) (f : Factor) (hw : s.mem.wf = true) :
    (s.raise f).mem.wf = true := by
  simp only [State.raise]; (repeat' split) <;> first | exact hw | simp (maxDischargeDepth := 20) [hw, store_wf]

/-- What `clearFactors` leaves alone. -/
@[simp] theorem clearFactors_frame (s : State) (m : BitVec 20) :
    (s.clearFactors m).pins = s.pins ∧ (s.clearFactors m).port = s.port ∧
    (s.clearFactors m).attn.enables = s.attn.enables ∧ (s.clearFactors m).attn.levels = s.attn.levels ∧
    (s.clearFactors m).attn.mask = s.attn.mask ∧ (s.clearFactors m).chain.state = s.chain.state ∧
    (s.clearFactors m).chain.origin = s.chain.origin ∧ (s.clearFactors m).chain.downSince = s.chain.downSince ∧
    (s.clearFactors m).chain.errs = s.chain.errs ∧ (s.clearFactors m).chain.suspectSince = s.chain.suspectSince ∧
    (s.clearFactors m).chain.periodStart = s.chain.periodStart ∧
    (s.clearFactors m).chain.periodErrs = s.chain.periodErrs ∧ (s.clearFactors m).chain.capTag = s.chain.capTag ∧
    (s.clearFactors m).chain.exTag = s.chain.exTag ∧ (s.clearFactors m).chain.survey = s.chain.survey ∧
    (s.clearFactors m).chain.present = s.chain.present ∧ (s.clearFactors m).chain.configured = s.chain.configured ∧
    (s.clearFactors m).chain.breakLoc = s.chain.breakLoc ∧ (s.clearFactors m).chain.map = s.chain.map ∧
    (s.clearFactors m).chain.hold = s.chain.hold ∧ (s.clearFactors m).chain.line = s.chain.line ∧
    (s.clearFactors m).chain.lastSent = s.chain.lastSent ∧ (s.clearFactors m).chain.requests = s.chain.requests ∧
    (s.clearFactors m).chain.sleepCmd = s.chain.sleepCmd ∧
    (s.clearFactors m).chain.wakeAfterSleep = s.chain.wakeAfterSleep ∧ (s.clearFactors m).chain.wake = s.chain.wake ∧
    (s.clearFactors m).chain.resetTone = s.chain.resetTone ∧
    (s.clearFactors m).chain.surveyTimer = s.chain.surveyTimer ∧ (s.clearFactors m).chain.firstUp = s.chain.firstUp ∧
    (s.clearFactors m).chain.surveySlip = s.chain.surveySlip ∧ (s.clearFactors m).chain.balance = s.chain.balance ∧
    (s.clearFactors m).chain.returning = s.chain.returning ∧ (s.clearFactors m).conv = s.conv ∧
    (s.clearFactors m).plan = s.plan ∧ (s.clearFactors m).sup = s.sup ∧ (s.clearFactors m).ev = s.ev ∧
    (s.clearFactors m).power = s.power ∧ (s.clearFactors m).store = s.store ∧ (s.clearFactors m).upd = s.upd ∧
    (s.clearFactors m).free = s.free ∧ (s.clearFactors m).pending = s.pending := by
  simp only [State.clearFactors]; (repeat' split) <;> (first | rfl | simp)

/-- `clearFactors` keeps the canonical form of the memory. -/
@[simp] theorem clearFactors_wf (s : State) (m : BitVec 20) (hw : s.mem.wf = true) :
    (s.clearFactors m).mem.wf = true := by
  simp only [State.clearFactors]; (repeat' split) <;> first | exact hw | simp (maxDischargeDepth := 20) [hw, store_wf]

/-- What `readLevels` leaves alone. -/
@[simp] theorem readLevels_frame (s : State) :
    (s.readLevels).mem = s.mem ∧ (s.readLevels).pins = s.pins ∧ (s.readLevels).port = s.port ∧
    (s.readLevels).attn.factors = s.attn.factors ∧ (s.readLevels).attn.mask = s.attn.mask ∧
    (s.readLevels).chain = s.chain ∧ (s.readLevels).conv = s.conv ∧ (s.readLevels).plan = s.plan ∧
    (s.readLevels).sup = s.sup ∧ (s.readLevels).ev = s.ev ∧ (s.readLevels).power = s.power ∧
    (s.readLevels).store = s.store ∧ (s.readLevels).upd = s.upd ∧ (s.readLevels).free = s.free ∧
    (s.readLevels).pending = s.pending := by
  simp only [State.readLevels]; (repeat' split) <;> (first | rfl | simp)

/-- What `setMaskLevel` leaves alone. -/
@[simp] theorem setMaskLevel_frame (s : State) (l : Nat) :
    (s.setMaskLevel l).mem = s.mem ∧ (s.setMaskLevel l).pins = s.pins ∧ (s.setMaskLevel l).port = s.port ∧
    (s.setMaskLevel l).attn.factors = s.attn.factors ∧ (s.setMaskLevel l).attn.enables = s.attn.enables ∧
    (s.setMaskLevel l).attn.levels = s.attn.levels ∧ (s.setMaskLevel l).chain = s.chain ∧
    (s.setMaskLevel l).conv = s.conv ∧ (s.setMaskLevel l).plan = s.plan ∧ (s.setMaskLevel l).sup = s.sup ∧
    (s.setMaskLevel l).ev = s.ev ∧ (s.setMaskLevel l).power = s.power ∧ (s.setMaskLevel l).store = s.store ∧
    (s.setMaskLevel l).upd = s.upd ∧ (s.setMaskLevel l).free = s.free ∧ (s.setMaskLevel l).pending = s.pending := by
  simp only [State.setMaskLevel]; (repeat' split) <;> (first | rfl | simp)

/-- What `mirror` leaves alone. -/
@[simp] theorem mirror_frame (o n : State) :
    (mirror o n).pins = n.pins ∧ (mirror o n).port = n.port ∧ (mirror o n).attn = n.attn ∧
    (mirror o n).chain = n.chain ∧ (mirror o n).conv = n.conv ∧ (mirror o n).plan = n.plan ∧
    (mirror o n).sup = n.sup ∧ (mirror o n).ev = n.ev ∧ (mirror o n).power = n.power ∧ (mirror o n).store = n.store ∧
    (mirror o n).upd = n.upd ∧ (mirror o n).free = n.free ∧ (mirror o n).pending = n.pending := by
  simp [mirror]

/-- `mirror` keeps the canonical form of the memory. -/
@[simp] theorem mirror_wf (o n : State) (hw : n.mem.wf = true) :
    (mirror o n).mem.wf = true := by
  exact mirror_wf0 hw

/-- What `showSilence` leaves alone. -/
@[simp] theorem showSilence_frame (s : State) :
    (s.showSilence).pins = s.pins ∧ (s.showSilence).port = s.port ∧ (s.showSilence).attn = s.attn ∧
    (s.showSilence).chain = s.chain ∧ (s.showSilence).conv = s.conv ∧ (s.showSilence).plan = s.plan ∧
    (s.showSilence).sup = s.sup ∧ (s.showSilence).ev = s.ev ∧ (s.showSilence).power = s.power ∧
    (s.showSilence).store = s.store ∧ (s.showSilence).upd = s.upd ∧ (s.showSilence).free = s.free ∧
    (s.showSilence).pending = s.pending := by
  simp only [State.showSilence]; (repeat' split) <;> (first | rfl | simp)

/-- `showSilence` keeps the canonical form of the memory. -/
@[simp] theorem showSilence_wf (s : State) (hw : s.mem.wf = true) :
    (s.showSilence).mem.wf = true := by
  simp only [State.showSilence]; (repeat' split) <;> first | exact hw | simp (maxDischargeDepth := 20) [hw, store_wf]

/-- What `showConverter` leaves alone. -/
@[simp] theorem showConverter_frame (s : State) :
    (s.showConverter).pins = s.pins ∧ (s.showConverter).port = s.port ∧ (s.showConverter).attn = s.attn ∧
    (s.showConverter).chain = s.chain ∧ (s.showConverter).conv.scanning = s.conv.scanning ∧
    (s.showConverter).conv.us = s.conv.us ∧ (s.showConverter).conv.part = s.conv.part ∧
    (s.showConverter).conv.lastLatch = s.conv.lastLatch ∧ (s.showConverter).conv.latched = s.conv.latched ∧
    (s.showConverter).conv.history = s.conv.history ∧ (s.showConverter).conv.charge = s.conv.charge ∧
    (s.showConverter).conv.chargeSat = s.conv.chargeSat ∧ (s.showConverter).conv.restored = s.conv.restored ∧
    (s.showConverter).conv.unsampled = s.conv.unsampled ∧ (s.showConverter).conv.estimate = s.conv.estimate ∧
    (s.showConverter).conv.snapTimer = s.conv.snapTimer ∧ (s.showConverter).plan = s.plan ∧
    (s.showConverter).sup = s.sup ∧ (s.showConverter).ev = s.ev ∧ (s.showConverter).power = s.power ∧
    (s.showConverter).store = s.store ∧ (s.showConverter).upd = s.upd ∧ (s.showConverter).free = s.free ∧
    (s.showConverter).pending = s.pending := by
  simp only [State.showConverter]; (repeat' split) <;> (first | rfl | simp)

/-- `showConverter` keeps the canonical form of the memory. -/
@[simp] theorem showConverter_wf (s : State) (hw : s.mem.wf = true) :
    (s.showConverter).mem.wf = true := by
  simp only [State.showConverter]; (repeat' split) <;> first | exact hw | simp (maxDischargeDepth := 20) [hw, store_wf]

/-- What `noteFault` leaves alone. -/
@[simp] theorem noteFault_frame (s : State) (w : Word) (cause : NoteCause) :
    (s.noteFault w cause).pins = s.pins ∧ (s.noteFault w cause).port.notes = s.port.notes ∧
    (s.noteFault w cause).port.slots = s.port.slots ∧ (s.noteFault w cause).port.tables = s.port.tables ∧
    (s.noteFault w cause).port.lastTable = s.port.lastTable ∧ (s.noteFault w cause).attn.enables = s.attn.enables ∧
    (s.noteFault w cause).attn.levels = s.attn.levels ∧ (s.noteFault w cause).attn.mask = s.attn.mask ∧
    (s.noteFault w cause).chain = s.chain ∧ (s.noteFault w cause).conv = s.conv ∧
    (s.noteFault w cause).plan = s.plan ∧ (s.noteFault w cause).sup = s.sup ∧ (s.noteFault w cause).ev = s.ev ∧
    (s.noteFault w cause).power = s.power ∧ (s.noteFault w cause).store = s.store ∧
    (s.noteFault w cause).upd = s.upd ∧ (s.noteFault w cause).free = s.free ∧
    (s.noteFault w cause).pending = s.pending := by
  simp only [State.noteFault]; (repeat' split) <;> (first | rfl | simp)

/-- `noteFault` keeps the canonical form of the memory. -/
@[simp] theorem noteFault_wf (s : State) (w : Word) (cause : NoteCause) (hw : s.mem.wf = true) :
    (s.noteFault w cause).mem.wf = true := by
  simp only [State.noteFault]; (repeat' split) <;> first | exact hw | simp (maxDischargeDepth := 20) [hw, store_wf]

/-- What `complete` leaves alone. -/
@[simp] theorem complete_frame (s : State) (slot : Nat) (r : Result) :
    (s.complete slot r).pins = s.pins ∧ (s.complete slot r).port.notes = s.port.notes ∧
    (s.complete slot r).port.fault = s.port.fault ∧ (s.complete slot r).port.faultCount = s.port.faultCount ∧
    (s.complete slot r).port.tables = s.port.tables ∧ (s.complete slot r).port.lastTable = s.port.lastTable ∧
    (s.complete slot r).attn.enables = s.attn.enables ∧ (s.complete slot r).attn.levels = s.attn.levels ∧
    (s.complete slot r).attn.mask = s.attn.mask ∧ (s.complete slot r).chain = s.chain ∧
    (s.complete slot r).conv = s.conv ∧ (s.complete slot r).plan = s.plan ∧ (s.complete slot r).sup = s.sup ∧
    (s.complete slot r).ev = s.ev ∧ (s.complete slot r).power = s.power ∧ (s.complete slot r).store = s.store ∧
    (s.complete slot r).upd = s.upd ∧ (s.complete slot r).free = s.free ∧ (s.complete slot r).pending = s.pending := by
  simp only [State.complete]; (repeat' split) <;> (first | rfl | simp)

/-- `complete` keeps the canonical form of the memory. -/
@[simp] theorem complete_wf (s : State) (slot : Nat) (r : Result) (hw : s.mem.wf = true) :
    (s.complete slot r).mem.wf = true := by
  simp only [State.complete]; (repeat' split) <;> first | exact hw | simp (maxDischargeDepth := 20) [hw, store_wf]

/-- What `completeAll` leaves alone. -/
@[simp] theorem completeAll_frame (s : State) (slots : List Nat) (r : Result) :
    (s.completeAll slots r).pins = s.pins ∧ (s.completeAll slots r).port.notes = s.port.notes ∧
    (s.completeAll slots r).port.fault = s.port.fault ∧ (s.completeAll slots r).port.faultCount = s.port.faultCount ∧
    (s.completeAll slots r).port.tables = s.port.tables ∧ (s.completeAll slots r).port.lastTable = s.port.lastTable ∧
    (s.completeAll slots r).attn.enables = s.attn.enables ∧ (s.completeAll slots r).attn.levels = s.attn.levels ∧
    (s.completeAll slots r).attn.mask = s.attn.mask ∧ (s.completeAll slots r).chain = s.chain ∧
    (s.completeAll slots r).conv = s.conv ∧ (s.completeAll slots r).plan = s.plan ∧
    (s.completeAll slots r).sup = s.sup ∧ (s.completeAll slots r).ev = s.ev ∧
    (s.completeAll slots r).power = s.power ∧ (s.completeAll slots r).store = s.store ∧
    (s.completeAll slots r).upd = s.upd ∧ (s.completeAll slots r).free = s.free ∧
    (s.completeAll slots r).pending = s.pending := by
  simp only [State.completeAll]
  skip
  induction slots generalizing s with
  | nil => simp
  | cons x l ih => simp [ih]

/-- `completeAll` keeps the canonical form of the memory. -/
@[simp] theorem completeAll_wf (s : State) (slots : List Nat) (r : Result) (hw : s.mem.wf = true) :
    (s.completeAll slots r).mem.wf = true := by
  simp only [State.completeAll]
  skip
  induction slots generalizing s with
  | nil => simp [hw]
  | cons x l ih => simp only [List.foldl_cons]; exact ih _ (complete_wf _ _ _ hw)

/-- What `tableStatus` leaves alone. -/
@[simp] theorem tableStatus_frame (s : State) (id : Nat) (origin : Origin) (outcome : TableOutcome) (clamps : List ClampRec) :
    (s.tableStatus id origin outcome clamps).pins = s.pins ∧
    (s.tableStatus id origin outcome clamps).port.notes = s.port.notes ∧
    (s.tableStatus id origin outcome clamps).port.slots = s.port.slots ∧
    (s.tableStatus id origin outcome clamps).port.fault = s.port.fault ∧
    (s.tableStatus id origin outcome clamps).port.faultCount = s.port.faultCount ∧
    (s.tableStatus id origin outcome clamps).attn.enables = s.attn.enables ∧
    (s.tableStatus id origin outcome clamps).attn.levels = s.attn.levels ∧
    (s.tableStatus id origin outcome clamps).attn.mask = s.attn.mask ∧
    (s.tableStatus id origin outcome clamps).chain = s.chain ∧
    (s.tableStatus id origin outcome clamps).conv = s.conv ∧ (s.tableStatus id origin outcome clamps).plan = s.plan ∧
    (s.tableStatus id origin outcome clamps).sup = s.sup ∧ (s.tableStatus id origin outcome clamps).ev = s.ev ∧
    (s.tableStatus id origin outcome clamps).power = s.power ∧
    (s.tableStatus id origin outcome clamps).store = s.store ∧ (s.tableStatus id origin outcome clamps).upd = s.upd ∧
    (s.tableStatus id origin outcome clamps).free = s.free ∧
    (s.tableStatus id origin outcome clamps).pending = s.pending := by
  simp only [State.tableStatus]; (repeat' split) <;> (first | rfl | simp)

/-- `tableStatus` keeps the canonical form of the memory. -/
@[simp] theorem tableStatus_wf (s : State) (id : Nat) (origin : Origin) (outcome : TableOutcome) (clamps : List ClampRec) (hw : s.mem.wf = true) :
    (s.tableStatus id origin outcome clamps).mem.wf = true := by
  simp only [State.tableStatus]; (repeat' split) <;> first | exact hw | simp (maxDischargeDepth := 20) [hw, store_wf]

/-- What `setBuffer` leaves alone. -/
@[simp] theorem setBuffer_frame (s : State) (buf : Buffer) (length : Nat) (st : BufferState) (cause : Option RejectCause) :
    (s.setBuffer buf length st cause).pins = s.pins ∧ (s.setBuffer buf length st cause).port = s.port ∧
    (s.setBuffer buf length st cause).attn = s.attn ∧ (s.setBuffer buf length st cause).chain = s.chain ∧
    (s.setBuffer buf length st cause).conv = s.conv ∧ (s.setBuffer buf length st cause).plan = s.plan ∧
    (s.setBuffer buf length st cause).sup = s.sup ∧ (s.setBuffer buf length st cause).ev = s.ev ∧
    (s.setBuffer buf length st cause).power = s.power ∧ (s.setBuffer buf length st cause).store = s.store ∧
    (s.setBuffer buf length st cause).upd = s.upd ∧ (s.setBuffer buf length st cause).free = s.free ∧
    (s.setBuffer buf length st cause).pending = s.pending := by
  simp only [State.setBuffer]; (repeat' split) <;> (first | rfl | simp)

/-- `setBuffer` keeps the canonical form of the memory. -/
@[simp] theorem setBuffer_wf (s : State) (buf : Buffer) (length : Nat) (st : BufferState) (cause : Option RejectCause) (hw : s.mem.wf = true) :
    (s.setBuffer buf length st cause).mem.wf = true := by
  simp only [State.setBuffer]; (repeat' split) <;> first | exact hw | simp (maxDischargeDepth := 20) [hw, store_wf]

/-- What `endSending` leaves alone. -/
@[simp] theorem endSending_frame (s : State) :
    (s.endSending).mem = s.mem ∧ (s.endSending).pins = s.pins ∧ (s.endSending).port = s.port ∧
    (s.endSending).attn = s.attn ∧ (s.endSending).chain = s.chain ∧ (s.endSending).conv = s.conv ∧
    (s.endSending).plan = s.plan ∧ (s.endSending).sup = s.sup ∧ (s.endSending).ev.slots = s.ev.slots ∧
    (s.endSending).ev.age = s.ev.age ∧ (s.endSending).ev.next = s.ev.next ∧ (s.endSending).ev.filling = s.ev.filling ∧
    (s.endSending).power = s.power ∧ (s.endSending).store = s.store ∧ (s.endSending).upd = s.upd ∧
    (s.endSending).free = s.free ∧ (s.endSending).pending = s.pending := by
  simp only [State.endSending]; (repeat' split) <;> (first | rfl | simp)

/-- What `send` leaves alone. -/
@[simp] theorem send_frame (s : State) (e : SentEvent) :
    (s.send e).mem = s.mem ∧ (s.send e).pins = s.pins ∧ (s.send e).port = s.port ∧ (s.send e).attn = s.attn ∧
    (s.send e).chain = s.chain ∧ (s.send e).conv = s.conv ∧ (s.send e).plan = s.plan ∧ (s.send e).sup = s.sup ∧
    (s.send e).ev.slots = s.ev.slots ∧ (s.send e).ev.age = s.ev.age ∧ (s.send e).ev.next = s.ev.next ∧
    (s.send e).ev.filling = s.ev.filling ∧ (s.send e).power = s.power ∧ (s.send e).store = s.store ∧
    (s.send e).upd = s.upd ∧ (s.send e).free = s.free ∧ (s.send e).pending = s.pending := by
  simp only [State.send]; (repeat' split) <;> (first | rfl | simp)

/-- What `sendStill` leaves alone. -/
@[simp] theorem sendStill_frame (s : State) (kind : EventKind) (cause : Nat) (d : Detail) :
    (s.sendStill kind cause d).mem = s.mem ∧ (s.sendStill kind cause d).pins = s.pins ∧
    (s.sendStill kind cause d).port = s.port ∧ (s.sendStill kind cause d).attn = s.attn ∧
    (s.sendStill kind cause d).chain = s.chain ∧ (s.sendStill kind cause d).conv = s.conv ∧
    (s.sendStill kind cause d).plan = s.plan ∧ (s.sendStill kind cause d).sup = s.sup ∧
    (s.sendStill kind cause d).ev.slots = s.ev.slots ∧ (s.sendStill kind cause d).ev.age = s.ev.age ∧
    (s.sendStill kind cause d).ev.next = s.ev.next ∧ (s.sendStill kind cause d).ev.filling = s.ev.filling ∧
    (s.sendStill kind cause d).power = s.power ∧ (s.sendStill kind cause d).store = s.store ∧
    (s.sendStill kind cause d).upd = s.upd ∧ (s.sendStill kind cause d).free = s.free ∧
    (s.sendStill kind cause d).pending = s.pending := by
  simp only [State.sendStill]; (repeat' split) <;> (first | rfl | simp)

/-- What `completeRecord` leaves alone. -/
@[simp] theorem completeRecord_frame (s : State) (slot : Nat) :
    (s.completeRecord slot).pins = s.pins ∧ (s.completeRecord slot).port = s.port ∧
    (s.completeRecord slot).attn.enables = s.attn.enables ∧ (s.completeRecord slot).attn.levels = s.attn.levels ∧
    (s.completeRecord slot).attn.mask = s.attn.mask ∧ (s.completeRecord slot).chain = s.chain ∧
    (s.completeRecord slot).conv = s.conv ∧ (s.completeRecord slot).plan = s.plan ∧
    (s.completeRecord slot).sup = s.sup ∧ (s.completeRecord slot).ev.age = s.ev.age ∧
    (s.completeRecord slot).ev.next = s.ev.next ∧ (s.completeRecord slot).ev.filling = s.ev.filling ∧
    (s.completeRecord slot).ev.inbox = s.ev.inbox ∧ (s.completeRecord slot).power = s.power ∧
    (s.completeRecord slot).store = s.store ∧ (s.completeRecord slot).upd = s.upd ∧
    (s.completeRecord slot).free = s.free ∧ (s.completeRecord slot).pending = s.pending := by
  simp only [State.completeRecord]; (repeat' split) <;> (first | rfl | simp)

/-- `completeRecord` keeps the canonical form of the memory. -/
@[simp] theorem completeRecord_wf (s : State) (slot : Nat) (hw : s.mem.wf = true) :
    (s.completeRecord slot).mem.wf = true := by
  simp only [State.completeRecord]; (repeat' split) <;> first | exact hw | simp (maxDischargeDepth := 20) [hw, store_wf]

/-- What `skipWindow` leaves alone. -/
@[simp] theorem skipWindow_frame (s : State) (slot : Nat) :
    (s.skipWindow slot).pins = s.pins ∧ (s.skipWindow slot).port = s.port ∧
    (s.skipWindow slot).attn.enables = s.attn.enables ∧ (s.skipWindow slot).attn.levels = s.attn.levels ∧
    (s.skipWindow slot).attn.mask = s.attn.mask ∧ (s.skipWindow slot).chain = s.chain ∧
    (s.skipWindow slot).conv = s.conv ∧ (s.skipWindow slot).plan = s.plan ∧ (s.skipWindow slot).sup = s.sup ∧
    (s.skipWindow slot).ev.age = s.ev.age ∧ (s.skipWindow slot).ev.next = s.ev.next ∧
    (s.skipWindow slot).ev.filling = s.ev.filling ∧ (s.skipWindow slot).ev.inbox = s.ev.inbox ∧
    (s.skipWindow slot).power = s.power ∧ (s.skipWindow slot).store = s.store ∧ (s.skipWindow slot).upd = s.upd ∧
    (s.skipWindow slot).free = s.free ∧ (s.skipWindow slot).pending = s.pending := by
  simp only [State.skipWindow]; (repeat' split) <;> (first | rfl | simp)

/-- `skipWindow` keeps the canonical form of the memory. -/
@[simp] theorem skipWindow_wf (s : State) (slot : Nat) (hw : s.mem.wf = true) :
    (s.skipWindow slot).mem.wf = true := by
  simp only [State.skipWindow]; (repeat' split) <;> first | exact hw | simp (maxDischargeDepth := 20) [hw, store_wf]

/-- What `openWindow` leaves alone. -/
@[simp] theorem openWindow_frame (s : State) (slot : Nat) :
    (s.openWindow slot).pins = s.pins ∧ (s.openWindow slot).port = s.port ∧
    (s.openWindow slot).attn.enables = s.attn.enables ∧ (s.openWindow slot).attn.levels = s.attn.levels ∧
    (s.openWindow slot).attn.mask = s.attn.mask ∧ (s.openWindow slot).chain = s.chain ∧
    (s.openWindow slot).conv = s.conv ∧ (s.openWindow slot).plan = s.plan ∧ (s.openWindow slot).sup = s.sup ∧
    (s.openWindow slot).ev.age = s.ev.age ∧ (s.openWindow slot).ev.next = s.ev.next ∧
    (s.openWindow slot).ev.inbox = s.ev.inbox ∧ (s.openWindow slot).power = s.power ∧
    (s.openWindow slot).store = s.store ∧ (s.openWindow slot).upd = s.upd ∧ (s.openWindow slot).free = s.free ∧
    (s.openWindow slot).pending = s.pending := by
  simp only [State.openWindow]; (repeat' split) <;> (first | rfl | simp)

/-- `openWindow` keeps the canonical form of the memory. -/
@[simp] theorem openWindow_wf (s : State) (slot : Nat) (hw : s.mem.wf = true) :
    (s.openWindow slot).mem.wf = true := by
  simp only [State.openWindow]; (repeat' split) <;> first | exact hw | simp (maxDischargeDepth := 20) [hw, store_wf]

/-- What `takeEvent` leaves alone. -/
@[simp] theorem takeEvent_frame (s : State) (e : SentEvent) :
    (s.takeEvent e).pins = s.pins ∧ (s.takeEvent e).port = s.port ∧ (s.takeEvent e).attn.enables = s.attn.enables ∧
    (s.takeEvent e).attn.levels = s.attn.levels ∧ (s.takeEvent e).attn.mask = s.attn.mask ∧
    (s.takeEvent e).chain = s.chain ∧ (s.takeEvent e).conv = s.conv ∧ (s.takeEvent e).plan = s.plan ∧
    (s.takeEvent e).sup = s.sup ∧ (s.takeEvent e).ev.inbox = s.ev.inbox ∧ (s.takeEvent e).power = s.power ∧
    (s.takeEvent e).store = s.store ∧ (s.takeEvent e).upd = s.upd ∧ (s.takeEvent e).free = s.free ∧
    (s.takeEvent e).pending = s.pending := by
  simp only [State.takeEvent]; (repeat' split) <;> (first | rfl | simp)

/-- `takeEvent` keeps the canonical form of the memory. -/
@[simp] theorem takeEvent_wf (s : State) (e : SentEvent) (hw : s.mem.wf = true) :
    (s.takeEvent e).mem.wf = true := by
  simp only [State.takeEvent]; (repeat' split) <;> first | exact hw | simp (maxDischargeDepth := 20) [hw, store_wf]

/-- What `fillOne` leaves alone. -/
@[simp] theorem fillOne_frame (s : State) (x : Sample) (slot : Nat) :
    (s.fillOne x slot).pins = s.pins ∧ (s.fillOne x slot).port = s.port ∧
    (s.fillOne x slot).attn.enables = s.attn.enables ∧ (s.fillOne x slot).attn.levels = s.attn.levels ∧
    (s.fillOne x slot).attn.mask = s.attn.mask ∧ (s.fillOne x slot).chain = s.chain ∧
    (s.fillOne x slot).conv = s.conv ∧ (s.fillOne x slot).plan = s.plan ∧ (s.fillOne x slot).sup = s.sup ∧
    (s.fillOne x slot).ev.age = s.ev.age ∧ (s.fillOne x slot).ev.next = s.ev.next ∧
    (s.fillOne x slot).ev.inbox = s.ev.inbox ∧ (s.fillOne x slot).power = s.power ∧
    (s.fillOne x slot).store = s.store ∧ (s.fillOne x slot).upd = s.upd ∧ (s.fillOne x slot).free = s.free ∧
    (s.fillOne x slot).pending = s.pending := by
  simp only [State.fillOne]; (repeat' split) <;> (first | rfl | simp)

/-- `fillOne` keeps the canonical form of the memory. -/
@[simp] theorem fillOne_wf (s : State) (x : Sample) (slot : Nat) (hw : s.mem.wf = true) :
    (s.fillOne x slot).mem.wf = true := by
  simp only [State.fillOne]; (repeat' split) <;> first | exact hw | simp (maxDischargeDepth := 20) [hw, store_wf]

/-- What `fillWindows` leaves alone. -/
@[simp] theorem fillWindows_frame (s : State) (x : Sample) :
    (s.fillWindows x).pins = s.pins ∧ (s.fillWindows x).port = s.port ∧
    (s.fillWindows x).attn.enables = s.attn.enables ∧ (s.fillWindows x).attn.levels = s.attn.levels ∧
    (s.fillWindows x).attn.mask = s.attn.mask ∧ (s.fillWindows x).chain = s.chain ∧ (s.fillWindows x).conv = s.conv ∧
    (s.fillWindows x).plan = s.plan ∧ (s.fillWindows x).sup = s.sup ∧ (s.fillWindows x).ev.age = s.ev.age ∧
    (s.fillWindows x).ev.next = s.ev.next ∧ (s.fillWindows x).ev.inbox = s.ev.inbox ∧
    (s.fillWindows x).power = s.power ∧ (s.fillWindows x).store = s.store ∧ (s.fillWindows x).upd = s.upd ∧
    (s.fillWindows x).free = s.free ∧ (s.fillWindows x).pending = s.pending := by
  simp only [State.fillWindows]
  generalize s.ev.filling = l
  induction l generalizing s with
  | nil => simp
  | cons x l ih => simp [ih]

/-- `fillWindows` keeps the canonical form of the memory. -/
@[simp] theorem fillWindows_wf (s : State) (x : Sample) (hw : s.mem.wf = true) :
    (s.fillWindows x).mem.wf = true := by
  simp only [State.fillWindows]
  generalize s.ev.filling = l
  induction l generalizing s with
  | nil => simp [hw]
  | cons x l ih => simp only [List.foldl_cons]; exact ih _ (fillOne_wf _ _ _ hw)

theorem endEach_frame (s : State) (l : List Nat) :

    (l.foldl (fun s k => State.completeRecord { s with ev := s.ev.change k fun r => { r with windowSkipped := true } } k) s).pins = s.pins ∧
    (l.foldl (fun s k => State.completeRecord { s with ev := s.ev.change k fun r => { r with windowSkipped := true } } k) s).port = s.port ∧
    (l.foldl (fun s k => State.completeRecord { s with ev := s.ev.change k fun r => { r with windowSkipped := true } } k) s).attn.enables = s.attn.enables ∧
    (l.foldl (fun s k => State.completeRecord { s with ev := s.ev.change k fun r => { r with windowSkipped := true } } k) s).attn.levels = s.attn.levels ∧
    (l.foldl (fun s k => State.completeRecord { s with ev := s.ev.change k fun r => { r with windowSkipped := true } } k) s).attn.mask = s.attn.mask ∧
    (l.foldl (fun s k => State.completeRecord { s with ev := s.ev.change k fun r => { r with windowSkipped := true } } k) s).chain = s.chain ∧
    (l.foldl (fun s k => State.completeRecord { s with ev := s.ev.change k fun r => { r with windowSkipped := true } } k) s).conv = s.conv ∧
    (l.foldl (fun s k => State.completeRecord { s with ev := s.ev.change k fun r => { r with windowSkipped := true } } k) s).plan = s.plan ∧
    (l.foldl (fun s k => State.completeRecord { s with ev := s.ev.change k fun r => { r with windowSkipped := true } } k) s).sup = s.sup ∧
    (l.foldl (fun s k => State.completeRecord { s with ev := s.ev.change k fun r => { r with windowSkipped := true } } k) s).ev.age = s.ev.age ∧
    (l.foldl (fun s k => State.completeRecord { s with ev := s.ev.change k fun r => { r with windowSkipped := true } } k) s).ev.next = s.ev.next ∧
    (l.foldl (fun s k => State.completeRecord { s with ev := s.ev.change k fun r => { r with windowSkipped := true } } k) s).ev.inbox = s.ev.inbox ∧
    (l.foldl (fun s k => State.completeRecord { s with ev := s.ev.change k fun r => { r with windowSkipped := true } } k) s).power = s.power ∧
    (l.foldl (fun s k => State.completeRecord { s with ev := s.ev.change k fun r => { r with windowSkipped := true } } k) s).store = s.store ∧
    (l.foldl (fun s k => State.completeRecord { s with ev := s.ev.change k fun r => { r with windowSkipped := true } } k) s).upd = s.upd ∧
    (l.foldl (fun s k => State.completeRecord { s with ev := s.ev.change k fun r => { r with windowSkipped := true } } k) s).free = s.free ∧
    (l.foldl (fun s k => State.completeRecord { s with ev := s.ev.change k fun r => { r with windowSkipped := true } } k) s).pending = s.pending ∧
    (l.foldl (fun s k => State.completeRecord { s with ev := s.ev.change k fun r => { r with windowSkipped := true } } k) s).ev.filling = s.ev.filling := by
  induction l generalizing s with
  | nil => simp
  | cons x l ih => simp [ih]

theorem endEach_wf (s : State) (l : List Nat) (hw : s.mem.wf = true) :
    (l.foldl (fun s k => State.completeRecord { s with ev := s.ev.change k fun r => { r with windowSkipped := true } } k) s).mem.wf = true := by
  induction l generalizing s with
  | nil => simpa using hw
  | cons x l ih => simp only [List.foldl_cons]; exact ih _ (completeRecord_wf _ _ hw)

/-- What `endWindows` leaves alone. -/
@[simp] theorem endWindows_frame (s : State) :
    (s.endWindows).pins = s.pins ∧ (s.endWindows).port = s.port ∧ (s.endWindows).attn.enables = s.attn.enables ∧
    (s.endWindows).attn.levels = s.attn.levels ∧ (s.endWindows).attn.mask = s.attn.mask ∧
    (s.endWindows).chain = s.chain ∧ (s.endWindows).conv = s.conv ∧ (s.endWindows).plan = s.plan ∧
    (s.endWindows).sup = s.sup ∧ (s.endWindows).ev.age = s.ev.age ∧ (s.endWindows).ev.next = s.ev.next ∧
    (s.endWindows).ev.inbox = s.ev.inbox ∧ (s.endWindows).power = s.power ∧ (s.endWindows).store = s.store ∧
    (s.endWindows).upd = s.upd ∧ (s.endWindows).free = s.free ∧ (s.endWindows).pending = s.pending := by
  simp [State.endWindows, endEach_frame]

/-- `endWindows` keeps the canonical form of the memory. -/
@[simp] theorem endWindows_wf (s : State) (hw : s.mem.wf = true) :
    (s.endWindows).mem.wf = true := by
  exact endEach_wf _ _ hw

/-- What `markSurge` leaves alone. -/
@[simp] theorem markSurge_frame (s : State) :
    (s.markSurge).mem = s.mem ∧ (s.markSurge).pins = s.pins ∧ (s.markSurge).port = s.port ∧
    (s.markSurge).attn = s.attn ∧ (s.markSurge).chain = s.chain ∧ (s.markSurge).conv = s.conv ∧
    (s.markSurge).plan = s.plan ∧ (s.markSurge).sup = s.sup ∧ (s.markSurge).ev.age = s.ev.age ∧
    (s.markSurge).ev.next = s.ev.next ∧ (s.markSurge).ev.filling = s.ev.filling ∧
    (s.markSurge).ev.inbox = s.ev.inbox ∧ (s.markSurge).power = s.power ∧ (s.markSurge).store = s.store ∧
    (s.markSurge).upd = s.upd ∧ (s.markSurge).free = s.free ∧ (s.markSurge).pending = s.pending := by
  simp only [State.markSurge]; (repeat' split) <;> (first | rfl | simp)

/-- What `rewrite` leaves alone. -/
@[simp] theorem rewrite_frame (s : State) (slot : Nat) (f : EventRec → EventRec) :
    (s.rewrite slot f).pins = s.pins ∧ (s.rewrite slot f).port = s.port ∧
    (s.rewrite slot f).attn.enables = s.attn.enables ∧ (s.rewrite slot f).attn.levels = s.attn.levels ∧
    (s.rewrite slot f).attn.mask = s.attn.mask ∧ (s.rewrite slot f).chain = s.chain ∧
    (s.rewrite slot f).conv = s.conv ∧ (s.rewrite slot f).plan = s.plan ∧ (s.rewrite slot f).sup = s.sup ∧
    (s.rewrite slot f).ev.age = s.ev.age ∧ (s.rewrite slot f).ev.next = s.ev.next ∧
    (s.rewrite slot f).ev.filling = s.ev.filling ∧ (s.rewrite slot f).ev.inbox = s.ev.inbox ∧
    (s.rewrite slot f).power = s.power ∧ (s.rewrite slot f).store = s.store ∧ (s.rewrite slot f).upd = s.upd ∧
    (s.rewrite slot f).free = s.free ∧ (s.rewrite slot f).pending = s.pending := by
  simp only [State.rewrite]; (repeat' split) <;> (first | rfl | simp)

/-- `rewrite` keeps the canonical form of the memory. -/
@[simp] theorem rewrite_wf (s : State) (slot : Nat) (f : EventRec → EventRec) (hw : s.mem.wf = true) :
    (s.rewrite slot f).mem.wf = true := by
  simp only [State.rewrite]; (repeat' split) <;> first | exact hw | simp (maxDischargeDepth := 20) [hw, store_wf]

/-- What `answerLink` leaves alone. -/
@[simp] theorem answerLink_frame (s : State) (seq : Nat) (a : Option Nat) :
    (s.answerLink seq a).pins = s.pins ∧ (s.answerLink seq a).port = s.port ∧
    (s.answerLink seq a).attn.enables = s.attn.enables ∧ (s.answerLink seq a).attn.levels = s.attn.levels ∧
    (s.answerLink seq a).attn.mask = s.attn.mask ∧ (s.answerLink seq a).chain = s.chain ∧
    (s.answerLink seq a).conv = s.conv ∧ (s.answerLink seq a).plan = s.plan ∧ (s.answerLink seq a).sup = s.sup ∧
    (s.answerLink seq a).ev.age = s.ev.age ∧ (s.answerLink seq a).ev.next = s.ev.next ∧
    (s.answerLink seq a).ev.filling = s.ev.filling ∧ (s.answerLink seq a).ev.inbox = s.ev.inbox ∧
    (s.answerLink seq a).power = s.power ∧ (s.answerLink seq a).store = s.store ∧ (s.answerLink seq a).upd = s.upd ∧
    (s.answerLink seq a).free = s.free ∧ (s.answerLink seq a).pending = s.pending := by
  simp only [State.answerLink]; (repeat' split) <;> (first | rfl | simp)

/-- `answerLink` keeps the canonical form of the memory. -/
@[simp] theorem answerLink_wf (s : State) (seq : Nat) (a : Option Nat) (hw : s.mem.wf = true) :
    (s.answerLink seq a).mem.wf = true := by
  simp only [State.answerLink]; (repeat' split) <;> first | exact hw | simp (maxDischargeDepth := 20) [hw, store_wf]

/-- What `addCause` leaves alone. -/
@[simp] theorem addCause_frame (s : State) (c : CauseRec) :
    (s.addCause c).pins = s.pins ∧ (s.addCause c).port = s.port ∧ (s.addCause c).attn.enables = s.attn.enables ∧
    (s.addCause c).attn.levels = s.attn.levels ∧ (s.addCause c).attn.mask = s.attn.mask ∧
    (s.addCause c).chain = s.chain ∧ (s.addCause c).conv = s.conv ∧ (s.addCause c).plan = s.plan ∧
    (s.addCause c).sup = s.sup ∧ (s.addCause c).ev.age = s.ev.age ∧ (s.addCause c).ev.next = s.ev.next ∧
    (s.addCause c).ev.filling = s.ev.filling ∧ (s.addCause c).power = s.power ∧ (s.addCause c).store = s.store ∧
    (s.addCause c).upd = s.upd ∧ (s.addCause c).free = s.free ∧ (s.addCause c).pending = s.pending := by
  simp only [State.addCause]; (repeat' split) <;> (first | rfl | simp)

/-- `addCause` keeps the canonical form of the memory. -/
@[simp] theorem addCause_wf (s : State) (c : CauseRec) (hw : s.mem.wf = true) :
    (s.addCause c).mem.wf = true := by
  simp only [State.addCause]; (repeat' split) <;> first | exact hw | simp (maxDischargeDepth := 20) [hw, store_wf]

/-- What `endAdditions` leaves alone. -/
@[simp] theorem endAdditions_frame (s : State) :
    (s.endAdditions).mem = s.mem ∧ (s.endAdditions).pins = s.pins ∧ (s.endAdditions).port = s.port ∧
    (s.endAdditions).attn = s.attn ∧ (s.endAdditions).chain = s.chain ∧ (s.endAdditions).conv = s.conv ∧
    (s.endAdditions).plan = s.plan ∧ (s.endAdditions).sup = s.sup ∧ (s.endAdditions).ev.age = s.ev.age ∧
    (s.endAdditions).ev.next = s.ev.next ∧ (s.endAdditions).ev.filling = s.ev.filling ∧
    (s.endAdditions).power = s.power ∧ (s.endAdditions).store = s.store ∧ (s.endAdditions).upd = s.upd ∧
    (s.endAdditions).free = s.free ∧ (s.endAdditions).pending = s.pending := by
  simp only [State.endAdditions]; (repeat' split) <;> (first | rfl | simp)

end Sys2Proof.Machine
end

