-- ==== Sys2Proof/Laws/EffectsChain.lean ====
section
/-! SUPPORT. What the operations of the settings store, the chain controller and the pack converter leave alone, one lemma for each; each keeps the canonical form of the memory. -/

set_option linter.all false

namespace Sys2Proof.Machine

/-- What `requestWrite` leaves alone. -/
@[simp] theorem requestWrite_frame (s : State) (p : Payload) (who : Requester) :
    (s.requestWrite p who).mem = s.mem ∧ (s.requestWrite p who).pins = s.pins ∧
    (s.requestWrite p who).port = s.port ∧ (s.requestWrite p who).attn = s.attn ∧
    (s.requestWrite p who).chain = s.chain ∧ (s.requestWrite p who).conv = s.conv ∧
    (s.requestWrite p who).plan = s.plan ∧ (s.requestWrite p who).sup = s.sup ∧ (s.requestWrite p who).ev = s.ev ∧
    (s.requestWrite p who).power = s.power ∧ (s.requestWrite p who).store.nv = s.store.nv ∧
    (s.requestWrite p who).store.work = s.store.work ∧ (s.requestWrite p who).store.running = s.store.running ∧
    (s.requestWrite p who).store.startUp = s.store.startUp ∧ (s.requestWrite p who).store.active = s.store.active ∧
    (s.requestWrite p who).store.activeBank = s.store.activeBank ∧
    (s.requestWrite p who).store.activeVersion = s.store.activeVersion ∧
    (s.requestWrite p who).store.clampCount = s.store.clampCount ∧
    (s.requestWrite p who).store.outcome = s.store.outcome ∧
    (s.requestWrite p who).store.faultCause = s.store.faultCause ∧
    (s.requestWrite p who).store.faultItem = s.store.faultItem ∧
    (s.requestWrite p who).store.faultCount = s.store.faultCount ∧ (s.requestWrite p who).store.lost = s.store.lost ∧
    (s.requestWrite p who).store.taken = s.store.taken ∧ (s.requestWrite p who).store.inForce = s.store.inForce ∧
    (s.requestWrite p who).store.rangeClamps = s.store.rangeClamps ∧
    (s.requestWrite p who).store.hardClamps = s.store.hardClamps ∧
    (s.requestWrite p who).store.keySlip = s.store.keySlip ∧ (s.requestWrite p who).upd = s.upd ∧
    (s.requestWrite p who).free = s.free ∧ (s.requestWrite p who).pending = s.pending := by
  simp only [State.requestWrite]; (repeat' split) <;> (first | rfl | simp)

/-- What `withdrawWrites` leaves alone. -/
@[simp] theorem withdrawWrites_frame (s : State) (p : WriteReq → Bool) :
    (s.withdrawWrites p).mem = s.mem ∧ (s.withdrawWrites p).pins = s.pins ∧ (s.withdrawWrites p).port = s.port ∧
    (s.withdrawWrites p).attn = s.attn ∧ (s.withdrawWrites p).chain = s.chain ∧ (s.withdrawWrites p).conv = s.conv ∧
    (s.withdrawWrites p).plan = s.plan ∧ (s.withdrawWrites p).sup = s.sup ∧ (s.withdrawWrites p).ev = s.ev ∧
    (s.withdrawWrites p).power = s.power ∧ (s.withdrawWrites p).store.nv = s.store.nv ∧
    (s.withdrawWrites p).store.work = s.store.work ∧ (s.withdrawWrites p).store.running = s.store.running ∧
    (s.withdrawWrites p).store.startUp = s.store.startUp ∧ (s.withdrawWrites p).store.active = s.store.active ∧
    (s.withdrawWrites p).store.activeBank = s.store.activeBank ∧
    (s.withdrawWrites p).store.activeVersion = s.store.activeVersion ∧
    (s.withdrawWrites p).store.clampCount = s.store.clampCount ∧
    (s.withdrawWrites p).store.outcome = s.store.outcome ∧
    (s.withdrawWrites p).store.faultCause = s.store.faultCause ∧
    (s.withdrawWrites p).store.faultItem = s.store.faultItem ∧
    (s.withdrawWrites p).store.faultCount = s.store.faultCount ∧ (s.withdrawWrites p).store.lost = s.store.lost ∧
    (s.withdrawWrites p).store.taken = s.store.taken ∧ (s.withdrawWrites p).store.inForce = s.store.inForce ∧
    (s.withdrawWrites p).store.rangeClamps = s.store.rangeClamps ∧
    (s.withdrawWrites p).store.hardClamps = s.store.hardClamps ∧
    (s.withdrawWrites p).store.keySlip = s.store.keySlip ∧ (s.withdrawWrites p).upd = s.upd ∧
    (s.withdrawWrites p).free = s.free ∧ (s.withdrawWrites p).pending = s.pending := by
  simp only [State.withdrawWrites]; (repeat' split) <;> (first | rfl | simp)

/-- What `beginWrite` leaves alone. -/
@[simp] theorem beginWrite_frame (s : State) :
    (s.beginWrite).mem = s.mem ∧ (s.beginWrite).pins = s.pins ∧ (s.beginWrite).port = s.port ∧
    (s.beginWrite).attn = s.attn ∧ (s.beginWrite).chain = s.chain ∧ (s.beginWrite).conv = s.conv ∧
    (s.beginWrite).plan = s.plan ∧ (s.beginWrite).sup = s.sup ∧ (s.beginWrite).ev = s.ev ∧
    (s.beginWrite).power = s.power ∧ (s.beginWrite).store.nv = s.store.nv ∧
    (s.beginWrite).store.work = s.store.work ∧ (s.beginWrite).store.startUp = s.store.startUp ∧
    (s.beginWrite).store.active = s.store.active ∧ (s.beginWrite).store.activeBank = s.store.activeBank ∧
    (s.beginWrite).store.activeVersion = s.store.activeVersion ∧
    (s.beginWrite).store.clampCount = s.store.clampCount ∧ (s.beginWrite).store.outcome = s.store.outcome ∧
    (s.beginWrite).store.faultCause = s.store.faultCause ∧ (s.beginWrite).store.faultItem = s.store.faultItem ∧
    (s.beginWrite).store.faultCount = s.store.faultCount ∧ (s.beginWrite).store.lost = s.store.lost ∧
    (s.beginWrite).store.taken = s.store.taken ∧ (s.beginWrite).store.inForce = s.store.inForce ∧
    (s.beginWrite).store.rangeClamps = s.store.rangeClamps ∧ (s.beginWrite).store.hardClamps = s.store.hardClamps ∧
    (s.beginWrite).store.keySlip = s.store.keySlip ∧ (s.beginWrite).upd = s.upd ∧ (s.beginWrite).free = s.free ∧
    (s.beginWrite).pending = s.pending := by
  simp only [State.beginWrite]; (repeat' split) <;> (first | rfl | simp)

/-- What `storeFault` leaves alone. -/
@[simp] theorem storeFault_frame (s : State) (c : StoreFaultCause) (item : Option StoreItem) :
    (s.storeFault c item).pins = s.pins ∧ (s.storeFault c item).port = s.port ∧
    (s.storeFault c item).attn.enables = s.attn.enables ∧ (s.storeFault c item).attn.levels = s.attn.levels ∧
    (s.storeFault c item).attn.mask = s.attn.mask ∧ (s.storeFault c item).chain = s.chain ∧
    (s.storeFault c item).conv = s.conv ∧ (s.storeFault c item).plan = s.plan ∧ (s.storeFault c item).sup = s.sup ∧
    (s.storeFault c item).ev = s.ev ∧ (s.storeFault c item).power = s.power ∧
    (s.storeFault c item).store.nv = s.store.nv ∧ (s.storeFault c item).store.work = s.store.work ∧
    (s.storeFault c item).store.queue = s.store.queue ∧ (s.storeFault c item).store.running = s.store.running ∧
    (s.storeFault c item).store.startUp = s.store.startUp ∧ (s.storeFault c item).store.active = s.store.active ∧
    (s.storeFault c item).store.activeBank = s.store.activeBank ∧
    (s.storeFault c item).store.activeVersion = s.store.activeVersion ∧
    (s.storeFault c item).store.clampCount = s.store.clampCount ∧
    (s.storeFault c item).store.outcome = s.store.outcome ∧ (s.storeFault c item).store.lost = s.store.lost ∧
    (s.storeFault c item).store.taken = s.store.taken ∧ (s.storeFault c item).store.inForce = s.store.inForce ∧
    (s.storeFault c item).store.rangeClamps = s.store.rangeClamps ∧
    (s.storeFault c item).store.hardClamps = s.store.hardClamps ∧
    (s.storeFault c item).store.keySlip = s.store.keySlip ∧ (s.storeFault c item).upd = s.upd ∧
    (s.storeFault c item).free = s.free ∧ (s.storeFault c item).pending = s.pending := by
  simp only [State.storeFault]; (repeat' split) <;> (first | rfl | simp)

/-- `storeFault` keeps the canonical form of the memory. -/
@[simp] theorem storeFault_wf (s : State) (c : StoreFaultCause) (item : Option StoreItem) (hw : s.mem.wf = true) :
    (s.storeFault c item).mem.wf = true := by
  simp only [State.storeFault]; (repeat' split) <;> first | exact hw | simp (maxDischargeDepth := 20) [hw, store_wf]

/-- What `finishWrite` leaves alone. -/
@[simp] theorem finishWrite_frame (s : State) (r : Running) (matched : Bool) :
    (s.finishWrite r matched).pins = s.pins ∧ (s.finishWrite r matched).port = s.port ∧
    (s.finishWrite r matched).attn.enables = s.attn.enables ∧ (s.finishWrite r matched).attn.levels = s.attn.levels ∧
    (s.finishWrite r matched).attn.mask = s.attn.mask ∧ (s.finishWrite r matched).chain = s.chain ∧
    (s.finishWrite r matched).conv = s.conv ∧ (s.finishWrite r matched).plan = s.plan ∧
    (s.finishWrite r matched).sup = s.sup ∧ (s.finishWrite r matched).ev = s.ev ∧
    (s.finishWrite r matched).power = s.power ∧ (s.finishWrite r matched).store.queue = s.store.queue ∧
    (s.finishWrite r matched).store.startUp = s.store.startUp ∧
    (s.finishWrite r matched).store.active = s.store.active ∧
    (s.finishWrite r matched).store.activeBank = s.store.activeBank ∧
    (s.finishWrite r matched).store.activeVersion = s.store.activeVersion ∧
    (s.finishWrite r matched).store.clampCount = s.store.clampCount ∧
    (s.finishWrite r matched).store.outcome = s.store.outcome ∧ (s.finishWrite r matched).store.lost = s.store.lost ∧
    (s.finishWrite r matched).store.taken = s.store.taken ∧
    (s.finishWrite r matched).store.inForce = s.store.inForce ∧
    (s.finishWrite r matched).store.rangeClamps = s.store.rangeClamps ∧
    (s.finishWrite r matched).store.hardClamps = s.store.hardClamps ∧
    (s.finishWrite r matched).store.keySlip = s.store.keySlip ∧ (s.finishWrite r matched).upd = s.upd ∧
    (s.finishWrite r matched).free = s.free ∧ (s.finishWrite r matched).pending = s.pending := by
  simp only [State.finishWrite]; (repeat' split) <;> (first | rfl | simp)

/-- `finishWrite` keeps the canonical form of the memory. -/
@[simp] theorem finishWrite_wf (s : State) (r : Running) (matched : Bool) (hw : s.mem.wf = true) :
    (s.finishWrite r matched).mem.wf = true := by
  simp only [State.finishWrite]; (repeat' split) <;> first | exact hw | simp (maxDischargeDepth := 20) [hw, store_wf]

/-- What `computeInForce` leaves alone. -/
@[simp] theorem computeInForce_frame (s : State) :
    (s.computeInForce).mem = s.mem ∧ (s.computeInForce).pins = s.pins ∧ (s.computeInForce).port = s.port ∧
    (s.computeInForce).attn = s.attn ∧ (s.computeInForce).chain = s.chain ∧ (s.computeInForce).conv = s.conv ∧
    (s.computeInForce).plan = s.plan ∧ (s.computeInForce).sup = s.sup ∧ (s.computeInForce).ev = s.ev ∧
    (s.computeInForce).power = s.power ∧ (s.computeInForce).store.nv = s.store.nv ∧
    (s.computeInForce).store.work = s.store.work ∧ (s.computeInForce).store.queue = s.store.queue ∧
    (s.computeInForce).store.running = s.store.running ∧ (s.computeInForce).store.startUp = s.store.startUp ∧
    (s.computeInForce).store.active = s.store.active ∧ (s.computeInForce).store.activeBank = s.store.activeBank ∧
    (s.computeInForce).store.activeVersion = s.store.activeVersion ∧
    (s.computeInForce).store.clampCount = s.store.clampCount ∧ (s.computeInForce).store.outcome = s.store.outcome ∧
    (s.computeInForce).store.faultCause = s.store.faultCause ∧
    (s.computeInForce).store.faultItem = s.store.faultItem ∧
    (s.computeInForce).store.faultCount = s.store.faultCount ∧ (s.computeInForce).store.lost = s.store.lost ∧
    (s.computeInForce).store.taken = s.store.taken ∧ (s.computeInForce).store.rangeClamps = s.store.rangeClamps ∧
    (s.computeInForce).store.keySlip = s.store.keySlip ∧ (s.computeInForce).upd = s.upd ∧
    (s.computeInForce).free = s.free ∧ (s.computeInForce).pending = s.pending := by
  simp only [State.computeInForce]; (repeat' split) <;> (first | rfl | simp)

/-- What `loadLimits` leaves alone. -/
@[simp] theorem loadLimits_frame (s : State) (l : Limits) (clamps : Nat) (origin : Origin) :
    (s.loadLimits l clamps origin).pins = s.pins ∧ (s.loadLimits l clamps origin).port.notes = s.port.notes ∧
    (s.loadLimits l clamps origin).port.slots = s.port.slots ∧
    (s.loadLimits l clamps origin).port.fault = s.port.fault ∧
    (s.loadLimits l clamps origin).port.faultCount = s.port.faultCount ∧
    (s.loadLimits l clamps origin).attn.enables = s.attn.enables ∧
    (s.loadLimits l clamps origin).attn.levels = s.attn.levels ∧
    (s.loadLimits l clamps origin).attn.mask = s.attn.mask ∧
    (s.loadLimits l clamps origin).chain.state = s.chain.state ∧
    (s.loadLimits l clamps origin).chain.origin = s.chain.origin ∧
    (s.loadLimits l clamps origin).chain.wasDown = s.chain.wasDown ∧
    (s.loadLimits l clamps origin).chain.downSince = s.chain.downSince ∧
    (s.loadLimits l clamps origin).chain.errs = s.chain.errs ∧
    (s.loadLimits l clamps origin).chain.suspectSince = s.chain.suspectSince ∧
    (s.loadLimits l clamps origin).chain.periodStart = s.chain.periodStart ∧
    (s.loadLimits l clamps origin).chain.periodErrs = s.chain.periodErrs ∧
    (s.loadLimits l clamps origin).chain.capTag = s.chain.capTag ∧
    (s.loadLimits l clamps origin).chain.exTag = s.chain.exTag ∧
    (s.loadLimits l clamps origin).chain.survey = s.chain.survey ∧
    (s.loadLimits l clamps origin).chain.present = s.chain.present ∧
    (s.loadLimits l clamps origin).chain.configured = s.chain.configured ∧
    (s.loadLimits l clamps origin).chain.breakLoc = s.chain.breakLoc ∧
    (s.loadLimits l clamps origin).chain.hold = s.chain.hold ∧
    (s.loadLimits l clamps origin).chain.line = s.chain.line ∧
    (s.loadLimits l clamps origin).chain.lastSent = s.chain.lastSent ∧
    (s.loadLimits l clamps origin).chain.requests = s.chain.requests ∧
    (s.loadLimits l clamps origin).chain.sleepCmd = s.chain.sleepCmd ∧
    (s.loadLimits l clamps origin).chain.wakeAfterSleep = s.chain.wakeAfterSleep ∧
    (s.loadLimits l clamps origin).chain.wake = s.chain.wake ∧
    (s.loadLimits l clamps origin).chain.resetTone = s.chain.resetTone ∧
    (s.loadLimits l clamps origin).chain.surveyTimer = s.chain.surveyTimer ∧
    (s.loadLimits l clamps origin).chain.firstUp = s.chain.firstUp ∧
    (s.loadLimits l clamps origin).chain.surveySlip = s.chain.surveySlip ∧
    (s.loadLimits l clamps origin).chain.balance = s.chain.balance ∧
    (s.loadLimits l clamps origin).chain.returning = s.chain.returning ∧
    (s.loadLimits l clamps origin).conv = s.conv ∧ (s.loadLimits l clamps origin).plan = s.plan ∧
    (s.loadLimits l clamps origin).sup = s.sup ∧ (s.loadLimits l clamps origin).ev = s.ev ∧
    (s.loadLimits l clamps origin).power = s.power ∧ (s.loadLimits l clamps origin).store.nv = s.store.nv ∧
    (s.loadLimits l clamps origin).store.work = s.store.work ∧
    (s.loadLimits l clamps origin).store.queue = s.store.queue ∧
    (s.loadLimits l clamps origin).store.running = s.store.running ∧
    (s.loadLimits l clamps origin).store.startUp = s.store.startUp ∧
    (s.loadLimits l clamps origin).store.activeBank = s.store.activeBank ∧
    (s.loadLimits l clamps origin).store.activeVersion = s.store.activeVersion ∧
    (s.loadLimits l clamps origin).store.outcome = s.store.outcome ∧
    (s.loadLimits l clamps origin).store.faultCause = s.store.faultCause ∧
    (s.loadLimits l clamps origin).store.faultItem = s.store.faultItem ∧
    (s.loadLimits l clamps origin).store.faultCount = s.store.faultCount ∧
    (s.loadLimits l clamps origin).store.lost = s.store.lost ∧
    (s.loadLimits l clamps origin).store.taken = s.store.taken ∧
    (s.loadLimits l clamps origin).store.rangeClamps = s.store.rangeClamps ∧
    (s.loadLimits l clamps origin).store.keySlip = s.store.keySlip ∧ (s.loadLimits l clamps origin).upd = s.upd ∧
    (s.loadLimits l clamps origin).free = s.free ∧ (s.loadLimits l clamps origin).pending = s.pending := by
  simp only [State.loadLimits]; (repeat' split) <;> (first | rfl | simp)

/-- `loadLimits` keeps the canonical form of the memory. -/
@[simp] theorem loadLimits_wf (s : State) (l : Limits) (clamps : Nat) (origin : Origin) (hw : s.mem.wf = true) :
    (s.loadLimits l clamps origin).mem.wf = true := by
  simp only [State.loadLimits]; (repeat' split) <;> first | exact hw | simp (maxDischargeDepth := 20) [hw, store_wf]

/-- What `loadBank` leaves alone. -/
@[simp] theorem loadBank_frame (s : State) (bk : BankId) (origin : Origin) :
    (s.loadBank bk origin).pins = s.pins ∧ (s.loadBank bk origin).port.notes = s.port.notes ∧
    (s.loadBank bk origin).port.slots = s.port.slots ∧ (s.loadBank bk origin).port.fault = s.port.fault ∧
    (s.loadBank bk origin).port.faultCount = s.port.faultCount ∧
    (s.loadBank bk origin).attn.enables = s.attn.enables ∧ (s.loadBank bk origin).attn.levels = s.attn.levels ∧
    (s.loadBank bk origin).attn.mask = s.attn.mask ∧ (s.loadBank bk origin).chain.state = s.chain.state ∧
    (s.loadBank bk origin).chain.origin = s.chain.origin ∧ (s.loadBank bk origin).chain.wasDown = s.chain.wasDown ∧
    (s.loadBank bk origin).chain.downSince = s.chain.downSince ∧ (s.loadBank bk origin).chain.errs = s.chain.errs ∧
    (s.loadBank bk origin).chain.suspectSince = s.chain.suspectSince ∧
    (s.loadBank bk origin).chain.periodStart = s.chain.periodStart ∧
    (s.loadBank bk origin).chain.periodErrs = s.chain.periodErrs ∧
    (s.loadBank bk origin).chain.capTag = s.chain.capTag ∧ (s.loadBank bk origin).chain.exTag = s.chain.exTag ∧
    (s.loadBank bk origin).chain.survey = s.chain.survey ∧ (s.loadBank bk origin).chain.present = s.chain.present ∧
    (s.loadBank bk origin).chain.configured = s.chain.configured ∧
    (s.loadBank bk origin).chain.breakLoc = s.chain.breakLoc ∧ (s.loadBank bk origin).chain.hold = s.chain.hold ∧
    (s.loadBank bk origin).chain.line = s.chain.line ∧ (s.loadBank bk origin).chain.lastSent = s.chain.lastSent ∧
    (s.loadBank bk origin).chain.requests = s.chain.requests ∧
    (s.loadBank bk origin).chain.sleepCmd = s.chain.sleepCmd ∧
    (s.loadBank bk origin).chain.wakeAfterSleep = s.chain.wakeAfterSleep ∧
    (s.loadBank bk origin).chain.wake = s.chain.wake ∧ (s.loadBank bk origin).chain.resetTone = s.chain.resetTone ∧
    (s.loadBank bk origin).chain.surveyTimer = s.chain.surveyTimer ∧
    (s.loadBank bk origin).chain.firstUp = s.chain.firstUp ∧
    (s.loadBank bk origin).chain.surveySlip = s.chain.surveySlip ∧
    (s.loadBank bk origin).chain.balance = s.chain.balance ∧
    (s.loadBank bk origin).chain.returning = s.chain.returning ∧ (s.loadBank bk origin).conv = s.conv ∧
    (s.loadBank bk origin).plan = s.plan ∧ (s.loadBank bk origin).sup = s.sup ∧ (s.loadBank bk origin).ev = s.ev ∧
    (s.loadBank bk origin).power = s.power ∧ (s.loadBank bk origin).store.nv = s.store.nv ∧
    (s.loadBank bk origin).store.work = s.store.work ∧ (s.loadBank bk origin).store.queue = s.store.queue ∧
    (s.loadBank bk origin).store.running = s.store.running ∧ (s.loadBank bk origin).store.startUp = s.store.startUp ∧
    (s.loadBank bk origin).store.outcome = s.store.outcome ∧
    (s.loadBank bk origin).store.faultCause = s.store.faultCause ∧
    (s.loadBank bk origin).store.faultItem = s.store.faultItem ∧
    (s.loadBank bk origin).store.faultCount = s.store.faultCount ∧ (s.loadBank bk origin).store.lost = s.store.lost ∧
    (s.loadBank bk origin).store.taken = s.store.taken ∧
    (s.loadBank bk origin).store.rangeClamps = s.store.rangeClamps ∧
    (s.loadBank bk origin).store.keySlip = s.store.keySlip ∧ (s.loadBank bk origin).upd = s.upd ∧
    (s.loadBank bk origin).free = s.free ∧ (s.loadBank bk origin).pending = s.pending := by
  simp only [State.loadBank]; (repeat' split) <;> (first | rfl | simp)

/-- `loadBank` keeps the canonical form of the memory. -/
@[simp] theorem loadBank_wf (s : State) (bk : BankId) (origin : Origin) (hw : s.mem.wf = true) :
    (s.loadBank bk origin).mem.wf = true := by
  simp only [State.loadBank]; (repeat' split) <;> first | exact hw | simp (maxDischargeDepth := 20) [hw, store_wf]

/-- What `chooseImage` leaves alone. -/
@[simp] theorem chooseImage_frame (s : State) :
    (s.chooseImage).pins = s.pins ∧ (s.chooseImage).port.notes = s.port.notes ∧
    (s.chooseImage).port.slots = s.port.slots ∧ (s.chooseImage).port.fault = s.port.fault ∧
    (s.chooseImage).port.faultCount = s.port.faultCount ∧ (s.chooseImage).attn.enables = s.attn.enables ∧
    (s.chooseImage).attn.levels = s.attn.levels ∧ (s.chooseImage).attn.mask = s.attn.mask ∧
    (s.chooseImage).chain.state = s.chain.state ∧ (s.chooseImage).chain.origin = s.chain.origin ∧
    (s.chooseImage).chain.wasDown = s.chain.wasDown ∧ (s.chooseImage).chain.downSince = s.chain.downSince ∧
    (s.chooseImage).chain.errs = s.chain.errs ∧ (s.chooseImage).chain.suspectSince = s.chain.suspectSince ∧
    (s.chooseImage).chain.periodStart = s.chain.periodStart ∧ (s.chooseImage).chain.periodErrs = s.chain.periodErrs ∧
    (s.chooseImage).chain.capTag = s.chain.capTag ∧ (s.chooseImage).chain.exTag = s.chain.exTag ∧
    (s.chooseImage).chain.survey = s.chain.survey ∧ (s.chooseImage).chain.present = s.chain.present ∧
    (s.chooseImage).chain.configured = s.chain.configured ∧ (s.chooseImage).chain.breakLoc = s.chain.breakLoc ∧
    (s.chooseImage).chain.hold = s.chain.hold ∧ (s.chooseImage).chain.line = s.chain.line ∧
    (s.chooseImage).chain.lastSent = s.chain.lastSent ∧ (s.chooseImage).chain.requests = s.chain.requests ∧
    (s.chooseImage).chain.sleepCmd = s.chain.sleepCmd ∧
    (s.chooseImage).chain.wakeAfterSleep = s.chain.wakeAfterSleep ∧ (s.chooseImage).chain.wake = s.chain.wake ∧
    (s.chooseImage).chain.resetTone = s.chain.resetTone ∧ (s.chooseImage).chain.surveyTimer = s.chain.surveyTimer ∧
    (s.chooseImage).chain.firstUp = s.chain.firstUp ∧ (s.chooseImage).chain.surveySlip = s.chain.surveySlip ∧
    (s.chooseImage).chain.balance = s.chain.balance ∧ (s.chooseImage).chain.returning = s.chain.returning ∧
    (s.chooseImage).conv = s.conv ∧ (s.chooseImage).plan = s.plan ∧ (s.chooseImage).sup = s.sup ∧
    (s.chooseImage).ev = s.ev ∧ (s.chooseImage).power = s.power ∧ (s.chooseImage).store.nv = s.store.nv ∧
    (s.chooseImage).store.work = s.store.work ∧ (s.chooseImage).store.running = s.store.running ∧
    (s.chooseImage).store.startUp = s.store.startUp ∧ (s.chooseImage).store.lost = s.store.lost ∧
    (s.chooseImage).store.taken = s.store.taken ∧ (s.chooseImage).store.rangeClamps = s.store.rangeClamps ∧
    (s.chooseImage).store.keySlip = s.store.keySlip ∧ (s.chooseImage).upd = s.upd ∧ (s.chooseImage).free = s.free ∧
    (s.chooseImage).pending = s.pending := by
  simp only [State.chooseImage]; (repeat' split) <;> (first | rfl | simp)

/-- `chooseImage` keeps the canonical form of the memory. -/
@[simp] theorem chooseImage_wf (s : State) (hw : s.mem.wf = true) :
    (s.chooseImage).mem.wf = true := by
  simp only [State.chooseImage]; (repeat' split) <;> first | exact hw | simp (maxDischargeDepth := 20) [hw, store_wf]

/-- What `readStore` leaves alone. -/
@[simp] theorem readStore_frame (s : State) :
    (s.readStore).pins = s.pins ∧ (s.readStore).port.notes = s.port.notes ∧ (s.readStore).port.slots = s.port.slots ∧
    (s.readStore).port.fault = s.port.fault ∧ (s.readStore).port.faultCount = s.port.faultCount ∧
    (s.readStore).attn.enables = s.attn.enables ∧ (s.readStore).attn.levels = s.attn.levels ∧
    (s.readStore).attn.mask = s.attn.mask ∧ (s.readStore).chain.state = s.chain.state ∧
    (s.readStore).chain.origin = s.chain.origin ∧ (s.readStore).chain.wasDown = s.chain.wasDown ∧
    (s.readStore).chain.downSince = s.chain.downSince ∧ (s.readStore).chain.errs = s.chain.errs ∧
    (s.readStore).chain.suspectSince = s.chain.suspectSince ∧ (s.readStore).chain.periodStart = s.chain.periodStart ∧
    (s.readStore).chain.periodErrs = s.chain.periodErrs ∧ (s.readStore).chain.capTag = s.chain.capTag ∧
    (s.readStore).chain.exTag = s.chain.exTag ∧ (s.readStore).chain.survey = s.chain.survey ∧
    (s.readStore).chain.present = s.chain.present ∧ (s.readStore).chain.configured = s.chain.configured ∧
    (s.readStore).chain.breakLoc = s.chain.breakLoc ∧ (s.readStore).chain.hold = s.chain.hold ∧
    (s.readStore).chain.line = s.chain.line ∧ (s.readStore).chain.lastSent = s.chain.lastSent ∧
    (s.readStore).chain.requests = s.chain.requests ∧ (s.readStore).chain.sleepCmd = s.chain.sleepCmd ∧
    (s.readStore).chain.wakeAfterSleep = s.chain.wakeAfterSleep ∧ (s.readStore).chain.wake = s.chain.wake ∧
    (s.readStore).chain.resetTone = s.chain.resetTone ∧ (s.readStore).chain.surveyTimer = s.chain.surveyTimer ∧
    (s.readStore).chain.firstUp = s.chain.firstUp ∧ (s.readStore).chain.surveySlip = s.chain.surveySlip ∧
    (s.readStore).chain.balance = s.chain.balance ∧ (s.readStore).chain.returning = s.chain.returning ∧
    (s.readStore).conv = s.conv ∧ (s.readStore).plan = s.plan ∧ (s.readStore).sup = s.sup ∧ (s.readStore).ev = s.ev ∧
    (s.readStore).power = s.power ∧ (s.readStore).store.nv = s.store.nv ∧
    (s.readStore).store.running = s.store.running ∧ (s.readStore).store.taken = s.store.taken ∧
    (s.readStore).store.rangeClamps = s.store.rangeClamps ∧ (s.readStore).store.keySlip = s.store.keySlip ∧
    (s.readStore).upd = s.upd ∧ (s.readStore).free = s.free ∧ (s.readStore).pending = s.pending := by
  simp only [State.readStore]; (repeat' split) <;> (first | rfl | simp)

/-- `readStore` keeps the canonical form of the memory. -/
@[simp] theorem readStore_wf (s : State) (hw : s.mem.wf = true) :
    (s.readStore).mem.wf = true := by
  simp only [State.readStore]; (repeat' split) <;> first | exact hw | simp (maxDischargeDepth := 20) [hw, store_wf]

/-- What `editModule` leaves alone. -/
@[simp] theorem editModule_frame (s : State) (a : Nat) (f : ModuleEntry → ModuleEntry) :
    (s.editModule a f).mem = s.mem ∧ (s.editModule a f).pins = s.pins ∧ (s.editModule a f).port = s.port ∧
    (s.editModule a f).attn = s.attn ∧ (s.editModule a f).chain.state = s.chain.state ∧
    (s.editModule a f).chain.origin = s.chain.origin ∧ (s.editModule a f).chain.wasDown = s.chain.wasDown ∧
    (s.editModule a f).chain.downSince = s.chain.downSince ∧ (s.editModule a f).chain.errs = s.chain.errs ∧
    (s.editModule a f).chain.suspectSince = s.chain.suspectSince ∧
    (s.editModule a f).chain.periodStart = s.chain.periodStart ∧
    (s.editModule a f).chain.periodErrs = s.chain.periodErrs ∧ (s.editModule a f).chain.capTag = s.chain.capTag ∧
    (s.editModule a f).chain.exTag = s.chain.exTag ∧ (s.editModule a f).chain.survey = s.chain.survey ∧
    (s.editModule a f).chain.present = s.chain.present ∧ (s.editModule a f).chain.configured = s.chain.configured ∧
    (s.editModule a f).chain.breakLoc = s.chain.breakLoc ∧ (s.editModule a f).chain.hold = s.chain.hold ∧
    (s.editModule a f).chain.line = s.chain.line ∧ (s.editModule a f).chain.lastSent = s.chain.lastSent ∧
    (s.editModule a f).chain.requests = s.chain.requests ∧ (s.editModule a f).chain.sleepCmd = s.chain.sleepCmd ∧
    (s.editModule a f).chain.wakeAfterSleep = s.chain.wakeAfterSleep ∧ (s.editModule a f).chain.wake = s.chain.wake ∧
    (s.editModule a f).chain.resetTone = s.chain.resetTone ∧
    (s.editModule a f).chain.surveyTimer = s.chain.surveyTimer ∧ (s.editModule a f).chain.firstUp = s.chain.firstUp ∧
    (s.editModule a f).chain.surveySlip = s.chain.surveySlip ∧ (s.editModule a f).chain.balance = s.chain.balance ∧
    (s.editModule a f).chain.returning = s.chain.returning ∧ (s.editModule a f).conv = s.conv ∧
    (s.editModule a f).plan = s.plan ∧ (s.editModule a f).sup = s.sup ∧ (s.editModule a f).ev = s.ev ∧
    (s.editModule a f).power = s.power ∧ (s.editModule a f).store = s.store ∧ (s.editModule a f).upd = s.upd ∧
    (s.editModule a f).free = s.free ∧ (s.editModule a f).pending = s.pending := by
  simp only [State.editModule]; (repeat' split) <;> (first | rfl | simp)

/-- What `beginExchange` leaves alone. -/
@[simp] theorem beginExchange_frame (s : State) (kind : FrameKind) (addr : Nat) (payload : List Byte) :
    (s.beginExchange kind addr payload).mem = s.mem ∧ (s.beginExchange kind addr payload).pins = s.pins ∧
    (s.beginExchange kind addr payload).port = s.port ∧ (s.beginExchange kind addr payload).attn = s.attn ∧
    (s.beginExchange kind addr payload).chain.state = s.chain.state ∧
    (s.beginExchange kind addr payload).chain.origin = s.chain.origin ∧
    (s.beginExchange kind addr payload).chain.wasDown = s.chain.wasDown ∧
    (s.beginExchange kind addr payload).chain.downSince = s.chain.downSince ∧
    (s.beginExchange kind addr payload).chain.errs = s.chain.errs ∧
    (s.beginExchange kind addr payload).chain.suspectSince = s.chain.suspectSince ∧
    (s.beginExchange kind addr payload).chain.periodStart = s.chain.periodStart ∧
    (s.beginExchange kind addr payload).chain.periodErrs = s.chain.periodErrs ∧
    (s.beginExchange kind addr payload).chain.capTag = s.chain.capTag ∧
    (s.beginExchange kind addr payload).chain.survey = s.chain.survey ∧
    (s.beginExchange kind addr payload).chain.present = s.chain.present ∧
    (s.beginExchange kind addr payload).chain.configured = s.chain.configured ∧
    (s.beginExchange kind addr payload).chain.breakLoc = s.chain.breakLoc ∧
    (s.beginExchange kind addr payload).chain.map = s.chain.map ∧
    (s.beginExchange kind addr payload).chain.hold = s.chain.hold ∧
    (s.beginExchange kind addr payload).chain.lastSent = s.chain.lastSent ∧
    (s.beginExchange kind addr payload).chain.requests = s.chain.requests ∧
    (s.beginExchange kind addr payload).chain.sleepCmd = s.chain.sleepCmd ∧
    (s.beginExchange kind addr payload).chain.wakeAfterSleep = s.chain.wakeAfterSleep ∧
    (s.beginExchange kind addr payload).chain.wake = s.chain.wake ∧
    (s.beginExchange kind addr payload).chain.resetTone = s.chain.resetTone ∧
    (s.beginExchange kind addr payload).chain.surveyTimer = s.chain.surveyTimer ∧
    (s.beginExchange kind addr payload).chain.firstUp = s.chain.firstUp ∧
    (s.beginExchange kind addr payload).chain.surveySlip = s.chain.surveySlip ∧
    (s.beginExchange kind addr payload).chain.balance = s.chain.balance ∧
    (s.beginExchange kind addr payload).chain.returning = s.chain.returning ∧
    (s.beginExchange kind addr payload).conv = s.conv ∧ (s.beginExchange kind addr payload).plan = s.plan ∧
    (s.beginExchange kind addr payload).sup = s.sup ∧ (s.beginExchange kind addr payload).ev = s.ev ∧
    (s.beginExchange kind addr payload).power = s.power ∧ (s.beginExchange kind addr payload).store = s.store ∧
    (s.beginExchange kind addr payload).upd = s.upd ∧ (s.beginExchange kind addr payload).free = s.free ∧
    (s.beginExchange kind addr payload).pending = s.pending := by
  simp only [State.beginExchange]; (repeat' split) <;> (first | rfl | simp)

/-- What `beginCapture` leaves alone. -/
@[simp] theorem beginCapture_frame (s : State) :
    (s.beginCapture).mem = s.mem ∧ (s.beginCapture).pins = s.pins ∧ (s.beginCapture).port = s.port ∧
    (s.beginCapture).attn = s.attn ∧ (s.beginCapture).chain.state = s.chain.state ∧
    (s.beginCapture).chain.origin = s.chain.origin ∧ (s.beginCapture).chain.wasDown = s.chain.wasDown ∧
    (s.beginCapture).chain.downSince = s.chain.downSince ∧ (s.beginCapture).chain.errs = s.chain.errs ∧
    (s.beginCapture).chain.suspectSince = s.chain.suspectSince ∧
    (s.beginCapture).chain.periodStart = s.chain.periodStart ∧
    (s.beginCapture).chain.periodErrs = s.chain.periodErrs ∧ (s.beginCapture).chain.exTag = s.chain.exTag ∧
    (s.beginCapture).chain.survey = s.chain.survey ∧ (s.beginCapture).chain.present = s.chain.present ∧
    (s.beginCapture).chain.configured = s.chain.configured ∧ (s.beginCapture).chain.breakLoc = s.chain.breakLoc ∧
    (s.beginCapture).chain.map = s.chain.map ∧ (s.beginCapture).chain.hold = s.chain.hold ∧
    (s.beginCapture).chain.lastSent = s.chain.lastSent ∧ (s.beginCapture).chain.requests = s.chain.requests ∧
    (s.beginCapture).chain.sleepCmd = s.chain.sleepCmd ∧
    (s.beginCapture).chain.wakeAfterSleep = s.chain.wakeAfterSleep ∧ (s.beginCapture).chain.wake = s.chain.wake ∧
    (s.beginCapture).chain.resetTone = s.chain.resetTone ∧ (s.beginCapture).chain.surveyTimer = s.chain.surveyTimer ∧
    (s.beginCapture).chain.firstUp = s.chain.firstUp ∧ (s.beginCapture).chain.surveySlip = s.chain.surveySlip ∧
    (s.beginCapture).chain.balance = s.chain.balance ∧ (s.beginCapture).chain.returning = s.chain.returning ∧
    (s.beginCapture).conv = s.conv ∧ (s.beginCapture).plan = s.plan ∧ (s.beginCapture).sup = s.sup ∧
    (s.beginCapture).ev = s.ev ∧ (s.beginCapture).power = s.power ∧ (s.beginCapture).store = s.store ∧
    (s.beginCapture).upd = s.upd ∧ (s.beginCapture).free = s.free ∧ (s.beginCapture).pending = s.pending := by
  simp only [State.beginCapture]; (repeat' split) <;> (first | rfl | simp)

/-- What `beginRead` leaves alone. -/
@[simp] theorem beginRead_frame (s : State) (addr tag : Nat) :
    (s.beginRead addr tag).mem = s.mem ∧ (s.beginRead addr tag).pins = s.pins ∧
    (s.beginRead addr tag).port = s.port ∧ (s.beginRead addr tag).attn = s.attn ∧
    (s.beginRead addr tag).chain.state = s.chain.state ∧ (s.beginRead addr tag).chain.origin = s.chain.origin ∧
    (s.beginRead addr tag).chain.wasDown = s.chain.wasDown ∧
    (s.beginRead addr tag).chain.downSince = s.chain.downSince ∧ (s.beginRead addr tag).chain.errs = s.chain.errs ∧
    (s.beginRead addr tag).chain.suspectSince = s.chain.suspectSince ∧
    (s.beginRead addr tag).chain.periodStart = s.chain.periodStart ∧
    (s.beginRead addr tag).chain.periodErrs = s.chain.periodErrs ∧
    (s.beginRead addr tag).chain.capTag = s.chain.capTag ∧ (s.beginRead addr tag).chain.exTag = s.chain.exTag ∧
    (s.beginRead addr tag).chain.survey = s.chain.survey ∧ (s.beginRead addr tag).chain.present = s.chain.present ∧
    (s.beginRead addr tag).chain.configured = s.chain.configured ∧
    (s.beginRead addr tag).chain.breakLoc = s.chain.breakLoc ∧ (s.beginRead addr tag).chain.map = s.chain.map ∧
    (s.beginRead addr tag).chain.hold = s.chain.hold ∧ (s.beginRead addr tag).chain.lastSent = s.chain.lastSent ∧
    (s.beginRead addr tag).chain.requests = s.chain.requests ∧
    (s.beginRead addr tag).chain.sleepCmd = s.chain.sleepCmd ∧
    (s.beginRead addr tag).chain.wakeAfterSleep = s.chain.wakeAfterSleep ∧
    (s.beginRead addr tag).chain.wake = s.chain.wake ∧ (s.beginRead addr tag).chain.resetTone = s.chain.resetTone ∧
    (s.beginRead addr tag).chain.surveyTimer = s.chain.surveyTimer ∧
    (s.beginRead addr tag).chain.firstUp = s.chain.firstUp ∧
    (s.beginRead addr tag).chain.surveySlip = s.chain.surveySlip ∧
    (s.beginRead addr tag).chain.balance = s.chain.balance ∧
    (s.beginRead addr tag).chain.returning = s.chain.returning ∧ (s.beginRead addr tag).conv = s.conv ∧
    (s.beginRead addr tag).plan = s.plan ∧ (s.beginRead addr tag).sup = s.sup ∧ (s.beginRead addr tag).ev = s.ev ∧
    (s.beginRead addr tag).power = s.power ∧ (s.beginRead addr tag).store = s.store ∧
    (s.beginRead addr tag).upd = s.upd ∧ (s.beginRead addr tag).free = s.free ∧
    (s.beginRead addr tag).pending = s.pending := by
  simp only [State.beginRead]; (repeat' split) <;> (first | rfl | simp)

/-- What `sendAtOnce` leaves alone. -/
@[simp] theorem sendAtOnce_frame (s : State) (kind : FrameKind) :
    (s.sendAtOnce kind).mem = s.mem ∧ (s.sendAtOnce kind).pins = s.pins ∧
    (s.sendAtOnce kind).port = s.port ∧ (s.sendAtOnce kind).attn = s.attn ∧
    (s.sendAtOnce kind).chain.state = s.chain.state ∧ (s.sendAtOnce kind).chain.origin = s.chain.origin ∧
    (s.sendAtOnce kind).chain.wasDown = s.chain.wasDown ∧
    (s.sendAtOnce kind).chain.downSince = s.chain.downSince ∧ (s.sendAtOnce kind).chain.errs = s.chain.errs ∧
    (s.sendAtOnce kind).chain.suspectSince = s.chain.suspectSince ∧
    (s.sendAtOnce kind).chain.periodStart = s.chain.periodStart ∧
    (s.sendAtOnce kind).chain.periodErrs = s.chain.periodErrs ∧
    (s.sendAtOnce kind).chain.capTag = s.chain.capTag ∧ (s.sendAtOnce kind).chain.survey = s.chain.survey ∧
    (s.sendAtOnce kind).chain.present = s.chain.present ∧
    (s.sendAtOnce kind).chain.configured = s.chain.configured ∧
    (s.sendAtOnce kind).chain.breakLoc = s.chain.breakLoc ∧ (s.sendAtOnce kind).chain.map = s.chain.map ∧
    (s.sendAtOnce kind).chain.hold = s.chain.hold ∧ (s.sendAtOnce kind).chain.line = s.chain.line ∧
    (s.sendAtOnce kind).chain.requests = s.chain.requests ∧
    (s.sendAtOnce kind).chain.sleepCmd = s.chain.sleepCmd ∧
    (s.sendAtOnce kind).chain.wakeAfterSleep = s.chain.wakeAfterSleep ∧
    (s.sendAtOnce kind).chain.wake = s.chain.wake ∧ (s.sendAtOnce kind).chain.resetTone = s.chain.resetTone ∧
    (s.sendAtOnce kind).chain.surveyTimer = s.chain.surveyTimer ∧
    (s.sendAtOnce kind).chain.firstUp = s.chain.firstUp ∧
    (s.sendAtOnce kind).chain.surveySlip = s.chain.surveySlip ∧
    (s.sendAtOnce kind).chain.balance = s.chain.balance ∧
    (s.sendAtOnce kind).chain.returning = s.chain.returning ∧ (s.sendAtOnce kind).conv = s.conv ∧
    (s.sendAtOnce kind).plan = s.plan ∧ (s.sendAtOnce kind).sup = s.sup ∧ (s.sendAtOnce kind).ev = s.ev ∧
    (s.sendAtOnce kind).power = s.power ∧ (s.sendAtOnce kind).store = s.store ∧
    (s.sendAtOnce kind).upd = s.upd ∧ (s.sendAtOnce kind).free = s.free ∧
    (s.sendAtOnce kind).pending = s.pending := by
  simp only [State.sendAtOnce]; (repeat' split) <;> (first | rfl | simp)

/-- What `countError` leaves alone. -/
@[simp] theorem countError_frame (s : State) (us : Us) :
    (s.countError us).mem = s.mem ∧ (s.countError us).pins = s.pins ∧ (s.countError us).port = s.port ∧
    (s.countError us).attn = s.attn ∧ (s.countError us).chain.origin = s.chain.origin ∧
    (s.countError us).chain.wasDown = s.chain.wasDown ∧ (s.countError us).chain.downSince = s.chain.downSince ∧
    (s.countError us).chain.capTag = s.chain.capTag ∧ (s.countError us).chain.exTag = s.chain.exTag ∧
    (s.countError us).chain.survey = s.chain.survey ∧ (s.countError us).chain.present = s.chain.present ∧
    (s.countError us).chain.configured = s.chain.configured ∧ (s.countError us).chain.breakLoc = s.chain.breakLoc ∧
    (s.countError us).chain.map = s.chain.map ∧ (s.countError us).chain.hold = s.chain.hold ∧
    (s.countError us).chain.line = s.chain.line ∧ (s.countError us).chain.lastSent = s.chain.lastSent ∧
    (s.countError us).chain.requests = s.chain.requests ∧ (s.countError us).chain.sleepCmd = s.chain.sleepCmd ∧
    (s.countError us).chain.wakeAfterSleep = s.chain.wakeAfterSleep ∧ (s.countError us).chain.wake = s.chain.wake ∧
    (s.countError us).chain.resetTone = s.chain.resetTone ∧
    (s.countError us).chain.surveyTimer = s.chain.surveyTimer ∧ (s.countError us).chain.firstUp = s.chain.firstUp ∧
    (s.countError us).chain.surveySlip = s.chain.surveySlip ∧ (s.countError us).chain.balance = s.chain.balance ∧
    (s.countError us).chain.returning = s.chain.returning ∧ (s.countError us).conv = s.conv ∧
    (s.countError us).plan = s.plan ∧ (s.countError us).sup = s.sup ∧ (s.countError us).ev = s.ev ∧
    (s.countError us).power = s.power ∧ (s.countError us).store = s.store ∧ (s.countError us).upd = s.upd ∧
    (s.countError us).free = s.free ∧ (s.countError us).pending = s.pending := by
  simp only [State.countError]; (repeat' split) <;> (first | rfl | simp)

/-- What `enterUp` leaves alone. -/
@[simp] theorem enterUp_frame (s : State) :
    (s.enterUp).mem = s.mem ∧ (s.enterUp).pins = s.pins ∧ (s.enterUp).port = s.port ∧ (s.enterUp).attn = s.attn ∧
    (s.enterUp).chain.origin = s.chain.origin ∧ (s.enterUp).chain.wasDown = s.chain.wasDown ∧
    (s.enterUp).chain.downSince = s.chain.downSince ∧ (s.enterUp).chain.suspectSince = s.chain.suspectSince ∧
    (s.enterUp).chain.periodStart = s.chain.periodStart ∧ (s.enterUp).chain.periodErrs = s.chain.periodErrs ∧
    (s.enterUp).chain.capTag = s.chain.capTag ∧ (s.enterUp).chain.exTag = s.chain.exTag ∧
    (s.enterUp).chain.survey = s.chain.survey ∧ (s.enterUp).chain.present = s.chain.present ∧
    (s.enterUp).chain.configured = s.chain.configured ∧ (s.enterUp).chain.breakLoc = s.chain.breakLoc ∧
    (s.enterUp).chain.map = s.chain.map ∧ (s.enterUp).chain.hold = s.chain.hold ∧
    (s.enterUp).chain.line = s.chain.line ∧ (s.enterUp).chain.lastSent = s.chain.lastSent ∧
    (s.enterUp).chain.requests = s.chain.requests ∧ (s.enterUp).chain.sleepCmd = s.chain.sleepCmd ∧
    (s.enterUp).chain.wakeAfterSleep = s.chain.wakeAfterSleep ∧ (s.enterUp).chain.wake = s.chain.wake ∧
    (s.enterUp).chain.resetTone = s.chain.resetTone ∧ (s.enterUp).chain.surveyTimer = s.chain.surveyTimer ∧
    (s.enterUp).chain.firstUp = s.chain.firstUp ∧ (s.enterUp).chain.surveySlip = s.chain.surveySlip ∧
    (s.enterUp).chain.balance = s.chain.balance ∧ (s.enterUp).chain.returning = s.chain.returning ∧
    (s.enterUp).conv = s.conv ∧ (s.enterUp).plan = s.plan ∧ (s.enterUp).sup = s.sup ∧ (s.enterUp).ev = s.ev ∧
    (s.enterUp).power = s.power ∧ (s.enterUp).store = s.store ∧ (s.enterUp).upd = s.upd ∧ (s.enterUp).free = s.free ∧
    (s.enterUp).pending = s.pending := by
  simp only [State.enterUp]; (repeat' split) <;> (first | rfl | simp)

/-- What `becomeDown` leaves alone. -/
@[simp] theorem becomeDown_frame (s : State) (origin : Option ChainState) (breakLoc : Nat) :
    (s.becomeDown origin breakLoc).pins = s.pins ∧ (s.becomeDown origin breakLoc).port = s.port ∧
    (s.becomeDown origin breakLoc).attn.enables = s.attn.enables ∧
    (s.becomeDown origin breakLoc).attn.levels = s.attn.levels ∧
    (s.becomeDown origin breakLoc).attn.mask = s.attn.mask ∧
    (s.becomeDown origin breakLoc).chain.origin = s.chain.origin ∧
    (s.becomeDown origin breakLoc).chain.errs = s.chain.errs ∧
    (s.becomeDown origin breakLoc).chain.suspectSince = s.chain.suspectSince ∧
    (s.becomeDown origin breakLoc).chain.periodStart = s.chain.periodStart ∧
    (s.becomeDown origin breakLoc).chain.periodErrs = s.chain.periodErrs ∧
    (s.becomeDown origin breakLoc).chain.capTag = s.chain.capTag ∧
    (s.becomeDown origin breakLoc).chain.exTag = s.chain.exTag ∧
    (s.becomeDown origin breakLoc).chain.survey = s.chain.survey ∧
    (s.becomeDown origin breakLoc).chain.present = s.chain.present ∧
    (s.becomeDown origin breakLoc).chain.configured = s.chain.configured ∧
    (s.becomeDown origin breakLoc).chain.breakLoc = s.chain.breakLoc ∧
    (s.becomeDown origin breakLoc).chain.map = s.chain.map ∧
    (s.becomeDown origin breakLoc).chain.hold = s.chain.hold ∧
    (s.becomeDown origin breakLoc).chain.line = s.chain.line ∧
    (s.becomeDown origin breakLoc).chain.lastSent = s.chain.lastSent ∧
    (s.becomeDown origin breakLoc).chain.requests = s.chain.requests ∧
    (s.becomeDown origin breakLoc).chain.sleepCmd = s.chain.sleepCmd ∧
    (s.becomeDown origin breakLoc).chain.wakeAfterSleep = s.chain.wakeAfterSleep ∧
    (s.becomeDown origin breakLoc).chain.wake = s.chain.wake ∧
    (s.becomeDown origin breakLoc).chain.resetTone = s.chain.resetTone ∧
    (s.becomeDown origin breakLoc).chain.firstUp = s.chain.firstUp ∧
    (s.becomeDown origin breakLoc).chain.surveySlip = s.chain.surveySlip ∧
    (s.becomeDown origin breakLoc).chain.balance = s.chain.balance ∧
    (s.becomeDown origin breakLoc).chain.returning = s.chain.returning ∧
    (s.becomeDown origin breakLoc).conv = s.conv ∧ (s.becomeDown origin breakLoc).plan = s.plan ∧
    (s.becomeDown origin breakLoc).sup = s.sup ∧ (s.becomeDown origin breakLoc).ev.slots = s.ev.slots ∧
    (s.becomeDown origin breakLoc).ev.age = s.ev.age ∧ (s.becomeDown origin breakLoc).ev.next = s.ev.next ∧
    (s.becomeDown origin breakLoc).ev.filling = s.ev.filling ∧ (s.becomeDown origin breakLoc).power = s.power ∧
    (s.becomeDown origin breakLoc).store = s.store ∧ (s.becomeDown origin breakLoc).upd = s.upd ∧
    (s.becomeDown origin breakLoc).free = s.free ∧ (s.becomeDown origin breakLoc).pending = s.pending := by
  simp only [State.becomeDown]; (repeat' split) <;> (first | rfl | simp)

/-- `becomeDown` keeps the canonical form of the memory. -/
@[simp] theorem becomeDown_wf (s : State) (origin : Option ChainState) (breakLoc : Nat) (hw : s.mem.wf = true) :
    (s.becomeDown origin breakLoc).mem.wf = true := by
  simp only [State.becomeDown]; (repeat' split) <;> first | exact hw | simp (maxDischargeDepth := 20) [hw, store_wf]

/-- What `request` leaves alone. -/
@[simp] theorem request_frame (s : State) (r : Req) :
    (s.request r).mem = s.mem ∧ (s.request r).pins = s.pins ∧ (s.request r).port = s.port ∧
    (s.request r).attn = s.attn ∧ (s.request r).chain.state = s.chain.state ∧
    (s.request r).chain.origin = s.chain.origin ∧ (s.request r).chain.wasDown = s.chain.wasDown ∧
    (s.request r).chain.downSince = s.chain.downSince ∧ (s.request r).chain.errs = s.chain.errs ∧
    (s.request r).chain.suspectSince = s.chain.suspectSince ∧ (s.request r).chain.periodStart = s.chain.periodStart ∧
    (s.request r).chain.periodErrs = s.chain.periodErrs ∧ (s.request r).chain.capTag = s.chain.capTag ∧
    (s.request r).chain.exTag = s.chain.exTag ∧ (s.request r).chain.survey = s.chain.survey ∧
    (s.request r).chain.present = s.chain.present ∧ (s.request r).chain.configured = s.chain.configured ∧
    (s.request r).chain.breakLoc = s.chain.breakLoc ∧ (s.request r).chain.map = s.chain.map ∧
    (s.request r).chain.hold = s.chain.hold ∧ (s.request r).chain.line = s.chain.line ∧
    (s.request r).chain.lastSent = s.chain.lastSent ∧ (s.request r).chain.sleepCmd = s.chain.sleepCmd ∧
    (s.request r).chain.wakeAfterSleep = s.chain.wakeAfterSleep ∧ (s.request r).chain.wake = s.chain.wake ∧
    (s.request r).chain.resetTone = s.chain.resetTone ∧ (s.request r).chain.surveyTimer = s.chain.surveyTimer ∧
    (s.request r).chain.firstUp = s.chain.firstUp ∧ (s.request r).chain.surveySlip = s.chain.surveySlip ∧
    (s.request r).chain.balance = s.chain.balance ∧ (s.request r).chain.returning = s.chain.returning ∧
    (s.request r).conv = s.conv ∧ (s.request r).plan = s.plan ∧ (s.request r).sup = s.sup ∧ (s.request r).ev = s.ev ∧
    (s.request r).power = s.power ∧ (s.request r).store = s.store ∧ (s.request r).upd = s.upd ∧
    (s.request r).free = s.free ∧ (s.request r).pending = s.pending := by
  simp only [State.request]; (repeat' split) <;> (first | rfl | simp)

/-- What `dropRequest` leaves alone. -/
@[simp] theorem dropRequest_frame (s : State) (r : Req) :
    (s.dropRequest r).mem = s.mem ∧ (s.dropRequest r).pins = s.pins ∧ (s.dropRequest r).port = s.port ∧
    (s.dropRequest r).attn = s.attn ∧ (s.dropRequest r).chain.state = s.chain.state ∧
    (s.dropRequest r).chain.origin = s.chain.origin ∧ (s.dropRequest r).chain.wasDown = s.chain.wasDown ∧
    (s.dropRequest r).chain.downSince = s.chain.downSince ∧ (s.dropRequest r).chain.errs = s.chain.errs ∧
    (s.dropRequest r).chain.suspectSince = s.chain.suspectSince ∧
    (s.dropRequest r).chain.periodStart = s.chain.periodStart ∧
    (s.dropRequest r).chain.periodErrs = s.chain.periodErrs ∧ (s.dropRequest r).chain.capTag = s.chain.capTag ∧
    (s.dropRequest r).chain.exTag = s.chain.exTag ∧ (s.dropRequest r).chain.survey = s.chain.survey ∧
    (s.dropRequest r).chain.present = s.chain.present ∧ (s.dropRequest r).chain.configured = s.chain.configured ∧
    (s.dropRequest r).chain.breakLoc = s.chain.breakLoc ∧ (s.dropRequest r).chain.map = s.chain.map ∧
    (s.dropRequest r).chain.hold = s.chain.hold ∧ (s.dropRequest r).chain.line = s.chain.line ∧
    (s.dropRequest r).chain.lastSent = s.chain.lastSent ∧ (s.dropRequest r).chain.sleepCmd = s.chain.sleepCmd ∧
    (s.dropRequest r).chain.wakeAfterSleep = s.chain.wakeAfterSleep ∧ (s.dropRequest r).chain.wake = s.chain.wake ∧
    (s.dropRequest r).chain.resetTone = s.chain.resetTone ∧
    (s.dropRequest r).chain.surveyTimer = s.chain.surveyTimer ∧ (s.dropRequest r).chain.firstUp = s.chain.firstUp ∧
    (s.dropRequest r).chain.surveySlip = s.chain.surveySlip ∧ (s.dropRequest r).chain.balance = s.chain.balance ∧
    (s.dropRequest r).chain.returning = s.chain.returning ∧ (s.dropRequest r).conv = s.conv ∧
    (s.dropRequest r).plan = s.plan ∧ (s.dropRequest r).sup = s.sup ∧ (s.dropRequest r).ev = s.ev ∧
    (s.dropRequest r).power = s.power ∧ (s.dropRequest r).store = s.store ∧ (s.dropRequest r).upd = s.upd ∧
    (s.dropRequest r).free = s.free ∧ (s.dropRequest r).pending = s.pending := by
  simp only [State.dropRequest]; (repeat' split) <;> (first | rfl | simp)

/-- What `requestSurvey` leaves alone. -/
@[simp] theorem requestSurvey_frame (s : State) :
    (s.requestSurvey).mem = s.mem ∧ (s.requestSurvey).pins = s.pins ∧ (s.requestSurvey).port = s.port ∧
    (s.requestSurvey).attn = s.attn ∧ (s.requestSurvey).chain.state = s.chain.state ∧
    (s.requestSurvey).chain.origin = s.chain.origin ∧ (s.requestSurvey).chain.wasDown = s.chain.wasDown ∧
    (s.requestSurvey).chain.downSince = s.chain.downSince ∧ (s.requestSurvey).chain.errs = s.chain.errs ∧
    (s.requestSurvey).chain.suspectSince = s.chain.suspectSince ∧
    (s.requestSurvey).chain.periodStart = s.chain.periodStart ∧
    (s.requestSurvey).chain.periodErrs = s.chain.periodErrs ∧ (s.requestSurvey).chain.capTag = s.chain.capTag ∧
    (s.requestSurvey).chain.exTag = s.chain.exTag ∧ (s.requestSurvey).chain.survey = s.chain.survey ∧
    (s.requestSurvey).chain.present = s.chain.present ∧ (s.requestSurvey).chain.configured = s.chain.configured ∧
    (s.requestSurvey).chain.breakLoc = s.chain.breakLoc ∧ (s.requestSurvey).chain.map = s.chain.map ∧
    (s.requestSurvey).chain.hold = s.chain.hold ∧ (s.requestSurvey).chain.line = s.chain.line ∧
    (s.requestSurvey).chain.lastSent = s.chain.lastSent ∧ (s.requestSurvey).chain.sleepCmd = s.chain.sleepCmd ∧
    (s.requestSurvey).chain.wakeAfterSleep = s.chain.wakeAfterSleep ∧ (s.requestSurvey).chain.wake = s.chain.wake ∧
    (s.requestSurvey).chain.resetTone = s.chain.resetTone ∧
    (s.requestSurvey).chain.surveyTimer = s.chain.surveyTimer ∧ (s.requestSurvey).chain.firstUp = s.chain.firstUp ∧
    (s.requestSurvey).chain.surveySlip = s.chain.surveySlip ∧ (s.requestSurvey).chain.balance = s.chain.balance ∧
    (s.requestSurvey).chain.returning = s.chain.returning ∧ (s.requestSurvey).conv = s.conv ∧
    (s.requestSurvey).plan = s.plan ∧ (s.requestSurvey).sup = s.sup ∧ (s.requestSurvey).ev = s.ev ∧
    (s.requestSurvey).power = s.power ∧ (s.requestSurvey).store = s.store ∧ (s.requestSurvey).upd = s.upd ∧
    (s.requestSurvey).free = s.free ∧ (s.requestSurvey).pending = s.pending := by
  simp only [State.requestSurvey]; (repeat' split) <;> (first | rfl | simp)

/-- What `endBalance` leaves alone. -/
@[simp] theorem endBalance_frame (s : State) (b : Balance) (code : ResultCode) (cause : Option ResultCause) :
    (s.endBalance b code cause).pins = s.pins ∧ (s.endBalance b code cause).port.notes = s.port.notes ∧
    (s.endBalance b code cause).port.fault = s.port.fault ∧
    (s.endBalance b code cause).port.faultCount = s.port.faultCount ∧
    (s.endBalance b code cause).port.tables = s.port.tables ∧
    (s.endBalance b code cause).port.lastTable = s.port.lastTable ∧
    (s.endBalance b code cause).attn.enables = s.attn.enables ∧
    (s.endBalance b code cause).attn.levels = s.attn.levels ∧ (s.endBalance b code cause).attn.mask = s.attn.mask ∧
    (s.endBalance b code cause).chain.state = s.chain.state ∧
    (s.endBalance b code cause).chain.origin = s.chain.origin ∧
    (s.endBalance b code cause).chain.wasDown = s.chain.wasDown ∧
    (s.endBalance b code cause).chain.downSince = s.chain.downSince ∧
    (s.endBalance b code cause).chain.errs = s.chain.errs ∧
    (s.endBalance b code cause).chain.suspectSince = s.chain.suspectSince ∧
    (s.endBalance b code cause).chain.periodStart = s.chain.periodStart ∧
    (s.endBalance b code cause).chain.periodErrs = s.chain.periodErrs ∧
    (s.endBalance b code cause).chain.capTag = s.chain.capTag ∧
    (s.endBalance b code cause).chain.exTag = s.chain.exTag ∧
    (s.endBalance b code cause).chain.survey = s.chain.survey ∧
    (s.endBalance b code cause).chain.present = s.chain.present ∧
    (s.endBalance b code cause).chain.configured = s.chain.configured ∧
    (s.endBalance b code cause).chain.breakLoc = s.chain.breakLoc ∧
    (s.endBalance b code cause).chain.map = s.chain.map ∧ (s.endBalance b code cause).chain.hold = s.chain.hold ∧
    (s.endBalance b code cause).chain.line = s.chain.line ∧
    (s.endBalance b code cause).chain.lastSent = s.chain.lastSent ∧
    (s.endBalance b code cause).chain.sleepCmd = s.chain.sleepCmd ∧
    (s.endBalance b code cause).chain.wakeAfterSleep = s.chain.wakeAfterSleep ∧
    (s.endBalance b code cause).chain.wake = s.chain.wake ∧
    (s.endBalance b code cause).chain.resetTone = s.chain.resetTone ∧
    (s.endBalance b code cause).chain.surveyTimer = s.chain.surveyTimer ∧
    (s.endBalance b code cause).chain.firstUp = s.chain.firstUp ∧
    (s.endBalance b code cause).chain.surveySlip = s.chain.surveySlip ∧
    (s.endBalance b code cause).chain.returning = s.chain.returning ∧ (s.endBalance b code cause).conv = s.conv ∧
    (s.endBalance b code cause).plan = s.plan ∧ (s.endBalance b code cause).sup = s.sup ∧
    (s.endBalance b code cause).ev = s.ev ∧ (s.endBalance b code cause).power = s.power ∧
    (s.endBalance b code cause).store = s.store ∧ (s.endBalance b code cause).upd = s.upd ∧
    (s.endBalance b code cause).free = s.free ∧ (s.endBalance b code cause).pending = s.pending := by
  simp only [State.endBalance]; (repeat' split) <;> (first | rfl | simp)

/-- `endBalance` keeps the canonical form of the memory. -/
@[simp] theorem endBalance_wf (s : State) (b : Balance) (code : ResultCode) (cause : Option ResultCause) (hw : s.mem.wf = true) :
    (s.endBalance b code cause).mem.wf = true := by
  simp only [State.endBalance]; (repeat' split) <;> first | exact hw | simp (maxDischargeDepth := 20) [hw, store_wf]

/-- What `balanceNext` leaves alone. -/
@[simp] theorem balanceNext_frame (s : State) :
    (s.balanceNext).pins = s.pins ∧ (s.balanceNext).port.notes = s.port.notes ∧
    (s.balanceNext).port.fault = s.port.fault ∧ (s.balanceNext).port.faultCount = s.port.faultCount ∧
    (s.balanceNext).port.tables = s.port.tables ∧ (s.balanceNext).port.lastTable = s.port.lastTable ∧
    (s.balanceNext).attn.enables = s.attn.enables ∧ (s.balanceNext).attn.levels = s.attn.levels ∧
    (s.balanceNext).attn.mask = s.attn.mask ∧ (s.balanceNext).chain.state = s.chain.state ∧
    (s.balanceNext).chain.origin = s.chain.origin ∧ (s.balanceNext).chain.wasDown = s.chain.wasDown ∧
    (s.balanceNext).chain.downSince = s.chain.downSince ∧ (s.balanceNext).chain.errs = s.chain.errs ∧
    (s.balanceNext).chain.suspectSince = s.chain.suspectSince ∧
    (s.balanceNext).chain.periodStart = s.chain.periodStart ∧ (s.balanceNext).chain.periodErrs = s.chain.periodErrs ∧
    (s.balanceNext).chain.capTag = s.chain.capTag ∧ (s.balanceNext).chain.exTag = s.chain.exTag ∧
    (s.balanceNext).chain.survey = s.chain.survey ∧ (s.balanceNext).chain.present = s.chain.present ∧
    (s.balanceNext).chain.configured = s.chain.configured ∧ (s.balanceNext).chain.breakLoc = s.chain.breakLoc ∧
    (s.balanceNext).chain.map = s.chain.map ∧ (s.balanceNext).chain.hold = s.chain.hold ∧
    (s.balanceNext).chain.line = s.chain.line ∧ (s.balanceNext).chain.lastSent = s.chain.lastSent ∧
    (s.balanceNext).chain.sleepCmd = s.chain.sleepCmd ∧
    (s.balanceNext).chain.wakeAfterSleep = s.chain.wakeAfterSleep ∧ (s.balanceNext).chain.wake = s.chain.wake ∧
    (s.balanceNext).chain.resetTone = s.chain.resetTone ∧ (s.balanceNext).chain.surveyTimer = s.chain.surveyTimer ∧
    (s.balanceNext).chain.firstUp = s.chain.firstUp ∧ (s.balanceNext).chain.surveySlip = s.chain.surveySlip ∧
    (s.balanceNext).chain.returning = s.chain.returning ∧ (s.balanceNext).conv = s.conv ∧
    (s.balanceNext).plan = s.plan ∧ (s.balanceNext).sup = s.sup ∧ (s.balanceNext).ev = s.ev ∧
    (s.balanceNext).power = s.power ∧ (s.balanceNext).store = s.store ∧ (s.balanceNext).upd = s.upd ∧
    (s.balanceNext).free = s.free ∧ (s.balanceNext).pending = s.pending := by
  simp only [State.balanceNext]; (repeat' split) <;> (first | rfl | simp)

/-- `balanceNext` keeps the canonical form of the memory. -/
@[simp] theorem balanceNext_wf (s : State) (hw : s.mem.wf = true) :
    (s.balanceNext).mem.wf = true := by
  simp only [State.balanceNext]; (repeat' split) <;> first | exact hw | simp (maxDischargeDepth := 20) [hw, store_wf]

/-- What `balanceReact` leaves alone. -/
@[simp] theorem balanceReact_frame (s : State) :
    (s.balanceReact).pins = s.pins ∧ (s.balanceReact).port.notes = s.port.notes ∧
    (s.balanceReact).port.fault = s.port.fault ∧ (s.balanceReact).port.faultCount = s.port.faultCount ∧
    (s.balanceReact).port.tables = s.port.tables ∧ (s.balanceReact).port.lastTable = s.port.lastTable ∧
    (s.balanceReact).attn.enables = s.attn.enables ∧ (s.balanceReact).attn.levels = s.attn.levels ∧
    (s.balanceReact).attn.mask = s.attn.mask ∧ (s.balanceReact).chain.state = s.chain.state ∧
    (s.balanceReact).chain.origin = s.chain.origin ∧ (s.balanceReact).chain.wasDown = s.chain.wasDown ∧
    (s.balanceReact).chain.downSince = s.chain.downSince ∧ (s.balanceReact).chain.errs = s.chain.errs ∧
    (s.balanceReact).chain.suspectSince = s.chain.suspectSince ∧
    (s.balanceReact).chain.periodStart = s.chain.periodStart ∧
    (s.balanceReact).chain.periodErrs = s.chain.periodErrs ∧ (s.balanceReact).chain.capTag = s.chain.capTag ∧
    (s.balanceReact).chain.exTag = s.chain.exTag ∧ (s.balanceReact).chain.survey = s.chain.survey ∧
    (s.balanceReact).chain.present = s.chain.present ∧ (s.balanceReact).chain.configured = s.chain.configured ∧
    (s.balanceReact).chain.breakLoc = s.chain.breakLoc ∧ (s.balanceReact).chain.map = s.chain.map ∧
    (s.balanceReact).chain.hold = s.chain.hold ∧ (s.balanceReact).chain.line = s.chain.line ∧
    (s.balanceReact).chain.lastSent = s.chain.lastSent ∧ (s.balanceReact).chain.sleepCmd = s.chain.sleepCmd ∧
    (s.balanceReact).chain.wakeAfterSleep = s.chain.wakeAfterSleep ∧ (s.balanceReact).chain.wake = s.chain.wake ∧
    (s.balanceReact).chain.resetTone = s.chain.resetTone ∧ (s.balanceReact).chain.surveyTimer = s.chain.surveyTimer ∧
    (s.balanceReact).chain.firstUp = s.chain.firstUp ∧ (s.balanceReact).chain.surveySlip = s.chain.surveySlip ∧
    (s.balanceReact).chain.returning = s.chain.returning ∧ (s.balanceReact).conv = s.conv ∧
    (s.balanceReact).plan = s.plan ∧ (s.balanceReact).sup = s.sup ∧ (s.balanceReact).ev = s.ev ∧
    (s.balanceReact).power = s.power ∧ (s.balanceReact).store = s.store ∧ (s.balanceReact).upd = s.upd ∧
    (s.balanceReact).free = s.free ∧ (s.balanceReact).pending = s.pending := by
  simp only [State.balanceReact]; (repeat' split) <;> (first | rfl | simp)

/-- `balanceReact` keeps the canonical form of the memory. -/
@[simp] theorem balanceReact_wf (s : State) (hw : s.mem.wf = true) :
    (s.balanceReact).mem.wf = true := by
  simp only [State.balanceReact]; (repeat' split) <;> first | exact hw | simp (maxDischargeDepth := 20) [hw, store_wf]

/-- What `askStop` leaves alone. -/
@[simp] theorem askStop_frame (s : State) :
    (s.askStop).pins = s.pins ∧ (s.askStop).port.notes = s.port.notes ∧ (s.askStop).port.fault = s.port.fault ∧
    (s.askStop).port.faultCount = s.port.faultCount ∧ (s.askStop).port.tables = s.port.tables ∧
    (s.askStop).port.lastTable = s.port.lastTable ∧ (s.askStop).attn.enables = s.attn.enables ∧
    (s.askStop).attn.levels = s.attn.levels ∧ (s.askStop).attn.mask = s.attn.mask ∧
    (s.askStop).chain.state = s.chain.state ∧ (s.askStop).chain.origin = s.chain.origin ∧
    (s.askStop).chain.wasDown = s.chain.wasDown ∧ (s.askStop).chain.downSince = s.chain.downSince ∧
    (s.askStop).chain.errs = s.chain.errs ∧ (s.askStop).chain.suspectSince = s.chain.suspectSince ∧
    (s.askStop).chain.periodStart = s.chain.periodStart ∧ (s.askStop).chain.periodErrs = s.chain.periodErrs ∧
    (s.askStop).chain.capTag = s.chain.capTag ∧ (s.askStop).chain.exTag = s.chain.exTag ∧
    (s.askStop).chain.survey = s.chain.survey ∧ (s.askStop).chain.present = s.chain.present ∧
    (s.askStop).chain.configured = s.chain.configured ∧ (s.askStop).chain.breakLoc = s.chain.breakLoc ∧
    (s.askStop).chain.map = s.chain.map ∧ (s.askStop).chain.hold = s.chain.hold ∧
    (s.askStop).chain.line = s.chain.line ∧ (s.askStop).chain.lastSent = s.chain.lastSent ∧
    (s.askStop).chain.sleepCmd = s.chain.sleepCmd ∧ (s.askStop).chain.wakeAfterSleep = s.chain.wakeAfterSleep ∧
    (s.askStop).chain.wake = s.chain.wake ∧ (s.askStop).chain.resetTone = s.chain.resetTone ∧
    (s.askStop).chain.surveyTimer = s.chain.surveyTimer ∧ (s.askStop).chain.firstUp = s.chain.firstUp ∧
    (s.askStop).chain.surveySlip = s.chain.surveySlip ∧ (s.askStop).chain.returning = s.chain.returning ∧
    (s.askStop).conv = s.conv ∧ (s.askStop).plan = s.plan ∧ (s.askStop).sup = s.sup ∧ (s.askStop).ev = s.ev ∧
    (s.askStop).power = s.power ∧ (s.askStop).store = s.store ∧ (s.askStop).upd = s.upd ∧ (s.askStop).free = s.free ∧
    (s.askStop).pending = s.pending := by
  simp only [State.askStop]; (repeat' split) <;> (first | rfl | simp)

/-- `askStop` keeps the canonical form of the memory. -/
@[simp] theorem askStop_wf (s : State) (hw : s.mem.wf = true) :
    (s.askStop).mem.wf = true := by
  simp only [State.askStop]; (repeat' split) <;> first | exact hw | simp (maxDischargeDepth := 20) [hw, store_wf]

/-- What `clearBalancing` leaves alone. -/
@[simp] theorem clearBalancing_frame (s : State) :
    (s.clearBalancing).mem = s.mem ∧ (s.clearBalancing).pins = s.pins ∧ (s.clearBalancing).port = s.port ∧
    (s.clearBalancing).attn = s.attn ∧ (s.clearBalancing).chain.state = s.chain.state ∧
    (s.clearBalancing).chain.origin = s.chain.origin ∧ (s.clearBalancing).chain.wasDown = s.chain.wasDown ∧
    (s.clearBalancing).chain.downSince = s.chain.downSince ∧ (s.clearBalancing).chain.errs = s.chain.errs ∧
    (s.clearBalancing).chain.suspectSince = s.chain.suspectSince ∧
    (s.clearBalancing).chain.periodStart = s.chain.periodStart ∧
    (s.clearBalancing).chain.periodErrs = s.chain.periodErrs ∧ (s.clearBalancing).chain.capTag = s.chain.capTag ∧
    (s.clearBalancing).chain.exTag = s.chain.exTag ∧ (s.clearBalancing).chain.survey = s.chain.survey ∧
    (s.clearBalancing).chain.present = s.chain.present ∧ (s.clearBalancing).chain.configured = s.chain.configured ∧
    (s.clearBalancing).chain.breakLoc = s.chain.breakLoc ∧ (s.clearBalancing).chain.hold = s.chain.hold ∧
    (s.clearBalancing).chain.line = s.chain.line ∧ (s.clearBalancing).chain.lastSent = s.chain.lastSent ∧
    (s.clearBalancing).chain.requests = s.chain.requests ∧ (s.clearBalancing).chain.sleepCmd = s.chain.sleepCmd ∧
    (s.clearBalancing).chain.wakeAfterSleep = s.chain.wakeAfterSleep ∧ (s.clearBalancing).chain.wake = s.chain.wake ∧
    (s.clearBalancing).chain.resetTone = s.chain.resetTone ∧
    (s.clearBalancing).chain.surveyTimer = s.chain.surveyTimer ∧ (s.clearBalancing).chain.firstUp = s.chain.firstUp ∧
    (s.clearBalancing).chain.surveySlip = s.chain.surveySlip ∧ (s.clearBalancing).chain.balance = s.chain.balance ∧
    (s.clearBalancing).chain.returning = s.chain.returning ∧ (s.clearBalancing).conv = s.conv ∧
    (s.clearBalancing).plan = s.plan ∧ (s.clearBalancing).sup = s.sup ∧ (s.clearBalancing).ev = s.ev ∧
    (s.clearBalancing).power = s.power ∧ (s.clearBalancing).store = s.store ∧ (s.clearBalancing).upd = s.upd ∧
    (s.clearBalancing).free = s.free ∧ (s.clearBalancing).pending = s.pending := by
  simp only [State.clearBalancing]; (repeat' split) <;> (first | rfl | simp)

/-- What `balanceAnswered` leaves alone. -/
@[simp] theorem balanceAnswered_frame (s : State) (acked : Bool) :
    (s.balanceAnswered acked).pins = s.pins ∧ (s.balanceAnswered acked).port.notes = s.port.notes ∧
    (s.balanceAnswered acked).port.fault = s.port.fault ∧
    (s.balanceAnswered acked).port.faultCount = s.port.faultCount ∧
    (s.balanceAnswered acked).port.tables = s.port.tables ∧
    (s.balanceAnswered acked).port.lastTable = s.port.lastTable ∧
    (s.balanceAnswered acked).attn.enables = s.attn.enables ∧ (s.balanceAnswered acked).attn.levels = s.attn.levels ∧
    (s.balanceAnswered acked).attn.mask = s.attn.mask ∧ (s.balanceAnswered acked).chain.state = s.chain.state ∧
    (s.balanceAnswered acked).chain.origin = s.chain.origin ∧
    (s.balanceAnswered acked).chain.wasDown = s.chain.wasDown ∧
    (s.balanceAnswered acked).chain.downSince = s.chain.downSince ∧
    (s.balanceAnswered acked).chain.errs = s.chain.errs ∧
    (s.balanceAnswered acked).chain.suspectSince = s.chain.suspectSince ∧
    (s.balanceAnswered acked).chain.periodStart = s.chain.periodStart ∧
    (s.balanceAnswered acked).chain.periodErrs = s.chain.periodErrs ∧
    (s.balanceAnswered acked).chain.capTag = s.chain.capTag ∧ (s.balanceAnswered acked).chain.exTag = s.chain.exTag ∧
    (s.balanceAnswered acked).chain.survey = s.chain.survey ∧
    (s.balanceAnswered acked).chain.present = s.chain.present ∧
    (s.balanceAnswered acked).chain.configured = s.chain.configured ∧
    (s.balanceAnswered acked).chain.breakLoc = s.chain.breakLoc ∧
    (s.balanceAnswered acked).chain.hold = s.chain.hold ∧ (s.balanceAnswered acked).chain.line = s.chain.line ∧
    (s.balanceAnswered acked).chain.lastSent = s.chain.lastSent ∧
    (s.balanceAnswered acked).chain.sleepCmd = s.chain.sleepCmd ∧
    (s.balanceAnswered acked).chain.wakeAfterSleep = s.chain.wakeAfterSleep ∧
    (s.balanceAnswered acked).chain.wake = s.chain.wake ∧
    (s.balanceAnswered acked).chain.resetTone = s.chain.resetTone ∧
    (s.balanceAnswered acked).chain.surveyTimer = s.chain.surveyTimer ∧
    (s.balanceAnswered acked).chain.firstUp = s.chain.firstUp ∧
    (s.balanceAnswered acked).chain.surveySlip = s.chain.surveySlip ∧
    (s.balanceAnswered acked).chain.returning = s.chain.returning ∧ (s.balanceAnswered acked).conv = s.conv ∧
    (s.balanceAnswered acked).plan = s.plan ∧ (s.balanceAnswered acked).sup = s.sup ∧
    (s.balanceAnswered acked).ev = s.ev ∧ (s.balanceAnswered acked).power = s.power ∧
    (s.balanceAnswered acked).store = s.store ∧ (s.balanceAnswered acked).upd = s.upd ∧
    (s.balanceAnswered acked).free = s.free ∧ (s.balanceAnswered acked).pending = s.pending := by
  simp only [State.balanceAnswered]; (repeat' split) <;> (first | rfl | simp)

/-- `balanceAnswered` keeps the canonical form of the memory. -/
@[simp] theorem balanceAnswered_wf (s : State) (acked : Bool) (hw : s.mem.wf = true) :
    (s.balanceAnswered acked).mem.wf = true := by
  simp only [State.balanceAnswered]; (repeat' split) <;> first | exact hw | simp (maxDischargeDepth := 20) [hw, store_wf]

/-- What `raiseFault` leaves alone. -/
@[simp] theorem raiseFault_frame (was : ModuleEntry) (cause : Option FaultCause) (s : State) :
    (raiseFault was cause s).pins = s.pins ∧ (raiseFault was cause s).port = s.port ∧
    (raiseFault was cause s).attn.enables = s.attn.enables ∧ (raiseFault was cause s).attn.levels = s.attn.levels ∧
    (raiseFault was cause s).attn.mask = s.attn.mask ∧ (raiseFault was cause s).chain = s.chain ∧
    (raiseFault was cause s).conv = s.conv ∧ (raiseFault was cause s).plan = s.plan ∧
    (raiseFault was cause s).sup = s.sup ∧ (raiseFault was cause s).ev = s.ev ∧
    (raiseFault was cause s).power = s.power ∧ (raiseFault was cause s).store = s.store ∧
    (raiseFault was cause s).upd = s.upd ∧ (raiseFault was cause s).free = s.free ∧
    (raiseFault was cause s).pending = s.pending := by
  simp only [raiseFault]; (repeat' split) <;> (first | rfl | simp)

/-- `raiseFault` keeps the canonical form of the memory. -/
@[simp] theorem raiseFault_wf (was : ModuleEntry) (cause : Option FaultCause) (s : State) (hw : s.mem.wf = true) :
    (raiseFault was cause s).mem.wf = true := by
  simp only [raiseFault]; (repeat' split) <;> first | exact hw | simp (maxDischargeDepth := 20) [hw, store_wf]

/-- What `goodReply` leaves alone. -/
@[simp] theorem goodReply_frame (s : State) (a : Nat) (status : ModuleStatus) (version : Half) :
    (s.goodReply a status version).pins = s.pins ∧ (s.goodReply a status version).port = s.port ∧
    (s.goodReply a status version).attn.enables = s.attn.enables ∧
    (s.goodReply a status version).attn.levels = s.attn.levels ∧
    (s.goodReply a status version).attn.mask = s.attn.mask ∧
    (s.goodReply a status version).chain.state = s.chain.state ∧
    (s.goodReply a status version).chain.origin = s.chain.origin ∧
    (s.goodReply a status version).chain.wasDown = s.chain.wasDown ∧
    (s.goodReply a status version).chain.downSince = s.chain.downSince ∧
    (s.goodReply a status version).chain.errs = s.chain.errs ∧
    (s.goodReply a status version).chain.suspectSince = s.chain.suspectSince ∧
    (s.goodReply a status version).chain.periodStart = s.chain.periodStart ∧
    (s.goodReply a status version).chain.periodErrs = s.chain.periodErrs ∧
    (s.goodReply a status version).chain.capTag = s.chain.capTag ∧
    (s.goodReply a status version).chain.exTag = s.chain.exTag ∧
    (s.goodReply a status version).chain.survey = s.chain.survey ∧
    (s.goodReply a status version).chain.present = s.chain.present ∧
    (s.goodReply a status version).chain.configured = s.chain.configured ∧
    (s.goodReply a status version).chain.breakLoc = s.chain.breakLoc ∧
    (s.goodReply a status version).chain.hold = s.chain.hold ∧
    (s.goodReply a status version).chain.line = s.chain.line ∧
    (s.goodReply a status version).chain.lastSent = s.chain.lastSent ∧
    (s.goodReply a status version).chain.requests = s.chain.requests ∧
    (s.goodReply a status version).chain.sleepCmd = s.chain.sleepCmd ∧
    (s.goodReply a status version).chain.wakeAfterSleep = s.chain.wakeAfterSleep ∧
    (s.goodReply a status version).chain.wake = s.chain.wake ∧
    (s.goodReply a status version).chain.resetTone = s.chain.resetTone ∧
    (s.goodReply a status version).chain.surveyTimer = s.chain.surveyTimer ∧
    (s.goodReply a status version).chain.firstUp = s.chain.firstUp ∧
    (s.goodReply a status version).chain.surveySlip = s.chain.surveySlip ∧
    (s.goodReply a status version).chain.balance = s.chain.balance ∧
    (s.goodReply a status version).chain.returning = s.chain.returning ∧
    (s.goodReply a status version).conv = s.conv ∧ (s.goodReply a status version).plan = s.plan ∧
    (s.goodReply a status version).sup = s.sup ∧ (s.goodReply a status version).ev = s.ev ∧
    (s.goodReply a status version).power = s.power ∧ (s.goodReply a status version).store = s.store ∧
    (s.goodReply a status version).upd = s.upd ∧ (s.goodReply a status version).free = s.free ∧
    (s.goodReply a status version).pending = s.pending := by
  simp only [State.goodReply]; (repeat' split) <;> (first | rfl | simp)

/-- `goodReply` keeps the canonical form of the memory. -/
@[simp] theorem goodReply_wf (s : State) (a : Nat) (status : ModuleStatus) (version : Half) (hw : s.mem.wf = true) :
    (s.goodReply a status version).mem.wf = true := by
  simp only [State.goodReply]; (repeat' split) <;> first | exact hw | simp (maxDischargeDepth := 20) [hw, store_wf]

/-- What `miss` leaves alone. -/
@[simp] theorem miss_frame (s : State) (a : Nat) :
    (s.miss a).pins = s.pins ∧ (s.miss a).port = s.port ∧ (s.miss a).attn.enables = s.attn.enables ∧
    (s.miss a).attn.levels = s.attn.levels ∧ (s.miss a).attn.mask = s.attn.mask ∧
    (s.miss a).chain.state = s.chain.state ∧ (s.miss a).chain.origin = s.chain.origin ∧
    (s.miss a).chain.wasDown = s.chain.wasDown ∧ (s.miss a).chain.downSince = s.chain.downSince ∧
    (s.miss a).chain.errs = s.chain.errs ∧ (s.miss a).chain.suspectSince = s.chain.suspectSince ∧
    (s.miss a).chain.periodStart = s.chain.periodStart ∧ (s.miss a).chain.periodErrs = s.chain.periodErrs ∧
    (s.miss a).chain.capTag = s.chain.capTag ∧ (s.miss a).chain.exTag = s.chain.exTag ∧
    (s.miss a).chain.survey = s.chain.survey ∧ (s.miss a).chain.present = s.chain.present ∧
    (s.miss a).chain.configured = s.chain.configured ∧ (s.miss a).chain.breakLoc = s.chain.breakLoc ∧
    (s.miss a).chain.hold = s.chain.hold ∧ (s.miss a).chain.line = s.chain.line ∧
    (s.miss a).chain.lastSent = s.chain.lastSent ∧ (s.miss a).chain.requests = s.chain.requests ∧
    (s.miss a).chain.sleepCmd = s.chain.sleepCmd ∧ (s.miss a).chain.wakeAfterSleep = s.chain.wakeAfterSleep ∧
    (s.miss a).chain.wake = s.chain.wake ∧ (s.miss a).chain.resetTone = s.chain.resetTone ∧
    (s.miss a).chain.surveyTimer = s.chain.surveyTimer ∧ (s.miss a).chain.firstUp = s.chain.firstUp ∧
    (s.miss a).chain.surveySlip = s.chain.surveySlip ∧ (s.miss a).chain.balance = s.chain.balance ∧
    (s.miss a).chain.returning = s.chain.returning ∧ (s.miss a).conv = s.conv ∧ (s.miss a).plan = s.plan ∧
    (s.miss a).sup = s.sup ∧ (s.miss a).ev = s.ev ∧ (s.miss a).power = s.power ∧ (s.miss a).store = s.store ∧
    (s.miss a).upd = s.upd ∧ (s.miss a).free = s.free ∧ (s.miss a).pending = s.pending := by
  simp only [State.miss]; (repeat' split) <;> (first | rfl | simp)

/-- `miss` keeps the canonical form of the memory. -/
@[simp] theorem miss_wf (s : State) (a : Nat) (hw : s.mem.wf = true) :
    (s.miss a).mem.wf = true := by
  simp only [State.miss]; (repeat' split) <;> first | exact hw | simp (maxDischargeDepth := 20) [hw, store_wf]

/-- What `backInService` leaves alone. -/
@[simp] theorem backInService_frame (s : State) (a : Nat) :
    (s.backInService a).mem = s.mem ∧ (s.backInService a).pins = s.pins ∧ (s.backInService a).port = s.port ∧
    (s.backInService a).attn = s.attn ∧ (s.backInService a).chain.state = s.chain.state ∧
    (s.backInService a).chain.origin = s.chain.origin ∧ (s.backInService a).chain.wasDown = s.chain.wasDown ∧
    (s.backInService a).chain.downSince = s.chain.downSince ∧ (s.backInService a).chain.errs = s.chain.errs ∧
    (s.backInService a).chain.suspectSince = s.chain.suspectSince ∧
    (s.backInService a).chain.periodStart = s.chain.periodStart ∧
    (s.backInService a).chain.periodErrs = s.chain.periodErrs ∧ (s.backInService a).chain.capTag = s.chain.capTag ∧
    (s.backInService a).chain.exTag = s.chain.exTag ∧ (s.backInService a).chain.survey = s.chain.survey ∧
    (s.backInService a).chain.present = s.chain.present ∧ (s.backInService a).chain.configured = s.chain.configured ∧
    (s.backInService a).chain.breakLoc = s.chain.breakLoc ∧ (s.backInService a).chain.hold = s.chain.hold ∧
    (s.backInService a).chain.line = s.chain.line ∧ (s.backInService a).chain.lastSent = s.chain.lastSent ∧
    (s.backInService a).chain.requests = s.chain.requests ∧ (s.backInService a).chain.sleepCmd = s.chain.sleepCmd ∧
    (s.backInService a).chain.wakeAfterSleep = s.chain.wakeAfterSleep ∧
    (s.backInService a).chain.wake = s.chain.wake ∧ (s.backInService a).chain.resetTone = s.chain.resetTone ∧
    (s.backInService a).chain.surveyTimer = s.chain.surveyTimer ∧
    (s.backInService a).chain.firstUp = s.chain.firstUp ∧ (s.backInService a).chain.surveySlip = s.chain.surveySlip ∧
    (s.backInService a).chain.balance = s.chain.balance ∧ (s.backInService a).conv = s.conv ∧
    (s.backInService a).plan = s.plan ∧ (s.backInService a).sup = s.sup ∧ (s.backInService a).ev = s.ev ∧
    (s.backInService a).power = s.power ∧ (s.backInService a).store = s.store ∧ (s.backInService a).upd = s.upd ∧
    (s.backInService a).free = s.free ∧ (s.backInService a).pending = s.pending := by
  simp only [State.backInService]; (repeat' split) <;> (first | rfl | simp)

/-- What `outOfService` leaves alone. -/
@[simp] theorem outOfService_frame (s : State) (a : Nat) :
    (s.outOfService a).mem = s.mem ∧ (s.outOfService a).pins = s.pins ∧ (s.outOfService a).port = s.port ∧
    (s.outOfService a).attn = s.attn ∧ (s.outOfService a).chain.state = s.chain.state ∧
    (s.outOfService a).chain.origin = s.chain.origin ∧ (s.outOfService a).chain.wasDown = s.chain.wasDown ∧
    (s.outOfService a).chain.downSince = s.chain.downSince ∧ (s.outOfService a).chain.errs = s.chain.errs ∧
    (s.outOfService a).chain.suspectSince = s.chain.suspectSince ∧
    (s.outOfService a).chain.periodStart = s.chain.periodStart ∧
    (s.outOfService a).chain.periodErrs = s.chain.periodErrs ∧ (s.outOfService a).chain.capTag = s.chain.capTag ∧
    (s.outOfService a).chain.exTag = s.chain.exTag ∧ (s.outOfService a).chain.survey = s.chain.survey ∧
    (s.outOfService a).chain.present = s.chain.present ∧ (s.outOfService a).chain.configured = s.chain.configured ∧
    (s.outOfService a).chain.breakLoc = s.chain.breakLoc ∧ (s.outOfService a).chain.hold = s.chain.hold ∧
    (s.outOfService a).chain.line = s.chain.line ∧ (s.outOfService a).chain.lastSent = s.chain.lastSent ∧
    (s.outOfService a).chain.requests = s.chain.requests ∧ (s.outOfService a).chain.sleepCmd = s.chain.sleepCmd ∧
    (s.outOfService a).chain.wakeAfterSleep = s.chain.wakeAfterSleep ∧ (s.outOfService a).chain.wake = s.chain.wake ∧
    (s.outOfService a).chain.resetTone = s.chain.resetTone ∧
    (s.outOfService a).chain.surveyTimer = s.chain.surveyTimer ∧ (s.outOfService a).chain.firstUp = s.chain.firstUp ∧
    (s.outOfService a).chain.surveySlip = s.chain.surveySlip ∧ (s.outOfService a).chain.balance = s.chain.balance ∧
    (s.outOfService a).chain.returning = s.chain.returning ∧ (s.outOfService a).conv = s.conv ∧
    (s.outOfService a).plan = s.plan ∧ (s.outOfService a).sup = s.sup ∧ (s.outOfService a).ev = s.ev ∧
    (s.outOfService a).power = s.power ∧ (s.outOfService a).store = s.store ∧ (s.outOfService a).upd = s.upd ∧
    (s.outOfService a).free = s.free ∧ (s.outOfService a).pending = s.pending := by
  simp only [State.outOfService]; (repeat' split) <;> (first | rfl | simp)

/-- What `handBack` leaves alone. -/
@[simp] theorem handBack_frame (s : State) (a : Nat) :
    (s.handBack a).mem = s.mem ∧ (s.handBack a).pins = s.pins ∧ (s.handBack a).port = s.port ∧
    (s.handBack a).attn = s.attn ∧ (s.handBack a).chain.state = s.chain.state ∧
    (s.handBack a).chain.origin = s.chain.origin ∧ (s.handBack a).chain.wasDown = s.chain.wasDown ∧
    (s.handBack a).chain.downSince = s.chain.downSince ∧ (s.handBack a).chain.errs = s.chain.errs ∧
    (s.handBack a).chain.suspectSince = s.chain.suspectSince ∧
    (s.handBack a).chain.periodStart = s.chain.periodStart ∧ (s.handBack a).chain.periodErrs = s.chain.periodErrs ∧
    (s.handBack a).chain.capTag = s.chain.capTag ∧ (s.handBack a).chain.exTag = s.chain.exTag ∧
    (s.handBack a).chain.survey = s.chain.survey ∧ (s.handBack a).chain.present = s.chain.present ∧
    (s.handBack a).chain.configured = s.chain.configured ∧ (s.handBack a).chain.breakLoc = s.chain.breakLoc ∧
    (s.handBack a).chain.map = s.chain.map ∧ (s.handBack a).chain.hold = s.chain.hold ∧
    (s.handBack a).chain.line = s.chain.line ∧ (s.handBack a).chain.lastSent = s.chain.lastSent ∧
    (s.handBack a).chain.requests = s.chain.requests ∧ (s.handBack a).chain.sleepCmd = s.chain.sleepCmd ∧
    (s.handBack a).chain.wakeAfterSleep = s.chain.wakeAfterSleep ∧ (s.handBack a).chain.wake = s.chain.wake ∧
    (s.handBack a).chain.resetTone = s.chain.resetTone ∧ (s.handBack a).chain.surveyTimer = s.chain.surveyTimer ∧
    (s.handBack a).chain.firstUp = s.chain.firstUp ∧ (s.handBack a).chain.surveySlip = s.chain.surveySlip ∧
    (s.handBack a).chain.balance = s.chain.balance ∧ (s.handBack a).conv = s.conv ∧ (s.handBack a).plan = s.plan ∧
    (s.handBack a).sup = s.sup ∧ (s.handBack a).ev = s.ev ∧ (s.handBack a).power = s.power ∧
    (s.handBack a).store = s.store ∧ (s.handBack a).upd = s.upd ∧ (s.handBack a).free = s.free ∧
    (s.handBack a).pending = s.pending := by
  simp only [State.handBack]; (repeat' split) <;> (first | rfl | simp)

/-- What `echoed` leaves alone. -/
@[simp] theorem echoed_frame (s : State) (a : Nat) (version : Half) :
    (s.echoed a version).mem = s.mem ∧ (s.echoed a version).pins = s.pins ∧ (s.echoed a version).port = s.port ∧
    (s.echoed a version).attn = s.attn ∧ (s.echoed a version).chain.state = s.chain.state ∧
    (s.echoed a version).chain.origin = s.chain.origin ∧ (s.echoed a version).chain.wasDown = s.chain.wasDown ∧
    (s.echoed a version).chain.downSince = s.chain.downSince ∧ (s.echoed a version).chain.errs = s.chain.errs ∧
    (s.echoed a version).chain.suspectSince = s.chain.suspectSince ∧
    (s.echoed a version).chain.periodStart = s.chain.periodStart ∧
    (s.echoed a version).chain.periodErrs = s.chain.periodErrs ∧ (s.echoed a version).chain.capTag = s.chain.capTag ∧
    (s.echoed a version).chain.exTag = s.chain.exTag ∧ (s.echoed a version).chain.survey = s.chain.survey ∧
    (s.echoed a version).chain.present = s.chain.present ∧
    (s.echoed a version).chain.configured = s.chain.configured ∧
    (s.echoed a version).chain.breakLoc = s.chain.breakLoc ∧ (s.echoed a version).chain.hold = s.chain.hold ∧
    (s.echoed a version).chain.line = s.chain.line ∧ (s.echoed a version).chain.lastSent = s.chain.lastSent ∧
    (s.echoed a version).chain.requests = s.chain.requests ∧ (s.echoed a version).chain.sleepCmd = s.chain.sleepCmd ∧
    (s.echoed a version).chain.wakeAfterSleep = s.chain.wakeAfterSleep ∧
    (s.echoed a version).chain.wake = s.chain.wake ∧ (s.echoed a version).chain.resetTone = s.chain.resetTone ∧
    (s.echoed a version).chain.surveyTimer = s.chain.surveyTimer ∧
    (s.echoed a version).chain.firstUp = s.chain.firstUp ∧
    (s.echoed a version).chain.surveySlip = s.chain.surveySlip ∧
    (s.echoed a version).chain.balance = s.chain.balance ∧ (s.echoed a version).conv = s.conv ∧
    (s.echoed a version).plan = s.plan ∧ (s.echoed a version).sup = s.sup ∧ (s.echoed a version).ev = s.ev ∧
    (s.echoed a version).power = s.power ∧ (s.echoed a version).store = s.store ∧ (s.echoed a version).upd = s.upd ∧
    (s.echoed a version).free = s.free ∧ (s.echoed a version).pending = s.pending := by
  simp only [State.echoed]; (repeat' split) <;> (first | rfl | simp)

/-- What `compare` leaves alone. -/
@[simp] theorem compare_frame (s : State) (a : Nat) (v : SurveyEntry) :
    (s.compare a v).pins = s.pins ∧ (s.compare a v).port = s.port ∧ (s.compare a v).attn.enables = s.attn.enables ∧
    (s.compare a v).attn.levels = s.attn.levels ∧ (s.compare a v).attn.mask = s.attn.mask ∧
    (s.compare a v).chain.state = s.chain.state ∧ (s.compare a v).chain.origin = s.chain.origin ∧
    (s.compare a v).chain.wasDown = s.chain.wasDown ∧ (s.compare a v).chain.downSince = s.chain.downSince ∧
    (s.compare a v).chain.errs = s.chain.errs ∧ (s.compare a v).chain.suspectSince = s.chain.suspectSince ∧
    (s.compare a v).chain.periodStart = s.chain.periodStart ∧ (s.compare a v).chain.periodErrs = s.chain.periodErrs ∧
    (s.compare a v).chain.capTag = s.chain.capTag ∧ (s.compare a v).chain.exTag = s.chain.exTag ∧
    (s.compare a v).chain.survey = s.chain.survey ∧ (s.compare a v).chain.present = s.chain.present ∧
    (s.compare a v).chain.configured = s.chain.configured ∧ (s.compare a v).chain.breakLoc = s.chain.breakLoc ∧
    (s.compare a v).chain.hold = s.chain.hold ∧ (s.compare a v).chain.line = s.chain.line ∧
    (s.compare a v).chain.lastSent = s.chain.lastSent ∧ (s.compare a v).chain.requests = s.chain.requests ∧
    (s.compare a v).chain.sleepCmd = s.chain.sleepCmd ∧
    (s.compare a v).chain.wakeAfterSleep = s.chain.wakeAfterSleep ∧ (s.compare a v).chain.wake = s.chain.wake ∧
    (s.compare a v).chain.resetTone = s.chain.resetTone ∧ (s.compare a v).chain.surveyTimer = s.chain.surveyTimer ∧
    (s.compare a v).chain.firstUp = s.chain.firstUp ∧ (s.compare a v).chain.surveySlip = s.chain.surveySlip ∧
    (s.compare a v).chain.balance = s.chain.balance ∧ (s.compare a v).chain.returning = s.chain.returning ∧
    (s.compare a v).conv = s.conv ∧ (s.compare a v).plan = s.plan ∧ (s.compare a v).sup = s.sup ∧
    (s.compare a v).ev = s.ev ∧ (s.compare a v).power = s.power ∧ (s.compare a v).store = s.store ∧
    (s.compare a v).upd = s.upd ∧ (s.compare a v).free = s.free ∧ (s.compare a v).pending = s.pending := by
  simp only [State.compare]; (repeat' split) <;> (first | rfl | simp)

/-- `compare` keeps the canonical form of the memory. -/
@[simp] theorem compare_wf (s : State) (a : Nat) (v : SurveyEntry) (hw : s.mem.wf = true) :
    (s.compare a v).mem.wf = true := by
  simp only [State.compare]; (repeat' split) <;> first | exact hw | simp (maxDischargeDepth := 20) [hw, store_wf]

/-- What `showSurveyHeader` leaves alone. -/
@[simp] theorem showSurveyHeader_frame (s : State) :
    (s.showSurveyHeader).pins = s.pins ∧ (s.showSurveyHeader).port = s.port ∧ (s.showSurveyHeader).attn = s.attn ∧
    (s.showSurveyHeader).chain = s.chain ∧ (s.showSurveyHeader).conv = s.conv ∧ (s.showSurveyHeader).plan = s.plan ∧
    (s.showSurveyHeader).sup = s.sup ∧ (s.showSurveyHeader).ev = s.ev ∧ (s.showSurveyHeader).power = s.power ∧
    (s.showSurveyHeader).store = s.store ∧ (s.showSurveyHeader).upd = s.upd ∧ (s.showSurveyHeader).free = s.free ∧
    (s.showSurveyHeader).pending = s.pending := by
  simp only [State.showSurveyHeader]; (repeat' split) <;> (first | rfl | simp)

/-- `showSurveyHeader` keeps the canonical form of the memory. -/
@[simp] theorem showSurveyHeader_wf (s : State) (hw : s.mem.wf = true) :
    (s.showSurveyHeader).mem.wf = true := by
  simp only [State.showSurveyHeader]; (repeat' split) <;> first | exact hw | simp (maxDischargeDepth := 20) [hw, store_wf]

/-- What `endSurvey` leaves alone. -/
@[simp] theorem endSurvey_frame (s : State) :
    (s.endSurvey).pins = s.pins ∧ (s.endSurvey).port.notes = s.port.notes ∧ (s.endSurvey).port.fault = s.port.fault ∧
    (s.endSurvey).port.faultCount = s.port.faultCount ∧ (s.endSurvey).port.tables = s.port.tables ∧
    (s.endSurvey).port.lastTable = s.port.lastTable ∧ (s.endSurvey).attn.enables = s.attn.enables ∧
    (s.endSurvey).attn.levels = s.attn.levels ∧ (s.endSurvey).attn.mask = s.attn.mask ∧
    (s.endSurvey).chain.origin = s.chain.origin ∧ (s.endSurvey).chain.suspectSince = s.chain.suspectSince ∧
    (s.endSurvey).chain.periodStart = s.chain.periodStart ∧ (s.endSurvey).chain.periodErrs = s.chain.periodErrs ∧
    (s.endSurvey).chain.capTag = s.chain.capTag ∧ (s.endSurvey).chain.exTag = s.chain.exTag ∧
    (s.endSurvey).chain.survey = s.chain.survey ∧ (s.endSurvey).chain.map = s.chain.map ∧
    (s.endSurvey).chain.lastSent = s.chain.lastSent ∧ (s.endSurvey).chain.sleepCmd = s.chain.sleepCmd ∧
    (s.endSurvey).chain.wakeAfterSleep = s.chain.wakeAfterSleep ∧ (s.endSurvey).chain.wake = s.chain.wake ∧
    (s.endSurvey).chain.resetTone = s.chain.resetTone ∧ (s.endSurvey).chain.returning = s.chain.returning ∧
    (s.endSurvey).conv = s.conv ∧ (s.endSurvey).plan = s.plan ∧ (s.endSurvey).sup = s.sup ∧
    (s.endSurvey).ev.slots = s.ev.slots ∧ (s.endSurvey).ev.age = s.ev.age ∧ (s.endSurvey).ev.next = s.ev.next ∧
    (s.endSurvey).ev.filling = s.ev.filling ∧ (s.endSurvey).power = s.power ∧ (s.endSurvey).store = s.store ∧
    (s.endSurvey).upd = s.upd ∧ (s.endSurvey).free = s.free ∧ (s.endSurvey).pending = s.pending := by
  simp only [State.endSurvey]; (repeat' split) <;> (first | rfl | simp)

/-- `endSurvey` keeps the canonical form of the memory. -/
@[simp] theorem endSurvey_wf (s : State) (hw : s.mem.wf = true) :
    (s.endSurvey).mem.wf = true := by
  simp only [State.endSurvey]; (repeat' split) <;> first | exact hw | simp (maxDischargeDepth := 20) [hw, store_wf]

/-- What `settleAddr` leaves alone. -/
@[simp] theorem settleAddr_frame (s : State) (a : Nat) (v : SurveyEntry) :
    (s.settleAddr a v).pins = s.pins ∧ (s.settleAddr a v).port.notes = s.port.notes ∧
    (s.settleAddr a v).port.fault = s.port.fault ∧ (s.settleAddr a v).port.faultCount = s.port.faultCount ∧
    (s.settleAddr a v).port.tables = s.port.tables ∧ (s.settleAddr a v).port.lastTable = s.port.lastTable ∧
    (s.settleAddr a v).attn.enables = s.attn.enables ∧ (s.settleAddr a v).attn.levels = s.attn.levels ∧
    (s.settleAddr a v).attn.mask = s.attn.mask ∧ (s.settleAddr a v).chain.origin = s.chain.origin ∧
    (s.settleAddr a v).chain.suspectSince = s.chain.suspectSince ∧
    (s.settleAddr a v).chain.periodStart = s.chain.periodStart ∧
    (s.settleAddr a v).chain.periodErrs = s.chain.periodErrs ∧ (s.settleAddr a v).chain.capTag = s.chain.capTag ∧
    (s.settleAddr a v).chain.lastSent = s.chain.lastSent ∧ (s.settleAddr a v).chain.sleepCmd = s.chain.sleepCmd ∧
    (s.settleAddr a v).chain.wakeAfterSleep = s.chain.wakeAfterSleep ∧ (s.settleAddr a v).chain.wake = s.chain.wake ∧
    (s.settleAddr a v).chain.resetTone = s.chain.resetTone ∧ (s.settleAddr a v).chain.returning = s.chain.returning ∧
    (s.settleAddr a v).conv = s.conv ∧ (s.settleAddr a v).plan = s.plan ∧ (s.settleAddr a v).sup = s.sup ∧
    (s.settleAddr a v).ev.slots = s.ev.slots ∧ (s.settleAddr a v).ev.age = s.ev.age ∧
    (s.settleAddr a v).ev.next = s.ev.next ∧ (s.settleAddr a v).ev.filling = s.ev.filling ∧
    (s.settleAddr a v).power = s.power ∧ (s.settleAddr a v).store = s.store ∧ (s.settleAddr a v).upd = s.upd ∧
    (s.settleAddr a v).free = s.free ∧ (s.settleAddr a v).pending = s.pending := by
  simp only [State.settleAddr]; (repeat' split) <;> (first | rfl | simp)

/-- `settleAddr` keeps the canonical form of the memory. -/
@[simp] theorem settleAddr_wf (s : State) (a : Nat) (v : SurveyEntry) (hw : s.mem.wf = true) :
    (s.settleAddr a v).mem.wf = true := by
  simp only [State.settleAddr]; (repeat' split) <;> first | exact hw | simp (maxDischargeDepth := 20) [hw, store_wf]

/-- What `surveyFailed` leaves alone. -/
@[simp] theorem surveyFailed_frame (s : State) (a : Nat) (second : Bool) :
    (s.surveyFailed a second).pins = s.pins ∧ (s.surveyFailed a second).port.notes = s.port.notes ∧
    (s.surveyFailed a second).port.fault = s.port.fault ∧
    (s.surveyFailed a second).port.faultCount = s.port.faultCount ∧
    (s.surveyFailed a second).port.tables = s.port.tables ∧
    (s.surveyFailed a second).port.lastTable = s.port.lastTable ∧
    (s.surveyFailed a second).attn.enables = s.attn.enables ∧ (s.surveyFailed a second).attn.levels = s.attn.levels ∧
    (s.surveyFailed a second).attn.mask = s.attn.mask ∧ (s.surveyFailed a second).chain.origin = s.chain.origin ∧
    (s.surveyFailed a second).chain.suspectSince = s.chain.suspectSince ∧
    (s.surveyFailed a second).chain.periodStart = s.chain.periodStart ∧
    (s.surveyFailed a second).chain.periodErrs = s.chain.periodErrs ∧
    (s.surveyFailed a second).chain.capTag = s.chain.capTag ∧
    (s.surveyFailed a second).chain.lastSent = s.chain.lastSent ∧
    (s.surveyFailed a second).chain.sleepCmd = s.chain.sleepCmd ∧
    (s.surveyFailed a second).chain.wakeAfterSleep = s.chain.wakeAfterSleep ∧
    (s.surveyFailed a second).chain.wake = s.chain.wake ∧
    (s.surveyFailed a second).chain.resetTone = s.chain.resetTone ∧
    (s.surveyFailed a second).chain.returning = s.chain.returning ∧ (s.surveyFailed a second).conv = s.conv ∧
    (s.surveyFailed a second).plan = s.plan ∧ (s.surveyFailed a second).sup = s.sup ∧
    (s.surveyFailed a second).ev.slots = s.ev.slots ∧ (s.surveyFailed a second).ev.age = s.ev.age ∧
    (s.surveyFailed a second).ev.next = s.ev.next ∧ (s.surveyFailed a second).ev.filling = s.ev.filling ∧
    (s.surveyFailed a second).power = s.power ∧ (s.surveyFailed a second).store = s.store ∧
    (s.surveyFailed a second).upd = s.upd ∧ (s.surveyFailed a second).free = s.free ∧
    (s.surveyFailed a second).pending = s.pending := by
  simp only [State.surveyFailed]; (repeat' split) <;> (first | rfl | simp)

/-- `surveyFailed` keeps the canonical form of the memory. -/
@[simp] theorem surveyFailed_wf (s : State) (a : Nat) (second : Bool) (hw : s.mem.wf = true) :
    (s.surveyFailed a second).mem.wf = true := by
  simp only [State.surveyFailed]; (repeat' split) <;> first | exact hw | simp (maxDischargeDepth := 20) [hw, store_wf]

/-- What `beginSurvey` leaves alone. -/
@[simp] theorem beginSurvey_frame (s : State) :
    (s.beginSurvey).mem = s.mem ∧ (s.beginSurvey).pins = s.pins ∧ (s.beginSurvey).port = s.port ∧
    (s.beginSurvey).attn = s.attn ∧ (s.beginSurvey).chain.wasDown = s.chain.wasDown ∧
    (s.beginSurvey).chain.downSince = s.chain.downSince ∧ (s.beginSurvey).chain.errs = s.chain.errs ∧
    (s.beginSurvey).chain.suspectSince = s.chain.suspectSince ∧
    (s.beginSurvey).chain.periodStart = s.chain.periodStart ∧ (s.beginSurvey).chain.periodErrs = s.chain.periodErrs ∧
    (s.beginSurvey).chain.capTag = s.chain.capTag ∧ (s.beginSurvey).chain.survey = s.chain.survey ∧
    (s.beginSurvey).chain.present = s.chain.present ∧ (s.beginSurvey).chain.configured = s.chain.configured ∧
    (s.beginSurvey).chain.breakLoc = s.chain.breakLoc ∧ (s.beginSurvey).chain.map = s.chain.map ∧
    (s.beginSurvey).chain.lastSent = s.chain.lastSent ∧ (s.beginSurvey).chain.requests = s.chain.requests ∧
    (s.beginSurvey).chain.sleepCmd = s.chain.sleepCmd ∧
    (s.beginSurvey).chain.wakeAfterSleep = s.chain.wakeAfterSleep ∧ (s.beginSurvey).chain.wake = s.chain.wake ∧
    (s.beginSurvey).chain.resetTone = s.chain.resetTone ∧ (s.beginSurvey).chain.firstUp = s.chain.firstUp ∧
    (s.beginSurvey).chain.surveySlip = s.chain.surveySlip ∧ (s.beginSurvey).chain.balance = s.chain.balance ∧
    (s.beginSurvey).chain.returning = s.chain.returning ∧ (s.beginSurvey).conv = s.conv ∧
    (s.beginSurvey).plan = s.plan ∧ (s.beginSurvey).sup = s.sup ∧ (s.beginSurvey).ev = s.ev ∧
    (s.beginSurvey).power = s.power ∧ (s.beginSurvey).store = s.store ∧ (s.beginSurvey).upd = s.upd ∧
    (s.beginSurvey).free = s.free ∧ (s.beginSurvey).pending = s.pending := by
  simp only [State.beginSurvey]; (repeat' split) <;> (first | rfl | simp)

/-- What `charge` leaves alone. -/
@[simp] theorem charge_frame (s : State) (d : Int) :
    (s.charge d).mem = s.mem ∧ (s.charge d).pins = s.pins ∧ (s.charge d).port = s.port ∧ (s.charge d).attn = s.attn ∧
    (s.charge d).chain = s.chain ∧ (s.charge d).conv.scanning = s.conv.scanning ∧ (s.charge d).conv.us = s.conv.us ∧
    (s.charge d).conv.part = s.conv.part ∧ (s.charge d).conv.lastLatch = s.conv.lastLatch ∧
    (s.charge d).conv.latched = s.conv.latched ∧ (s.charge d).conv.history = s.conv.history ∧
    (s.charge d).conv.restored = s.conv.restored ∧ (s.charge d).conv.unsampled = s.conv.unsampled ∧
    (s.charge d).conv.estimate = s.conv.estimate ∧ (s.charge d).conv.snapTimer = s.conv.snapTimer ∧
    (s.charge d).conv.recNumber = s.conv.recNumber ∧ (s.charge d).plan = s.plan ∧ (s.charge d).sup = s.sup ∧
    (s.charge d).ev = s.ev ∧ (s.charge d).power = s.power ∧ (s.charge d).store = s.store ∧ (s.charge d).upd = s.upd ∧
    (s.charge d).free = s.free ∧ (s.charge d).pending = s.pending := by
  simp only [State.charge]; (repeat' split) <;> (first | rfl | simp)

/-- What `makeEstimate` leaves alone. -/
@[simp] theorem makeEstimate_frame (s : State) :
    (s.makeEstimate).pins = s.pins ∧ (s.makeEstimate).port = s.port ∧ (s.makeEstimate).attn = s.attn ∧
    (s.makeEstimate).chain = s.chain ∧ (s.makeEstimate).conv.scanning = s.conv.scanning ∧
    (s.makeEstimate).conv.us = s.conv.us ∧ (s.makeEstimate).conv.part = s.conv.part ∧
    (s.makeEstimate).conv.lastLatch = s.conv.lastLatch ∧ (s.makeEstimate).conv.latched = s.conv.latched ∧
    (s.makeEstimate).conv.history = s.conv.history ∧ (s.makeEstimate).conv.restored = s.conv.restored ∧
    (s.makeEstimate).conv.unsampled = s.conv.unsampled ∧ (s.makeEstimate).conv.snapTimer = s.conv.snapTimer ∧
    (s.makeEstimate).plan = s.plan ∧ (s.makeEstimate).sup = s.sup ∧ (s.makeEstimate).ev = s.ev ∧
    (s.makeEstimate).power.state = s.power.state ∧ (s.makeEstimate).power.entry = s.power.entry ∧
    (s.makeEstimate).power.snapOutcome = s.power.snapOutcome ∧ (s.makeEstimate).power.wakeTable = s.power.wakeTable ∧
    (s.makeEstimate).power.pend = s.power.pend ∧ (s.makeEstimate).power.target = s.power.target ∧
    (s.makeEstimate).power.timer = s.power.timer ∧ (s.makeEstimate).power.timerRunning = s.power.timerRunning ∧
    (s.makeEstimate).power.compRun = s.power.compRun ∧ (s.makeEstimate).power.compFired = s.power.compFired ∧
    (s.makeEstimate).power.settleAt = s.power.settleAt ∧ (s.makeEstimate).power.settled = s.power.settled ∧
    (s.makeEstimate).power.patrol = s.power.patrol ∧ (s.makeEstimate).power.nextSlot = s.power.nextSlot ∧
    (s.makeEstimate).power.lastNumber = s.power.lastNumber ∧ (s.makeEstimate).power.lastWake = s.power.lastWake ∧
    (s.makeEstimate).power.returning = s.power.returning ∧ (s.makeEstimate).power.lastReset = s.power.lastReset ∧
    (s.makeEstimate).power.resetCount = s.power.resetCount ∧ (s.makeEstimate).power.wakeOut = s.power.wakeOut ∧
    (s.makeEstimate).power.wakeOutAt = s.power.wakeOutAt ∧ (s.makeEstimate).store = s.store ∧
    (s.makeEstimate).upd = s.upd ∧ (s.makeEstimate).free = s.free ∧ (s.makeEstimate).pending = s.pending := by
  simp only [State.makeEstimate]; (repeat' split) <;> (first | rfl | simp)

/-- `makeEstimate` keeps the canonical form of the memory. -/
@[simp] theorem makeEstimate_wf (s : State) (hw : s.mem.wf = true) :
    (s.makeEstimate).mem.wf = true := by
  simp only [State.makeEstimate]; (repeat' split) <;> first | exact hw | simp (maxDischargeDepth := 20) [hw, store_wf]

/-- What `collect` leaves alone. -/
@[simp] theorem collect_frame (s : State) (i : Int) :
    (s.collect i).pins = s.pins ∧ (s.collect i).port = s.port ∧ (s.collect i).attn = s.attn ∧
    (s.collect i).chain = s.chain ∧ (s.collect i).conv.scanning = s.conv.scanning ∧
    (s.collect i).conv.us = s.conv.us ∧ (s.collect i).conv.part = s.conv.part ∧
    (s.collect i).conv.lastLatch = s.conv.lastLatch ∧ (s.collect i).conv.latched = s.conv.latched ∧
    (s.collect i).conv.history = s.conv.history ∧ (s.collect i).conv.restored = s.conv.restored ∧
    (s.collect i).conv.unsampled = s.conv.unsampled ∧ (s.collect i).conv.snapTimer = s.conv.snapTimer ∧
    (s.collect i).plan = s.plan ∧ (s.collect i).sup = s.sup ∧ (s.collect i).ev = s.ev ∧
    (s.collect i).power.state = s.power.state ∧ (s.collect i).power.entry = s.power.entry ∧
    (s.collect i).power.snapOutcome = s.power.snapOutcome ∧ (s.collect i).power.wakeTable = s.power.wakeTable ∧
    (s.collect i).power.pend = s.power.pend ∧ (s.collect i).power.target = s.power.target ∧
    (s.collect i).power.timer = s.power.timer ∧ (s.collect i).power.timerRunning = s.power.timerRunning ∧
    (s.collect i).power.compRun = s.power.compRun ∧ (s.collect i).power.compFired = s.power.compFired ∧
    (s.collect i).power.settleAt = s.power.settleAt ∧ (s.collect i).power.settled = s.power.settled ∧
    (s.collect i).power.patrol = s.power.patrol ∧ (s.collect i).power.nextSlot = s.power.nextSlot ∧
    (s.collect i).power.lastNumber = s.power.lastNumber ∧ (s.collect i).power.lastWake = s.power.lastWake ∧
    (s.collect i).power.returning = s.power.returning ∧ (s.collect i).power.lastReset = s.power.lastReset ∧
    (s.collect i).power.resetCount = s.power.resetCount ∧ (s.collect i).power.wakeOut = s.power.wakeOut ∧
    (s.collect i).power.wakeOutAt = s.power.wakeOutAt ∧ (s.collect i).store = s.store ∧ (s.collect i).upd = s.upd ∧
    (s.collect i).free = s.free ∧ (s.collect i).pending = s.pending := by
  simp only [State.collect]; (repeat' split) <;> (first | rfl | simp)

/-- `collect` keeps the canonical form of the memory. -/
@[simp] theorem collect_wf (s : State) (i : Int) (hw : s.mem.wf = true) :
    (s.collect i).mem.wf = true := by
  simp only [State.collect]; (repeat' split) <;> first | exact hw | simp (maxDischargeDepth := 20) [hw, store_wf]

/-- What `clearRun` leaves alone. -/
@[simp] theorem clearRun_frame (s : State) :
    (s.clearRun).mem = s.mem ∧ (s.clearRun).pins = s.pins ∧ (s.clearRun).port = s.port ∧ (s.clearRun).attn = s.attn ∧
    (s.clearRun).chain = s.chain ∧ (s.clearRun).conv = s.conv ∧ (s.clearRun).plan = s.plan ∧
    (s.clearRun).sup.state = s.sup.state ∧ (s.clearRun).sup.waiting = s.sup.waiting ∧
    (s.clearRun).sup.mainNeg = s.sup.mainNeg ∧ (s.clearRun).sup.precharge = s.sup.precharge ∧
    (s.clearRun).sup.mainPos = s.sup.mainPos ∧ (s.clearRun).sup.inrush = s.sup.inrush ∧
    (s.clearRun).sup.close = s.sup.close ∧ (s.clearRun).sup.settleAt = s.sup.settleAt ∧
    (s.clearRun).sup.opening = s.sup.opening ∧ (s.clearRun).sup.weld = s.sup.weld ∧
    (s.clearRun).sup.clear = s.sup.clear ∧ (s.clearRun).sup.deferral = s.sup.deferral ∧
    (s.clearRun).sup.hardDue = s.sup.hardDue ∧ (s.clearRun).sup.faultedSince = s.sup.faultedSince ∧
    (s.clearRun).sup.lossHeld = s.sup.lossHeld ∧ (s.clearRun).sup.lossDue = s.sup.lossDue ∧
    (s.clearRun).sup.silence = s.sup.silence ∧ (s.clearRun).sup.warn = s.sup.warn ∧
    (s.clearRun).sup.lapsed = s.sup.lapsed ∧ (s.clearRun).sup.once = s.sup.once ∧ (s.clearRun).ev = s.ev ∧
    (s.clearRun).power = s.power ∧ (s.clearRun).store = s.store ∧ (s.clearRun).upd = s.upd ∧
    (s.clearRun).free = s.free ∧ (s.clearRun).pending = s.pending := by
  simp only [State.clearRun]; (repeat' split) <;> (first | rfl | simp)

/-- What `stopConverter` leaves alone. -/
@[simp] theorem stopConverter_frame (s : State) :
    (s.stopConverter).pins = s.pins ∧ (s.stopConverter).port = s.port ∧
    (s.stopConverter).attn.enables = s.attn.enables ∧ (s.stopConverter).attn.levels = s.attn.levels ∧
    (s.stopConverter).attn.mask = s.attn.mask ∧ (s.stopConverter).chain = s.chain ∧
    (s.stopConverter).conv.us = s.conv.us ∧ (s.stopConverter).conv.part = s.conv.part ∧
    (s.stopConverter).conv.lastLatch = s.conv.lastLatch ∧ (s.stopConverter).conv.history = s.conv.history ∧
    (s.stopConverter).conv.restored = s.conv.restored ∧ (s.stopConverter).conv.snapTimer = s.conv.snapTimer ∧
    (s.stopConverter).plan = s.plan ∧ (s.stopConverter).sup.state = s.sup.state ∧
    (s.stopConverter).sup.waiting = s.sup.waiting ∧ (s.stopConverter).sup.mainNeg = s.sup.mainNeg ∧
    (s.stopConverter).sup.precharge = s.sup.precharge ∧ (s.stopConverter).sup.mainPos = s.sup.mainPos ∧
    (s.stopConverter).sup.inrush = s.sup.inrush ∧ (s.stopConverter).sup.close = s.sup.close ∧
    (s.stopConverter).sup.settleAt = s.sup.settleAt ∧ (s.stopConverter).sup.opening = s.sup.opening ∧
    (s.stopConverter).sup.weld = s.sup.weld ∧ (s.stopConverter).sup.clear = s.sup.clear ∧
    (s.stopConverter).sup.deferral = s.sup.deferral ∧ (s.stopConverter).sup.hardDue = s.sup.hardDue ∧
    (s.stopConverter).sup.faultedSince = s.sup.faultedSince ∧ (s.stopConverter).sup.lossHeld = s.sup.lossHeld ∧
    (s.stopConverter).sup.lossDue = s.sup.lossDue ∧ (s.stopConverter).sup.silence = s.sup.silence ∧
    (s.stopConverter).sup.warn = s.sup.warn ∧ (s.stopConverter).sup.lapsed = s.sup.lapsed ∧
    (s.stopConverter).sup.once = s.sup.once ∧ (s.stopConverter).ev.age = s.ev.age ∧
    (s.stopConverter).ev.next = s.ev.next ∧ (s.stopConverter).ev.inbox = s.ev.inbox ∧
    (s.stopConverter).power.state = s.power.state ∧ (s.stopConverter).power.entry = s.power.entry ∧
    (s.stopConverter).power.snapOutcome = s.power.snapOutcome ∧
    (s.stopConverter).power.wakeTable = s.power.wakeTable ∧ (s.stopConverter).power.pend = s.power.pend ∧
    (s.stopConverter).power.target = s.power.target ∧ (s.stopConverter).power.timer = s.power.timer ∧
    (s.stopConverter).power.timerRunning = s.power.timerRunning ∧ (s.stopConverter).power.compRun = s.power.compRun ∧
    (s.stopConverter).power.compFired = s.power.compFired ∧ (s.stopConverter).power.settleAt = s.power.settleAt ∧
    (s.stopConverter).power.settled = s.power.settled ∧ (s.stopConverter).power.patrol = s.power.patrol ∧
    (s.stopConverter).power.nextSlot = s.power.nextSlot ∧ (s.stopConverter).power.lastNumber = s.power.lastNumber ∧
    (s.stopConverter).power.lastWake = s.power.lastWake ∧ (s.stopConverter).power.returning = s.power.returning ∧
    (s.stopConverter).power.lastReset = s.power.lastReset ∧ (s.stopConverter).power.resetCount = s.power.resetCount ∧
    (s.stopConverter).power.wakeOut = s.power.wakeOut ∧ (s.stopConverter).power.wakeOutAt = s.power.wakeOutAt ∧
    (s.stopConverter).store = s.store ∧ (s.stopConverter).upd = s.upd ∧ (s.stopConverter).free = s.free ∧
    (s.stopConverter).pending = s.pending := by
  simp only [State.stopConverter]; (repeat' split) <;> (first | rfl | simp)

/-- `stopConverter` keeps the canonical form of the memory. -/
@[simp] theorem stopConverter_wf (s : State) (hw : s.mem.wf = true) :
    (s.stopConverter).mem.wf = true := by
  simp only [State.stopConverter]; (repeat' split) <;> first | exact hw | simp (maxDischargeDepth := 20) [hw, store_wf]

/-- What `clearScan` leaves alone. -/
@[simp] theorem clearScan_frame (s : State) :
    (s.clearScan).mem = s.mem ∧ (s.clearScan).pins = s.pins ∧ (s.clearScan).port = s.port ∧
    (s.clearScan).attn = s.attn ∧ (s.clearScan).chain = s.chain ∧ (s.clearScan).conv.part = s.conv.part ∧
    (s.clearScan).conv.charge = s.conv.charge ∧ (s.clearScan).conv.chargeSat = s.conv.chargeSat ∧
    (s.clearScan).conv.restored = s.conv.restored ∧ (s.clearScan).conv.unsampled = s.conv.unsampled ∧
    (s.clearScan).conv.estimate = s.conv.estimate ∧ (s.clearScan).conv.snapTimer = s.conv.snapTimer ∧
    (s.clearScan).conv.recNumber = s.conv.recNumber ∧ (s.clearScan).plan = s.plan ∧
    (s.clearScan).sup.state = s.sup.state ∧ (s.clearScan).sup.waiting = s.sup.waiting ∧
    (s.clearScan).sup.mainNeg = s.sup.mainNeg ∧ (s.clearScan).sup.precharge = s.sup.precharge ∧
    (s.clearScan).sup.mainPos = s.sup.mainPos ∧ (s.clearScan).sup.inrush = s.sup.inrush ∧
    (s.clearScan).sup.close = s.sup.close ∧ (s.clearScan).sup.settleAt = s.sup.settleAt ∧
    (s.clearScan).sup.opening = s.sup.opening ∧ (s.clearScan).sup.weld = s.sup.weld ∧
    (s.clearScan).sup.clear = s.sup.clear ∧ (s.clearScan).sup.deferral = s.sup.deferral ∧
    (s.clearScan).sup.hardDue = s.sup.hardDue ∧ (s.clearScan).sup.faultedSince = s.sup.faultedSince ∧
    (s.clearScan).sup.lossHeld = s.sup.lossHeld ∧ (s.clearScan).sup.lossDue = s.sup.lossDue ∧
    (s.clearScan).sup.silence = s.sup.silence ∧ (s.clearScan).sup.warn = s.sup.warn ∧
    (s.clearScan).sup.lapsed = s.sup.lapsed ∧ (s.clearScan).sup.once = s.sup.once ∧ (s.clearScan).ev = s.ev ∧
    (s.clearScan).power = s.power ∧ (s.clearScan).store = s.store ∧ (s.clearScan).upd = s.upd ∧
    (s.clearScan).free = s.free ∧ (s.clearScan).pending = s.pending := by
  simp only [State.clearScan]; (repeat' split) <;> (first | rfl | simp)

/-- What `restartConverter` leaves alone. -/
@[simp] theorem restartConverter_frame (s : State) :
    (s.restartConverter).pins = s.pins ∧ (s.restartConverter).port = s.port ∧
    (s.restartConverter).attn.enables = s.attn.enables ∧ (s.restartConverter).attn.levels = s.attn.levels ∧
    (s.restartConverter).attn.mask = s.attn.mask ∧ (s.restartConverter).chain = s.chain ∧
    (s.restartConverter).conv.part = s.conv.part ∧ (s.restartConverter).conv.charge = s.conv.charge ∧
    (s.restartConverter).conv.chargeSat = s.conv.chargeSat ∧ (s.restartConverter).conv.restored = s.conv.restored ∧
    (s.restartConverter).conv.unsampled = s.conv.unsampled ∧ (s.restartConverter).conv.estimate = s.conv.estimate ∧
    (s.restartConverter).conv.snapTimer = s.conv.snapTimer ∧ (s.restartConverter).conv.recNumber = s.conv.recNumber ∧
    (s.restartConverter).plan = s.plan ∧ (s.restartConverter).sup.state = s.sup.state ∧
    (s.restartConverter).sup.waiting = s.sup.waiting ∧ (s.restartConverter).sup.mainNeg = s.sup.mainNeg ∧
    (s.restartConverter).sup.precharge = s.sup.precharge ∧ (s.restartConverter).sup.mainPos = s.sup.mainPos ∧
    (s.restartConverter).sup.inrush = s.sup.inrush ∧ (s.restartConverter).sup.close = s.sup.close ∧
    (s.restartConverter).sup.settleAt = s.sup.settleAt ∧ (s.restartConverter).sup.opening = s.sup.opening ∧
    (s.restartConverter).sup.weld = s.sup.weld ∧ (s.restartConverter).sup.clear = s.sup.clear ∧
    (s.restartConverter).sup.deferral = s.sup.deferral ∧ (s.restartConverter).sup.hardDue = s.sup.hardDue ∧
    (s.restartConverter).sup.faultedSince = s.sup.faultedSince ∧ (s.restartConverter).sup.lossHeld = s.sup.lossHeld ∧
    (s.restartConverter).sup.lossDue = s.sup.lossDue ∧ (s.restartConverter).sup.silence = s.sup.silence ∧
    (s.restartConverter).sup.warn = s.sup.warn ∧ (s.restartConverter).sup.lapsed = s.sup.lapsed ∧
    (s.restartConverter).sup.once = s.sup.once ∧ (s.restartConverter).ev.age = s.ev.age ∧
    (s.restartConverter).ev.next = s.ev.next ∧ (s.restartConverter).ev.inbox = s.ev.inbox ∧
    (s.restartConverter).power = s.power ∧ (s.restartConverter).store = s.store ∧ (s.restartConverter).upd = s.upd ∧
    (s.restartConverter).free = s.free ∧ (s.restartConverter).pending = s.pending := by
  simp only [State.restartConverter]; (repeat' split) <;> (first | rfl | simp)

/-- `restartConverter` keeps the canonical form of the memory. -/
@[simp] theorem restartConverter_wf (s : State) (hw : s.mem.wf = true) :
    (s.restartConverter).mem.wf = true := by
  simp only [State.restartConverter]; (repeat' split) <;> first | exact hw | simp (maxDischargeDepth := 20) [hw, store_wf]

/-- What `startConverter` leaves alone. -/
@[simp] theorem startConverter_frame (s : State) :
    (s.startConverter).pins = s.pins ∧ (s.startConverter).port = s.port ∧
    (s.startConverter).attn.enables = s.attn.enables ∧ (s.startConverter).attn.levels = s.attn.levels ∧
    (s.startConverter).attn.mask = s.attn.mask ∧ (s.startConverter).chain = s.chain ∧
    (s.startConverter).conv.part = s.conv.part ∧ (s.startConverter).conv.charge = s.conv.charge ∧
    (s.startConverter).conv.chargeSat = s.conv.chargeSat ∧ (s.startConverter).conv.restored = s.conv.restored ∧
    (s.startConverter).conv.unsampled = s.conv.unsampled ∧ (s.startConverter).conv.snapTimer = s.conv.snapTimer ∧
    (s.startConverter).conv.recNumber = s.conv.recNumber ∧ (s.startConverter).plan = s.plan ∧
    (s.startConverter).sup.state = s.sup.state ∧ (s.startConverter).sup.waiting = s.sup.waiting ∧
    (s.startConverter).sup.mainNeg = s.sup.mainNeg ∧ (s.startConverter).sup.precharge = s.sup.precharge ∧
    (s.startConverter).sup.mainPos = s.sup.mainPos ∧ (s.startConverter).sup.inrush = s.sup.inrush ∧
    (s.startConverter).sup.close = s.sup.close ∧ (s.startConverter).sup.settleAt = s.sup.settleAt ∧
    (s.startConverter).sup.opening = s.sup.opening ∧ (s.startConverter).sup.weld = s.sup.weld ∧
    (s.startConverter).sup.clear = s.sup.clear ∧ (s.startConverter).sup.deferral = s.sup.deferral ∧
    (s.startConverter).sup.hardDue = s.sup.hardDue ∧ (s.startConverter).sup.faultedSince = s.sup.faultedSince ∧
    (s.startConverter).sup.lossHeld = s.sup.lossHeld ∧ (s.startConverter).sup.lossDue = s.sup.lossDue ∧
    (s.startConverter).sup.silence = s.sup.silence ∧ (s.startConverter).sup.warn = s.sup.warn ∧
    (s.startConverter).sup.lapsed = s.sup.lapsed ∧ (s.startConverter).sup.once = s.sup.once ∧
    (s.startConverter).ev.age = s.ev.age ∧ (s.startConverter).ev.next = s.ev.next ∧
    (s.startConverter).ev.inbox = s.ev.inbox ∧ (s.startConverter).power.state = s.power.state ∧
    (s.startConverter).power.entry = s.power.entry ∧ (s.startConverter).power.snapOutcome = s.power.snapOutcome ∧
    (s.startConverter).power.wakeTable = s.power.wakeTable ∧ (s.startConverter).power.pend = s.power.pend ∧
    (s.startConverter).power.target = s.power.target ∧ (s.startConverter).power.timer = s.power.timer ∧
    (s.startConverter).power.timerRunning = s.power.timerRunning ∧
    (s.startConverter).power.compRun = s.power.compRun ∧ (s.startConverter).power.compFired = s.power.compFired ∧
    (s.startConverter).power.settleAt = s.power.settleAt ∧ (s.startConverter).power.settled = s.power.settled ∧
    (s.startConverter).power.patrol = s.power.patrol ∧ (s.startConverter).power.nextSlot = s.power.nextSlot ∧
    (s.startConverter).power.lastNumber = s.power.lastNumber ∧ (s.startConverter).power.lastWake = s.power.lastWake ∧
    (s.startConverter).power.returning = s.power.returning ∧ (s.startConverter).power.lastReset = s.power.lastReset ∧
    (s.startConverter).power.resetCount = s.power.resetCount ∧ (s.startConverter).power.wakeOut = s.power.wakeOut ∧
    (s.startConverter).power.wakeOutAt = s.power.wakeOutAt ∧ (s.startConverter).store = s.store ∧
    (s.startConverter).upd = s.upd ∧ (s.startConverter).free = s.free ∧ (s.startConverter).pending = s.pending := by
  simp only [State.startConverter]; (repeat' split) <;> (first | rfl | simp)

/-- `startConverter` keeps the canonical form of the memory. -/
@[simp] theorem startConverter_wf (s : State) (hw : s.mem.wf = true) :
    (s.startConverter).mem.wf = true := by
  simp only [State.startConverter]; (repeat' split) <;> first | exact hw | simp (maxDischargeDepth := 20) [hw, store_wf]

/-- What `Conv.restore` leaves alone: all but the counter and its marks (R36). -/
theorem Conv.restore_frame (c : Conv) (x : Option Snapshot) :
    c.restore x = { c with
      charge := (c.restore x).charge, chargeSat := (c.restore x).chargeSat, restored := (c.restore x).restored } := by
  cases x <;> rfl

/-- What `restoreCharge` leaves alone. -/
@[simp] theorem restoreCharge_frame (s : State) :
    (s.restoreCharge).pins = s.pins ∧ (s.restoreCharge).port = s.port ∧ (s.restoreCharge).attn = s.attn ∧
    (s.restoreCharge).chain = s.chain ∧ (s.restoreCharge).conv.scanning = s.conv.scanning ∧
    (s.restoreCharge).conv.us = s.conv.us ∧ (s.restoreCharge).conv.part = s.conv.part ∧
    (s.restoreCharge).conv.lastLatch = s.conv.lastLatch ∧ (s.restoreCharge).conv.latched = s.conv.latched ∧
    (s.restoreCharge).conv.history = s.conv.history ∧ (s.restoreCharge).conv.unsampled = s.conv.unsampled ∧
    (s.restoreCharge).conv.estimate = s.conv.estimate ∧ (s.restoreCharge).conv.snapTimer = s.conv.snapTimer ∧
    (s.restoreCharge).plan = s.plan ∧ (s.restoreCharge).sup = s.sup ∧ (s.restoreCharge).ev = s.ev ∧
    (s.restoreCharge).power = s.power ∧ (s.restoreCharge).store = s.store ∧ (s.restoreCharge).upd = s.upd ∧
    (s.restoreCharge).free = s.free ∧ (s.restoreCharge).pending = s.pending := by
  simp only [State.restoreCharge]
  split
  · cases s.store.work.snapshot <;> simp [Conv.restore]
  · simp

/-- `restoreCharge` keeps the canonical form of the memory. -/
@[simp] theorem restoreCharge_wf (s : State) (hw : s.mem.wf = true) :
    (s.restoreCharge).mem.wf = true := by
  simp only [State.restoreCharge]; (repeat' split) <;> first | exact hw | simp (maxDischargeDepth := 20) [hw, store_wf]

/-- What `requestSnapshot` leaves alone. -/
@[simp] theorem requestSnapshot_frame (s : State) (who : Requester) :
    (s.requestSnapshot who).mem = s.mem ∧ (s.requestSnapshot who).pins = s.pins ∧
    (s.requestSnapshot who).port = s.port ∧ (s.requestSnapshot who).attn = s.attn ∧
    (s.requestSnapshot who).chain = s.chain ∧ (s.requestSnapshot who).conv.scanning = s.conv.scanning ∧
    (s.requestSnapshot who).conv.us = s.conv.us ∧ (s.requestSnapshot who).conv.part = s.conv.part ∧
    (s.requestSnapshot who).conv.lastLatch = s.conv.lastLatch ∧
    (s.requestSnapshot who).conv.latched = s.conv.latched ∧ (s.requestSnapshot who).conv.history = s.conv.history ∧
    (s.requestSnapshot who).conv.charge = s.conv.charge ∧ (s.requestSnapshot who).conv.chargeSat = s.conv.chargeSat ∧
    (s.requestSnapshot who).conv.restored = s.conv.restored ∧
    (s.requestSnapshot who).conv.unsampled = s.conv.unsampled ∧
    (s.requestSnapshot who).conv.estimate = s.conv.estimate ∧
    (s.requestSnapshot who).conv.recNumber = s.conv.recNumber ∧ (s.requestSnapshot who).plan = s.plan ∧
    (s.requestSnapshot who).sup = s.sup ∧ (s.requestSnapshot who).ev = s.ev ∧
    (s.requestSnapshot who).power = s.power ∧ (s.requestSnapshot who).store.nv = s.store.nv ∧
    (s.requestSnapshot who).store.work = s.store.work ∧ (s.requestSnapshot who).store.running = s.store.running ∧
    (s.requestSnapshot who).store.startUp = s.store.startUp ∧ (s.requestSnapshot who).store.active = s.store.active ∧
    (s.requestSnapshot who).store.activeBank = s.store.activeBank ∧
    (s.requestSnapshot who).store.activeVersion = s.store.activeVersion ∧
    (s.requestSnapshot who).store.clampCount = s.store.clampCount ∧
    (s.requestSnapshot who).store.outcome = s.store.outcome ∧
    (s.requestSnapshot who).store.faultCause = s.store.faultCause ∧
    (s.requestSnapshot who).store.faultItem = s.store.faultItem ∧
    (s.requestSnapshot who).store.faultCount = s.store.faultCount ∧
    (s.requestSnapshot who).store.lost = s.store.lost ∧ (s.requestSnapshot who).store.taken = s.store.taken ∧
    (s.requestSnapshot who).store.inForce = s.store.inForce ∧
    (s.requestSnapshot who).store.rangeClamps = s.store.rangeClamps ∧
    (s.requestSnapshot who).store.hardClamps = s.store.hardClamps ∧
    (s.requestSnapshot who).store.keySlip = s.store.keySlip ∧ (s.requestSnapshot who).upd = s.upd ∧
    (s.requestSnapshot who).free = s.free ∧ (s.requestSnapshot who).pending = s.pending := by
  simp only [State.requestSnapshot]; (repeat' split) <;> (first | rfl | simp)

end Sys2Proof.Machine
end

