-- ==== Sys2Proof/Laws/EffectsParts.lean ====
section
/-! SUPPORT. What the operations of the contactor supervisor, the capture planner and the power controller leave alone, one lemma for each; each keeps the canonical form of the memory. -/

set_option linter.all false

namespace Sys2Proof.Machine

/-- What `toSup` leaves alone. -/
@[simp] theorem toSup_frame (s : State) (st : SupState) :
    (s.toSup st).pins = s.pins ∧ (s.toSup st).port = s.port ∧ (s.toSup st).attn.enables = s.attn.enables ∧
    (s.toSup st).attn.levels = s.attn.levels ∧ (s.toSup st).attn.mask = s.attn.mask ∧ (s.toSup st).chain = s.chain ∧
    (s.toSup st).conv = s.conv ∧ (s.toSup st).plan = s.plan ∧ (s.toSup st).sup.waiting = s.sup.waiting ∧
    (s.toSup st).sup.mainNeg = s.sup.mainNeg ∧ (s.toSup st).sup.precharge = s.sup.precharge ∧
    (s.toSup st).sup.mainPos = s.sup.mainPos ∧ (s.toSup st).sup.inrush = s.sup.inrush ∧
    (s.toSup st).sup.lowSupply = s.sup.lowSupply ∧ (s.toSup st).sup.close = s.sup.close ∧
    (s.toSup st).sup.settleAt = s.sup.settleAt ∧ (s.toSup st).sup.opening = s.sup.opening ∧
    (s.toSup st).sup.weld = s.sup.weld ∧ (s.toSup st).sup.clear = s.sup.clear ∧
    (s.toSup st).sup.deferral = s.sup.deferral ∧ (s.toSup st).sup.hardRun = s.sup.hardRun ∧
    (s.toSup st).sup.hardFell = s.sup.hardFell ∧ (s.toSup st).sup.hardDue = s.sup.hardDue ∧
    (s.toSup st).sup.faultedSince = s.sup.faultedSince ∧
    (s.toSup st).sup.lossDue = s.sup.lossDue ∧ (s.toSup st).sup.silence = s.sup.silence ∧
    (s.toSup st).sup.warn = s.sup.warn ∧ (s.toSup st).sup.lapsed = s.sup.lapsed ∧
    (s.toSup st).sup.once = s.sup.once ∧ (s.toSup st).ev = s.ev ∧ (s.toSup st).power = s.power ∧
    (s.toSup st).store = s.store ∧ (s.toSup st).upd = s.upd ∧ (s.toSup st).free = s.free ∧
    (s.toSup st).pending = s.pending := by
  simp only [State.toSup]; (repeat' split) <;> (first | rfl | simp)

/-- `toSup` keeps the canonical form of the memory. -/
@[simp] theorem toSup_wf (s : State) (st : SupState) (hw : s.mem.wf = true) :
    (s.toSup st).mem.wf = true := by
  simp only [State.toSup]; (repeat' split) <;> first | exact hw | simp (maxDischargeDepth := 20) [hw, store_wf]

/-- What `inrush` leaves alone. -/
@[simp] theorem inrush_frame (s : State) :
    (s.inrush).mem = s.mem ∧ (s.inrush).pins = s.pins ∧ (s.inrush).port = s.port ∧ (s.inrush).attn = s.attn ∧
    (s.inrush).chain = s.chain ∧ (s.inrush).conv = s.conv ∧ (s.inrush).plan = s.plan ∧
    (s.inrush).sup.state = s.sup.state ∧ (s.inrush).sup.waiting = s.sup.waiting ∧
    (s.inrush).sup.mainNeg = s.sup.mainNeg ∧ (s.inrush).sup.precharge = s.sup.precharge ∧
    (s.inrush).sup.mainPos = s.sup.mainPos ∧ (s.inrush).sup.lowSupply = s.sup.lowSupply ∧
    (s.inrush).sup.close = s.sup.close ∧ (s.inrush).sup.settleAt = s.sup.settleAt ∧
    (s.inrush).sup.opening = s.sup.opening ∧ (s.inrush).sup.weld = s.sup.weld ∧ (s.inrush).sup.clear = s.sup.clear ∧
    (s.inrush).sup.deferral = s.sup.deferral ∧ (s.inrush).sup.hardRun = s.sup.hardRun ∧
    (s.inrush).sup.hardFell = s.sup.hardFell ∧ (s.inrush).sup.hardDue = s.sup.hardDue ∧
    (s.inrush).sup.faultedSince = s.sup.faultedSince ∧ (s.inrush).sup.lossHeld = s.sup.lossHeld ∧
    (s.inrush).sup.lossDue = s.sup.lossDue ∧ (s.inrush).sup.silence = s.sup.silence ∧
    (s.inrush).sup.warn = s.sup.warn ∧ (s.inrush).sup.lapsed = s.sup.lapsed ∧ (s.inrush).sup.once = s.sup.once ∧
    (s.inrush).ev = s.ev ∧ (s.inrush).power = s.power ∧ (s.inrush).store = s.store ∧ (s.inrush).upd = s.upd ∧
    (s.inrush).free = s.free ∧ (s.inrush).pending = s.pending := by
  simp only [State.inrush]; (repeat' split) <;> (first | rfl | simp)

/-- What `releasePos` leaves alone. -/
@[simp] theorem releasePos_frame (s : State) :
    (s.releasePos).mem = s.mem ∧ (s.releasePos).pins = s.pins ∧ (s.releasePos).port = s.port ∧
    (s.releasePos).attn = s.attn ∧ (s.releasePos).chain = s.chain ∧ (s.releasePos).conv = s.conv ∧
    (s.releasePos).plan = s.plan ∧ (s.releasePos).sup.state = s.sup.state ∧
    (s.releasePos).sup.waiting = s.sup.waiting ∧ (s.releasePos).sup.mainNeg = s.sup.mainNeg ∧
    (s.releasePos).sup.precharge = s.sup.precharge ∧ (s.releasePos).sup.inrush = s.sup.inrush ∧
    (s.releasePos).sup.lowSupply = s.sup.lowSupply ∧ (s.releasePos).sup.close = s.sup.close ∧
    (s.releasePos).sup.settleAt = s.sup.settleAt ∧ (s.releasePos).sup.opening = s.sup.opening ∧
    (s.releasePos).sup.weld = s.sup.weld ∧ (s.releasePos).sup.clear = s.sup.clear ∧
    (s.releasePos).sup.deferral = s.sup.deferral ∧ (s.releasePos).sup.hardRun = s.sup.hardRun ∧
    (s.releasePos).sup.hardFell = s.sup.hardFell ∧ (s.releasePos).sup.hardDue = s.sup.hardDue ∧
    (s.releasePos).sup.faultedSince = s.sup.faultedSince ∧ (s.releasePos).sup.lossHeld = s.sup.lossHeld ∧
    (s.releasePos).sup.lossDue = s.sup.lossDue ∧ (s.releasePos).sup.silence = s.sup.silence ∧
    (s.releasePos).sup.warn = s.sup.warn ∧ (s.releasePos).sup.lapsed = s.sup.lapsed ∧
    (s.releasePos).sup.once = s.sup.once ∧ (s.releasePos).ev = s.ev ∧ (s.releasePos).power = s.power ∧
    (s.releasePos).store.nv = s.store.nv ∧ (s.releasePos).store.work = s.store.work ∧
    (s.releasePos).store.running = s.store.running ∧ (s.releasePos).store.startUp = s.store.startUp ∧
    (s.releasePos).store.active = s.store.active ∧ (s.releasePos).store.activeBank = s.store.activeBank ∧
    (s.releasePos).store.activeVersion = s.store.activeVersion ∧
    (s.releasePos).store.clampCount = s.store.clampCount ∧ (s.releasePos).store.outcome = s.store.outcome ∧
    (s.releasePos).store.faultCause = s.store.faultCause ∧ (s.releasePos).store.faultItem = s.store.faultItem ∧
    (s.releasePos).store.faultCount = s.store.faultCount ∧ (s.releasePos).store.lost = s.store.lost ∧
    (s.releasePos).store.taken = s.store.taken ∧ (s.releasePos).store.inForce = s.store.inForce ∧
    (s.releasePos).store.rangeClamps = s.store.rangeClamps ∧ (s.releasePos).store.hardClamps = s.store.hardClamps ∧
    (s.releasePos).store.keySlip = s.store.keySlip ∧ (s.releasePos).upd = s.upd ∧ (s.releasePos).free = s.free ∧
    (s.releasePos).pending = s.pending := by
  simp only [State.releasePos]; (repeat' split) <;> (first | rfl | simp)

/-- What `releaseNeg` leaves alone. -/
@[simp] theorem releaseNeg_frame (s : State) :
    (s.releaseNeg).mem = s.mem ∧ (s.releaseNeg).pins = s.pins ∧ (s.releaseNeg).port = s.port ∧
    (s.releaseNeg).attn = s.attn ∧ (s.releaseNeg).chain = s.chain ∧ (s.releaseNeg).conv = s.conv ∧
    (s.releaseNeg).plan = s.plan ∧ (s.releaseNeg).sup.state = s.sup.state ∧
    (s.releaseNeg).sup.waiting = s.sup.waiting ∧ (s.releaseNeg).sup.precharge = s.sup.precharge ∧
    (s.releaseNeg).sup.mainPos = s.sup.mainPos ∧ (s.releaseNeg).sup.inrush = s.sup.inrush ∧
    (s.releaseNeg).sup.lowSupply = s.sup.lowSupply ∧ (s.releaseNeg).sup.close = s.sup.close ∧
    (s.releaseNeg).sup.settleAt = s.sup.settleAt ∧ (s.releaseNeg).sup.opening = s.sup.opening ∧
    (s.releaseNeg).sup.weld = s.sup.weld ∧ (s.releaseNeg).sup.clear = s.sup.clear ∧
    (s.releaseNeg).sup.deferral = s.sup.deferral ∧ (s.releaseNeg).sup.hardRun = s.sup.hardRun ∧
    (s.releaseNeg).sup.hardFell = s.sup.hardFell ∧ (s.releaseNeg).sup.hardDue = s.sup.hardDue ∧
    (s.releaseNeg).sup.faultedSince = s.sup.faultedSince ∧ (s.releaseNeg).sup.lossHeld = s.sup.lossHeld ∧
    (s.releaseNeg).sup.lossDue = s.sup.lossDue ∧ (s.releaseNeg).sup.silence = s.sup.silence ∧
    (s.releaseNeg).sup.warn = s.sup.warn ∧ (s.releaseNeg).sup.lapsed = s.sup.lapsed ∧
    (s.releaseNeg).sup.once = s.sup.once ∧ (s.releaseNeg).ev = s.ev ∧ (s.releaseNeg).power = s.power ∧
    (s.releaseNeg).store.nv = s.store.nv ∧ (s.releaseNeg).store.work = s.store.work ∧
    (s.releaseNeg).store.running = s.store.running ∧ (s.releaseNeg).store.startUp = s.store.startUp ∧
    (s.releaseNeg).store.active = s.store.active ∧ (s.releaseNeg).store.activeBank = s.store.activeBank ∧
    (s.releaseNeg).store.activeVersion = s.store.activeVersion ∧
    (s.releaseNeg).store.clampCount = s.store.clampCount ∧ (s.releaseNeg).store.outcome = s.store.outcome ∧
    (s.releaseNeg).store.faultCause = s.store.faultCause ∧ (s.releaseNeg).store.faultItem = s.store.faultItem ∧
    (s.releaseNeg).store.faultCount = s.store.faultCount ∧ (s.releaseNeg).store.lost = s.store.lost ∧
    (s.releaseNeg).store.taken = s.store.taken ∧ (s.releaseNeg).store.inForce = s.store.inForce ∧
    (s.releaseNeg).store.rangeClamps = s.store.rangeClamps ∧ (s.releaseNeg).store.hardClamps = s.store.hardClamps ∧
    (s.releaseNeg).store.keySlip = s.store.keySlip ∧ (s.releaseNeg).upd = s.upd ∧ (s.releaseNeg).free = s.free ∧
    (s.releaseNeg).pending = s.pending := by
  simp only [State.releaseNeg]; (repeat' split) <;> (first | rfl | simp)

/-- What `releasePrecharge` leaves alone. -/
@[simp] theorem releasePrecharge_frame (s : State) :
    (s.releasePrecharge).mem = s.mem ∧ (s.releasePrecharge).pins = s.pins ∧ (s.releasePrecharge).port = s.port ∧
    (s.releasePrecharge).attn = s.attn ∧ (s.releasePrecharge).chain = s.chain ∧ (s.releasePrecharge).conv = s.conv ∧
    (s.releasePrecharge).plan = s.plan ∧ (s.releasePrecharge).sup.state = s.sup.state ∧
    (s.releasePrecharge).sup.waiting = s.sup.waiting ∧ (s.releasePrecharge).sup.mainNeg = s.sup.mainNeg ∧
    (s.releasePrecharge).sup.mainPos = s.sup.mainPos ∧ (s.releasePrecharge).sup.inrush = s.sup.inrush ∧
    (s.releasePrecharge).sup.lowSupply = s.sup.lowSupply ∧ (s.releasePrecharge).sup.close = s.sup.close ∧
    (s.releasePrecharge).sup.settleAt = s.sup.settleAt ∧ (s.releasePrecharge).sup.opening = s.sup.opening ∧
    (s.releasePrecharge).sup.weld = s.sup.weld ∧ (s.releasePrecharge).sup.clear = s.sup.clear ∧
    (s.releasePrecharge).sup.deferral = s.sup.deferral ∧ (s.releasePrecharge).sup.hardRun = s.sup.hardRun ∧
    (s.releasePrecharge).sup.hardFell = s.sup.hardFell ∧ (s.releasePrecharge).sup.hardDue = s.sup.hardDue ∧
    (s.releasePrecharge).sup.faultedSince = s.sup.faultedSince ∧ (s.releasePrecharge).sup.lossHeld = s.sup.lossHeld ∧
    (s.releasePrecharge).sup.lossDue = s.sup.lossDue ∧ (s.releasePrecharge).sup.silence = s.sup.silence ∧
    (s.releasePrecharge).sup.warn = s.sup.warn ∧ (s.releasePrecharge).sup.lapsed = s.sup.lapsed ∧
    (s.releasePrecharge).sup.once = s.sup.once ∧ (s.releasePrecharge).ev = s.ev ∧
    (s.releasePrecharge).power = s.power ∧ (s.releasePrecharge).store = s.store ∧ (s.releasePrecharge).upd = s.upd ∧
    (s.releasePrecharge).free = s.free ∧ (s.releasePrecharge).pending = s.pending := by
  simp only [State.releasePrecharge]; (repeat' split) <;> (first | rfl | simp)

/-- What `abortClose` leaves alone. -/
@[simp] theorem abortClose_frame (s : State) :
    (s.abortClose).pins = s.pins ∧ (s.abortClose).port.notes = s.port.notes ∧
    (s.abortClose).port.fault = s.port.fault ∧ (s.abortClose).port.faultCount = s.port.faultCount ∧
    (s.abortClose).port.tables = s.port.tables ∧ (s.abortClose).port.lastTable = s.port.lastTable ∧
    (s.abortClose).attn.enables = s.attn.enables ∧ (s.abortClose).attn.levels = s.attn.levels ∧
    (s.abortClose).attn.mask = s.attn.mask ∧ (s.abortClose).chain = s.chain ∧ (s.abortClose).conv = s.conv ∧
    (s.abortClose).plan = s.plan ∧ (s.abortClose).sup.state = s.sup.state ∧
    (s.abortClose).sup.waiting = s.sup.waiting ∧ (s.abortClose).sup.mainNeg = s.sup.mainNeg ∧
    (s.abortClose).sup.precharge = s.sup.precharge ∧ (s.abortClose).sup.mainPos = s.sup.mainPos ∧
    (s.abortClose).sup.inrush = s.sup.inrush ∧ (s.abortClose).sup.lowSupply = s.sup.lowSupply ∧
    (s.abortClose).sup.settleAt = s.sup.settleAt ∧ (s.abortClose).sup.opening = s.sup.opening ∧
    (s.abortClose).sup.weld = s.sup.weld ∧ (s.abortClose).sup.clear = s.sup.clear ∧
    (s.abortClose).sup.deferral = s.sup.deferral ∧ (s.abortClose).sup.hardRun = s.sup.hardRun ∧
    (s.abortClose).sup.hardFell = s.sup.hardFell ∧ (s.abortClose).sup.hardDue = s.sup.hardDue ∧
    (s.abortClose).sup.faultedSince = s.sup.faultedSince ∧ (s.abortClose).sup.lossHeld = s.sup.lossHeld ∧
    (s.abortClose).sup.lossDue = s.sup.lossDue ∧ (s.abortClose).sup.silence = s.sup.silence ∧
    (s.abortClose).sup.warn = s.sup.warn ∧ (s.abortClose).sup.lapsed = s.sup.lapsed ∧
    (s.abortClose).sup.once = s.sup.once ∧ (s.abortClose).ev = s.ev ∧ (s.abortClose).power = s.power ∧
    (s.abortClose).store = s.store ∧ (s.abortClose).upd = s.upd ∧ (s.abortClose).free = s.free ∧
    (s.abortClose).pending = s.pending := by
  simp only [State.abortClose]; (repeat' split) <;> (first | rfl | simp)

/-- `abortClose` keeps the canonical form of the memory. -/
@[simp] theorem abortClose_wf (s : State) (hw : s.mem.wf = true) :
    (s.abortClose).mem.wf = true := by
  simp only [State.abortClose]; (repeat' split) <;> first | exact hw | simp (maxDischargeDepth := 20) [hw, store_wf]

/-- What `startOpening` leaves alone. -/
@[simp] theorem startOpening_frame (s : State) (slot : Option Nat) (causes : List CauseRec) :
    (s.startOpening slot causes).pins = s.pins ∧ (s.startOpening slot causes).port.notes = s.port.notes ∧
    (s.startOpening slot causes).port.fault = s.port.fault ∧
    (s.startOpening slot causes).port.faultCount = s.port.faultCount ∧
    (s.startOpening slot causes).port.tables = s.port.tables ∧
    (s.startOpening slot causes).port.lastTable = s.port.lastTable ∧
    (s.startOpening slot causes).attn.enables = s.attn.enables ∧
    (s.startOpening slot causes).attn.levels = s.attn.levels ∧ (s.startOpening slot causes).attn.mask = s.attn.mask ∧
    (s.startOpening slot causes).chain.state = s.chain.state ∧
    (s.startOpening slot causes).chain.origin = s.chain.origin ∧
    (s.startOpening slot causes).chain.wasDown = s.chain.wasDown ∧
    (s.startOpening slot causes).chain.downSince = s.chain.downSince ∧
    (s.startOpening slot causes).chain.errs = s.chain.errs ∧
    (s.startOpening slot causes).chain.suspectSince = s.chain.suspectSince ∧
    (s.startOpening slot causes).chain.periodStart = s.chain.periodStart ∧
    (s.startOpening slot causes).chain.periodErrs = s.chain.periodErrs ∧
    (s.startOpening slot causes).chain.capTag = s.chain.capTag ∧
    (s.startOpening slot causes).chain.exTag = s.chain.exTag ∧
    (s.startOpening slot causes).chain.survey = s.chain.survey ∧
    (s.startOpening slot causes).chain.present = s.chain.present ∧
    (s.startOpening slot causes).chain.configured = s.chain.configured ∧
    (s.startOpening slot causes).chain.breakLoc = s.chain.breakLoc ∧
    (s.startOpening slot causes).chain.map = s.chain.map ∧ (s.startOpening slot causes).chain.hold = s.chain.hold ∧
    (s.startOpening slot causes).chain.line = s.chain.line ∧
    (s.startOpening slot causes).chain.lastSent = s.chain.lastSent ∧
    (s.startOpening slot causes).chain.sleepCmd = s.chain.sleepCmd ∧
    (s.startOpening slot causes).chain.wakeAfterSleep = s.chain.wakeAfterSleep ∧
    (s.startOpening slot causes).chain.wake = s.chain.wake ∧
    (s.startOpening slot causes).chain.resetTone = s.chain.resetTone ∧
    (s.startOpening slot causes).chain.surveyTimer = s.chain.surveyTimer ∧
    (s.startOpening slot causes).chain.firstUp = s.chain.firstUp ∧
    (s.startOpening slot causes).chain.surveySlip = s.chain.surveySlip ∧
    (s.startOpening slot causes).chain.returning = s.chain.returning ∧ (s.startOpening slot causes).conv = s.conv ∧
    (s.startOpening slot causes).plan = s.plan ∧ (s.startOpening slot causes).sup.waiting = s.sup.waiting ∧
    (s.startOpening slot causes).sup.mainNeg = s.sup.mainNeg ∧
    (s.startOpening slot causes).sup.inrush = s.sup.inrush ∧
    (s.startOpening slot causes).sup.lowSupply = s.sup.lowSupply ∧
    (s.startOpening slot causes).sup.settleAt = s.sup.settleAt ∧ (s.startOpening slot causes).sup.weld = s.sup.weld ∧
    (s.startOpening slot causes).sup.clear = s.sup.clear ∧ (s.startOpening slot causes).sup.hardRun = s.sup.hardRun ∧
    (s.startOpening slot causes).sup.hardFell = s.sup.hardFell ∧
    (s.startOpening slot causes).sup.hardDue = s.sup.hardDue ∧
    (s.startOpening slot causes).sup.faultedSince = s.sup.faultedSince ∧
    (s.startOpening slot causes).sup.lossDue = s.sup.lossDue ∧
    (s.startOpening slot causes).sup.silence = s.sup.silence ∧ (s.startOpening slot causes).sup.warn = s.sup.warn ∧
    (s.startOpening slot causes).sup.lapsed = s.sup.lapsed ∧ (s.startOpening slot causes).sup.once = s.sup.once ∧
    (s.startOpening slot causes).ev.slots = s.ev.slots ∧ (s.startOpening slot causes).ev.age = s.ev.age ∧
    (s.startOpening slot causes).ev.next = s.ev.next ∧ (s.startOpening slot causes).ev.filling = s.ev.filling ∧
    (s.startOpening slot causes).power = s.power ∧ (s.startOpening slot causes).store.nv = s.store.nv ∧
    (s.startOpening slot causes).store.work = s.store.work ∧
    (s.startOpening slot causes).store.running = s.store.running ∧
    (s.startOpening slot causes).store.startUp = s.store.startUp ∧
    (s.startOpening slot causes).store.active = s.store.active ∧
    (s.startOpening slot causes).store.activeBank = s.store.activeBank ∧
    (s.startOpening slot causes).store.activeVersion = s.store.activeVersion ∧
    (s.startOpening slot causes).store.clampCount = s.store.clampCount ∧
    (s.startOpening slot causes).store.outcome = s.store.outcome ∧
    (s.startOpening slot causes).store.faultCause = s.store.faultCause ∧
    (s.startOpening slot causes).store.faultItem = s.store.faultItem ∧
    (s.startOpening slot causes).store.faultCount = s.store.faultCount ∧
    (s.startOpening slot causes).store.lost = s.store.lost ∧
    (s.startOpening slot causes).store.taken = s.store.taken ∧
    (s.startOpening slot causes).store.inForce = s.store.inForce ∧
    (s.startOpening slot causes).store.rangeClamps = s.store.rangeClamps ∧
    (s.startOpening slot causes).store.hardClamps = s.store.hardClamps ∧
    (s.startOpening slot causes).store.keySlip = s.store.keySlip ∧ (s.startOpening slot causes).upd = s.upd ∧
    (s.startOpening slot causes).pending = s.pending := by
  simp only [State.startOpening]; (repeat' split) <;> (first | rfl | simp)

/-- `startOpening` keeps the canonical form of the memory. -/
@[simp] theorem startOpening_wf (s : State) (slot : Option Nat) (causes : List CauseRec) (hw : s.mem.wf = true) :
    (s.startOpening slot causes).mem.wf = true := by
  simp only [State.startOpening]; (repeat' split) <;> first | exact hw | simp (maxDischargeDepth := 20) [hw, store_wf]

/-- What `endOpening` leaves alone. -/
@[simp] theorem endOpening_frame (s : State) :
    (s.endOpening).pins = s.pins ∧ (s.endOpening).port.notes = s.port.notes ∧
    (s.endOpening).port.fault = s.port.fault ∧ (s.endOpening).port.faultCount = s.port.faultCount ∧
    (s.endOpening).port.tables = s.port.tables ∧ (s.endOpening).port.lastTable = s.port.lastTable ∧
    (s.endOpening).attn.enables = s.attn.enables ∧ (s.endOpening).attn.levels = s.attn.levels ∧
    (s.endOpening).attn.mask = s.attn.mask ∧ (s.endOpening).chain = s.chain ∧ (s.endOpening).conv = s.conv ∧
    (s.endOpening).plan = s.plan ∧ (s.endOpening).sup.waiting = s.sup.waiting ∧
    (s.endOpening).sup.precharge = s.sup.precharge ∧ (s.endOpening).sup.mainPos = s.sup.mainPos ∧
    (s.endOpening).sup.inrush = s.sup.inrush ∧ (s.endOpening).sup.lowSupply = s.sup.lowSupply ∧
    (s.endOpening).sup.close = s.sup.close ∧ (s.endOpening).sup.settleAt = s.sup.settleAt ∧
    (s.endOpening).sup.clear = s.sup.clear ∧ (s.endOpening).sup.deferral = s.sup.deferral ∧
    (s.endOpening).sup.hardRun = s.sup.hardRun ∧ (s.endOpening).sup.hardFell = s.sup.hardFell ∧
    (s.endOpening).sup.hardDue = s.sup.hardDue ∧ (s.endOpening).sup.faultedSince = s.sup.faultedSince ∧
    (s.endOpening).sup.lossDue = s.sup.lossDue ∧ (s.endOpening).sup.silence = s.sup.silence ∧
    (s.endOpening).sup.warn = s.sup.warn ∧ (s.endOpening).sup.lapsed = s.sup.lapsed ∧
    (s.endOpening).sup.once = s.sup.once ∧ (s.endOpening).ev.age = s.ev.age ∧ (s.endOpening).ev.next = s.ev.next ∧
    (s.endOpening).ev.filling = s.ev.filling ∧ (s.endOpening).power = s.power ∧ (s.endOpening).store.nv = s.store.nv ∧
    (s.endOpening).store.work = s.store.work ∧ (s.endOpening).store.running = s.store.running ∧
    (s.endOpening).store.startUp = s.store.startUp ∧ (s.endOpening).store.active = s.store.active ∧
    (s.endOpening).store.activeBank = s.store.activeBank ∧
    (s.endOpening).store.activeVersion = s.store.activeVersion ∧
    (s.endOpening).store.clampCount = s.store.clampCount ∧ (s.endOpening).store.outcome = s.store.outcome ∧
    (s.endOpening).store.faultCause = s.store.faultCause ∧ (s.endOpening).store.faultItem = s.store.faultItem ∧
    (s.endOpening).store.faultCount = s.store.faultCount ∧ (s.endOpening).store.lost = s.store.lost ∧
    (s.endOpening).store.taken = s.store.taken ∧ (s.endOpening).store.inForce = s.store.inForce ∧
    (s.endOpening).store.rangeClamps = s.store.rangeClamps ∧ (s.endOpening).store.hardClamps = s.store.hardClamps ∧
    (s.endOpening).store.keySlip = s.store.keySlip ∧ (s.endOpening).upd = s.upd ∧
    (s.endOpening).pending = s.pending := by
  simp only [State.endOpening]; (repeat' split) <;> (first | rfl | simp)

/-- `endOpening` keeps the canonical form of the memory. -/
@[simp] theorem endOpening_wf (s : State) (hw : s.mem.wf = true) :
    (s.endOpening).mem.wf = true := by
  simp only [State.endOpening]; (repeat' split) <;> first | exact hw | simp (maxDischargeDepth := 20) [hw, store_wf]

/-- What `causeDue` leaves alone. -/
@[simp] theorem causeDue_frame (s : State) (c : CauseRec) :
    (s.causeDue c).pins = s.pins ∧ (s.causeDue c).port.notes = s.port.notes ∧
    (s.causeDue c).port.fault = s.port.fault ∧ (s.causeDue c).port.faultCount = s.port.faultCount ∧
    (s.causeDue c).port.tables = s.port.tables ∧ (s.causeDue c).port.lastTable = s.port.lastTable ∧
    (s.causeDue c).attn.enables = s.attn.enables ∧ (s.causeDue c).attn.levels = s.attn.levels ∧
    (s.causeDue c).attn.mask = s.attn.mask ∧ (s.causeDue c).chain.state = s.chain.state ∧
    (s.causeDue c).chain.origin = s.chain.origin ∧ (s.causeDue c).chain.wasDown = s.chain.wasDown ∧
    (s.causeDue c).chain.downSince = s.chain.downSince ∧ (s.causeDue c).chain.errs = s.chain.errs ∧
    (s.causeDue c).chain.suspectSince = s.chain.suspectSince ∧
    (s.causeDue c).chain.periodStart = s.chain.periodStart ∧ (s.causeDue c).chain.periodErrs = s.chain.periodErrs ∧
    (s.causeDue c).chain.capTag = s.chain.capTag ∧ (s.causeDue c).chain.exTag = s.chain.exTag ∧
    (s.causeDue c).chain.survey = s.chain.survey ∧ (s.causeDue c).chain.present = s.chain.present ∧
    (s.causeDue c).chain.configured = s.chain.configured ∧ (s.causeDue c).chain.breakLoc = s.chain.breakLoc ∧
    (s.causeDue c).chain.map = s.chain.map ∧ (s.causeDue c).chain.hold = s.chain.hold ∧
    (s.causeDue c).chain.line = s.chain.line ∧ (s.causeDue c).chain.lastSent = s.chain.lastSent ∧
    (s.causeDue c).chain.sleepCmd = s.chain.sleepCmd ∧ (s.causeDue c).chain.wakeAfterSleep = s.chain.wakeAfterSleep ∧
    (s.causeDue c).chain.wake = s.chain.wake ∧ (s.causeDue c).chain.resetTone = s.chain.resetTone ∧
    (s.causeDue c).chain.surveyTimer = s.chain.surveyTimer ∧ (s.causeDue c).chain.firstUp = s.chain.firstUp ∧
    (s.causeDue c).chain.surveySlip = s.chain.surveySlip ∧ (s.causeDue c).chain.returning = s.chain.returning ∧
    (s.causeDue c).conv = s.conv ∧ (s.causeDue c).plan = s.plan ∧ (s.causeDue c).sup.waiting = s.sup.waiting ∧
    (s.causeDue c).sup.mainNeg = s.sup.mainNeg ∧ (s.causeDue c).sup.inrush = s.sup.inrush ∧
    (s.causeDue c).sup.lowSupply = s.sup.lowSupply ∧ (s.causeDue c).sup.settleAt = s.sup.settleAt ∧
    (s.causeDue c).sup.weld = s.sup.weld ∧ (s.causeDue c).sup.clear = s.sup.clear ∧
    (s.causeDue c).sup.hardRun = s.sup.hardRun ∧ (s.causeDue c).sup.hardFell = s.sup.hardFell ∧
    (s.causeDue c).sup.hardDue = s.sup.hardDue ∧ (s.causeDue c).sup.faultedSince = s.sup.faultedSince ∧
    (s.causeDue c).sup.lossDue = s.sup.lossDue ∧ (s.causeDue c).sup.silence = s.sup.silence ∧
    (s.causeDue c).sup.warn = s.sup.warn ∧ (s.causeDue c).sup.lapsed = s.sup.lapsed ∧
    (s.causeDue c).sup.once = s.sup.once ∧ (s.causeDue c).ev.age = s.ev.age ∧ (s.causeDue c).ev.next = s.ev.next ∧
    (s.causeDue c).ev.filling = s.ev.filling ∧ (s.causeDue c).power = s.power ∧ (s.causeDue c).store.nv = s.store.nv ∧
    (s.causeDue c).store.work = s.store.work ∧ (s.causeDue c).store.running = s.store.running ∧
    (s.causeDue c).store.startUp = s.store.startUp ∧ (s.causeDue c).store.active = s.store.active ∧
    (s.causeDue c).store.activeBank = s.store.activeBank ∧
    (s.causeDue c).store.activeVersion = s.store.activeVersion ∧
    (s.causeDue c).store.clampCount = s.store.clampCount ∧ (s.causeDue c).store.outcome = s.store.outcome ∧
    (s.causeDue c).store.faultCause = s.store.faultCause ∧ (s.causeDue c).store.faultItem = s.store.faultItem ∧
    (s.causeDue c).store.faultCount = s.store.faultCount ∧ (s.causeDue c).store.lost = s.store.lost ∧
    (s.causeDue c).store.taken = s.store.taken ∧ (s.causeDue c).store.inForce = s.store.inForce ∧
    (s.causeDue c).store.rangeClamps = s.store.rangeClamps ∧ (s.causeDue c).store.hardClamps = s.store.hardClamps ∧
    (s.causeDue c).store.keySlip = s.store.keySlip ∧ (s.causeDue c).upd = s.upd ∧
    (s.causeDue c).pending = s.pending := by
  simp only [State.causeDue]; (repeat' split) <;> (first | rfl | simp)

/-- `causeDue` keeps the canonical form of the memory. -/
@[simp] theorem causeDue_wf (s : State) (c : CauseRec) (hw : s.mem.wf = true) :
    (s.causeDue c).mem.wf = true := by
  simp only [State.causeDue]; (repeat' split) <;> first | exact hw | simp (maxDischargeDepth := 20) [hw, store_wf]

/-- What `causesDue` leaves alone. -/
@[simp] theorem causesDue_frame (s : State) (l : List CauseRec) :
    (s.causesDue l).pins = s.pins ∧ (s.causesDue l).port.notes = s.port.notes ∧
    (s.causesDue l).port.fault = s.port.fault ∧ (s.causesDue l).port.faultCount = s.port.faultCount ∧
    (s.causesDue l).port.tables = s.port.tables ∧ (s.causesDue l).port.lastTable = s.port.lastTable ∧
    (s.causesDue l).attn.enables = s.attn.enables ∧ (s.causesDue l).attn.levels = s.attn.levels ∧
    (s.causesDue l).attn.mask = s.attn.mask ∧ (s.causesDue l).chain.state = s.chain.state ∧
    (s.causesDue l).chain.origin = s.chain.origin ∧ (s.causesDue l).chain.wasDown = s.chain.wasDown ∧
    (s.causesDue l).chain.downSince = s.chain.downSince ∧ (s.causesDue l).chain.errs = s.chain.errs ∧
    (s.causesDue l).chain.suspectSince = s.chain.suspectSince ∧
    (s.causesDue l).chain.periodStart = s.chain.periodStart ∧ (s.causesDue l).chain.periodErrs = s.chain.periodErrs ∧
    (s.causesDue l).chain.capTag = s.chain.capTag ∧ (s.causesDue l).chain.exTag = s.chain.exTag ∧
    (s.causesDue l).chain.survey = s.chain.survey ∧ (s.causesDue l).chain.present = s.chain.present ∧
    (s.causesDue l).chain.configured = s.chain.configured ∧ (s.causesDue l).chain.breakLoc = s.chain.breakLoc ∧
    (s.causesDue l).chain.map = s.chain.map ∧ (s.causesDue l).chain.hold = s.chain.hold ∧
    (s.causesDue l).chain.line = s.chain.line ∧ (s.causesDue l).chain.lastSent = s.chain.lastSent ∧
    (s.causesDue l).chain.sleepCmd = s.chain.sleepCmd ∧
    (s.causesDue l).chain.wakeAfterSleep = s.chain.wakeAfterSleep ∧ (s.causesDue l).chain.wake = s.chain.wake ∧
    (s.causesDue l).chain.resetTone = s.chain.resetTone ∧ (s.causesDue l).chain.surveyTimer = s.chain.surveyTimer ∧
    (s.causesDue l).chain.firstUp = s.chain.firstUp ∧ (s.causesDue l).chain.surveySlip = s.chain.surveySlip ∧
    (s.causesDue l).chain.returning = s.chain.returning ∧ (s.causesDue l).conv = s.conv ∧
    (s.causesDue l).plan = s.plan ∧ (s.causesDue l).sup.waiting = s.sup.waiting ∧
    (s.causesDue l).sup.mainNeg = s.sup.mainNeg ∧ (s.causesDue l).sup.inrush = s.sup.inrush ∧
    (s.causesDue l).sup.lowSupply = s.sup.lowSupply ∧ (s.causesDue l).sup.settleAt = s.sup.settleAt ∧
    (s.causesDue l).sup.weld = s.sup.weld ∧ (s.causesDue l).sup.clear = s.sup.clear ∧
    (s.causesDue l).sup.hardRun = s.sup.hardRun ∧ (s.causesDue l).sup.hardFell = s.sup.hardFell ∧
    (s.causesDue l).sup.hardDue = s.sup.hardDue ∧ (s.causesDue l).sup.faultedSince = s.sup.faultedSince ∧
    (s.causesDue l).sup.lossDue = s.sup.lossDue ∧ (s.causesDue l).sup.silence = s.sup.silence ∧
    (s.causesDue l).sup.warn = s.sup.warn ∧ (s.causesDue l).sup.lapsed = s.sup.lapsed ∧
    (s.causesDue l).sup.once = s.sup.once ∧ (s.causesDue l).ev.age = s.ev.age ∧ (s.causesDue l).ev.next = s.ev.next ∧
    (s.causesDue l).ev.filling = s.ev.filling ∧ (s.causesDue l).power = s.power ∧
    (s.causesDue l).store.nv = s.store.nv ∧ (s.causesDue l).store.work = s.store.work ∧
    (s.causesDue l).store.running = s.store.running ∧ (s.causesDue l).store.startUp = s.store.startUp ∧
    (s.causesDue l).store.active = s.store.active ∧ (s.causesDue l).store.activeBank = s.store.activeBank ∧
    (s.causesDue l).store.activeVersion = s.store.activeVersion ∧
    (s.causesDue l).store.clampCount = s.store.clampCount ∧ (s.causesDue l).store.outcome = s.store.outcome ∧
    (s.causesDue l).store.faultCause = s.store.faultCause ∧ (s.causesDue l).store.faultItem = s.store.faultItem ∧
    (s.causesDue l).store.faultCount = s.store.faultCount ∧ (s.causesDue l).store.lost = s.store.lost ∧
    (s.causesDue l).store.taken = s.store.taken ∧ (s.causesDue l).store.inForce = s.store.inForce ∧
    (s.causesDue l).store.rangeClamps = s.store.rangeClamps ∧ (s.causesDue l).store.hardClamps = s.store.hardClamps ∧
    (s.causesDue l).store.keySlip = s.store.keySlip ∧ (s.causesDue l).upd = s.upd ∧
    (s.causesDue l).pending = s.pending := by
  simp only [State.causesDue]
  skip
  induction l generalizing s with
  | nil => simp
  | cons x l ih => simp [ih]

/-- `causesDue` keeps the canonical form of the memory. -/
@[simp] theorem causesDue_wf (s : State) (l : List CauseRec) (hw : s.mem.wf = true) :
    (s.causesDue l).mem.wf = true := by
  simp only [State.causesDue]
  skip
  induction l generalizing s with
  | nil => simp [hw]
  | cons x l ih => simp only [List.foldl_cons]; exact ih _ (causeDue_wf _ _ hw)

/-- What `endDeferral` leaves alone. -/
@[simp] theorem endDeferral_frame (s : State) :
    (s.endDeferral).pins = s.pins ∧ (s.endDeferral).port.notes = s.port.notes ∧
    (s.endDeferral).port.fault = s.port.fault ∧ (s.endDeferral).port.faultCount = s.port.faultCount ∧
    (s.endDeferral).port.tables = s.port.tables ∧ (s.endDeferral).port.lastTable = s.port.lastTable ∧
    (s.endDeferral).attn.enables = s.attn.enables ∧ (s.endDeferral).attn.levels = s.attn.levels ∧
    (s.endDeferral).attn.mask = s.attn.mask ∧ (s.endDeferral).chain.state = s.chain.state ∧
    (s.endDeferral).chain.origin = s.chain.origin ∧ (s.endDeferral).chain.wasDown = s.chain.wasDown ∧
    (s.endDeferral).chain.downSince = s.chain.downSince ∧ (s.endDeferral).chain.errs = s.chain.errs ∧
    (s.endDeferral).chain.suspectSince = s.chain.suspectSince ∧
    (s.endDeferral).chain.periodStart = s.chain.periodStart ∧ (s.endDeferral).chain.periodErrs = s.chain.periodErrs ∧
    (s.endDeferral).chain.capTag = s.chain.capTag ∧ (s.endDeferral).chain.exTag = s.chain.exTag ∧
    (s.endDeferral).chain.survey = s.chain.survey ∧ (s.endDeferral).chain.present = s.chain.present ∧
    (s.endDeferral).chain.configured = s.chain.configured ∧ (s.endDeferral).chain.breakLoc = s.chain.breakLoc ∧
    (s.endDeferral).chain.map = s.chain.map ∧ (s.endDeferral).chain.hold = s.chain.hold ∧
    (s.endDeferral).chain.line = s.chain.line ∧ (s.endDeferral).chain.lastSent = s.chain.lastSent ∧
    (s.endDeferral).chain.sleepCmd = s.chain.sleepCmd ∧
    (s.endDeferral).chain.wakeAfterSleep = s.chain.wakeAfterSleep ∧ (s.endDeferral).chain.wake = s.chain.wake ∧
    (s.endDeferral).chain.resetTone = s.chain.resetTone ∧ (s.endDeferral).chain.surveyTimer = s.chain.surveyTimer ∧
    (s.endDeferral).chain.firstUp = s.chain.firstUp ∧ (s.endDeferral).chain.surveySlip = s.chain.surveySlip ∧
    (s.endDeferral).chain.returning = s.chain.returning ∧ (s.endDeferral).conv = s.conv ∧
    (s.endDeferral).plan = s.plan ∧ (s.endDeferral).sup.waiting = s.sup.waiting ∧
    (s.endDeferral).sup.mainNeg = s.sup.mainNeg ∧ (s.endDeferral).sup.inrush = s.sup.inrush ∧
    (s.endDeferral).sup.lowSupply = s.sup.lowSupply ∧ (s.endDeferral).sup.settleAt = s.sup.settleAt ∧
    (s.endDeferral).sup.weld = s.sup.weld ∧ (s.endDeferral).sup.clear = s.sup.clear ∧
    (s.endDeferral).sup.hardRun = s.sup.hardRun ∧ (s.endDeferral).sup.hardFell = s.sup.hardFell ∧
    (s.endDeferral).sup.hardDue = s.sup.hardDue ∧ (s.endDeferral).sup.faultedSince = s.sup.faultedSince ∧
    (s.endDeferral).sup.lossDue = s.sup.lossDue ∧ (s.endDeferral).sup.silence = s.sup.silence ∧
    (s.endDeferral).sup.warn = s.sup.warn ∧ (s.endDeferral).sup.lapsed = s.sup.lapsed ∧
    (s.endDeferral).sup.once = s.sup.once ∧ (s.endDeferral).ev.slots = s.ev.slots ∧
    (s.endDeferral).ev.age = s.ev.age ∧ (s.endDeferral).ev.next = s.ev.next ∧
    (s.endDeferral).ev.filling = s.ev.filling ∧ (s.endDeferral).power = s.power ∧
    (s.endDeferral).store.nv = s.store.nv ∧ (s.endDeferral).store.work = s.store.work ∧
    (s.endDeferral).store.running = s.store.running ∧ (s.endDeferral).store.startUp = s.store.startUp ∧
    (s.endDeferral).store.active = s.store.active ∧ (s.endDeferral).store.activeBank = s.store.activeBank ∧
    (s.endDeferral).store.activeVersion = s.store.activeVersion ∧
    (s.endDeferral).store.clampCount = s.store.clampCount ∧ (s.endDeferral).store.outcome = s.store.outcome ∧
    (s.endDeferral).store.faultCause = s.store.faultCause ∧ (s.endDeferral).store.faultItem = s.store.faultItem ∧
    (s.endDeferral).store.faultCount = s.store.faultCount ∧ (s.endDeferral).store.lost = s.store.lost ∧
    (s.endDeferral).store.taken = s.store.taken ∧ (s.endDeferral).store.inForce = s.store.inForce ∧
    (s.endDeferral).store.rangeClamps = s.store.rangeClamps ∧ (s.endDeferral).store.hardClamps = s.store.hardClamps ∧
    (s.endDeferral).store.keySlip = s.store.keySlip ∧ (s.endDeferral).upd = s.upd ∧
    (s.endDeferral).pending = s.pending := by
  simp only [State.endDeferral]; (repeat' split) <;> (first | rfl | simp)

/-- `endDeferral` keeps the canonical form of the memory. -/
@[simp] theorem endDeferral_wf (s : State) (hw : s.mem.wf = true) :
    (s.endDeferral).mem.wf = true := by
  simp only [State.endDeferral]; (repeat' split) <;> first | exact hw | simp (maxDischargeDepth := 20) [hw, store_wf]

/-- What `coilFault` leaves alone. -/
@[simp] theorem coilFault_frame (s : State) (coil : CoilName) (mA : Nat) (second : Option (CoilName × Nat)) :
    (s.coilFault coil mA second).pins = s.pins ∧ (s.coilFault coil mA second).port.notes = s.port.notes ∧
    (s.coilFault coil mA second).port.fault = s.port.fault ∧
    (s.coilFault coil mA second).port.faultCount = s.port.faultCount ∧
    (s.coilFault coil mA second).port.tables = s.port.tables ∧
    (s.coilFault coil mA second).port.lastTable = s.port.lastTable ∧
    (s.coilFault coil mA second).attn.enables = s.attn.enables ∧
    (s.coilFault coil mA second).attn.levels = s.attn.levels ∧ (s.coilFault coil mA second).attn.mask = s.attn.mask ∧
    (s.coilFault coil mA second).chain = s.chain ∧ (s.coilFault coil mA second).conv = s.conv ∧
    (s.coilFault coil mA second).plan = s.plan ∧ (s.coilFault coil mA second).sup.waiting = s.sup.waiting ∧
    (s.coilFault coil mA second).sup.inrush = s.sup.inrush ∧
    (s.coilFault coil mA second).sup.lowSupply = s.sup.lowSupply ∧
    (s.coilFault coil mA second).sup.settleAt = s.sup.settleAt ∧
    (s.coilFault coil mA second).sup.clear = s.sup.clear ∧ (s.coilFault coil mA second).sup.hardRun = s.sup.hardRun ∧
    (s.coilFault coil mA second).sup.hardFell = s.sup.hardFell ∧
    (s.coilFault coil mA second).sup.hardDue = s.sup.hardDue ∧
    (s.coilFault coil mA second).sup.faultedSince = s.sup.faultedSince ∧
    (s.coilFault coil mA second).sup.lossDue = s.sup.lossDue ∧
    (s.coilFault coil mA second).sup.silence = s.sup.silence ∧ (s.coilFault coil mA second).sup.warn = s.sup.warn ∧
    (s.coilFault coil mA second).sup.lapsed = s.sup.lapsed ∧ (s.coilFault coil mA second).sup.once = s.sup.once ∧
    (s.coilFault coil mA second).ev.age = s.ev.age ∧ (s.coilFault coil mA second).ev.next = s.ev.next ∧
    (s.coilFault coil mA second).ev.filling = s.ev.filling ∧ (s.coilFault coil mA second).power = s.power ∧
    (s.coilFault coil mA second).store.nv = s.store.nv ∧ (s.coilFault coil mA second).store.work = s.store.work ∧
    (s.coilFault coil mA second).store.running = s.store.running ∧
    (s.coilFault coil mA second).store.startUp = s.store.startUp ∧
    (s.coilFault coil mA second).store.active = s.store.active ∧
    (s.coilFault coil mA second).store.activeBank = s.store.activeBank ∧
    (s.coilFault coil mA second).store.activeVersion = s.store.activeVersion ∧
    (s.coilFault coil mA second).store.clampCount = s.store.clampCount ∧
    (s.coilFault coil mA second).store.outcome = s.store.outcome ∧
    (s.coilFault coil mA second).store.faultCause = s.store.faultCause ∧
    (s.coilFault coil mA second).store.faultItem = s.store.faultItem ∧
    (s.coilFault coil mA second).store.faultCount = s.store.faultCount ∧
    (s.coilFault coil mA second).store.lost = s.store.lost ∧
    (s.coilFault coil mA second).store.taken = s.store.taken ∧
    (s.coilFault coil mA second).store.inForce = s.store.inForce ∧
    (s.coilFault coil mA second).store.rangeClamps = s.store.rangeClamps ∧
    (s.coilFault coil mA second).store.hardClamps = s.store.hardClamps ∧
    (s.coilFault coil mA second).store.keySlip = s.store.keySlip ∧ (s.coilFault coil mA second).upd = s.upd ∧
    (s.coilFault coil mA second).pending = s.pending := by
  simp only [State.coilFault]; (repeat' split) <;> (first | rfl | simp)

/-- `coilFault` keeps the canonical form of the memory. -/
@[simp] theorem coilFault_wf (s : State) (coil : CoilName) (mA : Nat) (second : Option (CoilName × Nat)) (hw : s.mem.wf = true) :
    (s.coilFault coil mA second).mem.wf = true := by
  simp only [State.coilFault]; (repeat' split) <;> first | exact hw | simp (maxDischargeDepth := 20) [hw, store_wf]

/-- What `judgeWeld` leaves alone. -/
@[simp] theorem judgeWeld_frame (s : State) (w : Weld) (x : Sample) :
    (s.judgeWeld w x).pins = s.pins ∧ (s.judgeWeld w x).port.notes = s.port.notes ∧
    (s.judgeWeld w x).port.fault = s.port.fault ∧ (s.judgeWeld w x).port.faultCount = s.port.faultCount ∧
    (s.judgeWeld w x).port.tables = s.port.tables ∧ (s.judgeWeld w x).port.lastTable = s.port.lastTable ∧
    (s.judgeWeld w x).attn.enables = s.attn.enables ∧ (s.judgeWeld w x).attn.levels = s.attn.levels ∧
    (s.judgeWeld w x).attn.mask = s.attn.mask ∧ (s.judgeWeld w x).chain = s.chain ∧ (s.judgeWeld w x).conv = s.conv ∧
    (s.judgeWeld w x).plan = s.plan ∧ (s.judgeWeld w x).sup.waiting = s.sup.waiting ∧
    (s.judgeWeld w x).sup.mainNeg = s.sup.mainNeg ∧ (s.judgeWeld w x).sup.precharge = s.sup.precharge ∧
    (s.judgeWeld w x).sup.mainPos = s.sup.mainPos ∧ (s.judgeWeld w x).sup.inrush = s.sup.inrush ∧
    (s.judgeWeld w x).sup.lowSupply = s.sup.lowSupply ∧ (s.judgeWeld w x).sup.close = s.sup.close ∧
    (s.judgeWeld w x).sup.settleAt = s.sup.settleAt ∧ (s.judgeWeld w x).sup.opening = s.sup.opening ∧
    (s.judgeWeld w x).sup.deferral = s.sup.deferral ∧ (s.judgeWeld w x).sup.hardRun = s.sup.hardRun ∧
    (s.judgeWeld w x).sup.hardFell = s.sup.hardFell ∧ (s.judgeWeld w x).sup.hardDue = s.sup.hardDue ∧
    (s.judgeWeld w x).sup.faultedSince = s.sup.faultedSince ∧ (s.judgeWeld w x).sup.lossDue = s.sup.lossDue ∧
    (s.judgeWeld w x).sup.silence = s.sup.silence ∧ (s.judgeWeld w x).sup.warn = s.sup.warn ∧
    (s.judgeWeld w x).sup.lapsed = s.sup.lapsed ∧ (s.judgeWeld w x).sup.once = s.sup.once ∧
    (s.judgeWeld w x).ev.slots = s.ev.slots ∧ (s.judgeWeld w x).ev.age = s.ev.age ∧
    (s.judgeWeld w x).ev.next = s.ev.next ∧ (s.judgeWeld w x).ev.filling = s.ev.filling ∧
    (s.judgeWeld w x).power = s.power ∧ (s.judgeWeld w x).store.nv = s.store.nv ∧
    (s.judgeWeld w x).store.work = s.store.work ∧ (s.judgeWeld w x).store.running = s.store.running ∧
    (s.judgeWeld w x).store.startUp = s.store.startUp ∧ (s.judgeWeld w x).store.active = s.store.active ∧
    (s.judgeWeld w x).store.activeBank = s.store.activeBank ∧
    (s.judgeWeld w x).store.activeVersion = s.store.activeVersion ∧
    (s.judgeWeld w x).store.clampCount = s.store.clampCount ∧ (s.judgeWeld w x).store.outcome = s.store.outcome ∧
    (s.judgeWeld w x).store.faultCause = s.store.faultCause ∧ (s.judgeWeld w x).store.faultItem = s.store.faultItem ∧
    (s.judgeWeld w x).store.faultCount = s.store.faultCount ∧ (s.judgeWeld w x).store.lost = s.store.lost ∧
    (s.judgeWeld w x).store.taken = s.store.taken ∧ (s.judgeWeld w x).store.inForce = s.store.inForce ∧
    (s.judgeWeld w x).store.rangeClamps = s.store.rangeClamps ∧
    (s.judgeWeld w x).store.hardClamps = s.store.hardClamps ∧ (s.judgeWeld w x).store.keySlip = s.store.keySlip ∧
    (s.judgeWeld w x).upd = s.upd ∧ (s.judgeWeld w x).free = s.free ∧ (s.judgeWeld w x).pending = s.pending := by
  simp only [State.judgeWeld]; (repeat' split) <;> (first | rfl | simp)

/-- `judgeWeld` keeps the canonical form of the memory. -/
@[simp] theorem judgeWeld_wf (s : State) (w : Weld) (x : Sample) (hw : s.mem.wf = true) :
    (s.judgeWeld w x).mem.wf = true := by
  simp only [State.judgeWeld]; (repeat' split) <;> first | exact hw | simp (maxDischargeDepth := 20) [hw, store_wf]

/-- What `lockoutCleared` leaves alone. -/
@[simp] theorem lockoutCleared_frame (s : State) (done : Bool) :
    (s.lockoutCleared done).pins = s.pins ∧ (s.lockoutCleared done).port.notes = s.port.notes ∧
    (s.lockoutCleared done).port.fault = s.port.fault ∧ (s.lockoutCleared done).port.faultCount = s.port.faultCount ∧
    (s.lockoutCleared done).port.tables = s.port.tables ∧ (s.lockoutCleared done).port.lastTable = s.port.lastTable ∧
    (s.lockoutCleared done).attn.enables = s.attn.enables ∧ (s.lockoutCleared done).attn.levels = s.attn.levels ∧
    (s.lockoutCleared done).attn.mask = s.attn.mask ∧ (s.lockoutCleared done).chain = s.chain ∧
    (s.lockoutCleared done).conv = s.conv ∧ (s.lockoutCleared done).plan = s.plan ∧
    (s.lockoutCleared done).sup.waiting = s.sup.waiting ∧ (s.lockoutCleared done).sup.mainNeg = s.sup.mainNeg ∧
    (s.lockoutCleared done).sup.precharge = s.sup.precharge ∧ (s.lockoutCleared done).sup.mainPos = s.sup.mainPos ∧
    (s.lockoutCleared done).sup.inrush = s.sup.inrush ∧ (s.lockoutCleared done).sup.lowSupply = s.sup.lowSupply ∧
    (s.lockoutCleared done).sup.close = s.sup.close ∧ (s.lockoutCleared done).sup.settleAt = s.sup.settleAt ∧
    (s.lockoutCleared done).sup.opening = s.sup.opening ∧ (s.lockoutCleared done).sup.weld = s.sup.weld ∧
    (s.lockoutCleared done).sup.deferral = s.sup.deferral ∧ (s.lockoutCleared done).sup.hardRun = s.sup.hardRun ∧
    (s.lockoutCleared done).sup.hardFell = s.sup.hardFell ∧ (s.lockoutCleared done).sup.hardDue = s.sup.hardDue ∧
    (s.lockoutCleared done).sup.faultedSince = s.sup.faultedSince ∧
    (s.lockoutCleared done).sup.lossDue = s.sup.lossDue ∧ (s.lockoutCleared done).sup.silence = s.sup.silence ∧
    (s.lockoutCleared done).sup.warn = s.sup.warn ∧ (s.lockoutCleared done).sup.lapsed = s.sup.lapsed ∧
    (s.lockoutCleared done).sup.once = s.sup.once ∧ (s.lockoutCleared done).ev.slots = s.ev.slots ∧
    (s.lockoutCleared done).ev.age = s.ev.age ∧ (s.lockoutCleared done).ev.next = s.ev.next ∧
    (s.lockoutCleared done).ev.filling = s.ev.filling ∧ (s.lockoutCleared done).power = s.power ∧
    (s.lockoutCleared done).store = s.store ∧ (s.lockoutCleared done).upd = s.upd ∧
    (s.lockoutCleared done).free = s.free ∧ (s.lockoutCleared done).pending = s.pending := by
  simp only [State.lockoutCleared]; (repeat' split) <;> (first | rfl | simp)

/-- `lockoutCleared` keeps the canonical form of the memory. -/
@[simp] theorem lockoutCleared_wf (s : State) (done : Bool) (hw : s.mem.wf = true) :
    (s.lockoutCleared done).mem.wf = true := by
  simp only [State.lockoutCleared]; (repeat' split) <;> first | exact hw | simp (maxDischargeDepth := 20) [hw, store_wf]

/-- What `judgeLoss` leaves alone. -/
@[simp] theorem judgeLoss_frame (s : State) :
    (s.judgeLoss).mem = s.mem ∧ (s.judgeLoss).pins = s.pins ∧ (s.judgeLoss).port = s.port ∧
    (s.judgeLoss).attn = s.attn ∧ (s.judgeLoss).chain = s.chain ∧ (s.judgeLoss).conv = s.conv ∧
    (s.judgeLoss).plan = s.plan ∧ (s.judgeLoss).sup.state = s.sup.state ∧ (s.judgeLoss).sup.waiting = s.sup.waiting ∧
    (s.judgeLoss).sup.mainNeg = s.sup.mainNeg ∧ (s.judgeLoss).sup.precharge = s.sup.precharge ∧
    (s.judgeLoss).sup.mainPos = s.sup.mainPos ∧ (s.judgeLoss).sup.inrush = s.sup.inrush ∧
    (s.judgeLoss).sup.lowSupply = s.sup.lowSupply ∧ (s.judgeLoss).sup.close = s.sup.close ∧
    (s.judgeLoss).sup.settleAt = s.sup.settleAt ∧ (s.judgeLoss).sup.opening = s.sup.opening ∧
    (s.judgeLoss).sup.weld = s.sup.weld ∧ (s.judgeLoss).sup.clear = s.sup.clear ∧
    (s.judgeLoss).sup.deferral = s.sup.deferral ∧ (s.judgeLoss).sup.hardRun = s.sup.hardRun ∧
    (s.judgeLoss).sup.hardFell = s.sup.hardFell ∧ (s.judgeLoss).sup.hardDue = s.sup.hardDue ∧
    (s.judgeLoss).sup.faultedSince = s.sup.faultedSince ∧ (s.judgeLoss).sup.silence = s.sup.silence ∧
    (s.judgeLoss).sup.warn = s.sup.warn ∧ (s.judgeLoss).sup.lapsed = s.sup.lapsed ∧
    (s.judgeLoss).sup.once = s.sup.once ∧ (s.judgeLoss).ev = s.ev ∧ (s.judgeLoss).power = s.power ∧
    (s.judgeLoss).store = s.store ∧ (s.judgeLoss).upd = s.upd ∧ (s.judgeLoss).free = s.free ∧
    (s.judgeLoss).pending = s.pending := by
  simp only [State.judgeLoss]; (repeat' split) <;> (first | rfl | simp)

/-- What `beginClose` leaves alone. -/
@[simp] theorem beginClose_frame (s : State) (slot : Nat) :
    (s.beginClose slot).pins = s.pins ∧ (s.beginClose slot).port.notes = s.port.notes ∧
    (s.beginClose slot).port.fault = s.port.fault ∧ (s.beginClose slot).port.faultCount = s.port.faultCount ∧
    (s.beginClose slot).port.tables = s.port.tables ∧ (s.beginClose slot).port.lastTable = s.port.lastTable ∧
    (s.beginClose slot).attn.enables = s.attn.enables ∧ (s.beginClose slot).attn.levels = s.attn.levels ∧
    (s.beginClose slot).attn.mask = s.attn.mask ∧ (s.beginClose slot).chain.state = s.chain.state ∧
    (s.beginClose slot).chain.origin = s.chain.origin ∧ (s.beginClose slot).chain.wasDown = s.chain.wasDown ∧
    (s.beginClose slot).chain.downSince = s.chain.downSince ∧ (s.beginClose slot).chain.errs = s.chain.errs ∧
    (s.beginClose slot).chain.suspectSince = s.chain.suspectSince ∧
    (s.beginClose slot).chain.periodStart = s.chain.periodStart ∧
    (s.beginClose slot).chain.periodErrs = s.chain.periodErrs ∧ (s.beginClose slot).chain.capTag = s.chain.capTag ∧
    (s.beginClose slot).chain.exTag = s.chain.exTag ∧ (s.beginClose slot).chain.survey = s.chain.survey ∧
    (s.beginClose slot).chain.present = s.chain.present ∧ (s.beginClose slot).chain.configured = s.chain.configured ∧
    (s.beginClose slot).chain.breakLoc = s.chain.breakLoc ∧ (s.beginClose slot).chain.map = s.chain.map ∧
    (s.beginClose slot).chain.hold = s.chain.hold ∧ (s.beginClose slot).chain.line = s.chain.line ∧
    (s.beginClose slot).chain.lastSent = s.chain.lastSent ∧ (s.beginClose slot).chain.sleepCmd = s.chain.sleepCmd ∧
    (s.beginClose slot).chain.wakeAfterSleep = s.chain.wakeAfterSleep ∧
    (s.beginClose slot).chain.wake = s.chain.wake ∧ (s.beginClose slot).chain.resetTone = s.chain.resetTone ∧
    (s.beginClose slot).chain.surveyTimer = s.chain.surveyTimer ∧
    (s.beginClose slot).chain.firstUp = s.chain.firstUp ∧ (s.beginClose slot).chain.surveySlip = s.chain.surveySlip ∧
    (s.beginClose slot).chain.returning = s.chain.returning ∧ (s.beginClose slot).conv = s.conv ∧
    (s.beginClose slot).plan = s.plan ∧ (s.beginClose slot).sup.waiting = s.sup.waiting ∧
    (s.beginClose slot).sup.lowSupply = s.sup.lowSupply ∧ (s.beginClose slot).sup.settleAt = s.sup.settleAt ∧
    (s.beginClose slot).sup.weld = s.sup.weld ∧ (s.beginClose slot).sup.clear = s.sup.clear ∧
    (s.beginClose slot).sup.hardRun = s.sup.hardRun ∧ (s.beginClose slot).sup.hardFell = s.sup.hardFell ∧
    (s.beginClose slot).sup.hardDue = s.sup.hardDue ∧ (s.beginClose slot).sup.faultedSince = s.sup.faultedSince ∧
    (s.beginClose slot).sup.silence = s.sup.silence ∧ (s.beginClose slot).sup.warn = s.sup.warn ∧
    (s.beginClose slot).sup.lapsed = s.sup.lapsed ∧ (s.beginClose slot).sup.once = s.sup.once ∧
    (s.beginClose slot).ev.age = s.ev.age ∧ (s.beginClose slot).ev.next = s.ev.next ∧
    (s.beginClose slot).ev.filling = s.ev.filling ∧ (s.beginClose slot).power = s.power ∧
    (s.beginClose slot).store.nv = s.store.nv ∧ (s.beginClose slot).store.work = s.store.work ∧
    (s.beginClose slot).store.running = s.store.running ∧ (s.beginClose slot).store.startUp = s.store.startUp ∧
    (s.beginClose slot).store.active = s.store.active ∧ (s.beginClose slot).store.activeBank = s.store.activeBank ∧
    (s.beginClose slot).store.activeVersion = s.store.activeVersion ∧
    (s.beginClose slot).store.clampCount = s.store.clampCount ∧ (s.beginClose slot).store.outcome = s.store.outcome ∧
    (s.beginClose slot).store.faultCause = s.store.faultCause ∧
    (s.beginClose slot).store.faultItem = s.store.faultItem ∧
    (s.beginClose slot).store.faultCount = s.store.faultCount ∧ (s.beginClose slot).store.lost = s.store.lost ∧
    (s.beginClose slot).store.taken = s.store.taken ∧ (s.beginClose slot).store.inForce = s.store.inForce ∧
    (s.beginClose slot).store.rangeClamps = s.store.rangeClamps ∧
    (s.beginClose slot).store.hardClamps = s.store.hardClamps ∧ (s.beginClose slot).store.keySlip = s.store.keySlip ∧
    (s.beginClose slot).upd = s.upd ∧ (s.beginClose slot).pending = s.pending := by
  simp only [State.beginClose]; (repeat' split) <;> (first | rfl | simp)

/-- `beginClose` keeps the canonical form of the memory. -/
@[simp] theorem beginClose_wf (s : State) (slot : Nat) (hw : s.mem.wf = true) :
    (s.beginClose slot).mem.wf = true := by
  simp only [State.beginClose]; (repeat' split) <;> first | exact hw | simp (maxDischargeDepth := 20) [hw, store_wf]

/-- What `clearSilence` leaves alone. -/
@[simp] theorem clearSilence_frame (s : State) :
    (s.clearSilence).mem = s.mem ∧ (s.clearSilence).pins = s.pins ∧ (s.clearSilence).port = s.port ∧
    (s.clearSilence).attn = s.attn ∧ (s.clearSilence).chain = s.chain ∧ (s.clearSilence).conv = s.conv ∧
    (s.clearSilence).plan = s.plan ∧ (s.clearSilence).sup.state = s.sup.state ∧
    (s.clearSilence).sup.waiting = s.sup.waiting ∧ (s.clearSilence).sup.mainNeg = s.sup.mainNeg ∧
    (s.clearSilence).sup.precharge = s.sup.precharge ∧ (s.clearSilence).sup.mainPos = s.sup.mainPos ∧
    (s.clearSilence).sup.inrush = s.sup.inrush ∧ (s.clearSilence).sup.lowSupply = s.sup.lowSupply ∧
    (s.clearSilence).sup.close = s.sup.close ∧ (s.clearSilence).sup.settleAt = s.sup.settleAt ∧
    (s.clearSilence).sup.opening = s.sup.opening ∧ (s.clearSilence).sup.weld = s.sup.weld ∧
    (s.clearSilence).sup.clear = s.sup.clear ∧ (s.clearSilence).sup.deferral = s.sup.deferral ∧
    (s.clearSilence).sup.hardRun = s.sup.hardRun ∧ (s.clearSilence).sup.hardFell = s.sup.hardFell ∧
    (s.clearSilence).sup.hardDue = s.sup.hardDue ∧ (s.clearSilence).sup.faultedSince = s.sup.faultedSince ∧
    (s.clearSilence).sup.lossHeld = s.sup.lossHeld ∧ (s.clearSilence).sup.lossDue = s.sup.lossDue ∧
    (s.clearSilence).sup.lapsed = s.sup.lapsed ∧ (s.clearSilence).sup.once = s.sup.once ∧
    (s.clearSilence).ev = s.ev ∧ (s.clearSilence).power = s.power ∧ (s.clearSilence).store = s.store ∧
    (s.clearSilence).upd = s.upd ∧ (s.clearSilence).free = s.free ∧ (s.clearSilence).pending = s.pending := by
  simp only [State.clearSilence]; (repeat' split) <;> (first | rfl | simp)

/-- What `silenceWarning` leaves alone. -/
@[simp] theorem silenceWarning_frame (s : State) :
    (s.silenceWarning).pins = s.pins ∧ (s.silenceWarning).port = s.port ∧
    (s.silenceWarning).attn.enables = s.attn.enables ∧ (s.silenceWarning).attn.levels = s.attn.levels ∧
    (s.silenceWarning).attn.mask = s.attn.mask ∧ (s.silenceWarning).chain = s.chain ∧
    (s.silenceWarning).conv = s.conv ∧ (s.silenceWarning).plan = s.plan ∧
    (s.silenceWarning).sup.state = s.sup.state ∧ (s.silenceWarning).sup.waiting = s.sup.waiting ∧
    (s.silenceWarning).sup.mainNeg = s.sup.mainNeg ∧ (s.silenceWarning).sup.precharge = s.sup.precharge ∧
    (s.silenceWarning).sup.mainPos = s.sup.mainPos ∧ (s.silenceWarning).sup.inrush = s.sup.inrush ∧
    (s.silenceWarning).sup.lowSupply = s.sup.lowSupply ∧ (s.silenceWarning).sup.close = s.sup.close ∧
    (s.silenceWarning).sup.settleAt = s.sup.settleAt ∧ (s.silenceWarning).sup.opening = s.sup.opening ∧
    (s.silenceWarning).sup.weld = s.sup.weld ∧ (s.silenceWarning).sup.clear = s.sup.clear ∧
    (s.silenceWarning).sup.deferral = s.sup.deferral ∧ (s.silenceWarning).sup.hardRun = s.sup.hardRun ∧
    (s.silenceWarning).sup.hardFell = s.sup.hardFell ∧ (s.silenceWarning).sup.hardDue = s.sup.hardDue ∧
    (s.silenceWarning).sup.faultedSince = s.sup.faultedSince ∧ (s.silenceWarning).sup.lossHeld = s.sup.lossHeld ∧
    (s.silenceWarning).sup.lossDue = s.sup.lossDue ∧ (s.silenceWarning).sup.silence = s.sup.silence ∧
    (s.silenceWarning).sup.lapsed = s.sup.lapsed ∧ (s.silenceWarning).sup.once = s.sup.once ∧
    (s.silenceWarning).ev = s.ev ∧ (s.silenceWarning).power = s.power ∧ (s.silenceWarning).store = s.store ∧
    (s.silenceWarning).upd = s.upd ∧ (s.silenceWarning).free = s.free ∧ (s.silenceWarning).pending = s.pending := by
  simp only [State.silenceWarning]; (repeat' split) <;> (first | rfl | simp)

/-- `silenceWarning` keeps the canonical form of the memory. -/
@[simp] theorem silenceWarning_wf (s : State) (hw : s.mem.wf = true) :
    (s.silenceWarning).mem.wf = true := by
  simp only [State.silenceWarning]; (repeat' split) <;> first | exact hw | simp (maxDischargeDepth := 20) [hw, store_wf]

/-- What `silenceExpiry` leaves alone. -/
@[simp] theorem silenceExpiry_frame (s : State) :
    (s.silenceExpiry).pins = s.pins ∧ (s.silenceExpiry).port.notes = s.port.notes ∧
    (s.silenceExpiry).port.fault = s.port.fault ∧ (s.silenceExpiry).port.faultCount = s.port.faultCount ∧
    (s.silenceExpiry).port.tables = s.port.tables ∧ (s.silenceExpiry).port.lastTable = s.port.lastTable ∧
    (s.silenceExpiry).attn.enables = s.attn.enables ∧ (s.silenceExpiry).attn.levels = s.attn.levels ∧
    (s.silenceExpiry).attn.mask = s.attn.mask ∧ (s.silenceExpiry).chain.state = s.chain.state ∧
    (s.silenceExpiry).chain.origin = s.chain.origin ∧ (s.silenceExpiry).chain.wasDown = s.chain.wasDown ∧
    (s.silenceExpiry).chain.downSince = s.chain.downSince ∧ (s.silenceExpiry).chain.errs = s.chain.errs ∧
    (s.silenceExpiry).chain.suspectSince = s.chain.suspectSince ∧
    (s.silenceExpiry).chain.periodStart = s.chain.periodStart ∧
    (s.silenceExpiry).chain.periodErrs = s.chain.periodErrs ∧ (s.silenceExpiry).chain.capTag = s.chain.capTag ∧
    (s.silenceExpiry).chain.exTag = s.chain.exTag ∧ (s.silenceExpiry).chain.survey = s.chain.survey ∧
    (s.silenceExpiry).chain.present = s.chain.present ∧ (s.silenceExpiry).chain.configured = s.chain.configured ∧
    (s.silenceExpiry).chain.breakLoc = s.chain.breakLoc ∧ (s.silenceExpiry).chain.map = s.chain.map ∧
    (s.silenceExpiry).chain.hold = s.chain.hold ∧ (s.silenceExpiry).chain.line = s.chain.line ∧
    (s.silenceExpiry).chain.lastSent = s.chain.lastSent ∧ (s.silenceExpiry).chain.sleepCmd = s.chain.sleepCmd ∧
    (s.silenceExpiry).chain.wakeAfterSleep = s.chain.wakeAfterSleep ∧ (s.silenceExpiry).chain.wake = s.chain.wake ∧
    (s.silenceExpiry).chain.resetTone = s.chain.resetTone ∧
    (s.silenceExpiry).chain.surveyTimer = s.chain.surveyTimer ∧ (s.silenceExpiry).chain.firstUp = s.chain.firstUp ∧
    (s.silenceExpiry).chain.surveySlip = s.chain.surveySlip ∧ (s.silenceExpiry).chain.returning = s.chain.returning ∧
    (s.silenceExpiry).conv = s.conv ∧ (s.silenceExpiry).plan = s.plan ∧
    (s.silenceExpiry).sup.waiting = s.sup.waiting ∧ (s.silenceExpiry).sup.mainNeg = s.sup.mainNeg ∧
    (s.silenceExpiry).sup.inrush = s.sup.inrush ∧ (s.silenceExpiry).sup.lowSupply = s.sup.lowSupply ∧
    (s.silenceExpiry).sup.settleAt = s.sup.settleAt ∧ (s.silenceExpiry).sup.weld = s.sup.weld ∧
    (s.silenceExpiry).sup.clear = s.sup.clear ∧ (s.silenceExpiry).sup.hardRun = s.sup.hardRun ∧
    (s.silenceExpiry).sup.hardFell = s.sup.hardFell ∧ (s.silenceExpiry).sup.hardDue = s.sup.hardDue ∧
    (s.silenceExpiry).sup.faultedSince = s.sup.faultedSince ∧ (s.silenceExpiry).sup.lossDue = s.sup.lossDue ∧
    (s.silenceExpiry).sup.once = s.sup.once ∧ (s.silenceExpiry).ev.age = s.ev.age ∧
    (s.silenceExpiry).ev.next = s.ev.next ∧ (s.silenceExpiry).ev.filling = s.ev.filling ∧
    (s.silenceExpiry).power = s.power ∧ (s.silenceExpiry).store.nv = s.store.nv ∧
    (s.silenceExpiry).store.work = s.store.work ∧ (s.silenceExpiry).store.running = s.store.running ∧
    (s.silenceExpiry).store.startUp = s.store.startUp ∧ (s.silenceExpiry).store.active = s.store.active ∧
    (s.silenceExpiry).store.activeBank = s.store.activeBank ∧
    (s.silenceExpiry).store.activeVersion = s.store.activeVersion ∧
    (s.silenceExpiry).store.clampCount = s.store.clampCount ∧ (s.silenceExpiry).store.outcome = s.store.outcome ∧
    (s.silenceExpiry).store.faultCause = s.store.faultCause ∧ (s.silenceExpiry).store.faultItem = s.store.faultItem ∧
    (s.silenceExpiry).store.faultCount = s.store.faultCount ∧ (s.silenceExpiry).store.lost = s.store.lost ∧
    (s.silenceExpiry).store.taken = s.store.taken ∧ (s.silenceExpiry).store.inForce = s.store.inForce ∧
    (s.silenceExpiry).store.rangeClamps = s.store.rangeClamps ∧
    (s.silenceExpiry).store.hardClamps = s.store.hardClamps ∧ (s.silenceExpiry).store.keySlip = s.store.keySlip ∧
    (s.silenceExpiry).upd = s.upd ∧ (s.silenceExpiry).pending = s.pending := by
  simp only [State.silenceExpiry]; (repeat' split) <;> (first | rfl | simp)

/-- `silenceExpiry` keeps the canonical form of the memory. -/
@[simp] theorem silenceExpiry_wf (s : State) (hw : s.mem.wf = true) :
    (s.silenceExpiry).mem.wf = true := by
  simp only [State.silenceExpiry]; (repeat' split) <;> first | exact hw | simp (maxDischargeDepth := 20) [hw, store_wf]

/-- What `countSilence` leaves alone. -/
@[simp] theorem countSilence_frame (s : State) :
    (s.countSilence).mem = s.mem ∧ (s.countSilence).pins = s.pins ∧ (s.countSilence).port = s.port ∧
    (s.countSilence).attn = s.attn ∧ (s.countSilence).chain = s.chain ∧ (s.countSilence).conv = s.conv ∧
    (s.countSilence).plan = s.plan ∧ (s.countSilence).sup.state = s.sup.state ∧
    (s.countSilence).sup.waiting = s.sup.waiting ∧ (s.countSilence).sup.mainNeg = s.sup.mainNeg ∧
    (s.countSilence).sup.precharge = s.sup.precharge ∧ (s.countSilence).sup.mainPos = s.sup.mainPos ∧
    (s.countSilence).sup.inrush = s.sup.inrush ∧ (s.countSilence).sup.lowSupply = s.sup.lowSupply ∧
    (s.countSilence).sup.close = s.sup.close ∧ (s.countSilence).sup.settleAt = s.sup.settleAt ∧
    (s.countSilence).sup.opening = s.sup.opening ∧ (s.countSilence).sup.weld = s.sup.weld ∧
    (s.countSilence).sup.clear = s.sup.clear ∧ (s.countSilence).sup.deferral = s.sup.deferral ∧
    (s.countSilence).sup.hardRun = s.sup.hardRun ∧ (s.countSilence).sup.hardFell = s.sup.hardFell ∧
    (s.countSilence).sup.hardDue = s.sup.hardDue ∧ (s.countSilence).sup.faultedSince = s.sup.faultedSince ∧
    (s.countSilence).sup.lossHeld = s.sup.lossHeld ∧ (s.countSilence).sup.lossDue = s.sup.lossDue ∧
    (s.countSilence).sup.warn = s.sup.warn ∧ (s.countSilence).sup.lapsed = s.sup.lapsed ∧
    (s.countSilence).sup.once = s.sup.once ∧ (s.countSilence).ev = s.ev ∧ (s.countSilence).power = s.power ∧
    (s.countSilence).store = s.store ∧ (s.countSilence).upd = s.upd ∧ (s.countSilence).free = s.free ∧
    (s.countSilence).pending = s.pending := by
  simp only [State.countSilence]; (repeat' split) <;> (first | rfl | simp)

/-- What `countHard` leaves alone. -/
@[simp] theorem countHard_frame (s : State) (i : Int) :
    (s.countHard i).mem = s.mem ∧ (s.countHard i).pins = s.pins ∧ (s.countHard i).port = s.port ∧
    (s.countHard i).attn = s.attn ∧ (s.countHard i).chain = s.chain ∧ (s.countHard i).conv = s.conv ∧
    (s.countHard i).plan = s.plan ∧ (s.countHard i).sup.state = s.sup.state ∧
    (s.countHard i).sup.waiting = s.sup.waiting ∧ (s.countHard i).sup.mainNeg = s.sup.mainNeg ∧
    (s.countHard i).sup.precharge = s.sup.precharge ∧ (s.countHard i).sup.mainPos = s.sup.mainPos ∧
    (s.countHard i).sup.inrush = s.sup.inrush ∧ (s.countHard i).sup.lowSupply = s.sup.lowSupply ∧
    (s.countHard i).sup.close = s.sup.close ∧ (s.countHard i).sup.settleAt = s.sup.settleAt ∧
    (s.countHard i).sup.opening = s.sup.opening ∧ (s.countHard i).sup.weld = s.sup.weld ∧
    (s.countHard i).sup.clear = s.sup.clear ∧ (s.countHard i).sup.deferral = s.sup.deferral ∧
    (s.countHard i).sup.faultedSince = s.sup.faultedSince ∧ (s.countHard i).sup.lossHeld = s.sup.lossHeld ∧
    (s.countHard i).sup.lossDue = s.sup.lossDue ∧ (s.countHard i).sup.silence = s.sup.silence ∧
    (s.countHard i).sup.warn = s.sup.warn ∧ (s.countHard i).sup.lapsed = s.sup.lapsed ∧
    (s.countHard i).sup.once = s.sup.once ∧ (s.countHard i).ev = s.ev ∧ (s.countHard i).power = s.power ∧
    (s.countHard i).store = s.store ∧ (s.countHard i).upd = s.upd ∧ (s.countHard i).free = s.free ∧
    (s.countHard i).pending = s.pending := by
  simp only [State.countHard]; (repeat' split) <;> (first | rfl | simp)

/-- What `reachPrecharge` leaves alone. -/
@[simp] theorem reachPrecharge_frame (s : State) (x : Sample) :
    (s.reachPrecharge x).pins = s.pins ∧ (s.reachPrecharge x).port = s.port ∧
    (s.reachPrecharge x).attn.enables = s.attn.enables ∧ (s.reachPrecharge x).attn.levels = s.attn.levels ∧
    (s.reachPrecharge x).attn.mask = s.attn.mask ∧ (s.reachPrecharge x).chain = s.chain ∧
    (s.reachPrecharge x).conv = s.conv ∧ (s.reachPrecharge x).plan = s.plan ∧
    (s.reachPrecharge x).sup.waiting = s.sup.waiting ∧ (s.reachPrecharge x).sup.mainNeg = s.sup.mainNeg ∧
    (s.reachPrecharge x).sup.precharge = s.sup.precharge ∧ (s.reachPrecharge x).sup.lowSupply = s.sup.lowSupply ∧
    (s.reachPrecharge x).sup.opening = s.sup.opening ∧ (s.reachPrecharge x).sup.weld = s.sup.weld ∧
    (s.reachPrecharge x).sup.clear = s.sup.clear ∧ (s.reachPrecharge x).sup.deferral = s.sup.deferral ∧
    (s.reachPrecharge x).sup.hardRun = s.sup.hardRun ∧ (s.reachPrecharge x).sup.hardFell = s.sup.hardFell ∧
    (s.reachPrecharge x).sup.hardDue = s.sup.hardDue ∧ (s.reachPrecharge x).sup.faultedSince = s.sup.faultedSince ∧
    (s.reachPrecharge x).sup.lossDue = s.sup.lossDue ∧ (s.reachPrecharge x).sup.silence = s.sup.silence ∧
    (s.reachPrecharge x).sup.warn = s.sup.warn ∧ (s.reachPrecharge x).sup.lapsed = s.sup.lapsed ∧
    (s.reachPrecharge x).sup.once = s.sup.once ∧ (s.reachPrecharge x).ev = s.ev ∧
    (s.reachPrecharge x).power = s.power ∧ (s.reachPrecharge x).store = s.store ∧ (s.reachPrecharge x).upd = s.upd ∧
    (s.reachPrecharge x).free = s.free ∧ (s.reachPrecharge x).pending = s.pending := by
  simp only [State.reachPrecharge]; (repeat' split) <;> (first | rfl | simp)

/-- `reachPrecharge` keeps the canonical form of the memory. -/
@[simp] theorem reachPrecharge_wf (s : State) (x : Sample) (hw : s.mem.wf = true) :
    (s.reachPrecharge x).mem.wf = true := by
  simp only [State.reachPrecharge]; (repeat' split) <;> first | exact hw | simp (maxDischargeDepth := 20) [hw, store_wf]

/-- What `supSample` leaves alone. -/
@[simp] theorem supSample_frame (s : State) (x : Sample) :
    (s.supSample x).pins = s.pins ∧ (s.supSample x).port.notes = s.port.notes ∧
    (s.supSample x).port.fault = s.port.fault ∧ (s.supSample x).port.faultCount = s.port.faultCount ∧
    (s.supSample x).port.tables = s.port.tables ∧ (s.supSample x).port.lastTable = s.port.lastTable ∧
    (s.supSample x).attn.enables = s.attn.enables ∧ (s.supSample x).attn.levels = s.attn.levels ∧
    (s.supSample x).attn.mask = s.attn.mask ∧ (s.supSample x).chain.state = s.chain.state ∧
    (s.supSample x).chain.origin = s.chain.origin ∧ (s.supSample x).chain.wasDown = s.chain.wasDown ∧
    (s.supSample x).chain.downSince = s.chain.downSince ∧ (s.supSample x).chain.errs = s.chain.errs ∧
    (s.supSample x).chain.suspectSince = s.chain.suspectSince ∧
    (s.supSample x).chain.periodStart = s.chain.periodStart ∧ (s.supSample x).chain.periodErrs = s.chain.periodErrs ∧
    (s.supSample x).chain.capTag = s.chain.capTag ∧ (s.supSample x).chain.exTag = s.chain.exTag ∧
    (s.supSample x).chain.survey = s.chain.survey ∧ (s.supSample x).chain.present = s.chain.present ∧
    (s.supSample x).chain.configured = s.chain.configured ∧ (s.supSample x).chain.breakLoc = s.chain.breakLoc ∧
    (s.supSample x).chain.map = s.chain.map ∧ (s.supSample x).chain.hold = s.chain.hold ∧
    (s.supSample x).chain.line = s.chain.line ∧ (s.supSample x).chain.lastSent = s.chain.lastSent ∧
    (s.supSample x).chain.sleepCmd = s.chain.sleepCmd ∧
    (s.supSample x).chain.wakeAfterSleep = s.chain.wakeAfterSleep ∧ (s.supSample x).chain.wake = s.chain.wake ∧
    (s.supSample x).chain.resetTone = s.chain.resetTone ∧ (s.supSample x).chain.surveyTimer = s.chain.surveyTimer ∧
    (s.supSample x).chain.firstUp = s.chain.firstUp ∧ (s.supSample x).chain.surveySlip = s.chain.surveySlip ∧
    (s.supSample x).chain.returning = s.chain.returning ∧ (s.supSample x).conv = s.conv ∧
    (s.supSample x).plan = s.plan ∧ (s.supSample x).sup.waiting = s.sup.waiting ∧
    (s.supSample x).sup.mainNeg = s.sup.mainNeg ∧ (s.supSample x).sup.faultedSince = s.sup.faultedSince ∧
    (s.supSample x).sup.lossDue = s.sup.lossDue ∧ (s.supSample x).sup.silence = s.sup.silence ∧
    (s.supSample x).sup.warn = s.sup.warn ∧ (s.supSample x).sup.lapsed = s.sup.lapsed ∧
    (s.supSample x).sup.once = s.sup.once ∧ (s.supSample x).ev.slots = s.ev.slots ∧
    (s.supSample x).ev.age = s.ev.age ∧ (s.supSample x).ev.next = s.ev.next ∧
    (s.supSample x).ev.filling = s.ev.filling ∧ (s.supSample x).power = s.power ∧
    (s.supSample x).store.nv = s.store.nv ∧ (s.supSample x).store.work = s.store.work ∧
    (s.supSample x).store.running = s.store.running ∧ (s.supSample x).store.startUp = s.store.startUp ∧
    (s.supSample x).store.active = s.store.active ∧ (s.supSample x).store.activeBank = s.store.activeBank ∧
    (s.supSample x).store.activeVersion = s.store.activeVersion ∧
    (s.supSample x).store.clampCount = s.store.clampCount ∧ (s.supSample x).store.outcome = s.store.outcome ∧
    (s.supSample x).store.faultCause = s.store.faultCause ∧ (s.supSample x).store.faultItem = s.store.faultItem ∧
    (s.supSample x).store.faultCount = s.store.faultCount ∧ (s.supSample x).store.lost = s.store.lost ∧
    (s.supSample x).store.taken = s.store.taken ∧ (s.supSample x).store.inForce = s.store.inForce ∧
    (s.supSample x).store.rangeClamps = s.store.rangeClamps ∧ (s.supSample x).store.hardClamps = s.store.hardClamps ∧
    (s.supSample x).store.keySlip = s.store.keySlip ∧ (s.supSample x).upd = s.upd ∧
    (s.supSample x).pending = s.pending := by
  simp only [State.supSample]; (repeat' split) <;> (first | rfl | simp)

/-- `supSample` keeps the canonical form of the memory. -/
@[simp] theorem supSample_wf (s : State) (x : Sample) (hw : s.mem.wf = true) :
    (s.supSample x).mem.wf = true := by
  simp only [State.supSample]; (repeat' split) <;> first | exact hw | simp (maxDischargeDepth := 20) [hw, store_wf]

/-- What `editHeld` leaves alone. -/
@[simp] theorem editHeld_frame (s : State) (f : Capture → Capture) :
    (s.editHeld f).mem = s.mem ∧ (s.editHeld f).pins = s.pins ∧ (s.editHeld f).port = s.port ∧
    (s.editHeld f).attn = s.attn ∧ (s.editHeld f).chain = s.chain ∧ (s.editHeld f).conv = s.conv ∧
    (s.editHeld f).plan.plans = s.plan.plans ∧ (s.editHeld f).plan.inForce = s.plan.inForce ∧
    (s.editHeld f).plan.dueDone = s.plan.dueDone ∧ (s.editHeld f).plan.overrun = s.plan.overrun ∧
    (s.editHeld f).plan.burst = s.plan.burst ∧ (s.editHeld f).plan.kept = s.plan.kept ∧
    (s.editHeld f).plan.high = s.plan.high ∧ (s.editHeld f).plan.low = s.plan.low ∧
    (s.editHeld f).plan.temp = s.plan.temp ∧ (s.editHeld f).plan.implausible = s.plan.implausible ∧
    (s.editHeld f).plan.fresh = s.plan.fresh ∧ (s.editHeld f).plan.setSeq = s.plan.setSeq ∧
    (s.editHeld f).plan.pages = s.plan.pages ∧ (s.editHeld f).plan.pageAge = s.plan.pageAge ∧
    (s.editHeld f).plan.writing = s.plan.writing ∧ (s.editHeld f).plan.latest = s.plan.latest ∧
    (s.editHeld f).plan.quiet = s.plan.quiet ∧ (s.editHeld f).plan.patrolReport = s.plan.patrolReport ∧
    (s.editHeld f).sup = s.sup ∧ (s.editHeld f).ev = s.ev ∧ (s.editHeld f).power = s.power ∧
    (s.editHeld f).store = s.store ∧ (s.editHeld f).upd = s.upd ∧ (s.editHeld f).free = s.free ∧
    (s.editHeld f).pending = s.pending := by
  simp only [State.editHeld]; (repeat' split) <;> (first | rfl | simp)

/-- What `beginPlanCapture` leaves alone. -/
@[simp] theorem beginPlanCapture_frame (s : State) (c : Capture) :
    (s.beginPlanCapture c).mem = s.mem ∧ (s.beginPlanCapture c).pins = s.pins ∧
    (s.beginPlanCapture c).port = s.port ∧ (s.beginPlanCapture c).attn = s.attn ∧
    (s.beginPlanCapture c).chain.state = s.chain.state ∧ (s.beginPlanCapture c).chain.origin = s.chain.origin ∧
    (s.beginPlanCapture c).chain.wasDown = s.chain.wasDown ∧
    (s.beginPlanCapture c).chain.downSince = s.chain.downSince ∧ (s.beginPlanCapture c).chain.errs = s.chain.errs ∧
    (s.beginPlanCapture c).chain.suspectSince = s.chain.suspectSince ∧
    (s.beginPlanCapture c).chain.periodStart = s.chain.periodStart ∧
    (s.beginPlanCapture c).chain.periodErrs = s.chain.periodErrs ∧
    (s.beginPlanCapture c).chain.capTag = s.chain.capTag ∧ (s.beginPlanCapture c).chain.exTag = s.chain.exTag ∧
    (s.beginPlanCapture c).chain.survey = s.chain.survey ∧ (s.beginPlanCapture c).chain.present = s.chain.present ∧
    (s.beginPlanCapture c).chain.configured = s.chain.configured ∧
    (s.beginPlanCapture c).chain.breakLoc = s.chain.breakLoc ∧ (s.beginPlanCapture c).chain.map = s.chain.map ∧
    (s.beginPlanCapture c).chain.hold = s.chain.hold ∧ (s.beginPlanCapture c).chain.line = s.chain.line ∧
    (s.beginPlanCapture c).chain.lastSent = s.chain.lastSent ∧
    (s.beginPlanCapture c).chain.sleepCmd = s.chain.sleepCmd ∧
    (s.beginPlanCapture c).chain.wakeAfterSleep = s.chain.wakeAfterSleep ∧
    (s.beginPlanCapture c).chain.wake = s.chain.wake ∧ (s.beginPlanCapture c).chain.resetTone = s.chain.resetTone ∧
    (s.beginPlanCapture c).chain.surveyTimer = s.chain.surveyTimer ∧
    (s.beginPlanCapture c).chain.firstUp = s.chain.firstUp ∧
    (s.beginPlanCapture c).chain.surveySlip = s.chain.surveySlip ∧
    (s.beginPlanCapture c).chain.balance = s.chain.balance ∧
    (s.beginPlanCapture c).chain.returning = s.chain.returning ∧ (s.beginPlanCapture c).conv = s.conv ∧
    (s.beginPlanCapture c).plan.plans = s.plan.plans ∧ (s.beginPlanCapture c).plan.inForce = s.plan.inForce ∧
    (s.beginPlanCapture c).plan.dueDone = s.plan.dueDone ∧ (s.beginPlanCapture c).plan.overrun = s.plan.overrun ∧
    (s.beginPlanCapture c).plan.burst = s.plan.burst ∧ (s.beginPlanCapture c).plan.kept = s.plan.kept ∧
    (s.beginPlanCapture c).plan.high = s.plan.high ∧ (s.beginPlanCapture c).plan.low = s.plan.low ∧
    (s.beginPlanCapture c).plan.temp = s.plan.temp ∧ (s.beginPlanCapture c).plan.implausible = s.plan.implausible ∧
    (s.beginPlanCapture c).plan.fresh = s.plan.fresh ∧ (s.beginPlanCapture c).plan.setSeq = s.plan.setSeq ∧
    (s.beginPlanCapture c).plan.pages = s.plan.pages ∧ (s.beginPlanCapture c).plan.pageAge = s.plan.pageAge ∧
    (s.beginPlanCapture c).plan.writing = s.plan.writing ∧ (s.beginPlanCapture c).plan.latest = s.plan.latest ∧
    (s.beginPlanCapture c).plan.quiet = s.plan.quiet ∧
    (s.beginPlanCapture c).plan.patrolReport = s.plan.patrolReport ∧ (s.beginPlanCapture c).sup = s.sup ∧
    (s.beginPlanCapture c).ev = s.ev ∧ (s.beginPlanCapture c).power = s.power ∧
    (s.beginPlanCapture c).store = s.store ∧ (s.beginPlanCapture c).upd = s.upd ∧
    (s.beginPlanCapture c).free = s.free ∧ (s.beginPlanCapture c).pending = s.pending := by
  simp only [State.beginPlanCapture]; (repeat' split) <;> (first | rfl | simp)

/-- What `dropEarly` leaves alone. -/
@[simp] theorem dropEarly_frame (s : State) (p : Nat) :
    (s.dropEarly p).mem = s.mem ∧ (s.dropEarly p).pins = s.pins ∧ (s.dropEarly p).port = s.port ∧
    (s.dropEarly p).attn = s.attn ∧ (s.dropEarly p).chain.state = s.chain.state ∧
    (s.dropEarly p).chain.origin = s.chain.origin ∧ (s.dropEarly p).chain.wasDown = s.chain.wasDown ∧
    (s.dropEarly p).chain.downSince = s.chain.downSince ∧ (s.dropEarly p).chain.errs = s.chain.errs ∧
    (s.dropEarly p).chain.suspectSince = s.chain.suspectSince ∧
    (s.dropEarly p).chain.periodStart = s.chain.periodStart ∧ (s.dropEarly p).chain.periodErrs = s.chain.periodErrs ∧
    (s.dropEarly p).chain.capTag = s.chain.capTag ∧ (s.dropEarly p).chain.exTag = s.chain.exTag ∧
    (s.dropEarly p).chain.survey = s.chain.survey ∧ (s.dropEarly p).chain.present = s.chain.present ∧
    (s.dropEarly p).chain.configured = s.chain.configured ∧ (s.dropEarly p).chain.breakLoc = s.chain.breakLoc ∧
    (s.dropEarly p).chain.map = s.chain.map ∧ (s.dropEarly p).chain.hold = s.chain.hold ∧
    (s.dropEarly p).chain.line = s.chain.line ∧ (s.dropEarly p).chain.lastSent = s.chain.lastSent ∧
    (s.dropEarly p).chain.sleepCmd = s.chain.sleepCmd ∧
    (s.dropEarly p).chain.wakeAfterSleep = s.chain.wakeAfterSleep ∧ (s.dropEarly p).chain.wake = s.chain.wake ∧
    (s.dropEarly p).chain.resetTone = s.chain.resetTone ∧ (s.dropEarly p).chain.surveyTimer = s.chain.surveyTimer ∧
    (s.dropEarly p).chain.firstUp = s.chain.firstUp ∧ (s.dropEarly p).chain.surveySlip = s.chain.surveySlip ∧
    (s.dropEarly p).chain.balance = s.chain.balance ∧ (s.dropEarly p).chain.returning = s.chain.returning ∧
    (s.dropEarly p).conv = s.conv ∧ (s.dropEarly p).plan.plans = s.plan.plans ∧
    (s.dropEarly p).plan.inForce = s.plan.inForce ∧ (s.dropEarly p).plan.dueDone = s.plan.dueDone ∧
    (s.dropEarly p).plan.overrun = s.plan.overrun ∧ (s.dropEarly p).plan.burst = s.plan.burst ∧
    (s.dropEarly p).plan.kept = s.plan.kept ∧ (s.dropEarly p).plan.high = s.plan.high ∧
    (s.dropEarly p).plan.low = s.plan.low ∧ (s.dropEarly p).plan.temp = s.plan.temp ∧
    (s.dropEarly p).plan.implausible = s.plan.implausible ∧ (s.dropEarly p).plan.fresh = s.plan.fresh ∧
    (s.dropEarly p).plan.setSeq = s.plan.setSeq ∧ (s.dropEarly p).plan.pages = s.plan.pages ∧
    (s.dropEarly p).plan.pageAge = s.plan.pageAge ∧ (s.dropEarly p).plan.writing = s.plan.writing ∧
    (s.dropEarly p).plan.latest = s.plan.latest ∧ (s.dropEarly p).plan.quiet = s.plan.quiet ∧
    (s.dropEarly p).plan.patrolReport = s.plan.patrolReport ∧ (s.dropEarly p).sup = s.sup ∧
    (s.dropEarly p).ev = s.ev ∧ (s.dropEarly p).power = s.power ∧ (s.dropEarly p).store = s.store ∧
    (s.dropEarly p).upd = s.upd ∧ (s.dropEarly p).free = s.free ∧ (s.dropEarly p).pending = s.pending := by
  simp only [State.dropEarly]; (repeat' split) <;> (first | rfl | simp)

/-- What `becomeQuiet` leaves alone. -/
@[simp] theorem becomeQuiet_frame (s : State) :
    (s.becomeQuiet).mem = s.mem ∧ (s.becomeQuiet).pins = s.pins ∧ (s.becomeQuiet).port = s.port ∧
    (s.becomeQuiet).attn = s.attn ∧ (s.becomeQuiet).chain.state = s.chain.state ∧
    (s.becomeQuiet).chain.origin = s.chain.origin ∧ (s.becomeQuiet).chain.wasDown = s.chain.wasDown ∧
    (s.becomeQuiet).chain.downSince = s.chain.downSince ∧ (s.becomeQuiet).chain.errs = s.chain.errs ∧
    (s.becomeQuiet).chain.suspectSince = s.chain.suspectSince ∧
    (s.becomeQuiet).chain.periodStart = s.chain.periodStart ∧ (s.becomeQuiet).chain.periodErrs = s.chain.periodErrs ∧
    (s.becomeQuiet).chain.capTag = s.chain.capTag ∧ (s.becomeQuiet).chain.exTag = s.chain.exTag ∧
    (s.becomeQuiet).chain.survey = s.chain.survey ∧ (s.becomeQuiet).chain.present = s.chain.present ∧
    (s.becomeQuiet).chain.configured = s.chain.configured ∧ (s.becomeQuiet).chain.breakLoc = s.chain.breakLoc ∧
    (s.becomeQuiet).chain.map = s.chain.map ∧ (s.becomeQuiet).chain.hold = s.chain.hold ∧
    (s.becomeQuiet).chain.line = s.chain.line ∧ (s.becomeQuiet).chain.lastSent = s.chain.lastSent ∧
    (s.becomeQuiet).chain.sleepCmd = s.chain.sleepCmd ∧
    (s.becomeQuiet).chain.wakeAfterSleep = s.chain.wakeAfterSleep ∧ (s.becomeQuiet).chain.wake = s.chain.wake ∧
    (s.becomeQuiet).chain.resetTone = s.chain.resetTone ∧ (s.becomeQuiet).chain.surveyTimer = s.chain.surveyTimer ∧
    (s.becomeQuiet).chain.firstUp = s.chain.firstUp ∧ (s.becomeQuiet).chain.surveySlip = s.chain.surveySlip ∧
    (s.becomeQuiet).chain.balance = s.chain.balance ∧ (s.becomeQuiet).chain.returning = s.chain.returning ∧
    (s.becomeQuiet).conv = s.conv ∧ (s.becomeQuiet).plan.plans = s.plan.plans ∧
    (s.becomeQuiet).plan.inForce = s.plan.inForce ∧ (s.becomeQuiet).plan.dueDone = s.plan.dueDone ∧
    (s.becomeQuiet).plan.overrun = s.plan.overrun ∧ (s.becomeQuiet).plan.burst = s.plan.burst ∧
    (s.becomeQuiet).plan.kept = s.plan.kept ∧ (s.becomeQuiet).plan.high = s.plan.high ∧
    (s.becomeQuiet).plan.low = s.plan.low ∧ (s.becomeQuiet).plan.temp = s.plan.temp ∧
    (s.becomeQuiet).plan.implausible = s.plan.implausible ∧ (s.becomeQuiet).plan.fresh = s.plan.fresh ∧
    (s.becomeQuiet).plan.setSeq = s.plan.setSeq ∧ (s.becomeQuiet).plan.pages = s.plan.pages ∧
    (s.becomeQuiet).plan.pageAge = s.plan.pageAge ∧ (s.becomeQuiet).plan.writing = s.plan.writing ∧
    (s.becomeQuiet).plan.latest = s.plan.latest ∧ (s.becomeQuiet).plan.patrolReport = s.plan.patrolReport ∧
    (s.becomeQuiet).sup = s.sup ∧ (s.becomeQuiet).ev = s.ev ∧ (s.becomeQuiet).power = s.power ∧
    (s.becomeQuiet).store = s.store ∧ (s.becomeQuiet).upd = s.upd ∧ (s.becomeQuiet).free = s.free ∧
    (s.becomeQuiet).pending = s.pending := by
  simp only [State.becomeQuiet]; (repeat' split) <;> (first | rfl | simp)

/-- What `captureNotMade` leaves alone. -/
@[simp] theorem captureNotMade_frame (s : State) (p : Nat) :
    (s.captureNotMade p).pins = s.pins ∧ (s.captureNotMade p).port.notes = s.port.notes ∧
    (s.captureNotMade p).port.fault = s.port.fault ∧ (s.captureNotMade p).port.faultCount = s.port.faultCount ∧
    (s.captureNotMade p).port.tables = s.port.tables ∧ (s.captureNotMade p).port.lastTable = s.port.lastTable ∧
    (s.captureNotMade p).attn.enables = s.attn.enables ∧ (s.captureNotMade p).attn.levels = s.attn.levels ∧
    (s.captureNotMade p).attn.mask = s.attn.mask ∧ (s.captureNotMade p).chain.state = s.chain.state ∧
    (s.captureNotMade p).chain.origin = s.chain.origin ∧ (s.captureNotMade p).chain.wasDown = s.chain.wasDown ∧
    (s.captureNotMade p).chain.downSince = s.chain.downSince ∧ (s.captureNotMade p).chain.errs = s.chain.errs ∧
    (s.captureNotMade p).chain.suspectSince = s.chain.suspectSince ∧
    (s.captureNotMade p).chain.periodStart = s.chain.periodStart ∧
    (s.captureNotMade p).chain.periodErrs = s.chain.periodErrs ∧ (s.captureNotMade p).chain.capTag = s.chain.capTag ∧
    (s.captureNotMade p).chain.exTag = s.chain.exTag ∧ (s.captureNotMade p).chain.survey = s.chain.survey ∧
    (s.captureNotMade p).chain.present = s.chain.present ∧
    (s.captureNotMade p).chain.configured = s.chain.configured ∧
    (s.captureNotMade p).chain.breakLoc = s.chain.breakLoc ∧ (s.captureNotMade p).chain.map = s.chain.map ∧
    (s.captureNotMade p).chain.hold = s.chain.hold ∧ (s.captureNotMade p).chain.line = s.chain.line ∧
    (s.captureNotMade p).chain.lastSent = s.chain.lastSent ∧ (s.captureNotMade p).chain.sleepCmd = s.chain.sleepCmd ∧
    (s.captureNotMade p).chain.wakeAfterSleep = s.chain.wakeAfterSleep ∧
    (s.captureNotMade p).chain.wake = s.chain.wake ∧ (s.captureNotMade p).chain.resetTone = s.chain.resetTone ∧
    (s.captureNotMade p).chain.surveyTimer = s.chain.surveyTimer ∧
    (s.captureNotMade p).chain.firstUp = s.chain.firstUp ∧
    (s.captureNotMade p).chain.surveySlip = s.chain.surveySlip ∧
    (s.captureNotMade p).chain.balance = s.chain.balance ∧ (s.captureNotMade p).chain.returning = s.chain.returning ∧
    (s.captureNotMade p).conv = s.conv ∧ (s.captureNotMade p).plan.plans = s.plan.plans ∧
    (s.captureNotMade p).plan.inForce = s.plan.inForce ∧ (s.captureNotMade p).plan.dueDone = s.plan.dueDone ∧
    (s.captureNotMade p).plan.overrun = s.plan.overrun ∧ (s.captureNotMade p).plan.burst = s.plan.burst ∧
    (s.captureNotMade p).plan.kept = s.plan.kept ∧ (s.captureNotMade p).plan.high = s.plan.high ∧
    (s.captureNotMade p).plan.low = s.plan.low ∧ (s.captureNotMade p).plan.temp = s.plan.temp ∧
    (s.captureNotMade p).plan.implausible = s.plan.implausible ∧ (s.captureNotMade p).plan.fresh = s.plan.fresh ∧
    (s.captureNotMade p).plan.setSeq = s.plan.setSeq ∧ (s.captureNotMade p).plan.pages = s.plan.pages ∧
    (s.captureNotMade p).plan.pageAge = s.plan.pageAge ∧ (s.captureNotMade p).plan.writing = s.plan.writing ∧
    (s.captureNotMade p).plan.latest = s.plan.latest ∧ (s.captureNotMade p).plan.quiet = s.plan.quiet ∧
    (s.captureNotMade p).sup = s.sup ∧ (s.captureNotMade p).ev = s.ev ∧ (s.captureNotMade p).power = s.power ∧
    (s.captureNotMade p).store = s.store ∧ (s.captureNotMade p).upd = s.upd ∧ (s.captureNotMade p).free = s.free ∧
    (s.captureNotMade p).pending = s.pending := by
  simp only [State.captureNotMade]; (repeat' split) <;> (first | rfl | simp)

/-- `captureNotMade` keeps the canonical form of the memory. -/
@[simp] theorem captureNotMade_wf (s : State) (p : Nat) (hw : s.mem.wf = true) :
    (s.captureNotMade p).mem.wf = true := by
  simp only [State.captureNotMade]; (repeat' split) <;> first | exact hw | simp (maxDischargeDepth := 20) [hw, store_wf]

/-- What `beginBurstCapture` leaves alone. -/
@[simp] theorem beginBurstCapture_frame (s : State) (b : Burst) :
    (s.beginBurstCapture b).mem = s.mem ∧ (s.beginBurstCapture b).pins = s.pins ∧
    (s.beginBurstCapture b).port = s.port ∧ (s.beginBurstCapture b).attn = s.attn ∧
    (s.beginBurstCapture b).chain.state = s.chain.state ∧ (s.beginBurstCapture b).chain.origin = s.chain.origin ∧
    (s.beginBurstCapture b).chain.wasDown = s.chain.wasDown ∧
    (s.beginBurstCapture b).chain.downSince = s.chain.downSince ∧ (s.beginBurstCapture b).chain.errs = s.chain.errs ∧
    (s.beginBurstCapture b).chain.suspectSince = s.chain.suspectSince ∧
    (s.beginBurstCapture b).chain.periodStart = s.chain.periodStart ∧
    (s.beginBurstCapture b).chain.periodErrs = s.chain.periodErrs ∧
    (s.beginBurstCapture b).chain.capTag = s.chain.capTag ∧ (s.beginBurstCapture b).chain.exTag = s.chain.exTag ∧
    (s.beginBurstCapture b).chain.survey = s.chain.survey ∧ (s.beginBurstCapture b).chain.present = s.chain.present ∧
    (s.beginBurstCapture b).chain.configured = s.chain.configured ∧
    (s.beginBurstCapture b).chain.breakLoc = s.chain.breakLoc ∧ (s.beginBurstCapture b).chain.map = s.chain.map ∧
    (s.beginBurstCapture b).chain.hold = s.chain.hold ∧ (s.beginBurstCapture b).chain.line = s.chain.line ∧
    (s.beginBurstCapture b).chain.lastSent = s.chain.lastSent ∧
    (s.beginBurstCapture b).chain.sleepCmd = s.chain.sleepCmd ∧
    (s.beginBurstCapture b).chain.wakeAfterSleep = s.chain.wakeAfterSleep ∧
    (s.beginBurstCapture b).chain.wake = s.chain.wake ∧ (s.beginBurstCapture b).chain.resetTone = s.chain.resetTone ∧
    (s.beginBurstCapture b).chain.surveyTimer = s.chain.surveyTimer ∧
    (s.beginBurstCapture b).chain.firstUp = s.chain.firstUp ∧
    (s.beginBurstCapture b).chain.surveySlip = s.chain.surveySlip ∧
    (s.beginBurstCapture b).chain.balance = s.chain.balance ∧
    (s.beginBurstCapture b).chain.returning = s.chain.returning ∧ (s.beginBurstCapture b).conv = s.conv ∧
    (s.beginBurstCapture b).plan.plans = s.plan.plans ∧ (s.beginBurstCapture b).plan.inForce = s.plan.inForce ∧
    (s.beginBurstCapture b).plan.dueDone = s.plan.dueDone ∧ (s.beginBurstCapture b).plan.overrun = s.plan.overrun ∧
    (s.beginBurstCapture b).plan.kept = s.plan.kept ∧ (s.beginBurstCapture b).plan.high = s.plan.high ∧
    (s.beginBurstCapture b).plan.low = s.plan.low ∧ (s.beginBurstCapture b).plan.temp = s.plan.temp ∧
    (s.beginBurstCapture b).plan.implausible = s.plan.implausible ∧
    (s.beginBurstCapture b).plan.fresh = s.plan.fresh ∧ (s.beginBurstCapture b).plan.setSeq = s.plan.setSeq ∧
    (s.beginBurstCapture b).plan.pages = s.plan.pages ∧ (s.beginBurstCapture b).plan.pageAge = s.plan.pageAge ∧
    (s.beginBurstCapture b).plan.writing = s.plan.writing ∧ (s.beginBurstCapture b).plan.latest = s.plan.latest ∧
    (s.beginBurstCapture b).plan.quiet = s.plan.quiet ∧
    (s.beginBurstCapture b).plan.patrolReport = s.plan.patrolReport ∧ (s.beginBurstCapture b).sup = s.sup ∧
    (s.beginBurstCapture b).ev = s.ev ∧ (s.beginBurstCapture b).power = s.power ∧
    (s.beginBurstCapture b).store = s.store ∧ (s.beginBurstCapture b).upd = s.upd ∧
    (s.beginBurstCapture b).free = s.free ∧ (s.beginBurstCapture b).pending = s.pending := by
  simp only [State.beginBurstCapture]; (repeat' split) <;> (first | rfl | simp)

/-- What `askBurst` leaves alone. -/
@[simp] theorem askBurst_frame (s : State) (seq : Nat) (part : Ms) :
    (s.askBurst seq part).pins = s.pins ∧ (s.askBurst seq part).port = s.port ∧
    (s.askBurst seq part).attn.enables = s.attn.enables ∧ (s.askBurst seq part).attn.levels = s.attn.levels ∧
    (s.askBurst seq part).attn.mask = s.attn.mask ∧ (s.askBurst seq part).chain.state = s.chain.state ∧
    (s.askBurst seq part).chain.origin = s.chain.origin ∧ (s.askBurst seq part).chain.wasDown = s.chain.wasDown ∧
    (s.askBurst seq part).chain.downSince = s.chain.downSince ∧ (s.askBurst seq part).chain.errs = s.chain.errs ∧
    (s.askBurst seq part).chain.suspectSince = s.chain.suspectSince ∧
    (s.askBurst seq part).chain.periodStart = s.chain.periodStart ∧
    (s.askBurst seq part).chain.periodErrs = s.chain.periodErrs ∧
    (s.askBurst seq part).chain.capTag = s.chain.capTag ∧ (s.askBurst seq part).chain.exTag = s.chain.exTag ∧
    (s.askBurst seq part).chain.survey = s.chain.survey ∧ (s.askBurst seq part).chain.present = s.chain.present ∧
    (s.askBurst seq part).chain.configured = s.chain.configured ∧
    (s.askBurst seq part).chain.breakLoc = s.chain.breakLoc ∧ (s.askBurst seq part).chain.map = s.chain.map ∧
    (s.askBurst seq part).chain.hold = s.chain.hold ∧ (s.askBurst seq part).chain.line = s.chain.line ∧
    (s.askBurst seq part).chain.lastSent = s.chain.lastSent ∧
    (s.askBurst seq part).chain.sleepCmd = s.chain.sleepCmd ∧
    (s.askBurst seq part).chain.wakeAfterSleep = s.chain.wakeAfterSleep ∧
    (s.askBurst seq part).chain.wake = s.chain.wake ∧ (s.askBurst seq part).chain.resetTone = s.chain.resetTone ∧
    (s.askBurst seq part).chain.surveyTimer = s.chain.surveyTimer ∧
    (s.askBurst seq part).chain.firstUp = s.chain.firstUp ∧
    (s.askBurst seq part).chain.surveySlip = s.chain.surveySlip ∧
    (s.askBurst seq part).chain.balance = s.chain.balance ∧
    (s.askBurst seq part).chain.returning = s.chain.returning ∧ (s.askBurst seq part).conv = s.conv ∧
    (s.askBurst seq part).plan.plans = s.plan.plans ∧ (s.askBurst seq part).plan.inForce = s.plan.inForce ∧
    (s.askBurst seq part).plan.dueDone = s.plan.dueDone ∧ (s.askBurst seq part).plan.overrun = s.plan.overrun ∧
    (s.askBurst seq part).plan.kept = s.plan.kept ∧ (s.askBurst seq part).plan.high = s.plan.high ∧
    (s.askBurst seq part).plan.low = s.plan.low ∧ (s.askBurst seq part).plan.temp = s.plan.temp ∧
    (s.askBurst seq part).plan.implausible = s.plan.implausible ∧ (s.askBurst seq part).plan.fresh = s.plan.fresh ∧
    (s.askBurst seq part).plan.setSeq = s.plan.setSeq ∧ (s.askBurst seq part).plan.pages = s.plan.pages ∧
    (s.askBurst seq part).plan.pageAge = s.plan.pageAge ∧ (s.askBurst seq part).plan.writing = s.plan.writing ∧
    (s.askBurst seq part).plan.latest = s.plan.latest ∧ (s.askBurst seq part).plan.quiet = s.plan.quiet ∧
    (s.askBurst seq part).plan.patrolReport = s.plan.patrolReport ∧ (s.askBurst seq part).sup = s.sup ∧
    (s.askBurst seq part).ev.age = s.ev.age ∧ (s.askBurst seq part).ev.next = s.ev.next ∧
    (s.askBurst seq part).ev.filling = s.ev.filling ∧ (s.askBurst seq part).ev.inbox = s.ev.inbox ∧
    (s.askBurst seq part).power = s.power ∧ (s.askBurst seq part).store = s.store ∧
    (s.askBurst seq part).upd = s.upd ∧ (s.askBurst seq part).free = s.free ∧
    (s.askBurst seq part).pending = s.pending := by
  simp only [State.askBurst]; (repeat' split) <;> (first | rfl | simp)

/-- `askBurst` keeps the canonical form of the memory. -/
@[simp] theorem askBurst_wf (s : State) (seq : Nat) (part : Ms) (hw : s.mem.wf = true) :
    (s.askBurst seq part).mem.wf = true := by
  simp only [State.askBurst]; (repeat' split) <;> first | exact hw | simp (maxDischargeDepth := 20) [hw, store_wf]

/-- What `burstReact` leaves alone. -/
@[simp] theorem burstReact_frame (s : State) :
    (s.burstReact).pins = s.pins ∧ (s.burstReact).port = s.port ∧ (s.burstReact).attn.enables = s.attn.enables ∧
    (s.burstReact).attn.levels = s.attn.levels ∧ (s.burstReact).attn.mask = s.attn.mask ∧
    (s.burstReact).chain.state = s.chain.state ∧ (s.burstReact).chain.origin = s.chain.origin ∧
    (s.burstReact).chain.wasDown = s.chain.wasDown ∧ (s.burstReact).chain.downSince = s.chain.downSince ∧
    (s.burstReact).chain.errs = s.chain.errs ∧ (s.burstReact).chain.suspectSince = s.chain.suspectSince ∧
    (s.burstReact).chain.periodStart = s.chain.periodStart ∧ (s.burstReact).chain.periodErrs = s.chain.periodErrs ∧
    (s.burstReact).chain.capTag = s.chain.capTag ∧ (s.burstReact).chain.exTag = s.chain.exTag ∧
    (s.burstReact).chain.survey = s.chain.survey ∧ (s.burstReact).chain.present = s.chain.present ∧
    (s.burstReact).chain.configured = s.chain.configured ∧ (s.burstReact).chain.breakLoc = s.chain.breakLoc ∧
    (s.burstReact).chain.map = s.chain.map ∧ (s.burstReact).chain.hold = s.chain.hold ∧
    (s.burstReact).chain.line = s.chain.line ∧ (s.burstReact).chain.lastSent = s.chain.lastSent ∧
    (s.burstReact).chain.sleepCmd = s.chain.sleepCmd ∧ (s.burstReact).chain.wakeAfterSleep = s.chain.wakeAfterSleep ∧
    (s.burstReact).chain.wake = s.chain.wake ∧ (s.burstReact).chain.resetTone = s.chain.resetTone ∧
    (s.burstReact).chain.surveyTimer = s.chain.surveyTimer ∧ (s.burstReact).chain.firstUp = s.chain.firstUp ∧
    (s.burstReact).chain.surveySlip = s.chain.surveySlip ∧ (s.burstReact).chain.balance = s.chain.balance ∧
    (s.burstReact).chain.returning = s.chain.returning ∧ (s.burstReact).conv = s.conv ∧
    (s.burstReact).plan.plans = s.plan.plans ∧ (s.burstReact).plan.inForce = s.plan.inForce ∧
    (s.burstReact).plan.dueDone = s.plan.dueDone ∧ (s.burstReact).plan.overrun = s.plan.overrun ∧
    (s.burstReact).plan.kept = s.plan.kept ∧ (s.burstReact).plan.high = s.plan.high ∧
    (s.burstReact).plan.low = s.plan.low ∧ (s.burstReact).plan.temp = s.plan.temp ∧
    (s.burstReact).plan.implausible = s.plan.implausible ∧ (s.burstReact).plan.fresh = s.plan.fresh ∧
    (s.burstReact).plan.setSeq = s.plan.setSeq ∧ (s.burstReact).plan.pages = s.plan.pages ∧
    (s.burstReact).plan.pageAge = s.plan.pageAge ∧ (s.burstReact).plan.writing = s.plan.writing ∧
    (s.burstReact).plan.latest = s.plan.latest ∧ (s.burstReact).plan.quiet = s.plan.quiet ∧
    (s.burstReact).plan.patrolReport = s.plan.patrolReport ∧ (s.burstReact).sup = s.sup ∧
    (s.burstReact).ev.age = s.ev.age ∧ (s.burstReact).ev.next = s.ev.next ∧
    (s.burstReact).ev.filling = s.ev.filling ∧ (s.burstReact).ev.inbox = s.ev.inbox ∧
    (s.burstReact).power = s.power ∧ (s.burstReact).store = s.store ∧ (s.burstReact).upd = s.upd ∧
    (s.burstReact).free = s.free ∧ (s.burstReact).pending = s.pending := by
  simp only [State.burstReact]; (repeat' split) <;> (first | rfl | simp)

/-- `burstReact` keeps the canonical form of the memory. -/
@[simp] theorem burstReact_wf (s : State) (hw : s.mem.wf = true) :
    (s.burstReact).mem.wf = true := by
  simp only [State.burstReact]; (repeat' split) <;> first | exact hw | simp (maxDischargeDepth := 20) [hw, store_wf]

/-- What `grantCapture` leaves alone. -/
@[simp] theorem grantCapture_frame (s : State) (p : Nat) :
    (s.grantCapture p).mem = s.mem ∧ (s.grantCapture p).pins = s.pins ∧ (s.grantCapture p).port = s.port ∧
    (s.grantCapture p).attn = s.attn ∧ (s.grantCapture p).chain.state = s.chain.state ∧
    (s.grantCapture p).chain.origin = s.chain.origin ∧ (s.grantCapture p).chain.wasDown = s.chain.wasDown ∧
    (s.grantCapture p).chain.downSince = s.chain.downSince ∧ (s.grantCapture p).chain.errs = s.chain.errs ∧
    (s.grantCapture p).chain.suspectSince = s.chain.suspectSince ∧
    (s.grantCapture p).chain.periodStart = s.chain.periodStart ∧
    (s.grantCapture p).chain.periodErrs = s.chain.periodErrs ∧ (s.grantCapture p).chain.exTag = s.chain.exTag ∧
    (s.grantCapture p).chain.survey = s.chain.survey ∧ (s.grantCapture p).chain.present = s.chain.present ∧
    (s.grantCapture p).chain.configured = s.chain.configured ∧ (s.grantCapture p).chain.breakLoc = s.chain.breakLoc ∧
    (s.grantCapture p).chain.map = s.chain.map ∧ (s.grantCapture p).chain.lastSent = s.chain.lastSent ∧
    (s.grantCapture p).chain.requests = s.chain.requests ∧ (s.grantCapture p).chain.sleepCmd = s.chain.sleepCmd ∧
    (s.grantCapture p).chain.wakeAfterSleep = s.chain.wakeAfterSleep ∧ (s.grantCapture p).chain.wake = s.chain.wake ∧
    (s.grantCapture p).chain.resetTone = s.chain.resetTone ∧
    (s.grantCapture p).chain.surveyTimer = s.chain.surveyTimer ∧ (s.grantCapture p).chain.firstUp = s.chain.firstUp ∧
    (s.grantCapture p).chain.surveySlip = s.chain.surveySlip ∧ (s.grantCapture p).chain.balance = s.chain.balance ∧
    (s.grantCapture p).chain.returning = s.chain.returning ∧ (s.grantCapture p).conv = s.conv ∧
    (s.grantCapture p).plan.plans = s.plan.plans ∧ (s.grantCapture p).plan.inForce = s.plan.inForce ∧
    (s.grantCapture p).plan.dueDone = s.plan.dueDone ∧ (s.grantCapture p).plan.overrun = s.plan.overrun ∧
    (s.grantCapture p).plan.burst = s.plan.burst ∧ (s.grantCapture p).plan.kept = s.plan.kept ∧
    (s.grantCapture p).plan.high = s.plan.high ∧ (s.grantCapture p).plan.low = s.plan.low ∧
    (s.grantCapture p).plan.temp = s.plan.temp ∧ (s.grantCapture p).plan.implausible = s.plan.implausible ∧
    (s.grantCapture p).plan.fresh = s.plan.fresh ∧ (s.grantCapture p).plan.setSeq = s.plan.setSeq ∧
    (s.grantCapture p).plan.pages = s.plan.pages ∧ (s.grantCapture p).plan.pageAge = s.plan.pageAge ∧
    (s.grantCapture p).plan.writing = s.plan.writing ∧ (s.grantCapture p).plan.latest = s.plan.latest ∧
    (s.grantCapture p).plan.quiet = s.plan.quiet ∧ (s.grantCapture p).plan.patrolReport = s.plan.patrolReport ∧
    (s.grantCapture p).sup = s.sup ∧ (s.grantCapture p).ev = s.ev ∧ (s.grantCapture p).power = s.power ∧
    (s.grantCapture p).store = s.store ∧ (s.grantCapture p).upd = s.upd ∧ (s.grantCapture p).free = s.free ∧
    (s.grantCapture p).pending = s.pending := by
  simp only [State.grantCapture]; (repeat' split) <;> (first | rfl | simp)

/-- What `settleItem` leaves alone. -/
@[simp] theorem settleItem_frame (s : State) (a : Nat) (r : Option Reading) (state : Option ModState) :
    (s.settleItem a r state).mem = s.mem ∧ (s.settleItem a r state).pins = s.pins ∧
    (s.settleItem a r state).port = s.port ∧ (s.settleItem a r state).attn = s.attn ∧
    (s.settleItem a r state).chain = s.chain ∧ (s.settleItem a r state).conv = s.conv ∧
    (s.settleItem a r state).plan.plans = s.plan.plans ∧ (s.settleItem a r state).plan.inForce = s.plan.inForce ∧
    (s.settleItem a r state).plan.dueDone = s.plan.dueDone ∧ (s.settleItem a r state).plan.overrun = s.plan.overrun ∧
    (s.settleItem a r state).plan.burst = s.plan.burst ∧ (s.settleItem a r state).plan.high = s.plan.high ∧
    (s.settleItem a r state).plan.low = s.plan.low ∧ (s.settleItem a r state).plan.temp = s.plan.temp ∧
    (s.settleItem a r state).plan.implausible = s.plan.implausible ∧
    (s.settleItem a r state).plan.fresh = s.plan.fresh ∧ (s.settleItem a r state).plan.setSeq = s.plan.setSeq ∧
    (s.settleItem a r state).plan.pages = s.plan.pages ∧ (s.settleItem a r state).plan.pageAge = s.plan.pageAge ∧
    (s.settleItem a r state).plan.writing = s.plan.writing ∧ (s.settleItem a r state).plan.latest = s.plan.latest ∧
    (s.settleItem a r state).plan.quiet = s.plan.quiet ∧
    (s.settleItem a r state).plan.patrolReport = s.plan.patrolReport ∧ (s.settleItem a r state).sup = s.sup ∧
    (s.settleItem a r state).ev = s.ev ∧ (s.settleItem a r state).power = s.power ∧
    (s.settleItem a r state).store = s.store ∧ (s.settleItem a r state).upd = s.upd ∧
    (s.settleItem a r state).free = s.free ∧ (s.settleItem a r state).pending = s.pending := by
  simp only [State.settleItem]; (repeat' split) <;> (first | rfl | simp)

/-- What `settleOld` leaves alone. -/
@[simp] theorem settleOld_frame (s : State) (a : Nat) (state : Option ModState) :
    (s.settleOld a state).mem = s.mem ∧ (s.settleOld a state).pins = s.pins ∧ (s.settleOld a state).port = s.port ∧
    (s.settleOld a state).attn = s.attn ∧ (s.settleOld a state).chain = s.chain ∧
    (s.settleOld a state).conv = s.conv ∧ (s.settleOld a state).plan.plans = s.plan.plans ∧
    (s.settleOld a state).plan.inForce = s.plan.inForce ∧ (s.settleOld a state).plan.dueDone = s.plan.dueDone ∧
    (s.settleOld a state).plan.overrun = s.plan.overrun ∧ (s.settleOld a state).plan.burst = s.plan.burst ∧
    (s.settleOld a state).plan.high = s.plan.high ∧ (s.settleOld a state).plan.low = s.plan.low ∧
    (s.settleOld a state).plan.temp = s.plan.temp ∧ (s.settleOld a state).plan.implausible = s.plan.implausible ∧
    (s.settleOld a state).plan.fresh = s.plan.fresh ∧ (s.settleOld a state).plan.setSeq = s.plan.setSeq ∧
    (s.settleOld a state).plan.pages = s.plan.pages ∧ (s.settleOld a state).plan.pageAge = s.plan.pageAge ∧
    (s.settleOld a state).plan.writing = s.plan.writing ∧ (s.settleOld a state).plan.latest = s.plan.latest ∧
    (s.settleOld a state).plan.quiet = s.plan.quiet ∧ (s.settleOld a state).plan.patrolReport = s.plan.patrolReport ∧
    (s.settleOld a state).sup = s.sup ∧ (s.settleOld a state).ev = s.ev ∧ (s.settleOld a state).power = s.power ∧
    (s.settleOld a state).store = s.store ∧ (s.settleOld a state).upd = s.upd ∧ (s.settleOld a state).free = s.free ∧
    (s.settleOld a state).pending = s.pending := by
  simp only [State.settleOld]; (repeat' split) <;> (first | rfl | simp)

/-- What `settleGood` leaves alone. -/
@[simp] theorem settleGood_frame (s : State) (a : Nat) (codes : List Half) (state : Option ModState) :
    (s.settleGood a codes state).mem = s.mem ∧ (s.settleGood a codes state).pins = s.pins ∧
    (s.settleGood a codes state).port = s.port ∧ (s.settleGood a codes state).attn = s.attn ∧
    (s.settleGood a codes state).chain = s.chain ∧ (s.settleGood a codes state).conv = s.conv ∧
    (s.settleGood a codes state).plan.plans = s.plan.plans ∧
    (s.settleGood a codes state).plan.inForce = s.plan.inForce ∧
    (s.settleGood a codes state).plan.dueDone = s.plan.dueDone ∧
    (s.settleGood a codes state).plan.overrun = s.plan.overrun ∧
    (s.settleGood a codes state).plan.burst = s.plan.burst ∧ (s.settleGood a codes state).plan.high = s.plan.high ∧
    (s.settleGood a codes state).plan.low = s.plan.low ∧ (s.settleGood a codes state).plan.temp = s.plan.temp ∧
    (s.settleGood a codes state).plan.implausible = s.plan.implausible ∧
    (s.settleGood a codes state).plan.fresh = s.plan.fresh ∧
    (s.settleGood a codes state).plan.setSeq = s.plan.setSeq ∧
    (s.settleGood a codes state).plan.pages = s.plan.pages ∧
    (s.settleGood a codes state).plan.pageAge = s.plan.pageAge ∧
    (s.settleGood a codes state).plan.writing = s.plan.writing ∧
    (s.settleGood a codes state).plan.latest = s.plan.latest ∧
    (s.settleGood a codes state).plan.quiet = s.plan.quiet ∧
    (s.settleGood a codes state).plan.patrolReport = s.plan.patrolReport ∧ (s.settleGood a codes state).sup = s.sup ∧
    (s.settleGood a codes state).ev = s.ev ∧ (s.settleGood a codes state).power = s.power ∧
    (s.settleGood a codes state).store = s.store ∧ (s.settleGood a codes state).upd = s.upd ∧
    (s.settleGood a codes state).free = s.free ∧ (s.settleGood a codes state).pending = s.pending := by
  simp only [State.settleGood]; (repeat' split) <;> (first | rfl | simp)

/-- What `endHold` leaves alone. -/
@[simp] theorem endHold_frame (s : State) :
    (s.endHold).mem = s.mem ∧ (s.endHold).pins = s.pins ∧ (s.endHold).port = s.port ∧ (s.endHold).attn = s.attn ∧
    (s.endHold).chain.state = s.chain.state ∧ (s.endHold).chain.origin = s.chain.origin ∧
    (s.endHold).chain.wasDown = s.chain.wasDown ∧ (s.endHold).chain.downSince = s.chain.downSince ∧
    (s.endHold).chain.errs = s.chain.errs ∧ (s.endHold).chain.suspectSince = s.chain.suspectSince ∧
    (s.endHold).chain.periodStart = s.chain.periodStart ∧ (s.endHold).chain.periodErrs = s.chain.periodErrs ∧
    (s.endHold).chain.capTag = s.chain.capTag ∧ (s.endHold).chain.exTag = s.chain.exTag ∧
    (s.endHold).chain.survey = s.chain.survey ∧ (s.endHold).chain.present = s.chain.present ∧
    (s.endHold).chain.configured = s.chain.configured ∧ (s.endHold).chain.breakLoc = s.chain.breakLoc ∧
    (s.endHold).chain.map = s.chain.map ∧ (s.endHold).chain.lastSent = s.chain.lastSent ∧
    (s.endHold).chain.requests = s.chain.requests ∧ (s.endHold).chain.sleepCmd = s.chain.sleepCmd ∧
    (s.endHold).chain.wakeAfterSleep = s.chain.wakeAfterSleep ∧ (s.endHold).chain.wake = s.chain.wake ∧
    (s.endHold).chain.resetTone = s.chain.resetTone ∧ (s.endHold).chain.surveyTimer = s.chain.surveyTimer ∧
    (s.endHold).chain.firstUp = s.chain.firstUp ∧ (s.endHold).chain.surveySlip = s.chain.surveySlip ∧
    (s.endHold).chain.balance = s.chain.balance ∧ (s.endHold).chain.returning = s.chain.returning ∧
    (s.endHold).conv = s.conv ∧ (s.endHold).plan.plans = s.plan.plans ∧ (s.endHold).plan.inForce = s.plan.inForce ∧
    (s.endHold).plan.dueDone = s.plan.dueDone ∧ (s.endHold).plan.overrun = s.plan.overrun ∧
    (s.endHold).plan.burst = s.plan.burst ∧ (s.endHold).plan.kept = s.plan.kept ∧
    (s.endHold).plan.high = s.plan.high ∧ (s.endHold).plan.low = s.plan.low ∧ (s.endHold).plan.temp = s.plan.temp ∧
    (s.endHold).plan.implausible = s.plan.implausible ∧ (s.endHold).plan.fresh = s.plan.fresh ∧
    (s.endHold).plan.setSeq = s.plan.setSeq ∧ (s.endHold).plan.pages = s.plan.pages ∧
    (s.endHold).plan.pageAge = s.plan.pageAge ∧ (s.endHold).plan.writing = s.plan.writing ∧
    (s.endHold).plan.latest = s.plan.latest ∧ (s.endHold).plan.quiet = s.plan.quiet ∧
    (s.endHold).plan.patrolReport = s.plan.patrolReport ∧ (s.endHold).sup = s.sup ∧ (s.endHold).ev = s.ev ∧
    (s.endHold).power = s.power ∧ (s.endHold).store = s.store ∧ (s.endHold).upd = s.upd ∧ (s.endHold).free = s.free ∧
    (s.endHold).pending = s.pending := by
  simp only [State.endHold]; (repeat' split) <;> (first | rfl | simp)

/-- What `nextRead` leaves alone. -/
@[simp] theorem nextRead_frame (l : List Item) (s : State) :
    (State.nextRead l s).mem = s.mem ∧ (State.nextRead l s).pins = s.pins ∧ (State.nextRead l s).port = s.port ∧
    (State.nextRead l s).attn = s.attn ∧ (State.nextRead l s).chain.state = s.chain.state ∧
    (State.nextRead l s).chain.origin = s.chain.origin ∧ (State.nextRead l s).chain.wasDown = s.chain.wasDown ∧
    (State.nextRead l s).chain.downSince = s.chain.downSince ∧ (State.nextRead l s).chain.errs = s.chain.errs ∧
    (State.nextRead l s).chain.suspectSince = s.chain.suspectSince ∧
    (State.nextRead l s).chain.periodStart = s.chain.periodStart ∧
    (State.nextRead l s).chain.periodErrs = s.chain.periodErrs ∧ (State.nextRead l s).chain.capTag = s.chain.capTag ∧
    (State.nextRead l s).chain.exTag = s.chain.exTag ∧ (State.nextRead l s).chain.survey = s.chain.survey ∧
    (State.nextRead l s).chain.present = s.chain.present ∧
    (State.nextRead l s).chain.configured = s.chain.configured ∧
    (State.nextRead l s).chain.breakLoc = s.chain.breakLoc ∧ (State.nextRead l s).chain.map = s.chain.map ∧
    (State.nextRead l s).chain.lastSent = s.chain.lastSent ∧ (State.nextRead l s).chain.requests = s.chain.requests ∧
    (State.nextRead l s).chain.sleepCmd = s.chain.sleepCmd ∧
    (State.nextRead l s).chain.wakeAfterSleep = s.chain.wakeAfterSleep ∧
    (State.nextRead l s).chain.wake = s.chain.wake ∧ (State.nextRead l s).chain.resetTone = s.chain.resetTone ∧
    (State.nextRead l s).chain.surveyTimer = s.chain.surveyTimer ∧
    (State.nextRead l s).chain.firstUp = s.chain.firstUp ∧
    (State.nextRead l s).chain.surveySlip = s.chain.surveySlip ∧
    (State.nextRead l s).chain.balance = s.chain.balance ∧ (State.nextRead l s).chain.returning = s.chain.returning ∧
    (State.nextRead l s).conv = s.conv ∧ (State.nextRead l s).plan.plans = s.plan.plans ∧
    (State.nextRead l s).plan.inForce = s.plan.inForce ∧ (State.nextRead l s).plan.dueDone = s.plan.dueDone ∧
    (State.nextRead l s).plan.overrun = s.plan.overrun ∧ (State.nextRead l s).plan.burst = s.plan.burst ∧
    (State.nextRead l s).plan.high = s.plan.high ∧ (State.nextRead l s).plan.low = s.plan.low ∧
    (State.nextRead l s).plan.temp = s.plan.temp ∧ (State.nextRead l s).plan.implausible = s.plan.implausible ∧
    (State.nextRead l s).plan.fresh = s.plan.fresh ∧ (State.nextRead l s).plan.setSeq = s.plan.setSeq ∧
    (State.nextRead l s).plan.pages = s.plan.pages ∧ (State.nextRead l s).plan.pageAge = s.plan.pageAge ∧
    (State.nextRead l s).plan.writing = s.plan.writing ∧ (State.nextRead l s).plan.latest = s.plan.latest ∧
    (State.nextRead l s).plan.quiet = s.plan.quiet ∧ (State.nextRead l s).plan.patrolReport = s.plan.patrolReport ∧
    (State.nextRead l s).sup = s.sup ∧ (State.nextRead l s).ev = s.ev ∧ (State.nextRead l s).power = s.power ∧
    (State.nextRead l s).store = s.store ∧ (State.nextRead l s).upd = s.upd ∧ (State.nextRead l s).free = s.free ∧
    (State.nextRead l s).pending = s.pending := by
  induction l generalizing s with
  | nil => simp [State.nextRead]
  | cons m l ih => unfold State.nextRead; (repeat' split) <;> simp [ih]

/-- What `readOn` leaves alone. -/
@[simp] theorem readOn_frame (s : State) :
    (s.readOn).mem = s.mem ∧ (s.readOn).pins = s.pins ∧ (s.readOn).port = s.port ∧ (s.readOn).attn = s.attn ∧
    (s.readOn).chain.state = s.chain.state ∧ (s.readOn).chain.origin = s.chain.origin ∧
    (s.readOn).chain.wasDown = s.chain.wasDown ∧ (s.readOn).chain.downSince = s.chain.downSince ∧
    (s.readOn).chain.errs = s.chain.errs ∧ (s.readOn).chain.suspectSince = s.chain.suspectSince ∧
    (s.readOn).chain.periodStart = s.chain.periodStart ∧ (s.readOn).chain.periodErrs = s.chain.periodErrs ∧
    (s.readOn).chain.capTag = s.chain.capTag ∧ (s.readOn).chain.exTag = s.chain.exTag ∧
    (s.readOn).chain.survey = s.chain.survey ∧ (s.readOn).chain.present = s.chain.present ∧
    (s.readOn).chain.configured = s.chain.configured ∧ (s.readOn).chain.breakLoc = s.chain.breakLoc ∧
    (s.readOn).chain.map = s.chain.map ∧ (s.readOn).chain.lastSent = s.chain.lastSent ∧
    (s.readOn).chain.requests = s.chain.requests ∧ (s.readOn).chain.sleepCmd = s.chain.sleepCmd ∧
    (s.readOn).chain.wakeAfterSleep = s.chain.wakeAfterSleep ∧ (s.readOn).chain.wake = s.chain.wake ∧
    (s.readOn).chain.resetTone = s.chain.resetTone ∧ (s.readOn).chain.surveyTimer = s.chain.surveyTimer ∧
    (s.readOn).chain.firstUp = s.chain.firstUp ∧ (s.readOn).chain.surveySlip = s.chain.surveySlip ∧
    (s.readOn).chain.balance = s.chain.balance ∧ (s.readOn).chain.returning = s.chain.returning ∧
    (s.readOn).conv = s.conv ∧ (s.readOn).plan.plans = s.plan.plans ∧ (s.readOn).plan.inForce = s.plan.inForce ∧
    (s.readOn).plan.dueDone = s.plan.dueDone ∧ (s.readOn).plan.overrun = s.plan.overrun ∧
    (s.readOn).plan.burst = s.plan.burst ∧ (s.readOn).plan.high = s.plan.high ∧ (s.readOn).plan.low = s.plan.low ∧
    (s.readOn).plan.temp = s.plan.temp ∧ (s.readOn).plan.implausible = s.plan.implausible ∧
    (s.readOn).plan.fresh = s.plan.fresh ∧ (s.readOn).plan.setSeq = s.plan.setSeq ∧
    (s.readOn).plan.pages = s.plan.pages ∧ (s.readOn).plan.pageAge = s.plan.pageAge ∧
    (s.readOn).plan.writing = s.plan.writing ∧ (s.readOn).plan.latest = s.plan.latest ∧
    (s.readOn).plan.quiet = s.plan.quiet ∧ (s.readOn).plan.patrolReport = s.plan.patrolReport ∧
    (s.readOn).sup = s.sup ∧ (s.readOn).ev = s.ev ∧ (s.readOn).power = s.power ∧ (s.readOn).store = s.store ∧
    (s.readOn).upd = s.upd ∧ (s.readOn).free = s.free ∧ (s.readOn).pending = s.pending := by
  simp only [State.readOn]; (repeat' split) <;> (first | rfl | simp)

theorem settleEach_frame (s : State) (l : List Item) :
    (l.foldl (fun s m => s.settleOld m.addr none) s).mem = s.mem ∧
    (l.foldl (fun s m => s.settleOld m.addr none) s).pins = s.pins ∧
    (l.foldl (fun s m => s.settleOld m.addr none) s).port = s.port ∧
    (l.foldl (fun s m => s.settleOld m.addr none) s).attn = s.attn ∧
    (l.foldl (fun s m => s.settleOld m.addr none) s).chain.state = s.chain.state ∧
    (l.foldl (fun s m => s.settleOld m.addr none) s).chain.origin = s.chain.origin ∧
    (l.foldl (fun s m => s.settleOld m.addr none) s).chain.wasDown = s.chain.wasDown ∧
    (l.foldl (fun s m => s.settleOld m.addr none) s).chain.downSince = s.chain.downSince ∧
    (l.foldl (fun s m => s.settleOld m.addr none) s).chain.errs = s.chain.errs ∧
    (l.foldl (fun s m => s.settleOld m.addr none) s).chain.suspectSince = s.chain.suspectSince ∧
    (l.foldl (fun s m => s.settleOld m.addr none) s).chain.periodStart = s.chain.periodStart ∧
    (l.foldl (fun s m => s.settleOld m.addr none) s).chain.periodErrs = s.chain.periodErrs ∧
    (l.foldl (fun s m => s.settleOld m.addr none) s).chain.capTag = s.chain.capTag ∧
    (l.foldl (fun s m => s.settleOld m.addr none) s).chain.exTag = s.chain.exTag ∧
    (l.foldl (fun s m => s.settleOld m.addr none) s).chain.survey = s.chain.survey ∧
    (l.foldl (fun s m => s.settleOld m.addr none) s).chain.present = s.chain.present ∧
    (l.foldl (fun s m => s.settleOld m.addr none) s).chain.configured = s.chain.configured ∧
    (l.foldl (fun s m => s.settleOld m.addr none) s).chain.breakLoc = s.chain.breakLoc ∧
    (l.foldl (fun s m => s.settleOld m.addr none) s).chain.map = s.chain.map ∧
    (l.foldl (fun s m => s.settleOld m.addr none) s).chain.lastSent = s.chain.lastSent ∧
    (l.foldl (fun s m => s.settleOld m.addr none) s).chain.requests = s.chain.requests ∧
    (l.foldl (fun s m => s.settleOld m.addr none) s).chain.sleepCmd = s.chain.sleepCmd ∧
    (l.foldl (fun s m => s.settleOld m.addr none) s).chain.wakeAfterSleep = s.chain.wakeAfterSleep ∧
    (l.foldl (fun s m => s.settleOld m.addr none) s).chain.wake = s.chain.wake ∧
    (l.foldl (fun s m => s.settleOld m.addr none) s).chain.resetTone = s.chain.resetTone ∧
    (l.foldl (fun s m => s.settleOld m.addr none) s).chain.surveyTimer = s.chain.surveyTimer ∧
    (l.foldl (fun s m => s.settleOld m.addr none) s).chain.firstUp = s.chain.firstUp ∧
    (l.foldl (fun s m => s.settleOld m.addr none) s).chain.surveySlip = s.chain.surveySlip ∧
    (l.foldl (fun s m => s.settleOld m.addr none) s).chain.balance = s.chain.balance ∧
    (l.foldl (fun s m => s.settleOld m.addr none) s).chain.returning = s.chain.returning ∧
    (l.foldl (fun s m => s.settleOld m.addr none) s).conv = s.conv ∧
    (l.foldl (fun s m => s.settleOld m.addr none) s).plan.plans = s.plan.plans ∧
    (l.foldl (fun s m => s.settleOld m.addr none) s).plan.inForce = s.plan.inForce ∧
    (l.foldl (fun s m => s.settleOld m.addr none) s).plan.dueDone = s.plan.dueDone ∧
    (l.foldl (fun s m => s.settleOld m.addr none) s).plan.overrun = s.plan.overrun ∧
    (l.foldl (fun s m => s.settleOld m.addr none) s).plan.burst = s.plan.burst ∧
    (l.foldl (fun s m => s.settleOld m.addr none) s).plan.high = s.plan.high ∧
    (l.foldl (fun s m => s.settleOld m.addr none) s).plan.low = s.plan.low ∧
    (l.foldl (fun s m => s.settleOld m.addr none) s).plan.temp = s.plan.temp ∧
    (l.foldl (fun s m => s.settleOld m.addr none) s).plan.implausible = s.plan.implausible ∧
    (l.foldl (fun s m => s.settleOld m.addr none) s).plan.fresh = s.plan.fresh ∧
    (l.foldl (fun s m => s.settleOld m.addr none) s).plan.setSeq = s.plan.setSeq ∧
    (l.foldl (fun s m => s.settleOld m.addr none) s).plan.pages = s.plan.pages ∧
    (l.foldl (fun s m => s.settleOld m.addr none) s).plan.pageAge = s.plan.pageAge ∧
    (l.foldl (fun s m => s.settleOld m.addr none) s).plan.writing = s.plan.writing ∧
    (l.foldl (fun s m => s.settleOld m.addr none) s).plan.latest = s.plan.latest ∧
    (l.foldl (fun s m => s.settleOld m.addr none) s).plan.quiet = s.plan.quiet ∧
    (l.foldl (fun s m => s.settleOld m.addr none) s).plan.patrolReport = s.plan.patrolReport ∧
    (l.foldl (fun s m => s.settleOld m.addr none) s).sup = s.sup ∧
    (l.foldl (fun s m => s.settleOld m.addr none) s).ev = s.ev ∧
    (l.foldl (fun s m => s.settleOld m.addr none) s).power = s.power ∧
    (l.foldl (fun s m => s.settleOld m.addr none) s).store = s.store ∧
    (l.foldl (fun s m => s.settleOld m.addr none) s).upd = s.upd ∧
    (l.foldl (fun s m => s.settleOld m.addr none) s).free = s.free ∧
    (l.foldl (fun s m => s.settleOld m.addr none) s).pending = s.pending ∧
    (l.foldl (fun s m => s.settleOld m.addr none) s).chain.hold = s.chain.hold ∧
    (l.foldl (fun s m => s.settleOld m.addr none) s).chain.line = s.chain.line := by
  induction l generalizing s with
  | nil => simp
  | cons x l ih => simp [ih]

/-- What `abandonReads` leaves alone. -/
@[simp] theorem abandonReads_frame (s : State) :
    (s.abandonReads).mem = s.mem ∧ (s.abandonReads).pins = s.pins ∧ (s.abandonReads).port = s.port ∧
    (s.abandonReads).attn = s.attn ∧ (s.abandonReads).chain.state = s.chain.state ∧
    (s.abandonReads).chain.origin = s.chain.origin ∧ (s.abandonReads).chain.wasDown = s.chain.wasDown ∧
    (s.abandonReads).chain.downSince = s.chain.downSince ∧ (s.abandonReads).chain.errs = s.chain.errs ∧
    (s.abandonReads).chain.suspectSince = s.chain.suspectSince ∧
    (s.abandonReads).chain.periodStart = s.chain.periodStart ∧
    (s.abandonReads).chain.periodErrs = s.chain.periodErrs ∧ (s.abandonReads).chain.capTag = s.chain.capTag ∧
    (s.abandonReads).chain.exTag = s.chain.exTag ∧ (s.abandonReads).chain.survey = s.chain.survey ∧
    (s.abandonReads).chain.present = s.chain.present ∧ (s.abandonReads).chain.configured = s.chain.configured ∧
    (s.abandonReads).chain.breakLoc = s.chain.breakLoc ∧ (s.abandonReads).chain.map = s.chain.map ∧
    (s.abandonReads).chain.lastSent = s.chain.lastSent ∧ (s.abandonReads).chain.requests = s.chain.requests ∧
    (s.abandonReads).chain.sleepCmd = s.chain.sleepCmd ∧
    (s.abandonReads).chain.wakeAfterSleep = s.chain.wakeAfterSleep ∧ (s.abandonReads).chain.wake = s.chain.wake ∧
    (s.abandonReads).chain.resetTone = s.chain.resetTone ∧ (s.abandonReads).chain.surveyTimer = s.chain.surveyTimer ∧
    (s.abandonReads).chain.firstUp = s.chain.firstUp ∧ (s.abandonReads).chain.surveySlip = s.chain.surveySlip ∧
    (s.abandonReads).chain.balance = s.chain.balance ∧ (s.abandonReads).chain.returning = s.chain.returning ∧
    (s.abandonReads).conv = s.conv ∧ (s.abandonReads).plan.plans = s.plan.plans ∧
    (s.abandonReads).plan.inForce = s.plan.inForce ∧ (s.abandonReads).plan.dueDone = s.plan.dueDone ∧
    (s.abandonReads).plan.overrun = s.plan.overrun ∧ (s.abandonReads).plan.burst = s.plan.burst ∧
    (s.abandonReads).plan.high = s.plan.high ∧ (s.abandonReads).plan.low = s.plan.low ∧
    (s.abandonReads).plan.temp = s.plan.temp ∧ (s.abandonReads).plan.implausible = s.plan.implausible ∧
    (s.abandonReads).plan.fresh = s.plan.fresh ∧ (s.abandonReads).plan.setSeq = s.plan.setSeq ∧
    (s.abandonReads).plan.pages = s.plan.pages ∧ (s.abandonReads).plan.pageAge = s.plan.pageAge ∧
    (s.abandonReads).plan.writing = s.plan.writing ∧ (s.abandonReads).plan.latest = s.plan.latest ∧
    (s.abandonReads).plan.quiet = s.plan.quiet ∧ (s.abandonReads).plan.patrolReport = s.plan.patrolReport ∧
    (s.abandonReads).sup = s.sup ∧ (s.abandonReads).ev = s.ev ∧ (s.abandonReads).power = s.power ∧
    (s.abandonReads).store = s.store ∧ (s.abandonReads).upd = s.upd ∧ (s.abandonReads).free = s.free ∧
    (s.abandonReads).pending = s.pending := by
  simp only [State.abandonReads]; (repeat' split) <;> (first | rfl | simp [settleEach_frame])

/-- What `beginPageWrite` leaves alone. -/
@[simp] theorem beginPageWrite_frame (s : State) (x : SampleSet) (page : Nat) :
    (s.beginPageWrite x page).pins = s.pins ∧ (s.beginPageWrite x page).port = s.port ∧
    (s.beginPageWrite x page).attn = s.attn ∧ (s.beginPageWrite x page).chain = s.chain ∧
    (s.beginPageWrite x page).conv = s.conv ∧ (s.beginPageWrite x page).plan.plans = s.plan.plans ∧
    (s.beginPageWrite x page).plan.inForce = s.plan.inForce ∧
    (s.beginPageWrite x page).plan.dueDone = s.plan.dueDone ∧
    (s.beginPageWrite x page).plan.overrun = s.plan.overrun ∧
    (s.beginPageWrite x page).plan.captures = s.plan.captures ∧ (s.beginPageWrite x page).plan.burst = s.plan.burst ∧
    (s.beginPageWrite x page).plan.kept = s.plan.kept ∧ (s.beginPageWrite x page).plan.high = s.plan.high ∧
    (s.beginPageWrite x page).plan.low = s.plan.low ∧ (s.beginPageWrite x page).plan.temp = s.plan.temp ∧
    (s.beginPageWrite x page).plan.implausible = s.plan.implausible ∧
    (s.beginPageWrite x page).plan.fresh = s.plan.fresh ∧ (s.beginPageWrite x page).plan.setSeq = s.plan.setSeq ∧
    (s.beginPageWrite x page).plan.latest = s.plan.latest ∧ (s.beginPageWrite x page).plan.quiet = s.plan.quiet ∧
    (s.beginPageWrite x page).plan.patrolReport = s.plan.patrolReport ∧ (s.beginPageWrite x page).sup = s.sup ∧
    (s.beginPageWrite x page).ev = s.ev ∧ (s.beginPageWrite x page).power = s.power ∧
    (s.beginPageWrite x page).store = s.store ∧ (s.beginPageWrite x page).upd = s.upd ∧
    (s.beginPageWrite x page).free = s.free ∧ (s.beginPageWrite x page).pending = s.pending := by
  simp only [State.beginPageWrite]; (repeat' split) <;> (first | rfl | simp)

/-- `beginPageWrite` keeps the canonical form of the memory. -/
@[simp] theorem beginPageWrite_wf (s : State) (x : SampleSet) (page : Nat) (hw : s.mem.wf = true) :
    (s.beginPageWrite x page).mem.wf = true := by
  simp only [State.beginPageWrite]; (repeat' split) <;> first | exact hw | simp (maxDischargeDepth := 20) [hw, store_wf]

/-- What `endPageWrite` leaves alone. -/
@[simp] theorem endPageWrite_frame (s : State) (w : PageWrite) :
    (s.endPageWrite w).pins = s.pins ∧ (s.endPageWrite w).port = s.port ∧
    (s.endPageWrite w).attn.enables = s.attn.enables ∧ (s.endPageWrite w).attn.levels = s.attn.levels ∧
    (s.endPageWrite w).attn.mask = s.attn.mask ∧ (s.endPageWrite w).chain = s.chain ∧
    (s.endPageWrite w).conv = s.conv ∧ (s.endPageWrite w).plan.plans = s.plan.plans ∧
    (s.endPageWrite w).plan.inForce = s.plan.inForce ∧ (s.endPageWrite w).plan.dueDone = s.plan.dueDone ∧
    (s.endPageWrite w).plan.overrun = s.plan.overrun ∧ (s.endPageWrite w).plan.burst = s.plan.burst ∧
    (s.endPageWrite w).plan.kept = s.plan.kept ∧ (s.endPageWrite w).plan.high = s.plan.high ∧
    (s.endPageWrite w).plan.low = s.plan.low ∧ (s.endPageWrite w).plan.temp = s.plan.temp ∧
    (s.endPageWrite w).plan.implausible = s.plan.implausible ∧ (s.endPageWrite w).plan.fresh = s.plan.fresh ∧
    (s.endPageWrite w).plan.setSeq = s.plan.setSeq ∧ (s.endPageWrite w).plan.quiet = s.plan.quiet ∧
    (s.endPageWrite w).plan.patrolReport = s.plan.patrolReport ∧ (s.endPageWrite w).sup = s.sup ∧
    (s.endPageWrite w).ev = s.ev ∧ (s.endPageWrite w).power = s.power ∧ (s.endPageWrite w).store = s.store ∧
    (s.endPageWrite w).upd = s.upd ∧ (s.endPageWrite w).free = s.free ∧ (s.endPageWrite w).pending = s.pending := by
  simp only [State.endPageWrite]; (repeat' split) <;> (first | rfl | simp)

/-- `endPageWrite` keeps the canonical form of the memory. -/
@[simp] theorem endPageWrite_wf (s : State) (w : PageWrite) (hw : s.mem.wf = true) :
    (s.endPageWrite w).mem.wf = true := by
  simp only [State.endPageWrite]; (repeat' split) <;> first | exact hw | simp (maxDischargeDepth := 20) [hw, store_wf]

/-- What `publish` leaves alone. -/
@[simp] theorem publish_frame (s : State) (x : SampleSet) :
    (s.publish x).pins = s.pins ∧ (s.publish x).port.notes = s.port.notes ∧ (s.publish x).port.fault = s.port.fault ∧
    (s.publish x).port.faultCount = s.port.faultCount ∧ (s.publish x).port.tables = s.port.tables ∧
    (s.publish x).port.lastTable = s.port.lastTable ∧ (s.publish x).attn.enables = s.attn.enables ∧
    (s.publish x).attn.levels = s.attn.levels ∧ (s.publish x).attn.mask = s.attn.mask ∧
    (s.publish x).chain = s.chain ∧ (s.publish x).conv = s.conv ∧ (s.publish x).plan.plans = s.plan.plans ∧
    (s.publish x).plan.inForce = s.plan.inForce ∧ (s.publish x).plan.dueDone = s.plan.dueDone ∧
    (s.publish x).plan.overrun = s.plan.overrun ∧ (s.publish x).plan.burst = s.plan.burst ∧
    (s.publish x).plan.kept = s.plan.kept ∧ (s.publish x).plan.high = s.plan.high ∧
    (s.publish x).plan.low = s.plan.low ∧ (s.publish x).plan.temp = s.plan.temp ∧
    (s.publish x).plan.implausible = s.plan.implausible ∧ (s.publish x).plan.fresh = s.plan.fresh ∧
    (s.publish x).plan.setSeq = s.plan.setSeq ∧ (s.publish x).plan.latest = s.plan.latest ∧
    (s.publish x).plan.quiet = s.plan.quiet ∧ (s.publish x).sup = s.sup ∧ (s.publish x).ev.age = s.ev.age ∧
    (s.publish x).ev.next = s.ev.next ∧ (s.publish x).ev.filling = s.ev.filling ∧
    (s.publish x).ev.inbox = s.ev.inbox ∧ (s.publish x).power = s.power ∧ (s.publish x).store = s.store ∧
    (s.publish x).upd = s.upd ∧ (s.publish x).free = s.free ∧ (s.publish x).pending = s.pending := by
  simp only [State.publish]; (repeat' split) <;> (first | rfl | simp)

/-- `publish` keeps the canonical form of the memory. -/
@[simp] theorem publish_wf (s : State) (x : SampleSet) (hw : s.mem.wf = true) :
    (s.publish x).mem.wf = true := by
  simp only [State.publish]; (repeat' split) <;> first | exact hw | simp (maxDischargeDepth := 20) [hw, store_wf]

/-- What `lookAtFlags` leaves alone. -/
@[simp] theorem lookAtFlags_frame (s : State) :
    (s.lookAtFlags).mem = s.mem ∧ (s.lookAtFlags).pins = s.pins ∧ (s.lookAtFlags).port = s.port ∧
    (s.lookAtFlags).attn = s.attn ∧ (s.lookAtFlags).chain = s.chain ∧ (s.lookAtFlags).conv = s.conv ∧
    (s.lookAtFlags).plan = s.plan ∧ (s.lookAtFlags).sup = s.sup ∧ (s.lookAtFlags).ev = s.ev ∧
    (s.lookAtFlags).power.entry = s.power.entry ∧ (s.lookAtFlags).power.snapOutcome = s.power.snapOutcome ∧
    (s.lookAtFlags).power.wakeTable = s.power.wakeTable ∧ (s.lookAtFlags).power.pend = s.power.pend ∧
    (s.lookAtFlags).power.timer = s.power.timer ∧ (s.lookAtFlags).power.timerRunning = s.power.timerRunning ∧
    (s.lookAtFlags).power.compRun = s.power.compRun ∧ (s.lookAtFlags).power.compFired = s.power.compFired ∧
    (s.lookAtFlags).power.patrol = s.power.patrol ∧ (s.lookAtFlags).power.nextSlot = s.power.nextSlot ∧
    (s.lookAtFlags).power.lastNumber = s.power.lastNumber ∧ (s.lookAtFlags).power.estimate = s.power.estimate ∧
    (s.lookAtFlags).power.lastWake = s.power.lastWake ∧ (s.lookAtFlags).power.returning = s.power.returning ∧
    (s.lookAtFlags).power.lastReset = s.power.lastReset ∧ (s.lookAtFlags).power.resetCount = s.power.resetCount ∧
    (s.lookAtFlags).power.wakeOut = s.power.wakeOut ∧ (s.lookAtFlags).power.wakeOutAt = s.power.wakeOutAt ∧
    (s.lookAtFlags).store = s.store ∧ (s.lookAtFlags).upd = s.upd ∧ (s.lookAtFlags).free = s.free ∧
    (s.lookAtFlags).pending = s.pending := by
  simp only [State.lookAtFlags]; (repeat' split) <;> (first | rfl | simp)

/-- What `noteCause` leaves alone. -/
@[simp] theorem noteCause_frame (s : State) (x : Source) :
    (s.noteCause x).mem = s.mem ∧ (s.noteCause x).pins = s.pins ∧ (s.noteCause x).port = s.port ∧
    (s.noteCause x).attn = s.attn ∧ (s.noteCause x).chain = s.chain ∧ (s.noteCause x).conv = s.conv ∧
    (s.noteCause x).plan = s.plan ∧ (s.noteCause x).sup = s.sup ∧ (s.noteCause x).ev = s.ev ∧
    (s.noteCause x).power.entry = s.power.entry ∧ (s.noteCause x).power.snapOutcome = s.power.snapOutcome ∧
    (s.noteCause x).power.wakeTable = s.power.wakeTable ∧ (s.noteCause x).power.timer = s.power.timer ∧
    (s.noteCause x).power.timerRunning = s.power.timerRunning ∧ (s.noteCause x).power.compRun = s.power.compRun ∧
    (s.noteCause x).power.compFired = s.power.compFired ∧ (s.noteCause x).power.nextSlot = s.power.nextSlot ∧
    (s.noteCause x).power.lastNumber = s.power.lastNumber ∧ (s.noteCause x).power.estimate = s.power.estimate ∧
    (s.noteCause x).power.lastWake = s.power.lastWake ∧ (s.noteCause x).power.returning = s.power.returning ∧
    (s.noteCause x).power.lastReset = s.power.lastReset ∧ (s.noteCause x).power.resetCount = s.power.resetCount ∧
    (s.noteCause x).power.wakeOut = s.power.wakeOut ∧ (s.noteCause x).power.wakeOutAt = s.power.wakeOutAt ∧
    (s.noteCause x).store = s.store ∧ (s.noteCause x).upd = s.upd ∧ (s.noteCause x).free = s.free ∧
    (s.noteCause x).pending = s.pending := by
  simp only [State.noteCause]; (repeat' split) <;> (first | rfl | simp)

/-- What `beginEntry` leaves alone. -/
@[simp] theorem beginEntry_frame (s : State) (slot : Nat) :
    (s.beginEntry slot).mem = s.mem ∧ (s.beginEntry slot).pins = s.pins ∧ (s.beginEntry slot).port = s.port ∧
    (s.beginEntry slot).attn = s.attn ∧ (s.beginEntry slot).chain.state = s.chain.state ∧
    (s.beginEntry slot).chain.origin = s.chain.origin ∧ (s.beginEntry slot).chain.wasDown = s.chain.wasDown ∧
    (s.beginEntry slot).chain.downSince = s.chain.downSince ∧ (s.beginEntry slot).chain.errs = s.chain.errs ∧
    (s.beginEntry slot).chain.suspectSince = s.chain.suspectSince ∧
    (s.beginEntry slot).chain.periodStart = s.chain.periodStart ∧
    (s.beginEntry slot).chain.periodErrs = s.chain.periodErrs ∧ (s.beginEntry slot).chain.capTag = s.chain.capTag ∧
    (s.beginEntry slot).chain.exTag = s.chain.exTag ∧ (s.beginEntry slot).chain.survey = s.chain.survey ∧
    (s.beginEntry slot).chain.present = s.chain.present ∧ (s.beginEntry slot).chain.configured = s.chain.configured ∧
    (s.beginEntry slot).chain.breakLoc = s.chain.breakLoc ∧ (s.beginEntry slot).chain.map = s.chain.map ∧
    (s.beginEntry slot).chain.hold = s.chain.hold ∧ (s.beginEntry slot).chain.line = s.chain.line ∧
    (s.beginEntry slot).chain.lastSent = s.chain.lastSent ∧ (s.beginEntry slot).chain.sleepCmd = s.chain.sleepCmd ∧
    (s.beginEntry slot).chain.wakeAfterSleep = s.chain.wakeAfterSleep ∧
    (s.beginEntry slot).chain.wake = s.chain.wake ∧ (s.beginEntry slot).chain.resetTone = s.chain.resetTone ∧
    (s.beginEntry slot).chain.surveyTimer = s.chain.surveyTimer ∧
    (s.beginEntry slot).chain.firstUp = s.chain.firstUp ∧ (s.beginEntry slot).chain.surveySlip = s.chain.surveySlip ∧
    (s.beginEntry slot).chain.balance = s.chain.balance ∧ (s.beginEntry slot).chain.returning = s.chain.returning ∧
    (s.beginEntry slot).conv = s.conv ∧ (s.beginEntry slot).plan.plans = s.plan.plans ∧
    (s.beginEntry slot).plan.inForce = s.plan.inForce ∧ (s.beginEntry slot).plan.dueDone = s.plan.dueDone ∧
    (s.beginEntry slot).plan.overrun = s.plan.overrun ∧ (s.beginEntry slot).plan.burst = s.plan.burst ∧
    (s.beginEntry slot).plan.kept = s.plan.kept ∧ (s.beginEntry slot).plan.high = s.plan.high ∧
    (s.beginEntry slot).plan.low = s.plan.low ∧ (s.beginEntry slot).plan.temp = s.plan.temp ∧
    (s.beginEntry slot).plan.implausible = s.plan.implausible ∧ (s.beginEntry slot).plan.fresh = s.plan.fresh ∧
    (s.beginEntry slot).plan.setSeq = s.plan.setSeq ∧ (s.beginEntry slot).plan.pages = s.plan.pages ∧
    (s.beginEntry slot).plan.pageAge = s.plan.pageAge ∧ (s.beginEntry slot).plan.writing = s.plan.writing ∧
    (s.beginEntry slot).plan.latest = s.plan.latest ∧ (s.beginEntry slot).plan.patrolReport = s.plan.patrolReport ∧
    (s.beginEntry slot).sup = s.sup ∧ (s.beginEntry slot).ev = s.ev ∧
    (s.beginEntry slot).power.wakeTable = s.power.wakeTable ∧ (s.beginEntry slot).power.timer = s.power.timer ∧
    (s.beginEntry slot).power.timerRunning = s.power.timerRunning ∧
    (s.beginEntry slot).power.compRun = s.power.compRun ∧ (s.beginEntry slot).power.compFired = s.power.compFired ∧
    (s.beginEntry slot).power.nextSlot = s.power.nextSlot ∧
    (s.beginEntry slot).power.lastNumber = s.power.lastNumber ∧
    (s.beginEntry slot).power.estimate = s.power.estimate ∧ (s.beginEntry slot).power.lastWake = s.power.lastWake ∧
    (s.beginEntry slot).power.returning = s.power.returning ∧
    (s.beginEntry slot).power.lastReset = s.power.lastReset ∧
    (s.beginEntry slot).power.resetCount = s.power.resetCount ∧ (s.beginEntry slot).power.wakeOut = s.power.wakeOut ∧
    (s.beginEntry slot).power.wakeOutAt = s.power.wakeOutAt ∧ (s.beginEntry slot).store = s.store ∧
    (s.beginEntry slot).upd = s.upd ∧ (s.beginEntry slot).free = s.free ∧ (s.beginEntry slot).pending = s.pending := by
  simp only [State.beginEntry]; (repeat' split) <;> (first | rfl | simp)

/-- What `forgetEntryWrites` leaves alone. -/
@[simp] theorem forgetEntryWrites_frame (s : State) :
    (s.forgetEntryWrites).mem = s.mem ∧ (s.forgetEntryWrites).pins = s.pins ∧ (s.forgetEntryWrites).port = s.port ∧
    (s.forgetEntryWrites).attn = s.attn ∧ (s.forgetEntryWrites).chain = s.chain ∧
    (s.forgetEntryWrites).conv = s.conv ∧ (s.forgetEntryWrites).plan = s.plan ∧ (s.forgetEntryWrites).sup = s.sup ∧
    (s.forgetEntryWrites).ev = s.ev ∧ (s.forgetEntryWrites).power = s.power ∧
    (s.forgetEntryWrites).store.nv = s.store.nv ∧ (s.forgetEntryWrites).store.work = s.store.work ∧
    (s.forgetEntryWrites).store.startUp = s.store.startUp ∧ (s.forgetEntryWrites).store.active = s.store.active ∧
    (s.forgetEntryWrites).store.activeBank = s.store.activeBank ∧
    (s.forgetEntryWrites).store.activeVersion = s.store.activeVersion ∧
    (s.forgetEntryWrites).store.clampCount = s.store.clampCount ∧
    (s.forgetEntryWrites).store.outcome = s.store.outcome ∧
    (s.forgetEntryWrites).store.faultCause = s.store.faultCause ∧
    (s.forgetEntryWrites).store.faultItem = s.store.faultItem ∧
    (s.forgetEntryWrites).store.faultCount = s.store.faultCount ∧ (s.forgetEntryWrites).store.lost = s.store.lost ∧
    (s.forgetEntryWrites).store.taken = s.store.taken ∧ (s.forgetEntryWrites).store.inForce = s.store.inForce ∧
    (s.forgetEntryWrites).store.rangeClamps = s.store.rangeClamps ∧
    (s.forgetEntryWrites).store.hardClamps = s.store.hardClamps ∧
    (s.forgetEntryWrites).store.keySlip = s.store.keySlip ∧ (s.forgetEntryWrites).upd = s.upd ∧
    (s.forgetEntryWrites).free = s.free ∧ (s.forgetEntryWrites).pending = s.pending := by
  simp only [State.forgetEntryWrites]; (repeat' split) <;> (first | rfl | simp)

/-- What `wakeChain` leaves alone. -/
@[simp] theorem wakeChain_frame (s : State) :
    (s.wakeChain).mem = s.mem ∧ (s.wakeChain).pins = s.pins ∧ (s.wakeChain).port = s.port ∧
    (s.wakeChain).attn = s.attn ∧ (s.wakeChain).chain.state = s.chain.state ∧
    (s.wakeChain).chain.origin = s.chain.origin ∧ (s.wakeChain).chain.wasDown = s.chain.wasDown ∧
    (s.wakeChain).chain.downSince = s.chain.downSince ∧ (s.wakeChain).chain.errs = s.chain.errs ∧
    (s.wakeChain).chain.suspectSince = s.chain.suspectSince ∧ (s.wakeChain).chain.periodStart = s.chain.periodStart ∧
    (s.wakeChain).chain.periodErrs = s.chain.periodErrs ∧ (s.wakeChain).chain.capTag = s.chain.capTag ∧
    (s.wakeChain).chain.exTag = s.chain.exTag ∧ (s.wakeChain).chain.survey = s.chain.survey ∧
    (s.wakeChain).chain.present = s.chain.present ∧ (s.wakeChain).chain.configured = s.chain.configured ∧
    (s.wakeChain).chain.breakLoc = s.chain.breakLoc ∧ (s.wakeChain).chain.map = s.chain.map ∧
    (s.wakeChain).chain.hold = s.chain.hold ∧ (s.wakeChain).chain.line = s.chain.line ∧
    (s.wakeChain).chain.lastSent = s.chain.lastSent ∧ (s.wakeChain).chain.requests = s.chain.requests ∧
    (s.wakeChain).chain.sleepCmd = s.chain.sleepCmd ∧ (s.wakeChain).chain.wakeAfterSleep = s.chain.wakeAfterSleep ∧
    (s.wakeChain).chain.resetTone = s.chain.resetTone ∧ (s.wakeChain).chain.surveyTimer = s.chain.surveyTimer ∧
    (s.wakeChain).chain.firstUp = s.chain.firstUp ∧ (s.wakeChain).chain.surveySlip = s.chain.surveySlip ∧
    (s.wakeChain).chain.balance = s.chain.balance ∧ (s.wakeChain).chain.returning = s.chain.returning ∧
    (s.wakeChain).conv = s.conv ∧ (s.wakeChain).plan = s.plan ∧ (s.wakeChain).sup = s.sup ∧ (s.wakeChain).ev = s.ev ∧
    (s.wakeChain).power = s.power ∧ (s.wakeChain).store = s.store ∧ (s.wakeChain).upd = s.upd ∧
    (s.wakeChain).free = s.free ∧ (s.wakeChain).pending = s.pending := by
  simp only [State.wakeChain]; (repeat' split) <;> (first | rfl | simp)

/-- What `cancelEntry` leaves alone. -/
@[simp] theorem cancelEntry_frame (s : State) :
    (s.cancelEntry).pins = s.pins ∧ (s.cancelEntry).port.notes = s.port.notes ∧
    (s.cancelEntry).port.fault = s.port.fault ∧ (s.cancelEntry).port.faultCount = s.port.faultCount ∧
    (s.cancelEntry).port.tables = s.port.tables ∧ (s.cancelEntry).port.lastTable = s.port.lastTable ∧
    (s.cancelEntry).attn.enables = s.attn.enables ∧ (s.cancelEntry).attn.levels = s.attn.levels ∧
    (s.cancelEntry).attn.mask = s.attn.mask ∧ (s.cancelEntry).chain.state = s.chain.state ∧
    (s.cancelEntry).chain.origin = s.chain.origin ∧ (s.cancelEntry).chain.wasDown = s.chain.wasDown ∧
    (s.cancelEntry).chain.downSince = s.chain.downSince ∧ (s.cancelEntry).chain.errs = s.chain.errs ∧
    (s.cancelEntry).chain.suspectSince = s.chain.suspectSince ∧
    (s.cancelEntry).chain.periodStart = s.chain.periodStart ∧ (s.cancelEntry).chain.periodErrs = s.chain.periodErrs ∧
    (s.cancelEntry).chain.capTag = s.chain.capTag ∧ (s.cancelEntry).chain.exTag = s.chain.exTag ∧
    (s.cancelEntry).chain.survey = s.chain.survey ∧ (s.cancelEntry).chain.present = s.chain.present ∧
    (s.cancelEntry).chain.configured = s.chain.configured ∧ (s.cancelEntry).chain.breakLoc = s.chain.breakLoc ∧
    (s.cancelEntry).chain.map = s.chain.map ∧ (s.cancelEntry).chain.hold = s.chain.hold ∧
    (s.cancelEntry).chain.line = s.chain.line ∧ (s.cancelEntry).chain.lastSent = s.chain.lastSent ∧
    (s.cancelEntry).chain.requests = s.chain.requests ∧ (s.cancelEntry).chain.sleepCmd = s.chain.sleepCmd ∧
    (s.cancelEntry).chain.resetTone = s.chain.resetTone ∧ (s.cancelEntry).chain.surveyTimer = s.chain.surveyTimer ∧
    (s.cancelEntry).chain.firstUp = s.chain.firstUp ∧ (s.cancelEntry).chain.surveySlip = s.chain.surveySlip ∧
    (s.cancelEntry).chain.balance = s.chain.balance ∧ (s.cancelEntry).chain.returning = s.chain.returning ∧
    (s.cancelEntry).conv.scanning = s.conv.scanning ∧ (s.cancelEntry).conv.us = s.conv.us ∧
    (s.cancelEntry).conv.part = s.conv.part ∧ (s.cancelEntry).conv.lastLatch = s.conv.lastLatch ∧
    (s.cancelEntry).conv.latched = s.conv.latched ∧ (s.cancelEntry).conv.history = s.conv.history ∧
    (s.cancelEntry).conv.charge = s.conv.charge ∧ (s.cancelEntry).conv.chargeSat = s.conv.chargeSat ∧
    (s.cancelEntry).conv.restored = s.conv.restored ∧ (s.cancelEntry).conv.unsampled = s.conv.unsampled ∧
    (s.cancelEntry).conv.estimate = s.conv.estimate ∧ (s.cancelEntry).conv.recNumber = s.conv.recNumber ∧
    (s.cancelEntry).plan.plans = s.plan.plans ∧ (s.cancelEntry).plan.inForce = s.plan.inForce ∧
    (s.cancelEntry).plan.dueDone = s.plan.dueDone ∧ (s.cancelEntry).plan.overrun = s.plan.overrun ∧
    (s.cancelEntry).plan.captures = s.plan.captures ∧ (s.cancelEntry).plan.burst = s.plan.burst ∧
    (s.cancelEntry).plan.kept = s.plan.kept ∧ (s.cancelEntry).plan.high = s.plan.high ∧
    (s.cancelEntry).plan.low = s.plan.low ∧ (s.cancelEntry).plan.temp = s.plan.temp ∧
    (s.cancelEntry).plan.implausible = s.plan.implausible ∧ (s.cancelEntry).plan.fresh = s.plan.fresh ∧
    (s.cancelEntry).plan.setSeq = s.plan.setSeq ∧ (s.cancelEntry).plan.pages = s.plan.pages ∧
    (s.cancelEntry).plan.pageAge = s.plan.pageAge ∧ (s.cancelEntry).plan.writing = s.plan.writing ∧
    (s.cancelEntry).plan.latest = s.plan.latest ∧ (s.cancelEntry).plan.patrolReport = s.plan.patrolReport ∧
    (s.cancelEntry).sup = s.sup ∧ (s.cancelEntry).ev = s.ev ∧
    (s.cancelEntry).power.snapOutcome = s.power.snapOutcome ∧ (s.cancelEntry).power.wakeTable = s.power.wakeTable ∧
    (s.cancelEntry).power.pend = s.power.pend ∧ (s.cancelEntry).power.target = s.power.target ∧
    (s.cancelEntry).power.timer = s.power.timer ∧ (s.cancelEntry).power.timerRunning = s.power.timerRunning ∧
    (s.cancelEntry).power.compRun = s.power.compRun ∧ (s.cancelEntry).power.compFired = s.power.compFired ∧
    (s.cancelEntry).power.settleAt = s.power.settleAt ∧ (s.cancelEntry).power.settled = s.power.settled ∧
    (s.cancelEntry).power.patrol = s.power.patrol ∧ (s.cancelEntry).power.nextSlot = s.power.nextSlot ∧
    (s.cancelEntry).power.lastNumber = s.power.lastNumber ∧ (s.cancelEntry).power.estimate = s.power.estimate ∧
    (s.cancelEntry).power.lastWake = s.power.lastWake ∧ (s.cancelEntry).power.returning = s.power.returning ∧
    (s.cancelEntry).power.lastReset = s.power.lastReset ∧ (s.cancelEntry).power.resetCount = s.power.resetCount ∧
    (s.cancelEntry).power.wakeOut = s.power.wakeOut ∧ (s.cancelEntry).power.wakeOutAt = s.power.wakeOutAt ∧
    (s.cancelEntry).store.nv = s.store.nv ∧ (s.cancelEntry).store.work = s.store.work ∧
    (s.cancelEntry).store.startUp = s.store.startUp ∧ (s.cancelEntry).store.active = s.store.active ∧
    (s.cancelEntry).store.activeBank = s.store.activeBank ∧
    (s.cancelEntry).store.activeVersion = s.store.activeVersion ∧
    (s.cancelEntry).store.clampCount = s.store.clampCount ∧ (s.cancelEntry).store.outcome = s.store.outcome ∧
    (s.cancelEntry).store.faultCause = s.store.faultCause ∧ (s.cancelEntry).store.faultItem = s.store.faultItem ∧
    (s.cancelEntry).store.faultCount = s.store.faultCount ∧ (s.cancelEntry).store.lost = s.store.lost ∧
    (s.cancelEntry).store.taken = s.store.taken ∧ (s.cancelEntry).store.inForce = s.store.inForce ∧
    (s.cancelEntry).store.rangeClamps = s.store.rangeClamps ∧ (s.cancelEntry).store.hardClamps = s.store.hardClamps ∧
    (s.cancelEntry).store.keySlip = s.store.keySlip ∧ (s.cancelEntry).upd = s.upd ∧ (s.cancelEntry).free = s.free ∧
    (s.cancelEntry).pending = s.pending := by
  simp only [State.cancelEntry]; (repeat' split) <;> (first | rfl | simp)

/-- `cancelEntry` keeps the canonical form of the memory. -/
@[simp] theorem cancelEntry_wf (s : State) (hw : s.mem.wf = true) :
    (s.cancelEntry).mem.wf = true := by
  simp only [State.cancelEntry]; (repeat' split) <;> first | exact hw | simp (maxDischargeDepth := 20) [hw, store_wf]

/-- What `endSnapshotStep` leaves alone. -/
@[simp] theorem endSnapshotStep_frame (s : State) (o : SnapOutcome) :
    (s.endSnapshotStep o).mem = s.mem ∧ (s.endSnapshotStep o).pins = s.pins ∧ (s.endSnapshotStep o).port = s.port ∧
    (s.endSnapshotStep o).attn = s.attn ∧ (s.endSnapshotStep o).chain.state = s.chain.state ∧
    (s.endSnapshotStep o).chain.origin = s.chain.origin ∧ (s.endSnapshotStep o).chain.wasDown = s.chain.wasDown ∧
    (s.endSnapshotStep o).chain.downSince = s.chain.downSince ∧ (s.endSnapshotStep o).chain.errs = s.chain.errs ∧
    (s.endSnapshotStep o).chain.suspectSince = s.chain.suspectSince ∧
    (s.endSnapshotStep o).chain.periodStart = s.chain.periodStart ∧
    (s.endSnapshotStep o).chain.periodErrs = s.chain.periodErrs ∧
    (s.endSnapshotStep o).chain.capTag = s.chain.capTag ∧ (s.endSnapshotStep o).chain.exTag = s.chain.exTag ∧
    (s.endSnapshotStep o).chain.survey = s.chain.survey ∧ (s.endSnapshotStep o).chain.present = s.chain.present ∧
    (s.endSnapshotStep o).chain.configured = s.chain.configured ∧
    (s.endSnapshotStep o).chain.breakLoc = s.chain.breakLoc ∧ (s.endSnapshotStep o).chain.map = s.chain.map ∧
    (s.endSnapshotStep o).chain.hold = s.chain.hold ∧ (s.endSnapshotStep o).chain.line = s.chain.line ∧
    (s.endSnapshotStep o).chain.lastSent = s.chain.lastSent ∧
    (s.endSnapshotStep o).chain.requests = s.chain.requests ∧
    (s.endSnapshotStep o).chain.wakeAfterSleep = s.chain.wakeAfterSleep ∧
    (s.endSnapshotStep o).chain.wake = s.chain.wake ∧ (s.endSnapshotStep o).chain.resetTone = s.chain.resetTone ∧
    (s.endSnapshotStep o).chain.surveyTimer = s.chain.surveyTimer ∧
    (s.endSnapshotStep o).chain.firstUp = s.chain.firstUp ∧
    (s.endSnapshotStep o).chain.surveySlip = s.chain.surveySlip ∧
    (s.endSnapshotStep o).chain.balance = s.chain.balance ∧
    (s.endSnapshotStep o).chain.returning = s.chain.returning ∧ (s.endSnapshotStep o).conv = s.conv ∧
    (s.endSnapshotStep o).plan = s.plan ∧ (s.endSnapshotStep o).sup = s.sup ∧ (s.endSnapshotStep o).ev = s.ev ∧
    (s.endSnapshotStep o).power.state = s.power.state ∧ (s.endSnapshotStep o).power.wakeTable = s.power.wakeTable ∧
    (s.endSnapshotStep o).power.pend = s.power.pend ∧ (s.endSnapshotStep o).power.target = s.power.target ∧
    (s.endSnapshotStep o).power.timer = s.power.timer ∧
    (s.endSnapshotStep o).power.timerRunning = s.power.timerRunning ∧
    (s.endSnapshotStep o).power.compRun = s.power.compRun ∧
    (s.endSnapshotStep o).power.compFired = s.power.compFired ∧
    (s.endSnapshotStep o).power.settleAt = s.power.settleAt ∧ (s.endSnapshotStep o).power.settled = s.power.settled ∧
    (s.endSnapshotStep o).power.patrol = s.power.patrol ∧ (s.endSnapshotStep o).power.nextSlot = s.power.nextSlot ∧
    (s.endSnapshotStep o).power.lastNumber = s.power.lastNumber ∧
    (s.endSnapshotStep o).power.estimate = s.power.estimate ∧
    (s.endSnapshotStep o).power.lastWake = s.power.lastWake ∧
    (s.endSnapshotStep o).power.returning = s.power.returning ∧
    (s.endSnapshotStep o).power.lastReset = s.power.lastReset ∧
    (s.endSnapshotStep o).power.resetCount = s.power.resetCount ∧
    (s.endSnapshotStep o).power.wakeOut = s.power.wakeOut ∧
    (s.endSnapshotStep o).power.wakeOutAt = s.power.wakeOutAt ∧ (s.endSnapshotStep o).store = s.store ∧
    (s.endSnapshotStep o).upd = s.upd ∧ (s.endSnapshotStep o).free = s.free ∧
    (s.endSnapshotStep o).pending = s.pending := by
  simp only [State.endSnapshotStep]; (repeat' split) <;> (first | rfl | simp)

/-- What `toDeep` leaves alone. -/
@[simp] theorem toDeep_frame (s : State) :
    (s.toDeep).mem = s.mem ∧ (s.toDeep).pins = s.pins ∧ (s.toDeep).port = s.port ∧
    (s.toDeep).attn.factors = s.attn.factors ∧ (s.toDeep).attn.enables = s.attn.enables ∧
    (s.toDeep).attn.levels = s.attn.levels ∧ (s.toDeep).attn.mask = s.attn.mask ∧ (s.toDeep).chain = s.chain ∧
    (s.toDeep).conv = s.conv ∧ (s.toDeep).plan = s.plan ∧ (s.toDeep).sup = s.sup ∧ (s.toDeep).ev = s.ev ∧
    (s.toDeep).power.entry = s.power.entry ∧ (s.toDeep).power.snapOutcome = s.power.snapOutcome ∧
    (s.toDeep).power.wakeTable = s.power.wakeTable ∧ (s.toDeep).power.pend = s.power.pend ∧
    (s.toDeep).power.patrol = s.power.patrol ∧ (s.toDeep).power.nextSlot = s.power.nextSlot ∧
    (s.toDeep).power.lastNumber = s.power.lastNumber ∧ (s.toDeep).power.estimate = s.power.estimate ∧
    (s.toDeep).power.lastWake = s.power.lastWake ∧ (s.toDeep).power.returning = s.power.returning ∧
    (s.toDeep).power.lastReset = s.power.lastReset ∧ (s.toDeep).power.resetCount = s.power.resetCount ∧
    (s.toDeep).power.wakeOut = s.power.wakeOut ∧ (s.toDeep).power.wakeOutAt = s.power.wakeOutAt ∧
    (s.toDeep).store = s.store ∧ (s.toDeep).upd = s.upd ∧ (s.toDeep).free = s.free ∧ (s.toDeep).pending = s.pending := by
  simp only [State.toDeep]; (repeat' split) <;> (first | rfl | simp)

/-- What `enterDeep` leaves alone. -/
@[simp] theorem enterDeep_frame (s : State) (slot : Nat) :
    (s.enterDeep slot).pins = s.pins ∧ (s.enterDeep slot).port.notes = s.port.notes ∧
    (s.enterDeep slot).port.fault = s.port.fault ∧ (s.enterDeep slot).port.faultCount = s.port.faultCount ∧
    (s.enterDeep slot).port.tables = s.port.tables ∧ (s.enterDeep slot).port.lastTable = s.port.lastTable ∧
    (s.enterDeep slot).attn.enables = s.attn.enables ∧ (s.enterDeep slot).attn.levels = s.attn.levels ∧
    (s.enterDeep slot).attn.mask = s.attn.mask ∧ (s.enterDeep slot).chain = s.chain ∧
    (s.enterDeep slot).conv.us = s.conv.us ∧ (s.enterDeep slot).conv.part = s.conv.part ∧
    (s.enterDeep slot).conv.lastLatch = s.conv.lastLatch ∧ (s.enterDeep slot).conv.history = s.conv.history ∧
    (s.enterDeep slot).conv.restored = s.conv.restored ∧ (s.enterDeep slot).conv.snapTimer = s.conv.snapTimer ∧
    (s.enterDeep slot).plan = s.plan ∧ (s.enterDeep slot).sup.state = s.sup.state ∧
    (s.enterDeep slot).sup.waiting = s.sup.waiting ∧ (s.enterDeep slot).sup.mainNeg = s.sup.mainNeg ∧
    (s.enterDeep slot).sup.precharge = s.sup.precharge ∧ (s.enterDeep slot).sup.mainPos = s.sup.mainPos ∧
    (s.enterDeep slot).sup.inrush = s.sup.inrush ∧ (s.enterDeep slot).sup.close = s.sup.close ∧
    (s.enterDeep slot).sup.settleAt = s.sup.settleAt ∧ (s.enterDeep slot).sup.opening = s.sup.opening ∧
    (s.enterDeep slot).sup.weld = s.sup.weld ∧ (s.enterDeep slot).sup.clear = s.sup.clear ∧
    (s.enterDeep slot).sup.deferral = s.sup.deferral ∧ (s.enterDeep slot).sup.hardDue = s.sup.hardDue ∧
    (s.enterDeep slot).sup.faultedSince = s.sup.faultedSince ∧ (s.enterDeep slot).sup.lossHeld = s.sup.lossHeld ∧
    (s.enterDeep slot).sup.lossDue = s.sup.lossDue ∧ (s.enterDeep slot).sup.silence = s.sup.silence ∧
    (s.enterDeep slot).sup.warn = s.sup.warn ∧ (s.enterDeep slot).sup.lapsed = s.sup.lapsed ∧
    (s.enterDeep slot).sup.once = s.sup.once ∧ (s.enterDeep slot).ev.age = s.ev.age ∧
    (s.enterDeep slot).ev.next = s.ev.next ∧ (s.enterDeep slot).ev.inbox = s.ev.inbox ∧
    (s.enterDeep slot).power.snapOutcome = s.power.snapOutcome ∧
    (s.enterDeep slot).power.wakeTable = s.power.wakeTable ∧ (s.enterDeep slot).power.pend = s.power.pend ∧
    (s.enterDeep slot).power.patrol = s.power.patrol ∧ (s.enterDeep slot).power.nextSlot = s.power.nextSlot ∧
    (s.enterDeep slot).power.lastNumber = s.power.lastNumber ∧ (s.enterDeep slot).power.lastWake = s.power.lastWake ∧
    (s.enterDeep slot).power.returning = s.power.returning ∧ (s.enterDeep slot).power.lastReset = s.power.lastReset ∧
    (s.enterDeep slot).power.resetCount = s.power.resetCount ∧ (s.enterDeep slot).power.wakeOut = s.power.wakeOut ∧
    (s.enterDeep slot).power.wakeOutAt = s.power.wakeOutAt ∧ (s.enterDeep slot).store = s.store ∧
    (s.enterDeep slot).upd = s.upd ∧ (s.enterDeep slot).free = s.free ∧ (s.enterDeep slot).pending = s.pending := by
  simp only [State.enterDeep]; (repeat' split) <;> (first | rfl | simp)

/-- `enterDeep` keeps the canonical form of the memory. -/
@[simp] theorem enterDeep_wf (s : State) (slot : Nat) (hw : s.mem.wf = true) :
    (s.enterDeep slot).mem.wf = true := by
  simp only [State.enterDeep]; (repeat' split) <;> first | exact hw | simp (maxDischargeDepth := 20) [hw, store_wf]

/-- What `enterRun` leaves alone. -/
@[simp] theorem enterRun_frame (s : State) (result : Option PatrolResult) :
    (s.enterRun result).pins = s.pins ∧ (s.enterRun result).port = s.port ∧
    (s.enterRun result).attn.enables = s.attn.enables ∧ (s.enterRun result).attn.levels = s.attn.levels ∧
    (s.enterRun result).attn.mask = s.attn.mask ∧ (s.enterRun result).chain.state = s.chain.state ∧
    (s.enterRun result).chain.origin = s.chain.origin ∧ (s.enterRun result).chain.wasDown = s.chain.wasDown ∧
    (s.enterRun result).chain.downSince = s.chain.downSince ∧ (s.enterRun result).chain.errs = s.chain.errs ∧
    (s.enterRun result).chain.suspectSince = s.chain.suspectSince ∧
    (s.enterRun result).chain.periodStart = s.chain.periodStart ∧
    (s.enterRun result).chain.periodErrs = s.chain.periodErrs ∧ (s.enterRun result).chain.capTag = s.chain.capTag ∧
    (s.enterRun result).chain.exTag = s.chain.exTag ∧ (s.enterRun result).chain.survey = s.chain.survey ∧
    (s.enterRun result).chain.present = s.chain.present ∧ (s.enterRun result).chain.configured = s.chain.configured ∧
    (s.enterRun result).chain.breakLoc = s.chain.breakLoc ∧ (s.enterRun result).chain.map = s.chain.map ∧
    (s.enterRun result).chain.hold = s.chain.hold ∧ (s.enterRun result).chain.line = s.chain.line ∧
    (s.enterRun result).chain.lastSent = s.chain.lastSent ∧ (s.enterRun result).chain.sleepCmd = s.chain.sleepCmd ∧
    (s.enterRun result).chain.wakeAfterSleep = s.chain.wakeAfterSleep ∧
    (s.enterRun result).chain.wake = s.chain.wake ∧ (s.enterRun result).chain.resetTone = s.chain.resetTone ∧
    (s.enterRun result).chain.surveyTimer = s.chain.surveyTimer ∧
    (s.enterRun result).chain.firstUp = s.chain.firstUp ∧ (s.enterRun result).chain.surveySlip = s.chain.surveySlip ∧
    (s.enterRun result).chain.balance = s.chain.balance ∧ (s.enterRun result).chain.returning = s.chain.returning ∧
    (s.enterRun result).conv.part = s.conv.part ∧ (s.enterRun result).conv.charge = s.conv.charge ∧
    (s.enterRun result).conv.chargeSat = s.conv.chargeSat ∧ (s.enterRun result).conv.restored = s.conv.restored ∧
    (s.enterRun result).conv.unsampled = s.conv.unsampled ∧ (s.enterRun result).conv.estimate = s.conv.estimate ∧
    (s.enterRun result).conv.recNumber = s.conv.recNumber ∧ (s.enterRun result).plan.plans = s.plan.plans ∧
    (s.enterRun result).plan.inForce = s.plan.inForce ∧ (s.enterRun result).plan.dueDone = s.plan.dueDone ∧
    (s.enterRun result).plan.overrun = s.plan.overrun ∧ (s.enterRun result).plan.captures = s.plan.captures ∧
    (s.enterRun result).plan.burst = s.plan.burst ∧ (s.enterRun result).plan.kept = s.plan.kept ∧
    (s.enterRun result).plan.setSeq = s.plan.setSeq ∧ (s.enterRun result).plan.pages = s.plan.pages ∧
    (s.enterRun result).plan.pageAge = s.plan.pageAge ∧ (s.enterRun result).plan.writing = s.plan.writing ∧
    (s.enterRun result).plan.latest = s.plan.latest ∧ (s.enterRun result).sup.state = s.sup.state ∧
    (s.enterRun result).sup.waiting = s.sup.waiting ∧ (s.enterRun result).sup.mainNeg = s.sup.mainNeg ∧
    (s.enterRun result).sup.precharge = s.sup.precharge ∧ (s.enterRun result).sup.mainPos = s.sup.mainPos ∧
    (s.enterRun result).sup.inrush = s.sup.inrush ∧ (s.enterRun result).sup.close = s.sup.close ∧
    (s.enterRun result).sup.settleAt = s.sup.settleAt ∧ (s.enterRun result).sup.opening = s.sup.opening ∧
    (s.enterRun result).sup.weld = s.sup.weld ∧ (s.enterRun result).sup.clear = s.sup.clear ∧
    (s.enterRun result).sup.deferral = s.sup.deferral ∧ (s.enterRun result).sup.hardDue = s.sup.hardDue ∧
    (s.enterRun result).sup.faultedSince = s.sup.faultedSince ∧ (s.enterRun result).sup.lossHeld = s.sup.lossHeld ∧
    (s.enterRun result).sup.lossDue = s.sup.lossDue ∧ (s.enterRun result).sup.once = s.sup.once ∧
    (s.enterRun result).ev.age = s.ev.age ∧ (s.enterRun result).ev.next = s.ev.next ∧
    (s.enterRun result).power.entry = s.power.entry ∧ (s.enterRun result).power.snapOutcome = s.power.snapOutcome ∧
    (s.enterRun result).power.wakeTable = s.power.wakeTable ∧ (s.enterRun result).power.timer = s.power.timer ∧
    (s.enterRun result).power.timerRunning = s.power.timerRunning ∧
    (s.enterRun result).power.compRun = s.power.compRun ∧ (s.enterRun result).power.compFired = s.power.compFired ∧
    (s.enterRun result).power.settleAt = s.power.settleAt ∧ (s.enterRun result).power.settled = s.power.settled ∧
    (s.enterRun result).power.nextSlot = s.power.nextSlot ∧
    (s.enterRun result).power.lastNumber = s.power.lastNumber ∧
    (s.enterRun result).power.estimate = s.power.estimate ∧ (s.enterRun result).power.lastReset = s.power.lastReset ∧
    (s.enterRun result).power.resetCount = s.power.resetCount ∧ (s.enterRun result).store = s.store ∧
    (s.enterRun result).upd = s.upd ∧ (s.enterRun result).free = s.free ∧ (s.enterRun result).pending = s.pending := by
  simp only [State.enterRun]; (repeat' split) <;> (first | rfl | simp)

/-- `enterRun` keeps the canonical form of the memory. -/
@[simp] theorem enterRun_wf (s : State) (result : Option PatrolResult) (hw : s.mem.wf = true) :
    (s.enterRun result).mem.wf = true := by
  simp only [State.enterRun]; (repeat' split) <;> first | exact hw | simp (maxDischargeDepth := 20) [hw, store_wf]

/-- What `wakeCause` leaves alone. -/
@[simp] theorem wakeCause_frame (s : State) (x : Source) :
    (s.wakeCause x).pins = s.pins ∧ (s.wakeCause x).port = s.port ∧ (s.wakeCause x).attn.enables = s.attn.enables ∧
    (s.wakeCause x).attn.levels = s.attn.levels ∧ (s.wakeCause x).attn.mask = s.attn.mask ∧
    (s.wakeCause x).chain.state = s.chain.state ∧ (s.wakeCause x).chain.origin = s.chain.origin ∧
    (s.wakeCause x).chain.wasDown = s.chain.wasDown ∧ (s.wakeCause x).chain.downSince = s.chain.downSince ∧
    (s.wakeCause x).chain.errs = s.chain.errs ∧ (s.wakeCause x).chain.suspectSince = s.chain.suspectSince ∧
    (s.wakeCause x).chain.periodStart = s.chain.periodStart ∧ (s.wakeCause x).chain.periodErrs = s.chain.periodErrs ∧
    (s.wakeCause x).chain.capTag = s.chain.capTag ∧ (s.wakeCause x).chain.exTag = s.chain.exTag ∧
    (s.wakeCause x).chain.survey = s.chain.survey ∧ (s.wakeCause x).chain.present = s.chain.present ∧
    (s.wakeCause x).chain.configured = s.chain.configured ∧ (s.wakeCause x).chain.breakLoc = s.chain.breakLoc ∧
    (s.wakeCause x).chain.map = s.chain.map ∧ (s.wakeCause x).chain.hold = s.chain.hold ∧
    (s.wakeCause x).chain.line = s.chain.line ∧ (s.wakeCause x).chain.lastSent = s.chain.lastSent ∧
    (s.wakeCause x).chain.sleepCmd = s.chain.sleepCmd ∧
    (s.wakeCause x).chain.wakeAfterSleep = s.chain.wakeAfterSleep ∧ (s.wakeCause x).chain.wake = s.chain.wake ∧
    (s.wakeCause x).chain.resetTone = s.chain.resetTone ∧ (s.wakeCause x).chain.surveyTimer = s.chain.surveyTimer ∧
    (s.wakeCause x).chain.firstUp = s.chain.firstUp ∧ (s.wakeCause x).chain.surveySlip = s.chain.surveySlip ∧
    (s.wakeCause x).chain.balance = s.chain.balance ∧ (s.wakeCause x).chain.returning = s.chain.returning ∧
    (s.wakeCause x).conv.part = s.conv.part ∧ (s.wakeCause x).conv.charge = s.conv.charge ∧
    (s.wakeCause x).conv.chargeSat = s.conv.chargeSat ∧ (s.wakeCause x).conv.restored = s.conv.restored ∧
    (s.wakeCause x).conv.unsampled = s.conv.unsampled ∧ (s.wakeCause x).conv.estimate = s.conv.estimate ∧
    (s.wakeCause x).conv.recNumber = s.conv.recNumber ∧ (s.wakeCause x).plan.plans = s.plan.plans ∧
    (s.wakeCause x).plan.inForce = s.plan.inForce ∧ (s.wakeCause x).plan.dueDone = s.plan.dueDone ∧
    (s.wakeCause x).plan.overrun = s.plan.overrun ∧ (s.wakeCause x).plan.captures = s.plan.captures ∧
    (s.wakeCause x).plan.burst = s.plan.burst ∧ (s.wakeCause x).plan.kept = s.plan.kept ∧
    (s.wakeCause x).plan.setSeq = s.plan.setSeq ∧ (s.wakeCause x).plan.pages = s.plan.pages ∧
    (s.wakeCause x).plan.pageAge = s.plan.pageAge ∧ (s.wakeCause x).plan.writing = s.plan.writing ∧
    (s.wakeCause x).plan.latest = s.plan.latest ∧ (s.wakeCause x).sup.state = s.sup.state ∧
    (s.wakeCause x).sup.waiting = s.sup.waiting ∧ (s.wakeCause x).sup.mainNeg = s.sup.mainNeg ∧
    (s.wakeCause x).sup.precharge = s.sup.precharge ∧ (s.wakeCause x).sup.mainPos = s.sup.mainPos ∧
    (s.wakeCause x).sup.inrush = s.sup.inrush ∧ (s.wakeCause x).sup.close = s.sup.close ∧
    (s.wakeCause x).sup.settleAt = s.sup.settleAt ∧ (s.wakeCause x).sup.opening = s.sup.opening ∧
    (s.wakeCause x).sup.weld = s.sup.weld ∧ (s.wakeCause x).sup.clear = s.sup.clear ∧
    (s.wakeCause x).sup.deferral = s.sup.deferral ∧ (s.wakeCause x).sup.hardDue = s.sup.hardDue ∧
    (s.wakeCause x).sup.faultedSince = s.sup.faultedSince ∧ (s.wakeCause x).sup.lossHeld = s.sup.lossHeld ∧
    (s.wakeCause x).sup.lossDue = s.sup.lossDue ∧ (s.wakeCause x).sup.once = s.sup.once ∧
    (s.wakeCause x).ev.age = s.ev.age ∧ (s.wakeCause x).ev.next = s.ev.next ∧
    (s.wakeCause x).power.entry = s.power.entry ∧ (s.wakeCause x).power.snapOutcome = s.power.snapOutcome ∧
    (s.wakeCause x).power.wakeTable = s.power.wakeTable ∧ (s.wakeCause x).power.timer = s.power.timer ∧
    (s.wakeCause x).power.timerRunning = s.power.timerRunning ∧ (s.wakeCause x).power.compRun = s.power.compRun ∧
    (s.wakeCause x).power.compFired = s.power.compFired ∧ (s.wakeCause x).power.nextSlot = s.power.nextSlot ∧
    (s.wakeCause x).power.lastNumber = s.power.lastNumber ∧ (s.wakeCause x).power.estimate = s.power.estimate ∧
    (s.wakeCause x).power.lastReset = s.power.lastReset ∧ (s.wakeCause x).power.resetCount = s.power.resetCount ∧
    (s.wakeCause x).store = s.store ∧ (s.wakeCause x).upd = s.upd ∧ (s.wakeCause x).free = s.free ∧
    (s.wakeCause x).pending = s.pending := by
  simp only [State.wakeCause]; (repeat' split) <;> (first | rfl | simp)

/-- `wakeCause` keeps the canonical form of the memory. -/
@[simp] theorem wakeCause_wf (s : State) (x : Source) (hw : s.mem.wf = true) :
    (s.wakeCause x).mem.wf = true := by
  simp only [State.wakeCause]; (repeat' split) <;> first | exact hw | simp (maxDischargeDepth := 20) [hw, store_wf]

/-- What `alertAtSleep` leaves alone. -/
@[simp] theorem alertAtSleep_frame (s : State) :
    (s.alertAtSleep).pins = s.pins ∧ (s.alertAtSleep).port = s.port ∧ (s.alertAtSleep).attn.enables = s.attn.enables ∧
    (s.alertAtSleep).attn.levels = s.attn.levels ∧ (s.alertAtSleep).attn.mask = s.attn.mask ∧
    (s.alertAtSleep).chain.state = s.chain.state ∧ (s.alertAtSleep).chain.origin = s.chain.origin ∧
    (s.alertAtSleep).chain.wasDown = s.chain.wasDown ∧ (s.alertAtSleep).chain.downSince = s.chain.downSince ∧
    (s.alertAtSleep).chain.errs = s.chain.errs ∧ (s.alertAtSleep).chain.suspectSince = s.chain.suspectSince ∧
    (s.alertAtSleep).chain.periodStart = s.chain.periodStart ∧
    (s.alertAtSleep).chain.periodErrs = s.chain.periodErrs ∧ (s.alertAtSleep).chain.capTag = s.chain.capTag ∧
    (s.alertAtSleep).chain.exTag = s.chain.exTag ∧ (s.alertAtSleep).chain.survey = s.chain.survey ∧
    (s.alertAtSleep).chain.present = s.chain.present ∧ (s.alertAtSleep).chain.configured = s.chain.configured ∧
    (s.alertAtSleep).chain.breakLoc = s.chain.breakLoc ∧ (s.alertAtSleep).chain.map = s.chain.map ∧
    (s.alertAtSleep).chain.hold = s.chain.hold ∧ (s.alertAtSleep).chain.line = s.chain.line ∧
    (s.alertAtSleep).chain.lastSent = s.chain.lastSent ∧ (s.alertAtSleep).chain.sleepCmd = s.chain.sleepCmd ∧
    (s.alertAtSleep).chain.wakeAfterSleep = s.chain.wakeAfterSleep ∧ (s.alertAtSleep).chain.wake = s.chain.wake ∧
    (s.alertAtSleep).chain.resetTone = s.chain.resetTone ∧ (s.alertAtSleep).chain.surveyTimer = s.chain.surveyTimer ∧
    (s.alertAtSleep).chain.firstUp = s.chain.firstUp ∧ (s.alertAtSleep).chain.surveySlip = s.chain.surveySlip ∧
    (s.alertAtSleep).chain.balance = s.chain.balance ∧ (s.alertAtSleep).chain.returning = s.chain.returning ∧
    (s.alertAtSleep).conv.part = s.conv.part ∧ (s.alertAtSleep).conv.charge = s.conv.charge ∧
    (s.alertAtSleep).conv.chargeSat = s.conv.chargeSat ∧ (s.alertAtSleep).conv.restored = s.conv.restored ∧
    (s.alertAtSleep).conv.unsampled = s.conv.unsampled ∧ (s.alertAtSleep).conv.estimate = s.conv.estimate ∧
    (s.alertAtSleep).conv.recNumber = s.conv.recNumber ∧ (s.alertAtSleep).plan.plans = s.plan.plans ∧
    (s.alertAtSleep).plan.inForce = s.plan.inForce ∧ (s.alertAtSleep).plan.dueDone = s.plan.dueDone ∧
    (s.alertAtSleep).plan.overrun = s.plan.overrun ∧ (s.alertAtSleep).plan.captures = s.plan.captures ∧
    (s.alertAtSleep).plan.burst = s.plan.burst ∧ (s.alertAtSleep).plan.kept = s.plan.kept ∧
    (s.alertAtSleep).plan.setSeq = s.plan.setSeq ∧ (s.alertAtSleep).plan.pages = s.plan.pages ∧
    (s.alertAtSleep).plan.pageAge = s.plan.pageAge ∧ (s.alertAtSleep).plan.writing = s.plan.writing ∧
    (s.alertAtSleep).plan.latest = s.plan.latest ∧ (s.alertAtSleep).sup.state = s.sup.state ∧
    (s.alertAtSleep).sup.waiting = s.sup.waiting ∧ (s.alertAtSleep).sup.mainNeg = s.sup.mainNeg ∧
    (s.alertAtSleep).sup.precharge = s.sup.precharge ∧ (s.alertAtSleep).sup.mainPos = s.sup.mainPos ∧
    (s.alertAtSleep).sup.inrush = s.sup.inrush ∧ (s.alertAtSleep).sup.close = s.sup.close ∧
    (s.alertAtSleep).sup.settleAt = s.sup.settleAt ∧ (s.alertAtSleep).sup.opening = s.sup.opening ∧
    (s.alertAtSleep).sup.weld = s.sup.weld ∧ (s.alertAtSleep).sup.clear = s.sup.clear ∧
    (s.alertAtSleep).sup.deferral = s.sup.deferral ∧ (s.alertAtSleep).sup.hardDue = s.sup.hardDue ∧
    (s.alertAtSleep).sup.faultedSince = s.sup.faultedSince ∧ (s.alertAtSleep).sup.lossHeld = s.sup.lossHeld ∧
    (s.alertAtSleep).sup.lossDue = s.sup.lossDue ∧ (s.alertAtSleep).sup.once = s.sup.once ∧
    (s.alertAtSleep).ev.age = s.ev.age ∧ (s.alertAtSleep).ev.next = s.ev.next ∧
    (s.alertAtSleep).power.entry = s.power.entry ∧ (s.alertAtSleep).power.snapOutcome = s.power.snapOutcome ∧
    (s.alertAtSleep).power.wakeTable = s.power.wakeTable ∧ (s.alertAtSleep).power.timer = s.power.timer ∧
    (s.alertAtSleep).power.timerRunning = s.power.timerRunning ∧ (s.alertAtSleep).power.compRun = s.power.compRun ∧
    (s.alertAtSleep).power.compFired = s.power.compFired ∧ (s.alertAtSleep).power.nextSlot = s.power.nextSlot ∧
    (s.alertAtSleep).power.lastNumber = s.power.lastNumber ∧ (s.alertAtSleep).power.estimate = s.power.estimate ∧
    (s.alertAtSleep).power.lastReset = s.power.lastReset ∧ (s.alertAtSleep).power.resetCount = s.power.resetCount ∧
    (s.alertAtSleep).store = s.store ∧ (s.alertAtSleep).upd = s.upd ∧ (s.alertAtSleep).free = s.free ∧
    (s.alertAtSleep).pending = s.pending := by
  simp only [State.alertAtSleep]; (repeat' split) <;> (first | rfl | simp)

/-- `alertAtSleep` keeps the canonical form of the memory. -/
@[simp] theorem alertAtSleep_wf (s : State) (hw : s.mem.wf = true) :
    (s.alertAtSleep).mem.wf = true := by
  simp only [State.alertAtSleep]; (repeat' split) <;> first | exact hw | simp (maxDischargeDepth := 20) [hw, store_wf]

/-- What `askPatrol` leaves alone. -/
@[simp] theorem askPatrol_frame (s : State) :
    (s.askPatrol).mem = s.mem ∧ (s.askPatrol).pins = s.pins ∧ (s.askPatrol).port = s.port ∧
    (s.askPatrol).attn = s.attn ∧ (s.askPatrol).chain.state = s.chain.state ∧
    (s.askPatrol).chain.origin = s.chain.origin ∧ (s.askPatrol).chain.wasDown = s.chain.wasDown ∧
    (s.askPatrol).chain.downSince = s.chain.downSince ∧ (s.askPatrol).chain.errs = s.chain.errs ∧
    (s.askPatrol).chain.suspectSince = s.chain.suspectSince ∧ (s.askPatrol).chain.periodStart = s.chain.periodStart ∧
    (s.askPatrol).chain.periodErrs = s.chain.periodErrs ∧ (s.askPatrol).chain.capTag = s.chain.capTag ∧
    (s.askPatrol).chain.exTag = s.chain.exTag ∧ (s.askPatrol).chain.survey = s.chain.survey ∧
    (s.askPatrol).chain.present = s.chain.present ∧ (s.askPatrol).chain.configured = s.chain.configured ∧
    (s.askPatrol).chain.breakLoc = s.chain.breakLoc ∧ (s.askPatrol).chain.map = s.chain.map ∧
    (s.askPatrol).chain.hold = s.chain.hold ∧ (s.askPatrol).chain.line = s.chain.line ∧
    (s.askPatrol).chain.lastSent = s.chain.lastSent ∧ (s.askPatrol).chain.sleepCmd = s.chain.sleepCmd ∧
    (s.askPatrol).chain.wakeAfterSleep = s.chain.wakeAfterSleep ∧ (s.askPatrol).chain.wake = s.chain.wake ∧
    (s.askPatrol).chain.resetTone = s.chain.resetTone ∧ (s.askPatrol).chain.surveyTimer = s.chain.surveyTimer ∧
    (s.askPatrol).chain.firstUp = s.chain.firstUp ∧ (s.askPatrol).chain.surveySlip = s.chain.surveySlip ∧
    (s.askPatrol).chain.balance = s.chain.balance ∧ (s.askPatrol).chain.returning = s.chain.returning ∧
    (s.askPatrol).conv = s.conv ∧ (s.askPatrol).plan.plans = s.plan.plans ∧
    (s.askPatrol).plan.inForce = s.plan.inForce ∧ (s.askPatrol).plan.dueDone = s.plan.dueDone ∧
    (s.askPatrol).plan.overrun = s.plan.overrun ∧ (s.askPatrol).plan.burst = s.plan.burst ∧
    (s.askPatrol).plan.kept = s.plan.kept ∧ (s.askPatrol).plan.high = s.plan.high ∧
    (s.askPatrol).plan.low = s.plan.low ∧ (s.askPatrol).plan.temp = s.plan.temp ∧
    (s.askPatrol).plan.implausible = s.plan.implausible ∧ (s.askPatrol).plan.fresh = s.plan.fresh ∧
    (s.askPatrol).plan.setSeq = s.plan.setSeq ∧ (s.askPatrol).plan.pages = s.plan.pages ∧
    (s.askPatrol).plan.pageAge = s.plan.pageAge ∧ (s.askPatrol).plan.writing = s.plan.writing ∧
    (s.askPatrol).plan.latest = s.plan.latest ∧ (s.askPatrol).plan.quiet = s.plan.quiet ∧ (s.askPatrol).sup = s.sup ∧
    (s.askPatrol).ev = s.ev ∧ (s.askPatrol).power = s.power ∧ (s.askPatrol).store = s.store ∧
    (s.askPatrol).upd = s.upd ∧ (s.askPatrol).free = s.free ∧ (s.askPatrol).pending = s.pending := by
  simp only [State.askPatrol]; (repeat' split) <;> (first | rfl | simp)

/-- What `enterPatrol` leaves alone. -/
@[simp] theorem enterPatrol_frame (s : State) :
    (s.enterPatrol).mem = s.mem ∧ (s.enterPatrol).pins = s.pins ∧ (s.enterPatrol).port = s.port ∧
    (s.enterPatrol).attn = s.attn ∧ (s.enterPatrol).chain.state = s.chain.state ∧
    (s.enterPatrol).chain.origin = s.chain.origin ∧ (s.enterPatrol).chain.wasDown = s.chain.wasDown ∧
    (s.enterPatrol).chain.downSince = s.chain.downSince ∧ (s.enterPatrol).chain.errs = s.chain.errs ∧
    (s.enterPatrol).chain.suspectSince = s.chain.suspectSince ∧
    (s.enterPatrol).chain.periodStart = s.chain.periodStart ∧ (s.enterPatrol).chain.periodErrs = s.chain.periodErrs ∧
    (s.enterPatrol).chain.capTag = s.chain.capTag ∧ (s.enterPatrol).chain.exTag = s.chain.exTag ∧
    (s.enterPatrol).chain.survey = s.chain.survey ∧ (s.enterPatrol).chain.present = s.chain.present ∧
    (s.enterPatrol).chain.configured = s.chain.configured ∧ (s.enterPatrol).chain.breakLoc = s.chain.breakLoc ∧
    (s.enterPatrol).chain.map = s.chain.map ∧ (s.enterPatrol).chain.hold = s.chain.hold ∧
    (s.enterPatrol).chain.line = s.chain.line ∧ (s.enterPatrol).chain.lastSent = s.chain.lastSent ∧
    (s.enterPatrol).chain.sleepCmd = s.chain.sleepCmd ∧
    (s.enterPatrol).chain.wakeAfterSleep = s.chain.wakeAfterSleep ∧ (s.enterPatrol).chain.wake = s.chain.wake ∧
    (s.enterPatrol).chain.resetTone = s.chain.resetTone ∧ (s.enterPatrol).chain.surveyTimer = s.chain.surveyTimer ∧
    (s.enterPatrol).chain.firstUp = s.chain.firstUp ∧ (s.enterPatrol).chain.surveySlip = s.chain.surveySlip ∧
    (s.enterPatrol).chain.balance = s.chain.balance ∧ (s.enterPatrol).chain.returning = s.chain.returning ∧
    (s.enterPatrol).conv = s.conv ∧ (s.enterPatrol).plan.plans = s.plan.plans ∧
    (s.enterPatrol).plan.inForce = s.plan.inForce ∧ (s.enterPatrol).plan.dueDone = s.plan.dueDone ∧
    (s.enterPatrol).plan.overrun = s.plan.overrun ∧ (s.enterPatrol).plan.burst = s.plan.burst ∧
    (s.enterPatrol).plan.kept = s.plan.kept ∧ (s.enterPatrol).plan.high = s.plan.high ∧
    (s.enterPatrol).plan.low = s.plan.low ∧ (s.enterPatrol).plan.temp = s.plan.temp ∧
    (s.enterPatrol).plan.implausible = s.plan.implausible ∧ (s.enterPatrol).plan.fresh = s.plan.fresh ∧
    (s.enterPatrol).plan.setSeq = s.plan.setSeq ∧ (s.enterPatrol).plan.pages = s.plan.pages ∧
    (s.enterPatrol).plan.pageAge = s.plan.pageAge ∧ (s.enterPatrol).plan.writing = s.plan.writing ∧
    (s.enterPatrol).plan.latest = s.plan.latest ∧ (s.enterPatrol).plan.quiet = s.plan.quiet ∧
    (s.enterPatrol).sup = s.sup ∧ (s.enterPatrol).ev = s.ev ∧ (s.enterPatrol).power.entry = s.power.entry ∧
    (s.enterPatrol).power.snapOutcome = s.power.snapOutcome ∧ (s.enterPatrol).power.wakeTable = s.power.wakeTable ∧
    (s.enterPatrol).power.pend = s.power.pend ∧ (s.enterPatrol).power.target = s.power.target ∧
    (s.enterPatrol).power.timer = s.power.timer ∧ (s.enterPatrol).power.timerRunning = s.power.timerRunning ∧
    (s.enterPatrol).power.compRun = s.power.compRun ∧ (s.enterPatrol).power.compFired = s.power.compFired ∧
    (s.enterPatrol).power.settleAt = s.power.settleAt ∧ (s.enterPatrol).power.settled = s.power.settled ∧
    (s.enterPatrol).power.nextSlot = s.power.nextSlot ∧ (s.enterPatrol).power.lastNumber = s.power.lastNumber ∧
    (s.enterPatrol).power.estimate = s.power.estimate ∧ (s.enterPatrol).power.lastWake = s.power.lastWake ∧
    (s.enterPatrol).power.returning = s.power.returning ∧ (s.enterPatrol).power.lastReset = s.power.lastReset ∧
    (s.enterPatrol).power.resetCount = s.power.resetCount ∧ (s.enterPatrol).power.wakeOut = s.power.wakeOut ∧
    (s.enterPatrol).power.wakeOutAt = s.power.wakeOutAt ∧ (s.enterPatrol).store = s.store ∧
    (s.enterPatrol).upd = s.upd ∧ (s.enterPatrol).free = s.free ∧ (s.enterPatrol).pending = s.pending := by
  simp only [State.enterPatrol]; (repeat' split) <;> (first | rfl | simp)

/-- What `logPatrol` leaves alone. -/
@[simp] theorem logPatrol_frame (s : State) (p : Patrol) (r : PatrolResult) (b : Breached) (x : Option PatrolSet) :
    (s.logPatrol p r b x).pins = s.pins ∧ (s.logPatrol p r b x).port = s.port ∧ (s.logPatrol p r b x).attn = s.attn ∧
    (s.logPatrol p r b x).chain = s.chain ∧ (s.logPatrol p r b x).conv = s.conv ∧
    (s.logPatrol p r b x).plan = s.plan ∧ (s.logPatrol p r b x).sup = s.sup ∧ (s.logPatrol p r b x).ev = s.ev ∧
    (s.logPatrol p r b x).power.state = s.power.state ∧ (s.logPatrol p r b x).power.entry = s.power.entry ∧
    (s.logPatrol p r b x).power.snapOutcome = s.power.snapOutcome ∧
    (s.logPatrol p r b x).power.wakeTable = s.power.wakeTable ∧ (s.logPatrol p r b x).power.pend = s.power.pend ∧
    (s.logPatrol p r b x).power.target = s.power.target ∧ (s.logPatrol p r b x).power.timer = s.power.timer ∧
    (s.logPatrol p r b x).power.timerRunning = s.power.timerRunning ∧
    (s.logPatrol p r b x).power.compRun = s.power.compRun ∧
    (s.logPatrol p r b x).power.compFired = s.power.compFired ∧
    (s.logPatrol p r b x).power.settleAt = s.power.settleAt ∧ (s.logPatrol p r b x).power.settled = s.power.settled ∧
    (s.logPatrol p r b x).power.patrol = s.power.patrol ∧ (s.logPatrol p r b x).power.estimate = s.power.estimate ∧
    (s.logPatrol p r b x).power.lastWake = s.power.lastWake ∧
    (s.logPatrol p r b x).power.returning = s.power.returning ∧
    (s.logPatrol p r b x).power.lastReset = s.power.lastReset ∧
    (s.logPatrol p r b x).power.resetCount = s.power.resetCount ∧
    (s.logPatrol p r b x).power.wakeOut = s.power.wakeOut ∧
    (s.logPatrol p r b x).power.wakeOutAt = s.power.wakeOutAt ∧ (s.logPatrol p r b x).store = s.store ∧
    (s.logPatrol p r b x).upd = s.upd ∧ (s.logPatrol p r b x).free = s.free ∧
    (s.logPatrol p r b x).pending = s.pending := by
  simp only [State.logPatrol]; (repeat' split) <;> (first | rfl | simp)

/-- `logPatrol` keeps the canonical form of the memory. -/
@[simp] theorem logPatrol_wf (s : State) (p : Patrol) (r : PatrolResult) (b : Breached) (x : Option PatrolSet) (hw : s.mem.wf = true) :
    (s.logPatrol p r b x).mem.wf = true := by
  simp only [State.logPatrol]; (repeat' split) <;> first | exact hw | simp (maxDischargeDepth := 20) [hw, store_wf]

/-- What `beginReturn` leaves alone. -/
@[simp] theorem beginReturn_frame (s : State) :
    (s.beginReturn).mem = s.mem ∧ (s.beginReturn).pins = s.pins ∧ (s.beginReturn).port = s.port ∧
    (s.beginReturn).attn = s.attn ∧ (s.beginReturn).chain.state = s.chain.state ∧
    (s.beginReturn).chain.origin = s.chain.origin ∧ (s.beginReturn).chain.wasDown = s.chain.wasDown ∧
    (s.beginReturn).chain.downSince = s.chain.downSince ∧ (s.beginReturn).chain.errs = s.chain.errs ∧
    (s.beginReturn).chain.suspectSince = s.chain.suspectSince ∧
    (s.beginReturn).chain.periodStart = s.chain.periodStart ∧ (s.beginReturn).chain.periodErrs = s.chain.periodErrs ∧
    (s.beginReturn).chain.capTag = s.chain.capTag ∧ (s.beginReturn).chain.exTag = s.chain.exTag ∧
    (s.beginReturn).chain.survey = s.chain.survey ∧ (s.beginReturn).chain.present = s.chain.present ∧
    (s.beginReturn).chain.configured = s.chain.configured ∧ (s.beginReturn).chain.breakLoc = s.chain.breakLoc ∧
    (s.beginReturn).chain.map = s.chain.map ∧ (s.beginReturn).chain.hold = s.chain.hold ∧
    (s.beginReturn).chain.line = s.chain.line ∧ (s.beginReturn).chain.lastSent = s.chain.lastSent ∧
    (s.beginReturn).chain.requests = s.chain.requests ∧
    (s.beginReturn).chain.wakeAfterSleep = s.chain.wakeAfterSleep ∧ (s.beginReturn).chain.wake = s.chain.wake ∧
    (s.beginReturn).chain.resetTone = s.chain.resetTone ∧ (s.beginReturn).chain.surveyTimer = s.chain.surveyTimer ∧
    (s.beginReturn).chain.firstUp = s.chain.firstUp ∧ (s.beginReturn).chain.surveySlip = s.chain.surveySlip ∧
    (s.beginReturn).chain.balance = s.chain.balance ∧ (s.beginReturn).chain.returning = s.chain.returning ∧
    (s.beginReturn).conv = s.conv ∧ (s.beginReturn).plan = s.plan ∧ (s.beginReturn).sup = s.sup ∧
    (s.beginReturn).ev = s.ev ∧ (s.beginReturn).power.state = s.power.state ∧
    (s.beginReturn).power.entry = s.power.entry ∧ (s.beginReturn).power.snapOutcome = s.power.snapOutcome ∧
    (s.beginReturn).power.wakeTable = s.power.wakeTable ∧ (s.beginReturn).power.pend = s.power.pend ∧
    (s.beginReturn).power.target = s.power.target ∧ (s.beginReturn).power.timer = s.power.timer ∧
    (s.beginReturn).power.timerRunning = s.power.timerRunning ∧ (s.beginReturn).power.compRun = s.power.compRun ∧
    (s.beginReturn).power.compFired = s.power.compFired ∧ (s.beginReturn).power.settleAt = s.power.settleAt ∧
    (s.beginReturn).power.settled = s.power.settled ∧ (s.beginReturn).power.nextSlot = s.power.nextSlot ∧
    (s.beginReturn).power.lastNumber = s.power.lastNumber ∧ (s.beginReturn).power.estimate = s.power.estimate ∧
    (s.beginReturn).power.lastWake = s.power.lastWake ∧ (s.beginReturn).power.lastReset = s.power.lastReset ∧
    (s.beginReturn).power.resetCount = s.power.resetCount ∧ (s.beginReturn).power.wakeOut = s.power.wakeOut ∧
    (s.beginReturn).power.wakeOutAt = s.power.wakeOutAt ∧ (s.beginReturn).store = s.store ∧
    (s.beginReturn).upd = s.upd ∧ (s.beginReturn).free = s.free ∧ (s.beginReturn).pending = s.pending := by
  simp only [State.beginReturn]; (repeat' split) <;> (first | rfl | simp)

/-- What `endPatrol` leaves alone. -/
@[simp] theorem endPatrol_frame (s : State) (r : PatrolResult) :
    (s.endPatrol r).pins = s.pins ∧ (s.endPatrol r).port = s.port ∧ (s.endPatrol r).attn.enables = s.attn.enables ∧
    (s.endPatrol r).attn.levels = s.attn.levels ∧ (s.endPatrol r).attn.mask = s.attn.mask ∧
    (s.endPatrol r).chain.state = s.chain.state ∧ (s.endPatrol r).chain.origin = s.chain.origin ∧
    (s.endPatrol r).chain.wasDown = s.chain.wasDown ∧ (s.endPatrol r).chain.downSince = s.chain.downSince ∧
    (s.endPatrol r).chain.errs = s.chain.errs ∧ (s.endPatrol r).chain.suspectSince = s.chain.suspectSince ∧
    (s.endPatrol r).chain.periodStart = s.chain.periodStart ∧ (s.endPatrol r).chain.periodErrs = s.chain.periodErrs ∧
    (s.endPatrol r).chain.capTag = s.chain.capTag ∧ (s.endPatrol r).chain.exTag = s.chain.exTag ∧
    (s.endPatrol r).chain.survey = s.chain.survey ∧ (s.endPatrol r).chain.present = s.chain.present ∧
    (s.endPatrol r).chain.configured = s.chain.configured ∧ (s.endPatrol r).chain.breakLoc = s.chain.breakLoc ∧
    (s.endPatrol r).chain.map = s.chain.map ∧ (s.endPatrol r).chain.hold = s.chain.hold ∧
    (s.endPatrol r).chain.line = s.chain.line ∧ (s.endPatrol r).chain.lastSent = s.chain.lastSent ∧
    (s.endPatrol r).chain.wakeAfterSleep = s.chain.wakeAfterSleep ∧ (s.endPatrol r).chain.wake = s.chain.wake ∧
    (s.endPatrol r).chain.resetTone = s.chain.resetTone ∧ (s.endPatrol r).chain.surveyTimer = s.chain.surveyTimer ∧
    (s.endPatrol r).chain.firstUp = s.chain.firstUp ∧ (s.endPatrol r).chain.surveySlip = s.chain.surveySlip ∧
    (s.endPatrol r).chain.balance = s.chain.balance ∧ (s.endPatrol r).chain.returning = s.chain.returning ∧
    (s.endPatrol r).conv.part = s.conv.part ∧ (s.endPatrol r).conv.charge = s.conv.charge ∧
    (s.endPatrol r).conv.chargeSat = s.conv.chargeSat ∧ (s.endPatrol r).conv.restored = s.conv.restored ∧
    (s.endPatrol r).conv.unsampled = s.conv.unsampled ∧ (s.endPatrol r).conv.estimate = s.conv.estimate ∧
    (s.endPatrol r).conv.recNumber = s.conv.recNumber ∧ (s.endPatrol r).plan.plans = s.plan.plans ∧
    (s.endPatrol r).plan.inForce = s.plan.inForce ∧ (s.endPatrol r).plan.dueDone = s.plan.dueDone ∧
    (s.endPatrol r).plan.overrun = s.plan.overrun ∧ (s.endPatrol r).plan.captures = s.plan.captures ∧
    (s.endPatrol r).plan.burst = s.plan.burst ∧ (s.endPatrol r).plan.kept = s.plan.kept ∧
    (s.endPatrol r).plan.setSeq = s.plan.setSeq ∧ (s.endPatrol r).plan.pages = s.plan.pages ∧
    (s.endPatrol r).plan.pageAge = s.plan.pageAge ∧ (s.endPatrol r).plan.writing = s.plan.writing ∧
    (s.endPatrol r).plan.latest = s.plan.latest ∧ (s.endPatrol r).sup.state = s.sup.state ∧
    (s.endPatrol r).sup.waiting = s.sup.waiting ∧ (s.endPatrol r).sup.mainNeg = s.sup.mainNeg ∧
    (s.endPatrol r).sup.precharge = s.sup.precharge ∧ (s.endPatrol r).sup.mainPos = s.sup.mainPos ∧
    (s.endPatrol r).sup.inrush = s.sup.inrush ∧ (s.endPatrol r).sup.close = s.sup.close ∧
    (s.endPatrol r).sup.settleAt = s.sup.settleAt ∧ (s.endPatrol r).sup.opening = s.sup.opening ∧
    (s.endPatrol r).sup.weld = s.sup.weld ∧ (s.endPatrol r).sup.clear = s.sup.clear ∧
    (s.endPatrol r).sup.deferral = s.sup.deferral ∧ (s.endPatrol r).sup.hardDue = s.sup.hardDue ∧
    (s.endPatrol r).sup.faultedSince = s.sup.faultedSince ∧ (s.endPatrol r).sup.lossHeld = s.sup.lossHeld ∧
    (s.endPatrol r).sup.lossDue = s.sup.lossDue ∧ (s.endPatrol r).sup.once = s.sup.once ∧
    (s.endPatrol r).ev.age = s.ev.age ∧ (s.endPatrol r).ev.next = s.ev.next ∧
    (s.endPatrol r).power.entry = s.power.entry ∧ (s.endPatrol r).power.snapOutcome = s.power.snapOutcome ∧
    (s.endPatrol r).power.wakeTable = s.power.wakeTable ∧ (s.endPatrol r).power.timer = s.power.timer ∧
    (s.endPatrol r).power.timerRunning = s.power.timerRunning ∧ (s.endPatrol r).power.compRun = s.power.compRun ∧
    (s.endPatrol r).power.compFired = s.power.compFired ∧ (s.endPatrol r).power.settleAt = s.power.settleAt ∧
    (s.endPatrol r).power.settled = s.power.settled ∧ (s.endPatrol r).power.nextSlot = s.power.nextSlot ∧
    (s.endPatrol r).power.lastNumber = s.power.lastNumber ∧ (s.endPatrol r).power.estimate = s.power.estimate ∧
    (s.endPatrol r).power.lastReset = s.power.lastReset ∧ (s.endPatrol r).power.resetCount = s.power.resetCount ∧
    (s.endPatrol r).store = s.store ∧ (s.endPatrol r).upd = s.upd ∧ (s.endPatrol r).free = s.free ∧
    (s.endPatrol r).pending = s.pending := by
  simp only [State.endPatrol]; (repeat' split) <;> (first | rfl | simp)

/-- `endPatrol` keeps the canonical form of the memory. -/
@[simp] theorem endPatrol_wf (s : State) (r : PatrolResult) (hw : s.mem.wf = true) :
    (s.endPatrol r).mem.wf = true := by
  simp only [State.endPatrol]; (repeat' split) <;> first | exact hw | simp (maxDischargeDepth := 20) [hw, store_wf]

end Sys2Proof.Machine
end

