-- ==== Sys2Proof/Laws/EffectsSettle.lean ====
section
/-! SUPPORT. What the operations of the update engine and the reactions within a step leave alone, one lemma for each; each keeps the canonical form of the memory. -/

set_option linter.all false

namespace Sys2Proof.Machine

/-- What `toUpd` leaves alone. -/
@[simp] theorem toUpd_frame (s : State) (st : UpdState) :
    (s.toUpd st).pins = s.pins ∧ (s.toUpd st).port = s.port ∧ (s.toUpd st).attn.enables = s.attn.enables ∧
    (s.toUpd st).attn.levels = s.attn.levels ∧ (s.toUpd st).attn.mask = s.attn.mask ∧ (s.toUpd st).chain = s.chain ∧
    (s.toUpd st).conv = s.conv ∧ (s.toUpd st).plan = s.plan ∧ (s.toUpd st).sup = s.sup ∧ (s.toUpd st).ev = s.ev ∧
    (s.toUpd st).power = s.power ∧ (s.toUpd st).store = s.store ∧ (s.toUpd st).upd.slip = s.upd.slip ∧
    (s.toUpd st).upd.aborts = s.upd.aborts ∧ (s.toUpd st).upd.header = s.upd.header ∧
    (s.toUpd st).upd.staging = s.upd.staging ∧ (s.toUpd st).upd.expected = s.upd.expected ∧
    (s.toUpd st).upd.lastAcc = s.upd.lastAcc ∧ (s.toUpd st).upd.runCrc = s.upd.runCrc ∧
    (s.toUpd st).upd.absorbing = s.upd.absorbing ∧ (s.toUpd st).upd.waiting = s.upd.waiting ∧
    (s.toUpd st).upd.acc = s.upd.acc ∧ (s.toUpd st).upd.dup = s.upd.dup ∧ (s.toUpd st).upd.rej = s.upd.rej ∧
    (s.toUpd st).upd.dist = s.upd.dist ∧ (s.toUpd st).upd.turn = s.upd.turn ∧ (s.toUpd st).upd.link = s.upd.link ∧
    (s.toUpd st).upd.pause = s.upd.pause ∧ (s.toUpd st).upd.switchPending = s.upd.switchPending ∧
    (s.toUpd st).upd.commitReached = s.upd.commitReached ∧ (s.toUpd st).upd.floorWritten = s.upd.floorWritten ∧
    (s.toUpd st).upd.commit = s.upd.commit ∧ (s.toUpd st).upd.bankWritten = s.upd.bankWritten ∧
    (s.toUpd st).upd.window = s.upd.window ∧ (s.toUpd st).upd.aborting = s.upd.aborting ∧
    (s.toUpd st).upd.outcome = s.upd.outcome ∧ (s.toUpd st).upd.outcomeState = s.upd.outcomeState ∧
    (s.toUpd st).upd.watches = s.upd.watches ∧ (s.toUpd st).upd.checkAt = s.upd.checkAt ∧
    (s.toUpd st).free = s.free ∧ (s.toUpd st).pending = s.pending := by
  simp only [State.toUpd]; (repeat' split) <;> (first | rfl | simp)

/-- `toUpd` keeps the canonical form of the memory. -/
@[simp] theorem toUpd_wf (s : State) (st : UpdState) (hw : s.mem.wf = true) :
    (s.toUpd st).mem.wf = true := by
  simp only [State.toUpd]; (repeat' split) <;> first | exact hw | simp (maxDischargeDepth := 20) [hw, store_wf]

/-- What `giveBack` leaves alone. -/
@[simp] theorem giveBack_frame (s : State) (buf : Buffer) (length : Nat) (st : BufferState) (cause : Option RejectCause) :
    (s.giveBack buf length st cause).pins = s.pins ∧ (s.giveBack buf length st cause).port = s.port ∧
    (s.giveBack buf length st cause).attn.enables = s.attn.enables ∧
    (s.giveBack buf length st cause).attn.levels = s.attn.levels ∧
    (s.giveBack buf length st cause).attn.mask = s.attn.mask ∧ (s.giveBack buf length st cause).chain = s.chain ∧
    (s.giveBack buf length st cause).conv = s.conv ∧ (s.giveBack buf length st cause).plan = s.plan ∧
    (s.giveBack buf length st cause).sup = s.sup ∧ (s.giveBack buf length st cause).ev = s.ev ∧
    (s.giveBack buf length st cause).power = s.power ∧ (s.giveBack buf length st cause).store = s.store ∧
    (s.giveBack buf length st cause).upd = s.upd ∧ (s.giveBack buf length st cause).free = s.free ∧
    (s.giveBack buf length st cause).pending = s.pending := by
  simp only [State.giveBack]; (repeat' split) <;> (first | rfl | simp)

/-- `giveBack` keeps the canonical form of the memory. -/
@[simp] theorem giveBack_wf (s : State) (buf : Buffer) (length : Nat) (st : BufferState) (cause : Option RejectCause) (hw : s.mem.wf = true) :
    (s.giveBack buf length st cause).mem.wf = true := by
  simp only [State.giveBack]; (repeat' split) <;> first | exact hw | simp (maxDischargeDepth := 20) [hw, store_wf]

/-- What `reject` leaves alone. -/
@[simp] theorem reject_frame (s : State) (buf : Buffer) (length : Nat) (cause : RejectCause) :
    (s.reject buf length cause).pins = s.pins ∧ (s.reject buf length cause).port = s.port ∧
    (s.reject buf length cause).attn.enables = s.attn.enables ∧
    (s.reject buf length cause).attn.levels = s.attn.levels ∧ (s.reject buf length cause).attn.mask = s.attn.mask ∧
    (s.reject buf length cause).chain = s.chain ∧ (s.reject buf length cause).conv = s.conv ∧
    (s.reject buf length cause).plan = s.plan ∧ (s.reject buf length cause).sup = s.sup ∧
    (s.reject buf length cause).ev = s.ev ∧ (s.reject buf length cause).power = s.power ∧
    (s.reject buf length cause).store = s.store ∧ (s.reject buf length cause).upd.state = s.upd.state ∧
    (s.reject buf length cause).upd.slip = s.upd.slip ∧ (s.reject buf length cause).upd.aborts = s.upd.aborts ∧
    (s.reject buf length cause).upd.header = s.upd.header ∧ (s.reject buf length cause).upd.staging = s.upd.staging ∧
    (s.reject buf length cause).upd.expected = s.upd.expected ∧
    (s.reject buf length cause).upd.lastAcc = s.upd.lastAcc ∧ (s.reject buf length cause).upd.runCrc = s.upd.runCrc ∧
    (s.reject buf length cause).upd.absorbing = s.upd.absorbing ∧
    (s.reject buf length cause).upd.waiting = s.upd.waiting ∧ (s.reject buf length cause).upd.acc = s.upd.acc ∧
    (s.reject buf length cause).upd.dup = s.upd.dup ∧ (s.reject buf length cause).upd.dist = s.upd.dist ∧
    (s.reject buf length cause).upd.turn = s.upd.turn ∧ (s.reject buf length cause).upd.link = s.upd.link ∧
    (s.reject buf length cause).upd.pause = s.upd.pause ∧
    (s.reject buf length cause).upd.switchPending = s.upd.switchPending ∧
    (s.reject buf length cause).upd.commitReached = s.upd.commitReached ∧
    (s.reject buf length cause).upd.floorWritten = s.upd.floorWritten ∧
    (s.reject buf length cause).upd.commit = s.upd.commit ∧
    (s.reject buf length cause).upd.bankWritten = s.upd.bankWritten ∧
    (s.reject buf length cause).upd.window = s.upd.window ∧
    (s.reject buf length cause).upd.aborting = s.upd.aborting ∧
    (s.reject buf length cause).upd.outcome = s.upd.outcome ∧
    (s.reject buf length cause).upd.outcomeState = s.upd.outcomeState ∧
    (s.reject buf length cause).upd.watches = s.upd.watches ∧
    (s.reject buf length cause).upd.checkAt = s.upd.checkAt ∧ (s.reject buf length cause).free = s.free ∧
    (s.reject buf length cause).pending = s.pending := by
  simp only [State.reject]; (repeat' split) <;> (first | rfl | simp)

/-- `reject` keeps the canonical form of the memory. -/
@[simp] theorem reject_wf (s : State) (buf : Buffer) (length : Nat) (cause : RejectCause) (hw : s.mem.wf = true) :
    (s.reject buf length cause).mem.wf = true := by
  simp only [State.reject]; (repeat' split) <;> first | exact hw | simp (maxDischargeDepth := 20) [hw, store_wf]

/-- What `absorbNext` leaves alone. -/
@[simp] theorem absorbNext_frame (s : State) :
    (s.absorbNext).pins = s.pins ∧ (s.absorbNext).port = s.port ∧ (s.absorbNext).attn.enables = s.attn.enables ∧
    (s.absorbNext).attn.levels = s.attn.levels ∧ (s.absorbNext).attn.mask = s.attn.mask ∧
    (s.absorbNext).chain = s.chain ∧ (s.absorbNext).conv = s.conv ∧ (s.absorbNext).plan = s.plan ∧
    (s.absorbNext).sup = s.sup ∧ (s.absorbNext).ev = s.ev ∧ (s.absorbNext).power = s.power ∧
    (s.absorbNext).store = s.store ∧ (s.absorbNext).upd.state = s.upd.state ∧ (s.absorbNext).upd.slip = s.upd.slip ∧
    (s.absorbNext).upd.aborts = s.upd.aborts ∧ (s.absorbNext).upd.header = s.upd.header ∧
    (s.absorbNext).upd.staging = s.upd.staging ∧ (s.absorbNext).upd.expected = s.upd.expected ∧
    (s.absorbNext).upd.lastAcc = s.upd.lastAcc ∧ (s.absorbNext).upd.runCrc = s.upd.runCrc ∧
    (s.absorbNext).upd.acc = s.upd.acc ∧ (s.absorbNext).upd.dist = s.upd.dist ∧
    (s.absorbNext).upd.turn = s.upd.turn ∧ (s.absorbNext).upd.link = s.upd.link ∧
    (s.absorbNext).upd.pause = s.upd.pause ∧ (s.absorbNext).upd.switchPending = s.upd.switchPending ∧
    (s.absorbNext).upd.commitReached = s.upd.commitReached ∧ (s.absorbNext).upd.floorWritten = s.upd.floorWritten ∧
    (s.absorbNext).upd.commit = s.upd.commit ∧ (s.absorbNext).upd.bankWritten = s.upd.bankWritten ∧
    (s.absorbNext).upd.window = s.upd.window ∧ (s.absorbNext).upd.aborting = s.upd.aborting ∧
    (s.absorbNext).upd.outcome = s.upd.outcome ∧ (s.absorbNext).upd.outcomeState = s.upd.outcomeState ∧
    (s.absorbNext).upd.watches = s.upd.watches ∧ (s.absorbNext).upd.checkAt = s.upd.checkAt ∧
    (s.absorbNext).free = s.free ∧ (s.absorbNext).pending = s.pending := by
  simp only [State.absorbNext]; (repeat' split) <;> (first | rfl | simp)

/-- `absorbNext` keeps the canonical form of the memory. -/
@[simp] theorem absorbNext_wf (s : State) (hw : s.mem.wf = true) :
    (s.absorbNext).mem.wf = true := by
  simp only [State.absorbNext]; (repeat' split) <;> first | exact hw | simp (maxDischargeDepth := 20) [hw, store_wf]

/-- What `endAbsorption` leaves alone. -/
@[simp] theorem endAbsorption_frame (s : State) (b : Absorb) :
    (s.endAbsorption b).pins = s.pins ∧ (s.endAbsorption b).port = s.port ∧
    (s.endAbsorption b).attn.enables = s.attn.enables ∧ (s.endAbsorption b).attn.levels = s.attn.levels ∧
    (s.endAbsorption b).attn.mask = s.attn.mask ∧ (s.endAbsorption b).chain = s.chain ∧
    (s.endAbsorption b).conv = s.conv ∧ (s.endAbsorption b).plan = s.plan ∧ (s.endAbsorption b).sup = s.sup ∧
    (s.endAbsorption b).ev = s.ev ∧ (s.endAbsorption b).power = s.power ∧ (s.endAbsorption b).store = s.store ∧
    (s.endAbsorption b).upd.state = s.upd.state ∧ (s.endAbsorption b).upd.slip = s.upd.slip ∧
    (s.endAbsorption b).upd.aborts = s.upd.aborts ∧ (s.endAbsorption b).upd.header = s.upd.header ∧
    (s.endAbsorption b).upd.waiting = s.upd.waiting ∧ (s.endAbsorption b).upd.dup = s.upd.dup ∧
    (s.endAbsorption b).upd.dist = s.upd.dist ∧ (s.endAbsorption b).upd.turn = s.upd.turn ∧
    (s.endAbsorption b).upd.link = s.upd.link ∧ (s.endAbsorption b).upd.pause = s.upd.pause ∧
    (s.endAbsorption b).upd.switchPending = s.upd.switchPending ∧
    (s.endAbsorption b).upd.commitReached = s.upd.commitReached ∧
    (s.endAbsorption b).upd.floorWritten = s.upd.floorWritten ∧ (s.endAbsorption b).upd.commit = s.upd.commit ∧
    (s.endAbsorption b).upd.bankWritten = s.upd.bankWritten ∧ (s.endAbsorption b).upd.window = s.upd.window ∧
    (s.endAbsorption b).upd.aborting = s.upd.aborting ∧ (s.endAbsorption b).upd.outcome = s.upd.outcome ∧
    (s.endAbsorption b).upd.outcomeState = s.upd.outcomeState ∧ (s.endAbsorption b).upd.watches = s.upd.watches ∧
    (s.endAbsorption b).upd.checkAt = s.upd.checkAt ∧ (s.endAbsorption b).pending = s.pending := by
  simp only [State.endAbsorption]; (repeat' split) <;> (first | rfl | simp)

/-- `endAbsorption` keeps the canonical form of the memory. -/
@[simp] theorem endAbsorption_wf (s : State) (b : Absorb) (hw : s.mem.wf = true) :
    (s.endAbsorption b).mem.wf = true := by
  simp only [State.endAbsorption]; (repeat' split) <;> first | exact hw | simp (maxDischargeDepth := 20) [hw, store_wf]

/-- What `stopIntake` leaves alone. -/
@[simp] theorem stopIntake_frame (s : State) :
    (s.stopIntake).pins = s.pins ∧ (s.stopIntake).port = s.port ∧ (s.stopIntake).attn.enables = s.attn.enables ∧
    (s.stopIntake).attn.levels = s.attn.levels ∧ (s.stopIntake).attn.mask = s.attn.mask ∧
    (s.stopIntake).chain = s.chain ∧ (s.stopIntake).conv = s.conv ∧ (s.stopIntake).plan = s.plan ∧
    (s.stopIntake).sup = s.sup ∧ (s.stopIntake).ev = s.ev ∧ (s.stopIntake).power = s.power ∧
    (s.stopIntake).store = s.store ∧ (s.stopIntake).upd.state = s.upd.state ∧ (s.stopIntake).upd.slip = s.upd.slip ∧
    (s.stopIntake).upd.aborts = s.upd.aborts ∧ (s.stopIntake).upd.header = s.upd.header ∧
    (s.stopIntake).upd.staging = s.upd.staging ∧ (s.stopIntake).upd.expected = s.upd.expected ∧
    (s.stopIntake).upd.lastAcc = s.upd.lastAcc ∧ (s.stopIntake).upd.runCrc = s.upd.runCrc ∧
    (s.stopIntake).upd.waiting = s.upd.waiting ∧ (s.stopIntake).upd.acc = s.upd.acc ∧
    (s.stopIntake).upd.dup = s.upd.dup ∧ (s.stopIntake).upd.dist = s.upd.dist ∧
    (s.stopIntake).upd.turn = s.upd.turn ∧ (s.stopIntake).upd.link = s.upd.link ∧
    (s.stopIntake).upd.pause = s.upd.pause ∧ (s.stopIntake).upd.switchPending = s.upd.switchPending ∧
    (s.stopIntake).upd.commitReached = s.upd.commitReached ∧ (s.stopIntake).upd.floorWritten = s.upd.floorWritten ∧
    (s.stopIntake).upd.commit = s.upd.commit ∧ (s.stopIntake).upd.bankWritten = s.upd.bankWritten ∧
    (s.stopIntake).upd.window = s.upd.window ∧ (s.stopIntake).upd.aborting = s.upd.aborting ∧
    (s.stopIntake).upd.outcome = s.upd.outcome ∧ (s.stopIntake).upd.outcomeState = s.upd.outcomeState ∧
    (s.stopIntake).upd.watches = s.upd.watches ∧ (s.stopIntake).upd.checkAt = s.upd.checkAt ∧
    (s.stopIntake).free = s.free ∧ (s.stopIntake).pending = s.pending := by
  simp only [State.stopIntake]; (repeat' split) <;> (first | rfl | simp)

/-- `stopIntake` keeps the canonical form of the memory. -/
@[simp] theorem stopIntake_wf (s : State) (hw : s.mem.wf = true) :
    (s.stopIntake).mem.wf = true := by
  simp only [State.stopIntake]; (repeat' split) <;> first | exact hw | simp (maxDischargeDepth := 20) [hw, store_wf]

/-- What `dropFirmware` leaves alone. -/
@[simp] theorem dropFirmware_frame (s : State) :
    (s.dropFirmware).mem = s.mem ∧ (s.dropFirmware).pins = s.pins ∧ (s.dropFirmware).port = s.port ∧
    (s.dropFirmware).attn = s.attn ∧ (s.dropFirmware).chain.state = s.chain.state ∧
    (s.dropFirmware).chain.origin = s.chain.origin ∧ (s.dropFirmware).chain.wasDown = s.chain.wasDown ∧
    (s.dropFirmware).chain.downSince = s.chain.downSince ∧ (s.dropFirmware).chain.errs = s.chain.errs ∧
    (s.dropFirmware).chain.suspectSince = s.chain.suspectSince ∧
    (s.dropFirmware).chain.periodStart = s.chain.periodStart ∧
    (s.dropFirmware).chain.periodErrs = s.chain.periodErrs ∧ (s.dropFirmware).chain.capTag = s.chain.capTag ∧
    (s.dropFirmware).chain.exTag = s.chain.exTag ∧ (s.dropFirmware).chain.survey = s.chain.survey ∧
    (s.dropFirmware).chain.present = s.chain.present ∧ (s.dropFirmware).chain.configured = s.chain.configured ∧
    (s.dropFirmware).chain.breakLoc = s.chain.breakLoc ∧ (s.dropFirmware).chain.map = s.chain.map ∧
    (s.dropFirmware).chain.hold = s.chain.hold ∧ (s.dropFirmware).chain.line = s.chain.line ∧
    (s.dropFirmware).chain.lastSent = s.chain.lastSent ∧ (s.dropFirmware).chain.sleepCmd = s.chain.sleepCmd ∧
    (s.dropFirmware).chain.wakeAfterSleep = s.chain.wakeAfterSleep ∧ (s.dropFirmware).chain.wake = s.chain.wake ∧
    (s.dropFirmware).chain.resetTone = s.chain.resetTone ∧ (s.dropFirmware).chain.surveyTimer = s.chain.surveyTimer ∧
    (s.dropFirmware).chain.firstUp = s.chain.firstUp ∧ (s.dropFirmware).chain.surveySlip = s.chain.surveySlip ∧
    (s.dropFirmware).chain.balance = s.chain.balance ∧ (s.dropFirmware).chain.returning = s.chain.returning ∧
    (s.dropFirmware).conv = s.conv ∧ (s.dropFirmware).plan = s.plan ∧ (s.dropFirmware).sup = s.sup ∧
    (s.dropFirmware).ev = s.ev ∧ (s.dropFirmware).power = s.power ∧ (s.dropFirmware).store = s.store ∧
    (s.dropFirmware).upd = s.upd ∧ (s.dropFirmware).free = s.free ∧ (s.dropFirmware).pending = s.pending := by
  simp only [State.dropFirmware]; (repeat' split) <;> (first | rfl | simp)

/-- What `disregard` leaves alone. -/
@[simp] theorem disregard_frame (s : State) :
    (s.disregard).mem = s.mem ∧ (s.disregard).pins = s.pins ∧ (s.disregard).port = s.port ∧
    (s.disregard).attn = s.attn ∧ (s.disregard).chain.state = s.chain.state ∧
    (s.disregard).chain.origin = s.chain.origin ∧ (s.disregard).chain.wasDown = s.chain.wasDown ∧
    (s.disregard).chain.downSince = s.chain.downSince ∧ (s.disregard).chain.errs = s.chain.errs ∧
    (s.disregard).chain.suspectSince = s.chain.suspectSince ∧ (s.disregard).chain.periodStart = s.chain.periodStart ∧
    (s.disregard).chain.periodErrs = s.chain.periodErrs ∧ (s.disregard).chain.capTag = s.chain.capTag ∧
    (s.disregard).chain.exTag = s.chain.exTag ∧ (s.disregard).chain.survey = s.chain.survey ∧
    (s.disregard).chain.present = s.chain.present ∧ (s.disregard).chain.configured = s.chain.configured ∧
    (s.disregard).chain.breakLoc = s.chain.breakLoc ∧ (s.disregard).chain.map = s.chain.map ∧
    (s.disregard).chain.line = s.chain.line ∧ (s.disregard).chain.lastSent = s.chain.lastSent ∧
    (s.disregard).chain.requests = s.chain.requests ∧ (s.disregard).chain.sleepCmd = s.chain.sleepCmd ∧
    (s.disregard).chain.wakeAfterSleep = s.chain.wakeAfterSleep ∧ (s.disregard).chain.wake = s.chain.wake ∧
    (s.disregard).chain.resetTone = s.chain.resetTone ∧ (s.disregard).chain.surveyTimer = s.chain.surveyTimer ∧
    (s.disregard).chain.firstUp = s.chain.firstUp ∧ (s.disregard).chain.surveySlip = s.chain.surveySlip ∧
    (s.disregard).chain.balance = s.chain.balance ∧ (s.disregard).chain.returning = s.chain.returning ∧
    (s.disregard).conv = s.conv ∧ (s.disregard).plan = s.plan ∧ (s.disregard).sup = s.sup ∧ (s.disregard).ev = s.ev ∧
    (s.disregard).power = s.power ∧ (s.disregard).store = s.store ∧ (s.disregard).upd = s.upd ∧
    (s.disregard).free = s.free ∧ (s.disregard).pending = s.pending := by
  simp only [State.disregard]; (repeat' split) <;> (first | rfl | simp)

/-- What `endUpdate` leaves alone. -/
@[simp] theorem endUpdate_frame (s : State) (o : UpdOutcome) (code : ResultCode) (cause : Option ResultCause) :
    (s.endUpdate o code cause).pins = s.pins ∧ (s.endUpdate o code cause).port.notes = s.port.notes ∧
    (s.endUpdate o code cause).port.fault = s.port.fault ∧
    (s.endUpdate o code cause).port.faultCount = s.port.faultCount ∧
    (s.endUpdate o code cause).port.tables = s.port.tables ∧
    (s.endUpdate o code cause).port.lastTable = s.port.lastTable ∧
    (s.endUpdate o code cause).attn.enables = s.attn.enables ∧
    (s.endUpdate o code cause).attn.levels = s.attn.levels ∧ (s.endUpdate o code cause).attn.mask = s.attn.mask ∧
    (s.endUpdate o code cause).chain.state = s.chain.state ∧
    (s.endUpdate o code cause).chain.origin = s.chain.origin ∧
    (s.endUpdate o code cause).chain.wasDown = s.chain.wasDown ∧
    (s.endUpdate o code cause).chain.downSince = s.chain.downSince ∧
    (s.endUpdate o code cause).chain.errs = s.chain.errs ∧
    (s.endUpdate o code cause).chain.suspectSince = s.chain.suspectSince ∧
    (s.endUpdate o code cause).chain.periodStart = s.chain.periodStart ∧
    (s.endUpdate o code cause).chain.periodErrs = s.chain.periodErrs ∧
    (s.endUpdate o code cause).chain.capTag = s.chain.capTag ∧
    (s.endUpdate o code cause).chain.exTag = s.chain.exTag ∧
    (s.endUpdate o code cause).chain.survey = s.chain.survey ∧
    (s.endUpdate o code cause).chain.present = s.chain.present ∧
    (s.endUpdate o code cause).chain.configured = s.chain.configured ∧
    (s.endUpdate o code cause).chain.breakLoc = s.chain.breakLoc ∧
    (s.endUpdate o code cause).chain.map = s.chain.map ∧ (s.endUpdate o code cause).chain.line = s.chain.line ∧
    (s.endUpdate o code cause).chain.lastSent = s.chain.lastSent ∧
    (s.endUpdate o code cause).chain.sleepCmd = s.chain.sleepCmd ∧
    (s.endUpdate o code cause).chain.wakeAfterSleep = s.chain.wakeAfterSleep ∧
    (s.endUpdate o code cause).chain.wake = s.chain.wake ∧
    (s.endUpdate o code cause).chain.resetTone = s.chain.resetTone ∧
    (s.endUpdate o code cause).chain.surveyTimer = s.chain.surveyTimer ∧
    (s.endUpdate o code cause).chain.firstUp = s.chain.firstUp ∧
    (s.endUpdate o code cause).chain.surveySlip = s.chain.surveySlip ∧
    (s.endUpdate o code cause).chain.balance = s.chain.balance ∧
    (s.endUpdate o code cause).chain.returning = s.chain.returning ∧ (s.endUpdate o code cause).conv = s.conv ∧
    (s.endUpdate o code cause).plan = s.plan ∧ (s.endUpdate o code cause).sup = s.sup ∧
    (s.endUpdate o code cause).ev.slots = s.ev.slots ∧ (s.endUpdate o code cause).ev.age = s.ev.age ∧
    (s.endUpdate o code cause).ev.next = s.ev.next ∧ (s.endUpdate o code cause).ev.filling = s.ev.filling ∧
    (s.endUpdate o code cause).power = s.power ∧ (s.endUpdate o code cause).store = s.store ∧
    (s.endUpdate o code cause).upd.header = s.upd.header ∧ (s.endUpdate o code cause).upd.expected = s.upd.expected ∧
    (s.endUpdate o code cause).upd.lastAcc = s.upd.lastAcc ∧ (s.endUpdate o code cause).upd.runCrc = s.upd.runCrc ∧
    (s.endUpdate o code cause).upd.waiting = s.upd.waiting ∧ (s.endUpdate o code cause).upd.acc = s.upd.acc ∧
    (s.endUpdate o code cause).upd.dup = s.upd.dup ∧ (s.endUpdate o code cause).upd.dist = s.upd.dist ∧
    (s.endUpdate o code cause).upd.switchPending = s.upd.switchPending ∧
    (s.endUpdate o code cause).upd.commitReached = s.upd.commitReached ∧
    (s.endUpdate o code cause).upd.floorWritten = s.upd.floorWritten ∧
    (s.endUpdate o code cause).upd.bankWritten = s.upd.bankWritten ∧
    (s.endUpdate o code cause).upd.watches = s.upd.watches ∧ (s.endUpdate o code cause).upd.checkAt = s.upd.checkAt ∧
    (s.endUpdate o code cause).free = s.free ∧ (s.endUpdate o code cause).pending = s.pending := by
  simp only [State.endUpdate]; (repeat' split) <;> (first | rfl | simp)

/-- `endUpdate` keeps the canonical form of the memory. -/
@[simp] theorem endUpdate_wf (s : State) (o : UpdOutcome) (code : ResultCode) (cause : Option ResultCause) (hw : s.mem.wf = true) :
    (s.endUpdate o code cause).mem.wf = true := by
  simp only [State.endUpdate]; (repeat' split) <;> first | exact hw | simp (maxDischargeDepth := 20) [hw, store_wf]

/-- What `endAborted` leaves alone. -/
@[simp] theorem endAborted_frame (s : State) :
    (s.endAborted).pins = s.pins ∧ (s.endAborted).port.notes = s.port.notes ∧
    (s.endAborted).port.fault = s.port.fault ∧ (s.endAborted).port.faultCount = s.port.faultCount ∧
    (s.endAborted).port.tables = s.port.tables ∧ (s.endAborted).port.lastTable = s.port.lastTable ∧
    (s.endAborted).attn.enables = s.attn.enables ∧ (s.endAborted).attn.levels = s.attn.levels ∧
    (s.endAborted).attn.mask = s.attn.mask ∧ (s.endAborted).chain.state = s.chain.state ∧
    (s.endAborted).chain.origin = s.chain.origin ∧ (s.endAborted).chain.wasDown = s.chain.wasDown ∧
    (s.endAborted).chain.downSince = s.chain.downSince ∧ (s.endAborted).chain.errs = s.chain.errs ∧
    (s.endAborted).chain.suspectSince = s.chain.suspectSince ∧
    (s.endAborted).chain.periodStart = s.chain.periodStart ∧ (s.endAborted).chain.periodErrs = s.chain.periodErrs ∧
    (s.endAborted).chain.capTag = s.chain.capTag ∧ (s.endAborted).chain.exTag = s.chain.exTag ∧
    (s.endAborted).chain.survey = s.chain.survey ∧ (s.endAborted).chain.present = s.chain.present ∧
    (s.endAborted).chain.configured = s.chain.configured ∧ (s.endAborted).chain.breakLoc = s.chain.breakLoc ∧
    (s.endAborted).chain.map = s.chain.map ∧ (s.endAborted).chain.line = s.chain.line ∧
    (s.endAborted).chain.lastSent = s.chain.lastSent ∧ (s.endAborted).chain.sleepCmd = s.chain.sleepCmd ∧
    (s.endAborted).chain.wakeAfterSleep = s.chain.wakeAfterSleep ∧ (s.endAborted).chain.wake = s.chain.wake ∧
    (s.endAborted).chain.resetTone = s.chain.resetTone ∧ (s.endAborted).chain.surveyTimer = s.chain.surveyTimer ∧
    (s.endAborted).chain.firstUp = s.chain.firstUp ∧ (s.endAborted).chain.surveySlip = s.chain.surveySlip ∧
    (s.endAborted).chain.balance = s.chain.balance ∧ (s.endAborted).chain.returning = s.chain.returning ∧
    (s.endAborted).conv = s.conv ∧ (s.endAborted).plan = s.plan ∧ (s.endAborted).sup = s.sup ∧
    (s.endAborted).ev.slots = s.ev.slots ∧ (s.endAborted).ev.age = s.ev.age ∧ (s.endAborted).ev.next = s.ev.next ∧
    (s.endAborted).ev.filling = s.ev.filling ∧ (s.endAborted).power = s.power ∧ (s.endAborted).store = s.store ∧
    (s.endAborted).upd.header = s.upd.header ∧ (s.endAborted).upd.expected = s.upd.expected ∧
    (s.endAborted).upd.lastAcc = s.upd.lastAcc ∧ (s.endAborted).upd.runCrc = s.upd.runCrc ∧
    (s.endAborted).upd.waiting = s.upd.waiting ∧ (s.endAborted).upd.acc = s.upd.acc ∧
    (s.endAborted).upd.dup = s.upd.dup ∧ (s.endAborted).upd.dist = s.upd.dist ∧
    (s.endAborted).upd.switchPending = s.upd.switchPending ∧ (s.endAborted).upd.commitReached = s.upd.commitReached ∧
    (s.endAborted).upd.floorWritten = s.upd.floorWritten ∧ (s.endAborted).upd.bankWritten = s.upd.bankWritten ∧
    (s.endAborted).upd.watches = s.upd.watches ∧ (s.endAborted).upd.checkAt = s.upd.checkAt ∧
    (s.endAborted).free = s.free ∧ (s.endAborted).pending = s.pending := by
  simp only [State.endAborted]; (repeat' split) <;> (first | rfl | simp)

/-- `endAborted` keeps the canonical form of the memory. -/
@[simp] theorem endAborted_wf (s : State) (hw : s.mem.wf = true) :
    (s.endAborted).mem.wf = true := by
  simp only [State.endAborted]; (repeat' split) <;> first | exact hw | simp (maxDischargeDepth := 20) [hw, store_wf]

/-- What `editDist` leaves alone. -/
@[simp] theorem editDist_frame (s : State) (pos : Nat) (f : DistRec → DistRec) :
    (s.editDist pos f).mem = s.mem ∧ (s.editDist pos f).pins = s.pins ∧ (s.editDist pos f).port = s.port ∧
    (s.editDist pos f).attn = s.attn ∧ (s.editDist pos f).chain = s.chain ∧ (s.editDist pos f).conv = s.conv ∧
    (s.editDist pos f).plan = s.plan ∧ (s.editDist pos f).sup = s.sup ∧ (s.editDist pos f).ev = s.ev ∧
    (s.editDist pos f).power = s.power ∧ (s.editDist pos f).store = s.store ∧
    (s.editDist pos f).upd.state = s.upd.state ∧ (s.editDist pos f).upd.slip = s.upd.slip ∧
    (s.editDist pos f).upd.aborts = s.upd.aborts ∧ (s.editDist pos f).upd.header = s.upd.header ∧
    (s.editDist pos f).upd.staging = s.upd.staging ∧ (s.editDist pos f).upd.expected = s.upd.expected ∧
    (s.editDist pos f).upd.lastAcc = s.upd.lastAcc ∧ (s.editDist pos f).upd.runCrc = s.upd.runCrc ∧
    (s.editDist pos f).upd.absorbing = s.upd.absorbing ∧ (s.editDist pos f).upd.waiting = s.upd.waiting ∧
    (s.editDist pos f).upd.acc = s.upd.acc ∧ (s.editDist pos f).upd.dup = s.upd.dup ∧
    (s.editDist pos f).upd.rej = s.upd.rej ∧ (s.editDist pos f).upd.turn = s.upd.turn ∧
    (s.editDist pos f).upd.link = s.upd.link ∧ (s.editDist pos f).upd.pause = s.upd.pause ∧
    (s.editDist pos f).upd.switchPending = s.upd.switchPending ∧
    (s.editDist pos f).upd.commitReached = s.upd.commitReached ∧
    (s.editDist pos f).upd.floorWritten = s.upd.floorWritten ∧ (s.editDist pos f).upd.commit = s.upd.commit ∧
    (s.editDist pos f).upd.bankWritten = s.upd.bankWritten ∧ (s.editDist pos f).upd.window = s.upd.window ∧
    (s.editDist pos f).upd.aborting = s.upd.aborting ∧ (s.editDist pos f).upd.outcome = s.upd.outcome ∧
    (s.editDist pos f).upd.outcomeState = s.upd.outcomeState ∧ (s.editDist pos f).upd.watches = s.upd.watches ∧
    (s.editDist pos f).upd.checkAt = s.upd.checkAt ∧ (s.editDist pos f).free = s.free ∧
    (s.editDist pos f).pending = s.pending := by
  simp only [State.editDist]; (repeat' split) <;> (first | rfl | simp)

/-- What `failDist` leaves alone. -/
@[simp] theorem failDist_frame (s : State) (pos : Nat) (c : DistCause) :
    (s.failDist pos c).mem = s.mem ∧ (s.failDist pos c).pins = s.pins ∧ (s.failDist pos c).port = s.port ∧
    (s.failDist pos c).attn = s.attn ∧ (s.failDist pos c).chain = s.chain ∧ (s.failDist pos c).conv = s.conv ∧
    (s.failDist pos c).plan = s.plan ∧ (s.failDist pos c).sup = s.sup ∧ (s.failDist pos c).ev = s.ev ∧
    (s.failDist pos c).power = s.power ∧ (s.failDist pos c).store = s.store ∧
    (s.failDist pos c).upd.state = s.upd.state ∧ (s.failDist pos c).upd.slip = s.upd.slip ∧
    (s.failDist pos c).upd.aborts = s.upd.aborts ∧ (s.failDist pos c).upd.header = s.upd.header ∧
    (s.failDist pos c).upd.staging = s.upd.staging ∧ (s.failDist pos c).upd.expected = s.upd.expected ∧
    (s.failDist pos c).upd.lastAcc = s.upd.lastAcc ∧ (s.failDist pos c).upd.runCrc = s.upd.runCrc ∧
    (s.failDist pos c).upd.absorbing = s.upd.absorbing ∧ (s.failDist pos c).upd.waiting = s.upd.waiting ∧
    (s.failDist pos c).upd.acc = s.upd.acc ∧ (s.failDist pos c).upd.dup = s.upd.dup ∧
    (s.failDist pos c).upd.rej = s.upd.rej ∧ (s.failDist pos c).upd.turn = s.upd.turn ∧
    (s.failDist pos c).upd.link = s.upd.link ∧ (s.failDist pos c).upd.pause = s.upd.pause ∧
    (s.failDist pos c).upd.switchPending = s.upd.switchPending ∧
    (s.failDist pos c).upd.commitReached = s.upd.commitReached ∧
    (s.failDist pos c).upd.floorWritten = s.upd.floorWritten ∧ (s.failDist pos c).upd.commit = s.upd.commit ∧
    (s.failDist pos c).upd.bankWritten = s.upd.bankWritten ∧ (s.failDist pos c).upd.window = s.upd.window ∧
    (s.failDist pos c).upd.aborting = s.upd.aborting ∧ (s.failDist pos c).upd.outcome = s.upd.outcome ∧
    (s.failDist pos c).upd.outcomeState = s.upd.outcomeState ∧ (s.failDist pos c).upd.watches = s.upd.watches ∧
    (s.failDist pos c).upd.checkAt = s.upd.checkAt ∧ (s.failDist pos c).free = s.free ∧
    (s.failDist pos c).pending = s.pending := by
  simp only [State.failDist]; (repeat' split) <;> (first | rfl | simp)

/-- What `askChain` leaves alone. -/
@[simp] theorem askChain_frame (s : State) (r : FwReq) :
    (s.askChain r).mem = s.mem ∧ (s.askChain r).pins = s.pins ∧ (s.askChain r).port = s.port ∧
    (s.askChain r).attn = s.attn ∧ (s.askChain r).chain.state = s.chain.state ∧
    (s.askChain r).chain.origin = s.chain.origin ∧ (s.askChain r).chain.wasDown = s.chain.wasDown ∧
    (s.askChain r).chain.downSince = s.chain.downSince ∧ (s.askChain r).chain.errs = s.chain.errs ∧
    (s.askChain r).chain.suspectSince = s.chain.suspectSince ∧
    (s.askChain r).chain.periodStart = s.chain.periodStart ∧ (s.askChain r).chain.periodErrs = s.chain.periodErrs ∧
    (s.askChain r).chain.capTag = s.chain.capTag ∧ (s.askChain r).chain.exTag = s.chain.exTag ∧
    (s.askChain r).chain.survey = s.chain.survey ∧ (s.askChain r).chain.present = s.chain.present ∧
    (s.askChain r).chain.configured = s.chain.configured ∧ (s.askChain r).chain.breakLoc = s.chain.breakLoc ∧
    (s.askChain r).chain.map = s.chain.map ∧ (s.askChain r).chain.hold = s.chain.hold ∧
    (s.askChain r).chain.line = s.chain.line ∧ (s.askChain r).chain.lastSent = s.chain.lastSent ∧
    (s.askChain r).chain.sleepCmd = s.chain.sleepCmd ∧ (s.askChain r).chain.wakeAfterSleep = s.chain.wakeAfterSleep ∧
    (s.askChain r).chain.wake = s.chain.wake ∧ (s.askChain r).chain.resetTone = s.chain.resetTone ∧
    (s.askChain r).chain.surveyTimer = s.chain.surveyTimer ∧ (s.askChain r).chain.firstUp = s.chain.firstUp ∧
    (s.askChain r).chain.surveySlip = s.chain.surveySlip ∧ (s.askChain r).chain.balance = s.chain.balance ∧
    (s.askChain r).chain.returning = s.chain.returning ∧ (s.askChain r).conv = s.conv ∧
    (s.askChain r).plan = s.plan ∧ (s.askChain r).sup = s.sup ∧ (s.askChain r).ev = s.ev ∧
    (s.askChain r).power = s.power ∧ (s.askChain r).store = s.store ∧ (s.askChain r).upd.state = s.upd.state ∧
    (s.askChain r).upd.slip = s.upd.slip ∧ (s.askChain r).upd.aborts = s.upd.aborts ∧
    (s.askChain r).upd.header = s.upd.header ∧ (s.askChain r).upd.staging = s.upd.staging ∧
    (s.askChain r).upd.expected = s.upd.expected ∧ (s.askChain r).upd.lastAcc = s.upd.lastAcc ∧
    (s.askChain r).upd.runCrc = s.upd.runCrc ∧ (s.askChain r).upd.absorbing = s.upd.absorbing ∧
    (s.askChain r).upd.waiting = s.upd.waiting ∧ (s.askChain r).upd.acc = s.upd.acc ∧
    (s.askChain r).upd.dup = s.upd.dup ∧ (s.askChain r).upd.rej = s.upd.rej ∧ (s.askChain r).upd.dist = s.upd.dist ∧
    (s.askChain r).upd.turn = s.upd.turn ∧ (s.askChain r).upd.pause = s.upd.pause ∧
    (s.askChain r).upd.switchPending = s.upd.switchPending ∧ (s.askChain r).upd.commitReached = s.upd.commitReached ∧
    (s.askChain r).upd.floorWritten = s.upd.floorWritten ∧ (s.askChain r).upd.commit = s.upd.commit ∧
    (s.askChain r).upd.bankWritten = s.upd.bankWritten ∧ (s.askChain r).upd.window = s.upd.window ∧
    (s.askChain r).upd.aborting = s.upd.aborting ∧ (s.askChain r).upd.outcome = s.upd.outcome ∧
    (s.askChain r).upd.outcomeState = s.upd.outcomeState ∧ (s.askChain r).upd.watches = s.upd.watches ∧
    (s.askChain r).upd.checkAt = s.upd.checkAt ∧ (s.askChain r).free = s.free ∧ (s.askChain r).pending = s.pending := by
  simp only [State.askChain]; (repeat' split) <;> (first | rfl | simp)

/-- What `endSwitching` leaves alone. -/
@[simp] theorem endSwitching_frame (s : State) :
    (s.endSwitching).pins = s.pins ∧ (s.endSwitching).port.notes = s.port.notes ∧
    (s.endSwitching).port.fault = s.port.fault ∧ (s.endSwitching).port.faultCount = s.port.faultCount ∧
    (s.endSwitching).port.tables = s.port.tables ∧ (s.endSwitching).port.lastTable = s.port.lastTable ∧
    (s.endSwitching).attn.enables = s.attn.enables ∧ (s.endSwitching).attn.levels = s.attn.levels ∧
    (s.endSwitching).attn.mask = s.attn.mask ∧ (s.endSwitching).chain.state = s.chain.state ∧
    (s.endSwitching).chain.origin = s.chain.origin ∧ (s.endSwitching).chain.wasDown = s.chain.wasDown ∧
    (s.endSwitching).chain.downSince = s.chain.downSince ∧ (s.endSwitching).chain.errs = s.chain.errs ∧
    (s.endSwitching).chain.suspectSince = s.chain.suspectSince ∧
    (s.endSwitching).chain.periodStart = s.chain.periodStart ∧
    (s.endSwitching).chain.periodErrs = s.chain.periodErrs ∧ (s.endSwitching).chain.capTag = s.chain.capTag ∧
    (s.endSwitching).chain.exTag = s.chain.exTag ∧ (s.endSwitching).chain.survey = s.chain.survey ∧
    (s.endSwitching).chain.present = s.chain.present ∧ (s.endSwitching).chain.configured = s.chain.configured ∧
    (s.endSwitching).chain.breakLoc = s.chain.breakLoc ∧ (s.endSwitching).chain.map = s.chain.map ∧
    (s.endSwitching).chain.line = s.chain.line ∧ (s.endSwitching).chain.lastSent = s.chain.lastSent ∧
    (s.endSwitching).chain.sleepCmd = s.chain.sleepCmd ∧
    (s.endSwitching).chain.wakeAfterSleep = s.chain.wakeAfterSleep ∧ (s.endSwitching).chain.wake = s.chain.wake ∧
    (s.endSwitching).chain.resetTone = s.chain.resetTone ∧ (s.endSwitching).chain.surveyTimer = s.chain.surveyTimer ∧
    (s.endSwitching).chain.firstUp = s.chain.firstUp ∧ (s.endSwitching).chain.surveySlip = s.chain.surveySlip ∧
    (s.endSwitching).chain.balance = s.chain.balance ∧ (s.endSwitching).chain.returning = s.chain.returning ∧
    (s.endSwitching).conv = s.conv ∧ (s.endSwitching).plan = s.plan ∧ (s.endSwitching).sup = s.sup ∧
    (s.endSwitching).ev.slots = s.ev.slots ∧ (s.endSwitching).ev.age = s.ev.age ∧
    (s.endSwitching).ev.next = s.ev.next ∧ (s.endSwitching).ev.filling = s.ev.filling ∧
    (s.endSwitching).power = s.power ∧ (s.endSwitching).store.nv = s.store.nv ∧
    (s.endSwitching).store.work = s.store.work ∧ (s.endSwitching).store.running = s.store.running ∧
    (s.endSwitching).store.startUp = s.store.startUp ∧ (s.endSwitching).store.active = s.store.active ∧
    (s.endSwitching).store.activeBank = s.store.activeBank ∧
    (s.endSwitching).store.activeVersion = s.store.activeVersion ∧
    (s.endSwitching).store.clampCount = s.store.clampCount ∧ (s.endSwitching).store.outcome = s.store.outcome ∧
    (s.endSwitching).store.faultCause = s.store.faultCause ∧ (s.endSwitching).store.faultItem = s.store.faultItem ∧
    (s.endSwitching).store.faultCount = s.store.faultCount ∧ (s.endSwitching).store.lost = s.store.lost ∧
    (s.endSwitching).store.taken = s.store.taken ∧ (s.endSwitching).store.inForce = s.store.inForce ∧
    (s.endSwitching).store.rangeClamps = s.store.rangeClamps ∧
    (s.endSwitching).store.hardClamps = s.store.hardClamps ∧ (s.endSwitching).store.keySlip = s.store.keySlip ∧
    (s.endSwitching).upd.header = s.upd.header ∧ (s.endSwitching).upd.expected = s.upd.expected ∧
    (s.endSwitching).upd.lastAcc = s.upd.lastAcc ∧ (s.endSwitching).upd.runCrc = s.upd.runCrc ∧
    (s.endSwitching).upd.waiting = s.upd.waiting ∧ (s.endSwitching).upd.acc = s.upd.acc ∧
    (s.endSwitching).upd.dup = s.upd.dup ∧ (s.endSwitching).upd.dist = s.upd.dist ∧
    (s.endSwitching).upd.switchPending = s.upd.switchPending ∧
    (s.endSwitching).upd.commitReached = s.upd.commitReached ∧ (s.endSwitching).upd.bankWritten = s.upd.bankWritten ∧
    (s.endSwitching).upd.watches = s.upd.watches ∧ (s.endSwitching).upd.checkAt = s.upd.checkAt ∧
    (s.endSwitching).free = s.free ∧ (s.endSwitching).pending = s.pending := by
  simp only [State.endSwitching]; (repeat' split) <;> (first | rfl | simp)

/-- `endSwitching` keeps the canonical form of the memory. -/
@[simp] theorem endSwitching_wf (s : State) (hw : s.mem.wf = true) :
    (s.endSwitching).mem.wf = true := by
  simp only [State.endSwitching]; (repeat' split) <;> first | exact hw | simp (maxDischargeDepth := 20) [hw, store_wf]

/-- What `nextSwitch` leaves alone. -/
@[simp] theorem nextSwitch_frame (k : Nat) (s : State) :
    (State.nextSwitch k s).pins = s.pins ∧ (State.nextSwitch k s).port.notes = s.port.notes ∧
    (State.nextSwitch k s).port.fault = s.port.fault ∧ (State.nextSwitch k s).port.faultCount = s.port.faultCount ∧
    (State.nextSwitch k s).port.tables = s.port.tables ∧ (State.nextSwitch k s).port.lastTable = s.port.lastTable ∧
    (State.nextSwitch k s).attn.enables = s.attn.enables ∧ (State.nextSwitch k s).attn.levels = s.attn.levels ∧
    (State.nextSwitch k s).attn.mask = s.attn.mask ∧ (State.nextSwitch k s).chain.state = s.chain.state ∧
    (State.nextSwitch k s).chain.origin = s.chain.origin ∧ (State.nextSwitch k s).chain.wasDown = s.chain.wasDown ∧
    (State.nextSwitch k s).chain.downSince = s.chain.downSince ∧ (State.nextSwitch k s).chain.errs = s.chain.errs ∧
    (State.nextSwitch k s).chain.suspectSince = s.chain.suspectSince ∧
    (State.nextSwitch k s).chain.periodStart = s.chain.periodStart ∧
    (State.nextSwitch k s).chain.periodErrs = s.chain.periodErrs ∧
    (State.nextSwitch k s).chain.capTag = s.chain.capTag ∧ (State.nextSwitch k s).chain.exTag = s.chain.exTag ∧
    (State.nextSwitch k s).chain.survey = s.chain.survey ∧ (State.nextSwitch k s).chain.present = s.chain.present ∧
    (State.nextSwitch k s).chain.configured = s.chain.configured ∧
    (State.nextSwitch k s).chain.breakLoc = s.chain.breakLoc ∧ (State.nextSwitch k s).chain.line = s.chain.line ∧
    (State.nextSwitch k s).chain.lastSent = s.chain.lastSent ∧
    (State.nextSwitch k s).chain.sleepCmd = s.chain.sleepCmd ∧
    (State.nextSwitch k s).chain.wakeAfterSleep = s.chain.wakeAfterSleep ∧
    (State.nextSwitch k s).chain.wake = s.chain.wake ∧ (State.nextSwitch k s).chain.resetTone = s.chain.resetTone ∧
    (State.nextSwitch k s).chain.surveyTimer = s.chain.surveyTimer ∧
    (State.nextSwitch k s).chain.firstUp = s.chain.firstUp ∧
    (State.nextSwitch k s).chain.surveySlip = s.chain.surveySlip ∧
    (State.nextSwitch k s).chain.balance = s.chain.balance ∧
    (State.nextSwitch k s).chain.returning = s.chain.returning ∧ (State.nextSwitch k s).conv = s.conv ∧
    (State.nextSwitch k s).plan = s.plan ∧ (State.nextSwitch k s).sup = s.sup ∧
    (State.nextSwitch k s).ev.slots = s.ev.slots ∧ (State.nextSwitch k s).ev.age = s.ev.age ∧
    (State.nextSwitch k s).ev.next = s.ev.next ∧ (State.nextSwitch k s).ev.filling = s.ev.filling ∧
    (State.nextSwitch k s).power = s.power ∧ (State.nextSwitch k s).store.nv = s.store.nv ∧
    (State.nextSwitch k s).store.work = s.store.work ∧ (State.nextSwitch k s).store.running = s.store.running ∧
    (State.nextSwitch k s).store.startUp = s.store.startUp ∧ (State.nextSwitch k s).store.active = s.store.active ∧
    (State.nextSwitch k s).store.activeBank = s.store.activeBank ∧
    (State.nextSwitch k s).store.activeVersion = s.store.activeVersion ∧
    (State.nextSwitch k s).store.clampCount = s.store.clampCount ∧
    (State.nextSwitch k s).store.outcome = s.store.outcome ∧
    (State.nextSwitch k s).store.faultCause = s.store.faultCause ∧
    (State.nextSwitch k s).store.faultItem = s.store.faultItem ∧
    (State.nextSwitch k s).store.faultCount = s.store.faultCount ∧ (State.nextSwitch k s).store.lost = s.store.lost ∧
    (State.nextSwitch k s).store.taken = s.store.taken ∧ (State.nextSwitch k s).store.inForce = s.store.inForce ∧
    (State.nextSwitch k s).store.rangeClamps = s.store.rangeClamps ∧
    (State.nextSwitch k s).store.hardClamps = s.store.hardClamps ∧
    (State.nextSwitch k s).store.keySlip = s.store.keySlip ∧ (State.nextSwitch k s).upd.header = s.upd.header ∧
    (State.nextSwitch k s).upd.expected = s.upd.expected ∧ (State.nextSwitch k s).upd.lastAcc = s.upd.lastAcc ∧
    (State.nextSwitch k s).upd.runCrc = s.upd.runCrc ∧ (State.nextSwitch k s).upd.waiting = s.upd.waiting ∧
    (State.nextSwitch k s).upd.acc = s.upd.acc ∧ (State.nextSwitch k s).upd.dup = s.upd.dup ∧
    (State.nextSwitch k s).upd.switchPending = s.upd.switchPending ∧
    (State.nextSwitch k s).upd.commitReached = s.upd.commitReached ∧
    (State.nextSwitch k s).upd.bankWritten = s.upd.bankWritten ∧ (State.nextSwitch k s).upd.watches = s.upd.watches ∧
    (State.nextSwitch k s).upd.checkAt = s.upd.checkAt ∧ (State.nextSwitch k s).free = s.free ∧
    (State.nextSwitch k s).pending = s.pending := by
  induction k generalizing s with
  | zero => simp [State.nextSwitch]
  | succ k ih => unfold State.nextSwitch; (repeat' split) <;> simp [ih]

/-- `nextSwitch` keeps the canonical form of the memory. -/
@[simp] theorem nextSwitch_wf (k : Nat) (s : State) (hw : s.mem.wf = true) :
    (State.nextSwitch k s).mem.wf = true := by
  induction k generalizing s with
  | zero => simp [State.nextSwitch, hw]
  | succ k ih =>
    unfold State.nextSwitch
    (repeat' split) <;> first | exact hw | simp (maxDischargeDepth := 20) [hw] | exact ih _ (by simp (maxDischargeDepth := 20) [hw])

/-- What `enterSwitching` leaves alone. -/
@[simp] theorem enterSwitching_frame (s : State) :
    (s.enterSwitching).pins = s.pins ∧ (s.enterSwitching).port.notes = s.port.notes ∧
    (s.enterSwitching).port.fault = s.port.fault ∧ (s.enterSwitching).port.faultCount = s.port.faultCount ∧
    (s.enterSwitching).port.tables = s.port.tables ∧ (s.enterSwitching).port.lastTable = s.port.lastTable ∧
    (s.enterSwitching).attn.enables = s.attn.enables ∧ (s.enterSwitching).attn.levels = s.attn.levels ∧
    (s.enterSwitching).attn.mask = s.attn.mask ∧ (s.enterSwitching).chain.state = s.chain.state ∧
    (s.enterSwitching).chain.origin = s.chain.origin ∧ (s.enterSwitching).chain.wasDown = s.chain.wasDown ∧
    (s.enterSwitching).chain.downSince = s.chain.downSince ∧ (s.enterSwitching).chain.errs = s.chain.errs ∧
    (s.enterSwitching).chain.suspectSince = s.chain.suspectSince ∧
    (s.enterSwitching).chain.periodStart = s.chain.periodStart ∧
    (s.enterSwitching).chain.periodErrs = s.chain.periodErrs ∧ (s.enterSwitching).chain.capTag = s.chain.capTag ∧
    (s.enterSwitching).chain.exTag = s.chain.exTag ∧ (s.enterSwitching).chain.survey = s.chain.survey ∧
    (s.enterSwitching).chain.present = s.chain.present ∧ (s.enterSwitching).chain.configured = s.chain.configured ∧
    (s.enterSwitching).chain.breakLoc = s.chain.breakLoc ∧ (s.enterSwitching).chain.line = s.chain.line ∧
    (s.enterSwitching).chain.lastSent = s.chain.lastSent ∧ (s.enterSwitching).chain.sleepCmd = s.chain.sleepCmd ∧
    (s.enterSwitching).chain.wakeAfterSleep = s.chain.wakeAfterSleep ∧ (s.enterSwitching).chain.wake = s.chain.wake ∧
    (s.enterSwitching).chain.resetTone = s.chain.resetTone ∧
    (s.enterSwitching).chain.surveyTimer = s.chain.surveyTimer ∧ (s.enterSwitching).chain.firstUp = s.chain.firstUp ∧
    (s.enterSwitching).chain.surveySlip = s.chain.surveySlip ∧ (s.enterSwitching).chain.balance = s.chain.balance ∧
    (s.enterSwitching).chain.returning = s.chain.returning ∧ (s.enterSwitching).conv = s.conv ∧
    (s.enterSwitching).plan = s.plan ∧ (s.enterSwitching).sup = s.sup ∧ (s.enterSwitching).ev.slots = s.ev.slots ∧
    (s.enterSwitching).ev.age = s.ev.age ∧ (s.enterSwitching).ev.next = s.ev.next ∧
    (s.enterSwitching).ev.filling = s.ev.filling ∧ (s.enterSwitching).power = s.power ∧
    (s.enterSwitching).store.nv = s.store.nv ∧ (s.enterSwitching).store.work = s.store.work ∧
    (s.enterSwitching).store.running = s.store.running ∧ (s.enterSwitching).store.startUp = s.store.startUp ∧
    (s.enterSwitching).store.active = s.store.active ∧ (s.enterSwitching).store.activeBank = s.store.activeBank ∧
    (s.enterSwitching).store.activeVersion = s.store.activeVersion ∧
    (s.enterSwitching).store.clampCount = s.store.clampCount ∧ (s.enterSwitching).store.outcome = s.store.outcome ∧
    (s.enterSwitching).store.faultCause = s.store.faultCause ∧
    (s.enterSwitching).store.faultItem = s.store.faultItem ∧
    (s.enterSwitching).store.faultCount = s.store.faultCount ∧ (s.enterSwitching).store.lost = s.store.lost ∧
    (s.enterSwitching).store.taken = s.store.taken ∧ (s.enterSwitching).store.inForce = s.store.inForce ∧
    (s.enterSwitching).store.rangeClamps = s.store.rangeClamps ∧
    (s.enterSwitching).store.hardClamps = s.store.hardClamps ∧ (s.enterSwitching).store.keySlip = s.store.keySlip ∧
    (s.enterSwitching).upd.header = s.upd.header ∧ (s.enterSwitching).upd.expected = s.upd.expected ∧
    (s.enterSwitching).upd.lastAcc = s.upd.lastAcc ∧ (s.enterSwitching).upd.runCrc = s.upd.runCrc ∧
    (s.enterSwitching).upd.waiting = s.upd.waiting ∧ (s.enterSwitching).upd.acc = s.upd.acc ∧
    (s.enterSwitching).upd.dup = s.upd.dup ∧ (s.enterSwitching).upd.commitReached = s.upd.commitReached ∧
    (s.enterSwitching).upd.bankWritten = s.upd.bankWritten ∧ (s.enterSwitching).upd.watches = s.upd.watches ∧
    (s.enterSwitching).upd.checkAt = s.upd.checkAt ∧ (s.enterSwitching).free = s.free ∧
    (s.enterSwitching).pending = s.pending := by
  simp only [State.enterSwitching]; (repeat' split) <;> (first | rfl | simp)

/-- `enterSwitching` keeps the canonical form of the memory. -/
@[simp] theorem enterSwitching_wf (s : State) (hw : s.mem.wf = true) :
    (s.enterSwitching).mem.wf = true := by
  simp only [State.enterSwitching]; (repeat' split) <;> first | exact hw | simp (maxDischargeDepth := 20) [hw, store_wf]

/-- What `endDistribution` leaves alone. -/
@[simp] theorem endDistribution_frame (s : State) :
    (s.endDistribution).pins = s.pins ∧ (s.endDistribution).port.notes = s.port.notes ∧
    (s.endDistribution).port.fault = s.port.fault ∧ (s.endDistribution).port.faultCount = s.port.faultCount ∧
    (s.endDistribution).port.tables = s.port.tables ∧ (s.endDistribution).port.lastTable = s.port.lastTable ∧
    (s.endDistribution).attn.enables = s.attn.enables ∧ (s.endDistribution).attn.levels = s.attn.levels ∧
    (s.endDistribution).attn.mask = s.attn.mask ∧ (s.endDistribution).chain.state = s.chain.state ∧
    (s.endDistribution).chain.origin = s.chain.origin ∧ (s.endDistribution).chain.wasDown = s.chain.wasDown ∧
    (s.endDistribution).chain.downSince = s.chain.downSince ∧ (s.endDistribution).chain.errs = s.chain.errs ∧
    (s.endDistribution).chain.suspectSince = s.chain.suspectSince ∧
    (s.endDistribution).chain.periodStart = s.chain.periodStart ∧
    (s.endDistribution).chain.periodErrs = s.chain.periodErrs ∧ (s.endDistribution).chain.capTag = s.chain.capTag ∧
    (s.endDistribution).chain.exTag = s.chain.exTag ∧ (s.endDistribution).chain.survey = s.chain.survey ∧
    (s.endDistribution).chain.present = s.chain.present ∧ (s.endDistribution).chain.configured = s.chain.configured ∧
    (s.endDistribution).chain.breakLoc = s.chain.breakLoc ∧ (s.endDistribution).chain.line = s.chain.line ∧
    (s.endDistribution).chain.lastSent = s.chain.lastSent ∧ (s.endDistribution).chain.sleepCmd = s.chain.sleepCmd ∧
    (s.endDistribution).chain.wakeAfterSleep = s.chain.wakeAfterSleep ∧
    (s.endDistribution).chain.wake = s.chain.wake ∧ (s.endDistribution).chain.resetTone = s.chain.resetTone ∧
    (s.endDistribution).chain.surveyTimer = s.chain.surveyTimer ∧
    (s.endDistribution).chain.firstUp = s.chain.firstUp ∧ (s.endDistribution).chain.surveySlip = s.chain.surveySlip ∧
    (s.endDistribution).chain.balance = s.chain.balance ∧ (s.endDistribution).chain.returning = s.chain.returning ∧
    (s.endDistribution).conv = s.conv ∧ (s.endDistribution).plan = s.plan ∧ (s.endDistribution).sup = s.sup ∧
    (s.endDistribution).ev.slots = s.ev.slots ∧ (s.endDistribution).ev.age = s.ev.age ∧
    (s.endDistribution).ev.next = s.ev.next ∧ (s.endDistribution).ev.filling = s.ev.filling ∧
    (s.endDistribution).power = s.power ∧ (s.endDistribution).store.nv = s.store.nv ∧
    (s.endDistribution).store.work = s.store.work ∧ (s.endDistribution).store.running = s.store.running ∧
    (s.endDistribution).store.startUp = s.store.startUp ∧ (s.endDistribution).store.active = s.store.active ∧
    (s.endDistribution).store.activeBank = s.store.activeBank ∧
    (s.endDistribution).store.activeVersion = s.store.activeVersion ∧
    (s.endDistribution).store.clampCount = s.store.clampCount ∧ (s.endDistribution).store.outcome = s.store.outcome ∧
    (s.endDistribution).store.faultCause = s.store.faultCause ∧
    (s.endDistribution).store.faultItem = s.store.faultItem ∧
    (s.endDistribution).store.faultCount = s.store.faultCount ∧ (s.endDistribution).store.lost = s.store.lost ∧
    (s.endDistribution).store.taken = s.store.taken ∧ (s.endDistribution).store.inForce = s.store.inForce ∧
    (s.endDistribution).store.rangeClamps = s.store.rangeClamps ∧
    (s.endDistribution).store.hardClamps = s.store.hardClamps ∧ (s.endDistribution).store.keySlip = s.store.keySlip ∧
    (s.endDistribution).upd.header = s.upd.header ∧ (s.endDistribution).upd.expected = s.upd.expected ∧
    (s.endDistribution).upd.lastAcc = s.upd.lastAcc ∧ (s.endDistribution).upd.runCrc = s.upd.runCrc ∧
    (s.endDistribution).upd.waiting = s.upd.waiting ∧ (s.endDistribution).upd.acc = s.upd.acc ∧
    (s.endDistribution).upd.dup = s.upd.dup ∧ (s.endDistribution).upd.commitReached = s.upd.commitReached ∧
    (s.endDistribution).upd.bankWritten = s.upd.bankWritten ∧ (s.endDistribution).upd.watches = s.upd.watches ∧
    (s.endDistribution).upd.checkAt = s.upd.checkAt ∧ (s.endDistribution).free = s.free ∧
    (s.endDistribution).pending = s.pending := by
  simp only [State.endDistribution]; (repeat' split) <;> (first | rfl | simp)

/-- `endDistribution` keeps the canonical form of the memory. -/
@[simp] theorem endDistribution_wf (s : State) (hw : s.mem.wf = true) :
    (s.endDistribution).mem.wf = true := by
  simp only [State.endDistribution]; (repeat' split) <;> first | exact hw | simp (maxDischargeDepth := 20) [hw, store_wf]

/-- What `nextRecord` leaves alone. -/
@[simp] theorem nextRecord_frame (k : Nat) (s : State) :
    (State.nextRecord k s).pins = s.pins ∧ (State.nextRecord k s).port.notes = s.port.notes ∧
    (State.nextRecord k s).port.fault = s.port.fault ∧ (State.nextRecord k s).port.faultCount = s.port.faultCount ∧
    (State.nextRecord k s).port.tables = s.port.tables ∧ (State.nextRecord k s).port.lastTable = s.port.lastTable ∧
    (State.nextRecord k s).attn.enables = s.attn.enables ∧ (State.nextRecord k s).attn.levels = s.attn.levels ∧
    (State.nextRecord k s).attn.mask = s.attn.mask ∧ (State.nextRecord k s).chain.state = s.chain.state ∧
    (State.nextRecord k s).chain.origin = s.chain.origin ∧ (State.nextRecord k s).chain.wasDown = s.chain.wasDown ∧
    (State.nextRecord k s).chain.downSince = s.chain.downSince ∧ (State.nextRecord k s).chain.errs = s.chain.errs ∧
    (State.nextRecord k s).chain.suspectSince = s.chain.suspectSince ∧
    (State.nextRecord k s).chain.periodStart = s.chain.periodStart ∧
    (State.nextRecord k s).chain.periodErrs = s.chain.periodErrs ∧
    (State.nextRecord k s).chain.capTag = s.chain.capTag ∧ (State.nextRecord k s).chain.exTag = s.chain.exTag ∧
    (State.nextRecord k s).chain.survey = s.chain.survey ∧ (State.nextRecord k s).chain.present = s.chain.present ∧
    (State.nextRecord k s).chain.configured = s.chain.configured ∧
    (State.nextRecord k s).chain.breakLoc = s.chain.breakLoc ∧ (State.nextRecord k s).chain.line = s.chain.line ∧
    (State.nextRecord k s).chain.lastSent = s.chain.lastSent ∧
    (State.nextRecord k s).chain.sleepCmd = s.chain.sleepCmd ∧
    (State.nextRecord k s).chain.wakeAfterSleep = s.chain.wakeAfterSleep ∧
    (State.nextRecord k s).chain.wake = s.chain.wake ∧ (State.nextRecord k s).chain.resetTone = s.chain.resetTone ∧
    (State.nextRecord k s).chain.surveyTimer = s.chain.surveyTimer ∧
    (State.nextRecord k s).chain.firstUp = s.chain.firstUp ∧
    (State.nextRecord k s).chain.surveySlip = s.chain.surveySlip ∧
    (State.nextRecord k s).chain.balance = s.chain.balance ∧
    (State.nextRecord k s).chain.returning = s.chain.returning ∧ (State.nextRecord k s).conv = s.conv ∧
    (State.nextRecord k s).plan = s.plan ∧ (State.nextRecord k s).sup = s.sup ∧
    (State.nextRecord k s).ev.slots = s.ev.slots ∧ (State.nextRecord k s).ev.age = s.ev.age ∧
    (State.nextRecord k s).ev.next = s.ev.next ∧ (State.nextRecord k s).ev.filling = s.ev.filling ∧
    (State.nextRecord k s).power = s.power ∧ (State.nextRecord k s).store.nv = s.store.nv ∧
    (State.nextRecord k s).store.work = s.store.work ∧ (State.nextRecord k s).store.running = s.store.running ∧
    (State.nextRecord k s).store.startUp = s.store.startUp ∧ (State.nextRecord k s).store.active = s.store.active ∧
    (State.nextRecord k s).store.activeBank = s.store.activeBank ∧
    (State.nextRecord k s).store.activeVersion = s.store.activeVersion ∧
    (State.nextRecord k s).store.clampCount = s.store.clampCount ∧
    (State.nextRecord k s).store.outcome = s.store.outcome ∧
    (State.nextRecord k s).store.faultCause = s.store.faultCause ∧
    (State.nextRecord k s).store.faultItem = s.store.faultItem ∧
    (State.nextRecord k s).store.faultCount = s.store.faultCount ∧ (State.nextRecord k s).store.lost = s.store.lost ∧
    (State.nextRecord k s).store.taken = s.store.taken ∧ (State.nextRecord k s).store.inForce = s.store.inForce ∧
    (State.nextRecord k s).store.rangeClamps = s.store.rangeClamps ∧
    (State.nextRecord k s).store.hardClamps = s.store.hardClamps ∧
    (State.nextRecord k s).store.keySlip = s.store.keySlip ∧ (State.nextRecord k s).upd.header = s.upd.header ∧
    (State.nextRecord k s).upd.expected = s.upd.expected ∧ (State.nextRecord k s).upd.lastAcc = s.upd.lastAcc ∧
    (State.nextRecord k s).upd.runCrc = s.upd.runCrc ∧ (State.nextRecord k s).upd.waiting = s.upd.waiting ∧
    (State.nextRecord k s).upd.acc = s.upd.acc ∧ (State.nextRecord k s).upd.dup = s.upd.dup ∧
    (State.nextRecord k s).upd.commitReached = s.upd.commitReached ∧
    (State.nextRecord k s).upd.bankWritten = s.upd.bankWritten ∧ (State.nextRecord k s).upd.watches = s.upd.watches ∧
    (State.nextRecord k s).upd.checkAt = s.upd.checkAt ∧ (State.nextRecord k s).free = s.free ∧
    (State.nextRecord k s).pending = s.pending := by
  induction k generalizing s with
  | zero => simp [State.nextRecord]
  | succ k ih => unfold State.nextRecord; (repeat' split) <;> simp [ih]

/-- `nextRecord` keeps the canonical form of the memory. -/
@[simp] theorem nextRecord_wf (k : Nat) (s : State) (hw : s.mem.wf = true) :
    (State.nextRecord k s).mem.wf = true := by
  induction k generalizing s with
  | zero => simp [State.nextRecord, hw]
  | succ k ih =>
    unfold State.nextRecord
    (repeat' split) <;> first | exact hw | simp (maxDischargeDepth := 20) [hw] | exact ih _ (by simp (maxDischargeDepth := 20) [hw])

/-- What `blockEnded` leaves alone. -/
@[simp] theorem blockEnded_frame (s : State) (o : BlockOutcome) :
    (s.blockEnded o).pins = s.pins ∧ (s.blockEnded o).port.notes = s.port.notes ∧
    (s.blockEnded o).port.fault = s.port.fault ∧ (s.blockEnded o).port.faultCount = s.port.faultCount ∧
    (s.blockEnded o).port.tables = s.port.tables ∧ (s.blockEnded o).port.lastTable = s.port.lastTable ∧
    (s.blockEnded o).attn.enables = s.attn.enables ∧ (s.blockEnded o).attn.levels = s.attn.levels ∧
    (s.blockEnded o).attn.mask = s.attn.mask ∧ (s.blockEnded o).chain.state = s.chain.state ∧
    (s.blockEnded o).chain.origin = s.chain.origin ∧ (s.blockEnded o).chain.wasDown = s.chain.wasDown ∧
    (s.blockEnded o).chain.downSince = s.chain.downSince ∧ (s.blockEnded o).chain.errs = s.chain.errs ∧
    (s.blockEnded o).chain.suspectSince = s.chain.suspectSince ∧
    (s.blockEnded o).chain.periodStart = s.chain.periodStart ∧
    (s.blockEnded o).chain.periodErrs = s.chain.periodErrs ∧ (s.blockEnded o).chain.capTag = s.chain.capTag ∧
    (s.blockEnded o).chain.exTag = s.chain.exTag ∧ (s.blockEnded o).chain.survey = s.chain.survey ∧
    (s.blockEnded o).chain.present = s.chain.present ∧ (s.blockEnded o).chain.configured = s.chain.configured ∧
    (s.blockEnded o).chain.breakLoc = s.chain.breakLoc ∧ (s.blockEnded o).chain.line = s.chain.line ∧
    (s.blockEnded o).chain.lastSent = s.chain.lastSent ∧ (s.blockEnded o).chain.sleepCmd = s.chain.sleepCmd ∧
    (s.blockEnded o).chain.wakeAfterSleep = s.chain.wakeAfterSleep ∧ (s.blockEnded o).chain.wake = s.chain.wake ∧
    (s.blockEnded o).chain.resetTone = s.chain.resetTone ∧ (s.blockEnded o).chain.surveyTimer = s.chain.surveyTimer ∧
    (s.blockEnded o).chain.firstUp = s.chain.firstUp ∧ (s.blockEnded o).chain.surveySlip = s.chain.surveySlip ∧
    (s.blockEnded o).chain.balance = s.chain.balance ∧ (s.blockEnded o).chain.returning = s.chain.returning ∧
    (s.blockEnded o).conv = s.conv ∧ (s.blockEnded o).plan = s.plan ∧ (s.blockEnded o).sup = s.sup ∧
    (s.blockEnded o).ev.slots = s.ev.slots ∧ (s.blockEnded o).ev.age = s.ev.age ∧
    (s.blockEnded o).ev.next = s.ev.next ∧ (s.blockEnded o).ev.filling = s.ev.filling ∧
    (s.blockEnded o).power = s.power ∧ (s.blockEnded o).store.nv = s.store.nv ∧
    (s.blockEnded o).store.work = s.store.work ∧ (s.blockEnded o).store.running = s.store.running ∧
    (s.blockEnded o).store.startUp = s.store.startUp ∧ (s.blockEnded o).store.active = s.store.active ∧
    (s.blockEnded o).store.activeBank = s.store.activeBank ∧
    (s.blockEnded o).store.activeVersion = s.store.activeVersion ∧
    (s.blockEnded o).store.clampCount = s.store.clampCount ∧ (s.blockEnded o).store.outcome = s.store.outcome ∧
    (s.blockEnded o).store.faultCause = s.store.faultCause ∧ (s.blockEnded o).store.faultItem = s.store.faultItem ∧
    (s.blockEnded o).store.faultCount = s.store.faultCount ∧ (s.blockEnded o).store.lost = s.store.lost ∧
    (s.blockEnded o).store.taken = s.store.taken ∧ (s.blockEnded o).store.inForce = s.store.inForce ∧
    (s.blockEnded o).store.rangeClamps = s.store.rangeClamps ∧
    (s.blockEnded o).store.hardClamps = s.store.hardClamps ∧ (s.blockEnded o).store.keySlip = s.store.keySlip ∧
    (s.blockEnded o).upd.header = s.upd.header ∧ (s.blockEnded o).upd.expected = s.upd.expected ∧
    (s.blockEnded o).upd.lastAcc = s.upd.lastAcc ∧ (s.blockEnded o).upd.runCrc = s.upd.runCrc ∧
    (s.blockEnded o).upd.waiting = s.upd.waiting ∧ (s.blockEnded o).upd.acc = s.upd.acc ∧
    (s.blockEnded o).upd.dup = s.upd.dup ∧ (s.blockEnded o).upd.commitReached = s.upd.commitReached ∧
    (s.blockEnded o).upd.bankWritten = s.upd.bankWritten ∧ (s.blockEnded o).upd.watches = s.upd.watches ∧
    (s.blockEnded o).upd.checkAt = s.upd.checkAt ∧ (s.blockEnded o).free = s.free ∧
    (s.blockEnded o).pending = s.pending := by
  simp only [State.blockEnded]; (repeat' split) <;> (first | rfl | simp)

/-- `blockEnded` keeps the canonical form of the memory. -/
@[simp] theorem blockEnded_wf (s : State) (o : BlockOutcome) (hw : s.mem.wf = true) :
    (s.blockEnded o).mem.wf = true := by
  simp only [State.blockEnded]; (repeat' split) <;> first | exact hw | simp (maxDischargeDepth := 20) [hw, store_wf]

/-- What `firmwareDown` leaves alone. -/
@[simp] theorem firmwareDown_frame (s : State) (r : FwReq) :
    (s.firmwareDown r).mem = s.mem ∧ (s.firmwareDown r).pins = s.pins ∧ (s.firmwareDown r).port = s.port ∧
    (s.firmwareDown r).attn = s.attn ∧ (s.firmwareDown r).chain = s.chain ∧ (s.firmwareDown r).conv = s.conv ∧
    (s.firmwareDown r).plan = s.plan ∧ (s.firmwareDown r).sup = s.sup ∧ (s.firmwareDown r).ev = s.ev ∧
    (s.firmwareDown r).power = s.power ∧ (s.firmwareDown r).store = s.store ∧
    (s.firmwareDown r).upd.state = s.upd.state ∧ (s.firmwareDown r).upd.slip = s.upd.slip ∧
    (s.firmwareDown r).upd.aborts = s.upd.aborts ∧ (s.firmwareDown r).upd.header = s.upd.header ∧
    (s.firmwareDown r).upd.staging = s.upd.staging ∧ (s.firmwareDown r).upd.expected = s.upd.expected ∧
    (s.firmwareDown r).upd.lastAcc = s.upd.lastAcc ∧ (s.firmwareDown r).upd.runCrc = s.upd.runCrc ∧
    (s.firmwareDown r).upd.absorbing = s.upd.absorbing ∧ (s.firmwareDown r).upd.waiting = s.upd.waiting ∧
    (s.firmwareDown r).upd.acc = s.upd.acc ∧ (s.firmwareDown r).upd.dup = s.upd.dup ∧
    (s.firmwareDown r).upd.rej = s.upd.rej ∧ (s.firmwareDown r).upd.dist = s.upd.dist ∧
    (s.firmwareDown r).upd.turn = s.upd.turn ∧ (s.firmwareDown r).upd.switchPending = s.upd.switchPending ∧
    (s.firmwareDown r).upd.commitReached = s.upd.commitReached ∧
    (s.firmwareDown r).upd.floorWritten = s.upd.floorWritten ∧ (s.firmwareDown r).upd.commit = s.upd.commit ∧
    (s.firmwareDown r).upd.bankWritten = s.upd.bankWritten ∧ (s.firmwareDown r).upd.window = s.upd.window ∧
    (s.firmwareDown r).upd.aborting = s.upd.aborting ∧ (s.firmwareDown r).upd.outcome = s.upd.outcome ∧
    (s.firmwareDown r).upd.outcomeState = s.upd.outcomeState ∧ (s.firmwareDown r).upd.watches = s.upd.watches ∧
    (s.firmwareDown r).upd.checkAt = s.upd.checkAt ∧ (s.firmwareDown r).free = s.free ∧
    (s.firmwareDown r).pending = s.pending := by
  simp only [State.firmwareDown]; (repeat' split) <;> (first | rfl | simp)

/-- What `afterJudged` leaves alone. -/
@[simp] theorem afterJudged_frame (s : State) :
    (s.afterJudged).pins = s.pins ∧ (s.afterJudged).port.notes = s.port.notes ∧
    (s.afterJudged).port.fault = s.port.fault ∧ (s.afterJudged).port.faultCount = s.port.faultCount ∧
    (s.afterJudged).port.tables = s.port.tables ∧ (s.afterJudged).port.lastTable = s.port.lastTable ∧
    (s.afterJudged).attn.enables = s.attn.enables ∧ (s.afterJudged).attn.levels = s.attn.levels ∧
    (s.afterJudged).attn.mask = s.attn.mask ∧ (s.afterJudged).chain.state = s.chain.state ∧
    (s.afterJudged).chain.origin = s.chain.origin ∧ (s.afterJudged).chain.wasDown = s.chain.wasDown ∧
    (s.afterJudged).chain.downSince = s.chain.downSince ∧ (s.afterJudged).chain.errs = s.chain.errs ∧
    (s.afterJudged).chain.suspectSince = s.chain.suspectSince ∧
    (s.afterJudged).chain.periodStart = s.chain.periodStart ∧ (s.afterJudged).chain.periodErrs = s.chain.periodErrs ∧
    (s.afterJudged).chain.capTag = s.chain.capTag ∧ (s.afterJudged).chain.exTag = s.chain.exTag ∧
    (s.afterJudged).chain.survey = s.chain.survey ∧ (s.afterJudged).chain.present = s.chain.present ∧
    (s.afterJudged).chain.configured = s.chain.configured ∧ (s.afterJudged).chain.breakLoc = s.chain.breakLoc ∧
    (s.afterJudged).chain.line = s.chain.line ∧ (s.afterJudged).chain.lastSent = s.chain.lastSent ∧
    (s.afterJudged).chain.sleepCmd = s.chain.sleepCmd ∧
    (s.afterJudged).chain.wakeAfterSleep = s.chain.wakeAfterSleep ∧ (s.afterJudged).chain.wake = s.chain.wake ∧
    (s.afterJudged).chain.resetTone = s.chain.resetTone ∧ (s.afterJudged).chain.surveyTimer = s.chain.surveyTimer ∧
    (s.afterJudged).chain.firstUp = s.chain.firstUp ∧ (s.afterJudged).chain.surveySlip = s.chain.surveySlip ∧
    (s.afterJudged).chain.balance = s.chain.balance ∧ (s.afterJudged).chain.returning = s.chain.returning ∧
    (s.afterJudged).conv = s.conv ∧ (s.afterJudged).plan = s.plan ∧ (s.afterJudged).sup = s.sup ∧
    (s.afterJudged).ev.slots = s.ev.slots ∧ (s.afterJudged).ev.age = s.ev.age ∧ (s.afterJudged).ev.next = s.ev.next ∧
    (s.afterJudged).ev.filling = s.ev.filling ∧ (s.afterJudged).power = s.power ∧
    (s.afterJudged).store.nv = s.store.nv ∧ (s.afterJudged).store.work = s.store.work ∧
    (s.afterJudged).store.running = s.store.running ∧ (s.afterJudged).store.startUp = s.store.startUp ∧
    (s.afterJudged).store.active = s.store.active ∧ (s.afterJudged).store.activeBank = s.store.activeBank ∧
    (s.afterJudged).store.activeVersion = s.store.activeVersion ∧
    (s.afterJudged).store.clampCount = s.store.clampCount ∧ (s.afterJudged).store.outcome = s.store.outcome ∧
    (s.afterJudged).store.faultCause = s.store.faultCause ∧ (s.afterJudged).store.faultItem = s.store.faultItem ∧
    (s.afterJudged).store.faultCount = s.store.faultCount ∧ (s.afterJudged).store.lost = s.store.lost ∧
    (s.afterJudged).store.taken = s.store.taken ∧ (s.afterJudged).store.inForce = s.store.inForce ∧
    (s.afterJudged).store.rangeClamps = s.store.rangeClamps ∧ (s.afterJudged).store.hardClamps = s.store.hardClamps ∧
    (s.afterJudged).store.keySlip = s.store.keySlip ∧ (s.afterJudged).upd.header = s.upd.header ∧
    (s.afterJudged).upd.expected = s.upd.expected ∧ (s.afterJudged).upd.lastAcc = s.upd.lastAcc ∧
    (s.afterJudged).upd.runCrc = s.upd.runCrc ∧ (s.afterJudged).upd.waiting = s.upd.waiting ∧
    (s.afterJudged).upd.acc = s.upd.acc ∧ (s.afterJudged).upd.dup = s.upd.dup ∧
    (s.afterJudged).upd.switchPending = s.upd.switchPending ∧
    (s.afterJudged).upd.commitReached = s.upd.commitReached ∧ (s.afterJudged).upd.bankWritten = s.upd.bankWritten ∧
    (s.afterJudged).upd.watches = s.upd.watches ∧ (s.afterJudged).upd.checkAt = s.upd.checkAt ∧
    (s.afterJudged).free = s.free ∧ (s.afterJudged).pending = s.pending := by
  simp only [State.afterJudged]; (repeat' split) <;> (first | rfl | simp)

/-- `afterJudged` keeps the canonical form of the memory. -/
@[simp] theorem afterJudged_wf (s : State) (hw : s.mem.wf = true) :
    (s.afterJudged).mem.wf = true := by
  simp only [State.afterJudged]; (repeat' split) <;> first | exact hw | simp (maxDischargeDepth := 20) [hw, store_wf]

/-- What `engineEcho` leaves alone. -/
@[simp] theorem engineEcho_frame (s : State) (a : Nat) (version : Half) :
    (s.engineEcho a version).pins = s.pins ∧ (s.engineEcho a version).port.notes = s.port.notes ∧
    (s.engineEcho a version).port.fault = s.port.fault ∧
    (s.engineEcho a version).port.faultCount = s.port.faultCount ∧
    (s.engineEcho a version).port.tables = s.port.tables ∧
    (s.engineEcho a version).port.lastTable = s.port.lastTable ∧
    (s.engineEcho a version).attn.enables = s.attn.enables ∧ (s.engineEcho a version).attn.levels = s.attn.levels ∧
    (s.engineEcho a version).attn.mask = s.attn.mask ∧ (s.engineEcho a version).chain.state = s.chain.state ∧
    (s.engineEcho a version).chain.origin = s.chain.origin ∧
    (s.engineEcho a version).chain.wasDown = s.chain.wasDown ∧
    (s.engineEcho a version).chain.downSince = s.chain.downSince ∧
    (s.engineEcho a version).chain.errs = s.chain.errs ∧
    (s.engineEcho a version).chain.suspectSince = s.chain.suspectSince ∧
    (s.engineEcho a version).chain.periodStart = s.chain.periodStart ∧
    (s.engineEcho a version).chain.periodErrs = s.chain.periodErrs ∧
    (s.engineEcho a version).chain.capTag = s.chain.capTag ∧ (s.engineEcho a version).chain.exTag = s.chain.exTag ∧
    (s.engineEcho a version).chain.survey = s.chain.survey ∧
    (s.engineEcho a version).chain.present = s.chain.present ∧
    (s.engineEcho a version).chain.configured = s.chain.configured ∧
    (s.engineEcho a version).chain.breakLoc = s.chain.breakLoc ∧ (s.engineEcho a version).chain.line = s.chain.line ∧
    (s.engineEcho a version).chain.lastSent = s.chain.lastSent ∧
    (s.engineEcho a version).chain.sleepCmd = s.chain.sleepCmd ∧
    (s.engineEcho a version).chain.wakeAfterSleep = s.chain.wakeAfterSleep ∧
    (s.engineEcho a version).chain.wake = s.chain.wake ∧
    (s.engineEcho a version).chain.resetTone = s.chain.resetTone ∧
    (s.engineEcho a version).chain.surveyTimer = s.chain.surveyTimer ∧
    (s.engineEcho a version).chain.firstUp = s.chain.firstUp ∧
    (s.engineEcho a version).chain.surveySlip = s.chain.surveySlip ∧
    (s.engineEcho a version).chain.balance = s.chain.balance ∧ (s.engineEcho a version).conv = s.conv ∧
    (s.engineEcho a version).plan = s.plan ∧ (s.engineEcho a version).sup = s.sup ∧
    (s.engineEcho a version).ev.slots = s.ev.slots ∧ (s.engineEcho a version).ev.age = s.ev.age ∧
    (s.engineEcho a version).ev.next = s.ev.next ∧ (s.engineEcho a version).ev.filling = s.ev.filling ∧
    (s.engineEcho a version).power = s.power ∧ (s.engineEcho a version).store.nv = s.store.nv ∧
    (s.engineEcho a version).store.work = s.store.work ∧ (s.engineEcho a version).store.running = s.store.running ∧
    (s.engineEcho a version).store.startUp = s.store.startUp ∧
    (s.engineEcho a version).store.active = s.store.active ∧
    (s.engineEcho a version).store.activeBank = s.store.activeBank ∧
    (s.engineEcho a version).store.activeVersion = s.store.activeVersion ∧
    (s.engineEcho a version).store.clampCount = s.store.clampCount ∧
    (s.engineEcho a version).store.outcome = s.store.outcome ∧
    (s.engineEcho a version).store.faultCause = s.store.faultCause ∧
    (s.engineEcho a version).store.faultItem = s.store.faultItem ∧
    (s.engineEcho a version).store.faultCount = s.store.faultCount ∧
    (s.engineEcho a version).store.lost = s.store.lost ∧ (s.engineEcho a version).store.taken = s.store.taken ∧
    (s.engineEcho a version).store.inForce = s.store.inForce ∧
    (s.engineEcho a version).store.rangeClamps = s.store.rangeClamps ∧
    (s.engineEcho a version).store.hardClamps = s.store.hardClamps ∧
    (s.engineEcho a version).store.keySlip = s.store.keySlip ∧ (s.engineEcho a version).upd.header = s.upd.header ∧
    (s.engineEcho a version).upd.expected = s.upd.expected ∧ (s.engineEcho a version).upd.lastAcc = s.upd.lastAcc ∧
    (s.engineEcho a version).upd.runCrc = s.upd.runCrc ∧ (s.engineEcho a version).upd.waiting = s.upd.waiting ∧
    (s.engineEcho a version).upd.acc = s.upd.acc ∧ (s.engineEcho a version).upd.dup = s.upd.dup ∧
    (s.engineEcho a version).upd.switchPending = s.upd.switchPending ∧
    (s.engineEcho a version).upd.commitReached = s.upd.commitReached ∧
    (s.engineEcho a version).upd.bankWritten = s.upd.bankWritten ∧
    (s.engineEcho a version).upd.checkAt = s.upd.checkAt ∧ (s.engineEcho a version).free = s.free ∧
    (s.engineEcho a version).pending = s.pending := by
  simp only [State.engineEcho]; (repeat' split) <;> (first | rfl | simp)

/-- `engineEcho` keeps the canonical form of the memory. -/
@[simp] theorem engineEcho_wf (s : State) (a : Nat) (version : Half) (hw : s.mem.wf = true) :
    (s.engineEcho a version).mem.wf = true := by
  simp only [State.engineEcho]; (repeat' split) <;> first | exact hw | simp (maxDischargeDepth := 20) [hw, store_wf]

/-- What `rollBack` leaves alone. -/
@[simp] theorem rollBack_frame (s : State) (w : SwitchWindow) (t : Turn) (d : DistRec) :
    (s.rollBack w t d).pins = s.pins ∧ (s.rollBack w t d).port.notes = s.port.notes ∧
    (s.rollBack w t d).port.fault = s.port.fault ∧ (s.rollBack w t d).port.faultCount = s.port.faultCount ∧
    (s.rollBack w t d).port.tables = s.port.tables ∧ (s.rollBack w t d).port.lastTable = s.port.lastTable ∧
    (s.rollBack w t d).attn.enables = s.attn.enables ∧ (s.rollBack w t d).attn.levels = s.attn.levels ∧
    (s.rollBack w t d).attn.mask = s.attn.mask ∧ (s.rollBack w t d).chain.state = s.chain.state ∧
    (s.rollBack w t d).chain.origin = s.chain.origin ∧ (s.rollBack w t d).chain.wasDown = s.chain.wasDown ∧
    (s.rollBack w t d).chain.downSince = s.chain.downSince ∧ (s.rollBack w t d).chain.errs = s.chain.errs ∧
    (s.rollBack w t d).chain.suspectSince = s.chain.suspectSince ∧
    (s.rollBack w t d).chain.periodStart = s.chain.periodStart ∧
    (s.rollBack w t d).chain.periodErrs = s.chain.periodErrs ∧ (s.rollBack w t d).chain.capTag = s.chain.capTag ∧
    (s.rollBack w t d).chain.exTag = s.chain.exTag ∧ (s.rollBack w t d).chain.survey = s.chain.survey ∧
    (s.rollBack w t d).chain.present = s.chain.present ∧ (s.rollBack w t d).chain.configured = s.chain.configured ∧
    (s.rollBack w t d).chain.breakLoc = s.chain.breakLoc ∧ (s.rollBack w t d).chain.line = s.chain.line ∧
    (s.rollBack w t d).chain.lastSent = s.chain.lastSent ∧ (s.rollBack w t d).chain.sleepCmd = s.chain.sleepCmd ∧
    (s.rollBack w t d).chain.wakeAfterSleep = s.chain.wakeAfterSleep ∧ (s.rollBack w t d).chain.wake = s.chain.wake ∧
    (s.rollBack w t d).chain.resetTone = s.chain.resetTone ∧
    (s.rollBack w t d).chain.surveyTimer = s.chain.surveyTimer ∧ (s.rollBack w t d).chain.firstUp = s.chain.firstUp ∧
    (s.rollBack w t d).chain.surveySlip = s.chain.surveySlip ∧ (s.rollBack w t d).chain.balance = s.chain.balance ∧
    (s.rollBack w t d).conv = s.conv ∧ (s.rollBack w t d).plan = s.plan ∧ (s.rollBack w t d).sup = s.sup ∧
    (s.rollBack w t d).ev.slots = s.ev.slots ∧ (s.rollBack w t d).ev.age = s.ev.age ∧
    (s.rollBack w t d).ev.next = s.ev.next ∧ (s.rollBack w t d).ev.filling = s.ev.filling ∧
    (s.rollBack w t d).power = s.power ∧ (s.rollBack w t d).store.nv = s.store.nv ∧
    (s.rollBack w t d).store.work = s.store.work ∧ (s.rollBack w t d).store.running = s.store.running ∧
    (s.rollBack w t d).store.startUp = s.store.startUp ∧ (s.rollBack w t d).store.active = s.store.active ∧
    (s.rollBack w t d).store.activeBank = s.store.activeBank ∧
    (s.rollBack w t d).store.activeVersion = s.store.activeVersion ∧
    (s.rollBack w t d).store.clampCount = s.store.clampCount ∧ (s.rollBack w t d).store.outcome = s.store.outcome ∧
    (s.rollBack w t d).store.faultCause = s.store.faultCause ∧
    (s.rollBack w t d).store.faultItem = s.store.faultItem ∧
    (s.rollBack w t d).store.faultCount = s.store.faultCount ∧ (s.rollBack w t d).store.lost = s.store.lost ∧
    (s.rollBack w t d).store.taken = s.store.taken ∧ (s.rollBack w t d).store.inForce = s.store.inForce ∧
    (s.rollBack w t d).store.rangeClamps = s.store.rangeClamps ∧
    (s.rollBack w t d).store.hardClamps = s.store.hardClamps ∧ (s.rollBack w t d).store.keySlip = s.store.keySlip ∧
    (s.rollBack w t d).upd.header = s.upd.header ∧ (s.rollBack w t d).upd.expected = s.upd.expected ∧
    (s.rollBack w t d).upd.lastAcc = s.upd.lastAcc ∧ (s.rollBack w t d).upd.runCrc = s.upd.runCrc ∧
    (s.rollBack w t d).upd.waiting = s.upd.waiting ∧ (s.rollBack w t d).upd.acc = s.upd.acc ∧
    (s.rollBack w t d).upd.dup = s.upd.dup ∧ (s.rollBack w t d).upd.switchPending = s.upd.switchPending ∧
    (s.rollBack w t d).upd.commitReached = s.upd.commitReached ∧
    (s.rollBack w t d).upd.bankWritten = s.upd.bankWritten ∧ (s.rollBack w t d).upd.checkAt = s.upd.checkAt ∧
    (s.rollBack w t d).free = s.free ∧ (s.rollBack w t d).pending = s.pending := by
  simp only [State.rollBack]; (repeat' split) <;> (first | rfl | simp)

/-- `rollBack` keeps the canonical form of the memory. -/
@[simp] theorem rollBack_wf (s : State) (w : SwitchWindow) (t : Turn) (d : DistRec) (hw : s.mem.wf = true) :
    (s.rollBack w t d).mem.wf = true := by
  simp only [State.rollBack]; (repeat' split) <;> first | exact hw | simp (maxDischargeDepth := 20) [hw, store_wf]

/-- What `engineTold` leaves alone. -/
@[simp] theorem engineTold_frame (s : State) (bank : BankId) (done : Bool) :
    (s.engineTold bank done).pins = s.pins ∧ (s.engineTold bank done).port.notes = s.port.notes ∧
    (s.engineTold bank done).port.fault = s.port.fault ∧
    (s.engineTold bank done).port.faultCount = s.port.faultCount ∧
    (s.engineTold bank done).port.tables = s.port.tables ∧
    (s.engineTold bank done).port.lastTable = s.port.lastTable ∧
    (s.engineTold bank done).attn.enables = s.attn.enables ∧ (s.engineTold bank done).attn.levels = s.attn.levels ∧
    (s.engineTold bank done).attn.mask = s.attn.mask ∧ (s.engineTold bank done).chain.state = s.chain.state ∧
    (s.engineTold bank done).chain.origin = s.chain.origin ∧
    (s.engineTold bank done).chain.wasDown = s.chain.wasDown ∧
    (s.engineTold bank done).chain.downSince = s.chain.downSince ∧
    (s.engineTold bank done).chain.errs = s.chain.errs ∧
    (s.engineTold bank done).chain.suspectSince = s.chain.suspectSince ∧
    (s.engineTold bank done).chain.periodStart = s.chain.periodStart ∧
    (s.engineTold bank done).chain.periodErrs = s.chain.periodErrs ∧
    (s.engineTold bank done).chain.capTag = s.chain.capTag ∧ (s.engineTold bank done).chain.exTag = s.chain.exTag ∧
    (s.engineTold bank done).chain.survey = s.chain.survey ∧
    (s.engineTold bank done).chain.present = s.chain.present ∧
    (s.engineTold bank done).chain.configured = s.chain.configured ∧
    (s.engineTold bank done).chain.breakLoc = s.chain.breakLoc ∧ (s.engineTold bank done).chain.map = s.chain.map ∧
    (s.engineTold bank done).chain.line = s.chain.line ∧ (s.engineTold bank done).chain.lastSent = s.chain.lastSent ∧
    (s.engineTold bank done).chain.sleepCmd = s.chain.sleepCmd ∧
    (s.engineTold bank done).chain.wakeAfterSleep = s.chain.wakeAfterSleep ∧
    (s.engineTold bank done).chain.wake = s.chain.wake ∧
    (s.engineTold bank done).chain.resetTone = s.chain.resetTone ∧
    (s.engineTold bank done).chain.surveyTimer = s.chain.surveyTimer ∧
    (s.engineTold bank done).chain.firstUp = s.chain.firstUp ∧
    (s.engineTold bank done).chain.surveySlip = s.chain.surveySlip ∧
    (s.engineTold bank done).chain.balance = s.chain.balance ∧
    (s.engineTold bank done).chain.returning = s.chain.returning ∧ (s.engineTold bank done).conv = s.conv ∧
    (s.engineTold bank done).plan = s.plan ∧ (s.engineTold bank done).sup = s.sup ∧
    (s.engineTold bank done).ev.slots = s.ev.slots ∧ (s.engineTold bank done).ev.age = s.ev.age ∧
    (s.engineTold bank done).ev.next = s.ev.next ∧ (s.engineTold bank done).ev.filling = s.ev.filling ∧
    (s.engineTold bank done).power = s.power ∧ (s.engineTold bank done).store.nv = s.store.nv ∧
    (s.engineTold bank done).store.work = s.store.work ∧ (s.engineTold bank done).store.running = s.store.running ∧
    (s.engineTold bank done).store.startUp = s.store.startUp ∧
    (s.engineTold bank done).store.active = s.store.active ∧
    (s.engineTold bank done).store.activeBank = s.store.activeBank ∧
    (s.engineTold bank done).store.activeVersion = s.store.activeVersion ∧
    (s.engineTold bank done).store.clampCount = s.store.clampCount ∧
    (s.engineTold bank done).store.outcome = s.store.outcome ∧
    (s.engineTold bank done).store.faultCause = s.store.faultCause ∧
    (s.engineTold bank done).store.faultItem = s.store.faultItem ∧
    (s.engineTold bank done).store.faultCount = s.store.faultCount ∧
    (s.engineTold bank done).store.lost = s.store.lost ∧ (s.engineTold bank done).store.taken = s.store.taken ∧
    (s.engineTold bank done).store.inForce = s.store.inForce ∧
    (s.engineTold bank done).store.rangeClamps = s.store.rangeClamps ∧
    (s.engineTold bank done).store.hardClamps = s.store.hardClamps ∧
    (s.engineTold bank done).store.keySlip = s.store.keySlip ∧ (s.engineTold bank done).upd.header = s.upd.header ∧
    (s.engineTold bank done).upd.expected = s.upd.expected ∧ (s.engineTold bank done).upd.lastAcc = s.upd.lastAcc ∧
    (s.engineTold bank done).upd.runCrc = s.upd.runCrc ∧ (s.engineTold bank done).upd.waiting = s.upd.waiting ∧
    (s.engineTold bank done).upd.acc = s.upd.acc ∧ (s.engineTold bank done).upd.dup = s.upd.dup ∧
    (s.engineTold bank done).upd.dist = s.upd.dist ∧
    (s.engineTold bank done).upd.switchPending = s.upd.switchPending ∧
    (s.engineTold bank done).upd.watches = s.upd.watches ∧ (s.engineTold bank done).upd.checkAt = s.upd.checkAt ∧
    (s.engineTold bank done).free = s.free ∧ (s.engineTold bank done).pending = s.pending := by
  simp only [State.engineTold]; (repeat' split) <;> (first | rfl | simp)

/-- `engineTold` keeps the canonical form of the memory. -/
@[simp] theorem engineTold_wf (s : State) (bank : BankId) (done : Bool) (hw : s.mem.wf = true) :
    (s.engineTold bank done).mem.wf = true := by
  simp only [State.engineTold]; (repeat' split) <;> first | exact hw | simp (maxDischargeDepth := 20) [hw, store_wf]

/-- What `withdrawEngine` leaves alone. -/
@[simp] theorem withdrawEngine_frame (s : State) :
    (s.withdrawEngine).mem = s.mem ∧ (s.withdrawEngine).pins = s.pins ∧ (s.withdrawEngine).port = s.port ∧
    (s.withdrawEngine).attn = s.attn ∧ (s.withdrawEngine).chain = s.chain ∧ (s.withdrawEngine).conv = s.conv ∧
    (s.withdrawEngine).plan = s.plan ∧ (s.withdrawEngine).sup = s.sup ∧ (s.withdrawEngine).ev = s.ev ∧
    (s.withdrawEngine).power = s.power ∧ (s.withdrawEngine).store.nv = s.store.nv ∧
    (s.withdrawEngine).store.work = s.store.work ∧ (s.withdrawEngine).store.running = s.store.running ∧
    (s.withdrawEngine).store.startUp = s.store.startUp ∧ (s.withdrawEngine).store.active = s.store.active ∧
    (s.withdrawEngine).store.activeBank = s.store.activeBank ∧
    (s.withdrawEngine).store.activeVersion = s.store.activeVersion ∧
    (s.withdrawEngine).store.clampCount = s.store.clampCount ∧ (s.withdrawEngine).store.outcome = s.store.outcome ∧
    (s.withdrawEngine).store.faultCause = s.store.faultCause ∧
    (s.withdrawEngine).store.faultItem = s.store.faultItem ∧
    (s.withdrawEngine).store.faultCount = s.store.faultCount ∧ (s.withdrawEngine).store.lost = s.store.lost ∧
    (s.withdrawEngine).store.taken = s.store.taken ∧ (s.withdrawEngine).store.inForce = s.store.inForce ∧
    (s.withdrawEngine).store.rangeClamps = s.store.rangeClamps ∧
    (s.withdrawEngine).store.hardClamps = s.store.hardClamps ∧ (s.withdrawEngine).store.keySlip = s.store.keySlip ∧
    (s.withdrawEngine).upd = s.upd ∧ (s.withdrawEngine).free = s.free ∧ (s.withdrawEngine).pending = s.pending := by
  simp only [State.withdrawEngine]; (repeat' split) <;> (first | rfl | simp)

/-- What `beginUpdate` leaves alone. -/
@[simp] theorem beginUpdate_frame (s : State) (h : RawHeader) :
    (s.beginUpdate h).pins = s.pins ∧ (s.beginUpdate h).port = s.port ∧
    (s.beginUpdate h).attn.enables = s.attn.enables ∧ (s.beginUpdate h).attn.levels = s.attn.levels ∧
    (s.beginUpdate h).attn.mask = s.attn.mask ∧ (s.beginUpdate h).chain = s.chain ∧ (s.beginUpdate h).conv = s.conv ∧
    (s.beginUpdate h).plan = s.plan ∧ (s.beginUpdate h).sup = s.sup ∧ (s.beginUpdate h).ev = s.ev ∧
    (s.beginUpdate h).power = s.power ∧ (s.beginUpdate h).store = s.store ∧ (s.beginUpdate h).upd.slip = s.upd.slip ∧
    (s.beginUpdate h).upd.aborts = s.upd.aborts ∧ (s.beginUpdate h).upd.absorbing = s.upd.absorbing ∧
    (s.beginUpdate h).upd.waiting = s.upd.waiting ∧ (s.beginUpdate h).upd.turn = s.upd.turn ∧
    (s.beginUpdate h).upd.link = s.upd.link ∧ (s.beginUpdate h).upd.pause = s.upd.pause ∧
    (s.beginUpdate h).upd.commit = s.upd.commit ∧ (s.beginUpdate h).upd.window = s.upd.window ∧
    (s.beginUpdate h).upd.aborting = s.upd.aborting ∧ (s.beginUpdate h).upd.outcome = s.upd.outcome ∧
    (s.beginUpdate h).upd.outcomeState = s.upd.outcomeState ∧ (s.beginUpdate h).upd.watches = s.upd.watches ∧
    (s.beginUpdate h).upd.checkAt = s.upd.checkAt ∧ (s.beginUpdate h).free = s.free ∧
    (s.beginUpdate h).pending = s.pending := by
  simp only [State.beginUpdate]; (repeat' split) <;> (first | rfl | simp)

/-- `beginUpdate` keeps the canonical form of the memory. -/
@[simp] theorem beginUpdate_wf (s : State) (h : RawHeader) (hw : s.mem.wf = true) :
    (s.beginUpdate h).mem.wf = true := by
  simp only [State.beginUpdate]; (repeat' split) <;> first | exact hw | simp (maxDischargeDepth := 20) [hw, store_wf]

/-- What `waitAbort` leaves alone. -/
@[simp] theorem waitAbort_frame (s : State) (slot : Nat) :
    (s.waitAbort slot).mem = s.mem ∧ (s.waitAbort slot).pins = s.pins ∧ (s.waitAbort slot).port = s.port ∧
    (s.waitAbort slot).attn = s.attn ∧ (s.waitAbort slot).chain = s.chain ∧ (s.waitAbort slot).conv = s.conv ∧
    (s.waitAbort slot).plan = s.plan ∧ (s.waitAbort slot).sup = s.sup ∧ (s.waitAbort slot).ev = s.ev ∧
    (s.waitAbort slot).power = s.power ∧ (s.waitAbort slot).store = s.store ∧
    (s.waitAbort slot).upd.state = s.upd.state ∧ (s.waitAbort slot).upd.slip = s.upd.slip ∧
    (s.waitAbort slot).upd.header = s.upd.header ∧ (s.waitAbort slot).upd.staging = s.upd.staging ∧
    (s.waitAbort slot).upd.expected = s.upd.expected ∧ (s.waitAbort slot).upd.lastAcc = s.upd.lastAcc ∧
    (s.waitAbort slot).upd.runCrc = s.upd.runCrc ∧ (s.waitAbort slot).upd.absorbing = s.upd.absorbing ∧
    (s.waitAbort slot).upd.waiting = s.upd.waiting ∧ (s.waitAbort slot).upd.acc = s.upd.acc ∧
    (s.waitAbort slot).upd.dup = s.upd.dup ∧ (s.waitAbort slot).upd.rej = s.upd.rej ∧
    (s.waitAbort slot).upd.dist = s.upd.dist ∧ (s.waitAbort slot).upd.turn = s.upd.turn ∧
    (s.waitAbort slot).upd.link = s.upd.link ∧ (s.waitAbort slot).upd.pause = s.upd.pause ∧
    (s.waitAbort slot).upd.switchPending = s.upd.switchPending ∧
    (s.waitAbort slot).upd.commitReached = s.upd.commitReached ∧
    (s.waitAbort slot).upd.floorWritten = s.upd.floorWritten ∧ (s.waitAbort slot).upd.commit = s.upd.commit ∧
    (s.waitAbort slot).upd.bankWritten = s.upd.bankWritten ∧ (s.waitAbort slot).upd.window = s.upd.window ∧
    (s.waitAbort slot).upd.outcome = s.upd.outcome ∧ (s.waitAbort slot).upd.outcomeState = s.upd.outcomeState ∧
    (s.waitAbort slot).upd.watches = s.upd.watches ∧ (s.waitAbort slot).upd.checkAt = s.upd.checkAt ∧
    (s.waitAbort slot).free = s.free ∧ (s.waitAbort slot).pending = s.pending := by
  simp only [State.waitAbort]; (repeat' split) <;> (first | rfl | simp)

/-- What `takeAbort` leaves alone. -/
@[simp] theorem takeAbort_frame (s : State) (slot : Nat) :
    (s.takeAbort slot).pins = s.pins ∧ (s.takeAbort slot).port.notes = s.port.notes ∧
    (s.takeAbort slot).port.fault = s.port.fault ∧ (s.takeAbort slot).port.faultCount = s.port.faultCount ∧
    (s.takeAbort slot).port.tables = s.port.tables ∧ (s.takeAbort slot).port.lastTable = s.port.lastTable ∧
    (s.takeAbort slot).attn.enables = s.attn.enables ∧ (s.takeAbort slot).attn.levels = s.attn.levels ∧
    (s.takeAbort slot).attn.mask = s.attn.mask ∧ (s.takeAbort slot).chain.state = s.chain.state ∧
    (s.takeAbort slot).chain.origin = s.chain.origin ∧ (s.takeAbort slot).chain.wasDown = s.chain.wasDown ∧
    (s.takeAbort slot).chain.downSince = s.chain.downSince ∧ (s.takeAbort slot).chain.errs = s.chain.errs ∧
    (s.takeAbort slot).chain.suspectSince = s.chain.suspectSince ∧
    (s.takeAbort slot).chain.periodStart = s.chain.periodStart ∧
    (s.takeAbort slot).chain.periodErrs = s.chain.periodErrs ∧ (s.takeAbort slot).chain.capTag = s.chain.capTag ∧
    (s.takeAbort slot).chain.exTag = s.chain.exTag ∧ (s.takeAbort slot).chain.survey = s.chain.survey ∧
    (s.takeAbort slot).chain.present = s.chain.present ∧ (s.takeAbort slot).chain.configured = s.chain.configured ∧
    (s.takeAbort slot).chain.breakLoc = s.chain.breakLoc ∧ (s.takeAbort slot).chain.line = s.chain.line ∧
    (s.takeAbort slot).chain.lastSent = s.chain.lastSent ∧ (s.takeAbort slot).chain.sleepCmd = s.chain.sleepCmd ∧
    (s.takeAbort slot).chain.wakeAfterSleep = s.chain.wakeAfterSleep ∧ (s.takeAbort slot).chain.wake = s.chain.wake ∧
    (s.takeAbort slot).chain.resetTone = s.chain.resetTone ∧
    (s.takeAbort slot).chain.surveyTimer = s.chain.surveyTimer ∧ (s.takeAbort slot).chain.firstUp = s.chain.firstUp ∧
    (s.takeAbort slot).chain.surveySlip = s.chain.surveySlip ∧ (s.takeAbort slot).chain.balance = s.chain.balance ∧
    (s.takeAbort slot).conv = s.conv ∧ (s.takeAbort slot).plan = s.plan ∧ (s.takeAbort slot).sup = s.sup ∧
    (s.takeAbort slot).ev.slots = s.ev.slots ∧ (s.takeAbort slot).ev.age = s.ev.age ∧
    (s.takeAbort slot).ev.next = s.ev.next ∧ (s.takeAbort slot).ev.filling = s.ev.filling ∧
    (s.takeAbort slot).power = s.power ∧ (s.takeAbort slot).store.nv = s.store.nv ∧
    (s.takeAbort slot).store.work = s.store.work ∧ (s.takeAbort slot).store.running = s.store.running ∧
    (s.takeAbort slot).store.startUp = s.store.startUp ∧ (s.takeAbort slot).store.active = s.store.active ∧
    (s.takeAbort slot).store.activeBank = s.store.activeBank ∧
    (s.takeAbort slot).store.activeVersion = s.store.activeVersion ∧
    (s.takeAbort slot).store.clampCount = s.store.clampCount ∧ (s.takeAbort slot).store.outcome = s.store.outcome ∧
    (s.takeAbort slot).store.faultCause = s.store.faultCause ∧
    (s.takeAbort slot).store.faultItem = s.store.faultItem ∧
    (s.takeAbort slot).store.faultCount = s.store.faultCount ∧ (s.takeAbort slot).store.lost = s.store.lost ∧
    (s.takeAbort slot).store.taken = s.store.taken ∧ (s.takeAbort slot).store.inForce = s.store.inForce ∧
    (s.takeAbort slot).store.rangeClamps = s.store.rangeClamps ∧
    (s.takeAbort slot).store.hardClamps = s.store.hardClamps ∧ (s.takeAbort slot).store.keySlip = s.store.keySlip ∧
    (s.takeAbort slot).upd.header = s.upd.header ∧ (s.takeAbort slot).upd.expected = s.upd.expected ∧
    (s.takeAbort slot).upd.lastAcc = s.upd.lastAcc ∧ (s.takeAbort slot).upd.runCrc = s.upd.runCrc ∧
    (s.takeAbort slot).upd.waiting = s.upd.waiting ∧ (s.takeAbort slot).upd.acc = s.upd.acc ∧
    (s.takeAbort slot).upd.dup = s.upd.dup ∧ (s.takeAbort slot).upd.switchPending = s.upd.switchPending ∧
    (s.takeAbort slot).upd.commitReached = s.upd.commitReached ∧
    (s.takeAbort slot).upd.floorWritten = s.upd.floorWritten ∧
    (s.takeAbort slot).upd.bankWritten = s.upd.bankWritten ∧ (s.takeAbort slot).upd.watches = s.upd.watches ∧
    (s.takeAbort slot).upd.checkAt = s.upd.checkAt ∧ (s.takeAbort slot).free = s.free ∧
    (s.takeAbort slot).pending = s.pending := by
  simp only [State.takeAbort]; (repeat' split) <;> (first | rfl | simp)

/-- `takeAbort` keeps the canonical form of the memory. -/
@[simp] theorem takeAbort_wf (s : State) (slot : Nat) (hw : s.mem.wf = true) :
    (s.takeAbort slot).mem.wf = true := by
  simp only [State.takeAbort]; (repeat' split) <;> first | exact hw | simp (maxDischargeDepth := 20) [hw, store_wf]

/-- What `applyUpdate` leaves alone. -/
@[simp] theorem applyUpdate_frame (s : State) (slot : Nat) :
    (s.applyUpdate slot).pins = s.pins ∧ (s.applyUpdate slot).port.notes = s.port.notes ∧
    (s.applyUpdate slot).port.fault = s.port.fault ∧ (s.applyUpdate slot).port.faultCount = s.port.faultCount ∧
    (s.applyUpdate slot).port.tables = s.port.tables ∧ (s.applyUpdate slot).port.lastTable = s.port.lastTable ∧
    (s.applyUpdate slot).attn.enables = s.attn.enables ∧ (s.applyUpdate slot).attn.levels = s.attn.levels ∧
    (s.applyUpdate slot).attn.mask = s.attn.mask ∧ (s.applyUpdate slot).chain.state = s.chain.state ∧
    (s.applyUpdate slot).chain.origin = s.chain.origin ∧ (s.applyUpdate slot).chain.wasDown = s.chain.wasDown ∧
    (s.applyUpdate slot).chain.downSince = s.chain.downSince ∧ (s.applyUpdate slot).chain.errs = s.chain.errs ∧
    (s.applyUpdate slot).chain.suspectSince = s.chain.suspectSince ∧
    (s.applyUpdate slot).chain.periodStart = s.chain.periodStart ∧
    (s.applyUpdate slot).chain.periodErrs = s.chain.periodErrs ∧ (s.applyUpdate slot).chain.capTag = s.chain.capTag ∧
    (s.applyUpdate slot).chain.exTag = s.chain.exTag ∧ (s.applyUpdate slot).chain.survey = s.chain.survey ∧
    (s.applyUpdate slot).chain.present = s.chain.present ∧
    (s.applyUpdate slot).chain.configured = s.chain.configured ∧
    (s.applyUpdate slot).chain.breakLoc = s.chain.breakLoc ∧ (s.applyUpdate slot).chain.line = s.chain.line ∧
    (s.applyUpdate slot).chain.lastSent = s.chain.lastSent ∧ (s.applyUpdate slot).chain.sleepCmd = s.chain.sleepCmd ∧
    (s.applyUpdate slot).chain.wakeAfterSleep = s.chain.wakeAfterSleep ∧
    (s.applyUpdate slot).chain.wake = s.chain.wake ∧ (s.applyUpdate slot).chain.resetTone = s.chain.resetTone ∧
    (s.applyUpdate slot).chain.surveyTimer = s.chain.surveyTimer ∧
    (s.applyUpdate slot).chain.firstUp = s.chain.firstUp ∧
    (s.applyUpdate slot).chain.surveySlip = s.chain.surveySlip ∧
    (s.applyUpdate slot).chain.balance = s.chain.balance ∧ (s.applyUpdate slot).chain.returning = s.chain.returning ∧
    (s.applyUpdate slot).conv = s.conv ∧ (s.applyUpdate slot).plan = s.plan ∧ (s.applyUpdate slot).sup = s.sup ∧
    (s.applyUpdate slot).ev.slots = s.ev.slots ∧ (s.applyUpdate slot).ev.age = s.ev.age ∧
    (s.applyUpdate slot).ev.next = s.ev.next ∧ (s.applyUpdate slot).ev.filling = s.ev.filling ∧
    (s.applyUpdate slot).power = s.power ∧ (s.applyUpdate slot).store.nv = s.store.nv ∧
    (s.applyUpdate slot).store.work = s.store.work ∧ (s.applyUpdate slot).store.running = s.store.running ∧
    (s.applyUpdate slot).store.startUp = s.store.startUp ∧ (s.applyUpdate slot).store.active = s.store.active ∧
    (s.applyUpdate slot).store.activeBank = s.store.activeBank ∧
    (s.applyUpdate slot).store.activeVersion = s.store.activeVersion ∧
    (s.applyUpdate slot).store.clampCount = s.store.clampCount ∧
    (s.applyUpdate slot).store.outcome = s.store.outcome ∧
    (s.applyUpdate slot).store.faultCause = s.store.faultCause ∧
    (s.applyUpdate slot).store.faultItem = s.store.faultItem ∧
    (s.applyUpdate slot).store.faultCount = s.store.faultCount ∧ (s.applyUpdate slot).store.lost = s.store.lost ∧
    (s.applyUpdate slot).store.taken = s.store.taken ∧ (s.applyUpdate slot).store.inForce = s.store.inForce ∧
    (s.applyUpdate slot).store.rangeClamps = s.store.rangeClamps ∧
    (s.applyUpdate slot).store.hardClamps = s.store.hardClamps ∧
    (s.applyUpdate slot).store.keySlip = s.store.keySlip ∧ (s.applyUpdate slot).upd.header = s.upd.header ∧
    (s.applyUpdate slot).upd.expected = s.upd.expected ∧ (s.applyUpdate slot).upd.lastAcc = s.upd.lastAcc ∧
    (s.applyUpdate slot).upd.runCrc = s.upd.runCrc ∧ (s.applyUpdate slot).upd.waiting = s.upd.waiting ∧
    (s.applyUpdate slot).upd.acc = s.upd.acc ∧ (s.applyUpdate slot).upd.dup = s.upd.dup ∧
    (s.applyUpdate slot).upd.commitReached = s.upd.commitReached ∧
    (s.applyUpdate slot).upd.bankWritten = s.upd.bankWritten ∧ (s.applyUpdate slot).upd.watches = s.upd.watches ∧
    (s.applyUpdate slot).upd.checkAt = s.upd.checkAt ∧ (s.applyUpdate slot).free = s.free ∧
    (s.applyUpdate slot).pending = s.pending := by
  simp only [State.applyUpdate]; (repeat' split) <;> (first | rfl | simp)

/-- `applyUpdate` keeps the canonical form of the memory. -/
@[simp] theorem applyUpdate_wf (s : State) (slot : Nat) (hw : s.mem.wf = true) :
    (s.applyUpdate slot).mem.wf = true := by
  simp only [State.applyUpdate]; (repeat' split) <;> first | exact hw | simp (maxDischargeDepth := 20) [hw, store_wf]

/-- What `failSpoiled` leaves alone. -/
@[simp] theorem failSpoiled_frame (s : State) (t : Turn) :
    (s.failSpoiled t).pins = s.pins ∧ (s.failSpoiled t).port.notes = s.port.notes ∧
    (s.failSpoiled t).port.fault = s.port.fault ∧ (s.failSpoiled t).port.faultCount = s.port.faultCount ∧
    (s.failSpoiled t).port.tables = s.port.tables ∧ (s.failSpoiled t).port.lastTable = s.port.lastTable ∧
    (s.failSpoiled t).attn.enables = s.attn.enables ∧ (s.failSpoiled t).attn.levels = s.attn.levels ∧
    (s.failSpoiled t).attn.mask = s.attn.mask ∧ (s.failSpoiled t).chain.state = s.chain.state ∧
    (s.failSpoiled t).chain.origin = s.chain.origin ∧ (s.failSpoiled t).chain.wasDown = s.chain.wasDown ∧
    (s.failSpoiled t).chain.downSince = s.chain.downSince ∧ (s.failSpoiled t).chain.errs = s.chain.errs ∧
    (s.failSpoiled t).chain.suspectSince = s.chain.suspectSince ∧
    (s.failSpoiled t).chain.periodStart = s.chain.periodStart ∧
    (s.failSpoiled t).chain.periodErrs = s.chain.periodErrs ∧ (s.failSpoiled t).chain.capTag = s.chain.capTag ∧
    (s.failSpoiled t).chain.exTag = s.chain.exTag ∧ (s.failSpoiled t).chain.survey = s.chain.survey ∧
    (s.failSpoiled t).chain.present = s.chain.present ∧ (s.failSpoiled t).chain.configured = s.chain.configured ∧
    (s.failSpoiled t).chain.breakLoc = s.chain.breakLoc ∧ (s.failSpoiled t).chain.line = s.chain.line ∧
    (s.failSpoiled t).chain.lastSent = s.chain.lastSent ∧ (s.failSpoiled t).chain.sleepCmd = s.chain.sleepCmd ∧
    (s.failSpoiled t).chain.wakeAfterSleep = s.chain.wakeAfterSleep ∧ (s.failSpoiled t).chain.wake = s.chain.wake ∧
    (s.failSpoiled t).chain.resetTone = s.chain.resetTone ∧
    (s.failSpoiled t).chain.surveyTimer = s.chain.surveyTimer ∧ (s.failSpoiled t).chain.firstUp = s.chain.firstUp ∧
    (s.failSpoiled t).chain.surveySlip = s.chain.surveySlip ∧ (s.failSpoiled t).chain.balance = s.chain.balance ∧
    (s.failSpoiled t).chain.returning = s.chain.returning ∧ (s.failSpoiled t).conv = s.conv ∧
    (s.failSpoiled t).plan = s.plan ∧ (s.failSpoiled t).sup = s.sup ∧ (s.failSpoiled t).ev.slots = s.ev.slots ∧
    (s.failSpoiled t).ev.age = s.ev.age ∧ (s.failSpoiled t).ev.next = s.ev.next ∧
    (s.failSpoiled t).ev.filling = s.ev.filling ∧ (s.failSpoiled t).power = s.power ∧
    (s.failSpoiled t).store.nv = s.store.nv ∧ (s.failSpoiled t).store.work = s.store.work ∧
    (s.failSpoiled t).store.running = s.store.running ∧ (s.failSpoiled t).store.startUp = s.store.startUp ∧
    (s.failSpoiled t).store.active = s.store.active ∧ (s.failSpoiled t).store.activeBank = s.store.activeBank ∧
    (s.failSpoiled t).store.activeVersion = s.store.activeVersion ∧
    (s.failSpoiled t).store.clampCount = s.store.clampCount ∧ (s.failSpoiled t).store.outcome = s.store.outcome ∧
    (s.failSpoiled t).store.faultCause = s.store.faultCause ∧ (s.failSpoiled t).store.faultItem = s.store.faultItem ∧
    (s.failSpoiled t).store.faultCount = s.store.faultCount ∧ (s.failSpoiled t).store.lost = s.store.lost ∧
    (s.failSpoiled t).store.taken = s.store.taken ∧ (s.failSpoiled t).store.inForce = s.store.inForce ∧
    (s.failSpoiled t).store.rangeClamps = s.store.rangeClamps ∧
    (s.failSpoiled t).store.hardClamps = s.store.hardClamps ∧ (s.failSpoiled t).store.keySlip = s.store.keySlip ∧
    (s.failSpoiled t).upd.header = s.upd.header ∧ (s.failSpoiled t).upd.expected = s.upd.expected ∧
    (s.failSpoiled t).upd.lastAcc = s.upd.lastAcc ∧ (s.failSpoiled t).upd.runCrc = s.upd.runCrc ∧
    (s.failSpoiled t).upd.waiting = s.upd.waiting ∧ (s.failSpoiled t).upd.acc = s.upd.acc ∧
    (s.failSpoiled t).upd.dup = s.upd.dup ∧ (s.failSpoiled t).upd.commitReached = s.upd.commitReached ∧
    (s.failSpoiled t).upd.bankWritten = s.upd.bankWritten ∧ (s.failSpoiled t).upd.watches = s.upd.watches ∧
    (s.failSpoiled t).upd.checkAt = s.upd.checkAt ∧ (s.failSpoiled t).free = s.free ∧
    (s.failSpoiled t).pending = s.pending := by
  simp only [State.failSpoiled]; (repeat' split) <;> (first | rfl | simp)

/-- `failSpoiled` keeps the canonical form of the memory. -/
@[simp] theorem failSpoiled_wf (s : State) (t : Turn) (hw : s.mem.wf = true) :
    (s.failSpoiled t).mem.wf = true := by
  simp only [State.failSpoiled]; (repeat' split) <;> first | exact hw | simp (maxDischargeDepth := 20) [hw, store_wf]

/-- What `updateReact` leaves alone. -/
@[simp] theorem updateReact_frame (s : State) :
    (s.updateReact).pins = s.pins ∧ (s.updateReact).port.notes = s.port.notes ∧
    (s.updateReact).port.fault = s.port.fault ∧ (s.updateReact).port.faultCount = s.port.faultCount ∧
    (s.updateReact).port.tables = s.port.tables ∧ (s.updateReact).port.lastTable = s.port.lastTable ∧
    (s.updateReact).attn.enables = s.attn.enables ∧ (s.updateReact).attn.levels = s.attn.levels ∧
    (s.updateReact).attn.mask = s.attn.mask ∧ (s.updateReact).chain.state = s.chain.state ∧
    (s.updateReact).chain.origin = s.chain.origin ∧ (s.updateReact).chain.wasDown = s.chain.wasDown ∧
    (s.updateReact).chain.downSince = s.chain.downSince ∧ (s.updateReact).chain.errs = s.chain.errs ∧
    (s.updateReact).chain.suspectSince = s.chain.suspectSince ∧
    (s.updateReact).chain.periodStart = s.chain.periodStart ∧ (s.updateReact).chain.periodErrs = s.chain.periodErrs ∧
    (s.updateReact).chain.capTag = s.chain.capTag ∧ (s.updateReact).chain.exTag = s.chain.exTag ∧
    (s.updateReact).chain.survey = s.chain.survey ∧ (s.updateReact).chain.present = s.chain.present ∧
    (s.updateReact).chain.configured = s.chain.configured ∧ (s.updateReact).chain.breakLoc = s.chain.breakLoc ∧
    (s.updateReact).chain.line = s.chain.line ∧ (s.updateReact).chain.lastSent = s.chain.lastSent ∧
    (s.updateReact).chain.sleepCmd = s.chain.sleepCmd ∧
    (s.updateReact).chain.wakeAfterSleep = s.chain.wakeAfterSleep ∧ (s.updateReact).chain.wake = s.chain.wake ∧
    (s.updateReact).chain.resetTone = s.chain.resetTone ∧ (s.updateReact).chain.surveyTimer = s.chain.surveyTimer ∧
    (s.updateReact).chain.firstUp = s.chain.firstUp ∧ (s.updateReact).chain.surveySlip = s.chain.surveySlip ∧
    (s.updateReact).chain.balance = s.chain.balance ∧ (s.updateReact).chain.returning = s.chain.returning ∧
    (s.updateReact).conv = s.conv ∧ (s.updateReact).plan = s.plan ∧ (s.updateReact).sup = s.sup ∧
    (s.updateReact).ev.slots = s.ev.slots ∧ (s.updateReact).ev.age = s.ev.age ∧ (s.updateReact).ev.next = s.ev.next ∧
    (s.updateReact).ev.filling = s.ev.filling ∧ (s.updateReact).power = s.power ∧
    (s.updateReact).store.nv = s.store.nv ∧ (s.updateReact).store.work = s.store.work ∧
    (s.updateReact).store.running = s.store.running ∧ (s.updateReact).store.startUp = s.store.startUp ∧
    (s.updateReact).store.active = s.store.active ∧ (s.updateReact).store.activeBank = s.store.activeBank ∧
    (s.updateReact).store.activeVersion = s.store.activeVersion ∧
    (s.updateReact).store.clampCount = s.store.clampCount ∧ (s.updateReact).store.outcome = s.store.outcome ∧
    (s.updateReact).store.faultCause = s.store.faultCause ∧ (s.updateReact).store.faultItem = s.store.faultItem ∧
    (s.updateReact).store.faultCount = s.store.faultCount ∧ (s.updateReact).store.lost = s.store.lost ∧
    (s.updateReact).store.taken = s.store.taken ∧ (s.updateReact).store.inForce = s.store.inForce ∧
    (s.updateReact).store.rangeClamps = s.store.rangeClamps ∧ (s.updateReact).store.hardClamps = s.store.hardClamps ∧
    (s.updateReact).store.keySlip = s.store.keySlip ∧ (s.updateReact).upd.header = s.upd.header ∧
    (s.updateReact).upd.expected = s.upd.expected ∧ (s.updateReact).upd.lastAcc = s.upd.lastAcc ∧
    (s.updateReact).upd.runCrc = s.upd.runCrc ∧ (s.updateReact).upd.waiting = s.upd.waiting ∧
    (s.updateReact).upd.acc = s.upd.acc ∧ (s.updateReact).upd.dup = s.upd.dup ∧
    (s.updateReact).upd.commitReached = s.upd.commitReached ∧ (s.updateReact).upd.bankWritten = s.upd.bankWritten ∧
    (s.updateReact).upd.watches = s.upd.watches ∧ (s.updateReact).upd.checkAt = s.upd.checkAt ∧
    (s.updateReact).free = s.free ∧ (s.updateReact).pending = s.pending := by
  simp only [State.updateReact]; (repeat' split) <;> (first | rfl | simp)

/-- `updateReact` keeps the canonical form of the memory. -/
@[simp] theorem updateReact_wf (s : State) (hw : s.mem.wf = true) :
    (s.updateReact).mem.wf = true := by
  simp only [State.updateReact]; (repeat' split) <;> first | exact hw | simp (maxDischargeDepth := 20) [hw, store_wf]

/-- What `pauseLimit` leaves alone. -/
@[simp] theorem pauseLimit_frame (s : State) :
    (s.pauseLimit).pins = s.pins ∧ (s.pauseLimit).port.notes = s.port.notes ∧
    (s.pauseLimit).port.fault = s.port.fault ∧ (s.pauseLimit).port.faultCount = s.port.faultCount ∧
    (s.pauseLimit).port.tables = s.port.tables ∧ (s.pauseLimit).port.lastTable = s.port.lastTable ∧
    (s.pauseLimit).attn.enables = s.attn.enables ∧ (s.pauseLimit).attn.levels = s.attn.levels ∧
    (s.pauseLimit).attn.mask = s.attn.mask ∧ (s.pauseLimit).chain.state = s.chain.state ∧
    (s.pauseLimit).chain.origin = s.chain.origin ∧ (s.pauseLimit).chain.wasDown = s.chain.wasDown ∧
    (s.pauseLimit).chain.downSince = s.chain.downSince ∧ (s.pauseLimit).chain.errs = s.chain.errs ∧
    (s.pauseLimit).chain.suspectSince = s.chain.suspectSince ∧
    (s.pauseLimit).chain.periodStart = s.chain.periodStart ∧ (s.pauseLimit).chain.periodErrs = s.chain.periodErrs ∧
    (s.pauseLimit).chain.capTag = s.chain.capTag ∧ (s.pauseLimit).chain.exTag = s.chain.exTag ∧
    (s.pauseLimit).chain.survey = s.chain.survey ∧ (s.pauseLimit).chain.present = s.chain.present ∧
    (s.pauseLimit).chain.configured = s.chain.configured ∧ (s.pauseLimit).chain.breakLoc = s.chain.breakLoc ∧
    (s.pauseLimit).chain.line = s.chain.line ∧ (s.pauseLimit).chain.lastSent = s.chain.lastSent ∧
    (s.pauseLimit).chain.sleepCmd = s.chain.sleepCmd ∧ (s.pauseLimit).chain.wakeAfterSleep = s.chain.wakeAfterSleep ∧
    (s.pauseLimit).chain.wake = s.chain.wake ∧ (s.pauseLimit).chain.resetTone = s.chain.resetTone ∧
    (s.pauseLimit).chain.surveyTimer = s.chain.surveyTimer ∧ (s.pauseLimit).chain.firstUp = s.chain.firstUp ∧
    (s.pauseLimit).chain.surveySlip = s.chain.surveySlip ∧ (s.pauseLimit).chain.balance = s.chain.balance ∧
    (s.pauseLimit).conv = s.conv ∧ (s.pauseLimit).plan = s.plan ∧ (s.pauseLimit).sup = s.sup ∧
    (s.pauseLimit).ev.slots = s.ev.slots ∧ (s.pauseLimit).ev.age = s.ev.age ∧ (s.pauseLimit).ev.next = s.ev.next ∧
    (s.pauseLimit).ev.filling = s.ev.filling ∧ (s.pauseLimit).power = s.power ∧ (s.pauseLimit).store = s.store ∧
    (s.pauseLimit).upd.header = s.upd.header ∧ (s.pauseLimit).upd.expected = s.upd.expected ∧
    (s.pauseLimit).upd.lastAcc = s.upd.lastAcc ∧ (s.pauseLimit).upd.runCrc = s.upd.runCrc ∧
    (s.pauseLimit).upd.waiting = s.upd.waiting ∧ (s.pauseLimit).upd.acc = s.upd.acc ∧
    (s.pauseLimit).upd.dup = s.upd.dup ∧ (s.pauseLimit).upd.switchPending = s.upd.switchPending ∧
    (s.pauseLimit).upd.commitReached = s.upd.commitReached ∧ (s.pauseLimit).upd.floorWritten = s.upd.floorWritten ∧
    (s.pauseLimit).upd.bankWritten = s.upd.bankWritten ∧ (s.pauseLimit).upd.watches = s.upd.watches ∧
    (s.pauseLimit).upd.checkAt = s.upd.checkAt ∧ (s.pauseLimit).free = s.free ∧ (s.pauseLimit).pending = s.pending := by
  simp only [State.pauseLimit]; (repeat' split) <;> (first | rfl | simp)

/-- `pauseLimit` keeps the canonical form of the memory. -/
@[simp] theorem pauseLimit_wf (s : State) (hw : s.mem.wf = true) :
    (s.pauseLimit).mem.wf = true := by
  simp only [State.pauseLimit]; (repeat' split) <;> first | exact hw | simp (maxDischargeDepth := 20) [hw, store_wf]

/-- What `answerDown` leaves alone. -/
@[simp] theorem answerDown_frame (s : State) (r : Req) :
    (s.answerDown r).pins = s.pins ∧ (s.answerDown r).port.notes = s.port.notes ∧
    (s.answerDown r).port.fault = s.port.fault ∧ (s.answerDown r).port.faultCount = s.port.faultCount ∧
    (s.answerDown r).port.tables = s.port.tables ∧ (s.answerDown r).port.lastTable = s.port.lastTable ∧
    (s.answerDown r).attn.enables = s.attn.enables ∧ (s.answerDown r).attn.levels = s.attn.levels ∧
    (s.answerDown r).attn.mask = s.attn.mask ∧ (s.answerDown r).chain.state = s.chain.state ∧
    (s.answerDown r).chain.origin = s.chain.origin ∧ (s.answerDown r).chain.wasDown = s.chain.wasDown ∧
    (s.answerDown r).chain.downSince = s.chain.downSince ∧ (s.answerDown r).chain.errs = s.chain.errs ∧
    (s.answerDown r).chain.suspectSince = s.chain.suspectSince ∧
    (s.answerDown r).chain.periodStart = s.chain.periodStart ∧
    (s.answerDown r).chain.periodErrs = s.chain.periodErrs ∧ (s.answerDown r).chain.capTag = s.chain.capTag ∧
    (s.answerDown r).chain.exTag = s.chain.exTag ∧ (s.answerDown r).chain.survey = s.chain.survey ∧
    (s.answerDown r).chain.present = s.chain.present ∧ (s.answerDown r).chain.configured = s.chain.configured ∧
    (s.answerDown r).chain.breakLoc = s.chain.breakLoc ∧ (s.answerDown r).chain.map = s.chain.map ∧
    (s.answerDown r).chain.hold = s.chain.hold ∧ (s.answerDown r).chain.line = s.chain.line ∧
    (s.answerDown r).chain.lastSent = s.chain.lastSent ∧ (s.answerDown r).chain.sleepCmd = s.chain.sleepCmd ∧
    (s.answerDown r).chain.wakeAfterSleep = s.chain.wakeAfterSleep ∧ (s.answerDown r).chain.wake = s.chain.wake ∧
    (s.answerDown r).chain.resetTone = s.chain.resetTone ∧ (s.answerDown r).chain.surveyTimer = s.chain.surveyTimer ∧
    (s.answerDown r).chain.firstUp = s.chain.firstUp ∧ (s.answerDown r).chain.surveySlip = s.chain.surveySlip ∧
    (s.answerDown r).chain.returning = s.chain.returning ∧ (s.answerDown r).conv = s.conv ∧
    (s.answerDown r).plan.plans = s.plan.plans ∧ (s.answerDown r).plan.inForce = s.plan.inForce ∧
    (s.answerDown r).plan.dueDone = s.plan.dueDone ∧ (s.answerDown r).plan.overrun = s.plan.overrun ∧
    (s.answerDown r).plan.burst = s.plan.burst ∧ (s.answerDown r).plan.kept = s.plan.kept ∧
    (s.answerDown r).plan.high = s.plan.high ∧ (s.answerDown r).plan.low = s.plan.low ∧
    (s.answerDown r).plan.temp = s.plan.temp ∧ (s.answerDown r).plan.implausible = s.plan.implausible ∧
    (s.answerDown r).plan.fresh = s.plan.fresh ∧ (s.answerDown r).plan.setSeq = s.plan.setSeq ∧
    (s.answerDown r).plan.pages = s.plan.pages ∧ (s.answerDown r).plan.pageAge = s.plan.pageAge ∧
    (s.answerDown r).plan.writing = s.plan.writing ∧ (s.answerDown r).plan.latest = s.plan.latest ∧
    (s.answerDown r).plan.quiet = s.plan.quiet ∧ (s.answerDown r).sup = s.sup ∧ (s.answerDown r).ev = s.ev ∧
    (s.answerDown r).power = s.power ∧ (s.answerDown r).store = s.store ∧ (s.answerDown r).upd.state = s.upd.state ∧
    (s.answerDown r).upd.slip = s.upd.slip ∧ (s.answerDown r).upd.aborts = s.upd.aborts ∧
    (s.answerDown r).upd.header = s.upd.header ∧ (s.answerDown r).upd.staging = s.upd.staging ∧
    (s.answerDown r).upd.expected = s.upd.expected ∧ (s.answerDown r).upd.lastAcc = s.upd.lastAcc ∧
    (s.answerDown r).upd.runCrc = s.upd.runCrc ∧ (s.answerDown r).upd.absorbing = s.upd.absorbing ∧
    (s.answerDown r).upd.waiting = s.upd.waiting ∧ (s.answerDown r).upd.acc = s.upd.acc ∧
    (s.answerDown r).upd.dup = s.upd.dup ∧ (s.answerDown r).upd.rej = s.upd.rej ∧
    (s.answerDown r).upd.dist = s.upd.dist ∧ (s.answerDown r).upd.turn = s.upd.turn ∧
    (s.answerDown r).upd.switchPending = s.upd.switchPending ∧
    (s.answerDown r).upd.commitReached = s.upd.commitReached ∧
    (s.answerDown r).upd.floorWritten = s.upd.floorWritten ∧ (s.answerDown r).upd.commit = s.upd.commit ∧
    (s.answerDown r).upd.bankWritten = s.upd.bankWritten ∧ (s.answerDown r).upd.window = s.upd.window ∧
    (s.answerDown r).upd.aborting = s.upd.aborting ∧ (s.answerDown r).upd.outcome = s.upd.outcome ∧
    (s.answerDown r).upd.outcomeState = s.upd.outcomeState ∧ (s.answerDown r).upd.watches = s.upd.watches ∧
    (s.answerDown r).upd.checkAt = s.upd.checkAt ∧ (s.answerDown r).free = s.free ∧
    (s.answerDown r).pending = s.pending := by
  simp only [State.answerDown]; (repeat' split) <;> (first | rfl | simp)

/-- `answerDown` keeps the canonical form of the memory. -/
@[simp] theorem answerDown_wf (s : State) (r : Req) (hw : s.mem.wf = true) :
    (s.answerDown r).mem.wf = true := by
  simp only [State.answerDown]; (repeat' split) <;> first | exact hw | simp (maxDischargeDepth := 20) [hw, store_wf]

theorem answerEach_frame (s : State) (l : List Req) :
    (l.foldl State.answerDown s).pins = s.pins ∧ (l.foldl State.answerDown s).port.notes = s.port.notes ∧
    (l.foldl State.answerDown s).port.fault = s.port.fault ∧
    (l.foldl State.answerDown s).port.faultCount = s.port.faultCount ∧
    (l.foldl State.answerDown s).port.tables = s.port.tables ∧
    (l.foldl State.answerDown s).port.lastTable = s.port.lastTable ∧
    (l.foldl State.answerDown s).attn.enables = s.attn.enables ∧
    (l.foldl State.answerDown s).attn.levels = s.attn.levels ∧ (l.foldl State.answerDown s).attn.mask = s.attn.mask ∧
    (l.foldl State.answerDown s).chain.state = s.chain.state ∧
    (l.foldl State.answerDown s).chain.origin = s.chain.origin ∧
    (l.foldl State.answerDown s).chain.wasDown = s.chain.wasDown ∧
    (l.foldl State.answerDown s).chain.downSince = s.chain.downSince ∧
    (l.foldl State.answerDown s).chain.errs = s.chain.errs ∧
    (l.foldl State.answerDown s).chain.suspectSince = s.chain.suspectSince ∧
    (l.foldl State.answerDown s).chain.periodStart = s.chain.periodStart ∧
    (l.foldl State.answerDown s).chain.periodErrs = s.chain.periodErrs ∧
    (l.foldl State.answerDown s).chain.capTag = s.chain.capTag ∧
    (l.foldl State.answerDown s).chain.exTag = s.chain.exTag ∧
    (l.foldl State.answerDown s).chain.survey = s.chain.survey ∧
    (l.foldl State.answerDown s).chain.present = s.chain.present ∧
    (l.foldl State.answerDown s).chain.configured = s.chain.configured ∧
    (l.foldl State.answerDown s).chain.breakLoc = s.chain.breakLoc ∧
    (l.foldl State.answerDown s).chain.map = s.chain.map ∧ (l.foldl State.answerDown s).chain.hold = s.chain.hold ∧
    (l.foldl State.answerDown s).chain.line = s.chain.line ∧
    (l.foldl State.answerDown s).chain.lastSent = s.chain.lastSent ∧
    (l.foldl State.answerDown s).chain.sleepCmd = s.chain.sleepCmd ∧
    (l.foldl State.answerDown s).chain.wakeAfterSleep = s.chain.wakeAfterSleep ∧
    (l.foldl State.answerDown s).chain.wake = s.chain.wake ∧
    (l.foldl State.answerDown s).chain.resetTone = s.chain.resetTone ∧
    (l.foldl State.answerDown s).chain.surveyTimer = s.chain.surveyTimer ∧
    (l.foldl State.answerDown s).chain.firstUp = s.chain.firstUp ∧
    (l.foldl State.answerDown s).chain.surveySlip = s.chain.surveySlip ∧
    (l.foldl State.answerDown s).chain.returning = s.chain.returning ∧ (l.foldl State.answerDown s).conv = s.conv ∧
    (l.foldl State.answerDown s).plan.plans = s.plan.plans ∧
    (l.foldl State.answerDown s).plan.inForce = s.plan.inForce ∧
    (l.foldl State.answerDown s).plan.dueDone = s.plan.dueDone ∧
    (l.foldl State.answerDown s).plan.overrun = s.plan.overrun ∧
    (l.foldl State.answerDown s).plan.burst = s.plan.burst ∧ (l.foldl State.answerDown s).plan.kept = s.plan.kept ∧
    (l.foldl State.answerDown s).plan.high = s.plan.high ∧ (l.foldl State.answerDown s).plan.low = s.plan.low ∧
    (l.foldl State.answerDown s).plan.temp = s.plan.temp ∧
    (l.foldl State.answerDown s).plan.implausible = s.plan.implausible ∧
    (l.foldl State.answerDown s).plan.fresh = s.plan.fresh ∧
    (l.foldl State.answerDown s).plan.setSeq = s.plan.setSeq ∧
    (l.foldl State.answerDown s).plan.pages = s.plan.pages ∧
    (l.foldl State.answerDown s).plan.pageAge = s.plan.pageAge ∧
    (l.foldl State.answerDown s).plan.writing = s.plan.writing ∧
    (l.foldl State.answerDown s).plan.latest = s.plan.latest ∧
    (l.foldl State.answerDown s).plan.quiet = s.plan.quiet ∧ (l.foldl State.answerDown s).sup = s.sup ∧
    (l.foldl State.answerDown s).ev = s.ev ∧ (l.foldl State.answerDown s).power = s.power ∧
    (l.foldl State.answerDown s).store = s.store ∧ (l.foldl State.answerDown s).upd.state = s.upd.state ∧
    (l.foldl State.answerDown s).upd.slip = s.upd.slip ∧ (l.foldl State.answerDown s).upd.aborts = s.upd.aborts ∧
    (l.foldl State.answerDown s).upd.header = s.upd.header ∧
    (l.foldl State.answerDown s).upd.staging = s.upd.staging ∧
    (l.foldl State.answerDown s).upd.expected = s.upd.expected ∧
    (l.foldl State.answerDown s).upd.lastAcc = s.upd.lastAcc ∧
    (l.foldl State.answerDown s).upd.runCrc = s.upd.runCrc ∧
    (l.foldl State.answerDown s).upd.absorbing = s.upd.absorbing ∧
    (l.foldl State.answerDown s).upd.waiting = s.upd.waiting ∧ (l.foldl State.answerDown s).upd.acc = s.upd.acc ∧
    (l.foldl State.answerDown s).upd.dup = s.upd.dup ∧ (l.foldl State.answerDown s).upd.rej = s.upd.rej ∧
    (l.foldl State.answerDown s).upd.dist = s.upd.dist ∧ (l.foldl State.answerDown s).upd.turn = s.upd.turn ∧
    (l.foldl State.answerDown s).upd.switchPending = s.upd.switchPending ∧
    (l.foldl State.answerDown s).upd.commitReached = s.upd.commitReached ∧
    (l.foldl State.answerDown s).upd.floorWritten = s.upd.floorWritten ∧
    (l.foldl State.answerDown s).upd.commit = s.upd.commit ∧
    (l.foldl State.answerDown s).upd.bankWritten = s.upd.bankWritten ∧
    (l.foldl State.answerDown s).upd.window = s.upd.window ∧
    (l.foldl State.answerDown s).upd.aborting = s.upd.aborting ∧
    (l.foldl State.answerDown s).upd.outcome = s.upd.outcome ∧
    (l.foldl State.answerDown s).upd.outcomeState = s.upd.outcomeState ∧
    (l.foldl State.answerDown s).upd.watches = s.upd.watches ∧
    (l.foldl State.answerDown s).upd.checkAt = s.upd.checkAt ∧ (l.foldl State.answerDown s).free = s.free ∧
    (l.foldl State.answerDown s).pending = s.pending := by
  induction l generalizing s with
  | nil => simp
  | cons x l ih => simp [ih]

theorem answerEach_wf (s : State) (l : List Req) (hw : s.mem.wf = true) :
    (l.foldl State.answerDown s).mem.wf = true := by
  induction l generalizing s with
  | nil => simpa using hw
  | cons x l ih => simp only [List.foldl_cons]; exact ih _ (answerDown_wf _ _ hw)

/-- What `answerRequests` leaves alone. -/
@[simp] theorem answerRequests_frame (s : State) :
    (s.answerRequests).pins = s.pins ∧ (s.answerRequests).port.notes = s.port.notes ∧
    (s.answerRequests).port.fault = s.port.fault ∧ (s.answerRequests).port.faultCount = s.port.faultCount ∧
    (s.answerRequests).port.tables = s.port.tables ∧ (s.answerRequests).port.lastTable = s.port.lastTable ∧
    (s.answerRequests).attn.enables = s.attn.enables ∧ (s.answerRequests).attn.levels = s.attn.levels ∧
    (s.answerRequests).attn.mask = s.attn.mask ∧ (s.answerRequests).chain.state = s.chain.state ∧
    (s.answerRequests).chain.origin = s.chain.origin ∧ (s.answerRequests).chain.wasDown = s.chain.wasDown ∧
    (s.answerRequests).chain.downSince = s.chain.downSince ∧ (s.answerRequests).chain.errs = s.chain.errs ∧
    (s.answerRequests).chain.suspectSince = s.chain.suspectSince ∧
    (s.answerRequests).chain.periodStart = s.chain.periodStart ∧
    (s.answerRequests).chain.periodErrs = s.chain.periodErrs ∧ (s.answerRequests).chain.capTag = s.chain.capTag ∧
    (s.answerRequests).chain.exTag = s.chain.exTag ∧ (s.answerRequests).chain.survey = s.chain.survey ∧
    (s.answerRequests).chain.present = s.chain.present ∧ (s.answerRequests).chain.configured = s.chain.configured ∧
    (s.answerRequests).chain.breakLoc = s.chain.breakLoc ∧ (s.answerRequests).chain.map = s.chain.map ∧
    (s.answerRequests).chain.hold = s.chain.hold ∧ (s.answerRequests).chain.line = s.chain.line ∧
    (s.answerRequests).chain.lastSent = s.chain.lastSent ∧ (s.answerRequests).chain.sleepCmd = s.chain.sleepCmd ∧
    (s.answerRequests).chain.wakeAfterSleep = s.chain.wakeAfterSleep ∧ (s.answerRequests).chain.wake = s.chain.wake ∧
    (s.answerRequests).chain.resetTone = s.chain.resetTone ∧
    (s.answerRequests).chain.surveyTimer = s.chain.surveyTimer ∧ (s.answerRequests).chain.firstUp = s.chain.firstUp ∧
    (s.answerRequests).chain.surveySlip = s.chain.surveySlip ∧
    (s.answerRequests).chain.returning = s.chain.returning ∧ (s.answerRequests).conv = s.conv ∧
    (s.answerRequests).plan.plans = s.plan.plans ∧ (s.answerRequests).plan.inForce = s.plan.inForce ∧
    (s.answerRequests).plan.dueDone = s.plan.dueDone ∧ (s.answerRequests).plan.overrun = s.plan.overrun ∧
    (s.answerRequests).plan.burst = s.plan.burst ∧ (s.answerRequests).plan.kept = s.plan.kept ∧
    (s.answerRequests).plan.high = s.plan.high ∧ (s.answerRequests).plan.low = s.plan.low ∧
    (s.answerRequests).plan.temp = s.plan.temp ∧ (s.answerRequests).plan.implausible = s.plan.implausible ∧
    (s.answerRequests).plan.fresh = s.plan.fresh ∧ (s.answerRequests).plan.setSeq = s.plan.setSeq ∧
    (s.answerRequests).plan.pages = s.plan.pages ∧ (s.answerRequests).plan.pageAge = s.plan.pageAge ∧
    (s.answerRequests).plan.writing = s.plan.writing ∧ (s.answerRequests).plan.latest = s.plan.latest ∧
    (s.answerRequests).plan.quiet = s.plan.quiet ∧ (s.answerRequests).sup = s.sup ∧ (s.answerRequests).ev = s.ev ∧
    (s.answerRequests).power = s.power ∧ (s.answerRequests).store = s.store ∧
    (s.answerRequests).upd.state = s.upd.state ∧ (s.answerRequests).upd.slip = s.upd.slip ∧
    (s.answerRequests).upd.aborts = s.upd.aborts ∧ (s.answerRequests).upd.header = s.upd.header ∧
    (s.answerRequests).upd.staging = s.upd.staging ∧ (s.answerRequests).upd.expected = s.upd.expected ∧
    (s.answerRequests).upd.lastAcc = s.upd.lastAcc ∧ (s.answerRequests).upd.runCrc = s.upd.runCrc ∧
    (s.answerRequests).upd.absorbing = s.upd.absorbing ∧ (s.answerRequests).upd.waiting = s.upd.waiting ∧
    (s.answerRequests).upd.acc = s.upd.acc ∧ (s.answerRequests).upd.dup = s.upd.dup ∧
    (s.answerRequests).upd.rej = s.upd.rej ∧ (s.answerRequests).upd.dist = s.upd.dist ∧
    (s.answerRequests).upd.turn = s.upd.turn ∧ (s.answerRequests).upd.switchPending = s.upd.switchPending ∧
    (s.answerRequests).upd.commitReached = s.upd.commitReached ∧
    (s.answerRequests).upd.floorWritten = s.upd.floorWritten ∧ (s.answerRequests).upd.commit = s.upd.commit ∧
    (s.answerRequests).upd.bankWritten = s.upd.bankWritten ∧ (s.answerRequests).upd.window = s.upd.window ∧
    (s.answerRequests).upd.aborting = s.upd.aborting ∧ (s.answerRequests).upd.outcome = s.upd.outcome ∧
    (s.answerRequests).upd.outcomeState = s.upd.outcomeState ∧ (s.answerRequests).upd.watches = s.upd.watches ∧
    (s.answerRequests).upd.checkAt = s.upd.checkAt ∧ (s.answerRequests).free = s.free ∧
    (s.answerRequests).pending = s.pending := by
  simp only [State.answerRequests]; split <;> simp [answerEach_frame]

/-- `answerRequests` keeps the canonical form of the memory. -/
@[simp] theorem answerRequests_wf (s : State) (hw : s.mem.wf = true) :
    (s.answerRequests).mem.wf = true := by
  simp only [State.answerRequests]; split
  · exact answerEach_wf _ _ hw
  · exact hw

/-- What `grantFirmware` leaves alone. -/
@[simp] theorem grantFirmware_frame (s : State) (r : FwReq) :
    (s.grantFirmware r).mem = s.mem ∧ (s.grantFirmware r).pins = s.pins ∧ (s.grantFirmware r).port = s.port ∧
    (s.grantFirmware r).attn = s.attn ∧ (s.grantFirmware r).chain.state = s.chain.state ∧
    (s.grantFirmware r).chain.origin = s.chain.origin ∧ (s.grantFirmware r).chain.wasDown = s.chain.wasDown ∧
    (s.grantFirmware r).chain.downSince = s.chain.downSince ∧ (s.grantFirmware r).chain.errs = s.chain.errs ∧
    (s.grantFirmware r).chain.suspectSince = s.chain.suspectSince ∧
    (s.grantFirmware r).chain.periodStart = s.chain.periodStart ∧
    (s.grantFirmware r).chain.periodErrs = s.chain.periodErrs ∧ (s.grantFirmware r).chain.capTag = s.chain.capTag ∧
    (s.grantFirmware r).chain.survey = s.chain.survey ∧ (s.grantFirmware r).chain.present = s.chain.present ∧
    (s.grantFirmware r).chain.configured = s.chain.configured ∧
    (s.grantFirmware r).chain.breakLoc = s.chain.breakLoc ∧ (s.grantFirmware r).chain.map = s.chain.map ∧
    (s.grantFirmware r).chain.lastSent = s.chain.lastSent ∧ (s.grantFirmware r).chain.requests = s.chain.requests ∧
    (s.grantFirmware r).chain.sleepCmd = s.chain.sleepCmd ∧
    (s.grantFirmware r).chain.wakeAfterSleep = s.chain.wakeAfterSleep ∧
    (s.grantFirmware r).chain.wake = s.chain.wake ∧ (s.grantFirmware r).chain.resetTone = s.chain.resetTone ∧
    (s.grantFirmware r).chain.surveyTimer = s.chain.surveyTimer ∧
    (s.grantFirmware r).chain.firstUp = s.chain.firstUp ∧ (s.grantFirmware r).chain.surveySlip = s.chain.surveySlip ∧
    (s.grantFirmware r).chain.balance = s.chain.balance ∧ (s.grantFirmware r).chain.returning = s.chain.returning ∧
    (s.grantFirmware r).conv = s.conv ∧ (s.grantFirmware r).plan = s.plan ∧ (s.grantFirmware r).sup = s.sup ∧
    (s.grantFirmware r).ev = s.ev ∧ (s.grantFirmware r).power = s.power ∧ (s.grantFirmware r).store = s.store ∧
    (s.grantFirmware r).upd.state = s.upd.state ∧ (s.grantFirmware r).upd.slip = s.upd.slip ∧
    (s.grantFirmware r).upd.aborts = s.upd.aborts ∧ (s.grantFirmware r).upd.header = s.upd.header ∧
    (s.grantFirmware r).upd.staging = s.upd.staging ∧ (s.grantFirmware r).upd.expected = s.upd.expected ∧
    (s.grantFirmware r).upd.lastAcc = s.upd.lastAcc ∧ (s.grantFirmware r).upd.runCrc = s.upd.runCrc ∧
    (s.grantFirmware r).upd.absorbing = s.upd.absorbing ∧ (s.grantFirmware r).upd.waiting = s.upd.waiting ∧
    (s.grantFirmware r).upd.acc = s.upd.acc ∧ (s.grantFirmware r).upd.dup = s.upd.dup ∧
    (s.grantFirmware r).upd.rej = s.upd.rej ∧ (s.grantFirmware r).upd.dist = s.upd.dist ∧
    (s.grantFirmware r).upd.pause = s.upd.pause ∧ (s.grantFirmware r).upd.switchPending = s.upd.switchPending ∧
    (s.grantFirmware r).upd.commitReached = s.upd.commitReached ∧
    (s.grantFirmware r).upd.floorWritten = s.upd.floorWritten ∧ (s.grantFirmware r).upd.commit = s.upd.commit ∧
    (s.grantFirmware r).upd.bankWritten = s.upd.bankWritten ∧ (s.grantFirmware r).upd.window = s.upd.window ∧
    (s.grantFirmware r).upd.aborting = s.upd.aborting ∧ (s.grantFirmware r).upd.outcome = s.upd.outcome ∧
    (s.grantFirmware r).upd.outcomeState = s.upd.outcomeState ∧ (s.grantFirmware r).upd.watches = s.upd.watches ∧
    (s.grantFirmware r).upd.checkAt = s.upd.checkAt ∧ (s.grantFirmware r).free = s.free ∧
    (s.grantFirmware r).pending = s.pending := by
  simp only [State.grantFirmware]; (repeat' split) <;> (first | rfl | simp)

/-- What `grantConfig` leaves alone. -/
@[simp] theorem grantConfig_frame (s : State) :
    (s.grantConfig).mem = s.mem ∧ (s.grantConfig).pins = s.pins ∧ (s.grantConfig).port = s.port ∧
    (s.grantConfig).attn = s.attn ∧ (s.grantConfig).chain.state = s.chain.state ∧
    (s.grantConfig).chain.origin = s.chain.origin ∧ (s.grantConfig).chain.wasDown = s.chain.wasDown ∧
    (s.grantConfig).chain.downSince = s.chain.downSince ∧ (s.grantConfig).chain.errs = s.chain.errs ∧
    (s.grantConfig).chain.suspectSince = s.chain.suspectSince ∧
    (s.grantConfig).chain.periodStart = s.chain.periodStart ∧ (s.grantConfig).chain.periodErrs = s.chain.periodErrs ∧
    (s.grantConfig).chain.capTag = s.chain.capTag ∧ (s.grantConfig).chain.survey = s.chain.survey ∧
    (s.grantConfig).chain.present = s.chain.present ∧ (s.grantConfig).chain.configured = s.chain.configured ∧
    (s.grantConfig).chain.breakLoc = s.chain.breakLoc ∧ (s.grantConfig).chain.map = s.chain.map ∧
    (s.grantConfig).chain.lastSent = s.chain.lastSent ∧ (s.grantConfig).chain.requests = s.chain.requests ∧
    (s.grantConfig).chain.sleepCmd = s.chain.sleepCmd ∧
    (s.grantConfig).chain.wakeAfterSleep = s.chain.wakeAfterSleep ∧ (s.grantConfig).chain.wake = s.chain.wake ∧
    (s.grantConfig).chain.resetTone = s.chain.resetTone ∧ (s.grantConfig).chain.surveyTimer = s.chain.surveyTimer ∧
    (s.grantConfig).chain.firstUp = s.chain.firstUp ∧ (s.grantConfig).chain.surveySlip = s.chain.surveySlip ∧
    (s.grantConfig).chain.returning = s.chain.returning ∧ (s.grantConfig).conv = s.conv ∧
    (s.grantConfig).plan = s.plan ∧ (s.grantConfig).sup = s.sup ∧ (s.grantConfig).ev = s.ev ∧
    (s.grantConfig).power = s.power ∧ (s.grantConfig).store = s.store ∧ (s.grantConfig).upd = s.upd ∧
    (s.grantConfig).free = s.free ∧ (s.grantConfig).pending = s.pending := by
  simp only [State.grantConfig]; (repeat' split) <;> (first | rfl | simp)

/-- What `grant` leaves alone. -/
@[simp] theorem grant_frame (s : State) (r : Req) :
    (s.grant r).mem = s.mem ∧ (s.grant r).pins = s.pins ∧ (s.grant r).port = s.port ∧ (s.grant r).attn = s.attn ∧
    (s.grant r).chain.wasDown = s.chain.wasDown ∧ (s.grant r).chain.downSince = s.chain.downSince ∧
    (s.grant r).chain.errs = s.chain.errs ∧ (s.grant r).chain.suspectSince = s.chain.suspectSince ∧
    (s.grant r).chain.periodStart = s.chain.periodStart ∧ (s.grant r).chain.periodErrs = s.chain.periodErrs ∧
    (s.grant r).chain.survey = s.chain.survey ∧ (s.grant r).chain.present = s.chain.present ∧
    (s.grant r).chain.configured = s.chain.configured ∧ (s.grant r).chain.breakLoc = s.chain.breakLoc ∧
    (s.grant r).chain.map = s.chain.map ∧ (s.grant r).chain.lastSent = s.chain.lastSent ∧
    (s.grant r).chain.sleepCmd = s.chain.sleepCmd ∧ (s.grant r).chain.wakeAfterSleep = s.chain.wakeAfterSleep ∧
    (s.grant r).chain.wake = s.chain.wake ∧ (s.grant r).chain.resetTone = s.chain.resetTone ∧
    (s.grant r).chain.firstUp = s.chain.firstUp ∧ (s.grant r).chain.surveySlip = s.chain.surveySlip ∧
    (s.grant r).chain.returning = s.chain.returning ∧ (s.grant r).conv = s.conv ∧
    (s.grant r).plan.plans = s.plan.plans ∧ (s.grant r).plan.inForce = s.plan.inForce ∧
    (s.grant r).plan.dueDone = s.plan.dueDone ∧ (s.grant r).plan.overrun = s.plan.overrun ∧
    (s.grant r).plan.burst = s.plan.burst ∧ (s.grant r).plan.kept = s.plan.kept ∧
    (s.grant r).plan.high = s.plan.high ∧ (s.grant r).plan.low = s.plan.low ∧ (s.grant r).plan.temp = s.plan.temp ∧
    (s.grant r).plan.implausible = s.plan.implausible ∧ (s.grant r).plan.fresh = s.plan.fresh ∧
    (s.grant r).plan.setSeq = s.plan.setSeq ∧ (s.grant r).plan.pages = s.plan.pages ∧
    (s.grant r).plan.pageAge = s.plan.pageAge ∧ (s.grant r).plan.writing = s.plan.writing ∧
    (s.grant r).plan.latest = s.plan.latest ∧ (s.grant r).plan.quiet = s.plan.quiet ∧
    (s.grant r).plan.patrolReport = s.plan.patrolReport ∧ (s.grant r).sup = s.sup ∧ (s.grant r).ev = s.ev ∧
    (s.grant r).power = s.power ∧ (s.grant r).store = s.store ∧ (s.grant r).upd.state = s.upd.state ∧
    (s.grant r).upd.slip = s.upd.slip ∧ (s.grant r).upd.aborts = s.upd.aborts ∧
    (s.grant r).upd.header = s.upd.header ∧ (s.grant r).upd.staging = s.upd.staging ∧
    (s.grant r).upd.expected = s.upd.expected ∧ (s.grant r).upd.lastAcc = s.upd.lastAcc ∧
    (s.grant r).upd.runCrc = s.upd.runCrc ∧ (s.grant r).upd.absorbing = s.upd.absorbing ∧
    (s.grant r).upd.waiting = s.upd.waiting ∧ (s.grant r).upd.acc = s.upd.acc ∧ (s.grant r).upd.dup = s.upd.dup ∧
    (s.grant r).upd.rej = s.upd.rej ∧ (s.grant r).upd.dist = s.upd.dist ∧ (s.grant r).upd.pause = s.upd.pause ∧
    (s.grant r).upd.switchPending = s.upd.switchPending ∧ (s.grant r).upd.commitReached = s.upd.commitReached ∧
    (s.grant r).upd.floorWritten = s.upd.floorWritten ∧ (s.grant r).upd.commit = s.upd.commit ∧
    (s.grant r).upd.bankWritten = s.upd.bankWritten ∧ (s.grant r).upd.window = s.upd.window ∧
    (s.grant r).upd.aborting = s.upd.aborting ∧ (s.grant r).upd.outcome = s.upd.outcome ∧
    (s.grant r).upd.outcomeState = s.upd.outcomeState ∧ (s.grant r).upd.watches = s.upd.watches ∧
    (s.grant r).upd.checkAt = s.upd.checkAt ∧ (s.grant r).free = s.free ∧ (s.grant r).pending = s.pending := by
  simp only [State.grant]; (repeat' split) <;> (first | rfl | simp)

/-- What `arbiterGrant` leaves alone. -/
@[simp] theorem arbiterGrant_frame (s : State) :
    (s.arbiterGrant).pins = s.pins ∧ (s.arbiterGrant).port.notes = s.port.notes ∧
    (s.arbiterGrant).port.fault = s.port.fault ∧ (s.arbiterGrant).port.faultCount = s.port.faultCount ∧
    (s.arbiterGrant).port.tables = s.port.tables ∧ (s.arbiterGrant).port.lastTable = s.port.lastTable ∧
    (s.arbiterGrant).attn.enables = s.attn.enables ∧ (s.arbiterGrant).attn.levels = s.attn.levels ∧
    (s.arbiterGrant).attn.mask = s.attn.mask ∧ (s.arbiterGrant).chain.wasDown = s.chain.wasDown ∧
    (s.arbiterGrant).chain.downSince = s.chain.downSince ∧ (s.arbiterGrant).chain.errs = s.chain.errs ∧
    (s.arbiterGrant).chain.suspectSince = s.chain.suspectSince ∧
    (s.arbiterGrant).chain.periodStart = s.chain.periodStart ∧
    (s.arbiterGrant).chain.periodErrs = s.chain.periodErrs ∧ (s.arbiterGrant).chain.survey = s.chain.survey ∧
    (s.arbiterGrant).chain.present = s.chain.present ∧ (s.arbiterGrant).chain.configured = s.chain.configured ∧
    (s.arbiterGrant).chain.breakLoc = s.chain.breakLoc ∧ (s.arbiterGrant).chain.map = s.chain.map ∧
    (s.arbiterGrant).chain.lastSent = s.chain.lastSent ∧ (s.arbiterGrant).chain.sleepCmd = s.chain.sleepCmd ∧
    (s.arbiterGrant).chain.wakeAfterSleep = s.chain.wakeAfterSleep ∧ (s.arbiterGrant).chain.wake = s.chain.wake ∧
    (s.arbiterGrant).chain.resetTone = s.chain.resetTone ∧ (s.arbiterGrant).chain.firstUp = s.chain.firstUp ∧
    (s.arbiterGrant).chain.surveySlip = s.chain.surveySlip ∧ (s.arbiterGrant).chain.returning = s.chain.returning ∧
    (s.arbiterGrant).conv = s.conv ∧ (s.arbiterGrant).plan.plans = s.plan.plans ∧
    (s.arbiterGrant).plan.inForce = s.plan.inForce ∧ (s.arbiterGrant).plan.dueDone = s.plan.dueDone ∧
    (s.arbiterGrant).plan.overrun = s.plan.overrun ∧ (s.arbiterGrant).plan.burst = s.plan.burst ∧
    (s.arbiterGrant).plan.kept = s.plan.kept ∧ (s.arbiterGrant).plan.high = s.plan.high ∧
    (s.arbiterGrant).plan.low = s.plan.low ∧ (s.arbiterGrant).plan.temp = s.plan.temp ∧
    (s.arbiterGrant).plan.implausible = s.plan.implausible ∧ (s.arbiterGrant).plan.fresh = s.plan.fresh ∧
    (s.arbiterGrant).plan.setSeq = s.plan.setSeq ∧ (s.arbiterGrant).plan.pages = s.plan.pages ∧
    (s.arbiterGrant).plan.pageAge = s.plan.pageAge ∧ (s.arbiterGrant).plan.writing = s.plan.writing ∧
    (s.arbiterGrant).plan.latest = s.plan.latest ∧ (s.arbiterGrant).plan.quiet = s.plan.quiet ∧
    (s.arbiterGrant).plan.patrolReport = s.plan.patrolReport ∧ (s.arbiterGrant).sup = s.sup ∧
    (s.arbiterGrant).ev = s.ev ∧ (s.arbiterGrant).power = s.power ∧ (s.arbiterGrant).store = s.store ∧
    (s.arbiterGrant).upd.state = s.upd.state ∧ (s.arbiterGrant).upd.slip = s.upd.slip ∧
    (s.arbiterGrant).upd.aborts = s.upd.aborts ∧ (s.arbiterGrant).upd.header = s.upd.header ∧
    (s.arbiterGrant).upd.staging = s.upd.staging ∧ (s.arbiterGrant).upd.expected = s.upd.expected ∧
    (s.arbiterGrant).upd.lastAcc = s.upd.lastAcc ∧ (s.arbiterGrant).upd.runCrc = s.upd.runCrc ∧
    (s.arbiterGrant).upd.absorbing = s.upd.absorbing ∧ (s.arbiterGrant).upd.waiting = s.upd.waiting ∧
    (s.arbiterGrant).upd.acc = s.upd.acc ∧ (s.arbiterGrant).upd.dup = s.upd.dup ∧
    (s.arbiterGrant).upd.rej = s.upd.rej ∧ (s.arbiterGrant).upd.dist = s.upd.dist ∧
    (s.arbiterGrant).upd.pause = s.upd.pause ∧ (s.arbiterGrant).upd.switchPending = s.upd.switchPending ∧
    (s.arbiterGrant).upd.commitReached = s.upd.commitReached ∧
    (s.arbiterGrant).upd.floorWritten = s.upd.floorWritten ∧ (s.arbiterGrant).upd.commit = s.upd.commit ∧
    (s.arbiterGrant).upd.bankWritten = s.upd.bankWritten ∧ (s.arbiterGrant).upd.window = s.upd.window ∧
    (s.arbiterGrant).upd.aborting = s.upd.aborting ∧ (s.arbiterGrant).upd.outcome = s.upd.outcome ∧
    (s.arbiterGrant).upd.outcomeState = s.upd.outcomeState ∧ (s.arbiterGrant).upd.watches = s.upd.watches ∧
    (s.arbiterGrant).upd.checkAt = s.upd.checkAt ∧ (s.arbiterGrant).free = s.free ∧
    (s.arbiterGrant).pending = s.pending := by
  simp only [State.arbiterGrant]; (repeat' split) <;> (first | rfl | simp)

/-- `arbiterGrant` keeps the canonical form of the memory. -/
@[simp] theorem arbiterGrant_wf (s : State) (hw : s.mem.wf = true) :
    (s.arbiterGrant).mem.wf = true := by
  simp only [State.arbiterGrant]; (repeat' split) <;> first | exact hw | simp (maxDischargeDepth := 20) [hw, store_wf]

/-- What `entryReact` leaves alone. -/
@[simp] theorem entryReact_frame (s : State) :
    (s.entryReact).pins = s.pins ∧ (s.entryReact).port.notes = s.port.notes ∧
    (s.entryReact).port.fault = s.port.fault ∧ (s.entryReact).port.faultCount = s.port.faultCount ∧
    (s.entryReact).port.tables = s.port.tables ∧ (s.entryReact).port.lastTable = s.port.lastTable ∧
    (s.entryReact).attn.enables = s.attn.enables ∧ (s.entryReact).attn.levels = s.attn.levels ∧
    (s.entryReact).attn.mask = s.attn.mask ∧ (s.entryReact).chain.state = s.chain.state ∧
    (s.entryReact).chain.origin = s.chain.origin ∧ (s.entryReact).chain.wasDown = s.chain.wasDown ∧
    (s.entryReact).chain.downSince = s.chain.downSince ∧ (s.entryReact).chain.errs = s.chain.errs ∧
    (s.entryReact).chain.suspectSince = s.chain.suspectSince ∧
    (s.entryReact).chain.periodStart = s.chain.periodStart ∧ (s.entryReact).chain.periodErrs = s.chain.periodErrs ∧
    (s.entryReact).chain.capTag = s.chain.capTag ∧ (s.entryReact).chain.exTag = s.chain.exTag ∧
    (s.entryReact).chain.survey = s.chain.survey ∧ (s.entryReact).chain.present = s.chain.present ∧
    (s.entryReact).chain.configured = s.chain.configured ∧ (s.entryReact).chain.breakLoc = s.chain.breakLoc ∧
    (s.entryReact).chain.map = s.chain.map ∧ (s.entryReact).chain.hold = s.chain.hold ∧
    (s.entryReact).chain.line = s.chain.line ∧ (s.entryReact).chain.lastSent = s.chain.lastSent ∧
    (s.entryReact).chain.sleepCmd = s.chain.sleepCmd ∧ (s.entryReact).chain.wakeAfterSleep = s.chain.wakeAfterSleep ∧
    (s.entryReact).chain.wake = s.chain.wake ∧ (s.entryReact).chain.resetTone = s.chain.resetTone ∧
    (s.entryReact).chain.surveyTimer = s.chain.surveyTimer ∧ (s.entryReact).chain.firstUp = s.chain.firstUp ∧
    (s.entryReact).chain.surveySlip = s.chain.surveySlip ∧ (s.entryReact).chain.returning = s.chain.returning ∧
    (s.entryReact).conv.scanning = s.conv.scanning ∧ (s.entryReact).conv.us = s.conv.us ∧
    (s.entryReact).conv.part = s.conv.part ∧ (s.entryReact).conv.lastLatch = s.conv.lastLatch ∧
    (s.entryReact).conv.latched = s.conv.latched ∧ (s.entryReact).conv.history = s.conv.history ∧
    (s.entryReact).conv.charge = s.conv.charge ∧ (s.entryReact).conv.chargeSat = s.conv.chargeSat ∧
    (s.entryReact).conv.restored = s.conv.restored ∧ (s.entryReact).conv.unsampled = s.conv.unsampled ∧
    (s.entryReact).conv.estimate = s.conv.estimate ∧ (s.entryReact).conv.recNumber = s.conv.recNumber ∧
    (s.entryReact).plan = s.plan ∧ (s.entryReact).sup = s.sup ∧ (s.entryReact).ev = s.ev ∧
    (s.entryReact).power.state = s.power.state ∧ (s.entryReact).power.snapOutcome = s.power.snapOutcome ∧
    (s.entryReact).power.wakeTable = s.power.wakeTable ∧ (s.entryReact).power.pend = s.power.pend ∧
    (s.entryReact).power.target = s.power.target ∧ (s.entryReact).power.timer = s.power.timer ∧
    (s.entryReact).power.timerRunning = s.power.timerRunning ∧ (s.entryReact).power.compRun = s.power.compRun ∧
    (s.entryReact).power.compFired = s.power.compFired ∧ (s.entryReact).power.settleAt = s.power.settleAt ∧
    (s.entryReact).power.settled = s.power.settled ∧ (s.entryReact).power.patrol = s.power.patrol ∧
    (s.entryReact).power.nextSlot = s.power.nextSlot ∧ (s.entryReact).power.lastNumber = s.power.lastNumber ∧
    (s.entryReact).power.estimate = s.power.estimate ∧ (s.entryReact).power.lastWake = s.power.lastWake ∧
    (s.entryReact).power.returning = s.power.returning ∧ (s.entryReact).power.lastReset = s.power.lastReset ∧
    (s.entryReact).power.resetCount = s.power.resetCount ∧ (s.entryReact).power.wakeOut = s.power.wakeOut ∧
    (s.entryReact).power.wakeOutAt = s.power.wakeOutAt ∧ (s.entryReact).store.nv = s.store.nv ∧
    (s.entryReact).store.work = s.store.work ∧ (s.entryReact).store.running = s.store.running ∧
    (s.entryReact).store.startUp = s.store.startUp ∧ (s.entryReact).store.active = s.store.active ∧
    (s.entryReact).store.activeBank = s.store.activeBank ∧
    (s.entryReact).store.activeVersion = s.store.activeVersion ∧
    (s.entryReact).store.clampCount = s.store.clampCount ∧ (s.entryReact).store.outcome = s.store.outcome ∧
    (s.entryReact).store.faultCause = s.store.faultCause ∧ (s.entryReact).store.faultItem = s.store.faultItem ∧
    (s.entryReact).store.faultCount = s.store.faultCount ∧ (s.entryReact).store.lost = s.store.lost ∧
    (s.entryReact).store.taken = s.store.taken ∧ (s.entryReact).store.inForce = s.store.inForce ∧
    (s.entryReact).store.rangeClamps = s.store.rangeClamps ∧ (s.entryReact).store.hardClamps = s.store.hardClamps ∧
    (s.entryReact).store.keySlip = s.store.keySlip ∧ (s.entryReact).upd = s.upd ∧ (s.entryReact).free = s.free ∧
    (s.entryReact).pending = s.pending := by
  simp only [State.entryReact]; (repeat' split) <;> (first | rfl | simp)

/-- `entryReact` keeps the canonical form of the memory. -/
@[simp] theorem entryReact_wf (s : State) (hw : s.mem.wf = true) :
    (s.entryReact).mem.wf = true := by
  simp only [State.entryReact]; (repeat' split) <;> first | exact hw | simp (maxDischargeDepth := 20) [hw, store_wf]

/-- What `patrolReact` leaves alone. -/
@[simp] theorem patrolReact_frame (s : State) :
    (s.patrolReact).pins = s.pins ∧ (s.patrolReact).port = s.port ∧ (s.patrolReact).attn.enables = s.attn.enables ∧
    (s.patrolReact).attn.levels = s.attn.levels ∧ (s.patrolReact).attn.mask = s.attn.mask ∧
    (s.patrolReact).chain.state = s.chain.state ∧ (s.patrolReact).chain.origin = s.chain.origin ∧
    (s.patrolReact).chain.wasDown = s.chain.wasDown ∧ (s.patrolReact).chain.downSince = s.chain.downSince ∧
    (s.patrolReact).chain.errs = s.chain.errs ∧ (s.patrolReact).chain.suspectSince = s.chain.suspectSince ∧
    (s.patrolReact).chain.periodStart = s.chain.periodStart ∧ (s.patrolReact).chain.periodErrs = s.chain.periodErrs ∧
    (s.patrolReact).chain.capTag = s.chain.capTag ∧ (s.patrolReact).chain.exTag = s.chain.exTag ∧
    (s.patrolReact).chain.survey = s.chain.survey ∧ (s.patrolReact).chain.present = s.chain.present ∧
    (s.patrolReact).chain.configured = s.chain.configured ∧ (s.patrolReact).chain.breakLoc = s.chain.breakLoc ∧
    (s.patrolReact).chain.map = s.chain.map ∧ (s.patrolReact).chain.hold = s.chain.hold ∧
    (s.patrolReact).chain.line = s.chain.line ∧ (s.patrolReact).chain.lastSent = s.chain.lastSent ∧
    (s.patrolReact).chain.wakeAfterSleep = s.chain.wakeAfterSleep ∧ (s.patrolReact).chain.wake = s.chain.wake ∧
    (s.patrolReact).chain.resetTone = s.chain.resetTone ∧ (s.patrolReact).chain.surveyTimer = s.chain.surveyTimer ∧
    (s.patrolReact).chain.firstUp = s.chain.firstUp ∧ (s.patrolReact).chain.surveySlip = s.chain.surveySlip ∧
    (s.patrolReact).chain.balance = s.chain.balance ∧ (s.patrolReact).chain.returning = s.chain.returning ∧
    (s.patrolReact).conv.part = s.conv.part ∧ (s.patrolReact).conv.charge = s.conv.charge ∧
    (s.patrolReact).conv.chargeSat = s.conv.chargeSat ∧ (s.patrolReact).conv.restored = s.conv.restored ∧
    (s.patrolReact).conv.unsampled = s.conv.unsampled ∧ (s.patrolReact).conv.estimate = s.conv.estimate ∧
    (s.patrolReact).conv.recNumber = s.conv.recNumber ∧ (s.patrolReact).plan.plans = s.plan.plans ∧
    (s.patrolReact).plan.inForce = s.plan.inForce ∧ (s.patrolReact).plan.dueDone = s.plan.dueDone ∧
    (s.patrolReact).plan.overrun = s.plan.overrun ∧ (s.patrolReact).plan.burst = s.plan.burst ∧
    (s.patrolReact).plan.kept = s.plan.kept ∧ (s.patrolReact).plan.setSeq = s.plan.setSeq ∧
    (s.patrolReact).plan.pages = s.plan.pages ∧ (s.patrolReact).plan.pageAge = s.plan.pageAge ∧
    (s.patrolReact).plan.writing = s.plan.writing ∧ (s.patrolReact).plan.latest = s.plan.latest ∧
    (s.patrolReact).sup.state = s.sup.state ∧ (s.patrolReact).sup.waiting = s.sup.waiting ∧
    (s.patrolReact).sup.mainNeg = s.sup.mainNeg ∧ (s.patrolReact).sup.precharge = s.sup.precharge ∧
    (s.patrolReact).sup.mainPos = s.sup.mainPos ∧ (s.patrolReact).sup.inrush = s.sup.inrush ∧
    (s.patrolReact).sup.close = s.sup.close ∧ (s.patrolReact).sup.settleAt = s.sup.settleAt ∧
    (s.patrolReact).sup.opening = s.sup.opening ∧ (s.patrolReact).sup.weld = s.sup.weld ∧
    (s.patrolReact).sup.clear = s.sup.clear ∧ (s.patrolReact).sup.deferral = s.sup.deferral ∧
    (s.patrolReact).sup.hardDue = s.sup.hardDue ∧ (s.patrolReact).sup.faultedSince = s.sup.faultedSince ∧
    (s.patrolReact).sup.lossHeld = s.sup.lossHeld ∧ (s.patrolReact).sup.lossDue = s.sup.lossDue ∧
    (s.patrolReact).sup.once = s.sup.once ∧ (s.patrolReact).ev.age = s.ev.age ∧ (s.patrolReact).ev.next = s.ev.next ∧
    (s.patrolReact).power.entry = s.power.entry ∧ (s.patrolReact).power.snapOutcome = s.power.snapOutcome ∧
    (s.patrolReact).power.wakeTable = s.power.wakeTable ∧ (s.patrolReact).power.timer = s.power.timer ∧
    (s.patrolReact).power.timerRunning = s.power.timerRunning ∧ (s.patrolReact).power.compRun = s.power.compRun ∧
    (s.patrolReact).power.compFired = s.power.compFired ∧ (s.patrolReact).power.settleAt = s.power.settleAt ∧
    (s.patrolReact).power.settled = s.power.settled ∧ (s.patrolReact).power.estimate = s.power.estimate ∧
    (s.patrolReact).power.lastReset = s.power.lastReset ∧ (s.patrolReact).power.resetCount = s.power.resetCount ∧
    (s.patrolReact).store = s.store ∧ (s.patrolReact).upd = s.upd ∧ (s.patrolReact).free = s.free ∧
    (s.patrolReact).pending = s.pending := by
  simp only [State.patrolReact]; (repeat' split) <;> (first | rfl | simp)

/-- `patrolReact` keeps the canonical form of the memory. -/
@[simp] theorem patrolReact_wf (s : State) (hw : s.mem.wf = true) :
    (s.patrolReact).mem.wf = true := by
  simp only [State.patrolReact]; (repeat' split) <;> first | exact hw | simp (maxDischargeDepth := 20) [hw, store_wf]

/-- What `returnReact` leaves alone. -/
@[simp] theorem returnReact_frame (s : State) :
    (s.returnReact).pins = s.pins ∧ (s.returnReact).port = s.port ∧ (s.returnReact).attn.enables = s.attn.enables ∧
    (s.returnReact).attn.levels = s.attn.levels ∧ (s.returnReact).attn.mask = s.attn.mask ∧
    (s.returnReact).chain = s.chain ∧ (s.returnReact).conv.us = s.conv.us ∧ (s.returnReact).conv.part = s.conv.part ∧
    (s.returnReact).conv.lastLatch = s.conv.lastLatch ∧ (s.returnReact).conv.history = s.conv.history ∧
    (s.returnReact).conv.restored = s.conv.restored ∧ (s.returnReact).conv.snapTimer = s.conv.snapTimer ∧
    (s.returnReact).plan = s.plan ∧ (s.returnReact).sup.state = s.sup.state ∧
    (s.returnReact).sup.waiting = s.sup.waiting ∧ (s.returnReact).sup.mainNeg = s.sup.mainNeg ∧
    (s.returnReact).sup.precharge = s.sup.precharge ∧ (s.returnReact).sup.mainPos = s.sup.mainPos ∧
    (s.returnReact).sup.inrush = s.sup.inrush ∧ (s.returnReact).sup.close = s.sup.close ∧
    (s.returnReact).sup.settleAt = s.sup.settleAt ∧ (s.returnReact).sup.opening = s.sup.opening ∧
    (s.returnReact).sup.weld = s.sup.weld ∧ (s.returnReact).sup.clear = s.sup.clear ∧
    (s.returnReact).sup.deferral = s.sup.deferral ∧ (s.returnReact).sup.hardDue = s.sup.hardDue ∧
    (s.returnReact).sup.faultedSince = s.sup.faultedSince ∧ (s.returnReact).sup.lossHeld = s.sup.lossHeld ∧
    (s.returnReact).sup.lossDue = s.sup.lossDue ∧ (s.returnReact).sup.silence = s.sup.silence ∧
    (s.returnReact).sup.warn = s.sup.warn ∧ (s.returnReact).sup.lapsed = s.sup.lapsed ∧
    (s.returnReact).sup.once = s.sup.once ∧ (s.returnReact).ev.age = s.ev.age ∧ (s.returnReact).ev.next = s.ev.next ∧
    (s.returnReact).ev.inbox = s.ev.inbox ∧ (s.returnReact).power.entry = s.power.entry ∧
    (s.returnReact).power.snapOutcome = s.power.snapOutcome ∧ (s.returnReact).power.wakeTable = s.power.wakeTable ∧
    (s.returnReact).power.patrol = s.power.patrol ∧ (s.returnReact).power.nextSlot = s.power.nextSlot ∧
    (s.returnReact).power.lastNumber = s.power.lastNumber ∧ (s.returnReact).power.lastWake = s.power.lastWake ∧
    (s.returnReact).power.lastReset = s.power.lastReset ∧ (s.returnReact).power.resetCount = s.power.resetCount ∧
    (s.returnReact).power.wakeOut = s.power.wakeOut ∧ (s.returnReact).power.wakeOutAt = s.power.wakeOutAt ∧
    (s.returnReact).store = s.store ∧ (s.returnReact).upd = s.upd ∧ (s.returnReact).free = s.free ∧
    (s.returnReact).pending = s.pending := by
  simp only [State.returnReact]; (repeat' split) <;> (first | rfl | simp)

/-- `returnReact` keeps the canonical form of the memory. -/
@[simp] theorem returnReact_wf (s : State) (hw : s.mem.wf = true) :
    (s.returnReact).mem.wf = true := by
  simp only [State.returnReact]; (repeat' split) <;> first | exact hw | simp (maxDischargeDepth := 20) [hw, store_wf]

/-- What `round` leaves alone. -/
@[simp] theorem round_frame (s : State) :
    (s.round).pins = s.pins ∧ (s.round).port.notes = s.port.notes ∧ (s.round).port.fault = s.port.fault ∧
    (s.round).port.faultCount = s.port.faultCount ∧ (s.round).port.tables = s.port.tables ∧
    (s.round).port.lastTable = s.port.lastTable ∧ (s.round).attn.enables = s.attn.enables ∧
    (s.round).attn.levels = s.attn.levels ∧ (s.round).attn.mask = s.attn.mask ∧
    (s.round).chain.wasDown = s.chain.wasDown ∧ (s.round).chain.downSince = s.chain.downSince ∧
    (s.round).chain.errs = s.chain.errs ∧ (s.round).chain.suspectSince = s.chain.suspectSince ∧
    (s.round).chain.periodStart = s.chain.periodStart ∧ (s.round).chain.periodErrs = s.chain.periodErrs ∧
    (s.round).chain.survey = s.chain.survey ∧ (s.round).chain.present = s.chain.present ∧
    (s.round).chain.configured = s.chain.configured ∧ (s.round).chain.breakLoc = s.chain.breakLoc ∧
    (s.round).chain.lastSent = s.chain.lastSent ∧ (s.round).chain.wakeAfterSleep = s.chain.wakeAfterSleep ∧
    (s.round).chain.wake = s.chain.wake ∧ (s.round).chain.resetTone = s.chain.resetTone ∧
    (s.round).chain.firstUp = s.chain.firstUp ∧ (s.round).chain.surveySlip = s.chain.surveySlip ∧
    (s.round).chain.returning = s.chain.returning ∧ (s.round).conv.part = s.conv.part ∧
    (s.round).conv.restored = s.conv.restored ∧ (s.round).plan.plans = s.plan.plans ∧
    (s.round).plan.inForce = s.plan.inForce ∧ (s.round).plan.dueDone = s.plan.dueDone ∧
    (s.round).plan.overrun = s.plan.overrun ∧ (s.round).plan.kept = s.plan.kept ∧
    (s.round).plan.setSeq = s.plan.setSeq ∧ (s.round).plan.pages = s.plan.pages ∧
    (s.round).plan.pageAge = s.plan.pageAge ∧ (s.round).plan.writing = s.plan.writing ∧
    (s.round).plan.latest = s.plan.latest ∧ (s.round).sup.state = s.sup.state ∧
    (s.round).sup.waiting = s.sup.waiting ∧ (s.round).sup.mainNeg = s.sup.mainNeg ∧
    (s.round).sup.precharge = s.sup.precharge ∧ (s.round).sup.mainPos = s.sup.mainPos ∧
    (s.round).sup.inrush = s.sup.inrush ∧ (s.round).sup.close = s.sup.close ∧
    (s.round).sup.settleAt = s.sup.settleAt ∧ (s.round).sup.opening = s.sup.opening ∧
    (s.round).sup.weld = s.sup.weld ∧ (s.round).sup.clear = s.sup.clear ∧ (s.round).sup.deferral = s.sup.deferral ∧
    (s.round).sup.hardDue = s.sup.hardDue ∧ (s.round).sup.faultedSince = s.sup.faultedSince ∧
    (s.round).sup.lossHeld = s.sup.lossHeld ∧ (s.round).sup.lossDue = s.sup.lossDue ∧
    (s.round).sup.once = s.sup.once ∧ (s.round).ev.age = s.ev.age ∧ (s.round).ev.next = s.ev.next ∧
    (s.round).power.snapOutcome = s.power.snapOutcome ∧ (s.round).power.wakeTable = s.power.wakeTable ∧
    (s.round).power.lastReset = s.power.lastReset ∧ (s.round).power.resetCount = s.power.resetCount ∧
    (s.round).store.nv = s.store.nv ∧ (s.round).store.work = s.store.work ∧
    (s.round).store.running = s.store.running ∧ (s.round).store.startUp = s.store.startUp ∧
    (s.round).store.active = s.store.active ∧ (s.round).store.activeBank = s.store.activeBank ∧
    (s.round).store.activeVersion = s.store.activeVersion ∧ (s.round).store.clampCount = s.store.clampCount ∧
    (s.round).store.outcome = s.store.outcome ∧ (s.round).store.faultCause = s.store.faultCause ∧
    (s.round).store.faultItem = s.store.faultItem ∧ (s.round).store.faultCount = s.store.faultCount ∧
    (s.round).store.lost = s.store.lost ∧ (s.round).store.taken = s.store.taken ∧
    (s.round).store.inForce = s.store.inForce ∧ (s.round).store.rangeClamps = s.store.rangeClamps ∧
    (s.round).store.hardClamps = s.store.hardClamps ∧ (s.round).store.keySlip = s.store.keySlip ∧
    (s.round).upd.header = s.upd.header ∧ (s.round).upd.expected = s.upd.expected ∧
    (s.round).upd.lastAcc = s.upd.lastAcc ∧ (s.round).upd.runCrc = s.upd.runCrc ∧
    (s.round).upd.waiting = s.upd.waiting ∧ (s.round).upd.acc = s.upd.acc ∧ (s.round).upd.dup = s.upd.dup ∧
    (s.round).upd.commitReached = s.upd.commitReached ∧ (s.round).upd.bankWritten = s.upd.bankWritten ∧
    (s.round).upd.watches = s.upd.watches ∧ (s.round).upd.checkAt = s.upd.checkAt ∧ (s.round).free = s.free ∧
    (s.round).pending = s.pending := by
  simp only [State.round]; (repeat' split) <;> (first | rfl | simp)

/-- `round` keeps the canonical form of the memory. -/
@[simp] theorem round_wf (s : State) (hw : s.mem.wf = true) :
    (s.round).mem.wf = true := by
  simp only [State.round]; (repeat' split) <;> first | exact hw | simp (maxDischargeDepth := 20) [hw, store_wf]

/-- What `settle` leaves alone. -/
@[simp] theorem settle_frame (s : State) :
    (s.settle).pins = s.pins ∧ (s.settle).port.notes = s.port.notes ∧ (s.settle).port.fault = s.port.fault ∧
    (s.settle).port.faultCount = s.port.faultCount ∧ (s.settle).port.tables = s.port.tables ∧
    (s.settle).port.lastTable = s.port.lastTable ∧ (s.settle).attn.enables = s.attn.enables ∧
    (s.settle).attn.levels = s.attn.levels ∧ (s.settle).attn.mask = s.attn.mask ∧
    (s.settle).chain.wasDown = s.chain.wasDown ∧ (s.settle).chain.downSince = s.chain.downSince ∧
    (s.settle).chain.errs = s.chain.errs ∧ (s.settle).chain.suspectSince = s.chain.suspectSince ∧
    (s.settle).chain.periodStart = s.chain.periodStart ∧ (s.settle).chain.periodErrs = s.chain.periodErrs ∧
    (s.settle).chain.survey = s.chain.survey ∧ (s.settle).chain.present = s.chain.present ∧
    (s.settle).chain.configured = s.chain.configured ∧ (s.settle).chain.breakLoc = s.chain.breakLoc ∧
    (s.settle).chain.lastSent = s.chain.lastSent ∧ (s.settle).chain.wakeAfterSleep = s.chain.wakeAfterSleep ∧
    (s.settle).chain.wake = s.chain.wake ∧ (s.settle).chain.resetTone = s.chain.resetTone ∧
    (s.settle).chain.firstUp = s.chain.firstUp ∧ (s.settle).chain.surveySlip = s.chain.surveySlip ∧
    (s.settle).chain.returning = s.chain.returning ∧ (s.settle).conv.part = s.conv.part ∧
    (s.settle).conv.restored = s.conv.restored ∧ (s.settle).plan.plans = s.plan.plans ∧
    (s.settle).plan.inForce = s.plan.inForce ∧ (s.settle).plan.dueDone = s.plan.dueDone ∧
    (s.settle).plan.overrun = s.plan.overrun ∧ (s.settle).plan.kept = s.plan.kept ∧
    (s.settle).plan.setSeq = s.plan.setSeq ∧ (s.settle).plan.pages = s.plan.pages ∧
    (s.settle).plan.pageAge = s.plan.pageAge ∧ (s.settle).plan.writing = s.plan.writing ∧
    (s.settle).plan.latest = s.plan.latest ∧ (s.settle).sup.state = s.sup.state ∧
    (s.settle).sup.waiting = s.sup.waiting ∧ (s.settle).sup.mainNeg = s.sup.mainNeg ∧
    (s.settle).sup.precharge = s.sup.precharge ∧ (s.settle).sup.mainPos = s.sup.mainPos ∧
    (s.settle).sup.inrush = s.sup.inrush ∧ (s.settle).sup.close = s.sup.close ∧
    (s.settle).sup.settleAt = s.sup.settleAt ∧ (s.settle).sup.opening = s.sup.opening ∧
    (s.settle).sup.weld = s.sup.weld ∧ (s.settle).sup.clear = s.sup.clear ∧
    (s.settle).sup.deferral = s.sup.deferral ∧ (s.settle).sup.hardDue = s.sup.hardDue ∧
    (s.settle).sup.faultedSince = s.sup.faultedSince ∧ (s.settle).sup.lossHeld = s.sup.lossHeld ∧
    (s.settle).sup.lossDue = s.sup.lossDue ∧ (s.settle).sup.once = s.sup.once ∧ (s.settle).ev.age = s.ev.age ∧
    (s.settle).ev.next = s.ev.next ∧ (s.settle).power.snapOutcome = s.power.snapOutcome ∧
    (s.settle).power.wakeTable = s.power.wakeTable ∧ (s.settle).power.lastReset = s.power.lastReset ∧
    (s.settle).power.resetCount = s.power.resetCount ∧ (s.settle).store.nv = s.store.nv ∧
    (s.settle).store.work = s.store.work ∧ (s.settle).store.running = s.store.running ∧
    (s.settle).store.startUp = s.store.startUp ∧ (s.settle).store.active = s.store.active ∧
    (s.settle).store.activeBank = s.store.activeBank ∧ (s.settle).store.activeVersion = s.store.activeVersion ∧
    (s.settle).store.clampCount = s.store.clampCount ∧ (s.settle).store.outcome = s.store.outcome ∧
    (s.settle).store.faultCause = s.store.faultCause ∧ (s.settle).store.faultItem = s.store.faultItem ∧
    (s.settle).store.faultCount = s.store.faultCount ∧ (s.settle).store.lost = s.store.lost ∧
    (s.settle).store.taken = s.store.taken ∧ (s.settle).store.inForce = s.store.inForce ∧
    (s.settle).store.rangeClamps = s.store.rangeClamps ∧ (s.settle).store.hardClamps = s.store.hardClamps ∧
    (s.settle).store.keySlip = s.store.keySlip ∧ (s.settle).upd.header = s.upd.header ∧
    (s.settle).upd.expected = s.upd.expected ∧ (s.settle).upd.lastAcc = s.upd.lastAcc ∧
    (s.settle).upd.runCrc = s.upd.runCrc ∧ (s.settle).upd.waiting = s.upd.waiting ∧ (s.settle).upd.acc = s.upd.acc ∧
    (s.settle).upd.dup = s.upd.dup ∧ (s.settle).upd.commitReached = s.upd.commitReached ∧
    (s.settle).upd.bankWritten = s.upd.bankWritten ∧ (s.settle).upd.watches = s.upd.watches ∧
    (s.settle).upd.checkAt = s.upd.checkAt ∧ (s.settle).free = s.free ∧ (s.settle).pending = s.pending := by
  simp only [State.settle, round_frame, and_self]

/-- `settle` keeps the canonical form of the memory. -/
@[simp] theorem settle_wf (s : State) (hw : s.mem.wf = true) :
    (s.settle).mem.wf = true := by
  exact round_wf _ (round_wf _ (round_wf _ (round_wf _ hw)))

/-- What `trackFaulted` leaves alone. -/
@[simp] theorem trackFaulted_frame (o n : State) :
    (State.trackFaulted o n).mem = n.mem ∧ (State.trackFaulted o n).pins = n.pins ∧
    (State.trackFaulted o n).port = n.port ∧ (State.trackFaulted o n).attn = n.attn ∧
    (State.trackFaulted o n).chain = n.chain ∧ (State.trackFaulted o n).conv = n.conv ∧
    (State.trackFaulted o n).plan = n.plan ∧ (State.trackFaulted o n).sup.state = n.sup.state ∧
    (State.trackFaulted o n).sup.waiting = n.sup.waiting ∧ (State.trackFaulted o n).sup.mainNeg = n.sup.mainNeg ∧
    (State.trackFaulted o n).sup.precharge = n.sup.precharge ∧ (State.trackFaulted o n).sup.mainPos = n.sup.mainPos ∧
    (State.trackFaulted o n).sup.inrush = n.sup.inrush ∧ (State.trackFaulted o n).sup.lowSupply = n.sup.lowSupply ∧
    (State.trackFaulted o n).sup.close = n.sup.close ∧ (State.trackFaulted o n).sup.settleAt = n.sup.settleAt ∧
    (State.trackFaulted o n).sup.opening = n.sup.opening ∧ (State.trackFaulted o n).sup.weld = n.sup.weld ∧
    (State.trackFaulted o n).sup.clear = n.sup.clear ∧ (State.trackFaulted o n).sup.deferral = n.sup.deferral ∧
    (State.trackFaulted o n).sup.hardRun = n.sup.hardRun ∧ (State.trackFaulted o n).sup.hardFell = n.sup.hardFell ∧
    (State.trackFaulted o n).sup.hardDue = n.sup.hardDue ∧ (State.trackFaulted o n).sup.lossHeld = n.sup.lossHeld ∧
    (State.trackFaulted o n).sup.lossDue = n.sup.lossDue ∧ (State.trackFaulted o n).sup.silence = n.sup.silence ∧
    (State.trackFaulted o n).sup.warn = n.sup.warn ∧ (State.trackFaulted o n).sup.lapsed = n.sup.lapsed ∧
    (State.trackFaulted o n).sup.once = n.sup.once ∧ (State.trackFaulted o n).ev = n.ev ∧
    (State.trackFaulted o n).power = n.power ∧ (State.trackFaulted o n).store = n.store ∧
    (State.trackFaulted o n).upd = n.upd ∧ (State.trackFaulted o n).free = n.free ∧
    (State.trackFaulted o n).pending = n.pending := by
  simp only [State.trackFaulted]; (repeat' split) <;> (first | rfl | simp)

/-- What `markCaptureSurge` leaves alone. -/
@[simp] theorem markCaptureSurge_frame (s : State) :
    (s.markCaptureSurge).mem = s.mem ∧ (s.markCaptureSurge).pins = s.pins ∧ (s.markCaptureSurge).port = s.port ∧
    (s.markCaptureSurge).attn = s.attn ∧ (s.markCaptureSurge).chain = s.chain ∧ (s.markCaptureSurge).conv = s.conv ∧
    (s.markCaptureSurge).plan.plans = s.plan.plans ∧ (s.markCaptureSurge).plan.inForce = s.plan.inForce ∧
    (s.markCaptureSurge).plan.dueDone = s.plan.dueDone ∧ (s.markCaptureSurge).plan.overrun = s.plan.overrun ∧
    (s.markCaptureSurge).plan.burst = s.plan.burst ∧ (s.markCaptureSurge).plan.kept = s.plan.kept ∧
    (s.markCaptureSurge).plan.high = s.plan.high ∧ (s.markCaptureSurge).plan.low = s.plan.low ∧
    (s.markCaptureSurge).plan.temp = s.plan.temp ∧ (s.markCaptureSurge).plan.implausible = s.plan.implausible ∧
    (s.markCaptureSurge).plan.fresh = s.plan.fresh ∧ (s.markCaptureSurge).plan.setSeq = s.plan.setSeq ∧
    (s.markCaptureSurge).plan.pages = s.plan.pages ∧ (s.markCaptureSurge).plan.pageAge = s.plan.pageAge ∧
    (s.markCaptureSurge).plan.writing = s.plan.writing ∧ (s.markCaptureSurge).plan.latest = s.plan.latest ∧
    (s.markCaptureSurge).plan.quiet = s.plan.quiet ∧ (s.markCaptureSurge).plan.patrolReport = s.plan.patrolReport ∧
    (s.markCaptureSurge).sup = s.sup ∧ (s.markCaptureSurge).ev = s.ev ∧ (s.markCaptureSurge).power = s.power ∧
    (s.markCaptureSurge).store = s.store ∧ (s.markCaptureSurge).upd = s.upd ∧ (s.markCaptureSurge).free = s.free ∧
    (s.markCaptureSurge).pending = s.pending := by
  simp only [State.markCaptureSurge]; (repeat' split) <;> (first | rfl | simp)

/-- What `finish` leaves alone. -/
@[simp] theorem finish_frame (o n : State) :
    (State.finish o n).pins = n.pins ∧ (State.finish o n).port = n.port ∧ (State.finish o n).attn = n.attn ∧
    (State.finish o n).chain = n.chain ∧ (State.finish o n).conv = n.conv ∧
    (State.finish o n).plan.plans = n.plan.plans ∧ (State.finish o n).plan.inForce = n.plan.inForce ∧
    (State.finish o n).plan.dueDone = n.plan.dueDone ∧ (State.finish o n).plan.overrun = n.plan.overrun ∧
    (State.finish o n).plan.burst = n.plan.burst ∧ (State.finish o n).plan.kept = n.plan.kept ∧
    (State.finish o n).plan.high = n.plan.high ∧ (State.finish o n).plan.low = n.plan.low ∧
    (State.finish o n).plan.temp = n.plan.temp ∧ (State.finish o n).plan.implausible = n.plan.implausible ∧
    (State.finish o n).plan.fresh = n.plan.fresh ∧ (State.finish o n).plan.setSeq = n.plan.setSeq ∧
    (State.finish o n).plan.pages = n.plan.pages ∧ (State.finish o n).plan.pageAge = n.plan.pageAge ∧
    (State.finish o n).plan.writing = n.plan.writing ∧ (State.finish o n).plan.latest = n.plan.latest ∧
    (State.finish o n).plan.quiet = n.plan.quiet ∧ (State.finish o n).plan.patrolReport = n.plan.patrolReport ∧
    (State.finish o n).sup.state = n.sup.state ∧ (State.finish o n).sup.waiting = n.sup.waiting ∧
    (State.finish o n).sup.mainNeg = n.sup.mainNeg ∧ (State.finish o n).sup.precharge = n.sup.precharge ∧
    (State.finish o n).sup.mainPos = n.sup.mainPos ∧ (State.finish o n).sup.inrush = n.sup.inrush ∧
    (State.finish o n).sup.lowSupply = n.sup.lowSupply ∧ (State.finish o n).sup.close = n.sup.close ∧
    (State.finish o n).sup.settleAt = n.sup.settleAt ∧ (State.finish o n).sup.opening = n.sup.opening ∧
    (State.finish o n).sup.weld = n.sup.weld ∧ (State.finish o n).sup.clear = n.sup.clear ∧
    (State.finish o n).sup.deferral = n.sup.deferral ∧ (State.finish o n).sup.hardRun = n.sup.hardRun ∧
    (State.finish o n).sup.hardFell = n.sup.hardFell ∧ (State.finish o n).sup.hardDue = n.sup.hardDue ∧
    (State.finish o n).sup.lossHeld = n.sup.lossHeld ∧ (State.finish o n).sup.lossDue = n.sup.lossDue ∧
    (State.finish o n).sup.silence = n.sup.silence ∧ (State.finish o n).sup.warn = n.sup.warn ∧
    (State.finish o n).sup.lapsed = n.sup.lapsed ∧ (State.finish o n).sup.once = n.sup.once ∧
    (State.finish o n).ev.age = n.ev.age ∧ (State.finish o n).ev.next = n.ev.next ∧
    (State.finish o n).ev.filling = n.ev.filling ∧
    (State.finish o n).power = n.power ∧ (State.finish o n).store = n.store ∧ (State.finish o n).upd = n.upd ∧
    (State.finish o n).free = n.free ∧ (State.finish o n).pending = n.pending := by
  simp only [State.finish]; (repeat' split) <;> (first | rfl | simp)

/-- `finish` keeps the canonical form of the memory. -/
@[simp] theorem finish_wf (o n : State) (hw : n.mem.wf = true) :
    (State.finish o n).mem.wf = true := by
  simp only [State.finish]; (repeat' split) <;> first | exact hw | simp (maxDischargeDepth := 20) [hw, store_wf]

end Sys2Proof.Machine
end

