-- ==== Sys2Proof/Laws/EffectsSteps.lean ====
section
/-! SUPPORT. What the takings of slips and notes and the steps of each block leave alone, one lemma for each; each keeps the canonical form of the memory. -/

set_option linter.all false

namespace Sys2Proof.Machine

/-! ### The effects of a built set before its publication -/

@[simp] theorem trust_frame (p : Planner) (x : SampleSet) :
    (p.trust x).captures = p.captures ∧ (p.trust x).pages = p.pages ∧ (p.trust x).pageAge = p.pageAge ∧
    (p.trust x).writing = p.writing ∧ (p.trust x).setSeq = p.setSeq ∧ (p.trust x).plans = p.plans ∧
    (p.trust x).inForce = p.inForce ∧ (p.trust x).dueDone = p.dueDone ∧ (p.trust x).burst = p.burst ∧
    (p.trust x).kept = p.kept ∧ (p.trust x).latest = p.latest ∧ (p.trust x).quiet = p.quiet ∧
    (p.trust x).patrolReport = p.patrolReport := by
  unfold Planner.trust; (repeat' split) <;> simp

/-- What `actOnSet` leaves alone. -/
@[simp] theorem actOnSet_frame (s : State) (x : SampleSet) :
    (s.actOnSet x).1.pins = s.pins ∧ (s.actOnSet x).1.port = s.port ∧
    (s.actOnSet x).1.attn.enables = s.attn.enables ∧ (s.actOnSet x).1.attn.levels = s.attn.levels ∧
    (s.actOnSet x).1.attn.mask = s.attn.mask ∧ (s.actOnSet x).1.chain = s.chain ∧
    (s.actOnSet x).1.conv = s.conv ∧ (s.actOnSet x).1.plan.captures = s.plan.captures ∧
    (s.actOnSet x).1.plan.pages = s.plan.pages ∧ (s.actOnSet x).1.plan.pageAge = s.plan.pageAge ∧
    (s.actOnSet x).1.plan.writing = s.plan.writing ∧ (s.actOnSet x).1.plan.plans = s.plan.plans ∧
    (s.actOnSet x).1.plan.inForce = s.plan.inForce ∧ (s.actOnSet x).1.plan.dueDone = s.plan.dueDone ∧
    (s.actOnSet x).1.plan.burst = s.plan.burst ∧ (s.actOnSet x).1.plan.kept = s.plan.kept ∧
    (s.actOnSet x).1.plan.latest = s.plan.latest ∧ (s.actOnSet x).1.plan.quiet = s.plan.quiet ∧
    (s.actOnSet x).1.plan.patrolReport = s.plan.patrolReport ∧ (s.actOnSet x).1.sup = s.sup ∧
    (s.actOnSet x).1.ev = s.ev ∧ (s.actOnSet x).1.power = s.power ∧ (s.actOnSet x).1.store = s.store ∧
    (s.actOnSet x).1.upd = s.upd ∧ (s.actOnSet x).1.free = s.free ∧ (s.actOnSet x).1.pending = s.pending := by
  simp only [State.actOnSet, Planner.breach]
  (repeat' split) <;> simp

/-- `actOnSet` keeps the canonical form of the memory. -/
@[simp] theorem actOnSet_wf (s : State) (x : SampleSet) (hw : s.mem.wf = true) :
    (s.actOnSet x).1.mem.wf = true := by
  simp only [State.actOnSet]
  (repeat' split) <;> simp (maxDischargeDepth := 20) [hw]


/-- What `takeClose` leaves alone. -/
@[simp] theorem takeClose_frame (s : State) (slot : Nat) :
    (s.takeClose slot).pins = s.pins ∧ (s.takeClose slot).port.notes = s.port.notes ∧
    (s.takeClose slot).port.fault = s.port.fault ∧ (s.takeClose slot).port.faultCount = s.port.faultCount ∧
    (s.takeClose slot).port.tables = s.port.tables ∧ (s.takeClose slot).port.lastTable = s.port.lastTable ∧
    (s.takeClose slot).attn.enables = s.attn.enables ∧ (s.takeClose slot).attn.levels = s.attn.levels ∧
    (s.takeClose slot).attn.mask = s.attn.mask ∧ (s.takeClose slot).chain.state = s.chain.state ∧
    (s.takeClose slot).chain.origin = s.chain.origin ∧ (s.takeClose slot).chain.wasDown = s.chain.wasDown ∧
    (s.takeClose slot).chain.downSince = s.chain.downSince ∧ (s.takeClose slot).chain.errs = s.chain.errs ∧
    (s.takeClose slot).chain.suspectSince = s.chain.suspectSince ∧
    (s.takeClose slot).chain.periodStart = s.chain.periodStart ∧
    (s.takeClose slot).chain.periodErrs = s.chain.periodErrs ∧ (s.takeClose slot).chain.capTag = s.chain.capTag ∧
    (s.takeClose slot).chain.exTag = s.chain.exTag ∧ (s.takeClose slot).chain.survey = s.chain.survey ∧
    (s.takeClose slot).chain.present = s.chain.present ∧ (s.takeClose slot).chain.configured = s.chain.configured ∧
    (s.takeClose slot).chain.breakLoc = s.chain.breakLoc ∧ (s.takeClose slot).chain.map = s.chain.map ∧
    (s.takeClose slot).chain.hold = s.chain.hold ∧ (s.takeClose slot).chain.line = s.chain.line ∧
    (s.takeClose slot).chain.lastSent = s.chain.lastSent ∧ (s.takeClose slot).chain.sleepCmd = s.chain.sleepCmd ∧
    (s.takeClose slot).chain.wakeAfterSleep = s.chain.wakeAfterSleep ∧ (s.takeClose slot).chain.wake = s.chain.wake ∧
    (s.takeClose slot).chain.resetTone = s.chain.resetTone ∧
    (s.takeClose slot).chain.surveyTimer = s.chain.surveyTimer ∧ (s.takeClose slot).chain.firstUp = s.chain.firstUp ∧
    (s.takeClose slot).chain.surveySlip = s.chain.surveySlip ∧
    (s.takeClose slot).chain.returning = s.chain.returning ∧ (s.takeClose slot).conv = s.conv ∧
    (s.takeClose slot).plan = s.plan ∧ (s.takeClose slot).sup.waiting = s.sup.waiting ∧
    (s.takeClose slot).sup.lowSupply = s.sup.lowSupply ∧ (s.takeClose slot).sup.settleAt = s.sup.settleAt ∧
    (s.takeClose slot).sup.weld = s.sup.weld ∧ (s.takeClose slot).sup.clear = s.sup.clear ∧
    (s.takeClose slot).sup.hardRun = s.sup.hardRun ∧ (s.takeClose slot).sup.hardFell = s.sup.hardFell ∧
    (s.takeClose slot).sup.hardDue = s.sup.hardDue ∧ (s.takeClose slot).sup.faultedSince = s.sup.faultedSince ∧
    (s.takeClose slot).sup.silence = s.sup.silence ∧ (s.takeClose slot).sup.warn = s.sup.warn ∧
    (s.takeClose slot).sup.lapsed = s.sup.lapsed ∧ (s.takeClose slot).sup.once = s.sup.once ∧
    (s.takeClose slot).ev.age = s.ev.age ∧ (s.takeClose slot).ev.next = s.ev.next ∧
    (s.takeClose slot).ev.filling = s.ev.filling ∧ (s.takeClose slot).power = s.power ∧
    (s.takeClose slot).store.nv = s.store.nv ∧ (s.takeClose slot).store.work = s.store.work ∧
    (s.takeClose slot).store.running = s.store.running ∧ (s.takeClose slot).store.startUp = s.store.startUp ∧
    (s.takeClose slot).store.active = s.store.active ∧ (s.takeClose slot).store.activeBank = s.store.activeBank ∧
    (s.takeClose slot).store.activeVersion = s.store.activeVersion ∧
    (s.takeClose slot).store.clampCount = s.store.clampCount ∧ (s.takeClose slot).store.outcome = s.store.outcome ∧
    (s.takeClose slot).store.faultCause = s.store.faultCause ∧
    (s.takeClose slot).store.faultItem = s.store.faultItem ∧
    (s.takeClose slot).store.faultCount = s.store.faultCount ∧ (s.takeClose slot).store.lost = s.store.lost ∧
    (s.takeClose slot).store.taken = s.store.taken ∧ (s.takeClose slot).store.inForce = s.store.inForce ∧
    (s.takeClose slot).store.rangeClamps = s.store.rangeClamps ∧
    (s.takeClose slot).store.hardClamps = s.store.hardClamps ∧ (s.takeClose slot).store.keySlip = s.store.keySlip ∧
    (s.takeClose slot).upd = s.upd ∧ (s.takeClose slot).pending = s.pending := by
  simp only [State.takeClose]; (repeat' split) <;> (first | rfl | simp)

/-- `takeClose` keeps the canonical form of the memory. -/
@[simp] theorem takeClose_wf (s : State) (slot : Nat) (hw : s.mem.wf = true) :
    (s.takeClose slot).mem.wf = true := by
  simp only [State.takeClose]; (repeat' split) <;> first | exact hw | simp (maxDischargeDepth := 20) [hw, store_wf]

/-- What `takeOpen` leaves alone. -/
@[simp] theorem takeOpen_frame (s : State) (slot : Nat) :
    (s.takeOpen slot).pins = s.pins ∧ (s.takeOpen slot).port.notes = s.port.notes ∧
    (s.takeOpen slot).port.fault = s.port.fault ∧ (s.takeOpen slot).port.faultCount = s.port.faultCount ∧
    (s.takeOpen slot).port.tables = s.port.tables ∧ (s.takeOpen slot).port.lastTable = s.port.lastTable ∧
    (s.takeOpen slot).attn.enables = s.attn.enables ∧ (s.takeOpen slot).attn.levels = s.attn.levels ∧
    (s.takeOpen slot).attn.mask = s.attn.mask ∧ (s.takeOpen slot).chain.state = s.chain.state ∧
    (s.takeOpen slot).chain.origin = s.chain.origin ∧ (s.takeOpen slot).chain.wasDown = s.chain.wasDown ∧
    (s.takeOpen slot).chain.downSince = s.chain.downSince ∧ (s.takeOpen slot).chain.errs = s.chain.errs ∧
    (s.takeOpen slot).chain.suspectSince = s.chain.suspectSince ∧
    (s.takeOpen slot).chain.periodStart = s.chain.periodStart ∧
    (s.takeOpen slot).chain.periodErrs = s.chain.periodErrs ∧ (s.takeOpen slot).chain.capTag = s.chain.capTag ∧
    (s.takeOpen slot).chain.exTag = s.chain.exTag ∧ (s.takeOpen slot).chain.survey = s.chain.survey ∧
    (s.takeOpen slot).chain.present = s.chain.present ∧ (s.takeOpen slot).chain.configured = s.chain.configured ∧
    (s.takeOpen slot).chain.breakLoc = s.chain.breakLoc ∧ (s.takeOpen slot).chain.map = s.chain.map ∧
    (s.takeOpen slot).chain.hold = s.chain.hold ∧ (s.takeOpen slot).chain.line = s.chain.line ∧
    (s.takeOpen slot).chain.lastSent = s.chain.lastSent ∧ (s.takeOpen slot).chain.sleepCmd = s.chain.sleepCmd ∧
    (s.takeOpen slot).chain.wakeAfterSleep = s.chain.wakeAfterSleep ∧ (s.takeOpen slot).chain.wake = s.chain.wake ∧
    (s.takeOpen slot).chain.resetTone = s.chain.resetTone ∧
    (s.takeOpen slot).chain.surveyTimer = s.chain.surveyTimer ∧ (s.takeOpen slot).chain.firstUp = s.chain.firstUp ∧
    (s.takeOpen slot).chain.surveySlip = s.chain.surveySlip ∧ (s.takeOpen slot).chain.returning = s.chain.returning ∧
    (s.takeOpen slot).conv = s.conv ∧ (s.takeOpen slot).plan = s.plan ∧
    (s.takeOpen slot).sup.waiting = s.sup.waiting ∧ (s.takeOpen slot).sup.mainNeg = s.sup.mainNeg ∧
    (s.takeOpen slot).sup.inrush = s.sup.inrush ∧ (s.takeOpen slot).sup.lowSupply = s.sup.lowSupply ∧
    (s.takeOpen slot).sup.settleAt = s.sup.settleAt ∧ (s.takeOpen slot).sup.weld = s.sup.weld ∧
    (s.takeOpen slot).sup.clear = s.sup.clear ∧ (s.takeOpen slot).sup.hardRun = s.sup.hardRun ∧
    (s.takeOpen slot).sup.hardFell = s.sup.hardFell ∧ (s.takeOpen slot).sup.hardDue = s.sup.hardDue ∧
    (s.takeOpen slot).sup.faultedSince = s.sup.faultedSince ∧ (s.takeOpen slot).sup.lossDue = s.sup.lossDue ∧
    (s.takeOpen slot).sup.silence = s.sup.silence ∧ (s.takeOpen slot).sup.warn = s.sup.warn ∧
    (s.takeOpen slot).sup.lapsed = s.sup.lapsed ∧ (s.takeOpen slot).sup.once = s.sup.once ∧
    (s.takeOpen slot).ev.slots = s.ev.slots ∧ (s.takeOpen slot).ev.age = s.ev.age ∧
    (s.takeOpen slot).ev.next = s.ev.next ∧ (s.takeOpen slot).ev.filling = s.ev.filling ∧
    (s.takeOpen slot).power = s.power ∧ (s.takeOpen slot).store.nv = s.store.nv ∧
    (s.takeOpen slot).store.work = s.store.work ∧ (s.takeOpen slot).store.running = s.store.running ∧
    (s.takeOpen slot).store.startUp = s.store.startUp ∧ (s.takeOpen slot).store.active = s.store.active ∧
    (s.takeOpen slot).store.activeBank = s.store.activeBank ∧
    (s.takeOpen slot).store.activeVersion = s.store.activeVersion ∧
    (s.takeOpen slot).store.clampCount = s.store.clampCount ∧ (s.takeOpen slot).store.outcome = s.store.outcome ∧
    (s.takeOpen slot).store.faultCause = s.store.faultCause ∧ (s.takeOpen slot).store.faultItem = s.store.faultItem ∧
    (s.takeOpen slot).store.faultCount = s.store.faultCount ∧ (s.takeOpen slot).store.lost = s.store.lost ∧
    (s.takeOpen slot).store.taken = s.store.taken ∧ (s.takeOpen slot).store.inForce = s.store.inForce ∧
    (s.takeOpen slot).store.rangeClamps = s.store.rangeClamps ∧
    (s.takeOpen slot).store.hardClamps = s.store.hardClamps ∧ (s.takeOpen slot).store.keySlip = s.store.keySlip ∧
    (s.takeOpen slot).upd = s.upd ∧ (s.takeOpen slot).pending = s.pending := by
  simp only [State.takeOpen]; (repeat' split) <;> (first | rfl | simp)

/-- `takeOpen` keeps the canonical form of the memory. -/
@[simp] theorem takeOpen_wf (s : State) (slot : Nat) (hw : s.mem.wf = true) :
    (s.takeOpen slot).mem.wf = true := by
  simp only [State.takeOpen]; (repeat' split) <;> first | exact hw | simp (maxDischargeDepth := 20) [hw, store_wf]

/-- What `takeClear` leaves alone. -/
@[simp] theorem takeClear_frame (s : State) (slot : Nat) :
    (s.takeClear slot).pins = s.pins ∧ (s.takeClear slot).port.notes = s.port.notes ∧
    (s.takeClear slot).port.fault = s.port.fault ∧ (s.takeClear slot).port.faultCount = s.port.faultCount ∧
    (s.takeClear slot).port.tables = s.port.tables ∧ (s.takeClear slot).port.lastTable = s.port.lastTable ∧
    (s.takeClear slot).attn.enables = s.attn.enables ∧ (s.takeClear slot).attn.levels = s.attn.levels ∧
    (s.takeClear slot).attn.mask = s.attn.mask ∧ (s.takeClear slot).chain = s.chain ∧
    (s.takeClear slot).conv = s.conv ∧ (s.takeClear slot).plan = s.plan ∧
    (s.takeClear slot).sup.state = s.sup.state ∧ (s.takeClear slot).sup.waiting = s.sup.waiting ∧
    (s.takeClear slot).sup.mainNeg = s.sup.mainNeg ∧ (s.takeClear slot).sup.precharge = s.sup.precharge ∧
    (s.takeClear slot).sup.mainPos = s.sup.mainPos ∧ (s.takeClear slot).sup.inrush = s.sup.inrush ∧
    (s.takeClear slot).sup.lowSupply = s.sup.lowSupply ∧ (s.takeClear slot).sup.close = s.sup.close ∧
    (s.takeClear slot).sup.settleAt = s.sup.settleAt ∧ (s.takeClear slot).sup.opening = s.sup.opening ∧
    (s.takeClear slot).sup.deferral = s.sup.deferral ∧ (s.takeClear slot).sup.hardRun = s.sup.hardRun ∧
    (s.takeClear slot).sup.hardFell = s.sup.hardFell ∧ (s.takeClear slot).sup.hardDue = s.sup.hardDue ∧
    (s.takeClear slot).sup.faultedSince = s.sup.faultedSince ∧ (s.takeClear slot).sup.lossHeld = s.sup.lossHeld ∧
    (s.takeClear slot).sup.lossDue = s.sup.lossDue ∧ (s.takeClear slot).sup.silence = s.sup.silence ∧
    (s.takeClear slot).sup.warn = s.sup.warn ∧ (s.takeClear slot).sup.lapsed = s.sup.lapsed ∧
    (s.takeClear slot).sup.once = s.sup.once ∧ (s.takeClear slot).ev = s.ev ∧ (s.takeClear slot).power = s.power ∧
    (s.takeClear slot).store = s.store ∧ (s.takeClear slot).upd = s.upd ∧ (s.takeClear slot).free = s.free ∧
    (s.takeClear slot).pending = s.pending := by
  simp only [State.takeClear]; (repeat' split) <;> (first | rfl | simp)

/-- `takeClear` keeps the canonical form of the memory. -/
@[simp] theorem takeClear_wf (s : State) (slot : Nat) (hw : s.mem.wf = true) :
    (s.takeClear slot).mem.wf = true := by
  simp only [State.takeClear]; (repeat' split) <;> first | exact hw | simp (maxDischargeDepth := 20) [hw, store_wf]

/-- What `armSilence` leaves alone. -/
@[simp] theorem armSilence_frame (s : State) :
    (s.armSilence).pins = s.pins ∧ (s.armSilence).port.notes = s.port.notes ∧
    (s.armSilence).port.fault = s.port.fault ∧ (s.armSilence).port.faultCount = s.port.faultCount ∧
    (s.armSilence).port.tables = s.port.tables ∧ (s.armSilence).port.lastTable = s.port.lastTable ∧
    (s.armSilence).attn.enables = s.attn.enables ∧ (s.armSilence).attn.levels = s.attn.levels ∧
    (s.armSilence).attn.mask = s.attn.mask ∧ (s.armSilence).chain.state = s.chain.state ∧
    (s.armSilence).chain.origin = s.chain.origin ∧ (s.armSilence).chain.wasDown = s.chain.wasDown ∧
    (s.armSilence).chain.downSince = s.chain.downSince ∧ (s.armSilence).chain.errs = s.chain.errs ∧
    (s.armSilence).chain.suspectSince = s.chain.suspectSince ∧
    (s.armSilence).chain.periodStart = s.chain.periodStart ∧ (s.armSilence).chain.periodErrs = s.chain.periodErrs ∧
    (s.armSilence).chain.capTag = s.chain.capTag ∧ (s.armSilence).chain.exTag = s.chain.exTag ∧
    (s.armSilence).chain.survey = s.chain.survey ∧ (s.armSilence).chain.present = s.chain.present ∧
    (s.armSilence).chain.configured = s.chain.configured ∧ (s.armSilence).chain.breakLoc = s.chain.breakLoc ∧
    (s.armSilence).chain.map = s.chain.map ∧ (s.armSilence).chain.hold = s.chain.hold ∧
    (s.armSilence).chain.line = s.chain.line ∧ (s.armSilence).chain.lastSent = s.chain.lastSent ∧
    (s.armSilence).chain.sleepCmd = s.chain.sleepCmd ∧ (s.armSilence).chain.wakeAfterSleep = s.chain.wakeAfterSleep ∧
    (s.armSilence).chain.wake = s.chain.wake ∧ (s.armSilence).chain.resetTone = s.chain.resetTone ∧
    (s.armSilence).chain.surveyTimer = s.chain.surveyTimer ∧ (s.armSilence).chain.firstUp = s.chain.firstUp ∧
    (s.armSilence).chain.surveySlip = s.chain.surveySlip ∧ (s.armSilence).chain.returning = s.chain.returning ∧
    (s.armSilence).conv = s.conv ∧ (s.armSilence).plan = s.plan ∧ (s.armSilence).sup.waiting = s.sup.waiting ∧
    (s.armSilence).sup.mainNeg = s.sup.mainNeg ∧ (s.armSilence).sup.inrush = s.sup.inrush ∧
    (s.armSilence).sup.lowSupply = s.sup.lowSupply ∧ (s.armSilence).sup.settleAt = s.sup.settleAt ∧
    (s.armSilence).sup.weld = s.sup.weld ∧ (s.armSilence).sup.clear = s.sup.clear ∧
    (s.armSilence).sup.hardRun = s.sup.hardRun ∧ (s.armSilence).sup.hardFell = s.sup.hardFell ∧
    (s.armSilence).sup.hardDue = s.sup.hardDue ∧ (s.armSilence).sup.faultedSince = s.sup.faultedSince ∧
    (s.armSilence).sup.lossDue = s.sup.lossDue ∧ (s.armSilence).sup.once = s.sup.once ∧
    (s.armSilence).ev.age = s.ev.age ∧ (s.armSilence).ev.next = s.ev.next ∧ (s.armSilence).ev.filling = s.ev.filling ∧
    (s.armSilence).power = s.power ∧ (s.armSilence).store.nv = s.store.nv ∧ (s.armSilence).store.work = s.store.work ∧
    (s.armSilence).store.running = s.store.running ∧ (s.armSilence).store.startUp = s.store.startUp ∧
    (s.armSilence).store.active = s.store.active ∧ (s.armSilence).store.activeBank = s.store.activeBank ∧
    (s.armSilence).store.activeVersion = s.store.activeVersion ∧
    (s.armSilence).store.clampCount = s.store.clampCount ∧ (s.armSilence).store.outcome = s.store.outcome ∧
    (s.armSilence).store.faultCause = s.store.faultCause ∧ (s.armSilence).store.faultItem = s.store.faultItem ∧
    (s.armSilence).store.faultCount = s.store.faultCount ∧ (s.armSilence).store.lost = s.store.lost ∧
    (s.armSilence).store.taken = s.store.taken ∧ (s.armSilence).store.inForce = s.store.inForce ∧
    (s.armSilence).store.rangeClamps = s.store.rangeClamps ∧ (s.armSilence).store.hardClamps = s.store.hardClamps ∧
    (s.armSilence).store.keySlip = s.store.keySlip ∧ (s.armSilence).upd = s.upd ∧
    (s.armSilence).pending = s.pending := by
  simp only [State.armSilence]; (repeat' split) <;> (first | rfl | simp)

/-- `armSilence` keeps the canonical form of the memory. -/
@[simp] theorem armSilence_wf (s : State) (hw : s.mem.wf = true) :
    (s.armSilence).mem.wf = true := by
  simp only [State.armSilence]; (repeat' split) <;> first | exact hw | simp (maxDischargeDepth := 20) [hw, store_wf]

/-- What `takeSetOnce` leaves alone. -/
@[simp] theorem takeSetOnce_frame (s : State) (slot : Nat) (args : List Byte) :
    (s.takeSetOnce slot args).pins = s.pins ∧ (s.takeSetOnce slot args).port.notes = s.port.notes ∧
    (s.takeSetOnce slot args).port.fault = s.port.fault ∧
    (s.takeSetOnce slot args).port.faultCount = s.port.faultCount ∧
    (s.takeSetOnce slot args).port.tables = s.port.tables ∧
    (s.takeSetOnce slot args).port.lastTable = s.port.lastTable ∧
    (s.takeSetOnce slot args).attn.enables = s.attn.enables ∧ (s.takeSetOnce slot args).attn.levels = s.attn.levels ∧
    (s.takeSetOnce slot args).attn.mask = s.attn.mask ∧ (s.takeSetOnce slot args).chain.state = s.chain.state ∧
    (s.takeSetOnce slot args).chain.origin = s.chain.origin ∧
    (s.takeSetOnce slot args).chain.wasDown = s.chain.wasDown ∧
    (s.takeSetOnce slot args).chain.downSince = s.chain.downSince ∧
    (s.takeSetOnce slot args).chain.errs = s.chain.errs ∧
    (s.takeSetOnce slot args).chain.suspectSince = s.chain.suspectSince ∧
    (s.takeSetOnce slot args).chain.periodStart = s.chain.periodStart ∧
    (s.takeSetOnce slot args).chain.periodErrs = s.chain.periodErrs ∧
    (s.takeSetOnce slot args).chain.capTag = s.chain.capTag ∧ (s.takeSetOnce slot args).chain.exTag = s.chain.exTag ∧
    (s.takeSetOnce slot args).chain.survey = s.chain.survey ∧
    (s.takeSetOnce slot args).chain.present = s.chain.present ∧
    (s.takeSetOnce slot args).chain.configured = s.chain.configured ∧
    (s.takeSetOnce slot args).chain.breakLoc = s.chain.breakLoc ∧ (s.takeSetOnce slot args).chain.map = s.chain.map ∧
    (s.takeSetOnce slot args).chain.hold = s.chain.hold ∧ (s.takeSetOnce slot args).chain.line = s.chain.line ∧
    (s.takeSetOnce slot args).chain.lastSent = s.chain.lastSent ∧
    (s.takeSetOnce slot args).chain.sleepCmd = s.chain.sleepCmd ∧
    (s.takeSetOnce slot args).chain.wakeAfterSleep = s.chain.wakeAfterSleep ∧
    (s.takeSetOnce slot args).chain.wake = s.chain.wake ∧
    (s.takeSetOnce slot args).chain.resetTone = s.chain.resetTone ∧
    (s.takeSetOnce slot args).chain.surveyTimer = s.chain.surveyTimer ∧
    (s.takeSetOnce slot args).chain.firstUp = s.chain.firstUp ∧
    (s.takeSetOnce slot args).chain.surveySlip = s.chain.surveySlip ∧
    (s.takeSetOnce slot args).chain.returning = s.chain.returning ∧ (s.takeSetOnce slot args).conv = s.conv ∧
    (s.takeSetOnce slot args).plan = s.plan ∧ (s.takeSetOnce slot args).sup.waiting = s.sup.waiting ∧
    (s.takeSetOnce slot args).sup.mainNeg = s.sup.mainNeg ∧ (s.takeSetOnce slot args).sup.inrush = s.sup.inrush ∧
    (s.takeSetOnce slot args).sup.lowSupply = s.sup.lowSupply ∧
    (s.takeSetOnce slot args).sup.settleAt = s.sup.settleAt ∧ (s.takeSetOnce slot args).sup.weld = s.sup.weld ∧
    (s.takeSetOnce slot args).sup.clear = s.sup.clear ∧ (s.takeSetOnce slot args).sup.hardRun = s.sup.hardRun ∧
    (s.takeSetOnce slot args).sup.hardFell = s.sup.hardFell ∧ (s.takeSetOnce slot args).sup.hardDue = s.sup.hardDue ∧
    (s.takeSetOnce slot args).sup.faultedSince = s.sup.faultedSince ∧
    (s.takeSetOnce slot args).sup.lossDue = s.sup.lossDue ∧ (s.takeSetOnce slot args).ev.age = s.ev.age ∧
    (s.takeSetOnce slot args).ev.next = s.ev.next ∧ (s.takeSetOnce slot args).ev.filling = s.ev.filling ∧
    (s.takeSetOnce slot args).power = s.power ∧ (s.takeSetOnce slot args).store.nv = s.store.nv ∧
    (s.takeSetOnce slot args).store.work = s.store.work ∧ (s.takeSetOnce slot args).store.running = s.store.running ∧
    (s.takeSetOnce slot args).store.startUp = s.store.startUp ∧
    (s.takeSetOnce slot args).store.active = s.store.active ∧
    (s.takeSetOnce slot args).store.activeBank = s.store.activeBank ∧
    (s.takeSetOnce slot args).store.activeVersion = s.store.activeVersion ∧
    (s.takeSetOnce slot args).store.clampCount = s.store.clampCount ∧
    (s.takeSetOnce slot args).store.outcome = s.store.outcome ∧
    (s.takeSetOnce slot args).store.faultCause = s.store.faultCause ∧
    (s.takeSetOnce slot args).store.faultItem = s.store.faultItem ∧
    (s.takeSetOnce slot args).store.faultCount = s.store.faultCount ∧
    (s.takeSetOnce slot args).store.lost = s.store.lost ∧ (s.takeSetOnce slot args).store.taken = s.store.taken ∧
    (s.takeSetOnce slot args).store.inForce = s.store.inForce ∧
    (s.takeSetOnce slot args).store.rangeClamps = s.store.rangeClamps ∧
    (s.takeSetOnce slot args).store.hardClamps = s.store.hardClamps ∧
    (s.takeSetOnce slot args).store.keySlip = s.store.keySlip ∧ (s.takeSetOnce slot args).upd = s.upd ∧
    (s.takeSetOnce slot args).pending = s.pending := by
  simp only [State.takeSetOnce]; (repeat' split) <;> (first | rfl | simp)

/-- `takeSetOnce` keeps the canonical form of the memory. -/
@[simp] theorem takeSetOnce_wf (s : State) (slot : Nat) (args : List Byte) (hw : s.mem.wf = true) :
    (s.takeSetOnce slot args).mem.wf = true := by
  simp only [State.takeSetOnce]; (repeat' split) <;> first | exact hw | simp (maxDischargeDepth := 20) [hw, store_wf]

/-- What `takeSleep` leaves alone. -/
@[simp] theorem takeSleep_frame (s : State) (slot : Nat) :
    (s.takeSleep slot).pins = s.pins ∧ (s.takeSleep slot).port.notes = s.port.notes ∧
    (s.takeSleep slot).port.fault = s.port.fault ∧ (s.takeSleep slot).port.faultCount = s.port.faultCount ∧
    (s.takeSleep slot).port.tables = s.port.tables ∧ (s.takeSleep slot).port.lastTable = s.port.lastTable ∧
    (s.takeSleep slot).attn.enables = s.attn.enables ∧ (s.takeSleep slot).attn.levels = s.attn.levels ∧
    (s.takeSleep slot).attn.mask = s.attn.mask ∧ (s.takeSleep slot).chain.state = s.chain.state ∧
    (s.takeSleep slot).chain.origin = s.chain.origin ∧ (s.takeSleep slot).chain.wasDown = s.chain.wasDown ∧
    (s.takeSleep slot).chain.downSince = s.chain.downSince ∧ (s.takeSleep slot).chain.errs = s.chain.errs ∧
    (s.takeSleep slot).chain.suspectSince = s.chain.suspectSince ∧
    (s.takeSleep slot).chain.periodStart = s.chain.periodStart ∧
    (s.takeSleep slot).chain.periodErrs = s.chain.periodErrs ∧ (s.takeSleep slot).chain.capTag = s.chain.capTag ∧
    (s.takeSleep slot).chain.exTag = s.chain.exTag ∧ (s.takeSleep slot).chain.survey = s.chain.survey ∧
    (s.takeSleep slot).chain.present = s.chain.present ∧ (s.takeSleep slot).chain.configured = s.chain.configured ∧
    (s.takeSleep slot).chain.breakLoc = s.chain.breakLoc ∧ (s.takeSleep slot).chain.map = s.chain.map ∧
    (s.takeSleep slot).chain.hold = s.chain.hold ∧ (s.takeSleep slot).chain.line = s.chain.line ∧
    (s.takeSleep slot).chain.lastSent = s.chain.lastSent ∧ (s.takeSleep slot).chain.sleepCmd = s.chain.sleepCmd ∧
    (s.takeSleep slot).chain.wakeAfterSleep = s.chain.wakeAfterSleep ∧ (s.takeSleep slot).chain.wake = s.chain.wake ∧
    (s.takeSleep slot).chain.resetTone = s.chain.resetTone ∧
    (s.takeSleep slot).chain.surveyTimer = s.chain.surveyTimer ∧ (s.takeSleep slot).chain.firstUp = s.chain.firstUp ∧
    (s.takeSleep slot).chain.surveySlip = s.chain.surveySlip ∧ (s.takeSleep slot).chain.balance = s.chain.balance ∧
    (s.takeSleep slot).chain.returning = s.chain.returning ∧ (s.takeSleep slot).conv = s.conv ∧
    (s.takeSleep slot).plan.plans = s.plan.plans ∧ (s.takeSleep slot).plan.inForce = s.plan.inForce ∧
    (s.takeSleep slot).plan.dueDone = s.plan.dueDone ∧ (s.takeSleep slot).plan.overrun = s.plan.overrun ∧
    (s.takeSleep slot).plan.burst = s.plan.burst ∧ (s.takeSleep slot).plan.kept = s.plan.kept ∧
    (s.takeSleep slot).plan.high = s.plan.high ∧ (s.takeSleep slot).plan.low = s.plan.low ∧
    (s.takeSleep slot).plan.temp = s.plan.temp ∧ (s.takeSleep slot).plan.implausible = s.plan.implausible ∧
    (s.takeSleep slot).plan.fresh = s.plan.fresh ∧ (s.takeSleep slot).plan.setSeq = s.plan.setSeq ∧
    (s.takeSleep slot).plan.pages = s.plan.pages ∧ (s.takeSleep slot).plan.pageAge = s.plan.pageAge ∧
    (s.takeSleep slot).plan.writing = s.plan.writing ∧ (s.takeSleep slot).plan.latest = s.plan.latest ∧
    (s.takeSleep slot).plan.patrolReport = s.plan.patrolReport ∧ (s.takeSleep slot).sup = s.sup ∧
    (s.takeSleep slot).ev = s.ev ∧ (s.takeSleep slot).power.wakeTable = s.power.wakeTable ∧
    (s.takeSleep slot).power.timer = s.power.timer ∧ (s.takeSleep slot).power.timerRunning = s.power.timerRunning ∧
    (s.takeSleep slot).power.compRun = s.power.compRun ∧ (s.takeSleep slot).power.compFired = s.power.compFired ∧
    (s.takeSleep slot).power.nextSlot = s.power.nextSlot ∧ (s.takeSleep slot).power.lastNumber = s.power.lastNumber ∧
    (s.takeSleep slot).power.estimate = s.power.estimate ∧ (s.takeSleep slot).power.lastWake = s.power.lastWake ∧
    (s.takeSleep slot).power.returning = s.power.returning ∧ (s.takeSleep slot).power.lastReset = s.power.lastReset ∧
    (s.takeSleep slot).power.resetCount = s.power.resetCount ∧ (s.takeSleep slot).power.wakeOut = s.power.wakeOut ∧
    (s.takeSleep slot).power.wakeOutAt = s.power.wakeOutAt ∧ (s.takeSleep slot).store = s.store ∧
    (s.takeSleep slot).upd = s.upd ∧ (s.takeSleep slot).free = s.free ∧ (s.takeSleep slot).pending = s.pending := by
  simp only [State.takeSleep]; (repeat' split) <;> (first | rfl | simp)

/-- `takeSleep` keeps the canonical form of the memory. -/
@[simp] theorem takeSleep_wf (s : State) (slot : Nat) (hw : s.mem.wf = true) :
    (s.takeSleep slot).mem.wf = true := by
  simp only [State.takeSleep]; (repeat' split) <;> first | exact hw | simp (maxDischargeDepth := 20) [hw, store_wf]

/-- What `takeSurvey` leaves alone. -/
@[simp] theorem takeSurvey_frame (s : State) (slot : Nat) :
    (s.takeSurvey slot).pins = s.pins ∧ (s.takeSurvey slot).port.notes = s.port.notes ∧
    (s.takeSurvey slot).port.fault = s.port.fault ∧ (s.takeSurvey slot).port.faultCount = s.port.faultCount ∧
    (s.takeSurvey slot).port.tables = s.port.tables ∧ (s.takeSurvey slot).port.lastTable = s.port.lastTable ∧
    (s.takeSurvey slot).attn.enables = s.attn.enables ∧ (s.takeSurvey slot).attn.levels = s.attn.levels ∧
    (s.takeSurvey slot).attn.mask = s.attn.mask ∧ (s.takeSurvey slot).chain.state = s.chain.state ∧
    (s.takeSurvey slot).chain.origin = s.chain.origin ∧ (s.takeSurvey slot).chain.wasDown = s.chain.wasDown ∧
    (s.takeSurvey slot).chain.downSince = s.chain.downSince ∧ (s.takeSurvey slot).chain.errs = s.chain.errs ∧
    (s.takeSurvey slot).chain.suspectSince = s.chain.suspectSince ∧
    (s.takeSurvey slot).chain.periodStart = s.chain.periodStart ∧
    (s.takeSurvey slot).chain.periodErrs = s.chain.periodErrs ∧ (s.takeSurvey slot).chain.capTag = s.chain.capTag ∧
    (s.takeSurvey slot).chain.exTag = s.chain.exTag ∧ (s.takeSurvey slot).chain.survey = s.chain.survey ∧
    (s.takeSurvey slot).chain.present = s.chain.present ∧ (s.takeSurvey slot).chain.configured = s.chain.configured ∧
    (s.takeSurvey slot).chain.breakLoc = s.chain.breakLoc ∧ (s.takeSurvey slot).chain.map = s.chain.map ∧
    (s.takeSurvey slot).chain.hold = s.chain.hold ∧ (s.takeSurvey slot).chain.line = s.chain.line ∧
    (s.takeSurvey slot).chain.lastSent = s.chain.lastSent ∧ (s.takeSurvey slot).chain.sleepCmd = s.chain.sleepCmd ∧
    (s.takeSurvey slot).chain.wakeAfterSleep = s.chain.wakeAfterSleep ∧
    (s.takeSurvey slot).chain.wake = s.chain.wake ∧ (s.takeSurvey slot).chain.resetTone = s.chain.resetTone ∧
    (s.takeSurvey slot).chain.surveyTimer = s.chain.surveyTimer ∧
    (s.takeSurvey slot).chain.firstUp = s.chain.firstUp ∧ (s.takeSurvey slot).chain.balance = s.chain.balance ∧
    (s.takeSurvey slot).chain.returning = s.chain.returning ∧ (s.takeSurvey slot).conv = s.conv ∧
    (s.takeSurvey slot).plan = s.plan ∧ (s.takeSurvey slot).sup = s.sup ∧ (s.takeSurvey slot).ev = s.ev ∧
    (s.takeSurvey slot).power = s.power ∧ (s.takeSurvey slot).store = s.store ∧ (s.takeSurvey slot).upd = s.upd ∧
    (s.takeSurvey slot).free = s.free ∧ (s.takeSurvey slot).pending = s.pending := by
  simp only [State.takeSurvey]; (repeat' split) <;> (first | rfl | simp)

/-- `takeSurvey` keeps the canonical form of the memory. -/
@[simp] theorem takeSurvey_wf (s : State) (slot : Nat) (hw : s.mem.wf = true) :
    (s.takeSurvey slot).mem.wf = true := by
  simp only [State.takeSurvey]; (repeat' split) <;> first | exact hw | simp (maxDischargeDepth := 20) [hw, store_wf]

/-- What `takeBalance` leaves alone. -/
@[simp] theorem takeBalance_frame (s : State) (slot : Nat) (args : List Byte) :
    (s.takeBalance slot args).pins = s.pins ∧ (s.takeBalance slot args).port.notes = s.port.notes ∧
    (s.takeBalance slot args).port.fault = s.port.fault ∧
    (s.takeBalance slot args).port.faultCount = s.port.faultCount ∧
    (s.takeBalance slot args).port.tables = s.port.tables ∧
    (s.takeBalance slot args).port.lastTable = s.port.lastTable ∧
    (s.takeBalance slot args).attn.enables = s.attn.enables ∧ (s.takeBalance slot args).attn.levels = s.attn.levels ∧
    (s.takeBalance slot args).attn.mask = s.attn.mask ∧ (s.takeBalance slot args).chain.state = s.chain.state ∧
    (s.takeBalance slot args).chain.origin = s.chain.origin ∧
    (s.takeBalance slot args).chain.wasDown = s.chain.wasDown ∧
    (s.takeBalance slot args).chain.downSince = s.chain.downSince ∧
    (s.takeBalance slot args).chain.errs = s.chain.errs ∧
    (s.takeBalance slot args).chain.suspectSince = s.chain.suspectSince ∧
    (s.takeBalance slot args).chain.periodStart = s.chain.periodStart ∧
    (s.takeBalance slot args).chain.periodErrs = s.chain.periodErrs ∧
    (s.takeBalance slot args).chain.capTag = s.chain.capTag ∧ (s.takeBalance slot args).chain.exTag = s.chain.exTag ∧
    (s.takeBalance slot args).chain.survey = s.chain.survey ∧
    (s.takeBalance slot args).chain.present = s.chain.present ∧
    (s.takeBalance slot args).chain.configured = s.chain.configured ∧
    (s.takeBalance slot args).chain.breakLoc = s.chain.breakLoc ∧ (s.takeBalance slot args).chain.map = s.chain.map ∧
    (s.takeBalance slot args).chain.hold = s.chain.hold ∧ (s.takeBalance slot args).chain.line = s.chain.line ∧
    (s.takeBalance slot args).chain.lastSent = s.chain.lastSent ∧
    (s.takeBalance slot args).chain.sleepCmd = s.chain.sleepCmd ∧
    (s.takeBalance slot args).chain.wakeAfterSleep = s.chain.wakeAfterSleep ∧
    (s.takeBalance slot args).chain.wake = s.chain.wake ∧
    (s.takeBalance slot args).chain.resetTone = s.chain.resetTone ∧
    (s.takeBalance slot args).chain.surveyTimer = s.chain.surveyTimer ∧
    (s.takeBalance slot args).chain.firstUp = s.chain.firstUp ∧
    (s.takeBalance slot args).chain.surveySlip = s.chain.surveySlip ∧
    (s.takeBalance slot args).chain.returning = s.chain.returning ∧ (s.takeBalance slot args).conv = s.conv ∧
    (s.takeBalance slot args).plan = s.plan ∧ (s.takeBalance slot args).sup = s.sup ∧
    (s.takeBalance slot args).ev = s.ev ∧ (s.takeBalance slot args).power = s.power ∧
    (s.takeBalance slot args).store = s.store ∧ (s.takeBalance slot args).upd = s.upd ∧
    (s.takeBalance slot args).free = s.free ∧ (s.takeBalance slot args).pending = s.pending := by
  simp only [State.takeBalance]; (repeat' split) <;> (first | rfl | simp)

/-- `takeBalance` keeps the canonical form of the memory. -/
@[simp] theorem takeBalance_wf (s : State) (slot : Nat) (args : List Byte) (hw : s.mem.wf = true) :
    (s.takeBalance slot args).mem.wf = true := by
  simp only [State.takeBalance]; (repeat' split) <;> first | exact hw | simp (maxDischargeDepth := 20) [hw, store_wf]

/-- What `takeCaptureNow` leaves alone. -/
@[simp] theorem takeCaptureNow_frame (s : State) (slot : Nat) (args : List Byte) :
    (s.takeCaptureNow slot args).pins = s.pins ∧ (s.takeCaptureNow slot args).port.notes = s.port.notes ∧
    (s.takeCaptureNow slot args).port.fault = s.port.fault ∧
    (s.takeCaptureNow slot args).port.faultCount = s.port.faultCount ∧
    (s.takeCaptureNow slot args).port.tables = s.port.tables ∧
    (s.takeCaptureNow slot args).port.lastTable = s.port.lastTable ∧
    (s.takeCaptureNow slot args).attn.enables = s.attn.enables ∧
    (s.takeCaptureNow slot args).attn.levels = s.attn.levels ∧ (s.takeCaptureNow slot args).attn.mask = s.attn.mask ∧
    (s.takeCaptureNow slot args).chain.state = s.chain.state ∧
    (s.takeCaptureNow slot args).chain.origin = s.chain.origin ∧
    (s.takeCaptureNow slot args).chain.wasDown = s.chain.wasDown ∧
    (s.takeCaptureNow slot args).chain.downSince = s.chain.downSince ∧
    (s.takeCaptureNow slot args).chain.errs = s.chain.errs ∧
    (s.takeCaptureNow slot args).chain.suspectSince = s.chain.suspectSince ∧
    (s.takeCaptureNow slot args).chain.periodStart = s.chain.periodStart ∧
    (s.takeCaptureNow slot args).chain.periodErrs = s.chain.periodErrs ∧
    (s.takeCaptureNow slot args).chain.capTag = s.chain.capTag ∧
    (s.takeCaptureNow slot args).chain.exTag = s.chain.exTag ∧
    (s.takeCaptureNow slot args).chain.survey = s.chain.survey ∧
    (s.takeCaptureNow slot args).chain.present = s.chain.present ∧
    (s.takeCaptureNow slot args).chain.configured = s.chain.configured ∧
    (s.takeCaptureNow slot args).chain.breakLoc = s.chain.breakLoc ∧
    (s.takeCaptureNow slot args).chain.map = s.chain.map ∧ (s.takeCaptureNow slot args).chain.hold = s.chain.hold ∧
    (s.takeCaptureNow slot args).chain.line = s.chain.line ∧
    (s.takeCaptureNow slot args).chain.lastSent = s.chain.lastSent ∧
    (s.takeCaptureNow slot args).chain.sleepCmd = s.chain.sleepCmd ∧
    (s.takeCaptureNow slot args).chain.wakeAfterSleep = s.chain.wakeAfterSleep ∧
    (s.takeCaptureNow slot args).chain.wake = s.chain.wake ∧
    (s.takeCaptureNow slot args).chain.resetTone = s.chain.resetTone ∧
    (s.takeCaptureNow slot args).chain.surveyTimer = s.chain.surveyTimer ∧
    (s.takeCaptureNow slot args).chain.firstUp = s.chain.firstUp ∧
    (s.takeCaptureNow slot args).chain.surveySlip = s.chain.surveySlip ∧
    (s.takeCaptureNow slot args).chain.balance = s.chain.balance ∧
    (s.takeCaptureNow slot args).chain.returning = s.chain.returning ∧ (s.takeCaptureNow slot args).conv = s.conv ∧
    (s.takeCaptureNow slot args).plan.plans = s.plan.plans ∧
    (s.takeCaptureNow slot args).plan.inForce = s.plan.inForce ∧
    (s.takeCaptureNow slot args).plan.dueDone = s.plan.dueDone ∧
    (s.takeCaptureNow slot args).plan.overrun = s.plan.overrun ∧
    (s.takeCaptureNow slot args).plan.burst = s.plan.burst ∧ (s.takeCaptureNow slot args).plan.kept = s.plan.kept ∧
    (s.takeCaptureNow slot args).plan.high = s.plan.high ∧ (s.takeCaptureNow slot args).plan.low = s.plan.low ∧
    (s.takeCaptureNow slot args).plan.temp = s.plan.temp ∧
    (s.takeCaptureNow slot args).plan.implausible = s.plan.implausible ∧
    (s.takeCaptureNow slot args).plan.fresh = s.plan.fresh ∧
    (s.takeCaptureNow slot args).plan.setSeq = s.plan.setSeq ∧
    (s.takeCaptureNow slot args).plan.pages = s.plan.pages ∧
    (s.takeCaptureNow slot args).plan.pageAge = s.plan.pageAge ∧
    (s.takeCaptureNow slot args).plan.writing = s.plan.writing ∧
    (s.takeCaptureNow slot args).plan.latest = s.plan.latest ∧
    (s.takeCaptureNow slot args).plan.quiet = s.plan.quiet ∧
    (s.takeCaptureNow slot args).plan.patrolReport = s.plan.patrolReport ∧ (s.takeCaptureNow slot args).sup = s.sup ∧
    (s.takeCaptureNow slot args).ev = s.ev ∧ (s.takeCaptureNow slot args).power = s.power ∧
    (s.takeCaptureNow slot args).store = s.store ∧ (s.takeCaptureNow slot args).upd = s.upd ∧
    (s.takeCaptureNow slot args).free = s.free ∧ (s.takeCaptureNow slot args).pending = s.pending := by
  simp only [State.takeCaptureNow]; (repeat' split) <;> (first | rfl | simp)

/-- `takeCaptureNow` keeps the canonical form of the memory. -/
@[simp] theorem takeCaptureNow_wf (s : State) (slot : Nat) (args : List Byte) (hw : s.mem.wf = true) :
    (s.takeCaptureNow slot args).mem.wf = true := by
  simp only [State.takeCaptureNow]; (repeat' split) <;> first | exact hw | simp (maxDischargeDepth := 20) [hw, store_wf]

/-- What `takeInstallKey` leaves alone. -/
@[simp] theorem takeInstallKey_frame (s : State) (slot : Nat) (args : List Byte) :
    (s.takeInstallKey slot args).pins = s.pins ∧ (s.takeInstallKey slot args).port.notes = s.port.notes ∧
    (s.takeInstallKey slot args).port.fault = s.port.fault ∧
    (s.takeInstallKey slot args).port.faultCount = s.port.faultCount ∧
    (s.takeInstallKey slot args).port.tables = s.port.tables ∧
    (s.takeInstallKey slot args).port.lastTable = s.port.lastTable ∧
    (s.takeInstallKey slot args).attn.enables = s.attn.enables ∧
    (s.takeInstallKey slot args).attn.levels = s.attn.levels ∧ (s.takeInstallKey slot args).attn.mask = s.attn.mask ∧
    (s.takeInstallKey slot args).chain = s.chain ∧ (s.takeInstallKey slot args).conv = s.conv ∧
    (s.takeInstallKey slot args).plan = s.plan ∧ (s.takeInstallKey slot args).sup = s.sup ∧
    (s.takeInstallKey slot args).ev = s.ev ∧ (s.takeInstallKey slot args).power = s.power ∧
    (s.takeInstallKey slot args).store.nv = s.store.nv ∧ (s.takeInstallKey slot args).store.work = s.store.work ∧
    (s.takeInstallKey slot args).store.running = s.store.running ∧
    (s.takeInstallKey slot args).store.startUp = s.store.startUp ∧
    (s.takeInstallKey slot args).store.active = s.store.active ∧
    (s.takeInstallKey slot args).store.activeBank = s.store.activeBank ∧
    (s.takeInstallKey slot args).store.activeVersion = s.store.activeVersion ∧
    (s.takeInstallKey slot args).store.clampCount = s.store.clampCount ∧
    (s.takeInstallKey slot args).store.outcome = s.store.outcome ∧
    (s.takeInstallKey slot args).store.faultCause = s.store.faultCause ∧
    (s.takeInstallKey slot args).store.faultItem = s.store.faultItem ∧
    (s.takeInstallKey slot args).store.faultCount = s.store.faultCount ∧
    (s.takeInstallKey slot args).store.lost = s.store.lost ∧
    (s.takeInstallKey slot args).store.taken = s.store.taken ∧
    (s.takeInstallKey slot args).store.inForce = s.store.inForce ∧
    (s.takeInstallKey slot args).store.rangeClamps = s.store.rangeClamps ∧
    (s.takeInstallKey slot args).store.hardClamps = s.store.hardClamps ∧ (s.takeInstallKey slot args).upd = s.upd ∧
    (s.takeInstallKey slot args).free = s.free ∧ (s.takeInstallKey slot args).pending = s.pending := by
  simp only [State.takeInstallKey]; (repeat' split) <;> (first | rfl | simp)

/-- `takeInstallKey` keeps the canonical form of the memory. -/
@[simp] theorem takeInstallKey_wf (s : State) (slot : Nat) (args : List Byte) (hw : s.mem.wf = true) :
    (s.takeInstallKey slot args).mem.wf = true := by
  simp only [State.takeInstallKey]; (repeat' split) <;> first | exact hw | simp (maxDischargeDepth := 20) [hw, store_wf]

/-- What `keyWritten` leaves alone. -/
@[simp] theorem keyWritten_frame (s : State) (done : Bool) :
    (s.keyWritten done).pins = s.pins ∧ (s.keyWritten done).port.notes = s.port.notes ∧
    (s.keyWritten done).port.fault = s.port.fault ∧ (s.keyWritten done).port.faultCount = s.port.faultCount ∧
    (s.keyWritten done).port.tables = s.port.tables ∧ (s.keyWritten done).port.lastTable = s.port.lastTable ∧
    (s.keyWritten done).attn.enables = s.attn.enables ∧ (s.keyWritten done).attn.levels = s.attn.levels ∧
    (s.keyWritten done).attn.mask = s.attn.mask ∧ (s.keyWritten done).chain = s.chain ∧
    (s.keyWritten done).conv = s.conv ∧ (s.keyWritten done).plan = s.plan ∧ (s.keyWritten done).sup = s.sup ∧
    (s.keyWritten done).ev = s.ev ∧ (s.keyWritten done).power = s.power ∧ (s.keyWritten done).store.nv = s.store.nv ∧
    (s.keyWritten done).store.work = s.store.work ∧ (s.keyWritten done).store.queue = s.store.queue ∧
    (s.keyWritten done).store.running = s.store.running ∧ (s.keyWritten done).store.startUp = s.store.startUp ∧
    (s.keyWritten done).store.active = s.store.active ∧ (s.keyWritten done).store.activeBank = s.store.activeBank ∧
    (s.keyWritten done).store.activeVersion = s.store.activeVersion ∧
    (s.keyWritten done).store.clampCount = s.store.clampCount ∧ (s.keyWritten done).store.outcome = s.store.outcome ∧
    (s.keyWritten done).store.faultCause = s.store.faultCause ∧
    (s.keyWritten done).store.faultItem = s.store.faultItem ∧
    (s.keyWritten done).store.faultCount = s.store.faultCount ∧ (s.keyWritten done).store.lost = s.store.lost ∧
    (s.keyWritten done).store.taken = s.store.taken ∧ (s.keyWritten done).store.inForce = s.store.inForce ∧
    (s.keyWritten done).store.rangeClamps = s.store.rangeClamps ∧
    (s.keyWritten done).store.hardClamps = s.store.hardClamps ∧ (s.keyWritten done).upd = s.upd ∧
    (s.keyWritten done).free = s.free ∧ (s.keyWritten done).pending = s.pending := by
  simp only [State.keyWritten]; (repeat' split) <;> (first | rfl | simp)

/-- `keyWritten` keeps the canonical form of the memory. -/
@[simp] theorem keyWritten_wf (s : State) (done : Bool) (hw : s.mem.wf = true) :
    (s.keyWritten done).mem.wf = true := by
  simp only [State.keyWritten]; (repeat' split) <;> first | exact hw | simp (maxDischargeDepth := 20) [hw, store_wf]

/-- What `takeReadStore` leaves alone. -/
@[simp] theorem takeReadStore_frame (s : State) (slot : Nat) (args : List Byte) :
    (s.takeReadStore slot args).pins = s.pins ∧ (s.takeReadStore slot args).port.notes = s.port.notes ∧
    (s.takeReadStore slot args).port.fault = s.port.fault ∧
    (s.takeReadStore slot args).port.faultCount = s.port.faultCount ∧
    (s.takeReadStore slot args).port.tables = s.port.tables ∧
    (s.takeReadStore slot args).port.lastTable = s.port.lastTable ∧
    (s.takeReadStore slot args).attn.enables = s.attn.enables ∧
    (s.takeReadStore slot args).attn.levels = s.attn.levels ∧ (s.takeReadStore slot args).attn.mask = s.attn.mask ∧
    (s.takeReadStore slot args).chain = s.chain ∧ (s.takeReadStore slot args).conv = s.conv ∧
    (s.takeReadStore slot args).plan = s.plan ∧ (s.takeReadStore slot args).sup = s.sup ∧
    (s.takeReadStore slot args).ev = s.ev ∧ (s.takeReadStore slot args).power = s.power ∧
    (s.takeReadStore slot args).store = s.store ∧ (s.takeReadStore slot args).upd = s.upd ∧
    (s.takeReadStore slot args).free = s.free ∧ (s.takeReadStore slot args).pending = s.pending := by
  simp only [State.takeReadStore]; (repeat' split) <;> (first | rfl | simp)

/-- `takeReadStore` keeps the canonical form of the memory. -/
@[simp] theorem takeReadStore_wf (s : State) (slot : Nat) (args : List Byte) (hw : s.mem.wf = true) :
    (s.takeReadStore slot args).mem.wf = true := by
  simp only [State.takeReadStore]; (repeat' split) <;> first | exact hw | simp (maxDischargeDepth := 20) [hw, store_wf]

/-- What `takeBegin` leaves alone. -/
@[simp] theorem takeBegin_frame (s : State) (slot : Nat) (args : List Byte) :
    (s.takeBegin slot args).pins = s.pins ∧ (s.takeBegin slot args).port.notes = s.port.notes ∧
    (s.takeBegin slot args).port.fault = s.port.fault ∧ (s.takeBegin slot args).port.faultCount = s.port.faultCount ∧
    (s.takeBegin slot args).port.tables = s.port.tables ∧ (s.takeBegin slot args).port.lastTable = s.port.lastTable ∧
    (s.takeBegin slot args).attn.enables = s.attn.enables ∧ (s.takeBegin slot args).attn.levels = s.attn.levels ∧
    (s.takeBegin slot args).attn.mask = s.attn.mask ∧ (s.takeBegin slot args).chain = s.chain ∧
    (s.takeBegin slot args).conv = s.conv ∧ (s.takeBegin slot args).plan = s.plan ∧
    (s.takeBegin slot args).sup = s.sup ∧ (s.takeBegin slot args).ev = s.ev ∧
    (s.takeBegin slot args).power = s.power ∧ (s.takeBegin slot args).store = s.store ∧
    (s.takeBegin slot args).upd.slip = s.upd.slip ∧ (s.takeBegin slot args).upd.aborts = s.upd.aborts ∧
    (s.takeBegin slot args).upd.absorbing = s.upd.absorbing ∧ (s.takeBegin slot args).upd.waiting = s.upd.waiting ∧
    (s.takeBegin slot args).upd.turn = s.upd.turn ∧ (s.takeBegin slot args).upd.link = s.upd.link ∧
    (s.takeBegin slot args).upd.pause = s.upd.pause ∧ (s.takeBegin slot args).upd.commit = s.upd.commit ∧
    (s.takeBegin slot args).upd.window = s.upd.window ∧ (s.takeBegin slot args).upd.aborting = s.upd.aborting ∧
    (s.takeBegin slot args).upd.outcome = s.upd.outcome ∧
    (s.takeBegin slot args).upd.outcomeState = s.upd.outcomeState ∧
    (s.takeBegin slot args).upd.watches = s.upd.watches ∧ (s.takeBegin slot args).upd.checkAt = s.upd.checkAt ∧
    (s.takeBegin slot args).free = s.free ∧ (s.takeBegin slot args).pending = s.pending := by
  simp only [State.takeBegin]; (repeat' split) <;> (first | rfl | simp)

/-- `takeBegin` keeps the canonical form of the memory. -/
@[simp] theorem takeBegin_wf (s : State) (slot : Nat) (args : List Byte) (hw : s.mem.wf = true) :
    (s.takeBegin slot args).mem.wf = true := by
  simp only [State.takeBegin]; (repeat' split) <;> first | exact hw | simp (maxDischargeDepth := 20) [hw, store_wf]

/-- What `takeCheck` leaves alone. -/
@[simp] theorem takeCheck_frame (s : State) (slot : Nat) :
    (s.takeCheck slot).pins = s.pins ∧ (s.takeCheck slot).port.notes = s.port.notes ∧
    (s.takeCheck slot).port.fault = s.port.fault ∧ (s.takeCheck slot).port.faultCount = s.port.faultCount ∧
    (s.takeCheck slot).port.tables = s.port.tables ∧ (s.takeCheck slot).port.lastTable = s.port.lastTable ∧
    (s.takeCheck slot).attn.enables = s.attn.enables ∧ (s.takeCheck slot).attn.levels = s.attn.levels ∧
    (s.takeCheck slot).attn.mask = s.attn.mask ∧ (s.takeCheck slot).chain = s.chain ∧
    (s.takeCheck slot).conv = s.conv ∧ (s.takeCheck slot).plan = s.plan ∧ (s.takeCheck slot).sup = s.sup ∧
    (s.takeCheck slot).ev = s.ev ∧ (s.takeCheck slot).power = s.power ∧ (s.takeCheck slot).store = s.store ∧
    (s.takeCheck slot).upd.aborts = s.upd.aborts ∧ (s.takeCheck slot).upd.header = s.upd.header ∧
    (s.takeCheck slot).upd.staging = s.upd.staging ∧ (s.takeCheck slot).upd.expected = s.upd.expected ∧
    (s.takeCheck slot).upd.lastAcc = s.upd.lastAcc ∧ (s.takeCheck slot).upd.runCrc = s.upd.runCrc ∧
    (s.takeCheck slot).upd.absorbing = s.upd.absorbing ∧ (s.takeCheck slot).upd.waiting = s.upd.waiting ∧
    (s.takeCheck slot).upd.acc = s.upd.acc ∧ (s.takeCheck slot).upd.dup = s.upd.dup ∧
    (s.takeCheck slot).upd.rej = s.upd.rej ∧ (s.takeCheck slot).upd.dist = s.upd.dist ∧
    (s.takeCheck slot).upd.turn = s.upd.turn ∧ (s.takeCheck slot).upd.link = s.upd.link ∧
    (s.takeCheck slot).upd.pause = s.upd.pause ∧ (s.takeCheck slot).upd.switchPending = s.upd.switchPending ∧
    (s.takeCheck slot).upd.commitReached = s.upd.commitReached ∧
    (s.takeCheck slot).upd.floorWritten = s.upd.floorWritten ∧ (s.takeCheck slot).upd.commit = s.upd.commit ∧
    (s.takeCheck slot).upd.bankWritten = s.upd.bankWritten ∧ (s.takeCheck slot).upd.window = s.upd.window ∧
    (s.takeCheck slot).upd.aborting = s.upd.aborting ∧ (s.takeCheck slot).upd.outcome = s.upd.outcome ∧
    (s.takeCheck slot).upd.outcomeState = s.upd.outcomeState ∧ (s.takeCheck slot).upd.watches = s.upd.watches ∧
    (s.takeCheck slot).free = s.free ∧ (s.takeCheck slot).pending = s.pending := by
  simp only [State.takeCheck]; (repeat' split) <;> (first | rfl | simp)

/-- `takeCheck` keeps the canonical form of the memory. -/
@[simp] theorem takeCheck_wf (s : State) (slot : Nat) (hw : s.mem.wf = true) :
    (s.takeCheck slot).mem.wf = true := by
  simp only [State.takeCheck]; (repeat' split) <;> first | exact hw | simp (maxDischargeDepth := 20) [hw, store_wf]

/-- What `takeApply` leaves alone. -/
@[simp] theorem takeApply_frame (s : State) (slot : Nat) :
    (s.takeApply slot).pins = s.pins ∧ (s.takeApply slot).port.notes = s.port.notes ∧
    (s.takeApply slot).port.fault = s.port.fault ∧ (s.takeApply slot).port.faultCount = s.port.faultCount ∧
    (s.takeApply slot).port.tables = s.port.tables ∧ (s.takeApply slot).port.lastTable = s.port.lastTable ∧
    (s.takeApply slot).attn.enables = s.attn.enables ∧ (s.takeApply slot).attn.levels = s.attn.levels ∧
    (s.takeApply slot).attn.mask = s.attn.mask ∧ (s.takeApply slot).chain.state = s.chain.state ∧
    (s.takeApply slot).chain.origin = s.chain.origin ∧ (s.takeApply slot).chain.wasDown = s.chain.wasDown ∧
    (s.takeApply slot).chain.downSince = s.chain.downSince ∧ (s.takeApply slot).chain.errs = s.chain.errs ∧
    (s.takeApply slot).chain.suspectSince = s.chain.suspectSince ∧
    (s.takeApply slot).chain.periodStart = s.chain.periodStart ∧
    (s.takeApply slot).chain.periodErrs = s.chain.periodErrs ∧ (s.takeApply slot).chain.capTag = s.chain.capTag ∧
    (s.takeApply slot).chain.exTag = s.chain.exTag ∧ (s.takeApply slot).chain.survey = s.chain.survey ∧
    (s.takeApply slot).chain.present = s.chain.present ∧ (s.takeApply slot).chain.configured = s.chain.configured ∧
    (s.takeApply slot).chain.breakLoc = s.chain.breakLoc ∧ (s.takeApply slot).chain.line = s.chain.line ∧
    (s.takeApply slot).chain.lastSent = s.chain.lastSent ∧ (s.takeApply slot).chain.sleepCmd = s.chain.sleepCmd ∧
    (s.takeApply slot).chain.wakeAfterSleep = s.chain.wakeAfterSleep ∧ (s.takeApply slot).chain.wake = s.chain.wake ∧
    (s.takeApply slot).chain.resetTone = s.chain.resetTone ∧
    (s.takeApply slot).chain.surveyTimer = s.chain.surveyTimer ∧ (s.takeApply slot).chain.firstUp = s.chain.firstUp ∧
    (s.takeApply slot).chain.surveySlip = s.chain.surveySlip ∧ (s.takeApply slot).chain.balance = s.chain.balance ∧
    (s.takeApply slot).chain.returning = s.chain.returning ∧ (s.takeApply slot).conv = s.conv ∧
    (s.takeApply slot).plan = s.plan ∧ (s.takeApply slot).sup = s.sup ∧ (s.takeApply slot).ev.slots = s.ev.slots ∧
    (s.takeApply slot).ev.age = s.ev.age ∧ (s.takeApply slot).ev.next = s.ev.next ∧
    (s.takeApply slot).ev.filling = s.ev.filling ∧ (s.takeApply slot).power = s.power ∧
    (s.takeApply slot).store.nv = s.store.nv ∧ (s.takeApply slot).store.work = s.store.work ∧
    (s.takeApply slot).store.running = s.store.running ∧ (s.takeApply slot).store.startUp = s.store.startUp ∧
    (s.takeApply slot).store.active = s.store.active ∧ (s.takeApply slot).store.activeBank = s.store.activeBank ∧
    (s.takeApply slot).store.activeVersion = s.store.activeVersion ∧
    (s.takeApply slot).store.clampCount = s.store.clampCount ∧ (s.takeApply slot).store.outcome = s.store.outcome ∧
    (s.takeApply slot).store.faultCause = s.store.faultCause ∧
    (s.takeApply slot).store.faultItem = s.store.faultItem ∧
    (s.takeApply slot).store.faultCount = s.store.faultCount ∧ (s.takeApply slot).store.lost = s.store.lost ∧
    (s.takeApply slot).store.taken = s.store.taken ∧ (s.takeApply slot).store.inForce = s.store.inForce ∧
    (s.takeApply slot).store.rangeClamps = s.store.rangeClamps ∧
    (s.takeApply slot).store.hardClamps = s.store.hardClamps ∧ (s.takeApply slot).store.keySlip = s.store.keySlip ∧
    (s.takeApply slot).upd.header = s.upd.header ∧ (s.takeApply slot).upd.expected = s.upd.expected ∧
    (s.takeApply slot).upd.lastAcc = s.upd.lastAcc ∧ (s.takeApply slot).upd.runCrc = s.upd.runCrc ∧
    (s.takeApply slot).upd.waiting = s.upd.waiting ∧ (s.takeApply slot).upd.acc = s.upd.acc ∧
    (s.takeApply slot).upd.dup = s.upd.dup ∧ (s.takeApply slot).upd.commitReached = s.upd.commitReached ∧
    (s.takeApply slot).upd.bankWritten = s.upd.bankWritten ∧ (s.takeApply slot).upd.watches = s.upd.watches ∧
    (s.takeApply slot).upd.checkAt = s.upd.checkAt ∧ (s.takeApply slot).free = s.free ∧
    (s.takeApply slot).pending = s.pending := by
  simp only [State.takeApply]; (repeat' split) <;> (first | rfl | simp)

/-- `takeApply` keeps the canonical form of the memory. -/
@[simp] theorem takeApply_wf (s : State) (slot : Nat) (hw : s.mem.wf = true) :
    (s.takeApply slot).mem.wf = true := by
  simp only [State.takeApply]; (repeat' split) <;> first | exact hw | simp (maxDischargeDepth := 20) [hw, store_wf]

/-- What `handSlip` leaves alone. -/
@[simp] theorem handSlip_frame (s : State) (slot : Nat) (k : SlipKind) (args : List Byte) :
    (s.handSlip slot k args).pins = s.pins ∧ (s.handSlip slot k args).port.notes = s.port.notes ∧
    (s.handSlip slot k args).port.fault = s.port.fault ∧
    (s.handSlip slot k args).port.faultCount = s.port.faultCount ∧
    (s.handSlip slot k args).port.tables = s.port.tables ∧
    (s.handSlip slot k args).port.lastTable = s.port.lastTable ∧
    (s.handSlip slot k args).attn.enables = s.attn.enables ∧ (s.handSlip slot k args).attn.levels = s.attn.levels ∧
    (s.handSlip slot k args).attn.mask = s.attn.mask ∧ (s.handSlip slot k args).chain.state = s.chain.state ∧
    (s.handSlip slot k args).chain.origin = s.chain.origin ∧
    (s.handSlip slot k args).chain.wasDown = s.chain.wasDown ∧
    (s.handSlip slot k args).chain.downSince = s.chain.downSince ∧
    (s.handSlip slot k args).chain.errs = s.chain.errs ∧
    (s.handSlip slot k args).chain.suspectSince = s.chain.suspectSince ∧
    (s.handSlip slot k args).chain.periodStart = s.chain.periodStart ∧
    (s.handSlip slot k args).chain.periodErrs = s.chain.periodErrs ∧
    (s.handSlip slot k args).chain.capTag = s.chain.capTag ∧ (s.handSlip slot k args).chain.exTag = s.chain.exTag ∧
    (s.handSlip slot k args).chain.survey = s.chain.survey ∧
    (s.handSlip slot k args).chain.present = s.chain.present ∧
    (s.handSlip slot k args).chain.configured = s.chain.configured ∧
    (s.handSlip slot k args).chain.breakLoc = s.chain.breakLoc ∧ (s.handSlip slot k args).chain.line = s.chain.line ∧
    (s.handSlip slot k args).chain.lastSent = s.chain.lastSent ∧
    (s.handSlip slot k args).chain.sleepCmd = s.chain.sleepCmd ∧
    (s.handSlip slot k args).chain.wakeAfterSleep = s.chain.wakeAfterSleep ∧
    (s.handSlip slot k args).chain.wake = s.chain.wake ∧
    (s.handSlip slot k args).chain.resetTone = s.chain.resetTone ∧
    (s.handSlip slot k args).chain.surveyTimer = s.chain.surveyTimer ∧
    (s.handSlip slot k args).chain.firstUp = s.chain.firstUp ∧ (s.handSlip slot k args).conv = s.conv ∧
    (s.handSlip slot k args).plan.plans = s.plan.plans ∧ (s.handSlip slot k args).plan.inForce = s.plan.inForce ∧
    (s.handSlip slot k args).plan.dueDone = s.plan.dueDone ∧ (s.handSlip slot k args).plan.overrun = s.plan.overrun ∧
    (s.handSlip slot k args).plan.burst = s.plan.burst ∧ (s.handSlip slot k args).plan.kept = s.plan.kept ∧
    (s.handSlip slot k args).plan.high = s.plan.high ∧ (s.handSlip slot k args).plan.low = s.plan.low ∧
    (s.handSlip slot k args).plan.temp = s.plan.temp ∧
    (s.handSlip slot k args).plan.implausible = s.plan.implausible ∧
    (s.handSlip slot k args).plan.fresh = s.plan.fresh ∧ (s.handSlip slot k args).plan.setSeq = s.plan.setSeq ∧
    (s.handSlip slot k args).plan.pages = s.plan.pages ∧ (s.handSlip slot k args).plan.pageAge = s.plan.pageAge ∧
    (s.handSlip slot k args).plan.writing = s.plan.writing ∧ (s.handSlip slot k args).plan.latest = s.plan.latest ∧
    (s.handSlip slot k args).plan.patrolReport = s.plan.patrolReport ∧
    (s.handSlip slot k args).sup.waiting = s.sup.waiting ∧ (s.handSlip slot k args).sup.lowSupply = s.sup.lowSupply ∧
    (s.handSlip slot k args).sup.settleAt = s.sup.settleAt ∧ (s.handSlip slot k args).sup.hardRun = s.sup.hardRun ∧
    (s.handSlip slot k args).sup.hardFell = s.sup.hardFell ∧ (s.handSlip slot k args).sup.hardDue = s.sup.hardDue ∧
    (s.handSlip slot k args).sup.faultedSince = s.sup.faultedSince ∧ (s.handSlip slot k args).ev.age = s.ev.age ∧
    (s.handSlip slot k args).ev.next = s.ev.next ∧ (s.handSlip slot k args).ev.filling = s.ev.filling ∧
    (s.handSlip slot k args).power.wakeTable = s.power.wakeTable ∧
    (s.handSlip slot k args).power.timer = s.power.timer ∧
    (s.handSlip slot k args).power.timerRunning = s.power.timerRunning ∧
    (s.handSlip slot k args).power.compRun = s.power.compRun ∧
    (s.handSlip slot k args).power.compFired = s.power.compFired ∧
    (s.handSlip slot k args).power.nextSlot = s.power.nextSlot ∧
    (s.handSlip slot k args).power.lastNumber = s.power.lastNumber ∧
    (s.handSlip slot k args).power.estimate = s.power.estimate ∧
    (s.handSlip slot k args).power.lastWake = s.power.lastWake ∧
    (s.handSlip slot k args).power.returning = s.power.returning ∧
    (s.handSlip slot k args).power.lastReset = s.power.lastReset ∧
    (s.handSlip slot k args).power.resetCount = s.power.resetCount ∧
    (s.handSlip slot k args).power.wakeOut = s.power.wakeOut ∧
    (s.handSlip slot k args).power.wakeOutAt = s.power.wakeOutAt ∧ (s.handSlip slot k args).store.nv = s.store.nv ∧
    (s.handSlip slot k args).store.work = s.store.work ∧ (s.handSlip slot k args).store.running = s.store.running ∧
    (s.handSlip slot k args).store.startUp = s.store.startUp ∧
    (s.handSlip slot k args).store.active = s.store.active ∧
    (s.handSlip slot k args).store.activeBank = s.store.activeBank ∧
    (s.handSlip slot k args).store.activeVersion = s.store.activeVersion ∧
    (s.handSlip slot k args).store.clampCount = s.store.clampCount ∧
    (s.handSlip slot k args).store.outcome = s.store.outcome ∧
    (s.handSlip slot k args).store.faultCause = s.store.faultCause ∧
    (s.handSlip slot k args).store.faultItem = s.store.faultItem ∧
    (s.handSlip slot k args).store.faultCount = s.store.faultCount ∧
    (s.handSlip slot k args).store.lost = s.store.lost ∧ (s.handSlip slot k args).store.taken = s.store.taken ∧
    (s.handSlip slot k args).store.inForce = s.store.inForce ∧
    (s.handSlip slot k args).store.rangeClamps = s.store.rangeClamps ∧
    (s.handSlip slot k args).store.hardClamps = s.store.hardClamps ∧
    (s.handSlip slot k args).upd.waiting = s.upd.waiting ∧ (s.handSlip slot k args).upd.watches = s.upd.watches ∧
    (s.handSlip slot k args).pending = s.pending := by
  simp only [State.handSlip]; (repeat' split) <;> (first | rfl | simp)

/-- `handSlip` keeps the canonical form of the memory. -/
@[simp] theorem handSlip_wf (s : State) (slot : Nat) (k : SlipKind) (args : List Byte) (hw : s.mem.wf = true) :
    (s.handSlip slot k args).mem.wf = true := by
  simp only [State.handSlip]; (repeat' split) <;> first | exact hw | simp (maxDischargeDepth := 20) [hw, store_wf]

/-- What `copyAndTake` leaves alone. -/
@[simp] theorem copyAndTake_frame (s : State) (slot : Nat) :
    (s.copyAndTake slot).pins = s.pins ∧ (s.copyAndTake slot).port.notes = s.port.notes ∧
    (s.copyAndTake slot).port.fault = s.port.fault ∧ (s.copyAndTake slot).port.faultCount = s.port.faultCount ∧
    (s.copyAndTake slot).port.tables = s.port.tables ∧ (s.copyAndTake slot).port.lastTable = s.port.lastTable ∧
    (s.copyAndTake slot).attn = s.attn ∧ (s.copyAndTake slot).chain = s.chain ∧ (s.copyAndTake slot).conv = s.conv ∧
    (s.copyAndTake slot).plan = s.plan ∧ (s.copyAndTake slot).sup = s.sup ∧ (s.copyAndTake slot).ev = s.ev ∧
    (s.copyAndTake slot).power = s.power ∧ (s.copyAndTake slot).store = s.store ∧ (s.copyAndTake slot).upd = s.upd ∧
    (s.copyAndTake slot).free = s.free ∧ (s.copyAndTake slot).pending = s.pending := by
  simp only [State.copyAndTake]; (repeat' split) <;> (first | rfl | simp)

/-- `copyAndTake` keeps the canonical form of the memory. -/
@[simp] theorem copyAndTake_wf (s : State) (slot : Nat) (hw : s.mem.wf = true) :
    (s.copyAndTake slot).mem.wf = true := by
  simp only [State.copyAndTake]; (repeat' split) <;> first | exact hw | simp (maxDischargeDepth := 20) [hw, store_wf]

/-- What `takeSlip` leaves alone. -/
@[simp] theorem takeSlip_frame (s : State) (slot : Nat) :
    (s.takeSlip slot).pins = s.pins ∧ (s.takeSlip slot).port.notes = s.port.notes ∧
    (s.takeSlip slot).port.fault = s.port.fault ∧ (s.takeSlip slot).port.faultCount = s.port.faultCount ∧
    (s.takeSlip slot).port.tables = s.port.tables ∧ (s.takeSlip slot).port.lastTable = s.port.lastTable ∧
    (s.takeSlip slot).attn.enables = s.attn.enables ∧ (s.takeSlip slot).attn.levels = s.attn.levels ∧
    (s.takeSlip slot).attn.mask = s.attn.mask ∧ (s.takeSlip slot).chain.state = s.chain.state ∧
    (s.takeSlip slot).chain.origin = s.chain.origin ∧ (s.takeSlip slot).chain.wasDown = s.chain.wasDown ∧
    (s.takeSlip slot).chain.downSince = s.chain.downSince ∧ (s.takeSlip slot).chain.errs = s.chain.errs ∧
    (s.takeSlip slot).chain.suspectSince = s.chain.suspectSince ∧
    (s.takeSlip slot).chain.periodStart = s.chain.periodStart ∧
    (s.takeSlip slot).chain.periodErrs = s.chain.periodErrs ∧ (s.takeSlip slot).chain.capTag = s.chain.capTag ∧
    (s.takeSlip slot).chain.exTag = s.chain.exTag ∧ (s.takeSlip slot).chain.survey = s.chain.survey ∧
    (s.takeSlip slot).chain.present = s.chain.present ∧ (s.takeSlip slot).chain.configured = s.chain.configured ∧
    (s.takeSlip slot).chain.breakLoc = s.chain.breakLoc ∧ (s.takeSlip slot).chain.line = s.chain.line ∧
    (s.takeSlip slot).chain.lastSent = s.chain.lastSent ∧ (s.takeSlip slot).chain.sleepCmd = s.chain.sleepCmd ∧
    (s.takeSlip slot).chain.resetTone = s.chain.resetTone ∧
    (s.takeSlip slot).chain.surveyTimer = s.chain.surveyTimer ∧ (s.takeSlip slot).chain.firstUp = s.chain.firstUp ∧
    (s.takeSlip slot).conv.scanning = s.conv.scanning ∧ (s.takeSlip slot).conv.us = s.conv.us ∧
    (s.takeSlip slot).conv.part = s.conv.part ∧ (s.takeSlip slot).conv.lastLatch = s.conv.lastLatch ∧
    (s.takeSlip slot).conv.latched = s.conv.latched ∧ (s.takeSlip slot).conv.history = s.conv.history ∧
    (s.takeSlip slot).conv.charge = s.conv.charge ∧ (s.takeSlip slot).conv.chargeSat = s.conv.chargeSat ∧
    (s.takeSlip slot).conv.restored = s.conv.restored ∧ (s.takeSlip slot).conv.unsampled = s.conv.unsampled ∧
    (s.takeSlip slot).conv.estimate = s.conv.estimate ∧ (s.takeSlip slot).conv.recNumber = s.conv.recNumber ∧
    (s.takeSlip slot).plan.plans = s.plan.plans ∧ (s.takeSlip slot).plan.inForce = s.plan.inForce ∧
    (s.takeSlip slot).plan.dueDone = s.plan.dueDone ∧ (s.takeSlip slot).plan.overrun = s.plan.overrun ∧
    (s.takeSlip slot).plan.burst = s.plan.burst ∧ (s.takeSlip slot).plan.kept = s.plan.kept ∧
    (s.takeSlip slot).plan.high = s.plan.high ∧ (s.takeSlip slot).plan.low = s.plan.low ∧
    (s.takeSlip slot).plan.temp = s.plan.temp ∧ (s.takeSlip slot).plan.implausible = s.plan.implausible ∧
    (s.takeSlip slot).plan.fresh = s.plan.fresh ∧ (s.takeSlip slot).plan.setSeq = s.plan.setSeq ∧
    (s.takeSlip slot).plan.pages = s.plan.pages ∧ (s.takeSlip slot).plan.pageAge = s.plan.pageAge ∧
    (s.takeSlip slot).plan.writing = s.plan.writing ∧ (s.takeSlip slot).plan.latest = s.plan.latest ∧
    (s.takeSlip slot).plan.patrolReport = s.plan.patrolReport ∧ (s.takeSlip slot).sup.waiting = s.sup.waiting ∧
    (s.takeSlip slot).sup.lowSupply = s.sup.lowSupply ∧ (s.takeSlip slot).sup.settleAt = s.sup.settleAt ∧
    (s.takeSlip slot).sup.hardRun = s.sup.hardRun ∧ (s.takeSlip slot).sup.hardFell = s.sup.hardFell ∧
    (s.takeSlip slot).sup.hardDue = s.sup.hardDue ∧ (s.takeSlip slot).sup.faultedSince = s.sup.faultedSince ∧
    (s.takeSlip slot).ev.age = s.ev.age ∧ (s.takeSlip slot).ev.next = s.ev.next ∧
    (s.takeSlip slot).ev.filling = s.ev.filling ∧ (s.takeSlip slot).power.wakeTable = s.power.wakeTable ∧
    (s.takeSlip slot).power.timer = s.power.timer ∧ (s.takeSlip slot).power.timerRunning = s.power.timerRunning ∧
    (s.takeSlip slot).power.compRun = s.power.compRun ∧ (s.takeSlip slot).power.compFired = s.power.compFired ∧
    (s.takeSlip slot).power.nextSlot = s.power.nextSlot ∧ (s.takeSlip slot).power.lastNumber = s.power.lastNumber ∧
    (s.takeSlip slot).power.estimate = s.power.estimate ∧ (s.takeSlip slot).power.lastWake = s.power.lastWake ∧
    (s.takeSlip slot).power.returning = s.power.returning ∧ (s.takeSlip slot).power.lastReset = s.power.lastReset ∧
    (s.takeSlip slot).power.resetCount = s.power.resetCount ∧ (s.takeSlip slot).power.wakeOut = s.power.wakeOut ∧
    (s.takeSlip slot).power.wakeOutAt = s.power.wakeOutAt ∧ (s.takeSlip slot).store.nv = s.store.nv ∧
    (s.takeSlip slot).store.work = s.store.work ∧ (s.takeSlip slot).store.startUp = s.store.startUp ∧
    (s.takeSlip slot).store.active = s.store.active ∧ (s.takeSlip slot).store.activeBank = s.store.activeBank ∧
    (s.takeSlip slot).store.activeVersion = s.store.activeVersion ∧
    (s.takeSlip slot).store.clampCount = s.store.clampCount ∧ (s.takeSlip slot).store.outcome = s.store.outcome ∧
    (s.takeSlip slot).store.faultCause = s.store.faultCause ∧ (s.takeSlip slot).store.faultItem = s.store.faultItem ∧
    (s.takeSlip slot).store.faultCount = s.store.faultCount ∧ (s.takeSlip slot).store.lost = s.store.lost ∧
    (s.takeSlip slot).store.taken = s.store.taken ∧ (s.takeSlip slot).store.inForce = s.store.inForce ∧
    (s.takeSlip slot).store.rangeClamps = s.store.rangeClamps ∧
    (s.takeSlip slot).store.hardClamps = s.store.hardClamps ∧ (s.takeSlip slot).upd.waiting = s.upd.waiting ∧
    (s.takeSlip slot).upd.watches = s.upd.watches ∧ (s.takeSlip slot).pending = s.pending := by
  simp only [State.takeSlip]; (repeat' split) <;> (first | rfl | simp)

/-- `takeSlip` keeps the canonical form of the memory. -/
@[simp] theorem takeSlip_wf (s : State) (slot : Nat) (hw : s.mem.wf = true) :
    (s.takeSlip slot).mem.wf = true := by
  simp only [State.takeSlip]; (repeat' split) <;> first | exact hw | simp (maxDischargeDepth := 20) [hw, store_wf]

/-- What `showTables` leaves alone. -/
@[simp] theorem showTables_frame (s : State) :
    (s.showTables).pins = s.pins ∧ (s.showTables).port = s.port ∧ (s.showTables).attn = s.attn ∧
    (s.showTables).chain = s.chain ∧ (s.showTables).conv = s.conv ∧ (s.showTables).plan = s.plan ∧
    (s.showTables).sup = s.sup ∧ (s.showTables).ev = s.ev ∧ (s.showTables).power = s.power ∧
    (s.showTables).store = s.store ∧ (s.showTables).upd = s.upd ∧ (s.showTables).free = s.free ∧
    (s.showTables).pending = s.pending := by
  simp only [State.showTables]; (repeat' split) <;> (first | rfl | simp)

/-- `showTables` keeps the canonical form of the memory. -/
@[simp] theorem showTables_wf (s : State) (hw : s.mem.wf = true) :
    (s.showTables).mem.wf = true := by
  simp only [State.showTables]; (repeat' split) <;> first | exact hw | simp (maxDischargeDepth := 20) [hw, store_wf]

/-- What `showDirectory` leaves alone. -/
@[simp] theorem showDirectory_frame (s : State) :
    (s.showDirectory).pins = s.pins ∧ (s.showDirectory).port = s.port ∧ (s.showDirectory).attn = s.attn ∧
    (s.showDirectory).chain = s.chain ∧ (s.showDirectory).conv.scanning = s.conv.scanning ∧
    (s.showDirectory).conv.us = s.conv.us ∧ (s.showDirectory).conv.part = s.conv.part ∧
    (s.showDirectory).conv.lastLatch = s.conv.lastLatch ∧ (s.showDirectory).conv.latched = s.conv.latched ∧
    (s.showDirectory).conv.history = s.conv.history ∧ (s.showDirectory).conv.charge = s.conv.charge ∧
    (s.showDirectory).conv.chargeSat = s.conv.chargeSat ∧ (s.showDirectory).conv.restored = s.conv.restored ∧
    (s.showDirectory).conv.unsampled = s.conv.unsampled ∧ (s.showDirectory).conv.estimate = s.conv.estimate ∧
    (s.showDirectory).conv.snapTimer = s.conv.snapTimer ∧ (s.showDirectory).plan = s.plan ∧
    (s.showDirectory).sup = s.sup ∧ (s.showDirectory).ev = s.ev ∧ (s.showDirectory).power = s.power ∧
    (s.showDirectory).store = s.store ∧ (s.showDirectory).upd = s.upd ∧ (s.showDirectory).free = s.free ∧
    (s.showDirectory).pending = s.pending := by
  simp only [State.showDirectory]; (repeat' split) <;> (first | rfl | simp)

/-- `showDirectory` keeps the canonical form of the memory. -/
@[simp] theorem showDirectory_wf (s : State) (hw : s.mem.wf = true) :
    (s.showDirectory).mem.wf = true := by
  simp only [State.showDirectory]; (repeat' split) <;> first | exact hw | simp (maxDischargeDepth := 20) [hw, store_wf]

/-- What `showUpdate` leaves alone. -/
@[simp] theorem showUpdate_frame (s : State) :
    (s.showUpdate).pins = s.pins ∧ (s.showUpdate).port = s.port ∧ (s.showUpdate).attn = s.attn ∧
    (s.showUpdate).chain = s.chain ∧ (s.showUpdate).conv = s.conv ∧ (s.showUpdate).plan = s.plan ∧
    (s.showUpdate).sup = s.sup ∧ (s.showUpdate).ev = s.ev ∧ (s.showUpdate).power = s.power ∧
    (s.showUpdate).store = s.store ∧ (s.showUpdate).upd = s.upd ∧ (s.showUpdate).free = s.free ∧
    (s.showUpdate).pending = s.pending := by
  simp only [State.showUpdate]; (repeat' split) <;> (first | rfl | simp)

/-- `showUpdate` keeps the canonical form of the memory. -/
@[simp] theorem showUpdate_wf (s : State) (hw : s.mem.wf = true) :
    (s.showUpdate).mem.wf = true := by
  simp only [State.showUpdate]; (repeat' split) <;> first | exact hw | simp (maxDischargeDepth := 20) [hw, store_wf]

/-- What `clearPages` leaves alone. -/
@[simp] theorem clearPages_frame (s : State) :
    (s.clearPages).pins = s.pins ∧ (s.clearPages).port = s.port ∧ (s.clearPages).attn = s.attn ∧
    (s.clearPages).chain = s.chain ∧ (s.clearPages).conv = s.conv ∧ (s.clearPages).plan = s.plan ∧
    (s.clearPages).sup = s.sup ∧ (s.clearPages).ev = s.ev ∧ (s.clearPages).power = s.power ∧
    (s.clearPages).store = s.store ∧ (s.clearPages).upd = s.upd ∧ (s.clearPages).free = s.free ∧
    (s.clearPages).pending = s.pending := by
  simp only [State.clearPages]; (repeat' split) <;> (first | rfl | simp)

/-- `clearPages` keeps the canonical form of the memory. -/
@[simp] theorem clearPages_wf (s : State) (hw : s.mem.wf = true) :
    (s.clearPages).mem.wf = true := by
  simp only [State.clearPages, List.foldl]
  iterate 8 apply put_wf
  exact hw

/-- What `freeSlots` leaves alone. -/
@[simp] theorem freeSlots_frame (s : State) :
    (s.freeSlots).pins = s.pins ∧ (s.freeSlots).port = s.port ∧ (s.freeSlots).attn = s.attn ∧
    (s.freeSlots).chain = s.chain ∧ (s.freeSlots).conv = s.conv ∧ (s.freeSlots).plan = s.plan ∧
    (s.freeSlots).sup = s.sup ∧ (s.freeSlots).ev = s.ev ∧ (s.freeSlots).power = s.power ∧
    (s.freeSlots).store = s.store ∧ (s.freeSlots).upd = s.upd ∧ (s.freeSlots).free = s.free ∧
    (s.freeSlots).pending = s.pending := by
  simp only [State.freeSlots]; (repeat' split) <;> (first | rfl | simp)

/-- `freeSlots` keeps the canonical form of the memory. -/
@[simp] theorem freeSlots_wf (s : State) (hw : s.mem.wf = true) :
    (s.freeSlots).mem.wf = true := by
  simp only [State.freeSlots, List.foldl]; split <;> simp (maxDischargeDepth := 20) [hw]

/-- What `resetBuffer` leaves alone. -/
@[simp] theorem resetBuffer_frame (s : State) (buf : Buffer) :
    (s.resetBuffer buf).pins = s.pins ∧ (s.resetBuffer buf).port = s.port ∧
    (s.resetBuffer buf).attn.enables = s.attn.enables ∧ (s.resetBuffer buf).attn.levels = s.attn.levels ∧
    (s.resetBuffer buf).attn.mask = s.attn.mask ∧ (s.resetBuffer buf).chain = s.chain ∧
    (s.resetBuffer buf).conv = s.conv ∧ (s.resetBuffer buf).plan = s.plan ∧ (s.resetBuffer buf).sup = s.sup ∧
    (s.resetBuffer buf).ev = s.ev ∧ (s.resetBuffer buf).power = s.power ∧ (s.resetBuffer buf).store = s.store ∧
    (s.resetBuffer buf).upd = s.upd ∧ (s.resetBuffer buf).free = s.free ∧ (s.resetBuffer buf).pending = s.pending := by
  simp only [State.resetBuffer]; (repeat' split) <;> (first | rfl | simp)

/-- `resetBuffer` keeps the canonical form of the memory. -/
@[simp] theorem resetBuffer_wf (s : State) (buf : Buffer) (hw : s.mem.wf = true) :
    (s.resetBuffer buf).mem.wf = true := by
  simp only [State.resetBuffer]; (repeat' split) <;> first | exact hw | simp (maxDischargeDepth := 20) [hw, store_wf]

/-- What `resetAttn` leaves alone. -/
@[simp] theorem resetAttn_frame (s : State) :
    (s.resetAttn).mem = s.mem ∧ (s.resetAttn).pins = s.pins ∧ (s.resetAttn).port = s.port ∧
    (s.resetAttn).chain = s.chain ∧ (s.resetAttn).conv = s.conv ∧ (s.resetAttn).plan = s.plan ∧
    (s.resetAttn).sup = s.sup ∧ (s.resetAttn).ev = s.ev ∧ (s.resetAttn).power = s.power ∧
    (s.resetAttn).store = s.store ∧ (s.resetAttn).upd = s.upd ∧ (s.resetAttn).free = s.free ∧
    (s.resetAttn).pending = s.pending := by
  simp only [State.resetAttn]; (repeat' split) <;> (first | rfl | simp)

/-- What `takePlanTable` leaves alone. -/
@[simp] theorem takePlanTable_frame (s : State) :
    (s.takePlanTable).pins = s.pins ∧ (s.takePlanTable).port.notes = s.port.notes ∧
    (s.takePlanTable).port.slots = s.port.slots ∧ (s.takePlanTable).port.fault = s.port.fault ∧
    (s.takePlanTable).port.faultCount = s.port.faultCount ∧ (s.takePlanTable).attn.enables = s.attn.enables ∧
    (s.takePlanTable).attn.levels = s.attn.levels ∧ (s.takePlanTable).attn.mask = s.attn.mask ∧
    (s.takePlanTable).chain = s.chain ∧ (s.takePlanTable).conv = s.conv ∧
    (s.takePlanTable).plan.inForce = s.plan.inForce ∧ (s.takePlanTable).plan.dueDone = s.plan.dueDone ∧
    (s.takePlanTable).plan.overrun = s.plan.overrun ∧ (s.takePlanTable).plan.captures = s.plan.captures ∧
    (s.takePlanTable).plan.burst = s.plan.burst ∧ (s.takePlanTable).plan.kept = s.plan.kept ∧
    (s.takePlanTable).plan.high = s.plan.high ∧ (s.takePlanTable).plan.low = s.plan.low ∧
    (s.takePlanTable).plan.temp = s.plan.temp ∧ (s.takePlanTable).plan.implausible = s.plan.implausible ∧
    (s.takePlanTable).plan.fresh = s.plan.fresh ∧ (s.takePlanTable).plan.setSeq = s.plan.setSeq ∧
    (s.takePlanTable).plan.pages = s.plan.pages ∧ (s.takePlanTable).plan.pageAge = s.plan.pageAge ∧
    (s.takePlanTable).plan.writing = s.plan.writing ∧ (s.takePlanTable).plan.latest = s.plan.latest ∧
    (s.takePlanTable).plan.quiet = s.plan.quiet ∧ (s.takePlanTable).plan.patrolReport = s.plan.patrolReport ∧
    (s.takePlanTable).sup = s.sup ∧ (s.takePlanTable).ev = s.ev ∧ (s.takePlanTable).power = s.power ∧
    (s.takePlanTable).store = s.store ∧ (s.takePlanTable).upd = s.upd ∧ (s.takePlanTable).free = s.free ∧
    (s.takePlanTable).pending = s.pending := by
  simp only [State.takePlanTable]; (repeat' split) <;> (first | rfl | simp)

/-- `takePlanTable` keeps the canonical form of the memory. -/
@[simp] theorem takePlanTable_wf (s : State) (hw : s.mem.wf = true) :
    (s.takePlanTable).mem.wf = true := by
  simp only [State.takePlanTable]; (repeat' split) <;> first | exact hw | simp (maxDischargeDepth := 20) [hw, store_wf]

/-- What `takeLimitTable` leaves alone. -/
@[simp] theorem takeLimitTable_frame (s : State) :
    (s.takeLimitTable).pins = s.pins ∧ (s.takeLimitTable).port.notes = s.port.notes ∧
    (s.takeLimitTable).port.slots = s.port.slots ∧ (s.takeLimitTable).port.fault = s.port.fault ∧
    (s.takeLimitTable).port.faultCount = s.port.faultCount ∧ (s.takeLimitTable).attn.enables = s.attn.enables ∧
    (s.takeLimitTable).attn.levels = s.attn.levels ∧ (s.takeLimitTable).attn.mask = s.attn.mask ∧
    (s.takeLimitTable).chain = s.chain ∧ (s.takeLimitTable).conv = s.conv ∧ (s.takeLimitTable).plan = s.plan ∧
    (s.takeLimitTable).sup = s.sup ∧ (s.takeLimitTable).ev = s.ev ∧ (s.takeLimitTable).power = s.power ∧
    (s.takeLimitTable).store.nv = s.store.nv ∧ (s.takeLimitTable).store.work = s.store.work ∧
    (s.takeLimitTable).store.queue = s.store.queue ∧ (s.takeLimitTable).store.running = s.store.running ∧
    (s.takeLimitTable).store.startUp = s.store.startUp ∧ (s.takeLimitTable).store.active = s.store.active ∧
    (s.takeLimitTable).store.activeBank = s.store.activeBank ∧
    (s.takeLimitTable).store.activeVersion = s.store.activeVersion ∧
    (s.takeLimitTable).store.clampCount = s.store.clampCount ∧ (s.takeLimitTable).store.outcome = s.store.outcome ∧
    (s.takeLimitTable).store.faultCause = s.store.faultCause ∧
    (s.takeLimitTable).store.faultItem = s.store.faultItem ∧
    (s.takeLimitTable).store.faultCount = s.store.faultCount ∧ (s.takeLimitTable).store.lost = s.store.lost ∧
    (s.takeLimitTable).store.keySlip = s.store.keySlip ∧ (s.takeLimitTable).upd = s.upd ∧
    (s.takeLimitTable).free = s.free ∧ (s.takeLimitTable).pending = s.pending := by
  simp only [State.takeLimitTable]; (repeat' split) <;> (first | rfl | simp)

/-- `takeLimitTable` keeps the canonical form of the memory. -/
@[simp] theorem takeLimitTable_wf (s : State) (hw : s.mem.wf = true) :
    (s.takeLimitTable).mem.wf = true := by
  simp only [State.takeLimitTable]; (repeat' split) <;> first | exact hw | simp (maxDischargeDepth := 20) [hw, store_wf]

/-- What `takeWakeTable` leaves alone. -/
@[simp] theorem takeWakeTable_frame (s : State) :
    (s.takeWakeTable).pins = s.pins ∧ (s.takeWakeTable).port.notes = s.port.notes ∧
    (s.takeWakeTable).port.slots = s.port.slots ∧ (s.takeWakeTable).port.fault = s.port.fault ∧
    (s.takeWakeTable).port.faultCount = s.port.faultCount ∧ (s.takeWakeTable).attn.enables = s.attn.enables ∧
    (s.takeWakeTable).attn.levels = s.attn.levels ∧ (s.takeWakeTable).attn.mask = s.attn.mask ∧
    (s.takeWakeTable).chain = s.chain ∧ (s.takeWakeTable).conv = s.conv ∧ (s.takeWakeTable).plan = s.plan ∧
    (s.takeWakeTable).sup = s.sup ∧ (s.takeWakeTable).ev = s.ev ∧ (s.takeWakeTable).power.state = s.power.state ∧
    (s.takeWakeTable).power.entry = s.power.entry ∧ (s.takeWakeTable).power.snapOutcome = s.power.snapOutcome ∧
    (s.takeWakeTable).power.pend = s.power.pend ∧ (s.takeWakeTable).power.target = s.power.target ∧
    (s.takeWakeTable).power.timer = s.power.timer ∧ (s.takeWakeTable).power.timerRunning = s.power.timerRunning ∧
    (s.takeWakeTable).power.compRun = s.power.compRun ∧ (s.takeWakeTable).power.compFired = s.power.compFired ∧
    (s.takeWakeTable).power.settleAt = s.power.settleAt ∧ (s.takeWakeTable).power.settled = s.power.settled ∧
    (s.takeWakeTable).power.patrol = s.power.patrol ∧ (s.takeWakeTable).power.nextSlot = s.power.nextSlot ∧
    (s.takeWakeTable).power.lastNumber = s.power.lastNumber ∧ (s.takeWakeTable).power.estimate = s.power.estimate ∧
    (s.takeWakeTable).power.lastWake = s.power.lastWake ∧ (s.takeWakeTable).power.returning = s.power.returning ∧
    (s.takeWakeTable).power.lastReset = s.power.lastReset ∧ (s.takeWakeTable).power.resetCount = s.power.resetCount ∧
    (s.takeWakeTable).power.wakeOut = s.power.wakeOut ∧ (s.takeWakeTable).power.wakeOutAt = s.power.wakeOutAt ∧
    (s.takeWakeTable).store = s.store ∧ (s.takeWakeTable).upd = s.upd ∧ (s.takeWakeTable).free = s.free ∧
    (s.takeWakeTable).pending = s.pending := by
  simp only [State.takeWakeTable]; (repeat' split) <;> (first | rfl | simp)

/-- `takeWakeTable` keeps the canonical form of the memory. -/
@[simp] theorem takeWakeTable_wf (s : State) (hw : s.mem.wf = true) :
    (s.takeWakeTable).mem.wf = true := by
  simp only [State.takeWakeTable]; (repeat' split) <;> first | exact hw | simp (maxDischargeDepth := 20) [hw, store_wf]

/-- What `setModules` leaves alone. -/
@[simp] theorem setModules_frame (s : State) (l : List HostModule) :
    (s.setModules l).mem = s.mem ∧ (s.setModules l).pins = s.pins ∧ (s.setModules l).port = s.port ∧
    (s.setModules l).attn = s.attn ∧ (s.setModules l).chain.state = s.chain.state ∧
    (s.setModules l).chain.origin = s.chain.origin ∧ (s.setModules l).chain.wasDown = s.chain.wasDown ∧
    (s.setModules l).chain.downSince = s.chain.downSince ∧ (s.setModules l).chain.errs = s.chain.errs ∧
    (s.setModules l).chain.suspectSince = s.chain.suspectSince ∧
    (s.setModules l).chain.periodStart = s.chain.periodStart ∧
    (s.setModules l).chain.periodErrs = s.chain.periodErrs ∧ (s.setModules l).chain.capTag = s.chain.capTag ∧
    (s.setModules l).chain.exTag = s.chain.exTag ∧ (s.setModules l).chain.survey = s.chain.survey ∧
    (s.setModules l).chain.present = s.chain.present ∧ (s.setModules l).chain.configured = s.chain.configured ∧
    (s.setModules l).chain.breakLoc = s.chain.breakLoc ∧ (s.setModules l).chain.hold = s.chain.hold ∧
    (s.setModules l).chain.line = s.chain.line ∧ (s.setModules l).chain.lastSent = s.chain.lastSent ∧
    (s.setModules l).chain.sleepCmd = s.chain.sleepCmd ∧
    (s.setModules l).chain.wakeAfterSleep = s.chain.wakeAfterSleep ∧ (s.setModules l).chain.wake = s.chain.wake ∧
    (s.setModules l).chain.resetTone = s.chain.resetTone ∧ (s.setModules l).chain.surveyTimer = s.chain.surveyTimer ∧
    (s.setModules l).chain.firstUp = s.chain.firstUp ∧ (s.setModules l).chain.surveySlip = s.chain.surveySlip ∧
    (s.setModules l).chain.balance = s.chain.balance ∧ (s.setModules l).conv = s.conv ∧
    (s.setModules l).plan.plans = s.plan.plans ∧ (s.setModules l).plan.inForce = s.plan.inForce ∧
    (s.setModules l).plan.dueDone = s.plan.dueDone ∧ (s.setModules l).plan.overrun = s.plan.overrun ∧
    (s.setModules l).plan.captures = s.plan.captures ∧ (s.setModules l).plan.burst = s.plan.burst ∧
    (s.setModules l).plan.high = s.plan.high ∧ (s.setModules l).plan.low = s.plan.low ∧
    (s.setModules l).plan.temp = s.plan.temp ∧ (s.setModules l).plan.implausible = s.plan.implausible ∧
    (s.setModules l).plan.fresh = s.plan.fresh ∧ (s.setModules l).plan.setSeq = s.plan.setSeq ∧
    (s.setModules l).plan.pages = s.plan.pages ∧ (s.setModules l).plan.pageAge = s.plan.pageAge ∧
    (s.setModules l).plan.writing = s.plan.writing ∧ (s.setModules l).plan.latest = s.plan.latest ∧
    (s.setModules l).plan.quiet = s.plan.quiet ∧ (s.setModules l).plan.patrolReport = s.plan.patrolReport ∧
    (s.setModules l).sup = s.sup ∧ (s.setModules l).ev = s.ev ∧ (s.setModules l).power = s.power ∧
    (s.setModules l).store = s.store ∧ (s.setModules l).upd.state = s.upd.state ∧
    (s.setModules l).upd.slip = s.upd.slip ∧ (s.setModules l).upd.aborts = s.upd.aborts ∧
    (s.setModules l).upd.header = s.upd.header ∧ (s.setModules l).upd.staging = s.upd.staging ∧
    (s.setModules l).upd.expected = s.upd.expected ∧ (s.setModules l).upd.lastAcc = s.upd.lastAcc ∧
    (s.setModules l).upd.runCrc = s.upd.runCrc ∧ (s.setModules l).upd.absorbing = s.upd.absorbing ∧
    (s.setModules l).upd.waiting = s.upd.waiting ∧ (s.setModules l).upd.acc = s.upd.acc ∧
    (s.setModules l).upd.dup = s.upd.dup ∧ (s.setModules l).upd.rej = s.upd.rej ∧
    (s.setModules l).upd.turn = s.upd.turn ∧ (s.setModules l).upd.link = s.upd.link ∧
    (s.setModules l).upd.pause = s.upd.pause ∧ (s.setModules l).upd.switchPending = s.upd.switchPending ∧
    (s.setModules l).upd.commitReached = s.upd.commitReached ∧
    (s.setModules l).upd.floorWritten = s.upd.floorWritten ∧ (s.setModules l).upd.commit = s.upd.commit ∧
    (s.setModules l).upd.bankWritten = s.upd.bankWritten ∧ (s.setModules l).upd.window = s.upd.window ∧
    (s.setModules l).upd.aborting = s.upd.aborting ∧ (s.setModules l).upd.outcome = s.upd.outcome ∧
    (s.setModules l).upd.outcomeState = s.upd.outcomeState ∧ (s.setModules l).upd.watches = s.upd.watches ∧
    (s.setModules l).upd.checkAt = s.upd.checkAt ∧ (s.setModules l).free = s.free ∧
    (s.setModules l).pending = s.pending := by
  simp only [State.setModules]; (repeat' split) <;> (first | rfl | simp)

/-- What `takeModuleMap` leaves alone. -/
@[simp] theorem takeModuleMap_frame (s : State) :
    (s.takeModuleMap).pins = s.pins ∧ (s.takeModuleMap).port.notes = s.port.notes ∧
    (s.takeModuleMap).port.slots = s.port.slots ∧ (s.takeModuleMap).port.fault = s.port.fault ∧
    (s.takeModuleMap).port.faultCount = s.port.faultCount ∧ (s.takeModuleMap).attn.enables = s.attn.enables ∧
    (s.takeModuleMap).attn.levels = s.attn.levels ∧ (s.takeModuleMap).attn.mask = s.attn.mask ∧
    (s.takeModuleMap).chain.state = s.chain.state ∧ (s.takeModuleMap).chain.origin = s.chain.origin ∧
    (s.takeModuleMap).chain.wasDown = s.chain.wasDown ∧ (s.takeModuleMap).chain.downSince = s.chain.downSince ∧
    (s.takeModuleMap).chain.errs = s.chain.errs ∧ (s.takeModuleMap).chain.suspectSince = s.chain.suspectSince ∧
    (s.takeModuleMap).chain.periodStart = s.chain.periodStart ∧
    (s.takeModuleMap).chain.periodErrs = s.chain.periodErrs ∧ (s.takeModuleMap).chain.capTag = s.chain.capTag ∧
    (s.takeModuleMap).chain.exTag = s.chain.exTag ∧ (s.takeModuleMap).chain.survey = s.chain.survey ∧
    (s.takeModuleMap).chain.present = s.chain.present ∧ (s.takeModuleMap).chain.configured = s.chain.configured ∧
    (s.takeModuleMap).chain.breakLoc = s.chain.breakLoc ∧ (s.takeModuleMap).chain.hold = s.chain.hold ∧
    (s.takeModuleMap).chain.line = s.chain.line ∧ (s.takeModuleMap).chain.lastSent = s.chain.lastSent ∧
    (s.takeModuleMap).chain.sleepCmd = s.chain.sleepCmd ∧
    (s.takeModuleMap).chain.wakeAfterSleep = s.chain.wakeAfterSleep ∧ (s.takeModuleMap).chain.wake = s.chain.wake ∧
    (s.takeModuleMap).chain.resetTone = s.chain.resetTone ∧
    (s.takeModuleMap).chain.surveyTimer = s.chain.surveyTimer ∧ (s.takeModuleMap).chain.firstUp = s.chain.firstUp ∧
    (s.takeModuleMap).chain.surveySlip = s.chain.surveySlip ∧ (s.takeModuleMap).chain.balance = s.chain.balance ∧
    (s.takeModuleMap).conv = s.conv ∧ (s.takeModuleMap).plan.plans = s.plan.plans ∧
    (s.takeModuleMap).plan.inForce = s.plan.inForce ∧ (s.takeModuleMap).plan.dueDone = s.plan.dueDone ∧
    (s.takeModuleMap).plan.overrun = s.plan.overrun ∧ (s.takeModuleMap).plan.captures = s.plan.captures ∧
    (s.takeModuleMap).plan.burst = s.plan.burst ∧ (s.takeModuleMap).plan.high = s.plan.high ∧
    (s.takeModuleMap).plan.low = s.plan.low ∧ (s.takeModuleMap).plan.temp = s.plan.temp ∧
    (s.takeModuleMap).plan.implausible = s.plan.implausible ∧ (s.takeModuleMap).plan.fresh = s.plan.fresh ∧
    (s.takeModuleMap).plan.setSeq = s.plan.setSeq ∧ (s.takeModuleMap).plan.pages = s.plan.pages ∧
    (s.takeModuleMap).plan.pageAge = s.plan.pageAge ∧ (s.takeModuleMap).plan.writing = s.plan.writing ∧
    (s.takeModuleMap).plan.latest = s.plan.latest ∧ (s.takeModuleMap).plan.quiet = s.plan.quiet ∧
    (s.takeModuleMap).plan.patrolReport = s.plan.patrolReport ∧ (s.takeModuleMap).sup = s.sup ∧
    (s.takeModuleMap).ev = s.ev ∧ (s.takeModuleMap).power = s.power ∧ (s.takeModuleMap).store = s.store ∧
    (s.takeModuleMap).upd.state = s.upd.state ∧ (s.takeModuleMap).upd.slip = s.upd.slip ∧
    (s.takeModuleMap).upd.aborts = s.upd.aborts ∧ (s.takeModuleMap).upd.header = s.upd.header ∧
    (s.takeModuleMap).upd.staging = s.upd.staging ∧ (s.takeModuleMap).upd.expected = s.upd.expected ∧
    (s.takeModuleMap).upd.lastAcc = s.upd.lastAcc ∧ (s.takeModuleMap).upd.runCrc = s.upd.runCrc ∧
    (s.takeModuleMap).upd.absorbing = s.upd.absorbing ∧ (s.takeModuleMap).upd.waiting = s.upd.waiting ∧
    (s.takeModuleMap).upd.acc = s.upd.acc ∧ (s.takeModuleMap).upd.dup = s.upd.dup ∧
    (s.takeModuleMap).upd.rej = s.upd.rej ∧ (s.takeModuleMap).upd.turn = s.upd.turn ∧
    (s.takeModuleMap).upd.link = s.upd.link ∧ (s.takeModuleMap).upd.pause = s.upd.pause ∧
    (s.takeModuleMap).upd.switchPending = s.upd.switchPending ∧
    (s.takeModuleMap).upd.commitReached = s.upd.commitReached ∧
    (s.takeModuleMap).upd.floorWritten = s.upd.floorWritten ∧ (s.takeModuleMap).upd.commit = s.upd.commit ∧
    (s.takeModuleMap).upd.bankWritten = s.upd.bankWritten ∧ (s.takeModuleMap).upd.window = s.upd.window ∧
    (s.takeModuleMap).upd.aborting = s.upd.aborting ∧ (s.takeModuleMap).upd.outcome = s.upd.outcome ∧
    (s.takeModuleMap).upd.outcomeState = s.upd.outcomeState ∧ (s.takeModuleMap).upd.watches = s.upd.watches ∧
    (s.takeModuleMap).upd.checkAt = s.upd.checkAt ∧ (s.takeModuleMap).free = s.free ∧
    (s.takeModuleMap).pending = s.pending := by
  simp only [State.takeModuleMap]; (repeat' split) <;> (first | rfl | simp)

/-- `takeModuleMap` keeps the canonical form of the memory. -/
@[simp] theorem takeModuleMap_wf (s : State) (hw : s.mem.wf = true) :
    (s.takeModuleMap).mem.wf = true := by
  simp only [State.takeModuleMap]; (repeat' split) <;> first | exact hw | simp (maxDischargeDepth := 20) [hw, store_wf]

/-- What `chunkNote` leaves alone. -/
@[simp] theorem chunkNote_frame (s : State) (buf : Buffer) :
    (s.chunkNote buf).pins = s.pins ∧ (s.chunkNote buf).port = s.port ∧
    (s.chunkNote buf).attn.enables = s.attn.enables ∧ (s.chunkNote buf).attn.levels = s.attn.levels ∧
    (s.chunkNote buf).attn.mask = s.attn.mask ∧ (s.chunkNote buf).chain = s.chain ∧ (s.chunkNote buf).conv = s.conv ∧
    (s.chunkNote buf).plan = s.plan ∧ (s.chunkNote buf).sup = s.sup ∧ (s.chunkNote buf).ev = s.ev ∧
    (s.chunkNote buf).power = s.power ∧ (s.chunkNote buf).store = s.store ∧
    (s.chunkNote buf).upd.state = s.upd.state ∧ (s.chunkNote buf).upd.slip = s.upd.slip ∧
    (s.chunkNote buf).upd.aborts = s.upd.aborts ∧ (s.chunkNote buf).upd.header = s.upd.header ∧
    (s.chunkNote buf).upd.staging = s.upd.staging ∧ (s.chunkNote buf).upd.expected = s.upd.expected ∧
    (s.chunkNote buf).upd.lastAcc = s.upd.lastAcc ∧ (s.chunkNote buf).upd.runCrc = s.upd.runCrc ∧
    (s.chunkNote buf).upd.absorbing = s.upd.absorbing ∧ (s.chunkNote buf).upd.acc = s.upd.acc ∧
    (s.chunkNote buf).upd.dup = s.upd.dup ∧ (s.chunkNote buf).upd.dist = s.upd.dist ∧
    (s.chunkNote buf).upd.turn = s.upd.turn ∧ (s.chunkNote buf).upd.link = s.upd.link ∧
    (s.chunkNote buf).upd.pause = s.upd.pause ∧ (s.chunkNote buf).upd.switchPending = s.upd.switchPending ∧
    (s.chunkNote buf).upd.commitReached = s.upd.commitReached ∧
    (s.chunkNote buf).upd.floorWritten = s.upd.floorWritten ∧ (s.chunkNote buf).upd.commit = s.upd.commit ∧
    (s.chunkNote buf).upd.bankWritten = s.upd.bankWritten ∧ (s.chunkNote buf).upd.window = s.upd.window ∧
    (s.chunkNote buf).upd.aborting = s.upd.aborting ∧ (s.chunkNote buf).upd.outcome = s.upd.outcome ∧
    (s.chunkNote buf).upd.outcomeState = s.upd.outcomeState ∧ (s.chunkNote buf).upd.watches = s.upd.watches ∧
    (s.chunkNote buf).upd.checkAt = s.upd.checkAt ∧ (s.chunkNote buf).free = s.free ∧
    (s.chunkNote buf).pending = s.pending := by
  simp only [State.chunkNote]; (repeat' split) <;> (first | rfl | simp)

/-- `chunkNote` keeps the canonical form of the memory. -/
@[simp] theorem chunkNote_wf (s : State) (buf : Buffer) (hw : s.mem.wf = true) :
    (s.chunkNote buf).mem.wf = true := by
  simp only [State.chunkNote]; (repeat' split) <;> first | exact hw | simp (maxDischargeDepth := 20) [hw, store_wf]

/-- What `endModuleWake` leaves alone. -/
@[simp] theorem endModuleWake_frame (s : State) (gap : Bool) :
    (s.endModuleWake gap).pins = s.pins ∧ (s.endModuleWake gap).port = s.port ∧
    (s.endModuleWake gap).attn.enables = s.attn.enables ∧ (s.endModuleWake gap).attn.levels = s.attn.levels ∧
    (s.endModuleWake gap).attn.mask = s.attn.mask ∧ (s.endModuleWake gap).chain.wasDown = s.chain.wasDown ∧
    (s.endModuleWake gap).chain.downSince = s.chain.downSince ∧
    (s.endModuleWake gap).chain.suspectSince = s.chain.suspectSince ∧
    (s.endModuleWake gap).chain.periodStart = s.chain.periodStart ∧
    (s.endModuleWake gap).chain.periodErrs = s.chain.periodErrs ∧ (s.endModuleWake gap).chain.capTag = s.chain.capTag ∧
    (s.endModuleWake gap).chain.survey = s.chain.survey ∧ (s.endModuleWake gap).chain.present = s.chain.present ∧
    (s.endModuleWake gap).chain.configured = s.chain.configured ∧ (s.endModuleWake gap).chain.breakLoc = s.chain.breakLoc ∧
    (s.endModuleWake gap).chain.map = s.chain.map ∧ (s.endModuleWake gap).chain.lastSent = s.chain.lastSent ∧
    (s.endModuleWake gap).chain.sleepCmd = s.chain.sleepCmd ∧
    (s.endModuleWake gap).chain.wakeAfterSleep = s.chain.wakeAfterSleep ∧
    (s.endModuleWake gap).chain.resetTone = s.chain.resetTone ∧ (s.endModuleWake gap).chain.firstUp = s.chain.firstUp ∧
    (s.endModuleWake gap).chain.surveySlip = s.chain.surveySlip ∧ (s.endModuleWake gap).chain.balance = s.chain.balance ∧
    (s.endModuleWake gap).chain.returning = s.chain.returning ∧ (s.endModuleWake gap).conv.part = s.conv.part ∧
    (s.endModuleWake gap).conv.charge = s.conv.charge ∧ (s.endModuleWake gap).conv.chargeSat = s.conv.chargeSat ∧
    (s.endModuleWake gap).conv.restored = s.conv.restored ∧ (s.endModuleWake gap).conv.unsampled = s.conv.unsampled ∧
    (s.endModuleWake gap).conv.estimate = s.conv.estimate ∧ (s.endModuleWake gap).conv.recNumber = s.conv.recNumber ∧
    (s.endModuleWake gap).plan.plans = s.plan.plans ∧ (s.endModuleWake gap).plan.inForce = s.plan.inForce ∧
    (s.endModuleWake gap).plan.dueDone = s.plan.dueDone ∧ (s.endModuleWake gap).plan.overrun = s.plan.overrun ∧
    (s.endModuleWake gap).plan.burst = s.plan.burst ∧ (s.endModuleWake gap).plan.kept = s.plan.kept ∧
    (s.endModuleWake gap).plan.setSeq = s.plan.setSeq ∧ (s.endModuleWake gap).plan.pages = s.plan.pages ∧
    (s.endModuleWake gap).plan.pageAge = s.plan.pageAge ∧ (s.endModuleWake gap).plan.writing = s.plan.writing ∧
    (s.endModuleWake gap).plan.latest = s.plan.latest ∧ (s.endModuleWake gap).sup.state = s.sup.state ∧
    (s.endModuleWake gap).sup.waiting = s.sup.waiting ∧ (s.endModuleWake gap).sup.mainNeg = s.sup.mainNeg ∧
    (s.endModuleWake gap).sup.precharge = s.sup.precharge ∧ (s.endModuleWake gap).sup.mainPos = s.sup.mainPos ∧
    (s.endModuleWake gap).sup.inrush = s.sup.inrush ∧ (s.endModuleWake gap).sup.close = s.sup.close ∧
    (s.endModuleWake gap).sup.settleAt = s.sup.settleAt ∧ (s.endModuleWake gap).sup.opening = s.sup.opening ∧
    (s.endModuleWake gap).sup.weld = s.sup.weld ∧ (s.endModuleWake gap).sup.clear = s.sup.clear ∧
    (s.endModuleWake gap).sup.deferral = s.sup.deferral ∧ (s.endModuleWake gap).sup.hardDue = s.sup.hardDue ∧
    (s.endModuleWake gap).sup.faultedSince = s.sup.faultedSince ∧ (s.endModuleWake gap).sup.lossHeld = s.sup.lossHeld ∧
    (s.endModuleWake gap).sup.lossDue = s.sup.lossDue ∧ (s.endModuleWake gap).sup.once = s.sup.once ∧
    (s.endModuleWake gap).ev.age = s.ev.age ∧ (s.endModuleWake gap).ev.next = s.ev.next ∧
    (s.endModuleWake gap).power.entry = s.power.entry ∧ (s.endModuleWake gap).power.snapOutcome = s.power.snapOutcome ∧
    (s.endModuleWake gap).power.wakeTable = s.power.wakeTable ∧ (s.endModuleWake gap).power.timer = s.power.timer ∧
    (s.endModuleWake gap).power.timerRunning = s.power.timerRunning ∧ (s.endModuleWake gap).power.compRun = s.power.compRun ∧
    (s.endModuleWake gap).power.compFired = s.power.compFired ∧ (s.endModuleWake gap).power.settleAt = s.power.settleAt ∧
    (s.endModuleWake gap).power.settled = s.power.settled ∧ (s.endModuleWake gap).power.nextSlot = s.power.nextSlot ∧
    (s.endModuleWake gap).power.lastNumber = s.power.lastNumber ∧ (s.endModuleWake gap).power.estimate = s.power.estimate ∧
    (s.endModuleWake gap).power.lastReset = s.power.lastReset ∧ (s.endModuleWake gap).power.resetCount = s.power.resetCount ∧
    (s.endModuleWake gap).store = s.store ∧ (s.endModuleWake gap).upd = s.upd ∧ (s.endModuleWake gap).free = s.free ∧
    (s.endModuleWake gap).pending = s.pending := by
  simp only [State.endModuleWake]; (repeat' split) <;> (first | rfl | simp)

/-- `endModuleWake` keeps the canonical form of the memory. -/
@[simp] theorem endModuleWake_wf (s : State) (gap : Bool) (hw : s.mem.wf = true) :
    (s.endModuleWake gap).mem.wf = true := by
  simp only [State.endModuleWake]; (repeat' split) <;> first | exact hw | simp (maxDischargeDepth := 20) [hw, store_wf]

/-- What `sentFrame` leaves alone. -/
@[simp] theorem sentFrame_frame (s : State) (f : Frame) :
    (s.sentFrame f).mem = s.mem ∧ (s.sentFrame f).pins = s.pins ∧ (s.sentFrame f).port = s.port ∧
    (s.sentFrame f).attn = s.attn ∧ (s.sentFrame f).chain.state = s.chain.state ∧
    (s.sentFrame f).chain.origin = s.chain.origin ∧ (s.sentFrame f).chain.wasDown = s.chain.wasDown ∧
    (s.sentFrame f).chain.downSince = s.chain.downSince ∧ (s.sentFrame f).chain.errs = s.chain.errs ∧
    (s.sentFrame f).chain.suspectSince = s.chain.suspectSince ∧
    (s.sentFrame f).chain.periodStart = s.chain.periodStart ∧
    (s.sentFrame f).chain.periodErrs = s.chain.periodErrs ∧ (s.sentFrame f).chain.capTag = s.chain.capTag ∧
    (s.sentFrame f).chain.exTag = s.chain.exTag ∧ (s.sentFrame f).chain.survey = s.chain.survey ∧
    (s.sentFrame f).chain.present = s.chain.present ∧ (s.sentFrame f).chain.configured = s.chain.configured ∧
    (s.sentFrame f).chain.breakLoc = s.chain.breakLoc ∧ (s.sentFrame f).chain.map = s.chain.map ∧
    (s.sentFrame f).chain.hold = s.chain.hold ∧ (s.sentFrame f).chain.line = s.chain.line ∧
    (s.sentFrame f).chain.requests = s.chain.requests ∧ (s.sentFrame f).chain.sleepCmd = s.chain.sleepCmd ∧
    (s.sentFrame f).chain.wakeAfterSleep = s.chain.wakeAfterSleep ∧ (s.sentFrame f).chain.wake = s.chain.wake ∧
    (s.sentFrame f).chain.surveyTimer = s.chain.surveyTimer ∧ (s.sentFrame f).chain.firstUp = s.chain.firstUp ∧
    (s.sentFrame f).chain.surveySlip = s.chain.surveySlip ∧ (s.sentFrame f).chain.balance = s.chain.balance ∧
    (s.sentFrame f).chain.returning = s.chain.returning ∧ (s.sentFrame f).conv = s.conv ∧
    (s.sentFrame f).plan = s.plan ∧ (s.sentFrame f).sup = s.sup ∧ (s.sentFrame f).ev = s.ev ∧
    (s.sentFrame f).power = s.power ∧ (s.sentFrame f).store = s.store ∧ (s.sentFrame f).upd = s.upd ∧
    (s.sentFrame f).free = s.free ∧ (s.sentFrame f).pending = s.pending := by
  simp only [State.sentFrame]; (repeat' split) <;> (first | rfl | simp)

/-- What `endExchange` leaves alone. -/
@[simp] theorem endExchange_frame (s : State) :
    (s.endExchange).mem = s.mem ∧ (s.endExchange).pins = s.pins ∧ (s.endExchange).port = s.port ∧
    (s.endExchange).attn = s.attn ∧ (s.endExchange).chain.state = s.chain.state ∧
    (s.endExchange).chain.origin = s.chain.origin ∧ (s.endExchange).chain.wasDown = s.chain.wasDown ∧
    (s.endExchange).chain.downSince = s.chain.downSince ∧ (s.endExchange).chain.errs = s.chain.errs ∧
    (s.endExchange).chain.suspectSince = s.chain.suspectSince ∧
    (s.endExchange).chain.periodStart = s.chain.periodStart ∧ (s.endExchange).chain.periodErrs = s.chain.periodErrs ∧
    (s.endExchange).chain.capTag = s.chain.capTag ∧ (s.endExchange).chain.exTag = s.chain.exTag ∧
    (s.endExchange).chain.survey = s.chain.survey ∧ (s.endExchange).chain.present = s.chain.present ∧
    (s.endExchange).chain.configured = s.chain.configured ∧ (s.endExchange).chain.breakLoc = s.chain.breakLoc ∧
    (s.endExchange).chain.map = s.chain.map ∧ (s.endExchange).chain.lastSent = s.chain.lastSent ∧
    (s.endExchange).chain.requests = s.chain.requests ∧ (s.endExchange).chain.sleepCmd = s.chain.sleepCmd ∧
    (s.endExchange).chain.wakeAfterSleep = s.chain.wakeAfterSleep ∧ (s.endExchange).chain.wake = s.chain.wake ∧
    (s.endExchange).chain.resetTone = s.chain.resetTone ∧ (s.endExchange).chain.surveyTimer = s.chain.surveyTimer ∧
    (s.endExchange).chain.firstUp = s.chain.firstUp ∧ (s.endExchange).chain.surveySlip = s.chain.surveySlip ∧
    (s.endExchange).chain.balance = s.chain.balance ∧ (s.endExchange).chain.returning = s.chain.returning ∧
    (s.endExchange).conv = s.conv ∧ (s.endExchange).plan = s.plan ∧ (s.endExchange).sup = s.sup ∧
    (s.endExchange).ev = s.ev ∧ (s.endExchange).power = s.power ∧ (s.endExchange).store = s.store ∧
    (s.endExchange).upd = s.upd ∧ (s.endExchange).free = s.free ∧ (s.endExchange).pending = s.pending := by
  simp only [State.endExchange]; (repeat' split) <;> (first | rfl | simp)

/-- What `captureGoesOn` leaves alone. -/
@[simp] theorem captureGoesOn_frame (s : State) :
    (s.captureGoesOn).mem = s.mem ∧ (s.captureGoesOn).pins = s.pins ∧ (s.captureGoesOn).port = s.port ∧
    (s.captureGoesOn).attn = s.attn ∧ (s.captureGoesOn).chain.state = s.chain.state ∧
    (s.captureGoesOn).chain.origin = s.chain.origin ∧ (s.captureGoesOn).chain.wasDown = s.chain.wasDown ∧
    (s.captureGoesOn).chain.downSince = s.chain.downSince ∧ (s.captureGoesOn).chain.errs = s.chain.errs ∧
    (s.captureGoesOn).chain.suspectSince = s.chain.suspectSince ∧
    (s.captureGoesOn).chain.periodStart = s.chain.periodStart ∧
    (s.captureGoesOn).chain.periodErrs = s.chain.periodErrs ∧ (s.captureGoesOn).chain.capTag = s.chain.capTag ∧
    (s.captureGoesOn).chain.exTag = s.chain.exTag ∧ (s.captureGoesOn).chain.survey = s.chain.survey ∧
    (s.captureGoesOn).chain.present = s.chain.present ∧ (s.captureGoesOn).chain.configured = s.chain.configured ∧
    (s.captureGoesOn).chain.breakLoc = s.chain.breakLoc ∧ (s.captureGoesOn).chain.map = s.chain.map ∧
    (s.captureGoesOn).chain.lastSent = s.chain.lastSent ∧ (s.captureGoesOn).chain.requests = s.chain.requests ∧
    (s.captureGoesOn).chain.sleepCmd = s.chain.sleepCmd ∧
    (s.captureGoesOn).chain.wakeAfterSleep = s.chain.wakeAfterSleep ∧ (s.captureGoesOn).chain.wake = s.chain.wake ∧
    (s.captureGoesOn).chain.resetTone = s.chain.resetTone ∧
    (s.captureGoesOn).chain.surveyTimer = s.chain.surveyTimer ∧ (s.captureGoesOn).chain.firstUp = s.chain.firstUp ∧
    (s.captureGoesOn).chain.surveySlip = s.chain.surveySlip ∧ (s.captureGoesOn).chain.balance = s.chain.balance ∧
    (s.captureGoesOn).chain.returning = s.chain.returning ∧ (s.captureGoesOn).conv = s.conv ∧
    (s.captureGoesOn).plan.plans = s.plan.plans ∧ (s.captureGoesOn).plan.inForce = s.plan.inForce ∧
    (s.captureGoesOn).plan.dueDone = s.plan.dueDone ∧ (s.captureGoesOn).plan.overrun = s.plan.overrun ∧
    (s.captureGoesOn).plan.burst = s.plan.burst ∧ (s.captureGoesOn).plan.high = s.plan.high ∧
    (s.captureGoesOn).plan.low = s.plan.low ∧ (s.captureGoesOn).plan.temp = s.plan.temp ∧
    (s.captureGoesOn).plan.implausible = s.plan.implausible ∧ (s.captureGoesOn).plan.fresh = s.plan.fresh ∧
    (s.captureGoesOn).plan.setSeq = s.plan.setSeq ∧ (s.captureGoesOn).plan.pages = s.plan.pages ∧
    (s.captureGoesOn).plan.pageAge = s.plan.pageAge ∧ (s.captureGoesOn).plan.writing = s.plan.writing ∧
    (s.captureGoesOn).plan.latest = s.plan.latest ∧ (s.captureGoesOn).plan.quiet = s.plan.quiet ∧
    (s.captureGoesOn).plan.patrolReport = s.plan.patrolReport ∧ (s.captureGoesOn).sup = s.sup ∧
    (s.captureGoesOn).ev = s.ev ∧ (s.captureGoesOn).power = s.power ∧ (s.captureGoesOn).store = s.store ∧
    (s.captureGoesOn).upd = s.upd ∧ (s.captureGoesOn).free = s.free ∧ (s.captureGoesOn).pending = s.pending := by
  simp only [State.captureGoesOn]; (repeat' split) <;> (first | rfl | simp)

/-- What `switchSent` leaves alone. -/
@[simp] theorem switchSent_frame (s : State) :
    (s.switchSent).mem = s.mem ∧ (s.switchSent).pins = s.pins ∧ (s.switchSent).port = s.port ∧
    (s.switchSent).attn = s.attn ∧ (s.switchSent).chain.state = s.chain.state ∧
    (s.switchSent).chain.origin = s.chain.origin ∧ (s.switchSent).chain.wasDown = s.chain.wasDown ∧
    (s.switchSent).chain.downSince = s.chain.downSince ∧ (s.switchSent).chain.errs = s.chain.errs ∧
    (s.switchSent).chain.suspectSince = s.chain.suspectSince ∧
    (s.switchSent).chain.periodStart = s.chain.periodStart ∧ (s.switchSent).chain.periodErrs = s.chain.periodErrs ∧
    (s.switchSent).chain.capTag = s.chain.capTag ∧ (s.switchSent).chain.exTag = s.chain.exTag ∧
    (s.switchSent).chain.survey = s.chain.survey ∧ (s.switchSent).chain.present = s.chain.present ∧
    (s.switchSent).chain.configured = s.chain.configured ∧ (s.switchSent).chain.breakLoc = s.chain.breakLoc ∧
    (s.switchSent).chain.map = s.chain.map ∧ (s.switchSent).chain.lastSent = s.chain.lastSent ∧
    (s.switchSent).chain.requests = s.chain.requests ∧ (s.switchSent).chain.sleepCmd = s.chain.sleepCmd ∧
    (s.switchSent).chain.wakeAfterSleep = s.chain.wakeAfterSleep ∧ (s.switchSent).chain.wake = s.chain.wake ∧
    (s.switchSent).chain.resetTone = s.chain.resetTone ∧ (s.switchSent).chain.surveyTimer = s.chain.surveyTimer ∧
    (s.switchSent).chain.firstUp = s.chain.firstUp ∧ (s.switchSent).chain.surveySlip = s.chain.surveySlip ∧
    (s.switchSent).chain.balance = s.chain.balance ∧ (s.switchSent).chain.returning = s.chain.returning ∧
    (s.switchSent).conv = s.conv ∧ (s.switchSent).plan = s.plan ∧ (s.switchSent).sup = s.sup ∧
    (s.switchSent).ev = s.ev ∧ (s.switchSent).power = s.power ∧ (s.switchSent).store = s.store ∧
    (s.switchSent).upd.state = s.upd.state ∧ (s.switchSent).upd.slip = s.upd.slip ∧
    (s.switchSent).upd.aborts = s.upd.aborts ∧ (s.switchSent).upd.header = s.upd.header ∧
    (s.switchSent).upd.staging = s.upd.staging ∧ (s.switchSent).upd.expected = s.upd.expected ∧
    (s.switchSent).upd.lastAcc = s.upd.lastAcc ∧ (s.switchSent).upd.runCrc = s.upd.runCrc ∧
    (s.switchSent).upd.absorbing = s.upd.absorbing ∧ (s.switchSent).upd.waiting = s.upd.waiting ∧
    (s.switchSent).upd.acc = s.upd.acc ∧ (s.switchSent).upd.dup = s.upd.dup ∧ (s.switchSent).upd.rej = s.upd.rej ∧
    (s.switchSent).upd.dist = s.upd.dist ∧ (s.switchSent).upd.turn = s.upd.turn ∧
    (s.switchSent).upd.pause = s.upd.pause ∧ (s.switchSent).upd.switchPending = s.upd.switchPending ∧
    (s.switchSent).upd.commitReached = s.upd.commitReached ∧ (s.switchSent).upd.floorWritten = s.upd.floorWritten ∧
    (s.switchSent).upd.commit = s.upd.commit ∧ (s.switchSent).upd.bankWritten = s.upd.bankWritten ∧
    (s.switchSent).upd.aborting = s.upd.aborting ∧ (s.switchSent).upd.outcome = s.upd.outcome ∧
    (s.switchSent).upd.outcomeState = s.upd.outcomeState ∧ (s.switchSent).upd.watches = s.upd.watches ∧
    (s.switchSent).upd.checkAt = s.upd.checkAt ∧ (s.switchSent).free = s.free ∧ (s.switchSent).pending = s.pending := by
  simp only [State.switchSent]; (repeat' split) <;> (first | rfl | simp)

/-- What `readMissed` leaves alone. -/
@[simp] theorem readMissed_frame (s : State) (us : Us) (a : Nat) :
    (s.readMissed us a).pins = s.pins ∧ (s.readMissed us a).port = s.port ∧
    (s.readMissed us a).attn.enables = s.attn.enables ∧ (s.readMissed us a).attn.levels = s.attn.levels ∧
    (s.readMissed us a).attn.mask = s.attn.mask ∧ (s.readMissed us a).chain.origin = s.chain.origin ∧
    (s.readMissed us a).chain.wasDown = s.chain.wasDown ∧ (s.readMissed us a).chain.downSince = s.chain.downSince ∧
    (s.readMissed us a).chain.capTag = s.chain.capTag ∧ (s.readMissed us a).chain.exTag = s.chain.exTag ∧
    (s.readMissed us a).chain.survey = s.chain.survey ∧ (s.readMissed us a).chain.present = s.chain.present ∧
    (s.readMissed us a).chain.configured = s.chain.configured ∧
    (s.readMissed us a).chain.breakLoc = s.chain.breakLoc ∧ (s.readMissed us a).chain.lastSent = s.chain.lastSent ∧
    (s.readMissed us a).chain.requests = s.chain.requests ∧ (s.readMissed us a).chain.sleepCmd = s.chain.sleepCmd ∧
    (s.readMissed us a).chain.wakeAfterSleep = s.chain.wakeAfterSleep ∧
    (s.readMissed us a).chain.wake = s.chain.wake ∧ (s.readMissed us a).chain.resetTone = s.chain.resetTone ∧
    (s.readMissed us a).chain.surveyTimer = s.chain.surveyTimer ∧
    (s.readMissed us a).chain.firstUp = s.chain.firstUp ∧ (s.readMissed us a).chain.surveySlip = s.chain.surveySlip ∧
    (s.readMissed us a).chain.balance = s.chain.balance ∧ (s.readMissed us a).chain.returning = s.chain.returning ∧
    (s.readMissed us a).conv = s.conv ∧ (s.readMissed us a).plan.plans = s.plan.plans ∧
    (s.readMissed us a).plan.inForce = s.plan.inForce ∧ (s.readMissed us a).plan.dueDone = s.plan.dueDone ∧
    (s.readMissed us a).plan.overrun = s.plan.overrun ∧ (s.readMissed us a).plan.burst = s.plan.burst ∧
    (s.readMissed us a).plan.high = s.plan.high ∧ (s.readMissed us a).plan.low = s.plan.low ∧
    (s.readMissed us a).plan.temp = s.plan.temp ∧ (s.readMissed us a).plan.implausible = s.plan.implausible ∧
    (s.readMissed us a).plan.fresh = s.plan.fresh ∧ (s.readMissed us a).plan.setSeq = s.plan.setSeq ∧
    (s.readMissed us a).plan.pages = s.plan.pages ∧ (s.readMissed us a).plan.pageAge = s.plan.pageAge ∧
    (s.readMissed us a).plan.writing = s.plan.writing ∧ (s.readMissed us a).plan.latest = s.plan.latest ∧
    (s.readMissed us a).plan.quiet = s.plan.quiet ∧ (s.readMissed us a).plan.patrolReport = s.plan.patrolReport ∧
    (s.readMissed us a).sup = s.sup ∧ (s.readMissed us a).ev = s.ev ∧ (s.readMissed us a).power = s.power ∧
    (s.readMissed us a).store = s.store ∧ (s.readMissed us a).upd = s.upd ∧ (s.readMissed us a).free = s.free ∧
    (s.readMissed us a).pending = s.pending := by
  simp only [State.readMissed]; (repeat' split) <;> (first | rfl | simp)

/-- `readMissed` keeps the canonical form of the memory. -/
@[simp] theorem readMissed_wf (s : State) (us : Us) (a : Nat) (hw : s.mem.wf = true) :
    (s.readMissed us a).mem.wf = true := by
  simp only [State.readMissed]; (repeat' split) <;> first | exact hw | simp (maxDischargeDepth := 20) [hw, store_wf]

/-- What `readGood` leaves alone. -/
@[simp] theorem readGood_frame (s : State) (a : Nat) (codes : List Half) (status : ModuleStatus) (version : Half) :
    (s.readGood a codes status version).pins = s.pins ∧ (s.readGood a codes status version).port = s.port ∧
    (s.readGood a codes status version).attn.enables = s.attn.enables ∧
    (s.readGood a codes status version).attn.levels = s.attn.levels ∧
    (s.readGood a codes status version).attn.mask = s.attn.mask ∧
    (s.readGood a codes status version).chain.state = s.chain.state ∧
    (s.readGood a codes status version).chain.origin = s.chain.origin ∧
    (s.readGood a codes status version).chain.wasDown = s.chain.wasDown ∧
    (s.readGood a codes status version).chain.downSince = s.chain.downSince ∧
    (s.readGood a codes status version).chain.errs = s.chain.errs ∧
    (s.readGood a codes status version).chain.suspectSince = s.chain.suspectSince ∧
    (s.readGood a codes status version).chain.periodStart = s.chain.periodStart ∧
    (s.readGood a codes status version).chain.periodErrs = s.chain.periodErrs ∧
    (s.readGood a codes status version).chain.capTag = s.chain.capTag ∧
    (s.readGood a codes status version).chain.exTag = s.chain.exTag ∧
    (s.readGood a codes status version).chain.survey = s.chain.survey ∧
    (s.readGood a codes status version).chain.present = s.chain.present ∧
    (s.readGood a codes status version).chain.configured = s.chain.configured ∧
    (s.readGood a codes status version).chain.breakLoc = s.chain.breakLoc ∧
    (s.readGood a codes status version).chain.lastSent = s.chain.lastSent ∧
    (s.readGood a codes status version).chain.requests = s.chain.requests ∧
    (s.readGood a codes status version).chain.sleepCmd = s.chain.sleepCmd ∧
    (s.readGood a codes status version).chain.wakeAfterSleep = s.chain.wakeAfterSleep ∧
    (s.readGood a codes status version).chain.wake = s.chain.wake ∧
    (s.readGood a codes status version).chain.resetTone = s.chain.resetTone ∧
    (s.readGood a codes status version).chain.surveyTimer = s.chain.surveyTimer ∧
    (s.readGood a codes status version).chain.firstUp = s.chain.firstUp ∧
    (s.readGood a codes status version).chain.surveySlip = s.chain.surveySlip ∧
    (s.readGood a codes status version).chain.balance = s.chain.balance ∧
    (s.readGood a codes status version).chain.returning = s.chain.returning ∧
    (s.readGood a codes status version).conv = s.conv ∧
    (s.readGood a codes status version).plan.plans = s.plan.plans ∧
    (s.readGood a codes status version).plan.inForce = s.plan.inForce ∧
    (s.readGood a codes status version).plan.dueDone = s.plan.dueDone ∧
    (s.readGood a codes status version).plan.overrun = s.plan.overrun ∧
    (s.readGood a codes status version).plan.burst = s.plan.burst ∧
    (s.readGood a codes status version).plan.high = s.plan.high ∧
    (s.readGood a codes status version).plan.low = s.plan.low ∧
    (s.readGood a codes status version).plan.temp = s.plan.temp ∧
    (s.readGood a codes status version).plan.implausible = s.plan.implausible ∧
    (s.readGood a codes status version).plan.fresh = s.plan.fresh ∧
    (s.readGood a codes status version).plan.setSeq = s.plan.setSeq ∧
    (s.readGood a codes status version).plan.pages = s.plan.pages ∧
    (s.readGood a codes status version).plan.pageAge = s.plan.pageAge ∧
    (s.readGood a codes status version).plan.writing = s.plan.writing ∧
    (s.readGood a codes status version).plan.latest = s.plan.latest ∧
    (s.readGood a codes status version).plan.quiet = s.plan.quiet ∧
    (s.readGood a codes status version).plan.patrolReport = s.plan.patrolReport ∧
    (s.readGood a codes status version).sup = s.sup ∧ (s.readGood a codes status version).ev = s.ev ∧
    (s.readGood a codes status version).power = s.power ∧ (s.readGood a codes status version).store = s.store ∧
    (s.readGood a codes status version).upd = s.upd ∧ (s.readGood a codes status version).free = s.free ∧
    (s.readGood a codes status version).pending = s.pending := by
  simp only [State.readGood]; (repeat' split) <;> (first | rfl | simp)

/-- `readGood` keeps the canonical form of the memory. -/
@[simp] theorem readGood_wf (s : State) (a : Nat) (codes : List Half) (status : ModuleStatus) (version : Half) (hw : s.mem.wf = true) :
    (s.readGood a codes status version).mem.wf = true := by
  simp only [State.readGood]; (repeat' split) <;> first | exact hw | simp (maxDischargeDepth := 20) [hw, store_wf]

/-- What `firmwareFailed` leaves alone. -/
@[simp] theorem firmwareFailed_frame (s : State) (us : Us) (r : FwReq) (live : Bool) :
    (s.firmwareFailed us r live).pins = s.pins ∧ (s.firmwareFailed us r live).port.notes = s.port.notes ∧
    (s.firmwareFailed us r live).port.fault = s.port.fault ∧
    (s.firmwareFailed us r live).port.faultCount = s.port.faultCount ∧
    (s.firmwareFailed us r live).port.tables = s.port.tables ∧
    (s.firmwareFailed us r live).port.lastTable = s.port.lastTable ∧
    (s.firmwareFailed us r live).attn.enables = s.attn.enables ∧
    (s.firmwareFailed us r live).attn.levels = s.attn.levels ∧ (s.firmwareFailed us r live).attn.mask = s.attn.mask ∧
    (s.firmwareFailed us r live).chain.origin = s.chain.origin ∧
    (s.firmwareFailed us r live).chain.wasDown = s.chain.wasDown ∧
    (s.firmwareFailed us r live).chain.downSince = s.chain.downSince ∧
    (s.firmwareFailed us r live).chain.capTag = s.chain.capTag ∧
    (s.firmwareFailed us r live).chain.exTag = s.chain.exTag ∧
    (s.firmwareFailed us r live).chain.survey = s.chain.survey ∧
    (s.firmwareFailed us r live).chain.present = s.chain.present ∧
    (s.firmwareFailed us r live).chain.configured = s.chain.configured ∧
    (s.firmwareFailed us r live).chain.breakLoc = s.chain.breakLoc ∧
    (s.firmwareFailed us r live).chain.lastSent = s.chain.lastSent ∧
    (s.firmwareFailed us r live).chain.sleepCmd = s.chain.sleepCmd ∧
    (s.firmwareFailed us r live).chain.wakeAfterSleep = s.chain.wakeAfterSleep ∧
    (s.firmwareFailed us r live).chain.wake = s.chain.wake ∧
    (s.firmwareFailed us r live).chain.resetTone = s.chain.resetTone ∧
    (s.firmwareFailed us r live).chain.surveyTimer = s.chain.surveyTimer ∧
    (s.firmwareFailed us r live).chain.firstUp = s.chain.firstUp ∧
    (s.firmwareFailed us r live).chain.surveySlip = s.chain.surveySlip ∧
    (s.firmwareFailed us r live).chain.balance = s.chain.balance ∧
    (s.firmwareFailed us r live).chain.returning = s.chain.returning ∧ (s.firmwareFailed us r live).conv = s.conv ∧
    (s.firmwareFailed us r live).plan = s.plan ∧ (s.firmwareFailed us r live).sup = s.sup ∧
    (s.firmwareFailed us r live).ev.slots = s.ev.slots ∧ (s.firmwareFailed us r live).ev.age = s.ev.age ∧
    (s.firmwareFailed us r live).ev.next = s.ev.next ∧ (s.firmwareFailed us r live).ev.filling = s.ev.filling ∧
    (s.firmwareFailed us r live).power = s.power ∧ (s.firmwareFailed us r live).store.nv = s.store.nv ∧
    (s.firmwareFailed us r live).store.work = s.store.work ∧
    (s.firmwareFailed us r live).store.running = s.store.running ∧
    (s.firmwareFailed us r live).store.startUp = s.store.startUp ∧
    (s.firmwareFailed us r live).store.active = s.store.active ∧
    (s.firmwareFailed us r live).store.activeBank = s.store.activeBank ∧
    (s.firmwareFailed us r live).store.activeVersion = s.store.activeVersion ∧
    (s.firmwareFailed us r live).store.clampCount = s.store.clampCount ∧
    (s.firmwareFailed us r live).store.outcome = s.store.outcome ∧
    (s.firmwareFailed us r live).store.faultCause = s.store.faultCause ∧
    (s.firmwareFailed us r live).store.faultItem = s.store.faultItem ∧
    (s.firmwareFailed us r live).store.faultCount = s.store.faultCount ∧
    (s.firmwareFailed us r live).store.lost = s.store.lost ∧
    (s.firmwareFailed us r live).store.taken = s.store.taken ∧
    (s.firmwareFailed us r live).store.inForce = s.store.inForce ∧
    (s.firmwareFailed us r live).store.rangeClamps = s.store.rangeClamps ∧
    (s.firmwareFailed us r live).store.hardClamps = s.store.hardClamps ∧
    (s.firmwareFailed us r live).store.keySlip = s.store.keySlip ∧
    (s.firmwareFailed us r live).upd.header = s.upd.header ∧
    (s.firmwareFailed us r live).upd.expected = s.upd.expected ∧
    (s.firmwareFailed us r live).upd.lastAcc = s.upd.lastAcc ∧
    (s.firmwareFailed us r live).upd.runCrc = s.upd.runCrc ∧
    (s.firmwareFailed us r live).upd.waiting = s.upd.waiting ∧ (s.firmwareFailed us r live).upd.acc = s.upd.acc ∧
    (s.firmwareFailed us r live).upd.dup = s.upd.dup ∧
    (s.firmwareFailed us r live).upd.commitReached = s.upd.commitReached ∧
    (s.firmwareFailed us r live).upd.bankWritten = s.upd.bankWritten ∧
    (s.firmwareFailed us r live).upd.watches = s.upd.watches ∧
    (s.firmwareFailed us r live).upd.checkAt = s.upd.checkAt ∧ (s.firmwareFailed us r live).free = s.free ∧
    (s.firmwareFailed us r live).pending = s.pending := by
  simp only [State.firmwareFailed]; (repeat' split) <;> (first | rfl | simp)

/-- `firmwareFailed` keeps the canonical form of the memory. -/
@[simp] theorem firmwareFailed_wf (s : State) (us : Us) (r : FwReq) (live : Bool) (hw : s.mem.wf = true) :
    (s.firmwareFailed us r live).mem.wf = true := by
  simp only [State.firmwareFailed]; (repeat' split) <;> first | exact hw | simp (maxDischargeDepth := 20) [hw, store_wf]

/-- What `answerFailed` leaves alone. -/
@[simp] theorem answerFailed_frame (s : State) (us : Us) (f : Frame) :
    (s.answerFailed us f).pins = s.pins ∧ (s.answerFailed us f).port.notes = s.port.notes ∧
    (s.answerFailed us f).port.fault = s.port.fault ∧ (s.answerFailed us f).port.faultCount = s.port.faultCount ∧
    (s.answerFailed us f).port.tables = s.port.tables ∧ (s.answerFailed us f).port.lastTable = s.port.lastTable ∧
    (s.answerFailed us f).attn.enables = s.attn.enables ∧ (s.answerFailed us f).attn.levels = s.attn.levels ∧
    (s.answerFailed us f).attn.mask = s.attn.mask ∧ (s.answerFailed us f).chain.origin = s.chain.origin ∧
    (s.answerFailed us f).chain.capTag = s.chain.capTag ∧ (s.answerFailed us f).chain.lastSent = s.chain.lastSent ∧
    (s.answerFailed us f).chain.sleepCmd = s.chain.sleepCmd ∧
    (s.answerFailed us f).chain.wakeAfterSleep = s.chain.wakeAfterSleep ∧
    (s.answerFailed us f).chain.wake = s.chain.wake ∧ (s.answerFailed us f).chain.resetTone = s.chain.resetTone ∧
    (s.answerFailed us f).chain.returning = s.chain.returning ∧ (s.answerFailed us f).conv = s.conv ∧
    (s.answerFailed us f).plan.plans = s.plan.plans ∧ (s.answerFailed us f).plan.inForce = s.plan.inForce ∧
    (s.answerFailed us f).plan.dueDone = s.plan.dueDone ∧ (s.answerFailed us f).plan.overrun = s.plan.overrun ∧
    (s.answerFailed us f).plan.burst = s.plan.burst ∧ (s.answerFailed us f).plan.high = s.plan.high ∧
    (s.answerFailed us f).plan.low = s.plan.low ∧ (s.answerFailed us f).plan.temp = s.plan.temp ∧
    (s.answerFailed us f).plan.implausible = s.plan.implausible ∧ (s.answerFailed us f).plan.fresh = s.plan.fresh ∧
    (s.answerFailed us f).plan.setSeq = s.plan.setSeq ∧ (s.answerFailed us f).plan.pages = s.plan.pages ∧
    (s.answerFailed us f).plan.pageAge = s.plan.pageAge ∧ (s.answerFailed us f).plan.writing = s.plan.writing ∧
    (s.answerFailed us f).plan.latest = s.plan.latest ∧ (s.answerFailed us f).plan.quiet = s.plan.quiet ∧
    (s.answerFailed us f).plan.patrolReport = s.plan.patrolReport ∧ (s.answerFailed us f).sup = s.sup ∧
    (s.answerFailed us f).ev.slots = s.ev.slots ∧ (s.answerFailed us f).ev.age = s.ev.age ∧
    (s.answerFailed us f).ev.next = s.ev.next ∧ (s.answerFailed us f).ev.filling = s.ev.filling ∧
    (s.answerFailed us f).power = s.power ∧ (s.answerFailed us f).store.nv = s.store.nv ∧
    (s.answerFailed us f).store.work = s.store.work ∧ (s.answerFailed us f).store.running = s.store.running ∧
    (s.answerFailed us f).store.startUp = s.store.startUp ∧ (s.answerFailed us f).store.active = s.store.active ∧
    (s.answerFailed us f).store.activeBank = s.store.activeBank ∧
    (s.answerFailed us f).store.activeVersion = s.store.activeVersion ∧
    (s.answerFailed us f).store.clampCount = s.store.clampCount ∧
    (s.answerFailed us f).store.outcome = s.store.outcome ∧
    (s.answerFailed us f).store.faultCause = s.store.faultCause ∧
    (s.answerFailed us f).store.faultItem = s.store.faultItem ∧
    (s.answerFailed us f).store.faultCount = s.store.faultCount ∧ (s.answerFailed us f).store.lost = s.store.lost ∧
    (s.answerFailed us f).store.taken = s.store.taken ∧ (s.answerFailed us f).store.inForce = s.store.inForce ∧
    (s.answerFailed us f).store.rangeClamps = s.store.rangeClamps ∧
    (s.answerFailed us f).store.hardClamps = s.store.hardClamps ∧
    (s.answerFailed us f).store.keySlip = s.store.keySlip ∧ (s.answerFailed us f).upd.header = s.upd.header ∧
    (s.answerFailed us f).upd.expected = s.upd.expected ∧ (s.answerFailed us f).upd.lastAcc = s.upd.lastAcc ∧
    (s.answerFailed us f).upd.runCrc = s.upd.runCrc ∧ (s.answerFailed us f).upd.waiting = s.upd.waiting ∧
    (s.answerFailed us f).upd.acc = s.upd.acc ∧ (s.answerFailed us f).upd.dup = s.upd.dup ∧
    (s.answerFailed us f).upd.commitReached = s.upd.commitReached ∧
    (s.answerFailed us f).upd.bankWritten = s.upd.bankWritten ∧ (s.answerFailed us f).upd.watches = s.upd.watches ∧
    (s.answerFailed us f).upd.checkAt = s.upd.checkAt ∧ (s.answerFailed us f).free = s.free ∧
    (s.answerFailed us f).pending = s.pending := by
  simp only [State.answerFailed]; (repeat' split) <;> (first | rfl | simp)

/-- `answerFailed` keeps the canonical form of the memory. -/
@[simp] theorem answerFailed_wf (s : State) (us : Us) (f : Frame) (hw : s.mem.wf = true) :
    (s.answerFailed us f).mem.wf = true := by
  simp only [State.answerFailed]; (repeat' split) <;> first | exact hw | simp (maxDischargeDepth := 20) [hw, store_wf]

/-- What `echoGood` leaves alone. -/
@[simp] theorem echoGood_frame (s : State) (a : Nat) (v : SurveyEntry) :
    (s.echoGood a v).pins = s.pins ∧ (s.echoGood a v).port.notes = s.port.notes ∧
    (s.echoGood a v).port.fault = s.port.fault ∧ (s.echoGood a v).port.faultCount = s.port.faultCount ∧
    (s.echoGood a v).port.tables = s.port.tables ∧ (s.echoGood a v).port.lastTable = s.port.lastTable ∧
    (s.echoGood a v).attn.enables = s.attn.enables ∧ (s.echoGood a v).attn.levels = s.attn.levels ∧
    (s.echoGood a v).attn.mask = s.attn.mask ∧ (s.echoGood a v).chain.origin = s.chain.origin ∧
    (s.echoGood a v).chain.suspectSince = s.chain.suspectSince ∧
    (s.echoGood a v).chain.periodStart = s.chain.periodStart ∧
    (s.echoGood a v).chain.periodErrs = s.chain.periodErrs ∧ (s.echoGood a v).chain.capTag = s.chain.capTag ∧
    (s.echoGood a v).chain.lastSent = s.chain.lastSent ∧ (s.echoGood a v).chain.sleepCmd = s.chain.sleepCmd ∧
    (s.echoGood a v).chain.wakeAfterSleep = s.chain.wakeAfterSleep ∧ (s.echoGood a v).chain.wake = s.chain.wake ∧
    (s.echoGood a v).chain.resetTone = s.chain.resetTone ∧ (s.echoGood a v).conv = s.conv ∧
    (s.echoGood a v).plan = s.plan ∧ (s.echoGood a v).sup = s.sup ∧ (s.echoGood a v).ev.slots = s.ev.slots ∧
    (s.echoGood a v).ev.age = s.ev.age ∧ (s.echoGood a v).ev.next = s.ev.next ∧
    (s.echoGood a v).ev.filling = s.ev.filling ∧ (s.echoGood a v).power = s.power ∧
    (s.echoGood a v).store.nv = s.store.nv ∧ (s.echoGood a v).store.work = s.store.work ∧
    (s.echoGood a v).store.running = s.store.running ∧ (s.echoGood a v).store.startUp = s.store.startUp ∧
    (s.echoGood a v).store.active = s.store.active ∧ (s.echoGood a v).store.activeBank = s.store.activeBank ∧
    (s.echoGood a v).store.activeVersion = s.store.activeVersion ∧
    (s.echoGood a v).store.clampCount = s.store.clampCount ∧ (s.echoGood a v).store.outcome = s.store.outcome ∧
    (s.echoGood a v).store.faultCause = s.store.faultCause ∧ (s.echoGood a v).store.faultItem = s.store.faultItem ∧
    (s.echoGood a v).store.faultCount = s.store.faultCount ∧ (s.echoGood a v).store.lost = s.store.lost ∧
    (s.echoGood a v).store.taken = s.store.taken ∧ (s.echoGood a v).store.inForce = s.store.inForce ∧
    (s.echoGood a v).store.rangeClamps = s.store.rangeClamps ∧
    (s.echoGood a v).store.hardClamps = s.store.hardClamps ∧ (s.echoGood a v).store.keySlip = s.store.keySlip ∧
    (s.echoGood a v).upd.header = s.upd.header ∧ (s.echoGood a v).upd.expected = s.upd.expected ∧
    (s.echoGood a v).upd.lastAcc = s.upd.lastAcc ∧ (s.echoGood a v).upd.runCrc = s.upd.runCrc ∧
    (s.echoGood a v).upd.waiting = s.upd.waiting ∧ (s.echoGood a v).upd.acc = s.upd.acc ∧
    (s.echoGood a v).upd.dup = s.upd.dup ∧ (s.echoGood a v).upd.switchPending = s.upd.switchPending ∧
    (s.echoGood a v).upd.commitReached = s.upd.commitReached ∧ (s.echoGood a v).upd.bankWritten = s.upd.bankWritten ∧
    (s.echoGood a v).upd.checkAt = s.upd.checkAt ∧ (s.echoGood a v).free = s.free ∧
    (s.echoGood a v).pending = s.pending := by
  simp only [State.echoGood]; (repeat' split) <;> (first | rfl | simp)

/-- `echoGood` keeps the canonical form of the memory. -/
@[simp] theorem echoGood_wf (s : State) (a : Nat) (v : SurveyEntry) (hw : s.mem.wf = true) :
    (s.echoGood a v).mem.wf = true := by
  simp only [State.echoGood]; (repeat' split) <;> first | exact hw | simp (maxDischargeDepth := 20) [hw, store_wf]

/-- What `blockAcked` leaves alone. -/
@[simp] theorem blockAcked_frame (s : State) (index : Half) (toggle : Bool) (crc : Half) :
    (s.blockAcked index toggle crc).pins = s.pins ∧ (s.blockAcked index toggle crc).port.notes = s.port.notes ∧
    (s.blockAcked index toggle crc).port.fault = s.port.fault ∧
    (s.blockAcked index toggle crc).port.faultCount = s.port.faultCount ∧
    (s.blockAcked index toggle crc).port.tables = s.port.tables ∧
    (s.blockAcked index toggle crc).port.lastTable = s.port.lastTable ∧
    (s.blockAcked index toggle crc).attn.enables = s.attn.enables ∧
    (s.blockAcked index toggle crc).attn.levels = s.attn.levels ∧
    (s.blockAcked index toggle crc).attn.mask = s.attn.mask ∧
    (s.blockAcked index toggle crc).chain.state = s.chain.state ∧
    (s.blockAcked index toggle crc).chain.origin = s.chain.origin ∧
    (s.blockAcked index toggle crc).chain.wasDown = s.chain.wasDown ∧
    (s.blockAcked index toggle crc).chain.downSince = s.chain.downSince ∧
    (s.blockAcked index toggle crc).chain.errs = s.chain.errs ∧
    (s.blockAcked index toggle crc).chain.suspectSince = s.chain.suspectSince ∧
    (s.blockAcked index toggle crc).chain.periodStart = s.chain.periodStart ∧
    (s.blockAcked index toggle crc).chain.periodErrs = s.chain.periodErrs ∧
    (s.blockAcked index toggle crc).chain.capTag = s.chain.capTag ∧
    (s.blockAcked index toggle crc).chain.exTag = s.chain.exTag ∧
    (s.blockAcked index toggle crc).chain.survey = s.chain.survey ∧
    (s.blockAcked index toggle crc).chain.present = s.chain.present ∧
    (s.blockAcked index toggle crc).chain.configured = s.chain.configured ∧
    (s.blockAcked index toggle crc).chain.breakLoc = s.chain.breakLoc ∧
    (s.blockAcked index toggle crc).chain.lastSent = s.chain.lastSent ∧
    (s.blockAcked index toggle crc).chain.sleepCmd = s.chain.sleepCmd ∧
    (s.blockAcked index toggle crc).chain.wakeAfterSleep = s.chain.wakeAfterSleep ∧
    (s.blockAcked index toggle crc).chain.wake = s.chain.wake ∧
    (s.blockAcked index toggle crc).chain.resetTone = s.chain.resetTone ∧
    (s.blockAcked index toggle crc).chain.surveyTimer = s.chain.surveyTimer ∧
    (s.blockAcked index toggle crc).chain.firstUp = s.chain.firstUp ∧
    (s.blockAcked index toggle crc).chain.surveySlip = s.chain.surveySlip ∧
    (s.blockAcked index toggle crc).chain.balance = s.chain.balance ∧
    (s.blockAcked index toggle crc).chain.returning = s.chain.returning ∧
    (s.blockAcked index toggle crc).conv = s.conv ∧ (s.blockAcked index toggle crc).plan = s.plan ∧
    (s.blockAcked index toggle crc).sup = s.sup ∧ (s.blockAcked index toggle crc).ev.slots = s.ev.slots ∧
    (s.blockAcked index toggle crc).ev.age = s.ev.age ∧ (s.blockAcked index toggle crc).ev.next = s.ev.next ∧
    (s.blockAcked index toggle crc).ev.filling = s.ev.filling ∧ (s.blockAcked index toggle crc).power = s.power ∧
    (s.blockAcked index toggle crc).store.nv = s.store.nv ∧
    (s.blockAcked index toggle crc).store.work = s.store.work ∧
    (s.blockAcked index toggle crc).store.running = s.store.running ∧
    (s.blockAcked index toggle crc).store.startUp = s.store.startUp ∧
    (s.blockAcked index toggle crc).store.active = s.store.active ∧
    (s.blockAcked index toggle crc).store.activeBank = s.store.activeBank ∧
    (s.blockAcked index toggle crc).store.activeVersion = s.store.activeVersion ∧
    (s.blockAcked index toggle crc).store.clampCount = s.store.clampCount ∧
    (s.blockAcked index toggle crc).store.outcome = s.store.outcome ∧
    (s.blockAcked index toggle crc).store.faultCause = s.store.faultCause ∧
    (s.blockAcked index toggle crc).store.faultItem = s.store.faultItem ∧
    (s.blockAcked index toggle crc).store.faultCount = s.store.faultCount ∧
    (s.blockAcked index toggle crc).store.lost = s.store.lost ∧
    (s.blockAcked index toggle crc).store.taken = s.store.taken ∧
    (s.blockAcked index toggle crc).store.inForce = s.store.inForce ∧
    (s.blockAcked index toggle crc).store.rangeClamps = s.store.rangeClamps ∧
    (s.blockAcked index toggle crc).store.hardClamps = s.store.hardClamps ∧
    (s.blockAcked index toggle crc).store.keySlip = s.store.keySlip ∧
    (s.blockAcked index toggle crc).upd.header = s.upd.header ∧
    (s.blockAcked index toggle crc).upd.expected = s.upd.expected ∧
    (s.blockAcked index toggle crc).upd.lastAcc = s.upd.lastAcc ∧
    (s.blockAcked index toggle crc).upd.runCrc = s.upd.runCrc ∧
    (s.blockAcked index toggle crc).upd.waiting = s.upd.waiting ∧
    (s.blockAcked index toggle crc).upd.acc = s.upd.acc ∧ (s.blockAcked index toggle crc).upd.dup = s.upd.dup ∧
    (s.blockAcked index toggle crc).upd.commitReached = s.upd.commitReached ∧
    (s.blockAcked index toggle crc).upd.bankWritten = s.upd.bankWritten ∧
    (s.blockAcked index toggle crc).upd.watches = s.upd.watches ∧
    (s.blockAcked index toggle crc).upd.checkAt = s.upd.checkAt ∧ (s.blockAcked index toggle crc).free = s.free ∧
    (s.blockAcked index toggle crc).pending = s.pending := by
  simp only [State.blockAcked]; (repeat' split) <;> (first | rfl | simp)

/-- `blockAcked` keeps the canonical form of the memory. -/
@[simp] theorem blockAcked_wf (s : State) (index : Half) (toggle : Bool) (crc : Half) (hw : s.mem.wf = true) :
    (s.blockAcked index toggle crc).mem.wf = true := by
  simp only [State.blockAcked]; (repeat' split) <;> first | exact hw | simp (maxDischargeDepth := 20) [hw, store_wf]

/-- What `completeSample` leaves alone. -/
@[simp] theorem completeSample_frame (s : State) (x : Sample) :
    (s.completeSample x).pins = s.pins ∧ (s.completeSample x).port.notes = s.port.notes ∧
    (s.completeSample x).port.fault = s.port.fault ∧ (s.completeSample x).port.faultCount = s.port.faultCount ∧
    (s.completeSample x).port.tables = s.port.tables ∧ (s.completeSample x).port.lastTable = s.port.lastTable ∧
    (s.completeSample x).attn.enables = s.attn.enables ∧ (s.completeSample x).attn.levels = s.attn.levels ∧
    (s.completeSample x).attn.mask = s.attn.mask ∧ (s.completeSample x).chain.state = s.chain.state ∧
    (s.completeSample x).chain.origin = s.chain.origin ∧ (s.completeSample x).chain.wasDown = s.chain.wasDown ∧
    (s.completeSample x).chain.downSince = s.chain.downSince ∧ (s.completeSample x).chain.errs = s.chain.errs ∧
    (s.completeSample x).chain.suspectSince = s.chain.suspectSince ∧
    (s.completeSample x).chain.periodStart = s.chain.periodStart ∧
    (s.completeSample x).chain.periodErrs = s.chain.periodErrs ∧ (s.completeSample x).chain.capTag = s.chain.capTag ∧
    (s.completeSample x).chain.exTag = s.chain.exTag ∧ (s.completeSample x).chain.survey = s.chain.survey ∧
    (s.completeSample x).chain.present = s.chain.present ∧
    (s.completeSample x).chain.configured = s.chain.configured ∧
    (s.completeSample x).chain.breakLoc = s.chain.breakLoc ∧ (s.completeSample x).chain.map = s.chain.map ∧
    (s.completeSample x).chain.hold = s.chain.hold ∧ (s.completeSample x).chain.line = s.chain.line ∧
    (s.completeSample x).chain.lastSent = s.chain.lastSent ∧ (s.completeSample x).chain.sleepCmd = s.chain.sleepCmd ∧
    (s.completeSample x).chain.wakeAfterSleep = s.chain.wakeAfterSleep ∧
    (s.completeSample x).chain.wake = s.chain.wake ∧ (s.completeSample x).chain.resetTone = s.chain.resetTone ∧
    (s.completeSample x).chain.surveyTimer = s.chain.surveyTimer ∧
    (s.completeSample x).chain.firstUp = s.chain.firstUp ∧
    (s.completeSample x).chain.surveySlip = s.chain.surveySlip ∧
    (s.completeSample x).chain.returning = s.chain.returning ∧ (s.completeSample x).conv.scanning = s.conv.scanning ∧
    (s.completeSample x).conv.part = s.conv.part ∧ (s.completeSample x).conv.lastLatch = s.conv.lastLatch ∧
    (s.completeSample x).conv.restored = s.conv.restored ∧ (s.completeSample x).conv.unsampled = s.conv.unsampled ∧
    (s.completeSample x).conv.snapTimer = s.conv.snapTimer ∧ (s.completeSample x).plan.plans = s.plan.plans ∧
    (s.completeSample x).plan.inForce = s.plan.inForce ∧ (s.completeSample x).plan.dueDone = s.plan.dueDone ∧
    (s.completeSample x).plan.overrun = s.plan.overrun ∧ (s.completeSample x).plan.burst = s.plan.burst ∧
    (s.completeSample x).plan.kept = s.plan.kept ∧ (s.completeSample x).plan.high = s.plan.high ∧
    (s.completeSample x).plan.low = s.plan.low ∧ (s.completeSample x).plan.temp = s.plan.temp ∧
    (s.completeSample x).plan.implausible = s.plan.implausible ∧ (s.completeSample x).plan.fresh = s.plan.fresh ∧
    (s.completeSample x).plan.setSeq = s.plan.setSeq ∧ (s.completeSample x).plan.pages = s.plan.pages ∧
    (s.completeSample x).plan.pageAge = s.plan.pageAge ∧ (s.completeSample x).plan.writing = s.plan.writing ∧
    (s.completeSample x).plan.latest = s.plan.latest ∧ (s.completeSample x).plan.quiet = s.plan.quiet ∧
    (s.completeSample x).plan.patrolReport = s.plan.patrolReport ∧ (s.completeSample x).sup.waiting = s.sup.waiting ∧
    (s.completeSample x).sup.mainNeg = s.sup.mainNeg ∧ (s.completeSample x).sup.faultedSince = s.sup.faultedSince ∧
    (s.completeSample x).sup.lossDue = s.sup.lossDue ∧ (s.completeSample x).sup.silence = s.sup.silence ∧
    (s.completeSample x).sup.warn = s.sup.warn ∧ (s.completeSample x).sup.lapsed = s.sup.lapsed ∧
    (s.completeSample x).sup.once = s.sup.once ∧ (s.completeSample x).ev.age = s.ev.age ∧
    (s.completeSample x).ev.next = s.ev.next ∧ (s.completeSample x).power.state = s.power.state ∧
    (s.completeSample x).power.entry = s.power.entry ∧ (s.completeSample x).power.snapOutcome = s.power.snapOutcome ∧
    (s.completeSample x).power.wakeTable = s.power.wakeTable ∧ (s.completeSample x).power.pend = s.power.pend ∧
    (s.completeSample x).power.target = s.power.target ∧ (s.completeSample x).power.timer = s.power.timer ∧
    (s.completeSample x).power.timerRunning = s.power.timerRunning ∧
    (s.completeSample x).power.compRun = s.power.compRun ∧ (s.completeSample x).power.compFired = s.power.compFired ∧
    (s.completeSample x).power.settleAt = s.power.settleAt ∧ (s.completeSample x).power.settled = s.power.settled ∧
    (s.completeSample x).power.patrol = s.power.patrol ∧ (s.completeSample x).power.nextSlot = s.power.nextSlot ∧
    (s.completeSample x).power.lastNumber = s.power.lastNumber ∧
    (s.completeSample x).power.lastWake = s.power.lastWake ∧
    (s.completeSample x).power.returning = s.power.returning ∧
    (s.completeSample x).power.lastReset = s.power.lastReset ∧
    (s.completeSample x).power.resetCount = s.power.resetCount ∧
    (s.completeSample x).power.wakeOut = s.power.wakeOut ∧ (s.completeSample x).power.wakeOutAt = s.power.wakeOutAt ∧
    (s.completeSample x).store.nv = s.store.nv ∧ (s.completeSample x).store.work = s.store.work ∧
    (s.completeSample x).store.running = s.store.running ∧ (s.completeSample x).store.startUp = s.store.startUp ∧
    (s.completeSample x).store.active = s.store.active ∧ (s.completeSample x).store.activeBank = s.store.activeBank ∧
    (s.completeSample x).store.activeVersion = s.store.activeVersion ∧
    (s.completeSample x).store.clampCount = s.store.clampCount ∧
    (s.completeSample x).store.outcome = s.store.outcome ∧
    (s.completeSample x).store.faultCause = s.store.faultCause ∧
    (s.completeSample x).store.faultItem = s.store.faultItem ∧
    (s.completeSample x).store.faultCount = s.store.faultCount ∧ (s.completeSample x).store.lost = s.store.lost ∧
    (s.completeSample x).store.taken = s.store.taken ∧ (s.completeSample x).store.inForce = s.store.inForce ∧
    (s.completeSample x).store.rangeClamps = s.store.rangeClamps ∧
    (s.completeSample x).store.hardClamps = s.store.hardClamps ∧
    (s.completeSample x).store.keySlip = s.store.keySlip ∧ (s.completeSample x).upd = s.upd ∧
    (s.completeSample x).pending = s.pending := by
  simp only [State.completeSample]; (repeat' split) <;> (first | rfl | simp)

/-- `completeSample` keeps the canonical form of the memory. -/
@[simp] theorem completeSample_wf (s : State) (x : Sample) (hw : s.mem.wf = true) :
    (s.completeSample x).mem.wf = true := by
  simp only [State.completeSample]; (repeat' split) <;> first | exact hw | simp (maxDischargeDepth := 20) [hw, store_wf]

/-- What `countStopped` leaves alone. -/
@[simp] theorem countStopped_frame (s : State) (shunt : Nat) :
    (s.countStopped shunt).mem = s.mem ∧ (s.countStopped shunt).pins = s.pins ∧
    (s.countStopped shunt).port = s.port ∧ (s.countStopped shunt).attn = s.attn ∧
    (s.countStopped shunt).chain = s.chain ∧ (s.countStopped shunt).conv.scanning = s.conv.scanning ∧
    (s.countStopped shunt).conv.us = s.conv.us ∧ (s.countStopped shunt).conv.part = s.conv.part ∧
    (s.countStopped shunt).conv.lastLatch = s.conv.lastLatch ∧ (s.countStopped shunt).conv.latched = s.conv.latched ∧
    (s.countStopped shunt).conv.history = s.conv.history ∧ (s.countStopped shunt).conv.charge = s.conv.charge ∧
    (s.countStopped shunt).conv.chargeSat = s.conv.chargeSat ∧
    (s.countStopped shunt).conv.restored = s.conv.restored ∧ (s.countStopped shunt).conv.estimate = s.conv.estimate ∧
    (s.countStopped shunt).conv.snapTimer = s.conv.snapTimer ∧
    (s.countStopped shunt).conv.recNumber = s.conv.recNumber ∧ (s.countStopped shunt).plan = s.plan ∧
    (s.countStopped shunt).sup = s.sup ∧ (s.countStopped shunt).ev = s.ev ∧
    (s.countStopped shunt).power.state = s.power.state ∧ (s.countStopped shunt).power.entry = s.power.entry ∧
    (s.countStopped shunt).power.snapOutcome = s.power.snapOutcome ∧
    (s.countStopped shunt).power.wakeTable = s.power.wakeTable ∧ (s.countStopped shunt).power.pend = s.power.pend ∧
    (s.countStopped shunt).power.target = s.power.target ∧ (s.countStopped shunt).power.timer = s.power.timer ∧
    (s.countStopped shunt).power.timerRunning = s.power.timerRunning ∧
    (s.countStopped shunt).power.settleAt = s.power.settleAt ∧
    (s.countStopped shunt).power.settled = s.power.settled ∧ (s.countStopped shunt).power.patrol = s.power.patrol ∧
    (s.countStopped shunt).power.nextSlot = s.power.nextSlot ∧
    (s.countStopped shunt).power.lastNumber = s.power.lastNumber ∧
    (s.countStopped shunt).power.estimate = s.power.estimate ∧
    (s.countStopped shunt).power.lastWake = s.power.lastWake ∧
    (s.countStopped shunt).power.returning = s.power.returning ∧
    (s.countStopped shunt).power.lastReset = s.power.lastReset ∧
    (s.countStopped shunt).power.resetCount = s.power.resetCount ∧
    (s.countStopped shunt).power.wakeOut = s.power.wakeOut ∧
    (s.countStopped shunt).power.wakeOutAt = s.power.wakeOutAt ∧ (s.countStopped shunt).store = s.store ∧
    (s.countStopped shunt).upd = s.upd ∧ (s.countStopped shunt).free = s.free ∧
    (s.countStopped shunt).pending = s.pending := by
  simp only [State.countStopped]; (repeat' split) <;> (first | rfl | simp)

/-- What `countPatrol` leaves alone. -/
@[simp] theorem countPatrol_frame (s : State) :
    (s.countPatrol).mem = s.mem ∧ (s.countPatrol).pins = s.pins ∧ (s.countPatrol).port = s.port ∧
    (s.countPatrol).attn = s.attn ∧ (s.countPatrol).chain = s.chain ∧ (s.countPatrol).conv = s.conv ∧
    (s.countPatrol).plan = s.plan ∧ (s.countPatrol).sup = s.sup ∧ (s.countPatrol).ev = s.ev ∧
    (s.countPatrol).power.state = s.power.state ∧ (s.countPatrol).power.entry = s.power.entry ∧
    (s.countPatrol).power.snapOutcome = s.power.snapOutcome ∧ (s.countPatrol).power.wakeTable = s.power.wakeTable ∧
    (s.countPatrol).power.pend = s.power.pend ∧ (s.countPatrol).power.target = s.power.target ∧
    (s.countPatrol).power.timerRunning = s.power.timerRunning ∧ (s.countPatrol).power.compRun = s.power.compRun ∧
    (s.countPatrol).power.compFired = s.power.compFired ∧ (s.countPatrol).power.settleAt = s.power.settleAt ∧
    (s.countPatrol).power.settled = s.power.settled ∧ (s.countPatrol).power.patrol = s.power.patrol ∧
    (s.countPatrol).power.nextSlot = s.power.nextSlot ∧ (s.countPatrol).power.lastNumber = s.power.lastNumber ∧
    (s.countPatrol).power.estimate = s.power.estimate ∧ (s.countPatrol).power.lastWake = s.power.lastWake ∧
    (s.countPatrol).power.returning = s.power.returning ∧ (s.countPatrol).power.lastReset = s.power.lastReset ∧
    (s.countPatrol).power.resetCount = s.power.resetCount ∧ (s.countPatrol).power.wakeOut = s.power.wakeOut ∧
    (s.countPatrol).power.wakeOutAt = s.power.wakeOutAt ∧ (s.countPatrol).store = s.store ∧
    (s.countPatrol).upd = s.upd ∧ (s.countPatrol).free = s.free ∧ (s.countPatrol).pending = s.pending := by
  simp only [State.countPatrol]; (repeat' split) <;> (first | rfl | simp)

/-- What `countSnapshot` leaves alone. -/
@[simp] theorem countSnapshot_frame (s : State) :
    (s.countSnapshot).mem = s.mem ∧ (s.countSnapshot).pins = s.pins ∧ (s.countSnapshot).port = s.port ∧
    (s.countSnapshot).attn = s.attn ∧ (s.countSnapshot).chain = s.chain ∧
    (s.countSnapshot).conv.scanning = s.conv.scanning ∧ (s.countSnapshot).conv.us = s.conv.us ∧
    (s.countSnapshot).conv.part = s.conv.part ∧ (s.countSnapshot).conv.lastLatch = s.conv.lastLatch ∧
    (s.countSnapshot).conv.latched = s.conv.latched ∧ (s.countSnapshot).conv.history = s.conv.history ∧
    (s.countSnapshot).conv.charge = s.conv.charge ∧ (s.countSnapshot).conv.chargeSat = s.conv.chargeSat ∧
    (s.countSnapshot).conv.restored = s.conv.restored ∧ (s.countSnapshot).conv.unsampled = s.conv.unsampled ∧
    (s.countSnapshot).conv.estimate = s.conv.estimate ∧ (s.countSnapshot).conv.recNumber = s.conv.recNumber ∧
    (s.countSnapshot).plan = s.plan ∧ (s.countSnapshot).sup = s.sup ∧ (s.countSnapshot).ev = s.ev ∧
    (s.countSnapshot).power = s.power ∧ (s.countSnapshot).store = s.store ∧ (s.countSnapshot).upd = s.upd ∧
    (s.countSnapshot).free = s.free ∧ (s.countSnapshot).pending = s.pending := by
  simp only [State.countSnapshot]; (repeat' split) <;> (first | rfl | simp)

/-- What `silenceShown` leaves alone. -/
@[simp] theorem silenceShown_frame (s : State) :
    (s.silenceShown).pins = s.pins ∧ (s.silenceShown).port = s.port ∧ (s.silenceShown).attn = s.attn ∧
    (s.silenceShown).chain = s.chain ∧ (s.silenceShown).conv = s.conv ∧ (s.silenceShown).plan = s.plan ∧
    (s.silenceShown).sup = s.sup ∧ (s.silenceShown).ev = s.ev ∧ (s.silenceShown).power = s.power ∧
    (s.silenceShown).store = s.store ∧ (s.silenceShown).upd = s.upd ∧ (s.silenceShown).free = s.free ∧
    (s.silenceShown).pending = s.pending := by
  simp only [State.silenceShown]; (repeat' split) <;> (first | rfl | simp)

/-- `silenceShown` keeps the canonical form of the memory. -/
@[simp] theorem silenceShown_wf (s : State) (hw : s.mem.wf = true) :
    (s.silenceShown).mem.wf = true := by
  simp only [State.silenceShown]; (repeat' split) <;> first | exact hw | simp (maxDischargeDepth := 20) [hw, store_wf]

/-- What `tick` leaves alone. -/
@[simp] theorem tick_frame (s : State) (shunt : Nat) :
    (s.tick shunt).pins = s.pins ∧ (s.tick shunt).port = s.port ∧ (s.tick shunt).attn = s.attn ∧
    (s.tick shunt).chain = s.chain ∧ (s.tick shunt).conv.scanning = s.conv.scanning ∧
    (s.tick shunt).conv.us = s.conv.us ∧ (s.tick shunt).conv.lastLatch = s.conv.lastLatch ∧
    (s.tick shunt).conv.latched = s.conv.latched ∧ (s.tick shunt).conv.history = s.conv.history ∧
    (s.tick shunt).conv.charge = s.conv.charge ∧ (s.tick shunt).conv.chargeSat = s.conv.chargeSat ∧
    (s.tick shunt).conv.restored = s.conv.restored ∧ (s.tick shunt).conv.estimate = s.conv.estimate ∧
    (s.tick shunt).plan.plans = s.plan.plans ∧ (s.tick shunt).plan.overrun = s.plan.overrun ∧
    (s.tick shunt).plan.captures = s.plan.captures ∧ (s.tick shunt).plan.burst = s.plan.burst ∧
    (s.tick shunt).plan.kept = s.plan.kept ∧ (s.tick shunt).plan.high = s.plan.high ∧
    (s.tick shunt).plan.low = s.plan.low ∧ (s.tick shunt).plan.temp = s.plan.temp ∧
    (s.tick shunt).plan.implausible = s.plan.implausible ∧ (s.tick shunt).plan.fresh = s.plan.fresh ∧
    (s.tick shunt).plan.setSeq = s.plan.setSeq ∧ (s.tick shunt).plan.pages = s.plan.pages ∧
    (s.tick shunt).plan.pageAge = s.plan.pageAge ∧ (s.tick shunt).plan.writing = s.plan.writing ∧
    (s.tick shunt).plan.latest = s.plan.latest ∧ (s.tick shunt).plan.quiet = s.plan.quiet ∧
    (s.tick shunt).plan.patrolReport = s.plan.patrolReport ∧ (s.tick shunt).sup.state = s.sup.state ∧
    (s.tick shunt).sup.waiting = s.sup.waiting ∧ (s.tick shunt).sup.mainNeg = s.sup.mainNeg ∧
    (s.tick shunt).sup.precharge = s.sup.precharge ∧ (s.tick shunt).sup.mainPos = s.sup.mainPos ∧
    (s.tick shunt).sup.inrush = s.sup.inrush ∧ (s.tick shunt).sup.lowSupply = s.sup.lowSupply ∧
    (s.tick shunt).sup.close = s.sup.close ∧ (s.tick shunt).sup.settleAt = s.sup.settleAt ∧
    (s.tick shunt).sup.opening = s.sup.opening ∧ (s.tick shunt).sup.weld = s.sup.weld ∧
    (s.tick shunt).sup.clear = s.sup.clear ∧ (s.tick shunt).sup.deferral = s.sup.deferral ∧
    (s.tick shunt).sup.hardRun = s.sup.hardRun ∧ (s.tick shunt).sup.hardFell = s.sup.hardFell ∧
    (s.tick shunt).sup.hardDue = s.sup.hardDue ∧ (s.tick shunt).sup.faultedSince = s.sup.faultedSince ∧
    (s.tick shunt).sup.warn = s.sup.warn ∧ (s.tick shunt).sup.lapsed = s.sup.lapsed ∧
    (s.tick shunt).sup.once = s.sup.once ∧ (s.tick shunt).ev = s.ev ∧ (s.tick shunt).power.state = s.power.state ∧
    (s.tick shunt).power.entry = s.power.entry ∧ (s.tick shunt).power.snapOutcome = s.power.snapOutcome ∧
    (s.tick shunt).power.wakeTable = s.power.wakeTable ∧ (s.tick shunt).power.pend = s.power.pend ∧
    (s.tick shunt).power.target = s.power.target ∧ (s.tick shunt).power.timerRunning = s.power.timerRunning ∧
    (s.tick shunt).power.settleAt = s.power.settleAt ∧ (s.tick shunt).power.settled = s.power.settled ∧
    (s.tick shunt).power.patrol = s.power.patrol ∧ (s.tick shunt).power.nextSlot = s.power.nextSlot ∧
    (s.tick shunt).power.lastNumber = s.power.lastNumber ∧ (s.tick shunt).power.estimate = s.power.estimate ∧
    (s.tick shunt).power.lastWake = s.power.lastWake ∧ (s.tick shunt).power.returning = s.power.returning ∧
    (s.tick shunt).power.lastReset = s.power.lastReset ∧ (s.tick shunt).power.resetCount = s.power.resetCount ∧
    (s.tick shunt).power.wakeOut = s.power.wakeOut ∧ (s.tick shunt).power.wakeOutAt = s.power.wakeOutAt ∧
    (s.tick shunt).store = s.store ∧ (s.tick shunt).upd = s.upd ∧ (s.tick shunt).free = s.free ∧
    (s.tick shunt).pending = s.pending := by
  simp only [State.tick]; (repeat' split) <;> (first | rfl | simp)

/-- `tick` keeps the canonical form of the memory. -/
@[simp] theorem tick_wf (s : State) (shunt : Nat) (hw : s.mem.wf = true) :
    (s.tick shunt).mem.wf = true := by
  simp only [State.tick]; (repeat' split) <;> first | exact hw | simp (maxDischargeDepth := 20) [hw, store_wf]

/-- What `fallDue` leaves alone. -/
@[simp] theorem fallDue_frame (s : State) (i : Nat) (p : Plan) :
    (s.fallDue i p).pins = s.pins ∧ (s.fallDue i p).port = s.port ∧ (s.fallDue i p).attn.enables = s.attn.enables ∧
    (s.fallDue i p).attn.levels = s.attn.levels ∧ (s.fallDue i p).attn.mask = s.attn.mask ∧
    (s.fallDue i p).chain.state = s.chain.state ∧ (s.fallDue i p).chain.origin = s.chain.origin ∧
    (s.fallDue i p).chain.wasDown = s.chain.wasDown ∧ (s.fallDue i p).chain.downSince = s.chain.downSince ∧
    (s.fallDue i p).chain.errs = s.chain.errs ∧ (s.fallDue i p).chain.suspectSince = s.chain.suspectSince ∧
    (s.fallDue i p).chain.periodStart = s.chain.periodStart ∧ (s.fallDue i p).chain.periodErrs = s.chain.periodErrs ∧
    (s.fallDue i p).chain.capTag = s.chain.capTag ∧ (s.fallDue i p).chain.exTag = s.chain.exTag ∧
    (s.fallDue i p).chain.survey = s.chain.survey ∧ (s.fallDue i p).chain.present = s.chain.present ∧
    (s.fallDue i p).chain.configured = s.chain.configured ∧ (s.fallDue i p).chain.breakLoc = s.chain.breakLoc ∧
    (s.fallDue i p).chain.map = s.chain.map ∧ (s.fallDue i p).chain.hold = s.chain.hold ∧
    (s.fallDue i p).chain.line = s.chain.line ∧ (s.fallDue i p).chain.lastSent = s.chain.lastSent ∧
    (s.fallDue i p).chain.sleepCmd = s.chain.sleepCmd ∧
    (s.fallDue i p).chain.wakeAfterSleep = s.chain.wakeAfterSleep ∧ (s.fallDue i p).chain.wake = s.chain.wake ∧
    (s.fallDue i p).chain.resetTone = s.chain.resetTone ∧ (s.fallDue i p).chain.surveyTimer = s.chain.surveyTimer ∧
    (s.fallDue i p).chain.firstUp = s.chain.firstUp ∧ (s.fallDue i p).chain.surveySlip = s.chain.surveySlip ∧
    (s.fallDue i p).chain.balance = s.chain.balance ∧ (s.fallDue i p).chain.returning = s.chain.returning ∧
    (s.fallDue i p).conv = s.conv ∧ (s.fallDue i p).plan.plans = s.plan.plans ∧
    (s.fallDue i p).plan.inForce = s.plan.inForce ∧ (s.fallDue i p).plan.burst = s.plan.burst ∧
    (s.fallDue i p).plan.kept = s.plan.kept ∧ (s.fallDue i p).plan.high = s.plan.high ∧
    (s.fallDue i p).plan.low = s.plan.low ∧ (s.fallDue i p).plan.temp = s.plan.temp ∧
    (s.fallDue i p).plan.implausible = s.plan.implausible ∧ (s.fallDue i p).plan.fresh = s.plan.fresh ∧
    (s.fallDue i p).plan.setSeq = s.plan.setSeq ∧ (s.fallDue i p).plan.pages = s.plan.pages ∧
    (s.fallDue i p).plan.pageAge = s.plan.pageAge ∧ (s.fallDue i p).plan.writing = s.plan.writing ∧
    (s.fallDue i p).plan.latest = s.plan.latest ∧ (s.fallDue i p).plan.quiet = s.plan.quiet ∧
    (s.fallDue i p).plan.patrolReport = s.plan.patrolReport ∧ (s.fallDue i p).sup = s.sup ∧
    (s.fallDue i p).ev = s.ev ∧ (s.fallDue i p).power = s.power ∧ (s.fallDue i p).store = s.store ∧
    (s.fallDue i p).upd = s.upd ∧ (s.fallDue i p).free = s.free ∧ (s.fallDue i p).pending = s.pending := by
  simp only [State.fallDue]; (repeat' split) <;> (first | rfl | simp)

/-- `fallDue` keeps the canonical form of the memory. -/
@[simp] theorem fallDue_wf (s : State) (i : Nat) (p : Plan) (hw : s.mem.wf = true) :
    (s.fallDue i p).mem.wf = true := by
  simp only [State.fallDue]; (repeat' split) <;> first | exact hw | simp (maxDischargeDepth := 20) [hw, store_wf]

/-- What `tryDue` leaves alone. -/
@[simp] theorem tryDue_frame (s : State) (i : Nat) :
    (s.tryDue i).pins = s.pins ∧ (s.tryDue i).port = s.port ∧ (s.tryDue i).attn.enables = s.attn.enables ∧
    (s.tryDue i).attn.levels = s.attn.levels ∧ (s.tryDue i).attn.mask = s.attn.mask ∧
    (s.tryDue i).chain.state = s.chain.state ∧ (s.tryDue i).chain.origin = s.chain.origin ∧
    (s.tryDue i).chain.wasDown = s.chain.wasDown ∧ (s.tryDue i).chain.downSince = s.chain.downSince ∧
    (s.tryDue i).chain.errs = s.chain.errs ∧ (s.tryDue i).chain.suspectSince = s.chain.suspectSince ∧
    (s.tryDue i).chain.periodStart = s.chain.periodStart ∧ (s.tryDue i).chain.periodErrs = s.chain.periodErrs ∧
    (s.tryDue i).chain.capTag = s.chain.capTag ∧ (s.tryDue i).chain.exTag = s.chain.exTag ∧
    (s.tryDue i).chain.survey = s.chain.survey ∧ (s.tryDue i).chain.present = s.chain.present ∧
    (s.tryDue i).chain.configured = s.chain.configured ∧ (s.tryDue i).chain.breakLoc = s.chain.breakLoc ∧
    (s.tryDue i).chain.map = s.chain.map ∧ (s.tryDue i).chain.hold = s.chain.hold ∧
    (s.tryDue i).chain.line = s.chain.line ∧ (s.tryDue i).chain.lastSent = s.chain.lastSent ∧
    (s.tryDue i).chain.sleepCmd = s.chain.sleepCmd ∧ (s.tryDue i).chain.wakeAfterSleep = s.chain.wakeAfterSleep ∧
    (s.tryDue i).chain.wake = s.chain.wake ∧ (s.tryDue i).chain.resetTone = s.chain.resetTone ∧
    (s.tryDue i).chain.surveyTimer = s.chain.surveyTimer ∧ (s.tryDue i).chain.firstUp = s.chain.firstUp ∧
    (s.tryDue i).chain.surveySlip = s.chain.surveySlip ∧ (s.tryDue i).chain.balance = s.chain.balance ∧
    (s.tryDue i).chain.returning = s.chain.returning ∧ (s.tryDue i).conv = s.conv ∧
    (s.tryDue i).plan.plans = s.plan.plans ∧ (s.tryDue i).plan.inForce = s.plan.inForce ∧
    (s.tryDue i).plan.burst = s.plan.burst ∧ (s.tryDue i).plan.kept = s.plan.kept ∧
    (s.tryDue i).plan.high = s.plan.high ∧ (s.tryDue i).plan.low = s.plan.low ∧
    (s.tryDue i).plan.temp = s.plan.temp ∧ (s.tryDue i).plan.implausible = s.plan.implausible ∧
    (s.tryDue i).plan.fresh = s.plan.fresh ∧ (s.tryDue i).plan.setSeq = s.plan.setSeq ∧
    (s.tryDue i).plan.pages = s.plan.pages ∧ (s.tryDue i).plan.pageAge = s.plan.pageAge ∧
    (s.tryDue i).plan.writing = s.plan.writing ∧ (s.tryDue i).plan.latest = s.plan.latest ∧
    (s.tryDue i).plan.quiet = s.plan.quiet ∧ (s.tryDue i).plan.patrolReport = s.plan.patrolReport ∧
    (s.tryDue i).sup = s.sup ∧ (s.tryDue i).ev = s.ev ∧ (s.tryDue i).power = s.power ∧ (s.tryDue i).store = s.store ∧
    (s.tryDue i).upd = s.upd ∧ (s.tryDue i).free = s.free ∧ (s.tryDue i).pending = s.pending := by
  simp only [State.tryDue]; (repeat' split) <;> (first | rfl | simp)

/-- `tryDue` keeps the canonical form of the memory. -/
@[simp] theorem tryDue_wf (s : State) (i : Nat) (hw : s.mem.wf = true) :
    (s.tryDue i).mem.wf = true := by
  simp only [State.tryDue]; (repeat' split) <;> first | exact hw | simp (maxDischargeDepth := 20) [hw, store_wf]

theorem dueEach_frame (s : State) (l : List Nat) :
    (l.foldl State.tryDue s).pins = s.pins ∧ (l.foldl State.tryDue s).port = s.port ∧
    (l.foldl State.tryDue s).attn.enables = s.attn.enables ∧ (l.foldl State.tryDue s).attn.levels = s.attn.levels ∧
    (l.foldl State.tryDue s).attn.mask = s.attn.mask ∧ (l.foldl State.tryDue s).chain.state = s.chain.state ∧
    (l.foldl State.tryDue s).chain.origin = s.chain.origin ∧
    (l.foldl State.tryDue s).chain.wasDown = s.chain.wasDown ∧
    (l.foldl State.tryDue s).chain.downSince = s.chain.downSince ∧
    (l.foldl State.tryDue s).chain.errs = s.chain.errs ∧
    (l.foldl State.tryDue s).chain.suspectSince = s.chain.suspectSince ∧
    (l.foldl State.tryDue s).chain.periodStart = s.chain.periodStart ∧
    (l.foldl State.tryDue s).chain.periodErrs = s.chain.periodErrs ∧
    (l.foldl State.tryDue s).chain.capTag = s.chain.capTag ∧ (l.foldl State.tryDue s).chain.exTag = s.chain.exTag ∧
    (l.foldl State.tryDue s).chain.survey = s.chain.survey ∧
    (l.foldl State.tryDue s).chain.present = s.chain.present ∧
    (l.foldl State.tryDue s).chain.configured = s.chain.configured ∧
    (l.foldl State.tryDue s).chain.breakLoc = s.chain.breakLoc ∧ (l.foldl State.tryDue s).chain.map = s.chain.map ∧
    (l.foldl State.tryDue s).chain.hold = s.chain.hold ∧ (l.foldl State.tryDue s).chain.line = s.chain.line ∧
    (l.foldl State.tryDue s).chain.lastSent = s.chain.lastSent ∧
    (l.foldl State.tryDue s).chain.sleepCmd = s.chain.sleepCmd ∧
    (l.foldl State.tryDue s).chain.wakeAfterSleep = s.chain.wakeAfterSleep ∧
    (l.foldl State.tryDue s).chain.wake = s.chain.wake ∧
    (l.foldl State.tryDue s).chain.resetTone = s.chain.resetTone ∧
    (l.foldl State.tryDue s).chain.surveyTimer = s.chain.surveyTimer ∧
    (l.foldl State.tryDue s).chain.firstUp = s.chain.firstUp ∧
    (l.foldl State.tryDue s).chain.surveySlip = s.chain.surveySlip ∧
    (l.foldl State.tryDue s).chain.balance = s.chain.balance ∧
    (l.foldl State.tryDue s).chain.returning = s.chain.returning ∧ (l.foldl State.tryDue s).conv = s.conv ∧
    (l.foldl State.tryDue s).plan.plans = s.plan.plans ∧ (l.foldl State.tryDue s).plan.inForce = s.plan.inForce ∧
    (l.foldl State.tryDue s).plan.burst = s.plan.burst ∧ (l.foldl State.tryDue s).plan.kept = s.plan.kept ∧
    (l.foldl State.tryDue s).plan.high = s.plan.high ∧ (l.foldl State.tryDue s).plan.low = s.plan.low ∧
    (l.foldl State.tryDue s).plan.temp = s.plan.temp ∧
    (l.foldl State.tryDue s).plan.implausible = s.plan.implausible ∧
    (l.foldl State.tryDue s).plan.fresh = s.plan.fresh ∧ (l.foldl State.tryDue s).plan.setSeq = s.plan.setSeq ∧
    (l.foldl State.tryDue s).plan.pages = s.plan.pages ∧ (l.foldl State.tryDue s).plan.pageAge = s.plan.pageAge ∧
    (l.foldl State.tryDue s).plan.writing = s.plan.writing ∧ (l.foldl State.tryDue s).plan.latest = s.plan.latest ∧
    (l.foldl State.tryDue s).plan.quiet = s.plan.quiet ∧
    (l.foldl State.tryDue s).plan.patrolReport = s.plan.patrolReport ∧ (l.foldl State.tryDue s).sup = s.sup ∧
    (l.foldl State.tryDue s).ev = s.ev ∧ (l.foldl State.tryDue s).power = s.power ∧
    (l.foldl State.tryDue s).store = s.store ∧ (l.foldl State.tryDue s).upd = s.upd ∧
    (l.foldl State.tryDue s).free = s.free ∧ (l.foldl State.tryDue s).pending = s.pending := by
  induction l generalizing s with
  | nil => simp
  | cons x l ih => simp [ih]

theorem dueEach_wf (s : State) (l : List Nat) (hw : s.mem.wf = true) :
    (l.foldl State.tryDue s).mem.wf = true := by
  induction l generalizing s with
  | nil => simpa using hw
  | cons x l ih => simp only [List.foldl_cons]; exact ih _ (tryDue_wf _ _ hw)

/-- What `dueUpTo` leaves alone. -/
@[simp] theorem dueUpTo_frame (s : State) (i : Nat) :
    (s.dueUpTo i).pins = s.pins ∧ (s.dueUpTo i).port = s.port ∧ (s.dueUpTo i).attn.enables = s.attn.enables ∧
    (s.dueUpTo i).attn.levels = s.attn.levels ∧ (s.dueUpTo i).attn.mask = s.attn.mask ∧
    (s.dueUpTo i).chain.state = s.chain.state ∧ (s.dueUpTo i).chain.origin = s.chain.origin ∧
    (s.dueUpTo i).chain.wasDown = s.chain.wasDown ∧ (s.dueUpTo i).chain.downSince = s.chain.downSince ∧
    (s.dueUpTo i).chain.errs = s.chain.errs ∧ (s.dueUpTo i).chain.suspectSince = s.chain.suspectSince ∧
    (s.dueUpTo i).chain.periodStart = s.chain.periodStart ∧ (s.dueUpTo i).chain.periodErrs = s.chain.periodErrs ∧
    (s.dueUpTo i).chain.capTag = s.chain.capTag ∧ (s.dueUpTo i).chain.exTag = s.chain.exTag ∧
    (s.dueUpTo i).chain.survey = s.chain.survey ∧ (s.dueUpTo i).chain.present = s.chain.present ∧
    (s.dueUpTo i).chain.configured = s.chain.configured ∧ (s.dueUpTo i).chain.breakLoc = s.chain.breakLoc ∧
    (s.dueUpTo i).chain.map = s.chain.map ∧ (s.dueUpTo i).chain.hold = s.chain.hold ∧
    (s.dueUpTo i).chain.line = s.chain.line ∧ (s.dueUpTo i).chain.lastSent = s.chain.lastSent ∧
    (s.dueUpTo i).chain.sleepCmd = s.chain.sleepCmd ∧ (s.dueUpTo i).chain.wakeAfterSleep = s.chain.wakeAfterSleep ∧
    (s.dueUpTo i).chain.wake = s.chain.wake ∧ (s.dueUpTo i).chain.resetTone = s.chain.resetTone ∧
    (s.dueUpTo i).chain.surveyTimer = s.chain.surveyTimer ∧ (s.dueUpTo i).chain.firstUp = s.chain.firstUp ∧
    (s.dueUpTo i).chain.surveySlip = s.chain.surveySlip ∧ (s.dueUpTo i).chain.balance = s.chain.balance ∧
    (s.dueUpTo i).chain.returning = s.chain.returning ∧ (s.dueUpTo i).conv = s.conv ∧
    (s.dueUpTo i).plan.plans = s.plan.plans ∧ (s.dueUpTo i).plan.inForce = s.plan.inForce ∧
    (s.dueUpTo i).plan.burst = s.plan.burst ∧ (s.dueUpTo i).plan.kept = s.plan.kept ∧
    (s.dueUpTo i).plan.high = s.plan.high ∧ (s.dueUpTo i).plan.low = s.plan.low ∧
    (s.dueUpTo i).plan.temp = s.plan.temp ∧ (s.dueUpTo i).plan.implausible = s.plan.implausible ∧
    (s.dueUpTo i).plan.fresh = s.plan.fresh ∧ (s.dueUpTo i).plan.setSeq = s.plan.setSeq ∧
    (s.dueUpTo i).plan.pages = s.plan.pages ∧ (s.dueUpTo i).plan.pageAge = s.plan.pageAge ∧
    (s.dueUpTo i).plan.writing = s.plan.writing ∧ (s.dueUpTo i).plan.latest = s.plan.latest ∧
    (s.dueUpTo i).plan.quiet = s.plan.quiet ∧ (s.dueUpTo i).plan.patrolReport = s.plan.patrolReport ∧
    (s.dueUpTo i).sup = s.sup ∧ (s.dueUpTo i).ev = s.ev ∧ (s.dueUpTo i).power = s.power ∧
    (s.dueUpTo i).store = s.store ∧ (s.dueUpTo i).upd = s.upd ∧ (s.dueUpTo i).free = s.free ∧
    (s.dueUpTo i).pending = s.pending := by
  simp [State.dueUpTo, dueEach_frame]

/-- `dueUpTo` keeps the canonical form of the memory. -/
@[simp] theorem dueUpTo_wf (s : State) (i : Nat) (hw : s.mem.wf = true) :
    (s.dueUpTo i).mem.wf = true := by
  exact dueEach_wf _ _ hw

/-- What `buildSet` leaves alone. -/
@[simp] theorem buildSet_frame (s : State) (c : Capture) (b : Broadcast) :
    (s.buildSet c b).pins = s.pins ∧ (s.buildSet c b).port.notes = s.port.notes ∧
    (s.buildSet c b).port.fault = s.port.fault ∧ (s.buildSet c b).port.faultCount = s.port.faultCount ∧
    (s.buildSet c b).port.tables = s.port.tables ∧ (s.buildSet c b).port.lastTable = s.port.lastTable ∧
    (s.buildSet c b).attn.enables = s.attn.enables ∧ (s.buildSet c b).attn.levels = s.attn.levels ∧
    (s.buildSet c b).attn.mask = s.attn.mask ∧ (s.buildSet c b).chain.state = s.chain.state ∧
    (s.buildSet c b).chain.origin = s.chain.origin ∧ (s.buildSet c b).chain.wasDown = s.chain.wasDown ∧
    (s.buildSet c b).chain.downSince = s.chain.downSince ∧ (s.buildSet c b).chain.errs = s.chain.errs ∧
    (s.buildSet c b).chain.suspectSince = s.chain.suspectSince ∧
    (s.buildSet c b).chain.periodStart = s.chain.periodStart ∧
    (s.buildSet c b).chain.periodErrs = s.chain.periodErrs ∧ (s.buildSet c b).chain.capTag = s.chain.capTag ∧
    (s.buildSet c b).chain.exTag = s.chain.exTag ∧ (s.buildSet c b).chain.survey = s.chain.survey ∧
    (s.buildSet c b).chain.present = s.chain.present ∧ (s.buildSet c b).chain.configured = s.chain.configured ∧
    (s.buildSet c b).chain.breakLoc = s.chain.breakLoc ∧ (s.buildSet c b).chain.map = s.chain.map ∧
    (s.buildSet c b).chain.hold = s.chain.hold ∧ (s.buildSet c b).chain.line = s.chain.line ∧
    (s.buildSet c b).chain.lastSent = s.chain.lastSent ∧ (s.buildSet c b).chain.sleepCmd = s.chain.sleepCmd ∧
    (s.buildSet c b).chain.wakeAfterSleep = s.chain.wakeAfterSleep ∧ (s.buildSet c b).chain.wake = s.chain.wake ∧
    (s.buildSet c b).chain.resetTone = s.chain.resetTone ∧ (s.buildSet c b).chain.surveyTimer = s.chain.surveyTimer ∧
    (s.buildSet c b).chain.firstUp = s.chain.firstUp ∧ (s.buildSet c b).chain.surveySlip = s.chain.surveySlip ∧
    (s.buildSet c b).chain.returning = s.chain.returning ∧ (s.buildSet c b).conv = s.conv ∧
    (s.buildSet c b).sup.waiting = s.sup.waiting ∧ (s.buildSet c b).sup.mainNeg = s.sup.mainNeg ∧
    (s.buildSet c b).sup.inrush = s.sup.inrush ∧ (s.buildSet c b).sup.lowSupply = s.sup.lowSupply ∧
    (s.buildSet c b).sup.settleAt = s.sup.settleAt ∧ (s.buildSet c b).sup.weld = s.sup.weld ∧
    (s.buildSet c b).sup.clear = s.sup.clear ∧ (s.buildSet c b).sup.hardRun = s.sup.hardRun ∧
    (s.buildSet c b).sup.hardFell = s.sup.hardFell ∧ (s.buildSet c b).sup.hardDue = s.sup.hardDue ∧
    (s.buildSet c b).sup.faultedSince = s.sup.faultedSince ∧ (s.buildSet c b).sup.lossDue = s.sup.lossDue ∧
    (s.buildSet c b).sup.silence = s.sup.silence ∧ (s.buildSet c b).sup.warn = s.sup.warn ∧
    (s.buildSet c b).sup.lapsed = s.sup.lapsed ∧ (s.buildSet c b).sup.once = s.sup.once ∧
    (s.buildSet c b).ev.age = s.ev.age ∧ (s.buildSet c b).ev.next = s.ev.next ∧
    (s.buildSet c b).ev.filling = s.ev.filling ∧ (s.buildSet c b).power = s.power ∧
    (s.buildSet c b).store.nv = s.store.nv ∧ (s.buildSet c b).store.work = s.store.work ∧
    (s.buildSet c b).store.running = s.store.running ∧ (s.buildSet c b).store.startUp = s.store.startUp ∧
    (s.buildSet c b).store.active = s.store.active ∧ (s.buildSet c b).store.activeBank = s.store.activeBank ∧
    (s.buildSet c b).store.activeVersion = s.store.activeVersion ∧
    (s.buildSet c b).store.clampCount = s.store.clampCount ∧ (s.buildSet c b).store.outcome = s.store.outcome ∧
    (s.buildSet c b).store.faultCause = s.store.faultCause ∧ (s.buildSet c b).store.faultItem = s.store.faultItem ∧
    (s.buildSet c b).store.faultCount = s.store.faultCount ∧ (s.buildSet c b).store.lost = s.store.lost ∧
    (s.buildSet c b).store.taken = s.store.taken ∧ (s.buildSet c b).store.inForce = s.store.inForce ∧
    (s.buildSet c b).store.rangeClamps = s.store.rangeClamps ∧
    (s.buildSet c b).store.hardClamps = s.store.hardClamps ∧ (s.buildSet c b).store.keySlip = s.store.keySlip ∧
    (s.buildSet c b).upd = s.upd ∧ (s.buildSet c b).pending = s.pending := by
  simp only [State.buildSet]; (repeat' split) <;> (first | rfl | simp)

/-- `buildSet` keeps the canonical form of the memory. -/
@[simp] theorem buildSet_wf (s : State) (c : Capture) (b : Broadcast) (hw : s.mem.wf = true) :
    (s.buildSet c b).mem.wf = true := by
  simp only [State.buildSet]; (repeat' split) <;> first | exact hw | simp (maxDischargeDepth := 20) [hw, store_wf]

/-- What `takeReport` leaves alone. -/
@[simp] theorem takeReport_frame (s : State) (n : CoilName) :
    (s.takeReport n).mem = s.mem ∧ (s.takeReport n).pins = s.pins ∧ (s.takeReport n).port = s.port ∧
    (s.takeReport n).attn = s.attn ∧ (s.takeReport n).chain = s.chain ∧ (s.takeReport n).conv = s.conv ∧
    (s.takeReport n).plan = s.plan ∧ (s.takeReport n).ev = s.ev ∧ (s.takeReport n).power = s.power ∧
    (s.takeReport n).store = s.store ∧ (s.takeReport n).upd = s.upd ∧ (s.takeReport n).free = s.free ∧
    (s.takeReport n).pending = s.pending := by
  simp only [State.takeReport]; (repeat' split) <;> (first | rfl | simp)

/-- What `prechargeFails` leaves alone. -/
@[simp] theorem prechargeFails_frame (s : State) (c : Close) :
    (s.prechargeFails c).pins = s.pins ∧ (s.prechargeFails c).port.notes = s.port.notes ∧
    (s.prechargeFails c).port.fault = s.port.fault ∧ (s.prechargeFails c).port.faultCount = s.port.faultCount ∧
    (s.prechargeFails c).port.tables = s.port.tables ∧ (s.prechargeFails c).port.lastTable = s.port.lastTable ∧
    (s.prechargeFails c).attn.enables = s.attn.enables ∧ (s.prechargeFails c).attn.levels = s.attn.levels ∧
    (s.prechargeFails c).attn.mask = s.attn.mask ∧ (s.prechargeFails c).chain = s.chain ∧
    (s.prechargeFails c).conv = s.conv ∧ (s.prechargeFails c).plan = s.plan ∧
    (s.prechargeFails c).sup.waiting = s.sup.waiting ∧ (s.prechargeFails c).sup.mainPos = s.sup.mainPos ∧
    (s.prechargeFails c).sup.inrush = s.sup.inrush ∧ (s.prechargeFails c).sup.lowSupply = s.sup.lowSupply ∧
    (s.prechargeFails c).sup.settleAt = s.sup.settleAt ∧ (s.prechargeFails c).sup.opening = s.sup.opening ∧
    (s.prechargeFails c).sup.weld = s.sup.weld ∧ (s.prechargeFails c).sup.clear = s.sup.clear ∧
    (s.prechargeFails c).sup.hardRun = s.sup.hardRun ∧ (s.prechargeFails c).sup.hardFell = s.sup.hardFell ∧
    (s.prechargeFails c).sup.hardDue = s.sup.hardDue ∧ (s.prechargeFails c).sup.faultedSince = s.sup.faultedSince ∧
    (s.prechargeFails c).sup.lossDue = s.sup.lossDue ∧ (s.prechargeFails c).sup.silence = s.sup.silence ∧
    (s.prechargeFails c).sup.warn = s.sup.warn ∧ (s.prechargeFails c).sup.lapsed = s.sup.lapsed ∧
    (s.prechargeFails c).sup.once = s.sup.once ∧ (s.prechargeFails c).ev.slots = s.ev.slots ∧
    (s.prechargeFails c).ev.age = s.ev.age ∧ (s.prechargeFails c).ev.next = s.ev.next ∧
    (s.prechargeFails c).ev.filling = s.ev.filling ∧ (s.prechargeFails c).power = s.power ∧
    (s.prechargeFails c).store.nv = s.store.nv ∧ (s.prechargeFails c).store.work = s.store.work ∧
    (s.prechargeFails c).store.running = s.store.running ∧ (s.prechargeFails c).store.startUp = s.store.startUp ∧
    (s.prechargeFails c).store.active = s.store.active ∧ (s.prechargeFails c).store.activeBank = s.store.activeBank ∧
    (s.prechargeFails c).store.activeVersion = s.store.activeVersion ∧
    (s.prechargeFails c).store.clampCount = s.store.clampCount ∧
    (s.prechargeFails c).store.outcome = s.store.outcome ∧
    (s.prechargeFails c).store.faultCause = s.store.faultCause ∧
    (s.prechargeFails c).store.faultItem = s.store.faultItem ∧
    (s.prechargeFails c).store.faultCount = s.store.faultCount ∧ (s.prechargeFails c).store.lost = s.store.lost ∧
    (s.prechargeFails c).store.taken = s.store.taken ∧ (s.prechargeFails c).store.inForce = s.store.inForce ∧
    (s.prechargeFails c).store.rangeClamps = s.store.rangeClamps ∧
    (s.prechargeFails c).store.hardClamps = s.store.hardClamps ∧
    (s.prechargeFails c).store.keySlip = s.store.keySlip ∧ (s.prechargeFails c).upd = s.upd ∧
    (s.prechargeFails c).pending = s.pending := by
  simp only [State.prechargeFails]; (repeat' split) <;> (first | rfl | simp)

/-- `prechargeFails` keeps the canonical form of the memory. -/
@[simp] theorem prechargeFails_wf (s : State) (c : Close) (hw : s.mem.wf = true) :
    (s.prechargeFails c).mem.wf = true := by
  simp only [State.prechargeFails]; (repeat' split) <;> first | exact hw | simp (maxDischargeDepth := 20) [hw, store_wf]

/-- What `settled` leaves alone. -/
@[simp] theorem settled_frame (s : State) (c : Close) :
    (s.settled c).pins = s.pins ∧ (s.settled c).port.notes = s.port.notes ∧ (s.settled c).port.fault = s.port.fault ∧
    (s.settled c).port.faultCount = s.port.faultCount ∧ (s.settled c).port.tables = s.port.tables ∧
    (s.settled c).port.lastTable = s.port.lastTable ∧ (s.settled c).attn.enables = s.attn.enables ∧
    (s.settled c).attn.levels = s.attn.levels ∧ (s.settled c).attn.mask = s.attn.mask ∧
    (s.settled c).chain = s.chain ∧ (s.settled c).conv = s.conv ∧ (s.settled c).plan = s.plan ∧
    (s.settled c).sup.waiting = s.sup.waiting ∧ (s.settled c).sup.mainNeg = s.sup.mainNeg ∧
    (s.settled c).sup.mainPos = s.sup.mainPos ∧ (s.settled c).sup.inrush = s.sup.inrush ∧
    (s.settled c).sup.lowSupply = s.sup.lowSupply ∧ (s.settled c).sup.settleAt = s.sup.settleAt ∧
    (s.settled c).sup.opening = s.sup.opening ∧ (s.settled c).sup.weld = s.sup.weld ∧
    (s.settled c).sup.clear = s.sup.clear ∧ (s.settled c).sup.deferral = s.sup.deferral ∧
    (s.settled c).sup.hardRun = s.sup.hardRun ∧ (s.settled c).sup.hardFell = s.sup.hardFell ∧
    (s.settled c).sup.hardDue = s.sup.hardDue ∧ (s.settled c).sup.faultedSince = s.sup.faultedSince ∧
    (s.settled c).sup.lossDue = s.sup.lossDue ∧ (s.settled c).sup.silence = s.sup.silence ∧
    (s.settled c).sup.warn = s.sup.warn ∧ (s.settled c).sup.lapsed = s.sup.lapsed ∧
    (s.settled c).sup.once = s.sup.once ∧ (s.settled c).ev.slots = s.ev.slots ∧ (s.settled c).ev.age = s.ev.age ∧
    (s.settled c).ev.next = s.ev.next ∧ (s.settled c).ev.filling = s.ev.filling ∧ (s.settled c).power = s.power ∧
    (s.settled c).store = s.store ∧ (s.settled c).upd = s.upd ∧ (s.settled c).free = s.free ∧
    (s.settled c).pending = s.pending := by
  simp only [State.settled]; (repeat' split) <;> (first | rfl | simp)

/-- `settled` keeps the canonical form of the memory. -/
@[simp] theorem settled_wf (s : State) (c : Close) (hw : s.mem.wf = true) :
    (s.settled c).mem.wf = true := by
  simp only [State.settled]; (repeat' split) <;> first | exact hw | simp (maxDischargeDepth := 20) [hw, store_wf]

/-- What `askForBurst` leaves alone. -/
@[simp] theorem askForBurst_frame (s : State) :
    (s.askForBurst).pins = s.pins ∧ (s.askForBurst).port = s.port ∧ (s.askForBurst).attn.enables = s.attn.enables ∧
    (s.askForBurst).attn.levels = s.attn.levels ∧ (s.askForBurst).attn.mask = s.attn.mask ∧
    (s.askForBurst).chain.state = s.chain.state ∧ (s.askForBurst).chain.origin = s.chain.origin ∧
    (s.askForBurst).chain.wasDown = s.chain.wasDown ∧ (s.askForBurst).chain.downSince = s.chain.downSince ∧
    (s.askForBurst).chain.errs = s.chain.errs ∧ (s.askForBurst).chain.suspectSince = s.chain.suspectSince ∧
    (s.askForBurst).chain.periodStart = s.chain.periodStart ∧ (s.askForBurst).chain.periodErrs = s.chain.periodErrs ∧
    (s.askForBurst).chain.capTag = s.chain.capTag ∧ (s.askForBurst).chain.exTag = s.chain.exTag ∧
    (s.askForBurst).chain.survey = s.chain.survey ∧ (s.askForBurst).chain.present = s.chain.present ∧
    (s.askForBurst).chain.configured = s.chain.configured ∧ (s.askForBurst).chain.breakLoc = s.chain.breakLoc ∧
    (s.askForBurst).chain.map = s.chain.map ∧ (s.askForBurst).chain.hold = s.chain.hold ∧
    (s.askForBurst).chain.line = s.chain.line ∧ (s.askForBurst).chain.lastSent = s.chain.lastSent ∧
    (s.askForBurst).chain.sleepCmd = s.chain.sleepCmd ∧
    (s.askForBurst).chain.wakeAfterSleep = s.chain.wakeAfterSleep ∧ (s.askForBurst).chain.wake = s.chain.wake ∧
    (s.askForBurst).chain.resetTone = s.chain.resetTone ∧ (s.askForBurst).chain.surveyTimer = s.chain.surveyTimer ∧
    (s.askForBurst).chain.firstUp = s.chain.firstUp ∧ (s.askForBurst).chain.surveySlip = s.chain.surveySlip ∧
    (s.askForBurst).chain.balance = s.chain.balance ∧ (s.askForBurst).chain.returning = s.chain.returning ∧
    (s.askForBurst).conv = s.conv ∧ (s.askForBurst).plan.plans = s.plan.plans ∧
    (s.askForBurst).plan.inForce = s.plan.inForce ∧ (s.askForBurst).plan.dueDone = s.plan.dueDone ∧
    (s.askForBurst).plan.overrun = s.plan.overrun ∧ (s.askForBurst).plan.kept = s.plan.kept ∧
    (s.askForBurst).plan.high = s.plan.high ∧ (s.askForBurst).plan.low = s.plan.low ∧
    (s.askForBurst).plan.temp = s.plan.temp ∧ (s.askForBurst).plan.implausible = s.plan.implausible ∧
    (s.askForBurst).plan.fresh = s.plan.fresh ∧ (s.askForBurst).plan.setSeq = s.plan.setSeq ∧
    (s.askForBurst).plan.pages = s.plan.pages ∧ (s.askForBurst).plan.pageAge = s.plan.pageAge ∧
    (s.askForBurst).plan.writing = s.plan.writing ∧ (s.askForBurst).plan.latest = s.plan.latest ∧
    (s.askForBurst).plan.quiet = s.plan.quiet ∧ (s.askForBurst).plan.patrolReport = s.plan.patrolReport ∧
    (s.askForBurst).sup = s.sup ∧ (s.askForBurst).ev.age = s.ev.age ∧ (s.askForBurst).ev.next = s.ev.next ∧
    (s.askForBurst).ev.filling = s.ev.filling ∧ (s.askForBurst).ev.inbox = s.ev.inbox ∧
    (s.askForBurst).power = s.power ∧ (s.askForBurst).store = s.store ∧ (s.askForBurst).upd = s.upd ∧
    (s.askForBurst).free = s.free ∧ (s.askForBurst).pending = s.pending := by
  simp only [State.askForBurst]; (repeat' split) <;> (first | rfl | simp)

/-- `askForBurst` keeps the canonical form of the memory. -/
@[simp] theorem askForBurst_wf (s : State) (hw : s.mem.wf = true) :
    (s.askForBurst).mem.wf = true := by
  simp only [State.askForBurst]; (repeat' split) <;> first | exact hw | simp (maxDischargeDepth := 20) [hw, store_wf]

/-- What `told` leaves alone. -/
@[simp] theorem told_frame (s : State) (bank : BankId) (done : Bool) (who : Requester) :
    (s.told bank done who).pins = s.pins ∧ (s.told bank done who).port.notes = s.port.notes ∧
    (s.told bank done who).port.fault = s.port.fault ∧ (s.told bank done who).port.faultCount = s.port.faultCount ∧
    (s.told bank done who).port.tables = s.port.tables ∧ (s.told bank done who).port.lastTable = s.port.lastTable ∧
    (s.told bank done who).attn.enables = s.attn.enables ∧ (s.told bank done who).attn.levels = s.attn.levels ∧
    (s.told bank done who).attn.mask = s.attn.mask ∧ (s.told bank done who).chain.state = s.chain.state ∧
    (s.told bank done who).chain.origin = s.chain.origin ∧ (s.told bank done who).chain.wasDown = s.chain.wasDown ∧
    (s.told bank done who).chain.downSince = s.chain.downSince ∧ (s.told bank done who).chain.errs = s.chain.errs ∧
    (s.told bank done who).chain.suspectSince = s.chain.suspectSince ∧
    (s.told bank done who).chain.periodStart = s.chain.periodStart ∧
    (s.told bank done who).chain.periodErrs = s.chain.periodErrs ∧
    (s.told bank done who).chain.capTag = s.chain.capTag ∧ (s.told bank done who).chain.exTag = s.chain.exTag ∧
    (s.told bank done who).chain.survey = s.chain.survey ∧ (s.told bank done who).chain.present = s.chain.present ∧
    (s.told bank done who).chain.configured = s.chain.configured ∧
    (s.told bank done who).chain.breakLoc = s.chain.breakLoc ∧ (s.told bank done who).chain.map = s.chain.map ∧
    (s.told bank done who).chain.line = s.chain.line ∧ (s.told bank done who).chain.lastSent = s.chain.lastSent ∧
    (s.told bank done who).chain.wakeAfterSleep = s.chain.wakeAfterSleep ∧
    (s.told bank done who).chain.wake = s.chain.wake ∧ (s.told bank done who).chain.resetTone = s.chain.resetTone ∧
    (s.told bank done who).chain.surveyTimer = s.chain.surveyTimer ∧
    (s.told bank done who).chain.firstUp = s.chain.firstUp ∧
    (s.told bank done who).chain.surveySlip = s.chain.surveySlip ∧
    (s.told bank done who).chain.balance = s.chain.balance ∧
    (s.told bank done who).chain.returning = s.chain.returning ∧ (s.told bank done who).conv = s.conv ∧
    (s.told bank done who).plan = s.plan ∧ (s.told bank done who).sup.waiting = s.sup.waiting ∧
    (s.told bank done who).sup.mainNeg = s.sup.mainNeg ∧ (s.told bank done who).sup.precharge = s.sup.precharge ∧
    (s.told bank done who).sup.mainPos = s.sup.mainPos ∧ (s.told bank done who).sup.inrush = s.sup.inrush ∧
    (s.told bank done who).sup.lowSupply = s.sup.lowSupply ∧ (s.told bank done who).sup.close = s.sup.close ∧
    (s.told bank done who).sup.settleAt = s.sup.settleAt ∧ (s.told bank done who).sup.opening = s.sup.opening ∧
    (s.told bank done who).sup.weld = s.sup.weld ∧ (s.told bank done who).sup.deferral = s.sup.deferral ∧
    (s.told bank done who).sup.hardRun = s.sup.hardRun ∧ (s.told bank done who).sup.hardFell = s.sup.hardFell ∧
    (s.told bank done who).sup.hardDue = s.sup.hardDue ∧
    (s.told bank done who).sup.faultedSince = s.sup.faultedSince ∧
    (s.told bank done who).sup.lossDue = s.sup.lossDue ∧ (s.told bank done who).sup.silence = s.sup.silence ∧
    (s.told bank done who).sup.warn = s.sup.warn ∧ (s.told bank done who).sup.lapsed = s.sup.lapsed ∧
    (s.told bank done who).sup.once = s.sup.once ∧ (s.told bank done who).ev.slots = s.ev.slots ∧
    (s.told bank done who).ev.age = s.ev.age ∧ (s.told bank done who).ev.next = s.ev.next ∧
    (s.told bank done who).ev.filling = s.ev.filling ∧ (s.told bank done who).power.state = s.power.state ∧
    (s.told bank done who).power.wakeTable = s.power.wakeTable ∧ (s.told bank done who).power.pend = s.power.pend ∧
    (s.told bank done who).power.target = s.power.target ∧ (s.told bank done who).power.timer = s.power.timer ∧
    (s.told bank done who).power.timerRunning = s.power.timerRunning ∧
    (s.told bank done who).power.compRun = s.power.compRun ∧
    (s.told bank done who).power.compFired = s.power.compFired ∧
    (s.told bank done who).power.settleAt = s.power.settleAt ∧
    (s.told bank done who).power.settled = s.power.settled ∧ (s.told bank done who).power.patrol = s.power.patrol ∧
    (s.told bank done who).power.nextSlot = s.power.nextSlot ∧
    (s.told bank done who).power.lastNumber = s.power.lastNumber ∧
    (s.told bank done who).power.estimate = s.power.estimate ∧
    (s.told bank done who).power.lastWake = s.power.lastWake ∧
    (s.told bank done who).power.returning = s.power.returning ∧
    (s.told bank done who).power.lastReset = s.power.lastReset ∧
    (s.told bank done who).power.resetCount = s.power.resetCount ∧
    (s.told bank done who).power.wakeOut = s.power.wakeOut ∧
    (s.told bank done who).power.wakeOutAt = s.power.wakeOutAt ∧ (s.told bank done who).store.nv = s.store.nv ∧
    (s.told bank done who).store.work = s.store.work ∧ (s.told bank done who).store.running = s.store.running ∧
    (s.told bank done who).store.startUp = s.store.startUp ∧ (s.told bank done who).store.active = s.store.active ∧
    (s.told bank done who).store.activeBank = s.store.activeBank ∧
    (s.told bank done who).store.activeVersion = s.store.activeVersion ∧
    (s.told bank done who).store.clampCount = s.store.clampCount ∧
    (s.told bank done who).store.outcome = s.store.outcome ∧
    (s.told bank done who).store.faultCause = s.store.faultCause ∧
    (s.told bank done who).store.faultItem = s.store.faultItem ∧
    (s.told bank done who).store.faultCount = s.store.faultCount ∧ (s.told bank done who).store.lost = s.store.lost ∧
    (s.told bank done who).store.taken = s.store.taken ∧ (s.told bank done who).store.inForce = s.store.inForce ∧
    (s.told bank done who).store.rangeClamps = s.store.rangeClamps ∧
    (s.told bank done who).store.hardClamps = s.store.hardClamps ∧ (s.told bank done who).upd.header = s.upd.header ∧
    (s.told bank done who).upd.expected = s.upd.expected ∧ (s.told bank done who).upd.lastAcc = s.upd.lastAcc ∧
    (s.told bank done who).upd.runCrc = s.upd.runCrc ∧ (s.told bank done who).upd.waiting = s.upd.waiting ∧
    (s.told bank done who).upd.acc = s.upd.acc ∧ (s.told bank done who).upd.dup = s.upd.dup ∧
    (s.told bank done who).upd.dist = s.upd.dist ∧ (s.told bank done who).upd.switchPending = s.upd.switchPending ∧
    (s.told bank done who).upd.watches = s.upd.watches ∧ (s.told bank done who).upd.checkAt = s.upd.checkAt ∧
    (s.told bank done who).free = s.free ∧ (s.told bank done who).pending = s.pending := by
  simp only [State.told]; (repeat' split) <;> (first | rfl | simp)

/-- `told` keeps the canonical form of the memory. -/
@[simp] theorem told_wf (s : State) (bank : BankId) (done : Bool) (who : Requester) (hw : s.mem.wf = true) :
    (s.told bank done who).mem.wf = true := by
  simp only [State.told]; (repeat' split) <;> first | exact hw | simp (maxDischargeDepth := 20) [hw, store_wf]

/-- What `activate` leaves alone. -/
@[simp] theorem activate_frame (s : State) (p : Payload) (done : Bool) :
    (s.activate p done).pins = s.pins ∧ (s.activate p done).port.notes = s.port.notes ∧
    (s.activate p done).port.slots = s.port.slots ∧ (s.activate p done).port.fault = s.port.fault ∧
    (s.activate p done).port.faultCount = s.port.faultCount ∧ (s.activate p done).attn.enables = s.attn.enables ∧
    (s.activate p done).attn.levels = s.attn.levels ∧ (s.activate p done).attn.mask = s.attn.mask ∧
    (s.activate p done).chain.state = s.chain.state ∧ (s.activate p done).chain.origin = s.chain.origin ∧
    (s.activate p done).chain.wasDown = s.chain.wasDown ∧ (s.activate p done).chain.downSince = s.chain.downSince ∧
    (s.activate p done).chain.errs = s.chain.errs ∧ (s.activate p done).chain.suspectSince = s.chain.suspectSince ∧
    (s.activate p done).chain.periodStart = s.chain.periodStart ∧
    (s.activate p done).chain.periodErrs = s.chain.periodErrs ∧ (s.activate p done).chain.capTag = s.chain.capTag ∧
    (s.activate p done).chain.exTag = s.chain.exTag ∧ (s.activate p done).chain.survey = s.chain.survey ∧
    (s.activate p done).chain.present = s.chain.present ∧ (s.activate p done).chain.configured = s.chain.configured ∧
    (s.activate p done).chain.breakLoc = s.chain.breakLoc ∧ (s.activate p done).chain.hold = s.chain.hold ∧
    (s.activate p done).chain.line = s.chain.line ∧ (s.activate p done).chain.lastSent = s.chain.lastSent ∧
    (s.activate p done).chain.requests = s.chain.requests ∧ (s.activate p done).chain.sleepCmd = s.chain.sleepCmd ∧
    (s.activate p done).chain.wakeAfterSleep = s.chain.wakeAfterSleep ∧
    (s.activate p done).chain.wake = s.chain.wake ∧ (s.activate p done).chain.resetTone = s.chain.resetTone ∧
    (s.activate p done).chain.surveyTimer = s.chain.surveyTimer ∧
    (s.activate p done).chain.firstUp = s.chain.firstUp ∧ (s.activate p done).chain.surveySlip = s.chain.surveySlip ∧
    (s.activate p done).chain.balance = s.chain.balance ∧ (s.activate p done).chain.returning = s.chain.returning ∧
    (s.activate p done).conv = s.conv ∧ (s.activate p done).plan = s.plan ∧ (s.activate p done).sup = s.sup ∧
    (s.activate p done).ev = s.ev ∧ (s.activate p done).power = s.power ∧ (s.activate p done).store.nv = s.store.nv ∧
    (s.activate p done).store.work = s.store.work ∧ (s.activate p done).store.queue = s.store.queue ∧
    (s.activate p done).store.running = s.store.running ∧ (s.activate p done).store.startUp = s.store.startUp ∧
    (s.activate p done).store.outcome = s.store.outcome ∧ (s.activate p done).store.faultCause = s.store.faultCause ∧
    (s.activate p done).store.faultItem = s.store.faultItem ∧
    (s.activate p done).store.faultCount = s.store.faultCount ∧ (s.activate p done).store.lost = s.store.lost ∧
    (s.activate p done).store.taken = s.store.taken ∧ (s.activate p done).store.rangeClamps = s.store.rangeClamps ∧
    (s.activate p done).store.keySlip = s.store.keySlip ∧ (s.activate p done).upd = s.upd ∧
    (s.activate p done).free = s.free ∧ (s.activate p done).pending = s.pending := by
  simp only [State.activate]; (repeat' split) <;> (first | rfl | simp)

/-- `activate` keeps the canonical form of the memory. -/
@[simp] theorem activate_wf (s : State) (p : Payload) (done : Bool) (hw : s.mem.wf = true) :
    (s.activate p done).mem.wf = true := by
  simp only [State.activate]; (repeat' split) <;> first | exact hw | simp (maxDischargeDepth := 20) [hw, store_wf]

theorem tellEach_frame (bank : BankId) (done : Bool) (s : State) (l : List Requester) :
    (l.foldl (fun t w => t.told bank done w) s).pins = s.pins ∧
    (l.foldl (fun t w => t.told bank done w) s).port.notes = s.port.notes ∧
    (l.foldl (fun t w => t.told bank done w) s).port.fault = s.port.fault ∧
    (l.foldl (fun t w => t.told bank done w) s).port.faultCount = s.port.faultCount ∧
    (l.foldl (fun t w => t.told bank done w) s).attn.enables = s.attn.enables ∧
    (l.foldl (fun t w => t.told bank done w) s).attn.levels = s.attn.levels ∧
    (l.foldl (fun t w => t.told bank done w) s).attn.mask = s.attn.mask ∧
    (l.foldl (fun t w => t.told bank done w) s).chain.state = s.chain.state ∧
    (l.foldl (fun t w => t.told bank done w) s).chain.origin = s.chain.origin ∧
    (l.foldl (fun t w => t.told bank done w) s).chain.wasDown = s.chain.wasDown ∧
    (l.foldl (fun t w => t.told bank done w) s).chain.downSince = s.chain.downSince ∧
    (l.foldl (fun t w => t.told bank done w) s).chain.errs = s.chain.errs ∧
    (l.foldl (fun t w => t.told bank done w) s).chain.suspectSince = s.chain.suspectSince ∧
    (l.foldl (fun t w => t.told bank done w) s).chain.periodStart = s.chain.periodStart ∧
    (l.foldl (fun t w => t.told bank done w) s).chain.periodErrs = s.chain.periodErrs ∧
    (l.foldl (fun t w => t.told bank done w) s).chain.capTag = s.chain.capTag ∧
    (l.foldl (fun t w => t.told bank done w) s).chain.exTag = s.chain.exTag ∧
    (l.foldl (fun t w => t.told bank done w) s).chain.survey = s.chain.survey ∧
    (l.foldl (fun t w => t.told bank done w) s).chain.present = s.chain.present ∧
    (l.foldl (fun t w => t.told bank done w) s).chain.configured = s.chain.configured ∧
    (l.foldl (fun t w => t.told bank done w) s).chain.breakLoc = s.chain.breakLoc ∧
    (l.foldl (fun t w => t.told bank done w) s).chain.line = s.chain.line ∧
    (l.foldl (fun t w => t.told bank done w) s).chain.lastSent = s.chain.lastSent ∧
    (l.foldl (fun t w => t.told bank done w) s).chain.wakeAfterSleep = s.chain.wakeAfterSleep ∧
    (l.foldl (fun t w => t.told bank done w) s).chain.wake = s.chain.wake ∧
    (l.foldl (fun t w => t.told bank done w) s).chain.resetTone = s.chain.resetTone ∧
    (l.foldl (fun t w => t.told bank done w) s).chain.surveyTimer = s.chain.surveyTimer ∧
    (l.foldl (fun t w => t.told bank done w) s).chain.firstUp = s.chain.firstUp ∧
    (l.foldl (fun t w => t.told bank done w) s).chain.surveySlip = s.chain.surveySlip ∧
    (l.foldl (fun t w => t.told bank done w) s).chain.balance = s.chain.balance ∧
    (l.foldl (fun t w => t.told bank done w) s).chain.returning = s.chain.returning ∧
    (l.foldl (fun t w => t.told bank done w) s).conv = s.conv ∧
    (l.foldl (fun t w => t.told bank done w) s).plan = s.plan ∧
    (l.foldl (fun t w => t.told bank done w) s).sup.waiting = s.sup.waiting ∧
    (l.foldl (fun t w => t.told bank done w) s).sup.mainNeg = s.sup.mainNeg ∧
    (l.foldl (fun t w => t.told bank done w) s).sup.precharge = s.sup.precharge ∧
    (l.foldl (fun t w => t.told bank done w) s).sup.mainPos = s.sup.mainPos ∧
    (l.foldl (fun t w => t.told bank done w) s).sup.inrush = s.sup.inrush ∧
    (l.foldl (fun t w => t.told bank done w) s).sup.lowSupply = s.sup.lowSupply ∧
    (l.foldl (fun t w => t.told bank done w) s).sup.close = s.sup.close ∧
    (l.foldl (fun t w => t.told bank done w) s).sup.settleAt = s.sup.settleAt ∧
    (l.foldl (fun t w => t.told bank done w) s).sup.opening = s.sup.opening ∧
    (l.foldl (fun t w => t.told bank done w) s).sup.weld = s.sup.weld ∧
    (l.foldl (fun t w => t.told bank done w) s).sup.deferral = s.sup.deferral ∧
    (l.foldl (fun t w => t.told bank done w) s).sup.hardRun = s.sup.hardRun ∧
    (l.foldl (fun t w => t.told bank done w) s).sup.hardFell = s.sup.hardFell ∧
    (l.foldl (fun t w => t.told bank done w) s).sup.hardDue = s.sup.hardDue ∧
    (l.foldl (fun t w => t.told bank done w) s).sup.faultedSince = s.sup.faultedSince ∧
    (l.foldl (fun t w => t.told bank done w) s).sup.lossDue = s.sup.lossDue ∧
    (l.foldl (fun t w => t.told bank done w) s).sup.silence = s.sup.silence ∧
    (l.foldl (fun t w => t.told bank done w) s).sup.warn = s.sup.warn ∧
    (l.foldl (fun t w => t.told bank done w) s).sup.lapsed = s.sup.lapsed ∧
    (l.foldl (fun t w => t.told bank done w) s).sup.once = s.sup.once ∧
    (l.foldl (fun t w => t.told bank done w) s).ev.slots = s.ev.slots ∧
    (l.foldl (fun t w => t.told bank done w) s).ev.age = s.ev.age ∧
    (l.foldl (fun t w => t.told bank done w) s).ev.next = s.ev.next ∧
    (l.foldl (fun t w => t.told bank done w) s).ev.filling = s.ev.filling ∧
    (l.foldl (fun t w => t.told bank done w) s).power.state = s.power.state ∧
    (l.foldl (fun t w => t.told bank done w) s).power.wakeTable = s.power.wakeTable ∧
    (l.foldl (fun t w => t.told bank done w) s).power.pend = s.power.pend ∧
    (l.foldl (fun t w => t.told bank done w) s).power.target = s.power.target ∧
    (l.foldl (fun t w => t.told bank done w) s).power.timer = s.power.timer ∧
    (l.foldl (fun t w => t.told bank done w) s).power.timerRunning = s.power.timerRunning ∧
    (l.foldl (fun t w => t.told bank done w) s).power.compRun = s.power.compRun ∧
    (l.foldl (fun t w => t.told bank done w) s).power.compFired = s.power.compFired ∧
    (l.foldl (fun t w => t.told bank done w) s).power.settleAt = s.power.settleAt ∧
    (l.foldl (fun t w => t.told bank done w) s).power.settled = s.power.settled ∧
    (l.foldl (fun t w => t.told bank done w) s).power.patrol = s.power.patrol ∧
    (l.foldl (fun t w => t.told bank done w) s).power.nextSlot = s.power.nextSlot ∧
    (l.foldl (fun t w => t.told bank done w) s).power.lastNumber = s.power.lastNumber ∧
    (l.foldl (fun t w => t.told bank done w) s).power.estimate = s.power.estimate ∧
    (l.foldl (fun t w => t.told bank done w) s).power.lastWake = s.power.lastWake ∧
    (l.foldl (fun t w => t.told bank done w) s).power.returning = s.power.returning ∧
    (l.foldl (fun t w => t.told bank done w) s).power.lastReset = s.power.lastReset ∧
    (l.foldl (fun t w => t.told bank done w) s).power.resetCount = s.power.resetCount ∧
    (l.foldl (fun t w => t.told bank done w) s).power.wakeOut = s.power.wakeOut ∧
    (l.foldl (fun t w => t.told bank done w) s).power.wakeOutAt = s.power.wakeOutAt ∧
    (l.foldl (fun t w => t.told bank done w) s).store.startUp = s.store.startUp ∧
    (l.foldl (fun t w => t.told bank done w) s).store.outcome = s.store.outcome ∧
    (l.foldl (fun t w => t.told bank done w) s).store.lost = s.store.lost ∧
    (l.foldl (fun t w => t.told bank done w) s).store.taken = s.store.taken ∧
    (l.foldl (fun t w => t.told bank done w) s).store.rangeClamps = s.store.rangeClamps ∧
    (l.foldl (fun t w => t.told bank done w) s).upd.header = s.upd.header ∧
    (l.foldl (fun t w => t.told bank done w) s).upd.expected = s.upd.expected ∧
    (l.foldl (fun t w => t.told bank done w) s).upd.lastAcc = s.upd.lastAcc ∧
    (l.foldl (fun t w => t.told bank done w) s).upd.runCrc = s.upd.runCrc ∧
    (l.foldl (fun t w => t.told bank done w) s).upd.waiting = s.upd.waiting ∧
    (l.foldl (fun t w => t.told bank done w) s).upd.acc = s.upd.acc ∧
    (l.foldl (fun t w => t.told bank done w) s).upd.dup = s.upd.dup ∧
    (l.foldl (fun t w => t.told bank done w) s).upd.dist = s.upd.dist ∧
    (l.foldl (fun t w => t.told bank done w) s).upd.switchPending = s.upd.switchPending ∧
    (l.foldl (fun t w => t.told bank done w) s).upd.watches = s.upd.watches ∧
    (l.foldl (fun t w => t.told bank done w) s).upd.checkAt = s.upd.checkAt ∧
    (l.foldl (fun t w => t.told bank done w) s).free = s.free ∧
    (l.foldl (fun t w => t.told bank done w) s).pending = s.pending := by
  induction l generalizing s with
  | nil => simp
  | cons x l ih => simp [ih]

theorem tellEach_wf (bank : BankId) (done : Bool) (s : State) (l : List Requester) (hw : s.mem.wf = true) :
    (l.foldl (fun t w => t.told bank done w) s).mem.wf = true := by
  induction l generalizing s with
  | nil => simpa using hw
  | cons x l ih => simp only [List.foldl_cons]; exact ih _ (told_wf _ _ _ _ hw)

/-- What `endWrite` leaves alone. -/
@[simp] theorem endWrite_frame (s : State) (r : Running) (matched : Bool) :
    (s.endWrite r matched).pins = s.pins ∧ (s.endWrite r matched).port.notes = s.port.notes ∧
    (s.endWrite r matched).port.fault = s.port.fault ∧ (s.endWrite r matched).port.faultCount = s.port.faultCount ∧
    (s.endWrite r matched).attn.enables = s.attn.enables ∧ (s.endWrite r matched).attn.levels = s.attn.levels ∧
    (s.endWrite r matched).attn.mask = s.attn.mask ∧ (s.endWrite r matched).chain.state = s.chain.state ∧
    (s.endWrite r matched).chain.origin = s.chain.origin ∧ (s.endWrite r matched).chain.wasDown = s.chain.wasDown ∧
    (s.endWrite r matched).chain.downSince = s.chain.downSince ∧ (s.endWrite r matched).chain.errs = s.chain.errs ∧
    (s.endWrite r matched).chain.suspectSince = s.chain.suspectSince ∧
    (s.endWrite r matched).chain.periodStart = s.chain.periodStart ∧
    (s.endWrite r matched).chain.periodErrs = s.chain.periodErrs ∧
    (s.endWrite r matched).chain.capTag = s.chain.capTag ∧ (s.endWrite r matched).chain.exTag = s.chain.exTag ∧
    (s.endWrite r matched).chain.survey = s.chain.survey ∧ (s.endWrite r matched).chain.present = s.chain.present ∧
    (s.endWrite r matched).chain.configured = s.chain.configured ∧
    (s.endWrite r matched).chain.breakLoc = s.chain.breakLoc ∧ (s.endWrite r matched).chain.line = s.chain.line ∧
    (s.endWrite r matched).chain.lastSent = s.chain.lastSent ∧
    (s.endWrite r matched).chain.wakeAfterSleep = s.chain.wakeAfterSleep ∧
    (s.endWrite r matched).chain.wake = s.chain.wake ∧ (s.endWrite r matched).chain.resetTone = s.chain.resetTone ∧
    (s.endWrite r matched).chain.surveyTimer = s.chain.surveyTimer ∧
    (s.endWrite r matched).chain.firstUp = s.chain.firstUp ∧
    (s.endWrite r matched).chain.surveySlip = s.chain.surveySlip ∧
    (s.endWrite r matched).chain.balance = s.chain.balance ∧
    (s.endWrite r matched).chain.returning = s.chain.returning ∧ (s.endWrite r matched).conv = s.conv ∧
    (s.endWrite r matched).plan = s.plan ∧ (s.endWrite r matched).sup.waiting = s.sup.waiting ∧
    (s.endWrite r matched).sup.mainNeg = s.sup.mainNeg ∧ (s.endWrite r matched).sup.precharge = s.sup.precharge ∧
    (s.endWrite r matched).sup.mainPos = s.sup.mainPos ∧ (s.endWrite r matched).sup.inrush = s.sup.inrush ∧
    (s.endWrite r matched).sup.lowSupply = s.sup.lowSupply ∧ (s.endWrite r matched).sup.close = s.sup.close ∧
    (s.endWrite r matched).sup.settleAt = s.sup.settleAt ∧ (s.endWrite r matched).sup.opening = s.sup.opening ∧
    (s.endWrite r matched).sup.weld = s.sup.weld ∧ (s.endWrite r matched).sup.deferral = s.sup.deferral ∧
    (s.endWrite r matched).sup.hardRun = s.sup.hardRun ∧ (s.endWrite r matched).sup.hardFell = s.sup.hardFell ∧
    (s.endWrite r matched).sup.hardDue = s.sup.hardDue ∧
    (s.endWrite r matched).sup.faultedSince = s.sup.faultedSince ∧
    (s.endWrite r matched).sup.lossDue = s.sup.lossDue ∧ (s.endWrite r matched).sup.silence = s.sup.silence ∧
    (s.endWrite r matched).sup.warn = s.sup.warn ∧ (s.endWrite r matched).sup.lapsed = s.sup.lapsed ∧
    (s.endWrite r matched).sup.once = s.sup.once ∧ (s.endWrite r matched).ev.slots = s.ev.slots ∧
    (s.endWrite r matched).ev.age = s.ev.age ∧ (s.endWrite r matched).ev.next = s.ev.next ∧
    (s.endWrite r matched).ev.filling = s.ev.filling ∧ (s.endWrite r matched).power.state = s.power.state ∧
    (s.endWrite r matched).power.wakeTable = s.power.wakeTable ∧ (s.endWrite r matched).power.pend = s.power.pend ∧
    (s.endWrite r matched).power.target = s.power.target ∧ (s.endWrite r matched).power.timer = s.power.timer ∧
    (s.endWrite r matched).power.timerRunning = s.power.timerRunning ∧
    (s.endWrite r matched).power.compRun = s.power.compRun ∧
    (s.endWrite r matched).power.compFired = s.power.compFired ∧
    (s.endWrite r matched).power.settleAt = s.power.settleAt ∧
    (s.endWrite r matched).power.settled = s.power.settled ∧ (s.endWrite r matched).power.patrol = s.power.patrol ∧
    (s.endWrite r matched).power.nextSlot = s.power.nextSlot ∧
    (s.endWrite r matched).power.lastNumber = s.power.lastNumber ∧
    (s.endWrite r matched).power.estimate = s.power.estimate ∧
    (s.endWrite r matched).power.lastWake = s.power.lastWake ∧
    (s.endWrite r matched).power.returning = s.power.returning ∧
    (s.endWrite r matched).power.lastReset = s.power.lastReset ∧
    (s.endWrite r matched).power.resetCount = s.power.resetCount ∧
    (s.endWrite r matched).power.wakeOut = s.power.wakeOut ∧
    (s.endWrite r matched).power.wakeOutAt = s.power.wakeOutAt ∧
    (s.endWrite r matched).store.startUp = s.store.startUp ∧ (s.endWrite r matched).store.outcome = s.store.outcome ∧
    (s.endWrite r matched).store.lost = s.store.lost ∧ (s.endWrite r matched).store.taken = s.store.taken ∧
    (s.endWrite r matched).store.rangeClamps = s.store.rangeClamps ∧
    (s.endWrite r matched).upd.header = s.upd.header ∧ (s.endWrite r matched).upd.expected = s.upd.expected ∧
    (s.endWrite r matched).upd.lastAcc = s.upd.lastAcc ∧ (s.endWrite r matched).upd.runCrc = s.upd.runCrc ∧
    (s.endWrite r matched).upd.waiting = s.upd.waiting ∧ (s.endWrite r matched).upd.acc = s.upd.acc ∧
    (s.endWrite r matched).upd.dup = s.upd.dup ∧ (s.endWrite r matched).upd.dist = s.upd.dist ∧
    (s.endWrite r matched).upd.switchPending = s.upd.switchPending ∧
    (s.endWrite r matched).upd.watches = s.upd.watches ∧ (s.endWrite r matched).upd.checkAt = s.upd.checkAt ∧
    (s.endWrite r matched).free = s.free ∧ (s.endWrite r matched).pending = s.pending := by
  simp [State.endWrite, tellEach_frame]

/-- `endWrite` keeps the canonical form of the memory. -/
@[simp] theorem endWrite_wf (s : State) (r : Running) (matched : Bool) (hw : s.mem.wf = true) :
    (s.endWrite r matched).mem.wf = true := by
  exact tellEach_wf _ _ _ _ (by simp (maxDischargeDepth := 20) [hw])

/-- What `leaveWait` leaves alone. -/
@[simp] theorem leaveWait_frame (s : State) :
    (s.leaveWait).pins = s.pins ∧ (s.leaveWait).port = s.port ∧ (s.leaveWait).attn.enables = s.attn.enables ∧
    (s.leaveWait).attn.levels = s.attn.levels ∧ (s.leaveWait).attn.mask = s.attn.mask ∧
    (s.leaveWait).chain = s.chain ∧ (s.leaveWait).conv = s.conv ∧ (s.leaveWait).plan = s.plan ∧
    (s.leaveWait).sup.mainNeg = s.sup.mainNeg ∧ (s.leaveWait).sup.precharge = s.sup.precharge ∧
    (s.leaveWait).sup.mainPos = s.sup.mainPos ∧ (s.leaveWait).sup.inrush = s.sup.inrush ∧
    (s.leaveWait).sup.lowSupply = s.sup.lowSupply ∧ (s.leaveWait).sup.close = s.sup.close ∧
    (s.leaveWait).sup.settleAt = s.sup.settleAt ∧ (s.leaveWait).sup.opening = s.sup.opening ∧
    (s.leaveWait).sup.weld = s.sup.weld ∧ (s.leaveWait).sup.clear = s.sup.clear ∧
    (s.leaveWait).sup.deferral = s.sup.deferral ∧ (s.leaveWait).sup.hardRun = s.sup.hardRun ∧
    (s.leaveWait).sup.hardFell = s.sup.hardFell ∧ (s.leaveWait).sup.hardDue = s.sup.hardDue ∧
    (s.leaveWait).sup.faultedSince = s.sup.faultedSince ∧ (s.leaveWait).sup.lossHeld = s.sup.lossHeld ∧
    (s.leaveWait).sup.lossDue = s.sup.lossDue ∧ (s.leaveWait).sup.silence = s.sup.silence ∧
    (s.leaveWait).sup.warn = s.sup.warn ∧ (s.leaveWait).sup.lapsed = s.sup.lapsed ∧
    (s.leaveWait).sup.once = s.sup.once ∧ (s.leaveWait).ev = s.ev ∧ (s.leaveWait).power = s.power ∧
    (s.leaveWait).store = s.store ∧ (s.leaveWait).upd = s.upd ∧ (s.leaveWait).free = s.free ∧
    (s.leaveWait).pending = s.pending := by
  simp only [State.leaveWait]; (repeat' split) <;> (first | rfl | simp)

/-- `leaveWait` keeps the canonical form of the memory. -/
@[simp] theorem leaveWait_wf (s : State) (hw : s.mem.wf = true) :
    (s.leaveWait).mem.wf = true := by
  simp only [State.leaveWait]; (repeat' split) <;> first | exact hw | simp (maxDischargeDepth := 20) [hw, store_wf]

/-- What `endStartUp` leaves alone. -/
@[simp] theorem endStartUp_frame (s : State) :
    (s.endStartUp).pins = s.pins ∧ (s.endStartUp).port.notes = s.port.notes ∧
    (s.endStartUp).port.slots = s.port.slots ∧ (s.endStartUp).port.fault = s.port.fault ∧
    (s.endStartUp).port.faultCount = s.port.faultCount ∧ (s.endStartUp).attn.enables = s.attn.enables ∧
    (s.endStartUp).attn.levels = s.attn.levels ∧ (s.endStartUp).attn.mask = s.attn.mask ∧
    (s.endStartUp).chain.state = s.chain.state ∧ (s.endStartUp).chain.origin = s.chain.origin ∧
    (s.endStartUp).chain.wasDown = s.chain.wasDown ∧ (s.endStartUp).chain.downSince = s.chain.downSince ∧
    (s.endStartUp).chain.errs = s.chain.errs ∧ (s.endStartUp).chain.suspectSince = s.chain.suspectSince ∧
    (s.endStartUp).chain.periodStart = s.chain.periodStart ∧ (s.endStartUp).chain.periodErrs = s.chain.periodErrs ∧
    (s.endStartUp).chain.capTag = s.chain.capTag ∧ (s.endStartUp).chain.exTag = s.chain.exTag ∧
    (s.endStartUp).chain.survey = s.chain.survey ∧ (s.endStartUp).chain.present = s.chain.present ∧
    (s.endStartUp).chain.configured = s.chain.configured ∧ (s.endStartUp).chain.breakLoc = s.chain.breakLoc ∧
    (s.endStartUp).chain.hold = s.chain.hold ∧ (s.endStartUp).chain.line = s.chain.line ∧
    (s.endStartUp).chain.lastSent = s.chain.lastSent ∧ (s.endStartUp).chain.requests = s.chain.requests ∧
    (s.endStartUp).chain.sleepCmd = s.chain.sleepCmd ∧ (s.endStartUp).chain.wakeAfterSleep = s.chain.wakeAfterSleep ∧
    (s.endStartUp).chain.wake = s.chain.wake ∧ (s.endStartUp).chain.resetTone = s.chain.resetTone ∧
    (s.endStartUp).chain.surveyTimer = s.chain.surveyTimer ∧ (s.endStartUp).chain.firstUp = s.chain.firstUp ∧
    (s.endStartUp).chain.surveySlip = s.chain.surveySlip ∧ (s.endStartUp).chain.balance = s.chain.balance ∧
    (s.endStartUp).chain.returning = s.chain.returning ∧ (s.endStartUp).conv.scanning = s.conv.scanning ∧
    (s.endStartUp).conv.us = s.conv.us ∧ (s.endStartUp).conv.part = s.conv.part ∧
    (s.endStartUp).conv.lastLatch = s.conv.lastLatch ∧ (s.endStartUp).conv.latched = s.conv.latched ∧
    (s.endStartUp).conv.history = s.conv.history ∧ (s.endStartUp).conv.unsampled = s.conv.unsampled ∧
    (s.endStartUp).conv.estimate = s.conv.estimate ∧ (s.endStartUp).conv.snapTimer = s.conv.snapTimer ∧
    (s.endStartUp).plan = s.plan ∧ (s.endStartUp).sup.mainNeg = s.sup.mainNeg ∧
    (s.endStartUp).sup.precharge = s.sup.precharge ∧ (s.endStartUp).sup.mainPos = s.sup.mainPos ∧
    (s.endStartUp).sup.inrush = s.sup.inrush ∧ (s.endStartUp).sup.lowSupply = s.sup.lowSupply ∧
    (s.endStartUp).sup.close = s.sup.close ∧ (s.endStartUp).sup.settleAt = s.sup.settleAt ∧
    (s.endStartUp).sup.opening = s.sup.opening ∧ (s.endStartUp).sup.weld = s.sup.weld ∧
    (s.endStartUp).sup.clear = s.sup.clear ∧ (s.endStartUp).sup.deferral = s.sup.deferral ∧
    (s.endStartUp).sup.hardRun = s.sup.hardRun ∧ (s.endStartUp).sup.hardFell = s.sup.hardFell ∧
    (s.endStartUp).sup.hardDue = s.sup.hardDue ∧ (s.endStartUp).sup.faultedSince = s.sup.faultedSince ∧
    (s.endStartUp).sup.lossHeld = s.sup.lossHeld ∧ (s.endStartUp).sup.lossDue = s.sup.lossDue ∧
    (s.endStartUp).sup.silence = s.sup.silence ∧ (s.endStartUp).sup.warn = s.sup.warn ∧
    (s.endStartUp).sup.lapsed = s.sup.lapsed ∧ (s.endStartUp).sup.once = s.sup.once ∧ (s.endStartUp).ev = s.ev ∧
    (s.endStartUp).power = s.power ∧ (s.endStartUp).store.nv = s.store.nv ∧
    (s.endStartUp).store.running = s.store.running ∧ (s.endStartUp).store.taken = s.store.taken ∧
    (s.endStartUp).store.rangeClamps = s.store.rangeClamps ∧ (s.endStartUp).store.keySlip = s.store.keySlip ∧
    (s.endStartUp).upd = s.upd ∧ (s.endStartUp).free = s.free ∧ (s.endStartUp).pending = s.pending := by
  simp only [State.endStartUp]; (repeat' split) <;> (first | rfl | simp)

/-- `endStartUp` keeps the canonical form of the memory. -/
@[simp] theorem endStartUp_wf (s : State) (hw : s.mem.wf = true) :
    (s.endStartUp).mem.wf = true := by
  exact leaveWait_wf _ (put_wf _ _ _ (restoreCharge_wf _ (readStore_wf _ hw)))

/-- What `verified` leaves alone. -/
@[simp] theorem verified_frame (s : State) :
    (s.verified).pins = s.pins ∧ (s.verified).port.notes = s.port.notes ∧ (s.verified).port.fault = s.port.fault ∧
    (s.verified).port.faultCount = s.port.faultCount ∧ (s.verified).port.tables = s.port.tables ∧
    (s.verified).port.lastTable = s.port.lastTable ∧ (s.verified).attn.enables = s.attn.enables ∧
    (s.verified).attn.levels = s.attn.levels ∧ (s.verified).attn.mask = s.attn.mask ∧ (s.verified).chain = s.chain ∧
    (s.verified).conv = s.conv ∧ (s.verified).plan = s.plan ∧ (s.verified).sup = s.sup ∧ (s.verified).ev = s.ev ∧
    (s.verified).power = s.power ∧ (s.verified).store = s.store ∧ (s.verified).upd.aborts = s.upd.aborts ∧
    (s.verified).upd.header = s.upd.header ∧ (s.verified).upd.staging = s.upd.staging ∧
    (s.verified).upd.expected = s.upd.expected ∧ (s.verified).upd.lastAcc = s.upd.lastAcc ∧
    (s.verified).upd.runCrc = s.upd.runCrc ∧ (s.verified).upd.absorbing = s.upd.absorbing ∧
    (s.verified).upd.waiting = s.upd.waiting ∧ (s.verified).upd.acc = s.upd.acc ∧ (s.verified).upd.dup = s.upd.dup ∧
    (s.verified).upd.rej = s.upd.rej ∧ (s.verified).upd.dist = s.upd.dist ∧ (s.verified).upd.turn = s.upd.turn ∧
    (s.verified).upd.link = s.upd.link ∧ (s.verified).upd.pause = s.upd.pause ∧
    (s.verified).upd.switchPending = s.upd.switchPending ∧ (s.verified).upd.commitReached = s.upd.commitReached ∧
    (s.verified).upd.floorWritten = s.upd.floorWritten ∧ (s.verified).upd.commit = s.upd.commit ∧
    (s.verified).upd.bankWritten = s.upd.bankWritten ∧ (s.verified).upd.window = s.upd.window ∧
    (s.verified).upd.aborting = s.upd.aborting ∧ (s.verified).upd.outcome = s.upd.outcome ∧
    (s.verified).upd.outcomeState = s.upd.outcomeState ∧ (s.verified).upd.watches = s.upd.watches ∧
    (s.verified).upd.checkAt = s.upd.checkAt ∧ (s.verified).free = s.free ∧ (s.verified).pending = s.pending := by
  simp only [State.verified]; (repeat' split) <;> (first | rfl | simp)

/-- `verified` keeps the canonical form of the memory. -/
@[simp] theorem verified_wf (s : State) (hw : s.mem.wf = true) :
    (s.verified).mem.wf = true := by
  simp only [State.verified]; (repeat' split) <;> first | exact hw | simp (maxDischargeDepth := 20) [hw, store_wf]

/-- What `endCheck` leaves alone. -/
@[simp] theorem endCheck_frame (s : State) (rereadEqual pass : Bool) :
    (s.endCheck rereadEqual pass).pins = s.pins ∧ (s.endCheck rereadEqual pass).port.notes = s.port.notes ∧
    (s.endCheck rereadEqual pass).port.fault = s.port.fault ∧
    (s.endCheck rereadEqual pass).port.faultCount = s.port.faultCount ∧
    (s.endCheck rereadEqual pass).port.tables = s.port.tables ∧
    (s.endCheck rereadEqual pass).port.lastTable = s.port.lastTable ∧
    (s.endCheck rereadEqual pass).attn.enables = s.attn.enables ∧
    (s.endCheck rereadEqual pass).attn.levels = s.attn.levels ∧
    (s.endCheck rereadEqual pass).attn.mask = s.attn.mask ∧
    (s.endCheck rereadEqual pass).chain.state = s.chain.state ∧
    (s.endCheck rereadEqual pass).chain.origin = s.chain.origin ∧
    (s.endCheck rereadEqual pass).chain.wasDown = s.chain.wasDown ∧
    (s.endCheck rereadEqual pass).chain.downSince = s.chain.downSince ∧
    (s.endCheck rereadEqual pass).chain.errs = s.chain.errs ∧
    (s.endCheck rereadEqual pass).chain.suspectSince = s.chain.suspectSince ∧
    (s.endCheck rereadEqual pass).chain.periodStart = s.chain.periodStart ∧
    (s.endCheck rereadEqual pass).chain.periodErrs = s.chain.periodErrs ∧
    (s.endCheck rereadEqual pass).chain.capTag = s.chain.capTag ∧
    (s.endCheck rereadEqual pass).chain.exTag = s.chain.exTag ∧
    (s.endCheck rereadEqual pass).chain.survey = s.chain.survey ∧
    (s.endCheck rereadEqual pass).chain.present = s.chain.present ∧
    (s.endCheck rereadEqual pass).chain.configured = s.chain.configured ∧
    (s.endCheck rereadEqual pass).chain.breakLoc = s.chain.breakLoc ∧
    (s.endCheck rereadEqual pass).chain.map = s.chain.map ∧ (s.endCheck rereadEqual pass).chain.line = s.chain.line ∧
    (s.endCheck rereadEqual pass).chain.lastSent = s.chain.lastSent ∧
    (s.endCheck rereadEqual pass).chain.sleepCmd = s.chain.sleepCmd ∧
    (s.endCheck rereadEqual pass).chain.wakeAfterSleep = s.chain.wakeAfterSleep ∧
    (s.endCheck rereadEqual pass).chain.wake = s.chain.wake ∧
    (s.endCheck rereadEqual pass).chain.resetTone = s.chain.resetTone ∧
    (s.endCheck rereadEqual pass).chain.surveyTimer = s.chain.surveyTimer ∧
    (s.endCheck rereadEqual pass).chain.firstUp = s.chain.firstUp ∧
    (s.endCheck rereadEqual pass).chain.surveySlip = s.chain.surveySlip ∧
    (s.endCheck rereadEqual pass).chain.balance = s.chain.balance ∧
    (s.endCheck rereadEqual pass).chain.returning = s.chain.returning ∧ (s.endCheck rereadEqual pass).conv = s.conv ∧
    (s.endCheck rereadEqual pass).plan = s.plan ∧ (s.endCheck rereadEqual pass).sup = s.sup ∧
    (s.endCheck rereadEqual pass).ev.slots = s.ev.slots ∧ (s.endCheck rereadEqual pass).ev.age = s.ev.age ∧
    (s.endCheck rereadEqual pass).ev.next = s.ev.next ∧ (s.endCheck rereadEqual pass).ev.filling = s.ev.filling ∧
    (s.endCheck rereadEqual pass).power = s.power ∧ (s.endCheck rereadEqual pass).store = s.store ∧
    (s.endCheck rereadEqual pass).upd.header = s.upd.header ∧
    (s.endCheck rereadEqual pass).upd.expected = s.upd.expected ∧
    (s.endCheck rereadEqual pass).upd.lastAcc = s.upd.lastAcc ∧
    (s.endCheck rereadEqual pass).upd.runCrc = s.upd.runCrc ∧
    (s.endCheck rereadEqual pass).upd.waiting = s.upd.waiting ∧ (s.endCheck rereadEqual pass).upd.acc = s.upd.acc ∧
    (s.endCheck rereadEqual pass).upd.dup = s.upd.dup ∧ (s.endCheck rereadEqual pass).upd.dist = s.upd.dist ∧
    (s.endCheck rereadEqual pass).upd.switchPending = s.upd.switchPending ∧
    (s.endCheck rereadEqual pass).upd.commitReached = s.upd.commitReached ∧
    (s.endCheck rereadEqual pass).upd.floorWritten = s.upd.floorWritten ∧
    (s.endCheck rereadEqual pass).upd.bankWritten = s.upd.bankWritten ∧
    (s.endCheck rereadEqual pass).upd.watches = s.upd.watches ∧
    (s.endCheck rereadEqual pass).upd.checkAt = s.upd.checkAt ∧ (s.endCheck rereadEqual pass).free = s.free ∧
    (s.endCheck rereadEqual pass).pending = s.pending := by
  simp only [State.endCheck]; (repeat' split) <;> (first | rfl | simp)

/-- `endCheck` keeps the canonical form of the memory. -/
@[simp] theorem endCheck_wf (s : State) (rereadEqual pass : Bool) (hw : s.mem.wf = true) :
    (s.endCheck rereadEqual pass).mem.wf = true := by
  simp only [State.endCheck]; (repeat' split) <;> first | exact hw | simp (maxDischargeDepth := 20) [hw, store_wf]

/-- What the end of a reset's wake tone can do: the first survey's ECHO is sent, or the mark alone is cleared (R126, R127). -/
theorem endResetTone_cases (s : State) :
    (∃ a second, s.chain.hold = some (.survey a second) ∧ s.chain.line = .idle ∧ s.endResetTone = { s with
      chain.resetTone := false
      chain.line := .sending ⟨.echo, a, s.chain.exTag, []⟩
      chain.exTag := cycle 255 s.chain.exTag })
    ∨ s.endResetTone = { s with chain.resetTone := false } := by
  unfold State.endResetTone
  dsimp only
  split
  · rename_i a second hh hl
    exact .inl ⟨a, second, hh, hl, rfl⟩
  · exact .inr rfl

end Sys2Proof.Machine
end

