-- ==== Sys2Proof/Laws/Factors.lean ====
section
/-! SUPPORT. What raising a factor does: the factor is pending, the others stay, ATTN equals its condition, and of the memory
only the factor word is written. -/

namespace Sys2Proof.Machine

/-- A block of the factor word is the factor's alone. -/
theorem word_getLsbD (f g : Factor) : f.word.getLsbD g.bit = decide (f = g) := by
  cases f <;> cases g <;> decide

/-- ATTN is right after it has been judged. -/
theorem judgeAttn_right (s : State) : s.judgeAttn.attnRight := by
  simp only [State.attnRight, State.judgeAttn]; rfl

/-- The factors after they are set. -/
@[simp] theorem setFactors_factors (s : State) (w : BitVec 20) : (s.setFactors w).attn.factors = w := by
  simp only [State.setFactors]; split
  · rename_i h; exact h.symm
  · rfl

/-- Setting the factors keeps ATTN right. -/
theorem setFactors_right {s : State} (h : s.attnRight) (w : BitVec 20) : (s.setFactors w).attnRight := by
  simp only [State.setFactors]; split
  · exact h
  · exact judgeAttn_right _

/-- Setting the factors writes the factor word and no other byte. -/
theorem read_setFactors_of_out {s : State} (hc : s.mem.wf = true) (w : BitVec 20) {a : Nat}
    (ha : a < 0x100 ∨ 0x104 ≤ a) : Memory.read (s.setFactors w).mem a = Memory.read s.mem a := by
  simp only [State.setFactors]; split
  · rfl
  · simp only [State.judgeAttn]; exact read_store_of_out hc (by simpa [le, factorWordAt] using ha)

/-- The factors after a raise. -/
@[simp] theorem raise_factors (s : State) (f : Factor) : (s.raise f).attn.factors = s.attn.factors ||| f.word := by
  simp [State.raise]

/-- A raise makes its factor pending and leaves the others as they were (R184). -/
theorem raise_pending (s : State) (f g : Factor) :
    (s.raise f).attn.pending g = (decide (f = g) || s.attn.pending g) := by
  simp only [Attn.pending, raise_factors, BitVec.getLsbD_or, word_getLsbD, Bool.or_comm]

/-- The raised factor is pending. -/
@[simp] theorem raise_pending_self (s : State) (f : Factor) : (s.raise f).attn.pending f = true := by
  simp [raise_pending]

/-- A raise keeps ATTN right. -/
theorem raise_right {s : State} (h : s.attnRight) (f : Factor) : (s.raise f).attnRight := setFactors_right h _

/-- A raise writes the factor word and no other byte. -/
theorem read_raise_of_out {s : State} (hc : s.mem.wf = true) (f : Factor) {a : Nat} (ha : a < 0x100 ∨ 0x104 ≤ a) :
    Memory.read (s.raise f).mem a = Memory.read s.mem a := read_setFactors_of_out hc _ ha

/-- A raise changes the attention unit and the memory alone. -/
theorem raise_eq (s : State) (f : Factor) :
    s.raise f = { s with attn := (s.raise f).attn, mem := (s.raise f).mem } := by
  simp only [State.raise, State.setFactors, State.judgeAttn]; split <;> rfl

/-- What a note fault does (R174). -/
theorem noteFault_port (s : State) (w : Word) (c : NoteCause) :
    (s.noteFault w c).port = { s.port with
      fault := some ⟨noteKind w, noteArg w, c⟩
      faultCount := bump 65535 s.port.faultCount } := by
  simp [State.noteFault]

/-- A note fault raises NOTE_FAULT (R174). -/
@[simp] theorem noteFault_pending (s : State) (w : Word) (c : NoteCause) :
    (s.noteFault w c).attn.pending .noteFault = true := by
  simp [State.noteFault]

end Sys2Proof.Machine
end

