-- ==== Sys2Proof/WellFormed.lean ====
section
/-! DEFINITION. Which operands a command of each row can have. The meanings are total: an ill-formed command changes
nothing that its rule does not name. -/

namespace Sys2Proof

/-- A module address (R1). -/
def isAddress (a : Nat) : Bool := decide (1 ≤ a ∧ a ≤ 24)

/-- A tag of a chain frame (R1). -/
def isTag (t : Nat) : Bool := decide (1 ≤ t ∧ t ≤ 255)

/-- An index of a host plan (chapter 3). -/
def isPlan (i : Nat) : Bool := decide (i < 8)

/-- An address of the link that REGISTER_WRITE is about: IDENT, SUMMARY, or 0x800C to 0xFFFC (R168, R171); the two
lowest bits of an address are disregarded. -/
def isDisregardedRegister (a : BitVec 16) : Bool :=
  decide (0x8000 ≤ a.toNat ∧ a.toNat / 4 ≠ 0x8004 / 4)

/-- The operands that an event of each row can carry. -/
def WellFormed : Instr → Bool
  | .registerWrite a _ => isDisregardedRegister a
  | .reply _ a t codes _ _ _ => isAddress a && isTag t && decide (codes.length ≤ 20)
  | .echoBack _ a _ k cells sensors _ _ => isAddress a && decide (k < 256 ∧ cells < 256 ∧ sensors < 256)
  | .configReply _ a t _ _ _ => isAddress a && isTag t
  | .blockAck _ a _ _ _ _ => isAddress a
  | .returnProbe a => isAddress a
  | .balancingEnd a => isAddress a
  | .returnLimit a => isAddress a
  | .planDue i => isPlan i
  | .pauseWaitEnd i => isPlan i
  | .checkEnd places bytes => decide (places.length = bytes.length ∧ ∀ p ∈ places, p < 131072)
  | .coilReport c _ also => decide (∀ d ∈ also, d.1 ≠ c)
  | .powerOn _ | .resetLine _ | .hostWordWrite _ _ | .note _ | .wakeLink | .post | .refresh | .clear | .setMask
  | .levels | .tablesPlanTable | .tablesLimitTable | .tablesWakeTable | .tablesModuleMap | .hold | .release
  | .ackEvents | .chunk | .unknownKind | .wakeLine | .wakeChain | .captureSent _ | .pauseSent _ | .frameSent _
  | .sleepBroadcast _ | .balancingStopSent _ | .replyTimeout _ | .characterGap _ | .strayCharacters _
  | .suspectPeriodEnd | .chainLossHold | .autoSurveyTimer | .conversionWaitEnd _ | .wakeToneEnd _
  | .moduleWakeTimeEnd | .sampleLatch _ | .sampleComplete | .partTimeTick _ | .snapshotTimer | .burstCaptureDue
  | .setBuilt | .pageWriteEnd | .inrushEnd | .prechargeTimeout | .mainSettleEnd | .openingSecondStep
  | .weldWindowEnd | .deferralLimit | .hardCurrent | .chainLoss | .silenceWarn | .silence | .eventTake _
  | .snapshotWaitLimit | .deepEntry | .wakeTimer | .wakeCurrent | .wakingSettleEnd | .wakeOutEnd | .writeBegin
  | .writeEnd _ | .startUpReadEnd | .absorptionStart | .absorptionEnd | .chainPauseLimit
  | .switchProbe | .switchWindowEnd | .resetNReleased | .vehicleWakeInputDeasserted | .chainAlertDeasserted => true

end Sys2Proof
end

