-- ==== Sys2Proof/Laws/PerInstr.lean ====
section
/-! SUPPORT. A statement about every command as syntax, one lemma for each row of the command table. -/

namespace Sys2Proof.Laws.AddressesInRange

/-- The module addresses that a command names. -/
def addresses : Instr → List Nat
  | .reply _ a _ _ _ _ _ => [a]
  | .echoBack _ a _ _ _ _ _ _ => [a]
  | .configReply _ a _ _ _ _ => [a]
  | .blockAck _ a _ _ _ _ => [a]
  | .returnProbe a => [a]
  | .balancingEnd a => [a]
  | .returnLimit a => [a]
  | .powerOn _ | .resetLine _ | .hostWordWrite _ _ | .registerWrite _ _ | .note _ | .wakeLink | .post | .refresh
  | .clear | .setMask | .levels | .tablesPlanTable | .tablesLimitTable | .tablesWakeTable | .tablesModuleMap
  | .hold | .release | .ackEvents | .chunk | .unknownKind | .wakeLine | .wakeChain | .captureSent _
  | .pauseSent _ | .frameSent _ | .sleepBroadcast _ | .balancingStopSent _ | .replyTimeout _ | .characterGap _
  | .strayCharacters _ | .suspectPeriodEnd | .chainLossHold | .autoSurveyTimer | .conversionWaitEnd _
  | .wakeToneEnd _ | .moduleWakeTimeEnd | .sampleLatch _ | .sampleComplete | .partTimeTick _ | .snapshotTimer
  | .planDue _ | .pauseWaitEnd _ | .burstCaptureDue | .setBuilt | .pageWriteEnd | .coilReport _ _ _ | .inrushEnd
  | .prechargeTimeout | .mainSettleEnd | .openingSecondStep | .weldWindowEnd | .deferralLimit | .hardCurrent
  | .chainLoss | .silenceWarn | .silence | .eventTake _ | .snapshotWaitLimit | .deepEntry | .wakeTimer
  | .wakeCurrent | .wakingSettleEnd | .wakeOutEnd | .writeBegin | .writeEnd _ | .startUpReadEnd
  | .absorptionStart | .absorptionEnd | .checkEnd _ _ | .chainPauseLimit | .switchProbe | .switchWindowEnd
  | .resetNReleased | .vehicleWakeInputDeasserted | .chainAlertDeasserted => []

/-- The module addresses of a well-formed command lie from 1 to 24 (R1). -/
def Statement (i : Instr) : Prop := WellFormed i = true → ∀ a ∈ addresses i, 1 ≤ a ∧ a ≤ 24

theorem powerOn (cut : CutRead) : Statement (.powerOn cut) := fun _ _ h => nomatch h
theorem resetLine (cut : CutRead) : Statement (.resetLine cut) := fun _ _ h => nomatch h
theorem hostWordWrite (addr : BitVec 15) (word : Word) :
    Statement (.hostWordWrite addr word) := fun _ _ h => nomatch h
theorem registerWrite (addr : BitVec 16) (word : Word) :
    Statement (.registerWrite addr word) := fun _ _ h => nomatch h
theorem note (word : Word) : Statement (.note word) := fun _ _ h => nomatch h
theorem wakeLink : Statement .wakeLink := fun _ _ h => nomatch h
theorem post : Statement .post := fun _ _ h => nomatch h
theorem refresh : Statement .refresh := fun _ _ h => nomatch h
theorem clear : Statement .clear := fun _ _ h => nomatch h
theorem setMask : Statement .setMask := fun _ _ h => nomatch h
theorem levels : Statement .levels := fun _ _ h => nomatch h
theorem tablesPlanTable : Statement .tablesPlanTable := fun _ _ h => nomatch h
theorem tablesLimitTable : Statement .tablesLimitTable := fun _ _ h => nomatch h
theorem tablesWakeTable : Statement .tablesWakeTable := fun _ _ h => nomatch h
theorem tablesModuleMap : Statement .tablesModuleMap := fun _ _ h => nomatch h
theorem hold : Statement .hold := fun _ _ h => nomatch h
theorem release : Statement .release := fun _ _ h => nomatch h
theorem ackEvents : Statement .ackEvents := fun _ _ h => nomatch h
theorem chunk : Statement .chunk := fun _ _ h => nomatch h
theorem unknownKind : Statement .unknownKind := fun _ _ h => nomatch h
theorem wakeLine : Statement .wakeLine := fun _ _ h => nomatch h
theorem wakeChain : Statement .wakeChain := fun _ _ h => nomatch h
theorem captureSent (us : Us) : Statement (.captureSent us) := fun _ _ h => nomatch h
theorem pauseSent (us : Us) : Statement (.pauseSent us) := fun _ _ h => nomatch h
theorem frameSent (us : Us) : Statement (.frameSent us) := fun _ _ h => nomatch h
theorem sleepBroadcast (us : Us) : Statement (.sleepBroadcast us) := fun _ _ h => nomatch h
theorem balancingStopSent (us : Us) : Statement (.balancingStopSent us) := fun _ _ h => nomatch h
theorem reply (arrival : Arrival) (addr tag : Nat) (codes : List Half) (status : ModuleStatus) (version : Half) (err : Option CharError) :
    Statement (.reply arrival addr tag codes status version err) := by
  intro h a ha
  simp only [WellFormed, isAddress, Bool.and_eq_true, decide_eq_true_eq] at h
  simp only [addresses, List.mem_singleton] at ha
  omega
theorem echoBack (us : Us) (addr roundTrip kind cells sensors : Nat) (version : Half) (err : Option CharError) :
    Statement (.echoBack us addr roundTrip kind cells sensors version err) := by
  intro h a ha
  simp only [WellFormed, isAddress, Bool.and_eq_true, decide_eq_true_eq] at h
  simp only [addresses, List.mem_singleton] at ha
  omega
theorem configReply (arrival : Arrival) (addr tag : Nat) (status : ModuleStatus) (version : Half) (err : Option CharError) :
    Statement (.configReply arrival addr tag status version err) := by
  intro h a ha
  simp only [WellFormed, isAddress, Bool.and_eq_true, decide_eq_true_eq] at h
  simp only [addresses, List.mem_singleton] at ha
  omega
theorem blockAck (arrival : Arrival) (addr : Nat) (index : Half) (toggle : Bool) (crc16 : Half) (err : Option CharError) :
    Statement (.blockAck arrival addr index toggle crc16 err) := by
  intro h a ha
  simp only [WellFormed, isAddress, decide_eq_true_eq] at h
  simp only [addresses, List.mem_singleton] at ha
  omega
theorem replyTimeout (us : Us) : Statement (.replyTimeout us) := fun _ _ h => nomatch h
theorem characterGap (us : Us) : Statement (.characterGap us) := fun _ _ h => nomatch h
theorem strayCharacters (us : Us) : Statement (.strayCharacters us) := fun _ _ h => nomatch h
theorem suspectPeriodEnd : Statement .suspectPeriodEnd := fun _ _ h => nomatch h
theorem chainLossHold : Statement .chainLossHold := fun _ _ h => nomatch h
theorem autoSurveyTimer : Statement .autoSurveyTimer := fun _ _ h => nomatch h
theorem conversionWaitEnd (us : Us) : Statement (.conversionWaitEnd us) := fun _ _ h => nomatch h
theorem wakeToneEnd (tone : ToneEnd) : Statement (.wakeToneEnd tone) := fun _ _ h => nomatch h
theorem moduleWakeTimeEnd : Statement .moduleWakeTimeEnd := fun _ _ h => nomatch h
theorem returnProbe (addr : Nat) : Statement (.returnProbe addr) := by
  intro h a ha
  simp only [WellFormed, isAddress, decide_eq_true_eq] at h
  simp only [addresses, List.mem_singleton] at ha
  omega
theorem balancingEnd (addr : Nat) : Statement (.balancingEnd addr) := by
  intro h a ha
  simp only [WellFormed, isAddress, decide_eq_true_eq] at h
  simp only [addresses, List.mem_singleton] at ha
  omega
theorem sampleLatch (readings : Readings) : Statement (.sampleLatch readings) := fun _ _ h => nomatch h
theorem sampleComplete : Statement .sampleComplete := fun _ _ h => nomatch h
theorem partTimeTick (shunt : Nat) : Statement (.partTimeTick shunt) := fun _ _ h => nomatch h
theorem snapshotTimer : Statement .snapshotTimer := fun _ _ h => nomatch h
theorem planDue (index : Nat) : Statement (.planDue index) := fun _ _ h => nomatch h
theorem pauseWaitEnd (index : Nat) : Statement (.pauseWaitEnd index) := fun _ _ h => nomatch h
theorem burstCaptureDue : Statement .burstCaptureDue := fun _ _ h => nomatch h
theorem setBuilt : Statement .setBuilt := fun _ _ h => nomatch h
theorem pageWriteEnd : Statement .pageWriteEnd := fun _ _ h => nomatch h
theorem coilReport (coil : CoilName) (mA : Nat) (also : Option (CoilName × Nat)) :
    Statement (.coilReport coil mA also) := fun _ _ h => nomatch h
theorem inrushEnd : Statement .inrushEnd := fun _ _ h => nomatch h
theorem prechargeTimeout : Statement .prechargeTimeout := fun _ _ h => nomatch h
theorem mainSettleEnd : Statement .mainSettleEnd := fun _ _ h => nomatch h
theorem openingSecondStep : Statement .openingSecondStep := fun _ _ h => nomatch h
theorem weldWindowEnd : Statement .weldWindowEnd := fun _ _ h => nomatch h
theorem deferralLimit : Statement .deferralLimit := fun _ _ h => nomatch h
theorem hardCurrent : Statement .hardCurrent := fun _ _ h => nomatch h
theorem chainLoss : Statement .chainLoss := fun _ _ h => nomatch h
theorem silenceWarn : Statement .silenceWarn := fun _ _ h => nomatch h
theorem silence : Statement .silence := fun _ _ h => nomatch h
theorem eventTake (pick : Nat) : Statement (.eventTake pick) := fun _ _ h => nomatch h
theorem snapshotWaitLimit : Statement .snapshotWaitLimit := fun _ _ h => nomatch h
theorem deepEntry : Statement .deepEntry := fun _ _ h => nomatch h
theorem wakeTimer : Statement .wakeTimer := fun _ _ h => nomatch h
theorem wakeCurrent : Statement .wakeCurrent := fun _ _ h => nomatch h
theorem wakingSettleEnd : Statement .wakingSettleEnd := fun _ _ h => nomatch h
theorem wakeOutEnd : Statement .wakeOutEnd := fun _ _ h => nomatch h
theorem writeBegin : Statement .writeBegin := fun _ _ h => nomatch h
theorem writeEnd (matched : Bool) : Statement (.writeEnd matched) := fun _ _ h => nomatch h
theorem startUpReadEnd : Statement .startUpReadEnd := fun _ _ h => nomatch h
theorem absorptionStart : Statement .absorptionStart := fun _ _ h => nomatch h
theorem absorptionEnd : Statement .absorptionEnd := fun _ _ h => nomatch h
theorem checkEnd (places : List Nat) (bytes : List Byte) : Statement (.checkEnd places bytes) := fun _ _ h => nomatch h
theorem chainPauseLimit : Statement .chainPauseLimit := fun _ _ h => nomatch h
theorem switchProbe : Statement .switchProbe := fun _ _ h => nomatch h
theorem switchWindowEnd : Statement .switchWindowEnd := fun _ _ h => nomatch h
theorem returnLimit (addr : Nat) : Statement (.returnLimit addr) := by
  intro h a ha
  simp only [WellFormed, isAddress, decide_eq_true_eq] at h
  simp only [addresses, List.mem_singleton] at ha
  omega
theorem resetNReleased : Statement .resetNReleased := fun _ _ h => nomatch h
theorem vehicleWakeInputDeasserted : Statement .vehicleWakeInputDeasserted := fun _ _ h => nomatch h
theorem chainAlertDeasserted : Statement .chainAlertDeasserted := fun _ _ h => nomatch h

end Sys2Proof.Laws.AddressesInRange
end

