-- ==== Sys2Proof/Laws/Rest.lean ====
section
/-! SUPPORT. What the end of a step and the reactions within it do where there is nothing for them to do: `finish` on a calm
state, `mirror` on unchanged records, `settle` on a state at rest, on a busy chain, and on a part that is awake. -/

namespace Sys2Proof.Machine

/-! ### Records that have not changed are not rewritten -/

@[simp] theorem mirrorBlock_same (base : Nat) (l : List Byte) (m : Memory) : mirrorBlock base l l m = m := by
  simp [mirrorBlock]

@[simp] theorem mirrorWords_same (base : Nat) (l : List Byte) (m : Memory) : mirrorWords base l l m = m := by
  induction h : l.length using Nat.strong_induction_on generalizing l base m with
  | _ n ih =>
    match l, h with
    | [], _ => simp [mirrorWords]
    | [_], _ => simp [mirrorWords]
    | [_, _], _ => simp [mirrorWords]
    | [_, _, _], _ => simp [mirrorWords]
    | a :: b :: c :: d :: l, h =>
      unfold mirrorWords
      simp only [if_true]
      exact ih l.length (by simp at h; omega) (base + 4) l m rfl

theorem mirrorModules_same (i : Nat) (l : List ModuleEntry) (m : Memory) : mirrorModules i l l m = m := by
  induction l generalizing i m with
  | nil => simp [mirrorModules]
  | cons a l ih => simp [mirrorModules, ih]

theorem mirrorEvents_same (i : Nat) (l : List (Option EventRec)) (m : Memory) : mirrorEvents none i l l m = m := by
  induction l generalizing i m with
  | nil => simp [mirrorEvents]
  | cons a l ih => simp [mirrorEvents, ih]

/-- Where the sequence counter stands, no record has been taken. -/
theorem takenSlotOf_of_next {o n : Recorder} (h : o.next = n.next) : takenSlotOf o n = none := by simp [takenSlotOf, h]

/-- A record just taken is stored whole (R94). -/
theorem mirrorSlot_taken (k : Nat) (o : Option EventRec) (r : EventRec) (m : Memory) :
    mirrorSlot true k o (some r) m = m.store (eventAt k) r.bytes := by cases o <;> simp [mirrorSlot]

/-- The words rewritten lie within the record. -/
theorem mirrorWords_out {base : Nat} {old new : List Byte} {m : Memory} (hw : m.wf = true) {a : Nat}
    (ha : a < base ∨ base + new.length ≤ a) :
    Memory.read (mirrorWords base old new m) a = Memory.read m a := by
  induction base, old, new, m using mirrorWords.induct with
  | case1 base a' b c d old a'' b' c' d' new m ih =>
    unfold mirrorWords
    simp only [List.length_cons] at ha
    rw [ih (by split; exacts [hw, store_wf hw]) (by omega)]
    split
    · rfl
    · exact read_store_of_out hw (by simp; omega)
  | case2 base old new m h => rw [mirrorWords]; exact h

/-- The touched words lie within the record. -/
theorem storeTouched_out {touched : Nat → Bool} {base : Nat} {l : List Byte} {m : Memory} (hw : m.wf = true) {a : Nat}
    (ha : a < base ∨ base + l.length ≤ a) : Memory.read (storeTouched touched base l m) a = Memory.read m a := by
  induction base, l, m using storeTouched.induct (touched := touched) with
  | case1 base m a' b c d l ih =>
    unfold storeTouched
    simp only [List.length_cons] at ha
    rw [ih (by split; exacts [store_wf hw, hw]) (by omega)]
    split
    · exact read_store_of_out hw (by simp; omega)
    · rfl
  | case2 base l m h => rw [storeTouched]; exact h

/-- A changed record is rewritten within itself. -/
theorem mirrorRecord_out {base : Nat} {o n : EventRec} {m : Memory} (hw : m.wf = true) {a : Nat}
    (ha : a < base ∨ base + n.bytes.length ≤ a) : Memory.read (mirrorRecord base o n m) a = Memory.read m a := by
  rw [mirrorRecord, storeTouched_out (mirrorWords_wf hw) ha, mirrorWords_out hw ha]

/-- A power controller whose entry's slip is the same has not begun the entry again. -/
@[simp] theorem resumed_of_entry {o n : Power} (h : o.entry = n.entry) : o.resumed n = false := by
  unfold Power.resumed; rw [h]; cases n.entry <;> simp

@[simp] theorem mirrorPower_same (p : Power) (m : Memory) : mirrorPower p p m = m := by simp [mirrorPower]

/-- The state that the records of the part show. -/
def State.shownAlike (o n : State) : Prop :=
  pointerBytes o.plan = pointerBytes n.plan ∧ countBytes o.plan = countBytes n.plan
    ∧ chainBytes o.chain = chainBytes n.chain ∧ (o.sup.state = n.sup.state ∧ o.sup.once.set = n.sup.once.set
        ∧ contactorBytes o.sup = contactorBytes n.sup)
    ∧ (o.power.resumed n.power = false ∧ powerBytes o.power = powerBytes n.power) ∧ storeBytes o.store = storeBytes n.store
    ∧ updateWord o.upd = updateWord n.upd ∧ (o.upd.state = n.upd.state ∧ updateBytes o.upd = updateBytes n.upd)
    ∧ distArea o.upd.dist = distArea n.upd.dist ∧ o.chain.map = n.chain.map
    ∧ (o.ev.slots = n.ev.slots ∧ o.ev.next = n.ev.next)

/-- Where the shown state is the same, nothing is rewritten. -/
theorem mirror_of_shownAlike {o n : State} (h : o.shownAlike n) : mirror o n = n := by
  obtain ⟨h1, h2, h3, ⟨ha, hb, h4⟩, ⟨he, h5⟩, h6, h7, ⟨hc, h8⟩, h9, h10, ⟨h11, hd⟩⟩ := h
  simp [mirror, mirrorDirectory, mirrorContactor, mirrorUpdate, mirrorPower, ha, hb, hc, he, h1, h2, h3, h4, h5, h6, h7, h8, h9, h10, h11, hd]

/-! ### The slips that blocks record -/

/-- Where neither the slots nor what the blocks record has changed, the slips stay in flight. -/
theorem slipsRight_of_same {s t : State} (h : s.slipsRight) (hl : t.slips = s.slips) (hp : t.port.slots = s.port.slots) :
    t.slipsRight := by
  unfold State.slipsRight State.inFlight at *
  rwa [hl, hp]

/-- The CLOSE that the supervisor records is in flight. -/
theorem slipsRight_close {s : State} {c : Close} (h : s.slipsRight) (hc : s.sup.close = some c) : s.inFlight c.slot :=
  h.2 _ (by simp [State.slips, hc])

/-- The BALANCE that the chain controller records is in flight. -/
theorem slipsRight_balance {s : State} {b : Balance} (h : s.slipsRight) (hb : s.chain.balance = some b) : s.inFlight b.slot :=
  h.2 _ (by simp [State.slips, hb])

/-- The CAPTURE_NOW that a capture records is in flight. -/
theorem slipsRight_capture {s : State} {c : Capture} {k : Nat} (h : s.slipsRight) (hc : c ∈ s.plan.captures)
    (hk : c.slot = some k) : s.inFlight k :=
  h.2 _ (by simp only [State.slips, List.mem_append, List.mem_filterMap]; exact .inl (.inl (.inl (.inl (.inr ⟨c, hc, hk⟩)))))

/-- The check or apply that the update engine records is in flight. -/
theorem slipsRight_upd {s : State} {q : EngineSlip} {k : Nat} (h : s.slipsRight) (hq : s.upd.slip = some (q, k)) : s.inFlight k :=
  h.2 _ (by simp [State.slips, hq])

/-- A slot in which no slip is in flight is none that a block records. -/
theorem slipsRight_free {s : State} {k : Nat} (h : s.slipsRight) (hk : ∀ c, getAt s.port.slots k ≠ some (some c)) : k ∉ s.slips :=
  fun hm => have ⟨c, hc⟩ := (h.2 k hm).2; hk c hc

/-! ### The end of a step on a calm state -/

theorem modifyAt_same {α : Type} (l : List α) (k : Nat) (f : α → α) (h : ∀ x, getAt l k = some x → f x = x) :
    modifyAt l k f = l := by
  induction l generalizing k with
  | nil => cases k <;> rfl
  | cons x l ih =>
    cases k with
    | zero => simp [modifyAt, h x rfl]
    | succ k => simp only [modifyAt]; rw [ih k (fun y hy => h y hy)]

theorem markSurge_calm {n : State} (h : n.calm) : n.markSurge = n := by
  unfold State.markSurge
  split
  · rename_i hs
    simp only [Bool.and_eq_true] at hs
    have h2 := h.2.1 hs.1
    have key : ∀ l : List Nat, (∀ k ∈ l, ∀ r, n.ev.at k = some r → r.surge = true) →
        l.foldl (fun v k => v.change k fun r => { r with surge := true }) n.ev = n.ev := by
      intro l
      induction l with
      | nil => intro _; rfl
      | cons k l ih =>
        intro hl
        have hk : (n.ev.change k fun r => { r with surge := true }) = n.ev := by
          unfold Recorder.change
          rw [modifyAt_same]
          intro x hx
          cases x with
          | none => rfl
          | some r =>
            have hr := hl k (by simp) r (by simp [Recorder.at, hx])
            show some { r with surge := true } = some r
            rw [← hr]
        simp only [List.foldl_cons]
        rw [hk]
        exact ih fun k' hk' => hl k' (by simp [hk'])
    rw [key _ h2]
  · rfl

theorem markCaptureSurge_calm {n : State} (h : n.calm) : n.markCaptureSurge = n := by
  unfold State.markCaptureSurge
  split
  · rename_i hs
    have h3 := h.2.2.1 hs
    unfold State.editHeld
    have : (n.plan.captures.map fun c => if c.holding then { c with surge := c.surge || c.tb.isSome } else c)
        = n.plan.captures := by
      conv_rhs => rw [← List.map_id n.plan.captures]
      apply List.map_congr_left
      intro c hc
      split
      · rename_i hh
        by_cases ht : c.tb.isSome = true
        · have := h3 c hc hh ht
          simp [this]; rw [← this]
        · simp only [Bool.not_eq_true] at ht
          simp [ht]
      · rfl
    rw [this]
  · rfl

theorem trackFaulted_calm {o n : State} (h : n.calm)
    (hf : anyFaulted n.chain.map = true → anyFaulted o.chain.map = true) : State.trackFaulted o n = n := by
  unfold State.trackFaulted
  split
  · rename_i hn; rw [if_pos (hf hn)]
  · rename_i hn
    have : n.sup.faultedSince = none := by
      have h1 := h.1
      simp only [Bool.not_eq_true] at hn
      rw [hn] at h1
      simpa using h1
    show { n with sup.faultedSince := none } = n
    rw [← this]

theorem endSending_calm {n : State} (h : n.calm) : n.endSending = n := by
  have h4 := h.2.2.2
  unfold State.endSending
  have : n.ev.inbox.map (fun e => { e with fresh := false }) = n.ev.inbox := by
    conv_rhs => rw [← List.map_id n.ev.inbox]
    apply List.map_congr_left
    intro e he
    have := h4 e he
    simp only [id]; rw [← this]
  rw [this]

/-- On a calm state with no module newly faulted, the end of a step rewrites the records and does nothing else. -/
theorem finish_calm {o n : State} (h : n.calm)
    (hf : anyFaulted n.chain.map = true → anyFaulted o.chain.map = true) : State.finish o n = mirror o n := by
  unfold State.finish
  rw [trackFaulted_calm h hf, markSurge_calm h, markCaptureSurge_calm h, endSending_calm h]

/-- On a calm state whose shown state has not changed, the end of a step does nothing. -/
theorem finish_same {o n : State} (h : n.calm) (hs : o.shownAlike n) : State.finish o n = n := by
  have hm : o.chain.map = n.chain.map := hs.2.2.2.2.2.2.2.2.2.1
  rw [finish_calm h (by rw [hm]; exact id), mirror_of_shownAlike hs]

/-- A state that shares the map, the supervisor, the recorder and the captures with a calm one is calm. -/
theorem calm_of_same {n s : State} (h : s.calm) (h1 : n.chain.map = s.chain.map) (h2 : n.sup = s.sup)
    (h3 : n.ev = s.ev) (h4 : n.plan.captures = s.plan.captures) : n.calm := by
  unfold State.calm at *; rw [h1, h2, h3, h4]; exact h

/-- A state that shares what the end of a step looks at with a calm one, and in which surge holds only if it did, is
calm. -/
theorem calm_of_less {n s : State} (h : s.calm) (h1 : anyFaulted n.chain.map = anyFaulted s.chain.map)
    (h2 : n.sup.faultedSince = s.sup.faultedSince) (h3 : n.sup.surge = true → s.sup.surge = true) (h4 : n.ev = s.ev)
    (h5 : n.plan.captures = s.plan.captures) : n.calm := by
  unfold State.calm at *; rw [h1, h2, h4, h5]
  exact ⟨h.1, fun hs => h.2.1 (h3 hs), fun hs => h.2.2.1 (h3 hs), h.2.2.2⟩

/-- The end of a step that changed nothing does nothing, on a calm state. -/
theorem finish_self {s : State} (h : s.calm) : State.finish s s = s := finish_same h (by simp [State.shownAlike])

/-! ### Reactions -/

/-- A state that shares what goes on by itself with one that rests, rests. -/
theorem resting_of_same {n s : State} (h : s.resting) (h1 : n.power.entry = s.power.entry)
    (h2 : n.power.patrol = s.power.patrol) (h3 : n.power.returning = s.power.returning)
    (h4 : n.plan.burst = s.plan.burst) (h5 : n.plan.patrolReport = s.plan.patrolReport)
    (h6 : n.upd.pause = s.upd.pause) (h7 : n.upd.state = s.upd.state) (h8 : n.chain.state = s.chain.state) :
    n.resting := by
  unfold State.resting at *; rw [h1, h2, h3, h4, h5, h6, h7, h8]; exact h

/-- A state that shares what waits with one at rest is at rest. -/
theorem restful_of_same {n s : State} (h : s.restful) (h1 : n.power = s.power) (h2 : n.chain = s.chain)
    (h3 : n.plan.burst = s.plan.burst) (h4 : n.plan.patrolReport = s.plan.patrolReport) (h5 : n.upd = s.upd) :
    n.restful :=
  ⟨resting_of_same h.1 (by rw [h1]) (by rw [h1]) (by rw [h1]) h3 h4 (by rw [h5]) (by rw [h5]) (by rw [h2]),
    by rw [h2]; exact h.2⟩

/-- Nothing reacts in a part at rest. -/
theorem settle_restful {s : State} (h : s.restful) : s.settle = s := by
  obtain ⟨⟨hb, hu, hd, he, hp, hr⟩, hq⟩ := h
  have key : s.round = s := by
    have h1 : s.burstReact = s := by simp [State.burstReact, hb]
    have h2 : s.answerRequests = s := by
      unfold State.answerRequests
      rcases hq with hq | ⟨_, hdn, ha⟩
      · simp [hq]
      · simp [hdn, ha]
    have h3 : s.patrolReact = s := by
      unfold State.patrolReact
      cases hpt : s.power.patrol with
      | none => rfl
      | some p =>
        obtain ⟨ha, hc⟩ := hp p hpt
        simp [ha, hc]
    have h4 : s.returnReact = s := by
      unfold State.returnReact
      cases hrt : s.power.returning with
      | none => rfl
      | some r => simp [hr r hrt]
    have h5 : s.updateReact = s := by
      unfold State.updateReact
      rw [hu]
      cases hst : s.upd.state <;> simp_all
    have h6 : s.entryReact = s := by
      unfold State.entryReact
      cases het : s.power.entry with
      | none => rfl
      | some e =>
        have hs := he e het
        simp only
        split <;> first | omega | rfl | (split <;> first | rfl | simp_all)
    have h7 : s.arbiterGrant = s := by
      unfold State.arbiterGrant
      rcases hq with hq | ⟨hh, _, _⟩
      · have hn : s.balanceReact = s := by
          unfold State.balanceReact
          split
          · rfl
          · split <;> simp [hq]
        unfold Chain.grantable
        simp [hn, hq, pickRequest]
      · cases hho : s.chain.hold with
        | none => simp [hho] at hh
        | some x => simp [Chain.free, hho]
    unfold State.round
    rw [h1, h2, h3, h4, h5, h6, h2, h7]
  unfold State.settle
  rw [key, key, key, key]

/-- While the line is not idle nothing is granted: the chain's state, tags and line stay. -/
theorem round_busy {s : State} (h : s.chain.line ≠ .idle) :
    s.round.chain.line = s.chain.line ∧ s.round.chain.state = s.chain.state ∧ s.round.chain.origin = s.chain.origin
      ∧ s.round.chain.capTag = s.chain.capTag ∧ s.round.chain.exTag = s.chain.exTag
      ∧ s.round.chain.surveyTimer = s.chain.surveyTimer := by
  unfold State.round
  generalize hu : (((State.answerRequests s.burstReact).patrolReact.returnReact.updateReact).entryReact).answerRequests = u
  have hl : u.chain.line = s.chain.line := by rw [← hu]; simp
  have hg : u.arbiterGrant = u := by
    unfold State.arbiterGrant Chain.free
    simp [hl, h]
  rw [hg, ← hu]
  simp

/-- While the line is not idle the reactions leave the chain's state, tags and line alone. -/
theorem settle_busy {s : State} (h : s.chain.line ≠ .idle) :
    s.settle.chain.line = s.chain.line ∧ s.settle.chain.state = s.chain.state
      ∧ s.settle.chain.origin = s.chain.origin ∧ s.settle.chain.capTag = s.chain.capTag
      ∧ s.settle.chain.exTag = s.chain.exTag ∧ s.settle.chain.surveyTimer = s.chain.surveyTimer := by
  unfold State.settle
  have a := round_busy h
  have b := round_busy (s := s.round) (by rw [a.1]; exact h)
  have c := round_busy (s := s.round.round) (by rw [b.1, a.1]; exact h)
  have d := round_busy (s := s.round.round.round) (by rw [c.1, b.1, a.1]; exact h)
  simp only [d, c, b, a, and_self]

/-- In a part that is awake the reactions leave the power controller, the converter and the supervisor alone. -/
theorem round_awake {s : State} (h : s.awake) :
    s.round.power = s.power ∧ s.round.conv = s.conv ∧ s.round.sup = s.sup
      ∧ s.round.chain.sleepCmd = s.chain.sleepCmd ∧ s.round.plan.high = s.plan.high
      ∧ s.round.plan.low = s.plan.low ∧ s.round.plan.temp = s.plan.temp
      ∧ s.round.plan.implausible = s.plan.implausible ∧ s.round.plan.fresh = s.plan.fresh
      ∧ s.round.plan.quiet = s.plan.quiet ∧ s.round.ev.filling = s.ev.filling := by
  obtain ⟨he, hp, hr⟩ := h
  unfold State.round
  have h3 : (State.answerRequests s.burstReact).patrolReact = State.answerRequests s.burstReact := by
    simp [State.patrolReact, hp]
  have h4 : (State.answerRequests s.burstReact).returnReact = State.answerRequests s.burstReact := by
    simp [State.returnReact, hr]
  have h6 : (State.answerRequests s.burstReact).updateReact.entryReact
      = (State.answerRequests s.burstReact).updateReact := by
    simp [State.entryReact, he]
  rw [h3, h4, h6]
  simp

/-- In a part that is awake the reactions leave the power controller, the converter and the supervisor alone. -/
theorem settle_awake {s : State} (h : s.awake) :
    s.settle.power = s.power ∧ s.settle.conv = s.conv ∧ s.settle.sup = s.sup
      ∧ s.settle.chain.sleepCmd = s.chain.sleepCmd ∧ s.settle.plan.high = s.plan.high
      ∧ s.settle.plan.low = s.plan.low ∧ s.settle.plan.temp = s.plan.temp
      ∧ s.settle.plan.implausible = s.plan.implausible ∧ s.settle.plan.fresh = s.plan.fresh
      ∧ s.settle.plan.quiet = s.plan.quiet ∧ s.settle.ev.filling = s.ev.filling := by
  have step (u : State) (hu : u.power = s.power) : u.awake := by
    unfold State.awake at *; rw [hu]; exact h
  unfold State.settle
  have a := round_awake h
  have b := round_awake (step s.round a.1)
  have c := round_awake (step s.round.round (by rw [b.1, a.1]))
  have d := round_awake (step s.round.round.round (by rw [c.1, b.1, a.1]))
  simp only [d, c, b, a, and_self]

/-! ### Completions -/

/-- A command without reactions completes with the state that its meaning makes, where the end of the step does nothing. -/
theorem goes_of_done {c : Instr} {s : State} {p : State → Prop} (n : State) (h : exec c s = s.done n)
    (hf : State.finish s n = n) (hp : p n) : Goes c s p :=
  ⟨n, by rw [h, State.done, hf], hp⟩

/-- A command with reactions completes with the state that its meaning makes, where nothing reacts and the end of the step
does nothing. -/
theorem goes_of_react {c : Instr} {s : State} {p : State → Prop} (n : State) (h : exec c s = s.react n)
    (hs : n.settle = n) (hf : State.finish s n = n) (hp : p n) : Goes c s p :=
  ⟨n, by rw [h, State.react, hs, hf], hp⟩

/-- A command without reactions completes with the end of its step. -/
theorem goes_done {c : Instr} {s : State} {p : State → Prop} (n : State) (h : exec c s = s.done n)
    (hp : p (State.finish s n)) : Goes c s p := ⟨_, h, hp⟩

/-- A command with reactions completes with the reactions and the end of its step. -/
theorem goes_react {c : Instr} {s : State} {p : State → Prop} (n : State) (h : exec c s = s.react n)
    (hp : p (State.finish s n.settle)) : Goes c s p := ⟨_, h, hp⟩

/-- A command without reactions completes with its records rewritten, where no module is newly faulted. -/
theorem goes_shown {c : Instr} {s : State} {p : State → Prop} (n : State) (h : exec c s = s.done n) (hc : n.calm)
    (hf : anyFaulted n.chain.map = true → anyFaulted s.chain.map = true)
    (hp : p { n with mem := (mirror s n).mem }) : Goes c s p :=
  ⟨_, by rw [h, State.done, finish_calm hc hf]; rfl, hp⟩

/-- A command with reactions completes with its records rewritten, where nothing reacts and no module is newly faulted. -/
theorem goes_shown_react {c : Instr} {s : State} {p : State → Prop} (n : State) (h : exec c s = s.react n)
    (hr : n.restful) (hc : n.calm) (hf : anyFaulted n.chain.map = true → anyFaulted s.chain.map = true)
    (hp : p { n with mem := (mirror s n).mem }) : Goes c s p :=
  ⟨_, by rw [h, State.react, settle_restful hr, finish_calm hc hf]; rfl, hp⟩

/-- A command without reactions that leaves every shown record as it is. -/
theorem next_done {c : Instr} {s n : State} (h : exec c s = s.done n) (hc : n.calm) (hs : s.shownAlike n) :
    exec c s = .next n := by rw [h, State.done, finish_same hc hs]

/-- A command that leaves every shown record as it is, where nothing reacts. -/
theorem next_react {c : Instr} {s n : State} (h : exec c s = s.react n) (hr : n.restful) (hc : n.calm)
    (hs : s.shownAlike n) : exec c s = .next n := by rw [h, State.react, settle_restful hr, finish_same hc hs]

end Sys2Proof.Machine
end

