-- ==== Sys2Proof/Laws/Specs.lean ====
section
/-! SUPPORT. What the shared operations of the exchange port and of the update engine do, once each: note faults, table status
entries, completions, buffers given back; and where the records lie that the end of a step rewrites. -/

namespace Sys2Proof.Machine

/-! ### Lists -/

@[simp] theorem fit_length (n : Nat) (l : List Byte) : (fit n l).length = n := by
  induction n generalizing l with
  | zero => simp [fit]
  | succ n ih => cases l <;> simp [fit, ih]

@[simp] theorem le_length (n v : Nat) : (le n v).length = n := by
  induction n generalizing v with
  | zero => simp [le]
  | succ n ih => simp [le, ih]

@[simp] theorem les_length (n : Nat) (v : Int) : (les n v).length = n := by simp [les]

theorem getAt_setAt {α : Type} (l : List α) (k j : Nat) (v : α) :
    getAt (setAt l k v) j = if j = k then (getAt l j).map (fun _ => v) else getAt l j := by
  induction l generalizing k j with
  | nil => cases k <;> cases j <;> simp [setAt, getAt]
  | cons x l ih =>
    cases k <;> cases j <;> simp [setAt, getAt]
    · rw [ih]

theorem getAt_modifyAt {α : Type} (l : List α) (k j : Nat) (f : α → α) :
    getAt (modifyAt l k f) j = if j = k then (getAt l j).map f else getAt l j := by
  induction l generalizing k j with
  | nil => cases k <;> cases j <;> simp [modifyAt, getAt]
  | cons x l ih =>
    cases k <;> cases j <;> simp [modifyAt, getAt]
    · rw [ih]

@[simp] theorem setAt_length {α : Type} (l : List α) (k : Nat) (v : α) : (setAt l k v).length = l.length := by
  induction l generalizing k with
  | nil => cases k <;> rfl
  | cons x l ih => cases k <;> simp [setAt, ih]

@[simp] theorem modifyAt_length {α : Type} (l : List α) (k : Nat) (f : α → α) :
    (modifyAt l k f).length = l.length := by
  induction l generalizing k with
  | nil => cases k <;> rfl
  | cons x l ih => cases k <;> simp [modifyAt, ih]

@[simp] theorem modifyAddr_length {α : Type} (l : List α) (k : Nat) (f : α → α) :
    (modifyAddr l k f).length = l.length := by
  unfold modifyAddr; split <;> simp

/-! ### Note faults (R174) -/

theorem noteFaultBytes_length (p : Port) : (noteFaultBytes p).length = 8 := by
  unfold noteFaultBytes; cases p.fault <;> simp

/-- A note fault writes its record and the factor word, and no other byte. -/
theorem read_noteFault_of_out {s : State} (hc : s.mem.wf = true) (w : Word) (c : NoteCause) {a : Nat}
    (h1 : a < 0xB4 ∨ 0xBC ≤ a) (h2 : a < 0x100 ∨ 0x104 ≤ a) :
    Memory.read (s.noteFault w c).mem a = Memory.read s.mem a := by
  simp only [State.noteFault]
  rw [read_raise_of_out (store_wf hc) _ h2]
  exact read_store_of_out hc (by simpa [noteFaultBytes_length] using h1)

/-- A note fault changes the port's fault record, the attention unit and the memory alone. -/
theorem noteFault_eq (s : State) (w : Word) (c : NoteCause) :
    s.noteFault w c = { s with
      port := (s.noteFault w c).port
      attn := (s.noteFault w c).attn
      mem := (s.noteFault w c).mem } := by
  simp only [State.noteFault]; rw [raise_eq]

/-! ### Table status (R182) -/

/-- No more fields are clamped than there are clamps, and where no two clamps concern one field, as many (R182). -/
theorem clampedFields_le (l : List ClampRec) : clampedFields l ≤ l.length := by
  induction l with
  | nil => simp [clampedFields]
  | cons c l ih => simp only [clampedFields, List.length_cons]; split <;> omega

@[inherit_doc clampedFields_le]
theorem clampedFields_of_nodup {l : List ClampRec} (h : (l.map fun c => (c.index, c.field)).Nodup) :
    clampedFields l = l.length := by
  induction l with
  | nil => rfl
  | cons c l ih =>
    rw [List.map_cons, List.nodup_cons] at h
    have hn : (l.any fun d => decide (d.index = c.index ∧ d.field = c.field)) = false := by
      rw [List.any_eq_false]
      intro d hd hc
      simp only [decide_eq_true_eq] at hc
      exact h.1 (List.mem_map.mpr ⟨d, hd, by rw [hc.1, hc.2]⟩)
    simp only [clampedFields, hn, ih h.2, List.length_cons, Bool.false_eq_true, if_false]
    omega

/-- A table status entry written with origin NOTE or RECLAMP: the entry, the last id, TABLE_STATUS pending. -/
theorem tableStatus_entry {s : State} {id : Nat} {old : TableEntry} (h : getAt s.port.tables id = some old)
    (o : Origin) (r : TableOutcome) (c : List ClampRec) :
    getAt (s.tableStatus id o r c).port.tables id
      = some ⟨cycle 65535 old.number, o, r, min (clampedFields c) 255, c.take 4⟩
      ∧ (s.tableStatus id o r c).port.lastTable = id
      ∧ (o ≠ .reset → (s.tableStatus id o r c).attn.pending .tableStatus = true) := by
  simp only [State.tableStatus, h]
  cases o <;> simp [getAt_setAt, h]

/-- A table status entry changes the port, the attention unit and the memory alone. -/
theorem tableStatus_eq (s : State) (id : Nat) (o : Origin) (r : TableOutcome) (c : List ClampRec) :
    s.tableStatus id o r c = { s with
      port := (s.tableStatus id o r c).port
      attn := (s.tableStatus id o r c).attn
      mem := (s.tableStatus id o r c).mem } := by
  simp only [State.tableStatus]
  cases hg : getAt s.port.tables id with
  | none => rfl
  | some old => cases o <;> simp only [] <;> first | rfl | rw [raise_eq]

theorem tableBytes_length (e : TableEntry) : (tableBytes e).length = 11 := by
  simp [tableBytes, clampBytes]

/-- The table status entry, the word of the last table id and the factor word are all that a table status write touches. -/
theorem read_tableStatus_of_out {s : State} (hc : s.mem.wf = true) {id : Nat} (o : Origin)
    (r : TableOutcome) (c : List ClampRec) {a : Nat} (h1 : a < tableAt id ∨ tableAt id + 16 ≤ a)
    (h2 : a < 0xFC ∨ 0x104 ≤ a) :
    Memory.read (s.tableStatus id o r c).mem a = Memory.read s.mem a := by
  simp only [State.tableStatus]
  cases hg : getAt s.port.tables id with
  | none => rfl
  | some old =>
    have key : ∀ x : Byte, Memory.read ((s.mem.store (tableAt id) (le 2 (cycle 65535 old.number)
        ++ tableBytes ⟨cycle 65535 old.number, o, r, min (clampedFields c) 255, c.take 4⟩
        ++ [0, 0, 0])).store 0xFC [x, byte id, 0, 0]) a = Memory.read s.mem a := by
      intro x
      rw [read_store_of_out (store_wf hc) (by simp; omega), read_store_of_out hc]
      simp only [List.length_append, le_length, tableBytes_length]
      simp; omega
    cases o with
    | reset => exact key _
    | note => simp only []; rw [read_raise_of_out (by exact store_wf (store_wf hc)) _ (by omega)]; exact key _
    | reclamp => simp only []; rw [read_raise_of_out (by exact store_wf (store_wf hc)) _ (by omega)]; exact key _

/-! ### Completions (R179) -/

/-- A completion of a slip in flight: the slot is not in flight, SLIP_DONE is pending, and the port's other slots, the
attention unit and the memory are all else that changes. -/
theorem complete_inFlight {s : State} {k : Nat} {c : SlipCopy} (h : getAt s.port.slots k = some (some c)) (r : Result) :
    getAt (s.complete k r).port.slots k = some none ∧ (s.complete k r).attn.pending .slipDone = true
      ∧ (∀ j, j ≠ k → getAt (s.complete k r).port.slots j = getAt s.port.slots j)
      ∧ s.complete k r = { s with
          port.slots := (s.complete k r).port.slots
          attn := (s.complete k r).attn
          mem := (s.complete k r).mem } := by
  simp only [State.complete, h]
  refine ⟨by simp [getAt_setAt, h], by simp, ?_, ?_⟩
  · intro j hj; simp [getAt_setAt, hj]
  · rw [raise_eq]

/-- The bytes of a slot that a completion writes. -/
theorem read_completionWrites {m : Memory} (hc : m.wf = true) {k : Nat} (hk : k ≤ 7) (c : SlipCopy) (r : Result) (a : Nat) :
    Memory.read (completionWrites k c r m) a =
      if slotAt k ≤ a ∧ a < slotAt k + 4 then ((le 4 3)[a - slotAt k]?).getD 0
      else if slotAt k + 4 ≤ a ∧ a < slotAt k + 8 then ((c.kind :: 0 :: le 2 c.tag.toNat)[a - (slotAt k + 4)]?).getD 0
      else if slotAt k + 48 ≤ a ∧ a < slotAt k + 52 then
        (([byte r.code.code, byte (match r.cause with | none => 0 | some x => x.code), 0, 0] : List Byte)[a - (slotAt k + 48)]?).getD 0
      else if slotAt k + 52 ≤ a ∧ a < slotAt k + 64 then ((fit 12 r.fields)[a - (slotAt k + 52)]?).getD 0
      else if slipKindOf c.kind = some .installKey ∧ slotAt k + 8 ≤ a ∧ a < slotAt k + 40 then 0
      else Memory.read m a := by
  have hb : slotAt k + 64 ≤ memSize := by simp [slotAt, memSize]; omega
  generalize hs : slotAt k = b at hb ⊢
  unfold completionWrites
  simp only [hs]
  generalize hm1 : (if slipKindOf c.kind = some .installKey then m.store (b + 8) (fit 32 []) else m) = m1
  have w1 : m1.wf = true := by rw [← hm1]; split; exacts [store_wf hc, hc]
  have r1 : ∀ a, Memory.read m1 a
      = if slipKindOf c.kind = some .installKey ∧ b + 8 ≤ a ∧ a < b + 40 then 0 else Memory.read m a := by
    intro a
    rw [← hm1]
    by_cases hi : slipKindOf c.kind = some .installKey
    · simp only [hi, if_true, true_and]
      rw [read_store hc]
      simp only [fit_length]
      by_cases h1 : b + 8 ≤ a ∧ a < b + 8 + 32
      · have hz : ∀ i : Nat, ((fit 32 ([] : List Byte))[i]?).getD 0 = 0 := by
          intro i
          have : fit 32 ([] : List Byte) = List.replicate 32 0 := by decide
          rw [this, List.getElem?_replicate]; split <;> rfl
        rw [hz, if_pos (show b + 8 ≤ a ∧ a < b + 40 by omega)]
        split <;> rfl
      · rw [if_neg (by omega), if_neg (by omega)]
    · simp [hi]
  rw [read_store (store_wf (store_wf (store_wf w1))), read_store (store_wf (store_wf w1)), read_store (store_wf w1),
    read_store w1, r1]
  simp only [le_length, List.length_cons, List.length_nil, fit_length]
  by_cases h1 : b ≤ a ∧ a < b + 4
  · rw [if_pos (by omega), if_pos h1]
  · rw [if_neg (by omega), if_neg (by omega), if_neg h1]
    by_cases h2 : b + 4 ≤ a ∧ a < b + 8
    · rw [if_pos (by omega), if_pos h2]
    · rw [if_neg (by omega), if_neg (by omega), if_neg h2]
      by_cases h3 : b + 48 ≤ a ∧ a < b + 52
      · rw [if_pos (by omega), if_pos h3]; try rfl
      · rw [if_neg (by omega), if_neg (by omega), if_neg h3]
        by_cases h4 : b + 52 ≤ a ∧ a < b + 64
        · rw [if_pos (by omega), if_pos h4]
        · rw [if_neg (by omega), if_neg (by omega), if_neg h4]

/-! ### Where the rewritten records lie -/

@[simp] theorem powerBytes_length (p : Power) : (powerBytes p).length = 48 := by simp [powerBytes]
@[simp] theorem storeBytes_length (t : Store) : (storeBytes t).length = 32 := by simp [storeBytes]
@[simp] theorem updateBytes_length (u : Update) : (updateBytes u).length = 96 := by simp [updateBytes]
@[simp] theorem updateWord_length (u : Update) : (updateWord u).length = 4 := by simp [updateWord]
@[simp] theorem distArea_length (l : List DistRec) : (distArea l).length = 192 := by simp [distArea]
@[simp] theorem chainBytes_length (c : Chain) : (chainBytes c).length = 4 := by simp [chainBytes]
@[simp] theorem countBytes_length (p : Planner) : (countBytes p).length = 4 := by simp [countBytes]
@[simp] theorem pointerBytes_length (p : Planner) : (pointerBytes p).length = 8 := by
  unfold pointerBytes; split <;> simp
@[simp] theorem contactorBytes_length (p : Sup) : (contactorBytes p).length = 16 := by
  unfold contactorBytes; cases p.deferral <;> simp
@[simp] theorem moduleBytes_length (e : ModuleEntry) : (moduleBytes e).length = 16 := by simp [moduleBytes]
@[simp] theorem surveyBytes_length (e : SurveyEntry) : (surveyBytes e).length = 16 := by simp [surveyBytes]

/-- An event record is 256 bytes (12.4). -/
@[simp] theorem eventBytes_length (r : EventRec) : r.bytes.length = 256 := by
  unfold EventRec.bytes; cases hv : r.values <;> simp

theorem read_mirrorBlock_of_out {m : Memory} (hw : m.wf = true) {base : Nat} {old new : List Byte} {a : Nat}
    (ha : a < base ∨ base + new.length ≤ a) : Memory.read (mirrorBlock base old new m) a = Memory.read m a := by
  unfold mirrorBlock; split
  · rfl
  · exact read_store_of_out hw ha

/-- The module status mirror is all that a changed working map rewrites. -/
theorem read_mirrorModules_of_out {m : Memory} (hw : m.wf = true) {i : Nat} {old new : List ModuleEntry} {a : Nat}
    (ha : a < moduleAt i ∨ moduleAt (i + new.length) ≤ a) :
    Memory.read (mirrorModules i old new m) a = Memory.read m a := by
  induction old generalizing i new m with
  | nil => unfold mirrorModules; rfl
  | cons o old ih =>
    cases new with
    | nil => unfold mirrorModules; rfl
    | cons n new =>
      unfold mirrorModules
      simp only [List.length_cons, moduleAt] at ha
      rw [ih (by split; exacts [hw, store_wf hw]) (by simp only [moduleAt]; omega)]
      split
      · rfl
      · exact read_store_of_out hw (by rw [moduleBytes_length]; simp only [moduleAt]; omega)

/-- A slot of the event area is all that a changed record rewrites. -/
theorem read_mirrorSlot_of_out {m : Memory} (hw : m.wf = true) {whole : Bool} {k : Nat} {o n : Option EventRec} {a : Nat}
    (ha : a < eventAt k ∨ eventAt (k + 1) ≤ a) : Memory.read (mirrorSlot whole k o n m) a = Memory.read m a := by
  have h : a < eventAt k ∨ eventAt k + 256 ≤ a := by
    have e : eventAt (k + 1) = eventAt k + 256 := by simp only [eventAt]; omega
    omega
  have stored (r : EventRec) : Memory.read (m.store (eventAt k) r.bytes) a = Memory.read m a :=
    read_store_of_out hw (by simpa using h)
  unfold mirrorSlot
  split
  · split
    · exact stored _
    · exact mirrorRecord_out hw (by simpa using h)
  · exact stored _
  · exact read_store_of_out hw (by simp; omega)

/-- The event area is all that changed records rewrite. -/
theorem read_mirrorEvents_of_out {m : Memory} (hw : m.wf = true) {taken : Option Nat} {i : Nat} {old new : List (Option EventRec)} {a : Nat}
    (ha : a < eventAt i ∨ eventAt (i + new.length) ≤ a) :
    Memory.read (mirrorEvents taken i old new m) a = Memory.read m a := by
  induction old generalizing i new m with
  | nil => unfold mirrorEvents; rfl
  | cons o old ih =>
    cases new with
    | nil => unfold mirrorEvents; rfl
    | cons n new =>
      unfold mirrorEvents
      simp only [List.length_cons] at ha
      have e1 : eventAt (i + 1) = eventAt i + 256 := by simp only [eventAt]; omega
      have e2 : eventAt (i + 1 + new.length) = eventAt (i + (new.length + 1)) := by congr 1; omega
      have e3 : eventAt (i + 1) ≤ eventAt (i + (new.length + 1)) := by simp only [eventAt]; omega
      rw [ih (by split; exacts [hw, mirrorSlot_wf hw]) (by omega)]
      split
      · rfl
      · exact read_mirrorSlot_of_out hw (by omega)

/-! ### What the end of a step rewrites -/

/-- The contactor record is all that `mirrorContactor` rewrites; its last two words only with the whole record. -/
theorem read_mirrorContactor_of_out {o n : Sup} {m : Memory} (hw : m.wf = true) {a : Nat}
    (h : contactorBytes o = contactorBytes n ∨ a < 0x14 ∨ 0x24 ≤ a)
    (h' : (o.state = n.state ∧ o.once.set = n.once.set) ∨ (a < 0x14 ∨ 0x24 ≤ a) ∧ (a < 0x28 ∨ 0x30 ≤ a)) :
    Memory.read (mirrorContactor o n m) a = Memory.read m a := by
  unfold mirrorContactor
  split
  · rcases h with h | h
    · rw [h, mirrorWords_same]
    · exact mirrorWords_out hw (by simpa using h)
  · rcases h' with h' | h'
    · contradiction
    · rw [read_store_of_out (store_wf hw) (by simpa using h'.2), read_store_of_out hw (by simpa using h'.1)]

/-- The power record is all that `mirrorPower` rewrites. -/
theorem read_mirrorPower_of_out {o n : Power} {m : Memory} (hw : m.wf = true) {a : Nat}
    (h : o.resumed n = false ∧ powerBytes o = powerBytes n ∨ a < 0x60 ∨ 0x90 ≤ a) :
    Memory.read (mirrorPower o n m) a = Memory.read m a := by
  unfold mirrorPower
  rcases h with ⟨h, hb⟩ | h
  · simp [h, hb]
  · split
    · exact read_store_of_out hw (by simpa using h)
    · exact read_mirrorBlock_of_out hw (by simpa using h)

/-- The update status and the distribution records are all that `mirrorUpdate` rewrites. -/
theorem read_mirrorUpdate_of_out {o n : Update} {m : Memory} (hw : m.wf = true) {a : Nat}
    (h : updateBytes o = updateBytes n ∨ a < 0x4820 ∨ 0x4880 ≤ a)
    (h' : distArea o.dist = distArea n.dist ∨ a < 0x4880 ∨ 0x4940 ≤ a)
    (hs : o.state = n.state ∨ a < 0x4820 ∨ 0x4940 ≤ a) :
    Memory.read (mirrorUpdate o n m) a = Memory.read m a := by
  unfold mirrorUpdate
  split
  · have words {base : Nat} {old new : List Byte} {m : Memory} (hm : m.wf = true)
        (h : old = new ∨ a < base ∨ base + new.length ≤ a) :
        Memory.read (mirrorWords base old new m) a = Memory.read m a := by
      rcases h with h | h
      · rw [h, mirrorWords_same]
      · exact mirrorWords_out hm h
    rw [words (by simp [hw]) (by simpa using h), words hw (by simpa using h')]
  · rcases hs with hs | hs
    · contradiction
    · rw [read_store_of_out (store_wf hw) (by simp; omega), read_store_of_out hw (by simp; omega)]

/-- A byte outside the records whose state differs reads as before. -/
theorem read_mirror {o n : State} (hw : n.mem.wf = true) {a : Nat}
    (h1 : pointerBytes o.plan = pointerBytes n.plan ∨ a < 0x04 ∨ 0x0C ≤ a)
    (h2 : countBytes o.plan = countBytes n.plan ∨ a < 0x0C ∨ 0x10 ≤ a)
    (h3 : chainBytes o.chain = chainBytes n.chain ∨ a < 0x10 ∨ 0x14 ≤ a)
    (h4 : contactorBytes o.sup = contactorBytes n.sup ∨ a < 0x14 ∨ 0x24 ≤ a)
    (h4' : (o.sup.state = n.sup.state ∧ o.sup.once.set = n.sup.once.set)
      ∨ (a < 0x14 ∨ 0x24 ≤ a) ∧ (a < 0x28 ∨ 0x30 ≤ a))
    (h5 : o.power.resumed n.power = false ∧ powerBytes o.power = powerBytes n.power ∨ a < 0x60 ∨ 0x90 ≤ a)
    (h6 : storeBytes o.store = storeBytes n.store ∨ a < 0x90 ∨ 0xB0 ≤ a)
    (h7 : updateWord o.upd = updateWord n.upd ∨ a < 0xB0 ∨ 0xB4 ≤ a)
    (h8 : o.chain.map = n.chain.map ∨ a < 0x1200 ∨ moduleAt n.chain.map.length ≤ a)
    (h9 : o.ev.slots = n.ev.slots ∧ o.ev.next = n.ev.next ∨ a < 0x1800 ∨ eventAt n.ev.slots.length ≤ a)
    (h10 : updateBytes o.upd = updateBytes n.upd ∨ a < 0x4820 ∨ 0x4880 ≤ a)
    (h11 : distArea o.upd.dist = distArea n.upd.dist ∨ a < 0x4880 ∨ 0x4940 ≤ a)
    (h12 : o.upd.state = n.upd.state ∨ a < 0x4820 ∨ 0x4940 ≤ a) :
    Memory.read (mirror o n).mem a = Memory.read n.mem a := by
  have words {base : Nat} {old new : List Byte} {m : Memory} (hm : m.wf = true)
      (h : old = new ∨ a < base ∨ base + new.length ≤ a) :
      Memory.read (mirrorWords base old new m) a = Memory.read m a := by
    rcases h with h | h
    · rw [h, mirrorWords_same]
    · exact mirrorWords_out hm h
  have block {base : Nat} {old new : List Byte} {m : Memory} (hm : m.wf = true)
      (h : old = new ∨ a < base ∨ base + new.length ≤ a) :
      Memory.read (mirrorBlock base old new m) a = Memory.read m a := by
    rcases h with h | h
    · rw [h, mirrorBlock_same]
    · exact read_mirrorBlock_of_out hm h
  -- a record that is left alone where its block has not changed
  have kept {c : Prop} [Decidable c] {m m' : Memory} {x : Byte} (hm : Memory.read m a = x)
      (h : Memory.read m' a = Memory.read m a) : Memory.read (if c then m else m') a = x := by
    split
    · exact hm
    · rw [h, hm]
  have dir : Memory.read (mirrorDirectory o n n.mem) a = Memory.read n.mem a := by
    unfold mirrorDirectory
    simp only
    rw [words (by (repeat' split) <;> simp (maxDischargeDepth := 20) [hw]) (by simpa using h7)]
    refine kept (kept (kept ?_ ?_) ?_) ?_
    · rw [words (by simp (maxDischargeDepth := 20) [hw]) (by simpa using h3),
        words (by simp (maxDischargeDepth := 20) [hw]) (by simpa using h2), block hw (by simpa using h1)]
    · exact read_mirrorContactor_of_out (by simp (maxDischargeDepth := 20) [hw]) h4 h4'
    · exact read_mirrorPower_of_out (by (repeat' split) <;> simp (maxDischargeDepth := 20) [hw]) h5
    · exact block (by (repeat' split) <;> simp (maxDischargeDepth := 20) [hw]) (by simpa using h6)
  have hd : (mirrorDirectory o n n.mem).wf = true := mirrorDirectory_wf hw
  have maps : Memory.read (if o.chain.map = n.chain.map then mirrorDirectory o n n.mem
      else mirrorModules 0 o.chain.map n.chain.map (mirrorDirectory o n n.mem)) a = Memory.read n.mem a := by
    split
    · exact dir
    · rcases h8 with h | h
      · contradiction
      · rw [read_mirrorModules_of_out hd (by simpa [moduleAt] using h)]; exact dir
  unfold mirror
  simp only
  generalize hmm : (if o.chain.map = n.chain.map then mirrorDirectory o n n.mem
      else mirrorModules 0 o.chain.map n.chain.map (mirrorDirectory o n n.mem)) = m1 at maps ⊢
  have hm1 : m1.wf = true := by rw [← hmm]; split <;> simp [hd]
  have evs : Memory.read (if o.ev.slots = n.ev.slots ∧ o.ev.next = n.ev.next then m1
      else mirrorEvents (takenSlotOf o.ev n.ev) 0 o.ev.slots n.ev.slots m1) a = Memory.read n.mem a := by
    split
    · exact maps
    · rcases h9 with h | h
      · contradiction
      · rw [read_mirrorEvents_of_out hm1 (by simpa [eventAt] using h)]; exact maps
  generalize hme : (if o.ev.slots = n.ev.slots ∧ o.ev.next = n.ev.next then m1
      else mirrorEvents (takenSlotOf o.ev n.ev) 0 o.ev.slots n.ev.slots m1) = m2 at evs ⊢
  have hm2 : m2.wf = true := by rw [← hme]; split <;> simp [hm1]
  exact kept evs (read_mirrorUpdate_of_out hm2 h10 h11 h12)

end Sys2Proof.Machine
end

