-- ==== Sys2Proof/Laws/State.lean ====
section
/-! SUPPORT. What the named updates of State leave in each of its fields, one lemma for each, true by unfolding the update once. -/

namespace Sys2Proof.Machine

variable (s : State)

/-! ### `State.put`

The part stores bytes of its own: only the memory changes. -/

@[simp] theorem State.put_mem (base : Nat) (bs : List Byte) : (s.put base bs).mem = s.mem.store base bs := rfl
@[simp] theorem State.put_pins (base : Nat) (bs : List Byte) : (s.put base bs).pins = s.pins := rfl
@[simp] theorem State.put_port (base : Nat) (bs : List Byte) : (s.put base bs).port = s.port := rfl
@[simp] theorem State.put_attn (base : Nat) (bs : List Byte) : (s.put base bs).attn = s.attn := rfl
@[simp] theorem State.put_chain (base : Nat) (bs : List Byte) : (s.put base bs).chain = s.chain := rfl
@[simp] theorem State.put_conv (base : Nat) (bs : List Byte) : (s.put base bs).conv = s.conv := rfl
@[simp] theorem State.put_plan (base : Nat) (bs : List Byte) : (s.put base bs).plan = s.plan := rfl
@[simp] theorem State.put_sup (base : Nat) (bs : List Byte) : (s.put base bs).sup = s.sup := rfl
@[simp] theorem State.put_ev (base : Nat) (bs : List Byte) : (s.put base bs).ev = s.ev := rfl
@[simp] theorem State.put_power (base : Nat) (bs : List Byte) : (s.put base bs).power = s.power := rfl
@[simp] theorem State.put_store (base : Nat) (bs : List Byte) : (s.put base bs).store = s.store := rfl
@[simp] theorem State.put_upd (base : Nat) (bs : List Byte) : (s.put base bs).upd = s.upd := rfl
@[simp] theorem State.put_free (base : Nat) (bs : List Byte) : (s.put base bs).free = s.free := rfl
@[simp] theorem State.put_pending (base : Nat) (bs : List Byte) : (s.put base bs).pending = s.pending := rfl

/-! ### `State.judgeAttn`

ATTN is judged (R188): only the attention unit changes. -/

@[simp] theorem State.judgeAttn_mem : (s.judgeAttn).mem = s.mem := rfl
@[simp] theorem State.judgeAttn_pins : (s.judgeAttn).pins = s.pins := rfl
@[simp] theorem State.judgeAttn_port : (s.judgeAttn).port = s.port := rfl
@[simp] theorem State.judgeAttn_attn :
    (s.judgeAttn).attn =
      { s.attn with line := attnCondition s.power.state s.attn } := rfl
@[simp] theorem State.judgeAttn_chain : (s.judgeAttn).chain = s.chain := rfl
@[simp] theorem State.judgeAttn_conv : (s.judgeAttn).conv = s.conv := rfl
@[simp] theorem State.judgeAttn_plan : (s.judgeAttn).plan = s.plan := rfl
@[simp] theorem State.judgeAttn_sup : (s.judgeAttn).sup = s.sup := rfl
@[simp] theorem State.judgeAttn_ev : (s.judgeAttn).ev = s.ev := rfl
@[simp] theorem State.judgeAttn_power : (s.judgeAttn).power = s.power := rfl
@[simp] theorem State.judgeAttn_store : (s.judgeAttn).store = s.store := rfl
@[simp] theorem State.judgeAttn_upd : (s.judgeAttn).upd = s.upd := rfl
@[simp] theorem State.judgeAttn_free : (s.judgeAttn).free = s.free := rfl
@[simp] theorem State.judgeAttn_pending : (s.judgeAttn).pending = s.pending := rfl

/-! ### `State.setMaskLevel`

The mask level is set (R187). -/

@[simp] theorem State.setMaskLevel_mem (l : Nat) : (s.setMaskLevel l).mem = s.mem := rfl
@[simp] theorem State.setMaskLevel_pins (l : Nat) : (s.setMaskLevel l).pins = s.pins := rfl
@[simp] theorem State.setMaskLevel_port (l : Nat) : (s.setMaskLevel l).port = s.port := rfl
@[simp] theorem State.setMaskLevel_attn (l : Nat) :
    (s.setMaskLevel l).attn =
      { s.attn with mask := l, line := attnCondition s.power.state { s.attn with mask := l } } := rfl
@[simp] theorem State.setMaskLevel_chain (l : Nat) : (s.setMaskLevel l).chain = s.chain := rfl
@[simp] theorem State.setMaskLevel_conv (l : Nat) : (s.setMaskLevel l).conv = s.conv := rfl
@[simp] theorem State.setMaskLevel_plan (l : Nat) : (s.setMaskLevel l).plan = s.plan := rfl
@[simp] theorem State.setMaskLevel_sup (l : Nat) : (s.setMaskLevel l).sup = s.sup := rfl
@[simp] theorem State.setMaskLevel_ev (l : Nat) : (s.setMaskLevel l).ev = s.ev := rfl
@[simp] theorem State.setMaskLevel_power (l : Nat) : (s.setMaskLevel l).power = s.power := rfl
@[simp] theorem State.setMaskLevel_store (l : Nat) : (s.setMaskLevel l).store = s.store := rfl
@[simp] theorem State.setMaskLevel_upd (l : Nat) : (s.setMaskLevel l).upd = s.upd := rfl
@[simp] theorem State.setMaskLevel_free (l : Nat) : (s.setMaskLevel l).free = s.free := rfl
@[simp] theorem State.setMaskLevel_pending (l : Nat) : (s.setMaskLevel l).pending = s.pending := rfl

/-! ### `State.beginExchange`

A frame with an exchange tag begins to be sent (R4): only the chain changes. -/

@[simp] theorem State.beginExchange_mem (kind : FrameKind) (addr : Nat) (payload : List Byte) :
    (s.beginExchange kind addr payload).mem =
      s.mem := rfl
@[simp] theorem State.beginExchange_pins (kind : FrameKind) (addr : Nat) (payload : List Byte) :
    (s.beginExchange kind addr payload).pins =
      s.pins := rfl
@[simp] theorem State.beginExchange_port (kind : FrameKind) (addr : Nat) (payload : List Byte) :
    (s.beginExchange kind addr payload).port =
      s.port := rfl
@[simp] theorem State.beginExchange_attn (kind : FrameKind) (addr : Nat) (payload : List Byte) :
    (s.beginExchange kind addr payload).attn =
      s.attn := rfl
@[simp] theorem State.beginExchange_chain (kind : FrameKind) (addr : Nat) (payload : List Byte) :
    (s.beginExchange kind addr payload).chain =
      { s.chain with line := .sending ⟨kind, addr, s.chain.exTag, payload⟩, exTag := cycle 255 s.chain.exTag } := rfl
@[simp] theorem State.beginExchange_conv (kind : FrameKind) (addr : Nat) (payload : List Byte) :
    (s.beginExchange kind addr payload).conv =
      s.conv := rfl
@[simp] theorem State.beginExchange_plan (kind : FrameKind) (addr : Nat) (payload : List Byte) :
    (s.beginExchange kind addr payload).plan =
      s.plan := rfl
@[simp] theorem State.beginExchange_sup (kind : FrameKind) (addr : Nat) (payload : List Byte) :
    (s.beginExchange kind addr payload).sup =
      s.sup := rfl
@[simp] theorem State.beginExchange_ev (kind : FrameKind) (addr : Nat) (payload : List Byte) :
    (s.beginExchange kind addr payload).ev =
      s.ev := rfl
@[simp] theorem State.beginExchange_power (kind : FrameKind) (addr : Nat) (payload : List Byte) :
    (s.beginExchange kind addr payload).power =
      s.power := rfl
@[simp] theorem State.beginExchange_store (kind : FrameKind) (addr : Nat) (payload : List Byte) :
    (s.beginExchange kind addr payload).store =
      s.store := rfl
@[simp] theorem State.beginExchange_upd (kind : FrameKind) (addr : Nat) (payload : List Byte) :
    (s.beginExchange kind addr payload).upd =
      s.upd := rfl
@[simp] theorem State.beginExchange_free (kind : FrameKind) (addr : Nat) (payload : List Byte) :
    (s.beginExchange kind addr payload).free =
      s.free := rfl
@[simp] theorem State.beginExchange_pending (kind : FrameKind) (addr : Nat) (payload : List Byte) :
    (s.beginExchange kind addr payload).pending =
      s.pending := rfl

/-! ### `State.beginCapture`

A CAPTURE begins to be sent (R4). -/

@[simp] theorem State.beginCapture_mem : (s.beginCapture).mem = s.mem := rfl
@[simp] theorem State.beginCapture_pins : (s.beginCapture).pins = s.pins := rfl
@[simp] theorem State.beginCapture_port : (s.beginCapture).port = s.port := rfl
@[simp] theorem State.beginCapture_attn : (s.beginCapture).attn = s.attn := rfl
@[simp] theorem State.beginCapture_chain :
    (s.beginCapture).chain =
      { s.chain with line := .sending ⟨.capture, broadcast, s.chain.capTag, []⟩, capTag := cycle 255 s.chain.capTag } := rfl
@[simp] theorem State.beginCapture_conv : (s.beginCapture).conv = s.conv := rfl
@[simp] theorem State.beginCapture_plan : (s.beginCapture).plan = s.plan := rfl
@[simp] theorem State.beginCapture_sup : (s.beginCapture).sup = s.sup := rfl
@[simp] theorem State.beginCapture_ev : (s.beginCapture).ev = s.ev := rfl
@[simp] theorem State.beginCapture_power : (s.beginCapture).power = s.power := rfl
@[simp] theorem State.beginCapture_store : (s.beginCapture).store = s.store := rfl
@[simp] theorem State.beginCapture_upd : (s.beginCapture).upd = s.upd := rfl
@[simp] theorem State.beginCapture_free : (s.beginCapture).free = s.free := rfl
@[simp] theorem State.beginCapture_pending : (s.beginCapture).pending = s.pending := rfl

/-! ### `State.beginRead`

A READ begins to be sent (R4). -/

@[simp] theorem State.beginRead_mem (addr tag : Nat) : (s.beginRead addr tag).mem = s.mem := rfl
@[simp] theorem State.beginRead_pins (addr tag : Nat) : (s.beginRead addr tag).pins = s.pins := rfl
@[simp] theorem State.beginRead_port (addr tag : Nat) : (s.beginRead addr tag).port = s.port := rfl
@[simp] theorem State.beginRead_attn (addr tag : Nat) : (s.beginRead addr tag).attn = s.attn := rfl
@[simp] theorem State.beginRead_chain (addr tag : Nat) :
    (s.beginRead addr tag).chain =
      { s.chain with line := .sending ⟨.read, addr, tag, []⟩ } := rfl
@[simp] theorem State.beginRead_conv (addr tag : Nat) : (s.beginRead addr tag).conv = s.conv := rfl
@[simp] theorem State.beginRead_plan (addr tag : Nat) : (s.beginRead addr tag).plan = s.plan := rfl
@[simp] theorem State.beginRead_sup (addr tag : Nat) : (s.beginRead addr tag).sup = s.sup := rfl
@[simp] theorem State.beginRead_ev (addr tag : Nat) : (s.beginRead addr tag).ev = s.ev := rfl
@[simp] theorem State.beginRead_power (addr tag : Nat) : (s.beginRead addr tag).power = s.power := rfl
@[simp] theorem State.beginRead_store (addr tag : Nat) : (s.beginRead addr tag).store = s.store := rfl
@[simp] theorem State.beginRead_upd (addr tag : Nat) : (s.beginRead addr tag).upd = s.upd := rfl
@[simp] theorem State.beginRead_free (addr tag : Nat) : (s.beginRead addr tag).free = s.free := rfl
@[simp] theorem State.beginRead_pending (addr tag : Nat) : (s.beginRead addr tag).pending = s.pending := rfl

/-! ### `State.sendAtOnce`

SLEEP or WAKE has been sent (R1, R9). -/

@[simp] theorem State.sendAtOnce_mem (kind : FrameKind) : (s.sendAtOnce kind).mem = s.mem := rfl
@[simp] theorem State.sendAtOnce_pins (kind : FrameKind) : (s.sendAtOnce kind).pins = s.pins := rfl
@[simp] theorem State.sendAtOnce_port (kind : FrameKind) : (s.sendAtOnce kind).port = s.port := rfl
@[simp] theorem State.sendAtOnce_attn (kind : FrameKind) : (s.sendAtOnce kind).attn = s.attn := rfl
@[simp] theorem State.sendAtOnce_chain (kind : FrameKind) :
    (s.sendAtOnce kind).chain =
      { s.chain with lastSent := some (⟨kind, broadcast, s.chain.exTag, []⟩, s.conv.us), exTag := cycle 255 s.chain.exTag } := rfl
@[simp] theorem State.sendAtOnce_conv (kind : FrameKind) : (s.sendAtOnce kind).conv = s.conv := rfl
@[simp] theorem State.sendAtOnce_plan (kind : FrameKind) : (s.sendAtOnce kind).plan = s.plan := rfl
@[simp] theorem State.sendAtOnce_sup (kind : FrameKind) : (s.sendAtOnce kind).sup = s.sup := rfl
@[simp] theorem State.sendAtOnce_ev (kind : FrameKind) : (s.sendAtOnce kind).ev = s.ev := rfl
@[simp] theorem State.sendAtOnce_power (kind : FrameKind) : (s.sendAtOnce kind).power = s.power := rfl
@[simp] theorem State.sendAtOnce_store (kind : FrameKind) : (s.sendAtOnce kind).store = s.store := rfl
@[simp] theorem State.sendAtOnce_upd (kind : FrameKind) : (s.sendAtOnce kind).upd = s.upd := rfl
@[simp] theorem State.sendAtOnce_free (kind : FrameKind) : (s.sendAtOnce kind).free = s.free := rfl
@[simp] theorem State.sendAtOnce_pending (kind : FrameKind) : (s.sendAtOnce kind).pending = s.pending := rfl

/-! ### `State.sentFrame`

A frame has left. -/

@[simp] theorem State.sentFrame_mem (f : Frame) : (s.sentFrame f).mem = s.mem := rfl
@[simp] theorem State.sentFrame_pins (f : Frame) : (s.sentFrame f).pins = s.pins := rfl
@[simp] theorem State.sentFrame_port (f : Frame) : (s.sentFrame f).port = s.port := rfl
@[simp] theorem State.sentFrame_attn (f : Frame) : (s.sentFrame f).attn = s.attn := rfl
@[simp] theorem State.sentFrame_chain (f : Frame) :
    (s.sentFrame f).chain =
      { s.chain with lastSent := some (f, s.conv.us) } := rfl
@[simp] theorem State.sentFrame_conv (f : Frame) : (s.sentFrame f).conv = s.conv := rfl
@[simp] theorem State.sentFrame_plan (f : Frame) : (s.sentFrame f).plan = s.plan := rfl
@[simp] theorem State.sentFrame_sup (f : Frame) : (s.sentFrame f).sup = s.sup := rfl
@[simp] theorem State.sentFrame_ev (f : Frame) : (s.sentFrame f).ev = s.ev := rfl
@[simp] theorem State.sentFrame_power (f : Frame) : (s.sentFrame f).power = s.power := rfl
@[simp] theorem State.sentFrame_store (f : Frame) : (s.sentFrame f).store = s.store := rfl
@[simp] theorem State.sentFrame_upd (f : Frame) : (s.sentFrame f).upd = s.upd := rfl
@[simp] theorem State.sentFrame_free (f : Frame) : (s.sentFrame f).free = s.free := rfl
@[simp] theorem State.sentFrame_pending (f : Frame) : (s.sentFrame f).pending = s.pending := rfl

/-! ### `State.endExchange`

The hold ends. -/

@[simp] theorem State.endExchange_mem : (s.endExchange).mem = s.mem := rfl
@[simp] theorem State.endExchange_pins : (s.endExchange).pins = s.pins := rfl
@[simp] theorem State.endExchange_port : (s.endExchange).port = s.port := rfl
@[simp] theorem State.endExchange_attn : (s.endExchange).attn = s.attn := rfl
@[simp] theorem State.endExchange_chain : (s.endExchange).chain = { s.chain with hold := none, line := .idle } := rfl
@[simp] theorem State.endExchange_conv : (s.endExchange).conv = s.conv := rfl
@[simp] theorem State.endExchange_plan : (s.endExchange).plan = s.plan := rfl
@[simp] theorem State.endExchange_sup : (s.endExchange).sup = s.sup := rfl
@[simp] theorem State.endExchange_ev : (s.endExchange).ev = s.ev := rfl
@[simp] theorem State.endExchange_power : (s.endExchange).power = s.power := rfl
@[simp] theorem State.endExchange_store : (s.endExchange).store = s.store := rfl
@[simp] theorem State.endExchange_upd : (s.endExchange).upd = s.upd := rfl
@[simp] theorem State.endExchange_free : (s.endExchange).free = s.free := rfl
@[simp] theorem State.endExchange_pending : (s.endExchange).pending = s.pending := rfl

/-! ### `State.enterUp`

The chain enters UP (R5). -/

@[simp] theorem State.enterUp_mem : (s.enterUp).mem = s.mem := rfl
@[simp] theorem State.enterUp_pins : (s.enterUp).pins = s.pins := rfl
@[simp] theorem State.enterUp_port : (s.enterUp).port = s.port := rfl
@[simp] theorem State.enterUp_attn : (s.enterUp).attn = s.attn := rfl
@[simp] theorem State.enterUp_chain : (s.enterUp).chain = { s.chain with state := .up, errs := [] } := rfl
@[simp] theorem State.enterUp_conv : (s.enterUp).conv = s.conv := rfl
@[simp] theorem State.enterUp_plan : (s.enterUp).plan = s.plan := rfl
@[simp] theorem State.enterUp_sup : (s.enterUp).sup = s.sup := rfl
@[simp] theorem State.enterUp_ev : (s.enterUp).ev = s.ev := rfl
@[simp] theorem State.enterUp_power : (s.enterUp).power = s.power := rfl
@[simp] theorem State.enterUp_store : (s.enterUp).store = s.store := rfl
@[simp] theorem State.enterUp_upd : (s.enterUp).upd = s.upd := rfl
@[simp] theorem State.enterUp_free : (s.enterUp).free = s.free := rfl
@[simp] theorem State.enterUp_pending : (s.enterUp).pending = s.pending := rfl

/-! ### `State.wakeChain`

The wake tone begins (R9). -/

@[simp] theorem State.wakeChain_mem : (s.wakeChain).mem = s.mem := rfl
@[simp] theorem State.wakeChain_pins : (s.wakeChain).pins = s.pins := rfl
@[simp] theorem State.wakeChain_port : (s.wakeChain).port = s.port := rfl
@[simp] theorem State.wakeChain_attn : (s.wakeChain).attn = s.attn := rfl
@[simp] theorem State.wakeChain_chain : (s.wakeChain).chain = { s.chain with wake := .tone s.now } := rfl
@[simp] theorem State.wakeChain_conv : (s.wakeChain).conv = s.conv := rfl
@[simp] theorem State.wakeChain_plan : (s.wakeChain).plan = s.plan := rfl
@[simp] theorem State.wakeChain_sup : (s.wakeChain).sup = s.sup := rfl
@[simp] theorem State.wakeChain_ev : (s.wakeChain).ev = s.ev := rfl
@[simp] theorem State.wakeChain_power : (s.wakeChain).power = s.power := rfl
@[simp] theorem State.wakeChain_store : (s.wakeChain).store = s.store := rfl
@[simp] theorem State.wakeChain_upd : (s.wakeChain).upd = s.upd := rfl
@[simp] theorem State.wakeChain_free : (s.wakeChain).free = s.free := rfl
@[simp] theorem State.wakeChain_pending : (s.wakeChain).pending = s.pending := rfl

/-! ### `State.dropRequest`

A request is withdrawn (R21). -/

@[simp] theorem State.dropRequest_mem (r : Req) : (s.dropRequest r).mem = s.mem := rfl
@[simp] theorem State.dropRequest_pins (r : Req) : (s.dropRequest r).pins = s.pins := rfl
@[simp] theorem State.dropRequest_port (r : Req) : (s.dropRequest r).port = s.port := rfl
@[simp] theorem State.dropRequest_attn (r : Req) : (s.dropRequest r).attn = s.attn := rfl
@[simp] theorem State.dropRequest_chain (r : Req) :
    (s.dropRequest r).chain =
      { s.chain with requests := s.chain.requests.filter (· ≠ r) } := rfl
@[simp] theorem State.dropRequest_conv (r : Req) : (s.dropRequest r).conv = s.conv := rfl
@[simp] theorem State.dropRequest_plan (r : Req) : (s.dropRequest r).plan = s.plan := rfl
@[simp] theorem State.dropRequest_sup (r : Req) : (s.dropRequest r).sup = s.sup := rfl
@[simp] theorem State.dropRequest_ev (r : Req) : (s.dropRequest r).ev = s.ev := rfl
@[simp] theorem State.dropRequest_power (r : Req) : (s.dropRequest r).power = s.power := rfl
@[simp] theorem State.dropRequest_store (r : Req) : (s.dropRequest r).store = s.store := rfl
@[simp] theorem State.dropRequest_upd (r : Req) : (s.dropRequest r).upd = s.upd := rfl
@[simp] theorem State.dropRequest_free (r : Req) : (s.dropRequest r).free = s.free := rfl
@[simp] theorem State.dropRequest_pending (r : Req) : (s.dropRequest r).pending = s.pending := rfl

/-! ### `State.send`

A block sends an event (R94). -/

@[simp] theorem State.send_mem (e : SentEvent) : (s.send e).mem = s.mem := rfl
@[simp] theorem State.send_pins (e : SentEvent) : (s.send e).pins = s.pins := rfl
@[simp] theorem State.send_port (e : SentEvent) : (s.send e).port = s.port := rfl
@[simp] theorem State.send_attn (e : SentEvent) : (s.send e).attn = s.attn := rfl
@[simp] theorem State.send_chain (e : SentEvent) : (s.send e).chain = s.chain := rfl
@[simp] theorem State.send_conv (e : SentEvent) : (s.send e).conv = s.conv := rfl
@[simp] theorem State.send_plan (e : SentEvent) : (s.send e).plan = s.plan := rfl
@[simp] theorem State.send_sup (e : SentEvent) : (s.send e).sup = s.sup := rfl
@[simp] theorem State.send_ev (e : SentEvent) :
    (s.send e).ev =
      { s.ev with inbox := s.ev.inbox ++ [{ e with together := (lastOf s.ev.inbox).any (·.fresh), fresh := true }] } := rfl
@[simp] theorem State.send_power (e : SentEvent) : (s.send e).power = s.power := rfl
@[simp] theorem State.send_store (e : SentEvent) : (s.send e).store = s.store := rfl
@[simp] theorem State.send_upd (e : SentEvent) : (s.send e).upd = s.upd := rfl
@[simp] theorem State.send_free (e : SentEvent) : (s.send e).free = s.free := rfl
@[simp] theorem State.send_pending (e : SentEvent) : (s.send e).pending = s.pending := rfl

/-! ### `State.endSending`

The events of the step have been sent (R94). -/

@[simp] theorem State.endSending_mem : (s.endSending).mem = s.mem := rfl
@[simp] theorem State.endSending_pins : (s.endSending).pins = s.pins := rfl
@[simp] theorem State.endSending_port : (s.endSending).port = s.port := rfl
@[simp] theorem State.endSending_attn : (s.endSending).attn = s.attn := rfl
@[simp] theorem State.endSending_chain : (s.endSending).chain = s.chain := rfl
@[simp] theorem State.endSending_conv : (s.endSending).conv = s.conv := rfl
@[simp] theorem State.endSending_plan : (s.endSending).plan = s.plan := rfl
@[simp] theorem State.endSending_sup : (s.endSending).sup = s.sup := rfl
@[simp] theorem State.endSending_ev :
    (s.endSending).ev =
      { s.ev with inbox := s.ev.inbox.map fun e => { e with fresh := false } } := rfl
@[simp] theorem State.endSending_power : (s.endSending).power = s.power := rfl
@[simp] theorem State.endSending_store : (s.endSending).store = s.store := rfl
@[simp] theorem State.endSending_upd : (s.endSending).upd = s.upd := rfl
@[simp] theorem State.endSending_free : (s.endSending).free = s.free := rfl
@[simp] theorem State.endSending_pending : (s.endSending).pending = s.pending := rfl

/-! ### `State.atUs`

The µs time base stands at an event (R29). -/

@[simp] theorem State.atUs_mem (us : Us) : (s.atUs us).mem = s.mem := rfl
@[simp] theorem State.atUs_pins (us : Us) : (s.atUs us).pins = s.pins := rfl
@[simp] theorem State.atUs_port (us : Us) : (s.atUs us).port = s.port := rfl
@[simp] theorem State.atUs_attn (us : Us) : (s.atUs us).attn = s.attn := rfl
@[simp] theorem State.atUs_chain (us : Us) : (s.atUs us).chain = s.chain := rfl
@[simp] theorem State.atUs_conv (us : Us) : (s.atUs us).conv = { s.conv with us := s.usAt us } := rfl
@[simp] theorem State.atUs_plan (us : Us) : (s.atUs us).plan = s.plan := rfl
@[simp] theorem State.atUs_sup (us : Us) : (s.atUs us).sup = s.sup := rfl
@[simp] theorem State.atUs_ev (us : Us) : (s.atUs us).ev = s.ev := rfl
@[simp] theorem State.atUs_power (us : Us) : (s.atUs us).power = s.power := rfl
@[simp] theorem State.atUs_store (us : Us) : (s.atUs us).store = s.store := rfl
@[simp] theorem State.atUs_upd (us : Us) : (s.atUs us).upd = s.upd := rfl
@[simp] theorem State.atUs_free (us : Us) : (s.atUs us).free = s.free := rfl
@[simp] theorem State.atUs_pending (us : Us) : (s.atUs us).pending = s.pending := rfl

/-! ### `State.editHeld`

The capture that holds the chain is changed. -/

@[simp] theorem State.editHeld_mem (f : Capture → Capture) : (s.editHeld f).mem = s.mem := rfl
@[simp] theorem State.editHeld_pins (f : Capture → Capture) : (s.editHeld f).pins = s.pins := rfl
@[simp] theorem State.editHeld_port (f : Capture → Capture) : (s.editHeld f).port = s.port := rfl
@[simp] theorem State.editHeld_attn (f : Capture → Capture) : (s.editHeld f).attn = s.attn := rfl
@[simp] theorem State.editHeld_chain (f : Capture → Capture) : (s.editHeld f).chain = s.chain := rfl
@[simp] theorem State.editHeld_conv (f : Capture → Capture) : (s.editHeld f).conv = s.conv := rfl
@[simp] theorem State.editHeld_plan (f : Capture → Capture) :
    (s.editHeld f).plan =
      { s.plan with captures := s.plan.captures.map fun c => if c.holding then f c else c } := rfl
@[simp] theorem State.editHeld_sup (f : Capture → Capture) : (s.editHeld f).sup = s.sup := rfl
@[simp] theorem State.editHeld_ev (f : Capture → Capture) : (s.editHeld f).ev = s.ev := rfl
@[simp] theorem State.editHeld_power (f : Capture → Capture) : (s.editHeld f).power = s.power := rfl
@[simp] theorem State.editHeld_store (f : Capture → Capture) : (s.editHeld f).store = s.store := rfl
@[simp] theorem State.editHeld_upd (f : Capture → Capture) : (s.editHeld f).upd = s.upd := rfl
@[simp] theorem State.editHeld_free (f : Capture → Capture) : (s.editHeld f).free = s.free := rfl
@[simp] theorem State.editHeld_pending (f : Capture → Capture) : (s.editHeld f).pending = s.pending := rfl

end Sys2Proof.Machine
end

