-- ==== Sys2Proof/Tests/Slice0.lean ====
section
/-! SUPPORT. Tests: the operand checks, single steps with results worked out from the rules, and for every statement with
hypotheses a concrete state and operands that meet them. -/

set_option Elab.async false

namespace Sys2Proof.Tests

open Sys2Proof Sys2Proof.Machine

/-! ### Operands -/

/-- A module status with no flag set. -/
def quiet : ModuleStatus := ⟨false, false, false⟩

theorem test_wf_registerWrite_note : WellFormed (.registerWrite 0x8004 0) = false := by decide
theorem test_wf_registerWrite_memory : WellFormed (.registerWrite 0x7FFC 0) = false := by decide
theorem test_wf_registerWrite_ident : WellFormed (.registerWrite 0x8000 0) = true := by decide
theorem test_wf_reply_address : WellFormed (.reply ⟨0, 0⟩ 25 1 [] quiet 0 none) = false := by decide
theorem test_wf_reply_tag : WellFormed (.reply ⟨0, 0⟩ 1 0 [] quiet 0 none) = false := by decide
theorem test_wf_reply_codes : WellFormed (.reply ⟨0, 0⟩ 1 1 (List.replicate 21 0) quiet 0 none) = false := by decide
theorem test_wf_echoBack_address : WellFormed (.echoBack 0 0 0 0 0 0 0 none) = false := by decide
theorem test_wf_echoBack_kind : WellFormed (.echoBack 0 1 0 256 0 0 0 none) = false := by decide
theorem test_wf_echoBack_cells : WellFormed (.echoBack 0 1 0 0 256 0 0 none) = false := by decide
theorem test_wf_configReply_address : WellFormed (.configReply ⟨0, 0⟩ 31 1 quiet 0 none) = false := by decide
theorem test_wf_configReply_tag : WellFormed (.configReply ⟨0, 0⟩ 1 256 quiet 0 none) = false := by decide
theorem test_wf_blockAck : WellFormed (.blockAck ⟨0, 0⟩ 25 0 false 0 none) = false := by decide
theorem test_wf_returnProbe : WellFormed (.returnProbe 0) = false := by decide
theorem test_wf_balancingEnd : WellFormed (.balancingEnd 25) = false := by decide
theorem test_wf_returnLimit : WellFormed (.returnLimit 0) = false := by decide
theorem test_wf_planDue : WellFormed (.planDue 8) = false := by decide
theorem test_wf_pauseWaitEnd : WellFormed (.pauseWaitEnd 8) = false := by decide
theorem test_wf_coilReport : WellFormed (.coilReport .mainPos 500 (some (.mainPos, 500))) = false := by decide
theorem test_wf_checkEnd : WellFormed (.checkEnd [131072] [0]) = false ∧ WellFormed (.checkEnd [1] []) = false := by decide

/-! ### States -/

/-- The state after a command, if it answers one. -/
def nextOf (c : Instr) (s : State) : Option State :=
  match exec c s with
  | .next t => some t
  | _ => none

/-- A field of the state after a command. -/
def after {α : Type} (c : Instr) (s : State) (f : State → α) : Option α := (nextOf c s).map f

/-- The plain conditions under which a state meets every invariant and rests. -/
def plain (s : State) : Bool :=
  s.mem.wf && !anyFaulted s.chain.map && s.sup.faultedSince.isNone && !s.sup.surge
  && decide (s.port.slots.length = 8) && decide (s.port.tables.length = 4) && decide (s.chain.survey.length = 24)
  && decide (s.chain.map.length = 24) && decide (s.plan.kept.length = 24) && decide (s.plan.pages.length = 4)
  && decide (s.ev.slots.length = 16) && s.store.keySlip.isNone && s.plan.burst.isNone && s.upd.pause.isNone
  && decide (s.upd.state ≠ .distributing) && s.power.entry.isNone && s.power.patrol.isNone
  && s.power.returning.isNone && decide (s.power.nextSlot ≤ 31) && s.ev.inbox.all fun e => !e.fresh

/-- A plain state is canonical, calm, well shaped, and rests and is awake. -/
theorem plain_meets {s : State} (h : plain s = true) :
    s.canonical ∧ s.calm ∧ s.shaped ∧ s.resting ∧ s.awake := by
  simp only [plain, Bool.and_eq_true, Bool.not_eq_true', decide_eq_true_eq, Option.isNone_iff_eq_none] at h
  obtain ⟨⟨⟨⟨⟨⟨⟨⟨⟨⟨⟨⟨⟨⟨⟨⟨⟨⟨⟨h1, h2⟩, h3⟩, h4⟩, h5⟩, h6⟩, h7⟩, h8⟩, h9⟩, h10⟩, h11⟩, h12⟩, h13⟩, h14⟩, h15⟩, h16⟩, h17⟩, h18⟩, h20⟩, h19⟩ := h
  refine ⟨h1, ⟨by rw [h3, h2]; rfl, ?_, ?_, fun e he => ?_⟩, ⟨h5, h6, h7, h8, h9, h10, h11, ?_, h20⟩, ⟨h13, h14, h15, ?_, ?_, ?_⟩, h16, h17, h18⟩
  · simp [h4]
  · simp [h4]
  · simpa using List.all_eq_true.mp h19 e he
  · simp [h12]
  · simp [h16]
  · simp [h17]
  · simp [h18]

/-- A plain state with no request waiting is at rest. -/
theorem plain_restful {s : State} (h : plain s = true) (hq : s.chain.requests = []) : s.restful :=
  ⟨(plain_meets h).2.2.2.1, .inl hq⟩

/-- The conditions of `restful`, computed. -/
def rests (s : State) : Bool :=
  s.plan.burst.isNone && s.upd.pause.isNone && decide (s.upd.state ≠ .distributing)
  && (s.power.entry.all fun e => decide (e.step = 3 ∨ e.step = 5 ∨ e.step = 4 ∧ s.chain.state ≠ .asleep))
  && (s.power.patrol.all fun p => p.judged.isNone && s.plan.patrolReport.isNone)
  && (s.power.returning.all fun _ => decide (s.chain.state ≠ .asleep))
  && (s.chain.requests.isEmpty || s.chain.hold.isSome && !s.chain.down && decide (s.chain.state ≠ .asleep))

/-- A state that meets them rests. -/
theorem rests_restful {s : State} (h : rests s = true) : s.restful := by
  simp only [rests, Bool.and_eq_true, Bool.or_eq_true, Bool.not_eq_true', decide_eq_true_eq, Option.isNone_iff_eq_none,
    List.isEmpty_iff] at h
  obtain ⟨⟨⟨⟨⟨⟨h1, h2⟩, h3⟩, h4⟩, h5⟩, h6⟩, h7⟩ := h
  refine ⟨⟨h1, h2, h3, fun e he => ?_, fun p hp => ?_, fun r hr => ?_⟩, h7.imp id fun h => ⟨h.1.1, h.1.2, h.2⟩⟩
  · simpa [he] using h4
  · simpa [hp] using h5
  · simpa [hr] using h6

/-- A plain state whose chain is held is at rest. -/
theorem plain_held {s : State} (h : plain s = true) (hq : s.chain.occupied) : s.restful :=
  ⟨(plain_meets h).2.2.2.1, .inr hq⟩

/-- The conditions of `slipsRight`, computed. -/
def slipsOk (s : State) : Bool :=
  decide s.slips.Nodup && s.slips.all fun k => decide (k ≤ 7) && ((getAt s.port.slots k).bind id).isSome

/-- In a state that meets them every slip that a block records is in flight. -/
theorem slipsOk_right {s : State} (h : slipsOk s = true) : s.slipsRight := by
  simp only [slipsOk, Bool.and_eq_true, decide_eq_true_eq, List.all_eq_true] at h
  refine ⟨h.1, fun k hk => ⟨(h.2 k hk).1, ?_⟩⟩
  obtain ⟨c, hc⟩ := Option.isSome_iff_exists.mp (h.2 k hk).2
  obtain ⟨o, ho, rfl⟩ := Option.bind_eq_some_iff.mp hc
  exact ⟨c, ho⟩

/-- A sample with a current in 10 mA and the two voltages in 10 mV. -/
def sample (t : Us) (i : Int) (vBatt vLink : Nat) : Sample := ⟨t, i, vBatt, vLink, 1200, false, false, false, false⟩

/-- A configured module of 4 cells and one sensor that is in service. -/
def module1 : ModuleEntry :=
  { configured := true
    cells := 4
    sensors := 1
    source := .host
    gain := 32768
    offset := 0
    state := .inService
    cause := none
    miss := 0
    delay := 10
    delayClamped := false
    version := 3
    status := quiet
    balMask := 0
    balEnd := 0 }

/-- Its survey entry. -/
def survey1 : SurveyEntry := ⟨true, 0, 4, 1, 200, 10, false, 3⟩

/-- The part in RUN and OPEN, at part time 1000, with modules 1 and 2 in service on a free chain. -/
def base : State :=
  { State.reset with
    store := { State.reset.store with startUp := false, activeBank := some .a }
    sup := { State.reset.sup with state := .open_, waiting := false }
    conv := { State.reset.conv with part := 1000, us := 900000, history := [sample 899900 100 40000 100] }
    chain := { State.reset.chain with
      state := .up
      wasDown := false
      hold := none
      line := .idle
      resetTone := false
      exTag := 2
      firstUp := true
      present := 2
      configured := 2
      survey := [survey1, survey1] ++ State.reset.chain.survey.drop 2
      map := [module1, module1] ++ State.reset.chain.map.drop 2 } }

theorem base_plain : plain base = true := by decide +kernel

/-- Memory bytes stored one after another. -/
def withBytes (l : List (Nat × List Byte)) (s : State) : State :=
  { s with mem := l.foldl (fun m p => m.store p.1 p.2) s.mem }

/-- A note with a kind and an argument waits alone. -/
def noted (kind arg : Nat) (s : State) : State := { s with port.notes := [BitVec.ofNat 32 (16777216 * kind + arg)] }

/-! ### Resets -/

/-- The nonvolatile contents of a part fresh from manufacture. -/
def factoryNv : Nv := State.reset.store.nv

theorem test_reset_is_powerOn : powerOnState factoryNv ⟨false, false, false⟩ 0 [] = State.reset := by decide +kernel
theorem test_reset_memory_canonical : State.reset.mem.wf = true := by decide +kernel
theorem test_resetLine_keeps_charge :
    after (.resetLine .erased) { base with conv.charge := 77, plan.setSeq := 9 }
      (fun t => (t.conv.charge, t.plan.setSeq, t.power.resetCount, t.pins.resetN, t.sup.state)) =
      some (77, 9, 1, true, .lockedOut) := by decide +kernel

theorem witness_ResetLineKeeps : base.canonical ∧ base.shaped := ⟨(plain_meets base_plain).1, (plain_meets base_plain).2.2.1⟩
theorem witness_PowerOnTakesResetState : base.store.running = none := rfl
theorem test_powerOn_marker : after (.powerOn .erased) { base with pins.resetN := true } (fun t => (t.pins.resetN, t.chain.state, t.mem.wf)) =
    some (false, .surveying, true) := by decide +kernel
theorem test_resetNReleased : after .resetNReleased { base with pins.resetN := true } (fun t => (t.pins.resetN, t.linkServed)) = some (false, true) := by decide +kernel
theorem test_vehicleWakeInputDeasserted : after .vehicleWakeInputDeasserted { base with pins.wakeLine := true } (·.pins.wakeLine) = some false := by decide +kernel
theorem test_chainAlertDeasserted : after .chainAlertDeasserted { base with pins.chainAlert := true } (·.pins.chainAlert) = some false := by decide +kernel
theorem witness_PinsReleased : base.calm := (plain_meets base_plain).2.1

/-! ### The queue and the invariants -/

theorem witness_StepRunsFrontCommand : ({ base with pending := [.post] } : State).pending = .post :: [] ∧ base.pending = [] := ⟨rfl, rfl⟩
theorem test_step_takes_front :
    (match step { base with pending := [.chainAlertDeasserted, .post] } with | .next t => t.pending | _ => []) = [.post] := by decide +kernel
/-- A millisecond is about to pass. -/
def ticking : State := { base with pending := [.partTimeTick 0] }
theorem ticking_plain : plain ticking = true := by decide +kernel
theorem witness_StepKeepsCanonicalMemory : ticking.canonical ∧ ∃ t, step ticking = .next t := ⟨(plain_meets ticking_plain).1, _, rfl⟩
theorem witness_StepKeepsBounds : ticking.bounded ∧ ∃ t, step ticking = .next t :=
  ⟨⟨by decide, by decide, by decide, by decide, by decide⟩, _, rfl⟩
theorem witness_StepKeepsSurgeMarks : ticking.calm ∧ ∃ t, step ticking = .next t := ⟨(plain_meets ticking_plain).2.1, _, rfl⟩
/-- The same with the settings set. -/
def tickingSet : State := { ticking with sup.once := ⟨true, 500, true, false⟩ }
theorem witness_StepKeepsOnceSettings : tickingSet.sup.once.set = true ∧ (∀ cut l, tickingSet.pending ≠ .powerOn cut :: l)
    ∧ ∃ t, step tickingSet = .next t :=
  ⟨rfl, fun cut l h => (nomatch (h : [Instr.partTimeTick 0] = .powerOn cut :: l)), _, rfl⟩
theorem tickingSet_lawful : tickingSet.Lawful where
  coils := by decide +kernel
  asleep := by decide +kernel
  update := by decide +kernel
  opening := by decide +kernel
  close := by decide +kernel
  weld := fun w h => nomatch (h : (none : Option Weld) = some w)
  clear := by decide +kernel
  deferral := by decide +kernel
  startUp := by decide +kernel
  waiting := by decide +kernel
  entry := by decide +kernel
  patrol := by decide +kernel
  returning := by decide +kernel
  notes := by decide +kernel
theorem witness_StepKeepsAttnCondition : tickingSet.attnRight ∧ tickingSet.Lawful ∧ ∃ t, step tickingSet = .next t :=
  ⟨by unfold State.attnRight; decide +kernel, tickingSet_lawful, _, rfl⟩
theorem witness_StepKeepsContactorLaws : tickingSet.Lawful ∧ ∃ t, step tickingSet = .next t := ⟨tickingSet_lawful, _, rfl⟩
theorem witness_StepKeepsShape : ticking.shaped ∧ ∃ t, step ticking = .next t := ⟨(plain_meets ticking_plain).2.2.1, _, rfl⟩

/-! ### The memory link and notes -/

theorem witness_HostWrites : base.canonical ∧ base.calm ∧ base.linkServed = true
    ∧ ({ base with pins.resetN := true } : State).linkServed = false :=
  ⟨(plain_meets base_plain).1, (plain_meets base_plain).2.1, by decide, by decide⟩
theorem test_hostWordWrite_low_bits : after (.hostWordWrite 0x0403 0x04030201) base (fun t => t.mem.readBytes 0x400 4) = some [1, 2, 3, 4] := by decide +kernel
theorem test_hostWordWrite_last_word : after (.hostWordWrite 0x7FFC 0xFF) base (fun t => Memory.read t.mem 0x7FFC) = some 0xFF := by decide +kernel
theorem test_registerWrite : after (.registerWrite 0x8000 0xFF) base (fun t => decide (t = base)) = some true := by decide +kernel
theorem test_note_joins : after (.note 0x02000000) base (·.port.notes) = some [0x02000000] := by decide +kernel
/-- Eight notes wait. -/
def fullQueue : State := { base with port.notes := List.replicate 8 0x02000000 }
theorem witness_NoteArrives : base.linkServed = true ∧ base.port.notes.length < 8 ∧ fullQueue.canonical ∧ fullQueue.calm
    ∧ fullQueue.linkServed = true ∧ 8 ≤ fullQueue.port.notes.length :=
  have h := plain_meets (s := fullQueue) (by decide +kernel)
  ⟨by decide, by decide, h.1, h.2.1, by decide, by decide⟩
theorem test_note_overrun : after (.note 0x01000003) fullQueue (fun t => (t.port.notes.length, t.port.fault, t.port.faultCount)) =
    some (8, some ⟨1, 3, .overrun⟩, 1) := by decide +kernel
theorem witness_DiscardedNotes : plain (noted 4 9 base) = true ∧ (noted 4 9 base).chain.requests = []
    ∧ noteKindOf (noteKind 0x04000009) = some .setMask ∧ NoteKind.setMask.accepts (noteArg 0x04000009) = false
    ∧ noteKindOf (noteKind 0x0B000000) = none ∧ noteKindOf (noteKind 0x00000000) = none := by decide +kernel
theorem test_badArgument : after .setMask (noted 4 9 base) (fun t => (t.port.notes, t.port.fault, t.attn.mask)) =
    some ([], some ⟨4, 9, .badArgument⟩, 0) := by decide +kernel
theorem test_unknownKind : after .unknownKind (noted 11 5 base) (fun t => (t.port.notes, t.port.fault)) =
    some ([], some ⟨11, 5, .unknownKind⟩) := by decide +kernel
theorem witness_MaskLevelsAndRefreshNotes : noteKindOf (noteKind 0x04000003) = some .setMask ∧ (noteArg 0x04000003).toNat ≤ 3
    ∧ noteKindOf (noteKind 0x05000000) = some .levels ∧ noteKindOf (noteKind 0x02000000) = some .refresh
    ∧ plain (noted 2 0 base) = true := by decide +kernel
theorem test_setMask : after .setMask (noted 4 3 base) (·.attn.mask) = some 3 := by decide +kernel
theorem test_levels : after .levels (withBytes [(0x104, [1, 0, 0, 0]), (0x108, [9, 2, 0, 0, 0, 1])] (noted 5 0 base))
    (fun t => (t.attn.enables, t.attn.levels)) = some (1, [3, 2, 0, 0, 0, 1]) := by decide +kernel
theorem test_refresh : after .refresh (noted 2 0 { base with sup.silence := 50, sup.warn := true, sup.lapsed := true })
    (fun t => (t.sup.silence, t.sup.warn, t.sup.lapsed)) = some (0, false, false) := by decide +kernel
/-- The first and the sixth factor are pending. -/
def twoFactors : State := { base with attn.factors := 0x21, chain.wasDown := true }
theorem witness_ClearNote : plain (noted 3 0x20 twoFactors) = true ∧ noteKindOf (noteKind 0x03000020) = some .clear
    ∧ (noteArg 0x03000020).toNat < 2 ^ 20 := by decide +kernel
theorem test_clear : after .clear (noted 3 0x20 twoFactors) (fun t => (t.attn.factors, t.chain.wasDown, t.mem.num 0x100 4)) =
    some (1, false, 1) := by decide +kernel
theorem witness_HoldAndReleaseNotes : (noted 7 2 base).calm ∧ noteKindOf (noteKind 0x07000002) = some .hold
    ∧ noteKindOf (noteKind 0x08000003) = some .release ∧ getAt base.plan.pages 2 = some ⟨0, false, false⟩ :=
  ⟨(plain_meets (s := noted 7 2 base) (by decide +kernel)).2.1, by decide, by decide, rfl⟩
theorem test_hold : after .hold (noted 7 2 base) (fun t => getAt t.plan.pages 2) = some (some ⟨0, true, false⟩) := by decide +kernel
theorem test_hold_while_written : after .hold (noted 7 2 { base with plan.writing := some ⟨2, 5⟩ }) (fun t => getAt t.plan.pages 2) =
    some (some ⟨0, false, true⟩) := by decide +kernel
theorem test_release : after .release (noted 8 1 { base with plan.pages := List.replicate 4 ⟨7, true, false⟩ })
    (fun t => t.plan.pages) = some [⟨7, true, false⟩, ⟨7, false, false⟩, ⟨7, true, false⟩, ⟨7, true, false⟩] := by decide +kernel
/-- A complete record without a window. -/
def record (seq : Nat) : EventRec :=
  { complete := true
    seq := seq
    kind := .silence
    cause := 0
    part := 10
    before := ⟨false, false, false⟩
    after := ⟨false, false, false⟩
    values := none
    surge := false
    acked := false
    windowComplete := false
    windowSkipped := false
    deferred := none
    linked := .notBurst
    revision := 0
    detail := .silence 1 2
    causes := []
    adding := false
    tn := 0
    pre := []
    post := [] }
/-- Two records, the older in slot 1. -/
def twoRecords : State :=
  { base with ev := { base.ev with slots := [some (record 8), some (record 7)] ++ List.replicate 14 none, age := [1, 0], next := 9 } }
theorem witness_AckEventsNote : plain (noted 9 8 twoRecords) = true ∧ noteKindOf (noteKind 0x09000008) = some .ackEvents
    ∧ slotWhere (fun r => decide (r.seq = 8)) 0 twoRecords.ev.slots = some 0
    ∧ slotWhere (fun r => decide (r.seq = 6)) 0 twoRecords.ev.slots = none := by decide +kernel
theorem test_ackEvents : after .ackEvents (noted 9 7 twoRecords)
    (fun t => ((t.ev.at 0).map (·.acked), (t.ev.at 1).map (·.acked))) = some (some false, some true) := by decide +kernel
theorem test_ackEvents_none : after .ackEvents (noted 9 6 twoRecords) (fun t => t.port.fault) = some (some ⟨9, 6, .noSuchSequence⟩) := by decide +kernel
/-- Buffer A is filled, buffer B is empty. -/
def filledA : State := withBytes [(0x4808, [4, 0, 0, 1])] base
theorem witness_ChunkNote : plain (noted 10 0 filledA) = true ∧ noteKindOf (noteKind 0x0A000001) = some .chunk
    ∧ bufferState filledA.mem .a = 1 ∧ bufferState filledA.mem .b = 0
    ∧ bufferState (withBytes [(0x4818, [4, 0, 0, 2])] base).mem .b = 2 := by decide +kernel
theorem test_chunk : after .chunk (noted 10 0 filledA) (·.upd.waiting) = some [.a] := by decide +kernel
theorem test_chunk_not_filled : after .chunk (noted 10 1 filledA) (fun t => (t.mem.readBytes 0x4818 4, t.upd.rej)) =
    some ([0, 0, 5, 4], 1) := by decide +kernel

/-! ### Standing tables and slips -/

theorem witness_TablesTakenWhole : plain (noted 6 2 base) = true ∧ noteKindOf (noteKind 0x06000002) = some .tables
    ∧ getAt base.port.tables 0 = some ⟨0, .note, .taken, 0, []⟩ ∧ getAt base.port.tables 1 = some ⟨0, .note, .taken, 0, []⟩
    ∧ getAt base.port.tables 2 = some ⟨0, .note, .taken, 0, []⟩ := by decide +kernel
/-- A plan of period 100 and phase 3 over the addresses 1 and 2 stands in entry 0 of the plan table. -/
def planned : State := withBytes [(0x400, [1, 2, 0, 1, 100, 0, 3, 0, 3, 0, 0, 0])] base
theorem test_tablesPlanTable : after .tablesPlanTable (noted 6 0 planned) (fun t => (getAt t.plan.plans 0, t.port.lastTable)) =
    some (some ⟨true, 100, 3, 3, .both, 0, true⟩, 0) := by decide +kernel
theorem test_tablesPlanTable_clamps : after .tablesPlanTable (noted 6 0 planned)
    (fun t => (getAt t.port.tables 0).map fun e => (e.number, e.outcome, e.count)) = some (some (1, .takenClamped, 7)) := by decide +kernel
theorem test_tablesLimitTable : after .tablesLimitTable (noted 6 1 (withBytes [(0x480, [0x50, 0xC3, 0, 0])] base))
    (fun t => (t.store.taken.softMax, t.store.inForce.softMax, t.store.taken.sumTol, t.store.hardClamps)) =
    some (50000, 42500, 50, [0, 1, 3]) := by decide +kernel
theorem test_tablesLimitTable_count : after .tablesLimitTable (noted 6 1 (withBytes [(0x480, [0x60, 0xEA, 0, 0])] base))
    (fun t => ((getAt t.port.tables 1).map (·.count), t.store.rangeClamps.contains 0 && t.store.hardClamps.contains 0)) =
    some (some 4, true) := by decide +kernel
theorem test_tablesWakeTable : after .tablesWakeTable (noted 6 2 (withBytes [(0x4A0, [0, 1, 2, 3, 0]), (0x4A8, [9, 0, 0, 0])] base))
    (·.power.wakeTable) = some ⟨0, 1, 2, 2, 2, 10, 50⟩ := by decide +kernel
/-- The module map in memory configures the addresses 1 and 2 as the working map has them, with another gain. -/
def mapped : State :=
  withBytes [(0x500, [1, 4, 1, 0, 0x01, 0x80, 0, 0]), (0x510, [1, 4, 1, 0, 0x00, 0x80, 0, 0])] base
/-- The module map in memory configures 24 modules of 16 cells. -/
def tooMany : State := withBytes (addresses.map fun a => (0x4F0 + 16 * a, [1, 16, 2, 0, 0, 0x80, 0, 0])) base
theorem witness_ModuleMapNote : plain (noted 6 3 mapped) = true ∧ mapped.chain.requests = [] ∧ plain (noted 6 3 tooMany) = true
    ∧ getAt mapped.port.tables 3 ≠ none
    ∧ mapped.mapRefusal (readModules mapped.mem mapped.store.active).1 = none
    ∧ configuredSet mapped.chain.map = configuredSet (takeModules (readModules mapped.mem mapped.store.active).1 mapped.chain.map)
    ∧ tooMany.mapRefusal (readModules tooMany.mem tooMany.store.active).1 = some .refusedTotals := by decide +kernel
theorem test_tablesModuleMap : after .tablesModuleMap (noted 6 3 mapped)
    (fun t => ((t.chain.entry 1).map (fun e => (e.gain, e.state)), t.chain.line)) = some (some (32769, .inService), .idle) := by decide +kernel
theorem test_tablesModuleMap_survey : after .tablesModuleMap (noted 6 3 (withBytes [(0x500, [1, 5, 1, 0])] base))
    (fun t => (t.chain.state, (t.chain.entry 1).map (·.state), (t.chain.entry 2).map (·.state))) =
    some (.surveying, some .absent, some .absent) := by decide +kernel
/-- A slip of a kind with a tag is posted in slot 3. -/
def posted (kind : Byte) (s : State) : State := noted 1 3 (withBytes [(0x2C0, [1, 0, 0, 0, kind, 0, 0x34, 0x12])] s)
theorem witness_PostHandledAtOnce : plain (noted 1 3 base) = true ∧ base.chain.requests = [] ∧ noteKindOf (noteKind 0x01000003) = some .post
    ∧ (noted 1 3 base).posted 3 = false := by decide +kernel
theorem test_post_notPosted : after .post (noted 1 3 base) (·.port.fault) = some (some ⟨1, 3, .slotNotPosted⟩) := by decide +kernel
theorem witness_PostHandledAtOnce_completes : plain (posted 15 base) = true ∧ (posted 15 base).posted 3 = true
    ∧ base.power.state ≠ .enteringDeep
    ∧ slipKindOf (Memory.read (posted 15 base).mem (slotAt 3 + 4)) = none
    ∧ slipKindOf (Memory.read (posted 2 base).mem (slotAt 3 + 4)) = some .open_ ∧ base.sup.state.atRest = true := by decide +kernel
theorem test_post_badSlip : after .post (posted 15 base) (fun t => (t.mem.readBytes 0x2C0 8, Memory.read t.mem 0x2F0)) =
    some ([3, 0, 0, 0, 15, 0, 0x34, 0x12], 7) := by decide +kernel
/-- A close may begin: the settings are set and a fresh plausible set stands. -/
def closable : State :=
  { base with
    sup.once := ⟨true, 0, true, false⟩
    plan.fresh := some ⟨4, 900, false⟩ }
theorem witness_CloseBegins : (posted 1 closable).posted 3 = true
    ∧ slipKindOf (Memory.read (posted 1 closable).mem (slotAt 3 + 4)) = some .close
    ∧ (posted 1 closable).sup.slipInFlight = false ∧ (posted 1 closable).sup.state = .open_
    ∧ (posted 1 closable).closeFails = none ∧ (posted 1 closable).faultedTooLong = false
    ∧ (posted 1 closable).sup.lossDue = false ∧ (posted 1 closable).power.state ≠ .enteringDeep := by decide +kernel
theorem test_post_close : after .post (posted 1 closable)
    (fun t => (t.sup.state, t.sup.coils, t.sup.inrush, t.mem.num 0x2C0 4)) =
    some (.precharging, ⟨true, true, false⟩, some 1040, 2) := by decide +kernel

/-! ### Wakes and sleep -/

/-- The part in DEEP with a stopped converter and a sleeping chain. -/
def deep : State :=
  { base with
    power := { base.power with
      state := .deep
      timerRunning := true
      timer := 0
      compRun := 1000 }
    conv := { base.conv with scanning := false }
    chain := { base.chain with state := .asleep } }
theorem witness_WakeCauses : plain deep = true ∧ deep.chain.requests = [] ∧ wakes deep .timer ∧ wakes deep .line ∧ wakes deep .chain
    ∧ wakes deep .current ∧ wakes deep .link := by
  unfold wakes; decide +kernel
theorem test_wakeTimer : after .wakeTimer deep (fun t => (t.power.pend, t.power.state, t.power.target)) = some (1, .waking, .patrol) := by decide +kernel
theorem test_wakeLine : after .wakeLine deep (fun t => (t.power.pend, t.power.target, t.pins.wakeLine)) = some (2, .run, true) := by decide +kernel
theorem test_wakeChain : after .wakeChain deep (fun t => (t.power.pend, t.pins.chainAlert)) = some (4, true) := by decide +kernel
theorem test_wakeChain_awake : after .wakeChain base (fun t => (t.power.pend, t.pins.chainAlert)) = some (0, true) := by decide +kernel
theorem test_wakeCurrent : after .wakeCurrent deep (fun t => (t.power.pend, t.power.compFired)) = some (8, true) := by decide +kernel
theorem test_wakeLink : after .wakeLink deep (fun t => (t.power.pend, t.power.state)) = some (16, .waking) := by decide +kernel
theorem test_wakeLink_run : after .wakeLink base (fun t => decide (t = base)) = some true := by decide +kernel
theorem test_note_wakes : after (.note 0x02000000) deep (fun t => (t.power.pend, t.power.state, t.port.notes)) = some (16, .waking, []) := by decide +kernel
theorem test_hostWordWrite_wakes : after (.hostWordWrite 0x7000 5) deep (fun t => (t.power.pend, t.mem.num 0x7000 4)) = some (16, 0) := by decide +kernel
theorem test_registerWrite_wakes : after (.registerWrite 0x8000 5) deep (·.power.pend) = some 16
    ∧ after (.registerWrite 0x8000 5) { deep with pins.resetN := true } (·.power.pend) = some 0 := by decide +kernel
/-- WAKING, 2 ms after it began, with a target. -/
def waking (g : Target) : State :=
  { deep with power := { deep.power with state := .waking, target := g, settleAt := 998, pend := 1 } }
theorem witness_WakingSteps : plain (waking .run) = true ∧ (waking .run).chain.requests = [] ∧ (waking .run).power.settled = false
    ∧ 2 ≤ elapsed (waking .run).now (waking .run).power.settleAt ∧ (waking .run).conv.scanning = false
    ∧ (waking .run).ev.filling = [] ∧ 1 ≤ elapsed base.now 999 ∧ plain { base with power.wakeOut := true, power.wakeOutAt := 990 } = true
    ∧ 10 ≤ elapsed base.now 990 := by decide +kernel
theorem test_wakingSettleEnd : after .wakingSettleEnd (waking .run) (fun t => (t.conv.scanning, t.conv.history, t.chain.wake)) =
    some (true, [], .tone 1000) := by decide +kernel
theorem test_wakeToneEnd : after (.wakeToneEnd ⟨7, false⟩) { base with chain.wake := .tone 999, chain.exTag := 255 }
    (fun t => (t.chain.lastSent, t.chain.exTag, t.chain.wake)) = some (some (⟨.wake, 31, 255, []⟩, 7), 1, .settle 1000 false) := by decide +kernel
theorem test_wakeOutEnd : after .wakeOutEnd { base with power.wakeOut := true, power.wakeOutAt := 990 } (·.power.wakeOut) = some false := by decide +kernel
theorem test_wakeOutEnd_early : after .wakeOutEnd { base with power.wakeOut := true, power.wakeOutAt := 991 } (·.power.wakeOut) = some true := by decide +kernel
/-- The module wake time of a wake has passed. -/
def woken (g : Target) (gap : Bool := false) : State := { waking g with chain := { deep.chain with wake := .settle 995 gap } }
theorem witness_ModuleWakeEnds : 5 ≤ elapsed (woken .run).now 995 ∧ (woken .run).power.state = .waking ∧ (woken .run).chain.state = .asleep
    ∧ plain (woken .run) = true ∧ (woken .run).upd.state = .idle ∧ (woken .run).power.target = .run
    ∧ (woken .run).chain.requests = [] ∧ (woken .patrol).power.target = .patrol
    ∧ (woken .patrol).chain.configuredAddrs ≠ [] ∧ (woken .patrol).chain.hold = none
    ∧ (woken .patrol).chain.line = .idle ∧ (woken .patrol).chain.sleepCmd = false := by decide +kernel
theorem test_moduleWakeTimeEnd_run : after .moduleWakeTimeEnd (woken .run)
    (fun t => (t.power.state, t.chain.state, t.chain.origin, t.power.wakeOut, t.attn.factors)) =
    some (.run, .surveying, .asleep, true, 8) := by decide +kernel
theorem test_moduleWakeTimeEnd_patrol : after .moduleWakeTimeEnd (woken .patrol)
    (fun t => (t.power.state, t.chain.state, t.chain.line)) =
    some (.patrol, .up, .sending ⟨.capture, 31, 1, []⟩) := by decide +kernel
/-- A sleep entry in its snapshot step, 250 ms after the request. -/
def entering : State :=
  { base with
    power := { base.power with state := .enteringDeep, entry := some ⟨3, 3, 750⟩ }
    store := { base.store with queue := [⟨.snapshot ⟨0, false⟩, [.entry]⟩] } }
theorem entering_rests : entering.restful := rests_restful (by decide +kernel)
theorem witness_SleepEntrySteps : 250 ≤ elapsed entering.now 750 ∧ Requester.entry ∈ ([.entry] : List Requester)
    ∧ ({ base with chain.sleepCmd := true } : State).chain.sleepReady = true
    ∧ plain { base with chain.sleepCmd := true } = true := by decide +kernel
theorem test_snapshotWaitLimit : after .snapshotWaitLimit entering (fun t => (t.power.entry, t.power.snapOutcome, t.chain.sleepCmd, t.store.queue)) =
    some (some ⟨3, 4, 750⟩, .skipped, true, []) := by decide +kernel
theorem test_sleepBroadcast : after (.sleepBroadcast 5) { base with chain.sleepCmd := true } (fun t => (t.chain.state, t.chain.lastSent)) =
    some (.asleep, some (⟨.sleep, 31, 2, []⟩, 5)) := by decide +kernel
/-- Step 5 of a sleep entry. -/
def fifthStep : State :=
  { base with
    power := { base.power with state := .enteringDeep, entry := some ⟨3, 5, 750⟩ }
    chain := { base.chain with state := .asleep } }
theorem witness_SleepEntrySteps_deep : fifthStep.restful ∧ fifthStep.port.notes = [] ∧ fifthStep.power.patrol = none
    ∧ fifthStep.power.pendingWith (fun l => decide (l ≠ 0)) = false ∧ fifthStep.chain.requests = [] :=
  ⟨rests_restful (by decide +kernel), by decide +kernel⟩
theorem test_deepEntry : after .deepEntry fifthStep (fun t => (t.power.state, t.power.timer, t.conv.scanning)) =
    some (.deep, 3600000, false) := by decide +kernel

/-! ### The chain -/

/-- A frame to an address with a tag. -/
def frame (k : FrameKind) (a tag : Nat) : Frame := ⟨k, a, tag, []⟩

/-- An item of a capture for an address with 4 cells and one sensor. -/
def item (a : Nat) (settled : Bool) : Item :=
  { addr := a
    cells := 4
    sensors := 1
    gain := 32768
    offset := 0
    delay := 10
    state := .inService
    tm := 0
    pair := some ⟨100, 140, 25, false, false⟩
    settled := settled
    reading := none }

/-- The capture of plan 0 with the two modules, in a stage. -/
def capture (st : Stage) : Capture :=
  { newCapture 0 3 .both true with
    stage := st
    tag := 9
    items := [item 1 false, item 2 false]
    allListed := true }

/-- The capture of plan 0 holds the chain, with a line. -/
def holding (l : Line) : State :=
  { base with
    chain := { base.chain with hold := some (.capture 0), line := l }
    plan := { base.plan with captures := [capture .held] } }

/-- A hold with a line. -/
def held (h : Hold) (l : Line) : State := { base with chain := { base.chain with hold := some h, line := l } }

theorem witness_FramesLeave : plain (holding (.sending (frame .capture 31 9))) = true ∧ base.chain.requests = [] ∧ base.chain.down = false
    ∧ (frame .read 1 9).addressed = true ∧ (frame .read 1 9).answered = true ∧ (frame .switch 1 9).kind = .switch
    ∧ plain (held (.firmware .switch true) (.sending (frame .switch 1 9))) = true
    ∧ plain (held (.pause 0) (.sending (frame .pause 31 9))) = true := by decide +kernel
theorem test_captureSent : after (.captureSent 70) (holding (.sending (frame .capture 31 9)))
    (fun t => (t.chain.line, t.plan.captures.map (fun c => (c.tb, c.items.map (·.tm))))) =
    some (.conversion 70, [(some 70, [80, 80])]) := by decide +kernel
theorem test_frameSent_read : after (.frameSent 70) (holding (.sending (frame .read 1 9))) (·.chain.line) =
    some (.window (frame .read 1 9) 70) := by decide +kernel
theorem test_frameSent_switch : after (.frameSent 70) (held (.firmware .switch true) (.sending (frame .switch 1 9)))
    (fun t => (t.chain.line, t.chain.hold, t.upd.window)) = some (.idle, none, some ⟨1000, 0, none⟩) := by decide +kernel
theorem test_pauseSent : after (.pauseSent 70) { held (.pause 0) (.sending (frame .pause 31 9)) with plan.captures := [capture .pauseRequested] }
    (fun t => (t.chain.line, t.plan.captures.map (·.stage))) = some (.idle, [.pausing 1000]) := by decide +kernel
/-- Module 1 balances until part time 900; the balancing stop is being sent. -/
def balancing : State :=
  { held .stop (.sending (frame .config 31 9)) with
    chain.map := [{ module1 with balMask := 3, balEnd := 900 }, module1] ++ State.reset.chain.map.drop 2 }
theorem witness_BalancingStopsAndProbes : plain balancing = true ∧ balancing.chain.requests = []
    ∧ (balancing.chain.entry 1).map (fun e => (e.balMask, e.balEnd)) = some (3, 900)
    ∧ elapsed balancing.now 900 < 2 ^ 31 := by decide +kernel
theorem test_balancingStopSent : after (.balancingStopSent 70) balancing (fun t => (t.chain.map.map (·.balMask) |>.take 2, t.chain.hold)) =
    some ([0, 0], none) := by decide +kernel
theorem test_balancingEnd : after (.balancingEnd 1) balancing (fun t => (t.chain.entry 1).map (·.balMask)) = some (some 0) := by decide +kernel
/-- Module 2 has been handed back; the last probe went 200 ms ago. -/
def handedBack : State :=
  { held .config (.sending (frame .config 1 9)) with
    chain.map := [module1, { module1 with state := .outOfService }] ++ State.reset.chain.map.drop 2
    chain.returning := [(2, 800)] }
theorem witness_BalancingStopsAndProbes_return : plain handedBack = true ∧ handedBack.chain.hold.isSome = true
    ∧ handedBack.chain.down = false ∧ handedBack.chain.state ≠ .asleep
    ∧ handedBack.chain.returning.find? (fun r => decide (r.1 = 2)) = some (2, 800) ∧ 200 ≤ elapsed handedBack.now 800
    ∧ (handedBack.chain.entry 2).map (·.state) = some .outOfService
    ∧ handedBack.chain.requests.contains (.returnEcho 2) = false := by decide +kernel
theorem test_returnProbe : after (.returnProbe 2) handedBack (fun t => (t.chain.requests, t.chain.returning)) =
    some ([.returnEcho 2], [(2, 1000)]) := by decide +kernel
/-- The conversion wait of a capture with its broadcast readings. -/
def waited : State :=
  { holding (.conversion 0) with
    plan.captures := [{ capture .held with tb := some 0, bcast := some ⟨40000, 100, 100, false⟩ }] }
/-- The same with no listed address. -/
def waitedNone : State :=
  { holding (.conversion 0) with
    plan.captures := [{ capture .held with tb := some 0, bcast := some ⟨40000, 100, 100, false⟩, items := [] }] }
theorem witness_ReadsBegin : plain waited = true ∧ waited.chain.requests = [] ∧ 1000 ≤ elapsed 1000 0 ∧ waited.chain.down = false
    ∧ (waited.plan.captures.find? Capture.holding).any Capture.paired = true
    ∧ (waited.chain.entry (item 1 false).addr).any readable = true ∧ plain waitedNone = true
    ∧ (waitedNone.plan.captures.find? Capture.holding).any Capture.paired = true := by decide +kernel
theorem test_conversionWaitEnd : after (.conversionWaitEnd 1000) waited (·.chain.line) = some (.sending (frame .read 1 9)) := by decide +kernel
theorem test_conversionWaitEnd_none : after (.conversionWaitEnd 1000) waitedNone (fun t => (t.chain.line, t.plan.captures.map (·.stage))) =
    some (.idle, [.building]) := by decide +kernel
/-- The READ to module 1 has left. -/
def reading : State := holding (.window (frame .read 1 9) 0)
theorem witness_GoodReply : plain reading = true ∧ reading.chain.requests = [] ∧ reading.chain.down = false
    ∧ reading.plan.captures.find? Capture.holding = some (capture .held)
    ∧ (capture .held).items.find? (fun m => decide (m.addr = 1)) = some (item 1 false)
    ∧ reading.chain.entry 1 = some module1 ∧ module1.follows = true ∧ 320 ≤ reading.chain.windowOf (frame .read 1 9)
    ∧ quiet.internalFault = false ∧ ({ quiet with internalFault := true } : ModuleStatus).internalFault = true := by decide +kernel
/-- The same with module 2's turn ended. -/
def readingLast : State :=
  { reading with plan.captures := [{ capture .held with items := [item 1 false, item 2 true] }] }
theorem witness_GoodReply_next : nextToRead reading (capture .held) 1 = some (item 2 false)
    ∧ plain readingLast = true ∧ readingLast.chain.requests = []
    ∧ nextToRead readingLast { capture .held with items := [item 1 false, item 2 true] } 1 = none := by decide +kernel
theorem test_reply : after (.reply ⟨500, 320⟩ 1 9 [30000, 31000, 32000, 33000, 650] quiet 4 none) reading
    (fun t => (t.chain.line, (t.plan.keptAt 1).map (fun r => (r.cells.map (·.1), r.temps.map (·.1), r.current)))) =
    some (.sending (frame .read 2 9), some ([30000, 31000, 32000, 33000], [250], some 110)) := by decide +kernel
theorem test_reply_kept : after (.reply ⟨500, 320⟩ 1 9 [30000, 31000, 32000, 33000, 650] quiet 4 none)
    { reading with chain.map := modifyAddr reading.chain.map 1 fun e => { e with cells := 3 } }
    (fun t => (t.plan.keptAt 1).map (fun r => r.cells.length)) = some (some 4) := by decide +kernel
theorem test_reply_internal_fault : after (.reply ⟨500, 320⟩ 1 9 [30000, 31000, 32000, 33000, 650] ⟨false, false, true⟩ 4 none) reading
    (fun t => ((t.chain.entry 1).map (fun e => (e.state, e.cause)), t.attn.pending .moduleFault, t.sup.faultedSince)) =
    some (some (.faulted, some .internal), true, some 1000) := by decide +kernel
theorem test_reply_wrong_tag : after (.reply ⟨500, 320⟩ 1 8 [30000, 31000, 32000, 33000, 650] quiet 4 none) reading
    (fun t => ((t.chain.entry 1).map (fun e => (e.state, e.miss)), t.chain.errs)) = some (some (.stale, 1), [500]) := by decide +kernel
theorem witness_ReadMisses : answerFails reading (frame .read 1 9) 0 320 (.replyTimeout 320) ∧ reading.chain.state = .up
    ∧ (reading.chain.errs.filter fun t => decide (elapsed 320 t < 10000)).length < 7 ∧ module1.configured = true
    ∧ answerFails reading (frame .read 1 9) 0 320 (.characterGap 320)
    ∧ answerFails reading (frame .read 1 9) 0 320 (.reply ⟨320, 100⟩ 1 8 [] quiet 0 none)
    ∧ plain { reading with chain.map := [{ module1 with miss := 2, state := .stale }, module1] ++ State.reset.chain.map.drop 2 } = true := by
  unfold answerFails; decide +kernel
theorem test_replyTimeout : after (.replyTimeout 320) reading (fun t => ((t.chain.entry 1).map (fun e => (e.state, e.miss)), t.chain.line)) =
    some (some (.stale, 1), .sending (frame .read 2 9)) := by decide +kernel
theorem test_replyTimeout_early : after (.replyTimeout 319) reading (fun t => (t.chain.entry 1).map (·.miss)) = some (some 0) := by decide +kernel
theorem test_characterGap : after (.characterGap 320) { reading with chain.map := [{ module1 with miss := 2, state := .stale }, module1] ++ State.reset.chain.map.drop 2 }
    (fun t => ((t.chain.entry 1).map (fun e => (e.state, e.cause, e.miss)), t.attn.factors, t.sup.faultedSince)) =
    some (some (.faulted, some .missed, 3), 128, some 1000) := by decide +kernel
/-- A survey in progress at an address, its ECHO's reply window open. -/
def surveying (a : Nat) (second : Bool) : State :=
  { base with chain := { base.chain with
      state := .surveying
      origin := .up
      hold := some (.survey a second)
      line := .window (frame .echo a 1) 0 } }
theorem witness_SurveyEchoFails : plain (surveying 3 false) = true ∧ (surveying 3 false).chain.requests = []
    ∧ answerFails (surveying 3 false) (frame .echo 3 1) 0 700 (.replyTimeout 700) ∧ plain (surveying 3 true) = true
    ∧ answerFails (surveying 3 true) (frame .echo 3 1) 0 5 (.characterGap 5)
    ∧ (((surveying 3 true).chain.entry 3).map (·.configured)) = some false := by
  unfold answerFails; decide +kernel
theorem test_echo_again : after (.replyTimeout 700) (surveying 3 false) (fun t => (t.chain.hold, t.chain.line, t.chain.errs)) =
    some (some (.survey 3 true), .sending (frame .echo 3 2), []) := by decide +kernel
theorem test_echo_absent : after (.characterGap 5) (surveying 1 true)
    (fun t => ((t.chain.entry 1).map (fun e => (e.state, e.cause)), t.chain.hold)) =
    some (some (.faulted, some .absent), some (.survey 2 false)) := by decide +kernel
theorem witness_SurveyEchoBack : plain (surveying 1 false) = true ∧ (surveying 1 false).chain.requests = []
    ∧ (surveying 1 false).chain.entry 1 = some module1 ∧ module1.configured = true ∧ module1.state ≠ .outOfService
    ∧ (surveying 1 false).chain.returning = [] ∧ (surveying 1 false).upd.window = none
    ∧ (surveying 1 false).upd.state ≠ .switching := by decide +kernel
theorem test_echoBack : after (.echoBack 650 1 410 2 4 1 7 none) (surveying 1 false)
    (fun t => ((t.chain.entry 1).map (fun e => (e.state, e.delay, e.version)), (atAddr t.chain.survey 1).map (fun v => (v.roundTrip, v.kind)), t.chain.line)) =
    some (some (.inService, 21, 7), some (410, 2), .sending (frame .echo 2 2)) := by decide +kernel
theorem test_echoBack_mismatch : after (.echoBack 650 1 410 2 5 1 7 none) (surveying 1 false)
    (fun t => ((t.chain.entry 1).map (fun e => (e.state, e.cause)), t.attn.factors)) = some (some (.faulted, some .mapMismatch), 128) := by decide +kernel
theorem witness_SurveyEnds : plain (surveying 24 false) = true ∧ (surveying 24 false).chain.requests = []
    ∧ (surveying 24 false).chain.firstUp = true ∧ (surveying 24 false).chain.origin ≠ .asleep
    ∧ (surveying 24 false).power.returning = none := by decide +kernel
theorem test_survey_ends : after (.echoBack 650 24 400 0 4 1 7 none) (surveying 24 false)
    (fun t => (t.chain.state, t.chain.present, t.chain.configured, t.attn.factors)) = some (.up, 3, 2, 64) := by decide +kernel
/-- The CONFIG of a BALANCE slip in slot 3 has left for module 1, the last address. -/
def configured : State :=
  { held .config (.window (frame .config 1 9) 0) with
    port.slots := setAt base.port.slots 3 (some ⟨7, 5, [], some .chain⟩)
    chain.balance := some ⟨3, [(1, 6)], 1, 60, 1, 0, 0, false, 0, false, false⟩ }
theorem witness_ConfigAnswered : plain configured = true ∧ configured.chain.requests = [] ∧ (6 : Half) ≠ 0
    ∧ getAt configured.port.slots 3 = some (some ⟨7, 5, [], some .chain⟩) := by decide +kernel
theorem test_configReply : after (.configReply ⟨200, 150⟩ 1 9 ⟨true, false, false⟩ 3 none) configured
    (fun t => ((t.chain.entry 1).map (fun e => (e.balMask, e.balEnd)), t.mem.num 0x2C0 4, t.mem.readBytes 0x2F0 8)) =
    some (some (6, 61000), 3, [1, 0, 0, 0, 1, 1, 0, 0]) := by decide +kernel
theorem test_configReply_wrong_tag : after (.configReply ⟨200, 150⟩ 1 8 quiet 3 none) configured
    (fun t => (t.chain.errs, (t.chain.entry 1).map (·.balMask), t.chain.line)) =
    some ([], some 0, .sending ⟨.config, 1, 2, [6, 0, 60, 0]⟩) := by decide +kernel
/-- An update of two blocks in DISTRIBUTING, its first BLOCK sent to module 1. -/
def blockSent (live : Bool) (st : UpdState) : State :=
  { held (.firmware .block live) (.window (frame .block 1 9) 0) with
    upd := { base.upd with
      state := st
      header := ⟨.moduleFirmware, 0, 1, 4, 300, []⟩
      staging := List.replicate 300 0
      dist := [⟨1, .sending, none, none, none, false⟩]
      turn := some ⟨0, false, 0, 1⟩
      link := .exchange } }
theorem witness_BlockAcknowledged : (blockSent true .distributing).plan.burst = none ∧ (blockSent true .distributing).upd.pause = none
    ∧ (blockSent true .distributing).upd.current = some (⟨0, false, 0, 1⟩, ⟨1, .sending, none, none, none, false⟩)
    ∧ (blockSent true .distributing).chain.requests = [] ∧ (blockSent true .distributing).upd.aborting = false
    ∧ (blockSent true .distributing).spoiled ⟨1, .sending, none, none, none, false⟩ = false
    ∧ (blockSent true .distributing).chain.state = .up ∧ (blockSent true .distributing).chain.sleepCmd = false
    ∧ (blockSent true .distributing).chain.wake = .none ∧ 0 + 1 < blockCount 300
    ∧ (blockSent true .distributing).power.entry = none ∧ (blockSent true .distributing).power.patrol = none
    ∧ (blockSent true .distributing).power.returning = none ∧ plain (blockSent false .idle) = true := by decide +kernel
/-- A later update in DISTRIBUTING whose first block waits, while the chain carries an exchange that was withdrawn. -/
def blockLater : State :=
  { blockSent false .distributing with
    chain := { (blockSent false .distributing).chain with requests := [.firmware .block] }
    upd := { (blockSent false .distributing).upd with link := .waiting, turn := some ⟨0, false, 0, 0⟩ } }
theorem witness_BlockAcknowledged_later : blockLater.plan.burst = none ∧ blockLater.upd.pause = none
    ∧ blockLater.upd.current = some (⟨0, false, 0, 0⟩, ⟨1, .sending, none, none, none, false⟩)
    ∧ blockLater.upd.switchPending = false ∧ blockLater.spoiled ⟨1, .sending, none, none, none, false⟩ = false
    ∧ blockLater.chain.state = .up ∧ blockLater.chain.sleepCmd = false ∧ blockLater.chain.wake = .none
    ∧ blockLater.power.entry = none ∧ blockLater.power.patrol = none ∧ blockLater.power.returning = none
    ∧ (blockSent false .idle).upd.turn.isSome = true ∧ (blockSent false .idle).chain.requests = []
    ∧ plain { blockSent false .idle with upd.turn := none } = true := by decide +kernel
theorem test_blockAck_later : after (.blockAck ⟨200, 150⟩ 1 0 false 0 none) blockLater
    (fun t => (t.upd.dist.map (·.lastAck), t.upd.turn, t.chain.hold)) =
    some ([none], some ⟨0, false, 0, 1⟩, some (.firmware .block true)) := by decide +kernel
theorem test_blockAck_wrong_index : after (.blockAck ⟨200, 150⟩ 1 1 false 0 none) (blockSent true .distributing)
    (fun t => (t.upd.dist.map (·.lastAck), t.upd.turn, t.chain.line.frame.map (·.tag))) =
    some ([none], some ⟨0, false, 0, 2⟩, some 2) := by decide +kernel
theorem test_blockAck_disregarded : after (.blockAck ⟨200, 150⟩ 1 0 false 0 none) (blockSent false .idle) (fun t => (t.chain.hold, t.upd.dist.map (·.lastAck))) =
    some (none, [none]) := by decide +kernel
/-- SUSPECT since part time 890. -/
def suspect (errs : Nat) : State :=
  { base with chain := { base.chain with state := .suspect, suspectSince := 890, periodStart := 990, periodErrs := errs } }
theorem witness_LinkHealth : plain (suspect 1) = true ∧ (suspect 1).chain.requests = [] ∧ 10 ≤ elapsed (suspect 1).now 990
    ∧ (∀ f sent, base.chain.line ≠ .window f sent) ∧ base.chain.state = .up := by
  refine ⟨by decide +kernel, by decide +kernel, by decide +kernel, fun f sent h => ?_, by decide +kernel⟩
  rw [(by decide +kernel : base.chain.line = .idle)] at h
  cases h
theorem test_strayCharacters : after (.strayCharacters 9000) { base with chain.errs := [1, 2, 3, 4, 5, 6, 7] } (fun t => (t.chain.state, t.chain.suspectSince)) =
    some (.suspect, 1000) := by decide +kernel
theorem test_strayCharacters_old : after (.strayCharacters 10001) { base with chain.errs := [1, 2, 3, 4, 5, 6, 7] } (fun t => (t.chain.state, t.chain.errs)) =
    some (.up, [2, 3, 4, 5, 6, 7, 10001]) := by decide +kernel
theorem test_suspectPeriodEnd : after .suspectPeriodEnd (suspect 1) (fun t => (t.chain.state, t.chain.errs)) = some (.up, []) := by decide +kernel
theorem test_suspectPeriodEnd_more : after .suspectPeriodEnd (suspect 2) (fun t => (t.chain.state, t.chain.periodStart, t.chain.periodErrs)) =
    some (.suspect, 1000, 0) := by decide +kernel
/-- The chain is down and its automatic survey is due. -/
def chainDown : State := { base with chain := { base.chain with state := .down, surveyTimer := some 800 } }
theorem witness_ChainLostAndSurveyed : plain (suspect 1) = true ∧ (suspect 1).store.active.chainHold < (elapsed (suspect 1).now 890 : Nat)
    ∧ plain chainDown = true ∧ 200 ≤ elapsed chainDown.now 800 ∧ chainDown.chain.free = true := by decide +kernel
theorem test_chainLossHold : after .chainLossHold (suspect 1) (fun t => (t.chain.state, t.chain.surveyTimer, t.attn.factors, t.ev.inbox.map (·.kind))) =
    some (.down, some 1000, 32, [.chainDown]) := by decide +kernel
theorem test_autoSurveyTimer : after .autoSurveyTimer chainDown (fun t => (t.chain.state, t.chain.origin, t.chain.line)) =
    some (.surveying, .down, .sending (frame .echo 1 2)) := by decide +kernel

/-! ### The converter and the clocks -/

theorem witness_SampleLatchesAndCompletes : base.calm ∧ base.awake ∧ base.conv.scanning = true ∧ base.conv.estimate = none
    ∧ base.sup.weld = none ∧ base.sup.deferral = none :=
  ⟨(plain_meets base_plain).2.1, (plain_meets base_plain).2.2.2.2, by decide +kernel⟩
theorem test_sampleLatch : after (.sampleLatch ⟨-60001, -5, 120000, 3200⟩) base
    (fun t => (t.conv.lastLatch, t.conv.latched)) =
    some (100, some ⟨100, -60000, 0, 120000, 3200, true, false, true, true⟩) := by decide +kernel
/-- A sample has been latched; the charge counter stands just below its extreme. -/
def latched : State := { base with conv := { base.conv with latched := some (sample 900000 100 40000 39000), charge := 2 ^ 63 - 100 } }
theorem test_sampleComplete_charge : after .sampleComplete latched (fun t => (t.conv.charge, t.conv.chargeSat, t.conv.history.length, t.conv.latched)) =
    some (2 ^ 63 - 1, true, 2, none) := by decide +kernel
theorem test_sampleComplete_precharge : after .sampleComplete { latched with sup := { base.sup with state := .precharging, close := some ⟨3, 700, 950, 800, 0, 0, 0⟩ } }
    (fun t => (t.sup.state, t.sup.close.map (·.reachedMs), t.sup.coils)) = some (.closing, some 300, ⟨false, false, true⟩) := by decide +kernel
theorem witness_MillisecondPasses : base.canonical ∧ base.calm ∧ base.power.state = .run ∧ base.conv.scanning = true ∧ deep.canonical ∧ deep.calm
    ∧ deep.power.state = .deep ∧ deep.conv.scanning = false ∧ deep.power.timerRunning = true :=
  have h := plain_meets (s := deep) (by decide +kernel)
  ⟨(plain_meets base_plain).1, (plain_meets base_plain).2.1, by decide +kernel, by decide +kernel, h.1, h.2.1, by decide +kernel⟩
theorem test_partTimeTick : after (.partTimeTick 0) { base with sup.silence := 5, conv.recNumber := 65535 }
    (fun t => (t.conv.part, t.conv.snapTimer, t.conv.recNumber, t.sup.silence)) = some (1001, 1, 1, 6) := by decide +kernel
theorem test_partTimeTick_deep : after (.partTimeTick 200) { deep with power := { deep.power with timer := 5, compRun := 7 } }
    (fun t => (t.power.timer, t.conv.unsampled, t.power.compRun, t.sup.silence)) = some (4, 1, 0, 0) := by decide +kernel

/-! ### The settings store -/

/-- The snapshot timer is at its end. -/
def snapped : State := { base with conv := { base.conv with snapTimer := 600000, charge := 5 } }
theorem witness_WritesQueuedAndBegun : plain snapped = true ∧ snapped.power.state = .run ∧ 600000 ≤ snapped.conv.snapTimer
    ∧ base.store.running = none ∧ base.sup.surge = false ∧ base.store.startUp = false ∧ ({ base with sup.lowSupply := true } : State).sup.surge = true := by decide +kernel
theorem test_snapshotTimer : after .snapshotTimer snapped (fun t => (t.conv.snapTimer, t.store.queue)) =
    some (0, [⟨.snapshot ⟨5, false⟩, [.snapTimer]⟩]) := by decide +kernel
/-- A wear write waits. -/
def writing : State := { base with store := { base.store with queue := [⟨.wearPos 10, [.wear]⟩] } }
theorem test_writeBegin : after .writeBegin writing (fun t => (t.store.queue, t.store.running)) =
    some ([], some ⟨⟨.wearPos 10, [.wear]⟩, .b, 1000⟩) := by decide +kernel
theorem test_writeBegin_surge : after .writeBegin { writing with sup := { base.sup with lowSupply := true } } (fun t => (t.store.queue.length, t.store.running)) =
    some (1, none) := by decide +kernel
/-- A write of the lockout record runs over a valid copy. -/
def lockWriting : State :=
  { base with store := { base.store with
      running := some ⟨⟨.lockout ⟨true, 990, 39000, 40000⟩, [.weldSet]⟩, .b, 995⟩
      work := { base.store.work with lockout := ⟨false, 7, 0, 0⟩ }
      nv := { base.store.nv with lockout := ⟨.valid ⟨false, 7, 0, 0⟩ 65535, .erased⟩ } } }
theorem witness_LockoutWriteEnds : plain lockWriting = true ∧ lockWriting.chain.requests = []
    ∧ lockWriting.store.running = some ⟨⟨.lockout ⟨true, 990, 39000, 40000⟩, [.weldSet]⟩, .b, 995⟩ ∧ 5 ≤ elapsed lockWriting.now 995
    ∧ lockWriting.store.nv.lockout = ⟨.valid ⟨false, 7, 0, 0⟩ 65535, .erased⟩
    ∧ lockWriting.store.nv.lockout.choice = some (false, ⟨false, 7, 0, 0⟩, 65535) := by decide +kernel
theorem test_writeEnd : after (.writeEnd true) lockWriting (fun t => (t.store.work.lockout.set, t.store.nv.lockout.c1)) =
    some (true, .valid ⟨true, 990, 39000, 40000⟩ 1) := by decide +kernel
theorem test_writeEnd_failed : after (.writeEnd false) lockWriting (fun t => (t.store.work.lockout, t.store.nv.lockout.c1, t.store.faultCause, t.store.faultCount)) =
    some (⟨false, 7, 0, 0⟩, .faulted, some .writeFailed, 1) := by decide +kernel
/-- Two milliseconds after the reset. -/
def started : State := { State.reset with conv := { State.reset.conv with part := 2 } }
theorem witness_StartUpReadEnds : started.store.startUp = true ∧ 2 ≤ elapsed started.now 0 := by decide +kernel
theorem test_startUpReadEnd : after .startUpReadEnd started (fun t => (t.sup.state, t.sup.waiting, t.store.activeBank, t.store.active.cellMax, t.store.outcome)) =
    some (.open_, false, some .a, 42500, .markedBank) := by decide +kernel
theorem test_startUpReadEnd_restore : after .startUpReadEnd started (fun t => (t.conv.recNumber, t.mem.num 0x54 2, t.conv.restored)) =
    some (cycle 65535 started.conv.recNumber, cycle 65535 started.conv.recNumber, false) := by decide +kernel
theorem test_startUpReadEnd_locked : after .startUpReadEnd { started with store := { started.store with nv := { factoryNv with lockout := ⟨.faulted, .erased⟩ } } }
    (fun t => (t.sup.state, t.attn.factors, t.store.lost)) = some (.lockedOut, 16388, 64) := by decide +kernel

/-! ### The event recorder -/

/-- An event of a kind. -/
def event (k : EventKind) : SentEvent := ⟨k, 0, ⟨false, false, false⟩, ⟨true, false, false⟩, .silence 1 2, [], none, false, false, false⟩
/-- An event waits to be taken; the chain is held. -/
def eventSent (k : EventKind) : State :=
  { held .config (.sending (frame .config 1 9)) with ev := { base.ev with inbox := [event k], next := 16777215 } }
theorem witness_EventTaken : plain (eventSent .silence) = true ∧ (eventSent .silence).chain.requests = []
    ∧ firstEmpty 0 (eventSent .silence).ev.slots = some 0 ∧ (eventSent .silence).ev.holds 16777215 = false
    ∧ plain (eventSent .opened) = true ∧ (eventSent .opened).newest = some (sample 899900 100 40000 100)
    ∧ (eventSent .opened).conv.scanning = true ∧ (eventSent .opened).ev.filling.length < 2
    ∧ (eventSent .opened).plan.captures = [] ∧ (eventSent .opened).chain.hold.isSome = true
    ∧ (eventSent .opened).chain.down = false ∧ (eventSent .opened).chain.state ≠ .asleep := by decide +kernel
theorem test_eventTake : after (.eventTake 0) (eventSent .silence) (fun t => ((t.ev.at 0).map (fun r => (r.complete, r.seq, r.part)), t.ev.next, t.attn.factors)) =
    some (some (true, 16777215, 1000), 1, 65536) := by decide +kernel
theorem test_eventTake_window : after (.eventTake 0) (eventSent .opened) (fun t => ((t.ev.at 0).map (fun r => (r.complete, r.tn, r.pre.length)), t.ev.filling, t.chain.requests)) =
    some (some (false, 899900, 1), [0], [.burst]) := by decide +kernel

/-! ### The capture planner -/

/-- Plan 3 is due over the modules 1 and 2, with a pause; the chain has a hold. -/
def planDue (pause : Nat) (h : Option Hold) (busy : Bool) : State :=
  { base with
    chain := { base.chain with hold := h }
    plan := { base.plan with
      inForce := List.replicate 3 (⟨false, 5, 0, 0, .cells, 0, false⟩ : Plan) ++ [⟨true, 100, 0, 3, .both, pause, true⟩]
        ++ List.replicate 4 ⟨false, 5, 0, 0, .cells, 0, false⟩
      captures := if busy then [newCapture 3 3 .both true] else [] } }
theorem witness_PlanFallsDue : plain (planDue 0 none false) = true ∧ (planDue 0 none false).chain.requests = []
    ∧ getAt (planDue 0 none false).plan.dueDone 3 = some false ∧ (planDue 0 none false).now.toNat % 100 = 0
    ∧ (∀ j, j < 3 → (planDue 0 none false).isDue j = false) ∧ (planDue 0 none false).chain.selectsConfigured 3 = true
    ∧ (planDue 0 none false).chain.selectsConfigured 4 = false
    ∧ (planDue 0 none false).plan.busy 3 = false ∧ (planDue 0 none true).plan.busy 3 = true
    ∧ (planDue 0 none false).chain.free = true ∧ (planDue 0 none false).chain.state = .up
    ∧ (planDue 7 (some .config) false).chain.hold.isSome = true ∧ (planDue 7 (some .config) false).chain.down = false := by decide +kernel
theorem test_planDue_granted : after (.planDue 3) (planDue 0 none false) (fun t => (t.chain.line, t.plan.captures.map (fun c => (c.stage, c.items.map (·.addr))))) =
    some (.sending (frame .capture 31 1), [(.held, [1, 2])]) := by decide +kernel
theorem test_planDue_overrun : after (.planDue 3) (planDue 0 none true) (fun t => (t.attn.factors, getAt t.plan.overrun 3)) =
    some (4096, some true) := by decide +kernel
/-- The pause of plan 3 has passed on a chain that is held. -/
def paused : State :=
  { planDue 7 (some .config) false with plan.captures := [{ newCapture 3 3 .both true with pause := 7, stage := .pausing 993 }] }
/-- The second capture of a burst is due on a chain that is held. -/
def bursting : State := { held .config .idle with plan.burst := some ⟨5, 980, 1⟩ }
theorem witness_CapturesAskForTheChain : plain paused = true ∧ paused.chain.hold.isSome = true ∧ paused.chain.down = false
    ∧ paused.plan.captures.any (Capture.pauseOver 3 paused.now) = true ∧ paused.chain.requests.contains (.capture 3) = false
    ∧ plain { bursting with plan.burst := none } = true ∧ bursting.plan.burst = some ⟨5, 980, 1⟩
    ∧ 20 * 1 ≤ elapsed bursting.now 980 ∧ bursting.plan.burstRuns 5 = false ∧ bursting.chain.requests.contains .burst = false := by decide +kernel
theorem test_pauseWaitEnd : after (.pauseWaitEnd 3) paused (fun t => (t.chain.requests, t.plan.captures.map (·.stage))) =
    some ([.capture 3], [.requested]) := by decide +kernel
theorem test_burstCaptureDue : after .burstCaptureDue bursting (fun t => (t.chain.requests, t.plan.burst, t.plan.captures.map (·.link))) =
    some ([.burst], some ⟨5, 980, 2⟩, [5]) := by decide +kernel
/-- A capture waits to be built, its readings whole. -/
def building (surge : Bool) (held : Bool) : State :=
  { base with
    plan := { base.plan with
      setSeq := 4294967295
      pages := List.replicate 4 ⟨0, held, false⟩
      captures := [{ capture .building with
        surge := surge
        bcast := some ⟨14000, 100, 100, false⟩
        items := [{ item 1 true with reading := some ⟨List.replicate 4 (35000, false), [(250, false)], some 100, false, false, 0⟩ },
          { item 2 true with reading := some ⟨List.replicate 4 (35000, false), [(250, false)], some 100, false, false, 0⟩ }] }] } }
theorem witness_SetIsBuilt : (building true false).plan.writing = none
    ∧ (((building true false).plan.captures.find? (fun c => decide (c.stage = .building))).map
        fun c => (c.bcast, c.surge, c.slot, decide (c.plan ≤ 7), c.publish)) =
      some (some ⟨14000, 100, 100, false⟩, true, none, true, true)
    ∧ plain (building true false) = true ∧ (building true false).chain.requests = []
    ∧ (building true false).plan.choosePage = some 0 ∧ (building true true).plan.choosePage = none
    ∧ slipsOk (building true false) = true ∧ slipsOk (building true true) = true := by decide +kernel
theorem test_setBuilt : after .setBuilt (building false false) (fun t => (t.plan.setSeq, t.plan.writing, t.plan.fresh.isSome, t.plan.implausible)) =
    some (1, some ⟨0, 4294967295⟩, false, 1) := by decide +kernel
theorem test_setBuilt_dropped : after .setBuilt (building true true) (fun t => (t.plan.writing, t.attn.factors)) =
    some (none, 512) := by decide +kernel
/-- Page 2 is written with sequence 6 and a pending hold. -/
def pageWriting : State :=
  { base with plan := { base.plan with
      writing := some ⟨2, 6⟩
      pages := [⟨0, false, false⟩, ⟨0, false, false⟩, ⟨0, false, true⟩, ⟨0, false, false⟩] } }
theorem witness_PageWriteEnds : plain pageWriting = true ∧ pageWriting.chain.requests = [] ∧ pageWriting.plan.writing = some ⟨2, 6⟩
    ∧ getAt pageWriting.plan.pages 2 = some ⟨0, false, true⟩ := by decide +kernel
theorem test_pageWriteEnd : after .pageWriteEnd pageWriting (fun t => (t.mem.num 0x3800 4, t.mem.num 0x3FFC 4, getAt t.plan.pages 2, t.mem.readBytes 4 8)) =
    some (6, 6, some ⟨6, true, false⟩, [2, 0, 0, 0, 6, 0, 0, 0]) := by decide +kernel

/-! ### The contactor supervisor -/

/-- The supervisor in a state with MAIN_NEG energized since part time 900. -/
def supIn (st : SupState) : State :=
  { base with sup := { base.sup with state := st, mainNeg := ⟨true, 900, 940⟩ } }
theorem witness_CoilReports : (supIn .closed).sup.mainNeg.on = true ∧ elapsed (supIn .closed).now 940 < 2 ^ 31 ∧ plain (supIn .closed) = true
    ∧ (supIn .closed).chain.requests = [] ∧ (supIn .closed).store.active.coilMin ≤ (300 : Nat) ∧ ((299 : Nat) : Int) < (supIn .closed).store.active.coilMin := by decide +kernel
theorem test_coilReport : after (.coilReport .mainNeg 300 none) (supIn .closed) (fun t => (t.sup.state, t.sup.mainNeg)) =
    some (.closed, ⟨true, 900, 1040⟩) := by decide +kernel
theorem test_coilReport_fault : after (.coilReport .mainNeg 299 none) (supIn .closed) (fun t => (t.sup.state, t.sup.coils, t.ev.inbox.map (·.kind), t.store.queue.map (·.payload))) =
    some (.open_, ⟨false, false, false⟩, [.coilFault], [.wearNeg 1]) := by decide +kernel
theorem witness_InrushAndSilence : plain base = true ∧ elapsed base.now 1000 < 2 ^ 31
    ∧ plain { base with sup := { base.sup with warn := true, silence := 700, once := ⟨true, 500, true, false⟩ } } = true
    ∧ 500 + base.store.active.grace.toNat ≤ 700 := by decide +kernel
theorem test_inrushEnd : after .inrushEnd { base with sup.inrush := some 1000 } (·.sup.inrush) = some none := by decide +kernel
theorem test_inrushEnd_early : after .inrushEnd { base with sup.inrush := some 1001 } (·.sup.inrush) = some (some 1001) := by decide +kernel
theorem test_silenceWarn : after .silenceWarn { base with sup := { base.sup with silence := 500, once := ⟨true, 500, true, false⟩ } } (fun t => (t.sup.warn, t.attn.factors)) =
    some (true, 16) := by decide +kernel
theorem test_silence : after .silence { base with sup := { base.sup with silence := 700, warn := true, once := ⟨true, 500, true, false⟩ } }
    (fun t => (t.sup.silence, t.sup.lapsed, t.ev.inbox.map (·.kind))) = some (0, true, [.silence]) := by decide +kernel
/-- A close is under way in slot 3. -/
def closing (st : SupState) : State :=
  { supIn st with
    port.slots := setAt base.port.slots 3 (some ⟨1, 5, [], some .supervisor⟩)
    sup := { (supIn st).sup with
      settleAt := 970
      precharge := ⟨true, 900, 940⟩
      close := some ⟨3, 200, 950, 800, 300, 39000, 40000⟩ } }
theorem witness_CloseEnds : plain (closing .precharging) = true ∧ base.chain.requests = [] ∧ getAt (closing .closing).port.slots 3 ≠ some none
    ∧ 800 ≤ elapsed (closing .precharging).now 200 ∧ 30 ≤ elapsed (closing .closing).now 970 := by decide +kernel
theorem test_prechargeTimeout : after .prechargeTimeout (closing .precharging) (fun t => (t.sup.state, t.sup.coils, t.mem.readBytes 0x2F0 2, t.ev.inbox.map (·.kind))) =
    some (.open_, ⟨false, false, false⟩, [3, 10], [.prechargeTimeout]) := by decide +kernel
theorem test_mainSettleEnd : after .mainSettleEnd (closing .closing) (fun t => (t.sup.state, t.sup.coils, t.mem.readBytes 0x2F0 6, t.ev.inbox.map (·.kind))) =
    some (.closed, ⟨true, false, false⟩, [1, 0, 0, 0, 0x2C, 1], [.closedDone]) := by decide +kernel
/-- The first step of an opening was 20 ms ago. -/
def opening : State := { supIn .opening with sup := { (supIn .opening).sup with opening := some ⟨[], 100, [.silence], 980⟩ } }
/-- A weld window has passed. -/
def weldPassed : State := { supIn .weldCheck with sup := { base.sup with state := .weldCheck, weld := some ⟨0, 1000, false, false⟩ } }
theorem witness_OpeningAndWeldWindow : opening.sup.opening = some ⟨[], 100, [.silence], 980⟩ ∧ 20 ≤ elapsed opening.now 980
    ∧ weldPassed.sup.weld = some ⟨0, 1000, false, false⟩ ∧ 1000 ≤ elapsed weldPassed.now 0
    ∧ weldPassed.newest = some (sample 899900 100 40000 100) ∧ plain { weldPassed with conv.history := [] } = true
    ∧ ({ weldPassed with conv.history := [] } : State).newest = none := by decide +kernel
theorem test_openingSecondStep : after .openingSecondStep opening (fun t => (t.sup.state, t.sup.mainNeg.on, t.sup.weld)) =
    some (.weldCheck, false, some ⟨1000, 1500, false, false⟩) := by decide +kernel
theorem test_weldWindowEnd : after .weldWindowEnd weldPassed (fun t => (t.sup.state, t.sup.weld)) = some (.open_, none) := by decide +kernel
theorem test_weldWindowEnd_welded : after .weldWindowEnd { weldPassed with conv.history := [sample 899900 0 40000 36000] }
    (fun t => (t.sup.state, t.attn.factors, t.ev.inbox.map (·.kind))) = some (.lockedOut, 5, [.weldSuspect]) := by decide +kernel
/-- CLOSED with a current in 10 mA. -/
def closedAt (i : Int) : State :=
  { supIn .closed with
    conv := { base.conv with history := [sample 899900 i 40000 39000] }
    sup := { (supIn .closed).sup with mainPos := ⟨true, 900, 940⟩, hardDue := true, lossDue := true } }
theorem witness_CausesOpen : (closedAt 34999).newest = some (sample 899900 34999 40000 39000) ∧ (closedAt 34999).sup.state.isClosing = true
    ∧ (closedAt 34999).sup.deferral = none ∧ (((34999 : Int).natAbs : Int) < (closedAt 34999).store.active.breakLimit)
    ∧ ((closedAt 35000).store.active.breakLimit ≤ ((35000 : Int).natAbs : Int)) ∧ fallsDue (closedAt 34999) .hardCurrent ⟨.hardCurrent, 0, 0, 0, 0⟩
    ∧ fallsDue (closedAt 34999) .chainLoss ⟨.chainLoss, 0, 0, 0, 2⟩ := by
  unfold fallsDue; decide +kernel
theorem test_hardCurrent : after .hardCurrent (closedAt 34999) (fun t => (t.sup.state, t.sup.coils, t.sup.hardDue, t.ev.inbox.map (fun e => (e.kind, e.cause)))) =
    some (.opening, ⟨true, false, false⟩, false, [(.autoOpen, 4)]) := by decide +kernel
theorem test_chainLoss_deferred : after .chainLoss (closedAt 35000) (fun t => (t.sup.state, t.sup.coils, t.sup.deferral)) =
    some (.closed, ⟨true, false, true⟩, some ⟨1000, 300, [⟨.chainLoss, 0, 0, 0, 2⟩]⟩) := by decide +kernel
theorem test_deferralLimit : after .deferralLimit { closedAt 35000 with sup := { (closedAt 35000).sup with deferral := some ⟨700, 300, [⟨.silence, 0, 0, 0, 9⟩]⟩ } }
    (fun t => (t.sup.state, t.sup.deferral, t.ev.inbox.map (·.kind), t.store.queue.map (·.payload))) =
    some (.opening, none, [.autoOpen, .highCurrentBreak], [.wearPos 1000]) := by decide +kernel

/-! ### The update engine -/

/-- RECEIVING with buffer A filled with chunk 0 of 4 bytes, which waits. -/
def receiving (idx : Nat) : State :=
  { withBytes [(0x4800, le 4 idx ++ [0x4F, 0xD8, 0xFB, 0x2E, 4, 0, 0, 1]), (0x5000, [1, 2, 3, 4])] base with
    upd := { base.upd with
      state := .receiving
      header := ⟨.limitImage, 0, 0, 4, 4, []⟩
      waiting := [.a] } }
/-- One byte has been taken already, with a last accepted chunk. -/
def repeated (last : Option Nat) : State :=
  { receiving 0 with upd := { (receiving 0).upd with staging := [9], lastAcc := last } }
/-- The chunk is being absorbed, with a CRC-32. -/
def absorbing (crc : Word) : State :=
  { receiving 0 with upd := { (receiving 0).upd with waiting := [], absorbing := some ⟨.a, 999, 0, 4, crc, []⟩ } }
theorem witness_ChunkAbsorption : plain (receiving 0) = true ∧ (receiving 0).upd.waiting = [.a] ∧ (receiving 0).upd.absorbing = none
    ∧ (readDescriptor (receiving 0).mem .a).length = 4 ∧ (readDescriptor (receiving 0).mem .a).index = (receiving 0).upd.expected
    ∧ (receiving 0).upd.lastAcc ≠ some 0 ∧ (readDescriptor (receiving 1).mem .a).index ≠ (receiving 1).upd.expected
    ∧ plain (absorbing 7) = true ∧ 1 ≤ elapsed (absorbing 7).now 999
    ∧ crc32 ((absorbing 7).mem.readBytes (bufferAt .a) 4) ≠ 7
    ∧ crc32 ((absorbing 7).mem.readBytes (bufferAt .a) 4) = 0xB63CFBCD := by decide +kernel
theorem witness_ChunkAbsorption_givenBack :
    ({ receiving 0 with upd := { (receiving 0).upd with state := .idle } } : State).upd.state ≠ .receiving
    ∧ (readDescriptor (withBytes [(0x4808, [0, 0])] (receiving 0)).mem .a).length = 0
    ∧ 4096 < (readDescriptor (withBytes [(0x4808, [1, 16])] (receiving 0)).mem .a).length
    ∧ (repeated (some 0)).upd.lastAcc = some (readDescriptor (receiving 0).mem .a).index
    ∧ (repeated none).upd.header.length < (repeated none).upd.staging.length + 4
    ∧ plain (repeated none) = true ∧ plain (withBytes [(0x4808, [1, 16])] (receiving 0)) = true := by decide +kernel
theorem test_absorptionStart_notReceiving :
    after .absorptionStart { receiving 0 with upd := { (receiving 0).upd with state := .idle } } (fun t => (t.upd.absorbing, t.mem.readBytes 0x4808 4, t.upd.rej)) =
    some (none, [4, 0, 4, 4], 1) := by decide +kernel
theorem test_absorptionStart_duplicate : after .absorptionStart (repeated (some 0)) (fun t => (t.upd.absorbing, t.mem.readBytes 0x480B 1, t.upd.dup, t.upd.rej)) =
    some (none, [3], 1, 0) := by decide +kernel
theorem test_absorptionStart_length : after .absorptionStart (repeated none) (fun t => (t.upd.absorbing, t.mem.readBytes 0x4808 4, t.upd.rej)) =
    some (none, [4, 0, 3, 4], 1) := by decide +kernel
theorem test_absorptionStart : after .absorptionStart (receiving 0) (fun t => (t.upd.absorbing.map (·.index), bufferState t.mem .a)) =
    some (some 0, 2) := by decide +kernel
theorem test_absorptionStart_order : after .absorptionStart (receiving 1) (fun t => (t.upd.absorbing, t.mem.readBytes 0x4808 4, t.upd.rej)) =
    some (none, [4, 0, 1, 4], 1) := by decide +kernel
theorem test_absorptionEnd : after .absorptionEnd (absorbing 0xB63CFBCD) (fun t => (t.upd.staging, t.upd.expected, bufferState t.mem .a)) =
    some ([1, 2, 3, 4], 1, 0) := by decide +kernel
theorem test_absorptionEnd_crc : after .absorptionEnd (absorbing 7) (fun t => (t.upd.staging, t.mem.readBytes 0x4808 4)) =
    some ([], [4, 0, 2, 4]) := by decide +kernel
/-- CHECKING for an UPDATE_CHECK in slot 3, 1 ms after its start. -/
def checking : State :=
  { base with
    port.slots := setAt base.port.slots 3 (some ⟨12, 5, [], some .update⟩)
    upd := { base.upd with
      state := .checking
      slip := some (.check, 3)
      header := ⟨.limitImage, 0, 0, 4, 1024, []⟩
      checkAt := 999
      staging := [1]
      runCrc := crc32On crc32Init [1] } }
theorem witness_CheckEnds : plain checking = true ∧ (1024 + 1023) / 1024 ≤ elapsed checking.now 999 ∧ checking.upd.aborts = []
    ∧ getAt checking.port.slots 3 = some (some ⟨12, 5, [], some .update⟩) ∧ slipsOk checking = true
    ∧ crc32On crc32Init (rereadStaging checking.upd.staging [] []) = checking.upd.runCrc
    ∧ crc32On crc32Init (rereadStaging checking.upd.staging [0] [3]) ≠ checking.upd.runCrc := by decide +kernel
theorem test_endCheck : (checking.endCheck true true).upd.state = .verified ∧ (checking.endCheck true true).mem.readBytes 0x2F0 2 = [1, 0]
    ∧ (checking.endCheck true false).upd.outcome = .tagFail := by decide +kernel
theorem test_checkEnd_fault : after (.checkEnd [0] [3]) checking (fun t => (t.upd.state, t.upd.outcome, t.mem.readBytes 0x2F0 2, t.ev.inbox.map (·.kind))) =
    some (.idle, .stagingFault, [3, 29], [.updateOutcome]) := by decide +kernel
/-- A chain pause of 10 s has passed. -/
def chainPaused (st : UpdState) : State :=
  { blockSent true st with
    conv := { base.conv with part := 11000 }
    chain := { base.chain with state := .suspect }
    upd := { (blockSent true st).upd with pause := some 1000, link := .none } }
theorem witness_UpdateTimers_pause : (chainPaused .distributing).power.entry = none ∧ (chainPaused .distributing).power.patrol = none
    ∧ (chainPaused .distributing).power.returning = none ∧ (chainPaused .distributing).plan.burst = none
    ∧ (chainPaused .distributing).chain.requests = [] ∧ (chainPaused .distributing).upd.pause = some 1000
    ∧ 10000 ≤ elapsed (chainPaused .distributing).now 1000 := by decide +kernel
theorem test_chainPauseLimit : after .chainPauseLimit (chainPaused .distributing) (fun t => (t.upd.state, t.upd.outcome, t.upd.dist.map (fun d => (d.state, d.cause)))) =
    some (.idle, .chainLost, [(.failed, some .chainLost)]) := by decide +kernel
/-- A switch window of module 1 in SWITCHING, on a chain that is held. -/
def switching (since : Ms) : State :=
  { held .config .idle with
    conv := { base.conv with part := 3000 }
    chain := { (held .config .idle).chain with map := [{ module1 with state := .outOfService }, module1] ++ State.reset.chain.map.drop 2 }
    upd := { base.upd with
      state := .switching
      header := ⟨.moduleFirmware, 0, 1, 4, 300, []⟩
      dist := [⟨1, .sent, none, some 1, none, false⟩]
      turn := some ⟨0, false, 0, 0⟩
      window := some ⟨since, 0, none⟩ } }
/-- The return watch of module 1 has passed. -/
def watched : State := { switching 0 with conv := { base.conv with part := 11000 }, upd := { base.upd with watches := [(1, 1000)] } }
theorem witness_UpdateTimers : plain (switching 2800) = true ∧ (switching 2800).chain.hold.isSome = true ∧ (switching 2800).chain.down = false
    ∧ 200 * (0 + 1) ≤ elapsed (switching 2800).now 2800 ∧ elapsed (switching 2800).now 2800 < 2000
    ∧ (switching 2800).chain.requests.contains (.firmware .probe) = false
    ∧ (switching 1000).upd.current = some (⟨0, false, 0, 0⟩, ⟨1, .sent, none, some 1, none, false⟩)
    ∧ 2000 ≤ elapsed (switching 1000).now 1000 ∧ plain watched = true ∧ watched.chain.requests = []
    ∧ watched.upd.watches.find? (fun w => decide (w.1 = 1)) = some (1, 1000) ∧ 10000 ≤ elapsed watched.now 1000 := by decide +kernel
theorem test_switchProbe : after .switchProbe (switching 2800) (fun t => (t.upd.window.map (·.probes), t.chain.requests)) =
    some (some 1, [.firmware .probe]) := by decide +kernel
theorem test_switchWindowEnd : after .switchWindowEnd (switching 1000) (fun t => (t.upd.dist.map (·.state), t.upd.watches, t.upd.outcome, t.ev.inbox.map (·.kind))) =
    some ([.rollback], [(1, 3000)], .partial_, [.moduleRollback, .updateOutcome]) := by decide +kernel
theorem test_returnLimit : after (.returnLimit 1) watched (fun t => ((t.chain.entry 1).map (·.state), t.upd.watches)) =
    some (some .inService, []) := by decide +kernel

/-! ### The memory link: transactions -/

theorem witness_HostWrites_transactions : getAt ([1, 2, 3] : List Word) 0 = some 1 ∧ getAt ([1, 2, 3] : List Word) 2 = some 3
    ∧ 4 * ((0x7FFC : BitVec 16).toNat / 4) + 4 * 0 = 0x7FFC ∧ 4 * ((0x7FFC : BitVec 16).toNat / 4) + 4 * 2 = 0x8004
    ∧ getAt ([1, 2] : List Word) 1 = some 2 ∧ 4 * ((0xFFFC : BitVec 16).toNat / 4) + 4 * 1 = 0x10000
    ∧ 4 * ((0x8000 : BitVec 16).toNat / 4) + 4 * 0 = 0x8000 ∧ 4 * ((0x800C : BitVec 16).toNat / 4) + 4 * 0 = 0x800C := by
  decide
theorem test_transaction_runs_on : Transaction.commands ⟨0xB2, 0x7FFE, [1, 2, 3], 0⟩ =
    [.wakeLink, .hostWordWrite 0x7FFC 1, .registerWrite 0x8000 2, .note 3] := by decide
theorem test_transaction_past_the_end : Transaction.commands ⟨0xB2, 0xFFFC, [1, 2], 0⟩ = [.wakeLink, .registerWrite 0xFFFC 1, .wakeLink]
    ∧ Transaction.commands ⟨0x4D, 0, [], 2⟩ = [.wakeLink, .wakeLink, .wakeLink]
    ∧ base.drives 0x4D 0xFFFC 1 = some 0 ∧ base.drives 0xB2 0xFFFC 1 = none := by decide +kernel

/-! ### Slips answered at their taking, and those that begin -/

/-- The same with argument bytes. -/
def postedWith (kind : Byte) (args : List Byte) (s : State) : State := posted kind (withBytes [(0x2C8, args)] s)
/-- CLOSED, with no settings. -/
def closedSup : State := { base with sup := { base.sup with state := .closed } }
/-- The settings are set. -/
def settingsSet : State := { base with sup := { base.sup with once := ⟨true, 500, true, false⟩ } }
/-- A SURVEY slip is in flight. -/
def surveySlipped : State := { base with chain := { base.chain with surveySlip := some 5 } }
/-- Slips of the 14 kinds, each with its arguments and a state in which it is answered at its taking. -/
def answered : List (Byte × List Byte × State) :=
  [(1, [], base), (2, [], base), (3, [], base), (4, [], settingsSet), (5, [], closedSup), (6, [], surveySlipped), (7, [], base),
    (8, [], base), (9, [], base), (10, [], base), (11, [], base), (12, [], base), (13, [], base), (14, [], base)]
/-- A posted slip, and whether its checks answer it at its taking. -/
def atOnce (kind : Byte) (args : List Byte) (s : State) : Bool :=
  let t := postedWith kind args s
  plain t && t.chain.requests.isEmpty && decide (t.power.state ≠ .enteringDeep) && t.posted 3
    && ((slipKindOf (Memory.read t.mem (slotAt 3 + 4))).bind fun q => answerAtOnce t (slipArgs t 3) q).isSome
theorem witness_PostHandledAtOnce_kinds : answered.all (fun x => atOnce x.1 x.2.1 x.2.2) = true := by decide +kernel
/-- LOCKED_OUT at rest. -/
def lockedOut : State := { base with sup := { base.sup with state := .lockedOut } }
theorem witness_CloseBegins_clearLockout : postedSlip (posted 3 lockedOut) 0x01000003 [] 3 (some .clearLockout)
    ∧ plain (posted 3 lockedOut) = true ∧ lockedOut.chain.requests = [] ∧ lockedOut.sup.slipInFlight = false
    ∧ lockedOut.sup.waiting = false ∧ lockedOut.sup.state = .lockedOut := by
  unfold postedSlip; decide +kernel
theorem test_post_clearLockout : after .post (posted 3 lockedOut) (fun t => (t.sup.state, t.sup.weld, t.mem.num 0x2C0 4)) =
    some (.lockedOut, some ⟨1000, 1500, true, false⟩, 2) := by decide +kernel
theorem witness_CloseBegins_setOnce : postedSlip (postedWith 4 [99, 0, 1, 0] base) 0x01000003 [] 3 (some .setOnce)
    ∧ plain (postedWith 4 [99, 0, 1, 0] base) = true ∧ base.chain.requests = [] ∧ base.sup.once.set = false
    ∧ base.sup.slipInFlight = false ∧ argNum (slipArgs (postedWith 4 [99, 0, 1, 0] base) 3) 0 2 = 99
    ∧ argNum (slipArgs (postedWith 4 [99, 0, 1, 0] base) 3) 2 1 = 1 ∧ base.sup.silence < 100 := by
  unfold postedSlip; decide +kernel
theorem test_post_setOnce : after .post (postedWith 4 [99, 0, 1, 0] base) (fun t => (t.sup.once, t.mem.readBytes 0x2F0 2)) =
    some (⟨true, 100, false, false⟩, [2, 0]) := by decide +kernel

/-! ### Wakes and sleep: the other clauses -/

theorem witness_WakeCauses_early : deep.lateCause .timer = false ∧ deep.lateCause .line = false ∧ deep.lateCause .chain = false
    ∧ deep.lateCause .current = false ∧ deep.lateCause .link = false := by decide +kernel
/-- Right after a reset, 1 ms later. -/
def toned : State := { State.reset with conv := { State.reset.conv with part := 1 } }
theorem witness_WakingSteps_resetTone : plain toned = true ∧ toned.chain.wake = .none ∧ toned.chain.resetTone = true
    ∧ 1 ≤ elapsed toned.now 0 ∧ toned.chain.hold = some (.survey 1 false) ∧ toned.chain.line = .idle := by decide +kernel
theorem test_wakeToneEnd_reset : after (.wakeToneEnd ⟨1000, false⟩) toned (fun t => (t.chain.resetTone, t.chain.line, t.chain.lastSent, t.chain.wake)) =
    some (false, .sending ⟨.echo, 1, 1, []⟩, none, .none) := by decide +kernel
/-- The target PATROL has been read, and WAKING stands. -/
def late : State :=
  { woken .patrol with
    power := { (woken .patrol).power with settled := true }
    chain := { deep.chain with state := .up } }
theorem witness_ModuleWakeEnds_late : plain (woken .patrol true) = true ∧ rests late = true ∧ late.chain.wake = .none ∧ late.power.state = .waking
    ∧ late.power.settled = true ∧ late.power.target = .patrol ∧ late.chain.state = .up ∧ late.power.entry = none
    ∧ late.power.patrol = none ∧ late.upd.state = .idle ∧ late.chain.requests = [] ∧ late.chain.free = true
    ∧ late.chain.configuredAddrs ≠ [] ∧ late.power.wakeTable.line = 2 := by decide +kernel
theorem test_moduleWakeTimeEnd_gap : after .moduleWakeTimeEnd (woken .patrol true) (fun t => (t.power.state, t.chain.state, t.chain.wake)) =
    some (.waking, .up, .none) := by decide +kernel
theorem test_wakeLine_late : after .wakeLine late (fun t => (t.power.state, t.power.lastWake, t.chain.state, t.chain.origin)) =
    some (.run, some (3, none), .surveying, .up) := by decide +kernel
/-- Step 4 of a sleep entry, its sleep command waiting. -/
def fourthStep : State :=
  { base with
    power := { base.power with state := .enteringDeep, entry := some ⟨4, 4, 750⟩ }
    chain := { base.chain with sleepCmd := true } }
/-- A patrol returns to DEEP; its wake had the timer's flag, and another has come since. -/
def returning : State :=
  { base with
    power := { base.power with state := .patrol, returning := some 1, pend := 3 }
    chain := { base.chain with sleepCmd := true } }
theorem witness_SleepEntrySteps_asleep : rests fourthStep = true ∧ fourthStep.chain.sleepReady = true
    ∧ fourthStep.power.entry = some ⟨4, 4, 750⟩ ∧ fourthStep.power.patrol = none ∧ fourthStep.power.returning = none
    ∧ fourthStep.chain.wakeAfterSleep = false ∧ rests returning = true ∧ returning.chain.sleepReady = true
    ∧ returning.power.returning = some 1 ∧ returning.power.entry = none ∧ returning.power.patrol = none
    ∧ returning.chain.wakeAfterSleep = false ∧ returning.pins.chainAlert = false := by decide +kernel
theorem test_sleepBroadcast_entry : after (.sleepBroadcast 5) fourthStep (fun t => (t.chain.state, t.power.entry)) =
    some (.asleep, some ⟨4, 5, 750⟩) := by decide +kernel
theorem test_sleepBroadcast_return : after (.sleepBroadcast 5) returning (fun t => (t.power.state, t.power.pend, t.power.target)) =
    some (.waking, 2, .run) := by decide +kernel
/-- Step 5 of a sleep entry of the slip in slot 4. -/
def slippedFifth : State :=
  { fifthStep with
    power := { fifthStep.power with entry := some ⟨4, 5, 750⟩ }
    port := { base.port with slots := setAt base.port.slots 4 (some ⟨5, 7, [], some .power⟩) } }
/-- Its last step is in front. -/
def goingDeep : State := { slippedFifth with pending := [.deepEntry] }
theorem witness_StepKeepsShape_slips : goingDeep.slips = [4] ∧ goingDeep.slipsRight ∧ ∃ t, step goingDeep = .next t :=
  ⟨by decide +kernel, slipsOk_right (by decide +kernel), _, rfl⟩
theorem test_deepEntry_slip : after .deepEntry slippedFifth (fun t => (t.power.state, t.slips, t.mem.readBytes 0x330 2)) =
    some (.deep, [], [1, 0]) := by decide +kernel
theorem witness_SleepEntrySteps_slips : postedSlip (posted 5 base) 0x01000003 [] 3 (some .sleep) ∧ (posted 5 base).canonical
    ∧ base.power.state = .run ∧ base.sup.state = .open_ ∧ base.upd.state = .idle ∧ base.ev.filling = []
    ∧ rests (posted 5 base) = true ∧ base.plan.captures = [] ∧ base.chain.requests = [] ∧ base.chain.balance = none
    ∧ base.chain.free = true ∧ base.power.patrol = none ∧ base.power.returning = none
    ∧ postedSlip (posted 2 slippedFifth) 0x01000003 [] 3 (some .open_) ∧ (posted 2 slippedFifth).canonical
    ∧ slippedFifth.power.state = .enteringDeep ∧ slippedFifth.power.entry = some ⟨4, 5, 750⟩
    ∧ getAt slippedFifth.port.slots 4 = some (some ⟨5, 7, [], some .power⟩) ∧ slippedFifth.chain.sleepCmd = false
    ∧ slipsOk (posted 5 base) = true ∧ slipsOk (posted 2 slippedFifth) = true := by
  unfold postedSlip State.canonical; decide +kernel
theorem test_post_sleep : after .post (posted 5 base) (fun t => (t.power.state, t.power.entry, t.chain.line, t.mem.num 0x2C0 4)) =
    some (.enteringDeep, some ⟨3, 2, 1000⟩, .sending ⟨.config, 31, 2, [0, 0, 0, 0]⟩, 2) := by decide +kernel
theorem test_post_cancels : after .post (posted 2 slippedFifth) (fun t => (t.power.state, t.power.entry, t.mem.readBytes 0x330 1, t.chain.wake)) =
    some (.run, none, [6], .tone 1000) := by decide +kernel

/-! ### Answers that come late, and the survey's other ends -/

theorem witness_answerFails_late : reading.chain.windowOf (frame .read 1 9) = 320
    ∧ answerFails reading (frame .read 1 9) 0 321 (.reply ⟨321, 321⟩ 1 9 [1, 2, 3, 4, 5] quiet 0 none)
    ∧ (surveying 3 false).chain.windowOf (frame .echo 3 1) = 700
    ∧ answerFails (surveying 3 false) (frame .echo 3 1) 0 701 (.echoBack 701 3 7001 0 4 1 0 none)
    ∧ configured.chain.windowOf (frame .config 1 9) = 320
    ∧ answerFails configured (frame .config 1 9) 0 321 (.configReply ⟨321, 321⟩ 1 9 quiet 0 none)
    ∧ (blockSent true .distributing).chain.windowOf (frame .block 1 9) = 320
    ∧ answerFails (blockSent true .distributing) (frame .block 1 9) 0 321 (.blockAck ⟨321, 321⟩ 1 0 false 0 none) := by
  unfold answerFails; decide +kernel
theorem test_reply_late : after (.reply ⟨321, 321⟩ 1 9 [30000, 31000, 32000, 33000, 650] quiet 4 none) reading
    (fun t => ((t.chain.entry 1).map (·.state), t.chain.errs)) = some (some .stale, [321]) := by decide +kernel
theorem test_echoBack_late : after (.echoBack 701 1 7001 2 4 1 7 none) (surveying 1 false) (fun t => t.chain.hold) =
    some (some (.survey 1 true)) := by decide +kernel
/-- Module 1 is known to be absent, module 2 is OUT_OF_SERVICE. -/
def absentAt (a : Nat) : State :=
  { surveying a true with chain := { (surveying a true).chain with
      map := [{ module1 with state := .faulted, cause := some .absent }, { module1 with state := .outOfService }]
        ++ State.reset.chain.map.drop 2 } }
theorem witness_SurveyEchoFails_more : plain (surveying 1 true) = true ∧ answerFails (surveying 1 true) (frame .echo 1 1) 0 5 (.characterGap 5)
    ∧ (surveying 1 true).chain.entry 1 = some module1 ∧ module1.configured = true ∧ module1.state ≠ .outOfService
    ∧ (absentAt 1).chain.entry 1 = some { module1 with state := .faulted, cause := some .absent }
    ∧ (absentAt 2).chain.entry 2 = some { module1 with state := .outOfService }
    ∧ answerFails (absentAt 2) (frame .echo 2 1) 0 5 (.characterGap 5) ∧ rests (absentAt 2) = true
    ∧ plain (surveying 24 true) = true ∧ (surveying 24 true).chain.requests = [] ∧ (surveying 24 true).chain.firstUp = true
    ∧ answerFails (surveying 24 true) (frame .echo 24 1) 0 5 (.characterGap 5) := by
  unfold answerFails; decide +kernel
theorem witness_SurveyEchoFails_absent : (absentAt 1).canonical ∧ (absentAt 1).shaped ∧ rests (absentAt 1) = true :=
  ⟨by unfold State.canonical; decide +kernel, by unfold State.shaped; decide +kernel, by decide +kernel⟩
theorem test_echo_last : after (.characterGap 5) (surveying 24 true) (fun t => (t.chain.hold, t.chain.line, t.attn.pending .surveyDone)) =
    some (none, .idle, true) := by decide +kernel
/-- The survey's last address with no configured module, and its SURVEY slip in flight. -/
def noneConfigured : State :=
  { surveying 24 false with
    port := { base.port with slots := setAt base.port.slots 3 (some ⟨6, 5, [], some .chain⟩) }
    chain := { (surveying 24 false).chain with map := State.reset.chain.map, surveySlip := some 3 } }
theorem witness_SurveyEnds_none : plain noneConfigured = true ∧ noneConfigured.chain.requests = []
    ∧ noneConfigured.chain.surveySlip = some 3 ∧ getAt noneConfigured.port.slots 3 = some (some ⟨6, 5, [], some .chain⟩)
    ∧ noneConfigured.chain.returning = [] ∧ noneConfigured.upd.window = none ∧ noneConfigured.upd.state ≠ .switching := by decide +kernel
theorem test_survey_ends_none : after (.echoBack 650 24 400 0 4 1 7 none) noneConfigured
    (fun t => (t.chain.state, t.chain.surveyTimer, t.ev.inbox.map (·.kind), t.mem.readBytes 0x2F0 8)) =
    some (.down, some 1000, [.chainDown], [1, 0, 0, 0, 3, 0, 0, 0]) := by decide +kernel

/-! ### The settings store: the other clauses -/

theorem witness_WritesQueuedAndBegun_key : postedSlip (postedWith 9 [1] base) 0x01000003 [] 3 (some .installKey)
    ∧ plain (postedWith 9 [1] base) = true ∧ base.chain.requests = [] ∧ base.power.state ≠ .enteringDeep
    ∧ answerAtOnce (postedWith 9 [1] base) (slipArgs (postedWith 9 [1] base) 3) .installKey = none := by
  unfold postedSlip; decide +kernel
theorem test_writeBegin_startUp : after .writeBegin { writing with store := { writing.store with startUp := true } } (fun t => t.store.queue.length) =
    some 0 := by decide +kernel
/-- The marker names bank B, which is erased; bank A is valid. -/
def otherBank : State := { started with store := { started.store with nv := { factoryNv with marker := ⟨.valid .b 1, .erased⟩ } } }
/-- The lockout record is set. -/
def lockSet : State := { started with store := { started.store with nv := { factoryNv with lockout := ⟨.valid ⟨true, 1, 2, 3⟩ 1, .erased⟩ } } }
/-- The marker's record is lost; bank A is valid. -/
def unmarked : State := { started with store := { started.store with nv := { factoryNv with marker := ⟨.faulted, .faulted⟩ } } }
/-- No bank is valid. -/
def noImage : State := { started with store := { started.store with nv := { factoryNv with bankA := none } } }
theorem lockSet_lawful : lockSet.Lawful where
  coils := by decide +kernel
  asleep := by decide +kernel
  update := by decide +kernel
  opening := by decide +kernel
  close := by decide +kernel
  weld := fun w h => nomatch (h : (none : Option Weld) = some w)
  clear := by decide +kernel
  deferral := by decide +kernel
  startUp := by decide +kernel
  waiting := by decide +kernel
  entry := by decide +kernel
  patrol := by decide +kernel
  returning := by decide +kernel
  notes := by decide +kernel
theorem witness_StartUpReadEnds_lawful : lockSet.Lawful ∧ lockSet.store.nv.working.lockout.set = true :=
  ⟨lockSet_lawful, by decide +kernel⟩
theorem witness_StartUpReadEnds_none : unmarked.store.nv.working.marker = none ∧ (unmarked.store.nv.image .a).isSome = true
    ∧ unmarked.store.nv.image BankId.a.other = none ∧ noImage.store.nv.startChoice noImage.store.nv.working = none
    ∧ unmarked.store.startUp = true ∧ noImage.store.startUp = true ∧ 2 ≤ elapsed noImage.now 0 := by decide +kernel
theorem witness_StartUpReadEnds_other : otherBank.store.nv.working.marker = some BankId.a.other
    ∧ otherBank.store.nv.image BankId.a.other = none ∧ (otherBank.store.nv.image .a).isSome = true
    ∧ otherBank.store.nv.working.floor = 0 ∧ rests otherBank = true ∧ otherBank.store.startUp = true
    ∧ 2 ≤ elapsed otherBank.now 0 ∧ lockSet.store.nv.working.lockout.set = true ∧ lockSet.store.startUp = true := by decide +kernel
theorem test_startUpReadEnd_other : after .startUpReadEnd otherBank (fun t => (t.store.activeBank, t.store.outcome, t.store.queue.map (·.payload))) =
    some (some .a, .otherBank, [.marker .a]) := by decide +kernel

/-! ### Events sent together -/

/-- Two events sent together. -/
def sentTogether : State :=
  { base with ev := { base.ev with inbox := [event .silence, { event .chainUp with together := true }] } }
theorem witness_EventTaken_together : plain sentTogether = true ∧ sentTogether.chain.requests = []
    ∧ firstEmpty 0 sentTogether.ev.slots = some 0 ∧ sentTogether.ev.holds sentTogether.ev.next = false
    ∧ (event .silence).kind.windowed = false ∧ (event .chainUp).kind.windowed = false
    ∧ ({ event .chainUp with together := true } : SentEvent).together = true := by decide +kernel
theorem test_eventTake_together : after (.eventTake 1) sentTogether (fun t => ((t.ev.at 0).map (·.kind), t.ev.inbox.map (·.kind))) =
    some (some .chainUp, [.silence]) := by decide +kernel

/-! ### Slips that ask for the chain -/

theorem witness_CapturesAskForTheChain_slips :
    postedSlip (posted 6 (held .config .idle)) 0x01000003 [] 3 (some .survey)
    ∧ postedSlip (postedWith 7 ([1, 2, 60, 0, 6, 0, 1, 0]) (held .config .idle)) 0x01000003 [] 3 (some .balance)
    ∧ postedSlip (postedWith 8 [3, 0, 0, 0, 2] (held .config .idle)) 0x01000003 [] 3 (some .captureNow)
    ∧ plain (posted 6 (held .config .idle)) = true ∧ (held .config .idle).chain.hold.isSome = true
    ∧ (held .config .idle).chain.down = false ∧ (held .config .idle).chain.surveyHolds = false
    ∧ answerAtOnce (posted 6 (held .config .idle)) (slipArgs (posted 6 (held .config .idle)) 3) .survey = none
    ∧ answerAtOnce (postedWith 7 [1, 2, 60, 0, 6, 0, 1, 0] (held .config .idle)) (slipArgs (postedWith 7 [1, 2, 60, 0, 6, 0, 1, 0] (held .config .idle)) 3) .balance = none
    ∧ (balanceTodo base.chain [1, 2, 60, 0, 6, 0, 1, 0] 1 2 0).1 ≠ []
    ∧ answerAtOnce (postedWith 8 [3, 0, 0, 0, 2] (held .config .idle)) (slipArgs (postedWith 8 [3, 0, 0, 0, 2] (held .config .idle)) 3) .captureNow = none
    ∧ contentsOf 2 = some .both := by
  unfold postedSlip; decide +kernel
theorem test_post_balance : after .post (postedWith 7 [1, 2, 60, 0, 6, 0, 1, 0] (held .config .idle))
    (fun t => (t.chain.balance.map (·.todo), t.chain.requests)) = some (some [(1, (6 : Half)), (2, 1)], [.config]) := by decide +kernel

/-! ### The weld window of a CLEAR_LOCKOUT -/

/-- The weld window of a CLEAR_LOCKOUT in slot 3 has passed. -/
def clearPassed (v : Nat) : State :=
  { lockedOut with
    conv := { base.conv with history := [sample 899900 0 40000 v] }
    port := { base.port with slots := setAt base.port.slots 3 (some ⟨3, 5, [], some .supervisor⟩) }
    sup := { lockedOut.sup with weld := some ⟨0, 1000, true, false⟩, clear := some ⟨3, 0, 0⟩ } }
theorem witness_OpeningAndWeldWindow_clear : plain (clearPassed 36000) = true ∧ (clearPassed 36000).chain.requests = []
    ∧ getAt (clearPassed 36000).port.slots 3 = some (some ⟨3, 5, [], some .supervisor⟩)
    ∧ (clearPassed 36000).store.active.weldRatio.toNat * 40000 ≤ 36000 * 1000
    ∧ 100 * 1000 < (clearPassed 100).store.active.weldRatio.toNat * 40000 ∧ 1000 ≤ elapsed (clearPassed 100).now 0 := by decide +kernel
theorem test_weldWindowEnd_still : after .weldWindowEnd (clearPassed 36000) (fun t => (t.mem.readBytes 0x2F0 2, t.sup.clear)) =
    some ([3, 13], none) := by decide +kernel
theorem test_weldWindowEnd_clear : after .weldWindowEnd (clearPassed 100) (fun t => (t.sup.clear, t.store.queue.map (·.payload))) =
    some (some ⟨3, 100, 40000⟩, [.lockout ⟨false, 1000, 100, 40000⟩]) := by decide +kernel

/-! ### A set that breaches a hard limit -/

/-- A capture without SURGE whose set breaches the hard cell maximum for the second time. -/
def breaching (i : Int) : State :=
  { building false false with
    conv := { base.conv with history := [sample 899900 i 80000 39000] }
    sup := { (supIn .closed).sup with mainPos := ⟨true, 900, 940⟩ }
    plan := { (building false false).plan with
      high := 1
      captures := [{ capture .building with
        bcast := some ⟨3900, 100, 100, false⟩
        items := [{ item 1 true with reading := some ⟨List.replicate 4 (48750, false), [(250, false)], some 100, false, false, 0⟩ },
          { item 2 true with reading := some ⟨List.replicate 4 (48750, false), [(250, false)], some 100, false, false, 0⟩ }] }] } }
theorem witness_SetIsBuilt_breach : plain (breaching 100) = true
    ∧ ((breaching 100).plan.captures.find? (fun c => decide (c.stage = .building))).map
        (fun c => (c.bcast, c.surge, decide (c.plan = patrolPlan))) = some (some ⟨3900, 100, 100, false⟩, false, false)
    ∧ (((breaching 100).plan.captures.map fun c => (breaching 100).makeSet c ⟨3900, 100, 100, false⟩).map
        fun x => (x.implausible, x.hasCells, x.hasTemps, highest (freshCells x.cells))) = [(false, true, true, some (48750, 0))]
    ∧ (breaching 100).store.active.cellMax < 48750 ∧ (breaching 100).plan.high = 1
    ∧ (breaching 100).sup.state.isClosing = true ∧ (breaching 100).sup.deferral = none
    ∧ (breaching 60000).newest = some (sample 899900 60000 80000 39000)
    ∧ (breaching 60000).store.active.breakLimit ≤ 60000 ∧ (100 : Int) < (breaching 100).store.active.breakLimit := by decide +kernel
theorem test_setBuilt_breach : after .setBuilt (breaching 100) (fun t => (t.plan.high, t.plan.low, t.sup.state)) =
    some (2, 0, .opening) := by decide +kernel
theorem test_setBuilt_deferred : after .setBuilt (breaching 60000) (fun t => t.sup.deferral.map (·.causes)) =
    some (some [⟨.hardCellHigh, 4294967295, 1, 0, 0⟩]) := by decide +kernel

/-! ### The update engine's slips -/

/-- A key is present. -/
def keyed : State := { base with store := { base.store with work := { base.store.work with key := .present [1] } } }
/-- The header of a limit image of 4 bytes, and that of a module update of the addresses 1 and 2. -/
def imageHeader : List Byte := [1, 0, 0, 0, 0, 4, 0, 0x40]
@[inherit_doc imageHeader] def firmwareHeader : List Byte := [1, 0, 3, 0, 0, 4, 0, 0x84]
/-- An update with its staging full. -/
def staged (st : UpdState) : State :=
  { base with upd := { base.upd with state := st, header := ⟨.limitImage, 0, 0, 1, 4, []⟩, staging := [1, 2, 3, 4] } }
/-- A posted slip that its checks let through. -/
def passes (kind : Byte) (args : List Byte) (q : SlipKind) (s : State) : Bool :=
  let t := postedWith kind args s
  plain t && t.chain.requests.isEmpty && decide (t.power.state ≠ .enteringDeep) && t.posted 3
    && decide (slipKindOf (Memory.read t.mem (slotAt 3 + 4)) = some q) && slipsOk t && (answerAtOnce t (slipArgs t 3) q).isNone
theorem witness_CheckEnds_slips : passes 11 imageHeader .updateBegin keyed = true ∧ passes 11 firmwareHeader .updateBegin keyed = true
    ∧ (rawHeader (slipArgs (postedWith 11 imageHeader keyed) 3)).target = 1
    ∧ (rawHeader (slipArgs (postedWith 11 firmwareHeader keyed) 3)).target = 2
    ∧ passes 12 [] .updateCheck (staged .receiving) = true ∧ passes 13 [] .updateApply (staged .verified) = true
    ∧ passes 14 [] .updateAbort (staged .receiving) = true ∧ (staged .receiving).upd.aborts = []
    ∧ (staged .receiving).upd.slip = none ∧ (staged .verified).upd.header.target = .limitImage := by decide +kernel
theorem test_post_updateBegin : after .post (postedWith 11 firmwareHeader keyed)
    (fun t => (t.upd.state, t.upd.header.length, t.upd.dist.map (·.addr), t.mem.readBytes 0x2F0 1)) =
    some (.receiving, 4, [1, 2], [1]) := by decide +kernel
/-! ### Second review: states for the clauses that it asked for -/

/-- A state that is canonical, calm and well shaped, whatever goes on in it. -/
def sound (s : State) : Bool :=
  s.mem.wf && !anyFaulted s.chain.map && s.sup.faultedSince.isNone && !s.sup.surge
  && decide (s.port.slots.length = 8) && decide (s.port.tables.length = 4) && decide (s.chain.survey.length = 24)
  && decide (s.chain.map.length = 24) && decide (s.plan.kept.length = 24) && decide (s.plan.pages.length = 4)
  && decide (s.ev.slots.length = 16) && s.store.keySlip.all (fun k => decide (k < 8)) && decide (s.power.nextSlot ≤ 31)
  && s.ev.inbox.all fun e => !e.fresh
theorem sound_meets {s : State} (h : sound s = true) : s.canonical ∧ s.calm ∧ s.shaped := by
  simp only [sound, Bool.and_eq_true, Bool.not_eq_true', decide_eq_true_eq, Option.isNone_iff_eq_none] at h
  obtain ⟨⟨⟨⟨⟨⟨⟨⟨⟨⟨⟨⟨⟨h1, h2⟩, h3⟩, h4⟩, h5⟩, h6⟩, h7⟩, h8⟩, h9⟩, h10⟩, h11⟩, h12⟩, h14⟩, h13⟩ := h
  refine ⟨h1, ⟨by rw [h3, h2]; rfl, ?_, ?_, fun e he => ?_⟩, ⟨h5, h6, h7, h8, h9, h10, h11, fun k hk => ?_, h14⟩⟩
  · simp [h4]
  · simp [h4]
  · simpa using List.all_eq_true.mp h13 e he
  · simpa [hk] using h12

/-- A slip of a kind is in flight in a slot. -/
def inSlot (k : Nat) (kind : Byte) (s : State) : State :=
  { s with port.slots := setAt s.port.slots k (some ⟨kind, 5, [], none⟩) }
theorem inSlot_inFlight : (inSlot 4 13 base).inFlight 4 := ⟨by decide, _, rfl⟩

/-! SUMMARY, the tables and the module map -/

theorem witness_HostWrites_summary : ({ twoFactors with attn := { twoFactors.attn with enables := 0x21 } } : State).linkServed = true
    ∧ twoFactors.bounded ∧ twoFactors.attn.pending .chainState = true
    ∧ ({ twoFactors with attn := { twoFactors.attn with enables := 0x21 } } : State).attn.enabled .chainState = true :=
  ⟨by decide +kernel, ⟨by decide, by decide, by decide, by decide, by decide⟩, by decide +kernel, by decide +kernel⟩
theorem test_summary : ({ twoFactors with attn := { twoFactors.attn with enables := 0x21, levels := [1, 0, 2, 0, 0, 0] } } : State).drives 0x4D 0x8008 0 =
    some 0x0000006A := by decide +kernel
/-- The map in memory has another cell count for module 1; the chain is held. -/
def remapped : State := withBytes [(0x500, [1, 5, 1, 0, 0, 0x80, 0, 0]), (0x510, [1, 4, 1, 0, 0, 0x80, 0, 0])] (held .config .idle)
theorem witness_ModuleMapNote_survey : plain (noted 6 3 remapped) = true ∧ remapped.chain.hold.isSome = true
    ∧ remapped.chain.down = false ∧ remapped.chain.state ≠ .asleep
    ∧ remapped.mapRefusal (readModules remapped.mem remapped.store.active).1 = none
    ∧ configuredSet remapped.chain.map ≠ configuredSet (takeModules (readModules remapped.mem remapped.store.active).1 remapped.chain.map)
    ∧ remapped.chain.surveyHolds = false ∧ remapped.chain.sleepCmd = false ∧ remapped.chain.requests.contains .survey = false := by
  decide +kernel
theorem test_tablesModuleMap_changed : after .tablesModuleMap (noted 6 3 remapped)
    (fun t => (t.chain.requests, (t.chain.entry 1).map (fun e => (e.cells, e.state)), (t.chain.entry 2).map (·.state))) =
    some ([.survey], some (5, .absent), some .inService) := by decide +kernel

/-! The ends of WAKING and a second SLEEP -/

/-- The wake of a patrol whose map is empty, in the last slot of the log. -/
def emptyWake : State :=
  { woken .patrol with
    power := { (woken .patrol).power with nextSlot := 31, lastNumber := 65535 }
    chain := { (woken .patrol).chain with map := State.reset.chain.map } }
theorem witness_ModuleWakeEnds_empty : sound emptyWake = true ∧ 5 ≤ elapsed emptyWake.now 995 ∧ emptyWake.power.state = .waking
    ∧ emptyWake.power.target = .patrol ∧ emptyWake.chain.configuredAddrs = [] ∧ emptyWake.chain.requests = []
    ∧ emptyWake.power.estimate ≠ .awaited ∧ emptyWake.power.nextSlot ≤ 31 ∧ emptyWake.chain.state = .asleep
    ∧ emptyWake.plan.burst = none ∧ emptyWake.power.entry = none ∧ emptyWake.power.returning = none
    ∧ emptyWake.upd.state = .idle ∧ emptyWake.upd.pause = none := by decide +kernel
theorem test_patrol_empty_map : after .moduleWakeTimeEnd emptyWake
    (fun t => (t.power.nextSlot, t.mem.readBytes 0x17E0 3, t.power.lastWake)) =
    some (0, [1, 0, 3], some (1, some .chainFail)) := by decide +kernel
theorem witness_ModuleWakeEnds_lateLink : wakes late .link ∧ late.power.wakeTable.level .link = 2 ∧ wakes late .line
    ∧ late.power.wakeTable.level .line = 2 ∧ late.plan.burst = none ∧ late.power.returning = none ∧ late.upd.pause = none
    ∧ (woken .run).power.estimate ≠ .awaited := by
  unfold wakes; decide +kernel
theorem test_wakeLink_late : after .wakeLink late (fun t => (t.power.state, t.power.lastWake, t.chain.state)) =
    some (.run, some (17, none), .surveying) := by decide +kernel
theorem witness_SleepEntrySteps_again : postedSlip (posted 5 slippedFifth) 0x01000003 [] 3 (some .sleep) ∧ (posted 5 slippedFifth).canonical
    ∧ slippedFifth.power.state = .enteringDeep ∧ slippedFifth.power.entry = some ⟨4, 5, 750⟩
    ∧ getAt slippedFifth.port.slots 4 = some (some ⟨5, 7, [], some .power⟩) ∧ slippedFifth.sup.state = .open_
    ∧ slippedFifth.upd.state = .idle ∧ slippedFifth.ev.filling = [] ∧ slippedFifth.power.patrol = none
    ∧ slippedFifth.power.returning = none ∧ slipsOk (posted 5 slippedFifth) = true := by
  unfold postedSlip State.canonical; decide +kernel
theorem test_post_sleep_again : after .post (posted 5 slippedFifth) (fun t => (t.power.state, t.power.entry.map (·.slot), t.mem.readBytes 0x330 1, t.chain.wake)) =
    some (.enteringDeep, some 3, [6], .tone 1000) := by decide +kernel
/-- The second step of a sleep entry whose SLEEP slip is in slot 4; the host has written into the power record. -/
def slippedSecond : State :=
  withBytes [(0x60, [9])] { slippedFifth with
    power := { slippedFifth.power with entry := some ⟨4, 2, 750⟩ }
    chain := { base.chain with hold := some .stop, line := .sending (frame .config 31 2) } }
theorem test_post_sleep_second : after .post (posted 5 slippedSecond) (fun t => (t.power.entry.map (·.slot), t.mem.readBytes 0x60 1, t.mem.num 0x63 1)) =
    some (some 3, [1], 2) := by decide +kernel

/-! Probes -/

/-- The ECHO of a return probe has left for module 1. -/
def probed : State :=
  { held (.returnEcho 1) (.window (frame .echo 1 2) 0) with
    chain := { (held (.returnEcho 1) (.window (frame .echo 1 2) 0)).chain with
      map := [{ module1 with state := .outOfService }, module1] ++ State.reset.chain.map.drop 2
      returning := [(1, 900)] } }
/-- The ECHO of a switch probe has left for module 1, the last SENT record; another record may have rolled back. -/
def switchProbed (aborting : Bool) (other : DistState) : State :=
  inSlot 4 13
    { switching 2800 with
      chain := { (switching 2800).chain with hold := some (.firmware .probe true), line := .window (frame .echo 1 2) 0 }
      upd := { (switching 2800).upd with
        slip := some (.apply, 4)
        aborting := aborting
        dist := [⟨1, .sent, none, some 1, none, false⟩, ⟨2, other, none, some 1, none, false⟩] } }
theorem witness_SurveyEchoBack_return : plain probed = true ∧ probed.chain.requests = []
    ∧ probed.chain.entry 1 = some { module1 with state := .outOfService } ∧ probed.upd.window = none
    ∧ probed.chain.returning.any (fun r => decide (r.1 = 1)) = true
    ∧ 10 * probed.chain.windowOf (frame .echo 1 2) = 3200 := by decide +kernel
theorem witness_SurveyEchoBack_switch : plain (switchProbed false .switched) = true ∧ (switchProbed false .switched).chain.requests = []
    ∧ (switchProbed false .switched).chain.entry 1 = some { module1 with state := .outOfService }
    ∧ (switchProbed false .switched).upd.state = .switching ∧ (switchProbed false .switched).upd.window = some ⟨2800, 0, none⟩
    ∧ (switchProbed false .switched).upd.current = some (⟨0, false, 0, 0⟩, ⟨1, .sent, none, some 1, none, false⟩)
    ∧ elapsed (switchProbed false .switched).now 2800 < 2000 ∧ (switchProbed false .switched).upd.header.version = 4
    ∧ getAt (switchProbed false .switched).store.work.fwFloors 0 = some 0
    ∧ plain (switchProbed true .switched) = true ∧ (switchProbed true .switched).upd.aborting = true
    ∧ plain (switchProbed false .rollback) = true
    ∧ 10 * (switchProbed false .switched).chain.windowOf (frame .echo 1 2) = 3200 := by decide +kernel
theorem test_echoBack_returns : after (.echoBack 90 1 400 0 4 1 9 none) probed
    (fun t => (t.chain.returning, (t.chain.entry 1).map (fun e => (e.state, e.version)))) = some ([], some (.inService, 9)) := by decide +kernel
theorem test_echoBack_switched : after (.echoBack 90 1 400 0 4 1 4 none) (switchProbed false .switched)
    (fun t => (t.upd.dist.map (·.state), t.upd.commit, t.store.queue.map (·.payload))) =
    some ([.switched, .switched], .fwFloor, [.fwFloor 0 4]) := by decide +kernel
theorem test_echoBack_other_version : after (.echoBack 90 1 400 0 4 1 3 none) (switchProbed false .switched)
    (fun t => (t.upd.dist.map (·.state), t.upd.window.map (·.reported), (t.chain.entry 1).map (·.state))) =
    some ([.sent, .switched], some (some 3), some .outOfService) := by decide +kernel
/-- An abort waits for the exchange of the first block. -/
def blockAborted : State :=
  inSlot 4 13 (inSlot 5 14
    { blockSent true .distributing with
      upd := { (blockSent true .distributing).upd with slip := some (.apply, 4), aborts := [5], aborting := true } })
theorem witness_BlockAcknowledged_abort : sound blockAborted = true ∧ blockAborted.power.entry = none ∧ blockAborted.power.patrol = none
    ∧ blockAborted.power.returning = none ∧ blockAborted.plan.burst = none ∧ blockAborted.upd.pause = none
    ∧ blockAborted.chain.requests = [] ∧ blockAborted.upd.state = .distributing ∧ blockAborted.upd.aborting = true
    ∧ blockAborted.upd.current = some (⟨0, false, 0, 1⟩, ⟨1, .sending, none, none, none, false⟩) := by decide +kernel

/-! Filling windows -/

/-- A sample is latched that falls 400 µs after the last of a window with so many entries. -/
def filling (n : Nat) (late : Us) : State :=
  { base with
    conv := { base.conv with latched := some (sample 907000 100 40004 39005) }
    ev := { base.ev with
      slots := setAt base.ev.slots 2 (some { record 9 with
        complete := false
        kind := .opened
        tn := 907000 - BitVec.ofNat 32 (400 * (n + 1)) + late
        post := List.replicate n ⟨1, 2, 3⟩ })
      filling := [2] } }
theorem witness_SampleLatchesAndCompletes_filling : plain (filling 15 0) = true ∧ (filling 15 0).chain.requests = []
    ∧ plain (filling 0 0) = true ∧ plain (filling 3 100) = true ∧ (filling 15 0).conv.estimate = none
    ∧ (((filling 15 0).ev.at 2).map fun r => (r.post.length, ((907000 : Us) - r.tn).toNat)) = some (15, 6400)
    ∧ (((filling 0 0).ev.at 2).map fun r => (r.post.length, ((907000 : Us) - r.tn).toNat)) = some (0, 400)
    ∧ (((filling 3 100).ev.at 2).map fun r => (r.post.length, ((907000 : Us) - r.tn).toNat)) = some (3, 1500) := by decide +kernel
theorem test_sampleComplete_window : after .sampleComplete (filling 15 0)
    (fun t => ((t.ev.at 2).map (fun r => (r.complete, r.windowComplete)), (t.ev.at 2).map (fun r => r.post.drop 15))) =
    some (some (true, true), some [⟨100, 4000, 3901⟩]) := by decide +kernel
theorem test_sampleComplete_zero_entry : after .sampleComplete
    (withBytes [(eventAt 2 + 0xA8, [9, 9, 9, 9])] { filling 1 0 with conv := { base.conv with latched := some (sample 907000 0 0 0) } })
    (fun t => (t.mem.num (eventAt 2 + 0xA6) 6, t.mem.num (eventAt 2 + 0xAC) 4)) = some (0, 0) := by decide +kernel

/-! The ends of writes -/

/-- A write runs that began 50 ms ago. -/
def run (p : Payload) (who : Requester) : Running := ⟨⟨p, [who]⟩, .b, 950⟩
@[inherit_doc run] def runs (p : Payload) (who : Requester) (s : State) : State := { s with store.running := some (run p who) }
/-- Records without a valid copy have no write count. -/
theorem fits_erased {α : Type} : countsFit (⟨.erased, .erased⟩ : Record α) := fun v n h => by simp at h
theorem fits_lock : countsFit lockWriting.store.nv.lockout := by
  rw [(by decide +kernel : lockWriting.store.nv.lockout = ⟨.valid ⟨false, 7, 0, 0⟩ 65535, .erased⟩)]
  rintro v n (h | h)
  · simp only [Copy.valid.injEq] at h; omega
  · simp at h
theorem fits_base : countsFit base.store.nv.lockout ∧ countsFit base.store.nv.marker ∧ countsFit base.store.nv.floor
    ∧ countsFit base.store.nv.fwFloors ∧ countsFit base.store.nv.snapshot ∧ countsFit base.store.nv.wearPos
    ∧ countsFit base.store.nv.wearNeg :=
  ⟨fits_erased, fits_erased, fits_erased, fits_erased, fits_erased, fits_erased, fits_erased⟩
/-- A step of a commit is at its write, its UPDATE_APPLY in slot 4. -/
def committing (c : CommitStep) (version : Nat) (aborting : Bool) (s : State) : State :=
  inSlot 4 13 { s with upd := { s.upd with
    state := if c = .fwFloor then .switching else .committing
    commit := c
    slip := some (.apply, 4)
    aborting := aborting
    header := { s.upd.header with version := version } } }
/-- The judging sample of a CLEAR_LOCKOUT in slot 3 has been written to the store. -/
def clearing : State := { clearPassed 100 with sup := { (clearPassed 100).sup with weld := none, clear := some ⟨3, 100, 40000⟩ } }
/-- An INSTALL_KEY is in flight in slot 3. -/
def keying : State := inSlot 3 9 { base with store := { base.store with keySlip := some 3 } }
theorem witness_LockoutWriteEnds_set : writeEnding lockWriting ⟨⟨.lockout ⟨true, 990, 39000, 40000⟩, [.weldSet]⟩, .b, 995⟩
      (.lockout ⟨true, 990, 39000, 40000⟩) .weldSet ∧ countsFit lockWriting.store.nv.lockout :=
  ⟨by unfold writeEnding; decide +kernel, fits_lock⟩
theorem witness_LockoutWriteEnds_clear : plain clearing = true ∧ clearing.chain.requests = []
    ∧ writeEnding (runs (.lockout ⟨false, 1000, 100, 40000⟩) .weldClear clearing) (run (.lockout ⟨false, 1000, 100, 40000⟩) .weldClear)
      (.lockout ⟨false, 1000, 100, 40000⟩) .weldClear ∧ clearing.sup.clear = some ⟨3, 100, 40000⟩
    ∧ getAt clearing.port.slots 3 = some (some ⟨3, 5, [], some .supervisor⟩) := by
  unfold writeEnding; decide +kernel
theorem witness_LockoutWriteEnds_marker :
    writeEnding (runs (.marker .a) .startUp base) (run (.marker .a) .startUp) (.marker .a) .startUp
    ∧ writeEnding (runs (.marker .a) .engine (committing .marker 1 false base)) (run (.marker .a) .engine) (.marker .a) .engine
    ∧ plain (runs (.marker .a) .engine (committing .marker 1 false base)) = true ∧ (base.store.nv.image .a).isSome = true
    ∧ base.store.work.floor < 1 ∧ (committing .marker 0 false base).upd.header.version ≤ base.store.work.floor := by
  unfold writeEnding; decide +kernel
theorem witness_LockoutWriteEnds_engine :
    writeEnding (runs (.bank ⟨1, []⟩) .engine (committing .bank 1 true base)) (run (.bank ⟨1, []⟩) .engine) (.bank ⟨1, []⟩) .engine
    ∧ writeEnding (runs (.floor 1) .engine (committing .floor 1 false base)) (run (.floor 1) .engine) (.floor 1) .engine
    ∧ writeEnding (runs (.fwFloor 7 1) .engine (committing .fwFloor 1 false base)) (run (.fwFloor 7 1) .engine) (.fwFloor 7 1) .engine
    ∧ plain (runs (.bank ⟨1, []⟩) .engine (committing .bank 1 true base)) = true
    ∧ plain (runs (.bank ⟨1, []⟩) .engine (committing .bank 1 false base)) = true
    ∧ plain (runs (.floor 1) .engine (committing .floor 1 false base)) = true
    ∧ plain (runs (.fwFloor 7 1) .engine (committing .fwFloor 1 false base)) = true
    ∧ (committing .bank 1 true base).upd.commit = .bank ∧ (committing .bank 1 true base).upd.aborting = true := by
  unfold writeEnding; decide +kernel
theorem witness_LockoutWriteEnds_others :
    writeEnding (runs (.key [1]) .keySlip keying) (run (.key [1]) .keySlip) (.key [1]) .keySlip
    ∧ sound (runs (.key [1]) .keySlip keying) = true ∧ rests (runs (.key [1]) .keySlip keying) = true
    ∧ keying.store.keySlip = some 3 ∧ keying.store.nv.key.choice = none
    ∧ writeEnding (runs (.snapshot ⟨5, false⟩) .entry entering) (run (.snapshot ⟨5, false⟩) .entry) (.snapshot ⟨5, false⟩) .entry
    ∧ sound (runs (.snapshot ⟨5, false⟩) .entry entering) = true ∧ rests (runs (.snapshot ⟨5, false⟩) .entry entering) = true
    ∧ entering.power.entry = some ⟨3, 3, 750⟩
    ∧ writeEnding (runs (.wearPos 1000) .wear base) (run (.wearPos 1000) .wear) (.wearPos 1000) .wear
    ∧ writeEnding (runs (.wearNeg 1) .wear base) (run (.wearNeg 1) .wear) (.wearNeg 1) .wear := by
  unfold writeEnding; decide +kernel
theorem witness_LockoutWriteEnds_silent :
    writeEnding (runs (.snapshot ⟨5, false⟩) .snapTimer base) (run (.snapshot ⟨5, false⟩) .snapTimer) (.snapshot ⟨5, false⟩) .snapTimer
    ∧ writeEnding (runs (.floor 3) .startUp base) (run (.floor 3) .startUp) (.floor 3) .startUp
    ∧ plain (runs (.floor 3) .startUp base) = true ∧ plain (runs (.snapshot ⟨5, false⟩) .snapTimer base) = true := by
  unfold writeEnding; decide +kernel
theorem test_writeEnd_snapTimer : after (.writeEnd true) (runs (.snapshot ⟨5, false⟩) .snapTimer base) (fun t => t.store.work.snapshot) =
    some (some ⟨5, false⟩) := by decide +kernel
theorem test_writeEnd_wear_failed : after (.writeEnd false) (runs (.wearPos 1000) .wear base) (fun t => (t.store.work.wearPos, t.store.faultItem)) =
    some (0, some .wearPos) := by decide +kernel
theorem test_writeEnd_marker : after (.writeEnd true) (runs (.marker .a) .engine (committing .marker 1 false base))
    (fun t => (t.store.activeBank, t.upd.commitReached, t.upd.commit, t.store.queue.map (·.payload))) =
    some (some .a, true, .floor, [.floor 1]) := by decide +kernel
theorem test_writeEnd_first_floor_failed : after (.writeEnd false) (runs (.floor 9) .engine (committing .floor 9 false base))
    (fun t => (t.store.work.floor, t.store.nv.floor.lost, t.upd.outcome, t.mem.readBytes 0x330 2)) =
    some (0, true, .store, [3, 14]) := by decide +kernel
theorem test_resetLine_cuts_first_marker : after (.resetLine .faulted) (runs (.marker .b) .engine (committing .marker 1 false base))
    (fun t => (t.store.nv.marker, t.store.nv.working.marker, t.upd.state)) = some (⟨.erased, .erased⟩, some .a, .idle) := by decide +kernel
theorem test_writeEnd_key : after (.writeEnd true) (runs (.key (List.replicate 32 1)) .keySlip (withBytes [(0x2C8, List.replicate 32 1)] keying))
    (fun t => (t.store.work.key, t.mem.readBytes 0x2C8 32, t.mem.readBytes 0x2F0 5)) =
    some (.present (List.replicate 32 1), List.replicate 32 0, [1, 0, 0, 0, 1]) := by decide +kernel

/-! A full event area -/

/-- The area is full, its records in slot order; the one in a slot is acknowledged. An event waits. -/
def fullArea (acked : Nat) : State :=
  { base with ev := { base.ev with
      slots := (List.range 16).map fun i => some { record (i + 1) with acked := decide (i = acked) }
      age := List.range 16
      next := 17
      inbox := [event .silence] } }
theorem witness_EventTaken_full : plain (fullArea 3) = true ∧ plain (fullArea 16) = true ∧ (fullArea 3).chain.requests = []
    ∧ (fullArea 3).ev.holds 17 = false ∧ ((List.range 16).all fun j => ((fullArea 3).ev.at j).isSome) = true
    ∧ (fullArea 3).ev.age = [0, 1, 2] ++ 3 :: [4, 5, 6, 7, 8, 9, 10, 11, 12, 13, 14, 15] ∧ (fullArea 3).ev.ackedAt 3 = true
    ∧ ([0, 1, 2].all fun j => !(fullArea 3).ev.ackedAt j) = true
    ∧ (fullArea 16).ev.age = [0, 1, 2, 3, 4, 5, 6, 7, 8, 9, 10, 11, 12, 13, 14] ++ 15 :: []
    ∧ ((List.range 16).all fun j => !(fullArea 16).ev.ackedAt j) = true := by decide +kernel
theorem test_eventTake_acked : after (.eventTake 0) (fullArea 3) (fun t => ((t.ev.at 3).map (·.seq), t.attn.pending .eventFull)) =
    some (some 17, false) := by decide +kernel
theorem test_eventTake_full : after (.eventTake 0) (fullArea 16) (fun t => ((t.ev.at 15).map (·.seq), t.attn.pending .eventFull, t.ev.age.length)) =
    some (some 17, true, 16) := by decide +kernel

/-! Sets: the other counts, a burst's link, the patrol -/

/-- A capture with the two modules' readings waits to be built; the current is 1 A or 600 A. -/
def builtOf (p : Nat) (cells : Nat) (temp : Int) (age : Nat) (i : Int) : State :=
  { breaching i with
    plan := { (breaching i).plan with
      high := 0
      low := 1
      temp := 1
      captures := [{ capture .building with
        plan := p
        link := if p = burstPlan then 9 else 0
        bcast := some ⟨(cells * 8 + 50) / 100, 100, 100, false⟩
        items := [{ item 1 true with reading := some ⟨List.replicate 4 (cells, false), [(temp, false)], some 100, false, false, age⟩ },
          { item 2 true with reading := some ⟨List.replicate 4 (cells, false), [(temp, false)], some 100, false, false, age⟩ }] }] } }
/-- The first capture of a state and its set. -/
def setOf (s : State) : Option (Capture × SampleSet) :=
  (s.plan.captures.find? fun c => decide (c.stage = .building)).bind fun c => c.bcast.map fun b => (c, s.makeSet c b)
theorem witness_SetIsBuilt_low : plain (builtOf 0 24999 250 0 100) = true ∧ (builtOf 0 24999 250 0 100).plan.writing = none
    ∧ ((setOf (builtOf 0 24999 250 0 100)).map fun x => (x.1.surge, x.2.implausible, x.2.hasCells, lowest (freshCells x.2.cells))) =
      some (false, false, true, some (24999, 0))
    ∧ (24999 : Int) < (builtOf 0 24999 250 0 100).store.active.cellMin ∧ (builtOf 0 24999 250 0 100).plan.low = 1
    ∧ (builtOf 0 24999 250 0 100).sup.state.isClosing = true ∧ (builtOf 0 24999 250 0 100).sup.deferral = none
    ∧ (builtOf 0 24999 250 0 100).newest = some (sample 899900 100 80000 39000) := by decide +kernel
theorem witness_SetIsBuilt_temp : plain (builtOf 0 35000 651 0 60000) = true
    ∧ ((setOf (builtOf 0 35000 651 0 60000)).map fun x => (x.1.surge, x.2.implausible, x.2.hasTemps)) = some (false, false, true)
    ∧ ((setOf (builtOf 0 35000 651 0 60000)).map fun x => x.2.temps.map (·.value)) = some (List.replicate 2 (some (651, false)))
    ∧ ((setOf (builtOf 0 35000 651 0 60000)).map fun x => x.2.temps.map (·.fresh)) = some [true, true]
    ∧ beyondTemp (builtOf 0 35000 651 0 60000).store.active 651 = 1 ∧ (builtOf 0 35000 651 0 60000).plan.temp = 1
    ∧ (builtOf 0 35000 651 0 60000).sup.deferral = none
    ∧ (builtOf 0 35000 651 0 60000).newest = some (sample 899900 60000 80000 39000) := by decide +kernel
theorem witness_SetIsBuilt_slips : slipsOk (breaching 100) = true ∧ slipsOk (builtOf 0 24999 250 0 100) = true
    ∧ slipsOk (builtOf 0 35000 651 0 60000) = true := by decide +kernel
theorem test_setBuilt_low : after .setBuilt (builtOf 0 24999 250 0 100) (fun t => (t.sup.state, t.plan.low, t.sup.opening.map (·.causes))) =
    some (.opening, 2, some [.hardCellLow]) := by decide +kernel
theorem test_setBuilt_temp : after .setBuilt (builtOf 0 35000 651 0 60000) (fun t => t.sup.deferral.map (·.causes)) =
    some (some [⟨.hardTemp, 4294967295, 1, 0, 0⟩]) := by decide +kernel
/-- A burst's set waits to be built; a record in slot 6 awaits its link. -/
def linking (complete : Bool) : State :=
  { builtOf burstPlan 35000 250 0 100 with
    ev := { base.ev with slots := setAt base.ev.slots 6 (some { record 9 with kind := .opened, complete := complete, linked := .awaited, revision := 255 }) } }
theorem witness_SetIsBuilt_link : plain (linking true) = true ∧ (setOf (linking true)).map (fun x => (x.1.plan, x.1.link)) = some (burstPlan, 9)
    ∧ (linking true).sup.state ≠ .opening ∧ ((linking true).ev.at 6).map (fun r => (r.seq, r.linked)) = some (9, .awaited)
    ∧ ((List.range 16).all fun j => decide (j = 6) || ((linking true).ev.at j).isNone) = true ∧ slipsOk (linking true) = true := by decide +kernel
theorem test_setBuilt_link : after .setBuilt (linking true) (fun t => (t.ev.at 6).map fun r => (r.linked, r.revision)) =
    some (some (.linked 4294967295, 255)) := by decide +kernel
/-- The patrol set of a patrol waits to be built. -/
def patrolling (attempts : Nat) (promoted : Bool) (cells age fail : Nat) : State :=
  { builtOf patrolPlan cells 250 age 100 with
    sup := base.sup
    power := { base.power with
      state := .patrol
      pend := 1
      patrol := some ⟨attempts, promoted, none⟩
      target := if promoted then .run else .patrol
      wakeTable := { base.power.wakeTable with chainFail := fail } } }
/-- The hypotheses of a patrol's judgement, but for the breaches. -/
def judges (s : State) : Bool :=
  sound s && slipsOk s && rests s && s.chain.requests.isEmpty && decide (s.power.state = .patrol) && s.power.entry.isNone && s.power.returning.isNone
  && decide (s.power.estimate ≠ .awaited) && decide (s.power.nextSlot ≤ 31) && !s.chain.down && decide (s.chain.state ≠ .asleep)
  && s.plan.writing.isNone
theorem witness_SetIsBuilt_patrol : judges (patrolling 1 false 42001 0 1) = true ∧ judges (patrolling 1 false 35000 0 1) = true
    ∧ judges (patrolling 2 false 35000 1 1) = true ∧ judges (patrolling 1 true 35000 1 1) = true ∧ judges (patrolling 1 false 35000 1 2) = true
    ∧ ((setOf (patrolling 1 false 42001 0 1)).map fun x => (x.1.plan, x.1.contents, x.2.cells.map (·.value))) =
      some (patrolPlan, .both, List.replicate 8 (some (42001, false)))
    ∧ ((setOf (patrolling 1 false 35000 1 1)).map fun x => x.1.items.map fun m => m.reading.map (·.age)) = some [some 1, some 1]
    ∧ base.store.inForce.sleepMax = 42000 := by decide +kernel
theorem patrolBreach_none : ∃ c x, setOf (patrolling 2 false 35000 1 1) = some (c, x) ∧ patrolBreach base.store.inForce x 0 := by
  refine ⟨_, _, rfl, ?_⟩
  have hc : ∀ p ∈ (setOf (patrolling 2 false 35000 1 1)).elim [] (·.2.cells), p.fresh = false := by decide +kernel
  have ht : ∀ p ∈ (setOf (patrolling 2 false 35000 1 1)).elim [] (·.2.temps), p.fresh = false := by decide +kernel
  refine ⟨by decide, ⟨fun h => by simp at h, ?_⟩, ⟨fun h => by simp at h, ?_⟩, ⟨fun h => by simp at h, ?_⟩,
    ⟨fun h => by simp at h, ?_⟩⟩
  · rintro ⟨p, hp, h, -⟩; exact absurd h (by rw [hc p hp]; decide)
  · rintro ⟨p, hp, h, -⟩; exact absurd h (by rw [hc p hp]; decide)
  · rintro ⟨p, hp, h, -⟩; exact absurd h (by rw [ht p hp]; decide)
  · rintro ⟨p, hp, q, hq, h, -⟩; exact absurd h (by rw [hc p hp]; decide)
theorem test_patrol_breach : after .setBuilt (patrolling 1 false 42001 0 1)
    (fun t => (t.power.state, t.power.lastWake, t.mem.readBytes 0x1400 4)) = some (.run, some (1, some .breach), [1, 0, 0x4A, 0x62]) := by decide +kernel
theorem test_patrol_pass : after .setBuilt (patrolling 1 false 35000 0 1) (fun t => (t.power.returning, t.chain.sleepCmd, t.mem.readBytes 0x1402 1)) =
    some (some 1, true, [0x41]) := by decide +kernel
theorem test_patrol_retry : after .setBuilt (patrolling 1 false 35000 1 2) (fun t => (t.power.patrol, t.chain.line)) =
    some (some ⟨2, false, none⟩, .sending ⟨.capture, 31, 1, []⟩) := by decide +kernel
theorem test_patrol_fails : after .setBuilt (patrolling 2 false 35000 1 2) (fun t => (t.power.state, t.power.lastWake, t.mem.readBytes 0x1402 1)) =
    some (.run, some (1, some .chainFail), [0x83]) := by decide +kernel

/-! Openings -/

/-- OPENING with an OPEN slip in slot 5 and the opening's record in slot 4. -/
def openingWith (complete : Bool) : State :=
  inSlot 5 2
    { opening with
      sup := { opening.sup with opening := some ⟨[5], -7, [.silence], 980⟩, hardDue := true, lossDue := true, once := ⟨true, 500, true, false⟩, silence := 9999 }
      ev := { base.ev with slots := setAt base.ev.slots 4 (some { record 7 with kind := .autoOpen, cause := OpenCause.silence.code, complete := complete, adding := true }) } }
theorem witness_OpeningAndWeldWindow_slips : plain (openingWith true) = true ∧ (openingWith true).chain.requests = []
    ∧ getAt (openingWith true).port.slots 5 = some (some ⟨2, 5, [], none⟩) ∧ (openingWith true).sup.mainNeg.on = true
    ∧ (openingWith true).store.queue = [] ∧ (openingWith true).newest = some (sample 899900 100 40000 100) := by decide +kernel
theorem test_openingSecondStep_slip : after .openingSecondStep (openingWith true) (fun t => (t.mem.readBytes 0x370 1, t.mem.readBytes 0x374 5, t.store.queue.map (·.payload))) =
    some ([1], [0xF9, 0xFF, 0xFF, 0xFF, 1], [.wearNeg 1]) := by decide +kernel
theorem witness_CausesOpen_added : fallsDue (openingWith true) .hardCurrent ⟨.hardCurrent, 0, 0, 0, 0⟩
    ∧ fallsDue (openingWith true) .silence ⟨.silence, 0, 0, 0, 9999⟩ ∧ plain (openingWith true) = true ∧ plain (openingWith false) = true
    ∧ (openingWith true).sup.state = .opening ∧ (openingWith true).sup.opening = some ⟨[5], -7, [.silence], 980⟩
    ∧ ((openingWith true).ev.at 4).map (fun r => (r.adding, r.kind, r.cause, r.causes)) = some (true, .autoOpen, OpenCause.silence.code, [])
    ∧ ((List.range 16).all fun j => decide (j = 4) || ((openingWith true).ev.at j).isNone) = true := by
  unfold fallsDue; decide +kernel
theorem test_hardCurrent_revision : after .hardCurrent (withBytes [(eventAt 4, [9, 9])]
    { openingWith true with ev := (openingWith true).ev.change 4 fun r => { r with revision := 255 } })
    (fun t => t.mem.readBytes (eventAt 4) 2) = some [2, 255] := by decide +kernel
theorem openingWith_lawful : (openingWith true).Lawful where
  coils := by decide +kernel
  asleep := by decide +kernel
  update := by decide +kernel
  opening := by decide +kernel
  close := by decide +kernel
  weld := fun w h => nomatch (h : (none : Option Weld) = some w)
  clear := by decide +kernel
  deferral := by decide +kernel
  startUp := by decide +kernel
  waiting := by decide +kernel
  entry := by decide +kernel
  patrol := by decide +kernel
  returning := by decide +kernel
  notes := by decide +kernel
theorem witness_CoilReports_opening : (openingWith true).Lawful ∧ ((openingWith true).sup.coil .mainNeg).on = true
    ∧ elapsed (openingWith true).now ((openingWith true).sup.coil .mainNeg).nextReport < 2 ^ 31
    ∧ ((299 : Nat) : Int) < (openingWith true).store.active.coilMin :=
  ⟨openingWith_lawful, by decide +kernel⟩
theorem test_coilReport_opening : after (.coilReport .mainNeg 299 none) (openingWith true)
    (fun t => (t.sup.state, t.sup.coils, t.ev.inbox.map (·.detail), t.mem.readBytes 0x370 1)) =
    some (.weldCheck, ⟨false, false, false⟩, [.coilFault .mainNeg 299 none], [1]) := by decide +kernel
theorem test_hardCurrent_added : after .hardCurrent (openingWith true)
    (fun t => ((t.ev.at 4).map (fun r => (r.causes, r.revision)), t.attn.pending .eventNew, t.sup.opening.map (·.causes))) =
    some (some ([⟨.hardCurrent, 0, 0, 0, 0⟩], 1), true, some [.silence, .hardCurrent]) := by decide +kernel
/-- A close is in progress in slot 5. -/
def closingIn5 : State := inSlot 5 1 { closedAt 100 with sup := { (closedAt 100).sup with state := .closing, close := some ⟨5, 200, 950, 800, 300, 39000, 40000⟩ } }
theorem witness_CausesOpen_slip : postedSlip (posted 2 (closedAt 35000)) 0x01000003 [] 3 (some .open_) ∧ plain (posted 2 (closedAt 35000)) = true
    ∧ (closedAt 35000).chain.requests = [] ∧ (closedAt 35000).power.state ≠ .enteringDeep ∧ (closedAt 35000).sup.state.isClosing = true
    ∧ (closedAt 35000).newest = some (sample 899900 35000 40000 39000) ∧ (closedAt 35000).sup.mainPos.on = true
    ∧ (closedAt 35000).store.queue = []
    ∧ postedSlip (posted 2 (openingWith true)) 0x01000003 [] 3 (some .open_) ∧ plain (posted 2 (openingWith true)) = true
    ∧ slipsOk (posted 2 (closedAt 35000)) = true ∧ slipsOk (posted 2 (openingWith true)) = true ∧ slipsOk (openingWith true) = true
    ∧ slipsOk (posted 2 closingIn5) = true := by
  unfold postedSlip; decide +kernel
theorem test_post_open : after .post (posted 2 (closedAt 35000))
    (fun t => (t.sup.state, t.ev.inbox.map (fun e => (e.kind, e.together)), t.store.queue.map (·.payload), t.mem.num 0x2C0 4)) =
    some (.opening, [(.opened, false), (.highCurrentBreak, true)], [.wearPos 1000], 2) := by decide +kernel
theorem test_post_open_aborts : after .post (posted 2 closingIn5) (fun t => (t.sup.state, t.mem.readBytes 0x370 2)) = some (.opening, [5, 0]) := by decide +kernel

/-! UPDATE_APPLY of a module image, UPDATE_ABORT -/

/-- A module update that is VERIFIED, on a chain that is held. -/
def verifiedFor (addr : Nat) : State :=
  { held .config .idle with upd := { base.upd with
      state := .verified
      header := ⟨.moduleFirmware, 0, 3, 4, 300, []⟩
      staging := List.replicate 300 0
      dist := [⟨1, .failed, none, none, none, false⟩, ⟨addr, .pending, none, none, none, false⟩] } }
/-- The same for a module that is not there alone. -/
def verifiedNone : State := { verifiedFor 3 with upd := { (verifiedFor 3).upd with dist := [⟨3, .pending, none, none, none, false⟩] } }
theorem witness_CheckEnds_firmware : passes 13 [] .updateApply (verifiedFor 2) = true ∧ (verifiedFor 2).chain.hold.isSome = true
    ∧ (verifiedFor 2).chain.down = false ∧ (verifiedFor 2).chain.state ≠ .asleep
    ∧ (verifiedFor 2).chain.requests.contains (.firmware .block) = false
    ∧ (verifiedFor 2).upd.dist = [⟨1, .failed, none, none, none, false⟩] ++ ⟨2, .pending, none, none, none, false⟩ :: []
    ∧ (verifiedFor 2).eligible 2 = true ∧ passes 13 [] .updateApply verifiedNone = true ∧ verifiedNone.eligible 3 = false := by decide +kernel
theorem test_post_updateApply : after .post (postedWith 13 [] (verifiedFor 2)) (fun t => (t.upd.state, t.upd.dist.map (·.state), t.chain.requests)) =
    some (.distributing, [.failed, .sending], [.firmware .block]) := by decide +kernel
theorem test_post_updateApply_none : after .post (postedWith 13 [] verifiedNone) (fun t => (t.upd.outcome, t.mem.readBytes 0x2F0 2)) =
    some (.noneSent, [3, 31]) := by decide +kernel
/-- An update in a state, with its slip in slot 4. -/
def updating (st : UpdState) (c : CommitStep) (l : EngineLink) (w : Option SwitchWindow) (q : List WriteReq) : State :=
  inSlot 4 13
    { blockSent true st with
      store := { base.store with queue := q }
      upd := { (blockSent true st).upd with slip := some (if st = .checking then .check else .apply, 4), commit := c, link := l, window := w } }
/-- The hypotheses of an UPDATE_ABORT. -/
def aborts (s : State) : Bool :=
  let t := posted 14 s
  sound t && slipsOk t && t.power.entry.isNone && t.power.patrol.isNone && t.power.returning.isNone && t.plan.burst.isNone
  && decide (t.power.state ≠ .enteringDeep) && t.posted 3
  && decide (slipKindOf (Memory.read t.mem (slotAt 3 + 4)) = some .updateAbort)
/-- A request of the engine waits, in a chain pause or without one. -/
def waitsFor (r : FwReq) (p : Option Ms) (st : UpdState) : State :=
  { updating st .none .waiting none [] with
    chain := { (updating st .none .waiting none []).chain with requests := [.firmware r] }
    upd := { (updating st .none .waiting none []).upd with pause := p } }
theorem witness_CheckEnds_withdrawn : aborts (waitsFor .block none .distributing) = true
    ∧ aborts (waitsFor .block (some 900) .distributing) = true ∧ aborts (waitsFor .switch none .switching) = true
    ∧ aborts (waitsFor .switch (some 900) .switching) = true ∧ (waitsFor .switch none .switching).upd.window = none
    ∧ (waitsFor .switch none .switching).upd.commit ≠ .fwFloor ∧ (waitsFor .block none .distributing).upd.link ≠ .exchange
    ∧ (waitsFor .block none .distributing).upd.aborts = [] ∧ (waitsFor .switch none .switching).upd.aborts = [] := by decide +kernel
theorem test_post_abort_withdraws : after .post (posted 14 (waitsFor .block (some 900) .distributing))
    (fun t => (t.upd.pause.isNone, t.chain.requests.isEmpty, t.upd.dist.map (·.cause), t.mem.readBytes 0x2F0 1)) =
    some (true, true, [some .aborted], [1]) := by decide +kernel
theorem witness_CheckEnds_abort : aborts (updating .checking .none .none none []) = true
    ∧ aborts (updating .committing .bank .none none [⟨.bank ⟨1, []⟩, [.engine]⟩]) = true
    ∧ aborts (updating .committing .bank .none none []) = true
    ∧ aborts (updating .committing .marker .none none [⟨.marker .b, [.engine]⟩]) = true
    ∧ aborts (updating .committing .marker .none none []) = true ∧ aborts (updating .committing .floor .none none []) = true
    ∧ aborts (updating .distributing .none .waiting none []) = true ∧ aborts (updating .distributing .none .exchange none []) = true
    ∧ aborts (updating .switching .none .waiting none []) = true ∧ aborts (updating .switching .none .none (some ⟨900, 0, none⟩) []) = true
    ∧ aborts (updating .switching .fwFloor .none none []) = true ∧ aborts blockAborted = true
    ∧ (updating .committing .bank .none none []).upd.pause = none ∧ (updating .committing .bank .none none []).chain.requests = []
    ∧ blockAborted.upd.pause = none ∧ blockAborted.chain.requests = []
    ∧ (updating .checking .none .none none []).upd.aborts = [] ∧ blockAborted.upd.aborts = [5] ∧ blockAborted.upd.link = .exchange
    ∧ blockAborted.upd.switchPending = false := by decide +kernel
theorem test_post_abort_committing : after .post (posted 14 (updating .committing .marker .none none [⟨.marker .b, [.engine]⟩]))
    (fun t => (t.upd.state, t.upd.outcome, t.store.queue, t.mem.readBytes 0x2F0 1, t.mem.readBytes 0x330 1)) =
    some (.idle, .aborted, [], [1], [5]) := by decide +kernel
theorem test_post_abort_late : after .post (posted 14 (updating .committing .floor .none none []))
    (fun t => (t.upd.state, t.upd.aborts, t.upd.aborting)) = some (.committing, [3], false) := by decide +kernel
theorem test_post_abort_waits : after .post (posted 14 (updating .distributing .none .exchange none []))
    (fun t => (t.upd.state, t.upd.aborts, t.upd.aborting)) = some (.distributing, [3], true) := by decide +kernel

/-! The mended rules -/

/-- The host has written to the words of the contactor record that no field occupies. -/
def scribbled : State := withBytes [(0x28, [7, 7, 7, 7])] (closing .closing)
theorem test_contactor_record_whole : after .mainSettleEnd scribbled (fun t => t.mem.readBytes 0x28 4) = some [0, 0, 0, 0] := by decide +kernel
theorem test_alert_at_level_0 : after (.sleepBroadcast 5) { returning with pins.chainAlert := true, power := { returning.power with
      returning := some 4, pend := 4, wakeTable := { base.power.wakeTable with chain := 0 } } } (fun t => (t.power.pend, t.power.state)) =
    some (0, .deep) := by decide +kernel

/-- The oldest record has the next sequence number, and the host has written over a byte of it. -/
def wrapped : State := withBytes [(0x182C, [0x55])] { (fullArea 0) with ev := { (fullArea 0).ev with next := 1 } }
theorem test_eventTake_same_seq : after (.eventTake 0) wrapped (fun t => ((t.ev.at 0).map (·.seq), t.ev.next, t.mem.readBytes 0x182C 1)) =
    some (some 1, 2, [0]) := by decide +kernel
theorem test_resetLine_keeps_copies : after (.resetLine .erased) { base with store.work.floor := 7 } (fun t => (t.store.work.floor, t.store.startUp)) =
    some (7, true) := by decide +kernel

/-! ### Surge at the broadcast, a halted time base, an already clear factor -/

/-- The survey has put the chain down while the CAPTURE was sent, and surge holds. -/
def surged : State :=
  { holding (.sending (frame .capture 31 9)) with
    chain := { (holding (.sending (frame .capture 31 9))).chain with state := .down }
    sup := { base.sup with lowSupply := true } }
theorem test_captureSent_surge : after (.captureSent 70) surged (fun t => t.plan.captures.map (fun c => (c.stage, c.surge))) =
    some [(.building, true)] := by decide +kernel
theorem test_frameSent_halted : after (.frameSent 70) { reading with chain := { reading.chain with line := .sending (frame .read 1 9) }, conv := { base.conv with scanning := false } }
    (fun t => (t.conv.us, t.chain.lastSent.map (·.2))) = some (900000, some 900000) := by decide +kernel
theorem test_clear_already_clear : after .clear (noted 3 0x20 { base with chain.wasDown := true }) (·.chain.wasDown) = some true := by decide +kernel

/-! ### Third review: states for the clauses that it asked for -/

/-- Step 2 of a sleep entry, the balancing stop being sent. -/
def stopping : State := { balancing with power := { base.power with state := .enteringDeep, entry := some ⟨3, 2, 750⟩ } }
theorem witness_BalancingStopsAndProbes_entry : stopping.plan.burst = none ∧ stopping.upd.pause = none
    ∧ stopping.upd.state ≠ .distributing ∧ stopping.power.patrol = none ∧ stopping.power.returning = none
    ∧ stopping.power.entry = some ⟨3, 2, 750⟩ ∧ stopping.chain.requests = []
    ∧ stopping.chain.line = .sending (frame .config 31 9) ∧ stopping.chain.hold = some .stop := by decide +kernel
theorem test_balancingStopSent_entry : after (.balancingStopSent 70) stopping (fun t => (t.power.entry, t.store.queue)) =
    some (some ⟨3, 3, 1000⟩, [⟨.snapshot ⟨0, false⟩, [.entry]⟩]) := by decide +kernel

/-- The conversion wait with modules that are OUT_OF_SERVICE; module 1 has a kept reading. -/
def waitedOut (e2 : ModuleEntry) : State :=
  { waited with
    chain.map := [{ module1 with state := .outOfService }, e2] ++ State.reset.chain.map.drop 2
    plan := { waited.plan with
      kept := setAt base.plan.kept 0 (some ⟨List.replicate 4 (35000, false), [(250, false)], some 100, false, false, 254⟩) } }
theorem witness_ReadsBegin_out : rests (waitedOut module1) = true ∧ sound (waitedOut module1) = true
    ∧ (waitedOut module1).plan.captures.find? Capture.holding =
      some { capture .held with tb := some 0, bcast := some ⟨40000, 100, 100, false⟩ }
    ∧ ({ capture .held with tb := some 0, bcast := some ⟨40000, 100, 100, false⟩ } : Capture).paired = true
    ∧ (capture .held).items = [item 1 false] ++ item 2 false :: [] ∧ ((capture .held).items.map (·.addr)).Nodup
    ∧ ((capture .held).items.all fun n => !n.settled) = true
    ∧ ((waitedOut module1).chain.entry 1).any readable = false ∧ ((waitedOut module1).chain.entry 2).any readable = true
    ∧ ((waitedOut { module1 with state := .outOfService }).chain.entry 2).any readable = false
    ∧ rests (waitedOut { module1 with state := .outOfService }) = true
    ∧ sound (waitedOut { module1 with state := .outOfService }) = true
    ∧ (waitedOut { module1 with state := .outOfService }).chain.requests = [] := by decide +kernel

theorem witness_SurveyEchoBack_next : sound (switchProbed false .sent) = true ∧ rests (switchProbed false .sent) = true
    ∧ (switchProbed false .sent).upd.header.version = 4
    ∧ getAt (switchProbed false .sent).upd.dist 1 = some ⟨2, .sent, none, some 1, none, false⟩
    ∧ (switchProbed false .sent).eligible 2 = true ∧ (switchProbed false .sent).chain.entry 2 = some module1
    ∧ (switchProbed false .sent).chain.down = false ∧ (switchProbed false .sent).chain.state ≠ .asleep
    ∧ (switchProbed false .sent).chain.sleepCmd = false ∧ (switchProbed false .sent).chain.wake = .none
    ∧ (switchProbed false .sent).upd.aborting = false
    ∧ (switchProbed false .sent).upd.current = some (⟨0, false, 0, 0⟩, ⟨1, .sent, none, some 1, none, false⟩) := by decide +kernel

/-- The first survey since a reset, which began in DOWN, at its last address, which is configured; a BALANCE slip is in
flight in slot 3. -/
def firstSurvey (e : ModuleEntry) (sleeps : Bool) : State :=
  inSlot 3 7
    { surveying 24 false with
      chain := { (surveying 24 false).chain with
        firstUp := false
        origin := .down
        sleepCmd := sleeps
        balance := some ⟨3, [(1, 6)], 0, 60, 0, 0, 0, false, 0, false, false⟩
        map := [module1, module1] ++ (State.reset.chain.map.drop 2).take 21 ++ [e] } }
theorem witness_SurveyEnds_first : plain (firstSurvey module1 false) = true ∧ plain (firstSurvey module1 true) = true
    ∧ (firstSurvey module1 false).chain.requests = [] ∧ (firstSurvey module1 false).chain.returning = []
    ∧ (firstSurvey module1 false).upd.window = none ∧ (firstSurvey module1 false).upd.state ≠ .switching
    ∧ (firstSurvey module1 false).power.returning = none ∧ (firstSurvey module1 false).chain.wake = .none
    ∧ (firstSurvey module1 false).chain.entry 24 = some module1 ∧ module1.cells = 4 ∧ module1.sensors = 1
    ∧ (firstSurvey module1 false).chain.surveySlip = none ∧ (firstSurvey module1 true).chain.sleepCmd = true
    ∧ (firstSurvey { module1 with state := .outOfService } false).chain.entry 24 = some { module1 with state := .outOfService }
    ∧ plain (firstSurvey { module1 with state := .outOfService } false) = true
    ∧ (((firstSurvey module1 false).chain.survey.take 23).zip ((firstSurvey module1 false).chain.map.take 23)).all matchesMap = true :=
  by decide +kernel
theorem witness_SurveyEnds_balance : (firstSurvey module1 false).inFlight 3 := ⟨by decide, _, rfl⟩

/-- The block of a turn has left, of an update with records; the supervisor is in a state. -/
def blockAt (len : Nat) (tn : Turn) (dist : List DistRec) (st : SupState) : State :=
  inSlot 4 13
    { blockSent true .distributing with
      sup := { base.sup with state := st }
      upd := { (blockSent true .distributing).upd with
        header := ⟨.moduleFirmware, 0, 1, 4, len, []⟩
        staging := List.replicate len 0
        slip := some (.apply, 4)
        dist := dist
        turn := some tn } }
/-- The hypotheses on a block's state in its answers other than the abort's. -/
def blockWaits (s : State) (tn : Turn) (d : DistRec) : Bool :=
  sound s && rests { s with upd := base.upd } && s.plan.burst.isNone && s.upd.pause.isNone && s.chain.requests.isEmpty
  && decide (s.upd.current = some (tn, d)) && decide (s.upd.state = .distributing) && !s.upd.aborting && !s.spoiled d
  && decide (s.chain.state = .up) && !s.chain.sleepCmd && decide (s.chain.wake = .none)
  && s.power.entry.isNone && s.power.patrol.isNone && s.power.returning.isNone
/-- A record of an address in a state. -/
def distRec (a : Nat) (st : DistState) : DistRec := ⟨a, st, none, none, none, false⟩
theorem witness_BlockAcknowledged_more :
    blockWaits (blockAt 300 ⟨0, false, 1, 2⟩ [distRec 1 .sending, distRec 2 .pending] .closed) ⟨0, false, 1, 2⟩ (distRec 1 .sending) = true
    ∧ blockWaits (blockAt 300 ⟨0, false, 1, 4⟩ [distRec 1 .sending] .open_) ⟨0, false, 1, 4⟩ (distRec 1 .sending) = true
    ∧ blockWaits (blockAt 300 ⟨1, false, 1, 1⟩ [distRec 2 .sent, distRec 1 .sending] .closed) ⟨1, false, 1, 1⟩ (distRec 1 .sending) = true
    ∧ blockWaits (blockAt 300 ⟨1, false, 1, 1⟩ [distRec 2 .sent, distRec 1 .sending] .open_) ⟨1, false, 1, 1⟩ (distRec 1 .sending) = true
    ∧ blockCount 300 = 1 + 1 ∧ base.eligible 1 = true ∧ base.eligible 2 = true
    ∧ answerFails (blockAt 300 ⟨0, false, 1, 2⟩ [distRec 1 .sending, distRec 2 .pending] .closed) (frame .block 1 9) 0 320
      (.replyTimeout 320) := by unfold answerFails; decide +kernel
/-- The CRC-16 of zeros, whatever their number, is 0. -/
theorem crc16_zeros (n : Nat) : crc16 (List.replicate n 0) = 0 := by
  have h : ∀ n, (List.replicate n (0 : Byte)).foldl (fun c b => crc16Byte c b.toNat) 0 = 0 := by
    intro n
    induction n with
    | zero => rfl
    | succ n ih => simpa [List.replicate_succ, (by decide : crc16Byte 0 0 = 0)] using ih
  unfold crc16
  rw [h]
  rfl
theorem witness_BlockAcknowledged_crc : crc16 (blockData (List.replicate 300 0) 1) ≠ 1 := by
  rw [(by decide +kernel : blockData (List.replicate 300 0) 1 = List.replicate 256 0), crc16_zeros]
  decide
theorem test_block_no_ack : after (.replyTimeout 320) (blockAt 300 ⟨0, false, 1, 4⟩ [distRec 1 .sending] .open_)
    (fun t => (t.upd.outcome, t.upd.dist.map (·.cause), t.mem.readBytes 0x330 2)) =
    some (.noneSent, [some .noAck], [3, 31]) := by decide +kernel

/-! Samples with other readers -/

/-- A sample has been latched while an estimate has collected so many currents; one more window fills. -/
def estimating (n : Nat) : State :=
  { filling 3 0 with
    conv := { (filling 3 0).conv with estimate := some ⟨7000, List.replicate n 101⟩ }
    ev := { (filling 3 0).ev with
      slots := setAt (filling 3 0).ev.slots 5 (some { record 11 with complete := false, kind := .autoOpen, tn := 905000 })
      filling := [2, 5] } }
theorem witness_SampleLatchesAndCompletes_estimate : plain (estimating 14) = true ∧ plain (estimating 15) = true
    ∧ (estimating 15).chain.requests = [] ∧ (estimating 15).conv.scanning = true
    ∧ (estimating 15).conv.latched = some (sample 907000 100 40004 39005) ∧ (estimating 15).sup.weld = none
    ∧ (estimating 15).sup.deferral = none ∧ (estimating 14).conv.estimate = some ⟨7000, List.replicate 14 101⟩
    ∧ (estimating 15).conv.estimate = some ⟨7000, List.replicate 15 101⟩
    ∧ roundHalfAway (List.replicate 15 (101 : Int) ++ [100]).sum 16 = 101 ∧ (estimating 15).ev.filling = [2, 5]
    ∧ ((907000 : Us) - 905000).toNat ≠ 400 * (0 + 1) := by decide +kernel
theorem test_sampleComplete_estimate : after .sampleComplete (estimating 15)
    (fun t => (t.conv.charge, t.conv.estimate, t.power.estimate, (t.ev.at 2).map (·.post.length), (t.ev.at 5).map (·.post.length))) =
    some (100 + 101 * 70000, none, .made 101 (100 + 101 * 70000), some 4, some 0) := by decide +kernel
/-- A sample has been latched while a capture has its pairs and broadcast readings to come. -/
def pairing (h : List Sample) (x tm tb : Us) : State :=
  { base with
    conv := { base.conv with history := h, latched := some (sample x 200 40004 39005) }
    plan := { base.plan with captures :=
      [{ capture .requested with tb := none },
        { capture .held with tb := some tb, items := [{ item 1 false with tm := tm, pair := none }, { item 2 false with pair := some ⟨1, 1, 0, false, false⟩ }] }] } }
theorem witness_SampleLatchesAndCompletes_pairs : plain (pairing [sample 899900 100 40000 100] 900000 899970 899960) = true
    ∧ plain (pairing [] 900000 899970 899960) = true ∧ plain (pairing [] 100 899970 899960) = true
    ∧ plain (pairing [sample 899900 100 40000 100] 900000 900000 900001) = true
    ∧ (pairing [] 900000 899970 899960).chain.requests = [] ∧ (pairing [] 900000 899970 899960).conv.scanning = true
    ∧ getAt (pairing [] 900000 899970 899960).plan.captures 0 = some (capture .requested)
    ∧ ((getAt (pairing [] 900000 899970 899960).plan.captures 1).map fun c => (c.tb, c.bcast, c.items.map (·.tm))) =
      some (some 899960, none, [899970, 0])
    ∧ elapsed 900000 899970 < 2 ^ 31 ∧ 2 ^ 31 ≤ elapsed 900000 900001 ∧ elapsed 899960 899900 = 60
    ∧ 2 ^ 31 ≤ elapsed 100 899970 ∧ 1000 ≤ elapsed 899970 100 := by decide +kernel
theorem test_sampleComplete_pairs : after .sampleComplete (pairing [sample 899900 100 40000 100] 900000 899970 899940)
    (fun t => t.plan.captures.map fun c => (c.bcast, c.items.map (·.pair))) =
    some [(none, [some ⟨100, 140, 25, false, false⟩, some ⟨100, 140, 25, false, false⟩]),
      (some ⟨40000, 100, 100, false⟩, [some ⟨100, 200, 70, false, false⟩, some ⟨1, 1, 0, false, false⟩])] := by decide +kernel
/-- A deferral of two causes runs in CLOSED with a BALANCE slip in flight in slot 5, as a sample with a current has been latched;
the chain is free, or carries the slip's CONFIG. -/
def deferring (i : Int) (free : Bool) : State :=
  inSlot 5 7
    { closedAt 60000 with
      conv := { (closedAt 60000).conv with latched := some (sample 900000 i 40000 39000) }
      chain := { base.chain with
        hold := if free then none else some .config
        balance := some ⟨5, [(1, 6)], 1, 60, 1, 0, 0, false, 0, false, false⟩ }
      sup := { (closedAt 60000).sup with deferral := some ⟨700, 300, [⟨.silence, 0, 0, 0, 9⟩, ⟨.hardTemp, 7, 1, 0, 0⟩]⟩ } }
theorem witness_SampleLatchesAndCompletes_deferral : plain (deferring 34999 true) = true ∧ plain (deferring 34999 false) = true
    ∧ slipsOk (deferring 34999 true) = true ∧ slipsOk (deferring 34999 false) = true
    ∧ (deferring 34999 true).conv.scanning = true ∧ (deferring 34999 true).chain.requests = []
    ∧ (deferring 34999 true).chain.free = true ∧ (deferring 34999 false).chain.hold = some .config
    ∧ (deferring 34999 true).sup.weld = none ∧ ((34999 : Int).natAbs : Int) < (deferring 34999 true).store.active.breakLimit
    ∧ (deferring 34999 true).sup.mainPos.on = true ∧ (deferring 34999 true).store.queue = []
    ∧ (deferring 34999 true).chain.balance = some ⟨5, [(1, 6)], 1, 60, 1, 0, 0, false, 0, false, false⟩ := by decide +kernel
/-- A weld window has ended without a sample; one has been latched. -/
def weldWaits (forClear : Bool) (v : Nat) : State :=
  { (if forClear then clearPassed 100 else weldPassed) with
    conv := { base.conv with history := [], latched := some (sample 900000 0 40000 v) }
    sup := { (if forClear then clearPassed 100 else weldPassed).sup with weld := some ⟨0, 1000, forClear, true⟩ } }
theorem witness_SampleLatchesAndCompletes_weld : plain (weldWaits false 36000) = true ∧ plain (weldWaits false 100) = true
    ∧ plain (weldWaits true 36000) = true ∧ plain (weldWaits true 100) = true ∧ slipsOk (weldWaits false 36000) = true
    ∧ slipsOk (weldWaits true 36000) = true ∧ (weldWaits true 100).chain.requests = [] ∧ (weldWaits true 100).sup.deferral = none
    ∧ (weldWaits false 100).sup.state = .weldCheck ∧ (weldWaits true 100).sup.state = .lockedOut
    ∧ (weldWaits true 100).sup.clear = some ⟨3, 0, 0⟩ ∧ (weldWaits true 100).conv.scanning = true
    ∧ (base.store.active.weldRatio.toNat * 40000 ≤ 36000 * 1000) ∧ 100 * 1000 < base.store.active.weldRatio.toNat * 40000 := by
  decide +kernel
/-! The restore of the charge counter -/

/-- Two milliseconds after a reset, with the lockout record set, a snapshot or none and some charge counted. -/
def restoring (x : Option Snapshot) (last : ResetCause) : State :=
  { lockSet with
    conv := { lockSet.conv with charge := -7, recNumber := 65535 }
    power := { lockSet.power with lastReset := last }
    store := { lockSet.store with nv := { lockSet.store.nv with
      snapshot := match x with | none => ⟨.erased, .erased⟩ | some v => ⟨.valid v 1, .erased⟩ } } }
theorem witness_StartUpReadEnds_restore : (restoring none .powerOn).store.nv.working.snapshot = none
    ∧ (restoring (some ⟨50, false⟩) .powerOn).store.nv.working.snapshot = some ⟨50, false⟩
    ∧ plain (restoring none .powerOn) = true ∧ plain (restoring (some ⟨50, false⟩) .powerOn) = true
    ∧ plain (restoring none .resetLine) = true ∧ (restoring none .powerOn).store.startUp = true
    ∧ 2 ≤ elapsed (restoring none .powerOn).now 0 ∧ (restoring none .powerOn).power.lastReset = .powerOn
    ∧ (restoring none .resetLine).power.lastReset = .resetLine ∧ rests (restoring none .powerOn) = true := by decide +kernel
theorem test_startUpReadEnd_snapshot : after .startUpReadEnd (restoring (some ⟨50, false⟩) .powerOn)
    (fun t => (t.conv.charge, t.conv.restored, t.conv.recNumber, t.attn.pending .lockout, t.attn.pending .contactorChange)) =
    some (43, true, 1, true, false) := by decide +kernel

/-! Sets: what they are judged by -/

/-- The capture of a CAPTURE_NOW slip in slot 6, with readings and a broadcast voltage. -/
def slipBuilding (cells age vBatt : Nat) (surge : Bool) : State :=
  inSlot 6 8
    { builtOf 0 cells 250 age 100 with
      plan := { (builtOf 0 cells 250 age 100).plan with
        implausible := 2
        captures := (builtOf 0 cells 250 age 100).plan.captures.map fun c =>
          { c with plan := nowPlan, slot := some 6, surge := surge, bcast := some ⟨vBatt, 100, 100, false⟩ } } }
theorem witness_SetIsBuilt_judged : plain (slipBuilding 35000 0 2800 false) = true ∧ slipsOk (slipBuilding 35000 0 2800 false) = true
    ∧ (slipBuilding 35000 0 2800 false).plan.writing = none
    ∧ ((setOf (slipBuilding 35000 0 2800 false)).map fun x => (x.1.slot, x.1.plan, x.2.sumChecked, x.2.implausible, x.2.partial_)) =
      some (some 6, nowPlan, true, false, false)
    ∧ ((setOf (slipBuilding 35000 1 2800 false)).map fun x => (x.2.sumChecked, x.2.implausible, x.2.partial_)) = some (true, false, true)
    ∧ plain (slipBuilding 35000 1 2800 false) = true
    ∧ ((setOf (slipBuilding 35000 0 9000 false)).map fun x => (x.1.surge, x.2.sumChecked, x.2.implausible)) = some (false, true, true)
    ∧ ((setOf (slipBuilding 35000 0 9000 true)).map fun x => (x.1.surge, x.2.implausible)) = some (true, true)
    ∧ plain (slipBuilding 35000 0 9000 false) = true ∧ plain (slipBuilding 35000 0 9000 true) = true
    ∧ base.store.inForce.softMax = 41500
    ∧ ((setOf (slipBuilding 42001 0 3360 false)).map fun x => x.2.cells.map fun p => (p.fresh, p.value)) =
      some (List.replicate 8 (true, some (42001, false)))
    ∧ plain (slipBuilding 42001 0 3360 false) = true := by decide +kernel
theorem witness_SetIsBuilt_now : (slipBuilding 35000 0 9000 false).inFlight 6 := ⟨by decide, _, rfl⟩
theorem test_setBuilt_now : after .setBuilt (slipBuilding 35000 0 9000 false)
    (fun t => (t.plan.implausible, t.attn.pending .sumMismatch, t.mem.readBytes 0x3B0 2, t.mem.readBytes 0x3B4 7)) =
    some (3, true, [1, 0], [0xFF, 0xFF, 0xFF, 0xFF, 0, 2, 2]) := by decide +kernel
/-! Autonomous openings whole -/

/-- A deferral at its limit, with a CLOSE in flight in slot 5, in a closing state; the chain is free or occupied. -/
def limitReached (free : Bool) : State :=
  inSlot 5 1
    { deferring 60000 free with
      chain := { (deferring 60000 free).chain with balance := none }
      sup := { (deferring 60000 free).sup with state := .closing, close := some ⟨5, 200, 950, 800, 300, 39000, 40000⟩ } }
theorem witness_CausesOpen_limit : plain (limitReached true) = true ∧ plain (limitReached false) = true
    ∧ slipsOk (limitReached true) = true ∧ slipsOk (limitReached false) = true
    ∧ (limitReached true).newest = some (sample 899900 60000 40000 39000)
    ∧ (limitReached true).sup.deferral = some ⟨700, 300, [⟨.silence, 0, 0, 0, 9⟩, ⟨.hardTemp, 7, 1, 0, 0⟩]⟩
    ∧ 300 ≤ elapsed (limitReached true).now 700 ∧ (limitReached true).chain.free = true
    ∧ (limitReached false).chain.hold.isSome = true ∧ (limitReached false).chain.down = false
    ∧ (limitReached false).chain.state ≠ .asleep ∧ (limitReached true).chain.requests = []
    ∧ (limitReached true).sup.close.map (·.slot) = some 5
    ∧ plain (closedAt 34999) = true ∧ slipsOk (closedAt 34999) = true ∧ (closedAt 34999).chain.free = true
    ∧ (closedAt 34999).chain.requests = [] ∧ (closedAt 34999).sup.mainPos.on = true := by decide +kernel
theorem test_deferralLimit_close : after .deferralLimit (limitReached false)
    (fun t => (t.sup.state, t.chain.requests, t.attn.pending .autoOpen, t.mem.readBytes 0x370 2)) =
    some (.opening, [.stop], true, [5, 0]) := by decide +kernel

/-! ### Fourth review: states for the clauses that it asked for -/

/-- The records of MAIN_NEG's wear count and of the charge snapshot are lost; bank B, which the marker names, is invalid, and bank
A, where there is one, holds a version above the floor. -/
def recordsLost (a : Option Image) : State :=
  { otherBank with store := { otherBank.store with nv := Nv.setImage { otherBank.store.nv with
      wearNeg := ⟨.erased, .faulted⟩, snapshot := ⟨.faulted, .erased⟩ } .a a } }
theorem witness_StartUpReadEnds_lost : rests (recordsLost none) = true ∧ rests (recordsLost (some ⟨5, []⟩)) = true
    ∧ (recordsLost none).store.nv.lostBits ≠ 0 ∧ otherBank.store.nv.lostBits = 0 ∧ (recordsLost none).store.startUp = true
    ∧ 2 ≤ elapsed (recordsLost none).now 0 ∧ (recordsLost none).store.nv.startChoice (recordsLost none).store.nv.working = none
    ∧ (recordsLost (some ⟨5, []⟩)).store.nv.startChoice (recordsLost (some ⟨5, []⟩)).store.nv.working = some (.a, false)
    ∧ (recordsLost (some ⟨5, []⟩)).store.nv.working.floor < 5 ∧ (recordsLost (some ⟨5, []⟩)).store.queue = [] := by decide +kernel
theorem test_startUpReadEnd_lost : after .startUpReadEnd (recordsLost (some ⟨5, []⟩))
    (fun t => (t.store.faultCause, t.store.faultItem, t.store.queue.map (·.payload))) =
    some (some .recordLost, some .wearNeg, [.marker .a, .floor 5]) := by decide +kernel

/-- A close in slot 3 with all coils energized and a deferral running since part time 950. -/
def closeDeferred : State :=
  { closing .closing with
    conv := (closedAt 100).conv
    sup := { (closing .closing).sup with
      mainPos := ⟨true, 970, 1000⟩
      deferral := some ⟨950, 300, [⟨.silence, 0, 0, 0, 700⟩]⟩ } }
theorem witness_CoilReports_closing : plain closeDeferred = true ∧ closeDeferred.chain.requests = [] ∧ closeDeferred.newest.isSome = true
    ∧ (closeDeferred.sup.coil .mainNeg).on = true ∧ elapsed closeDeferred.now (closeDeferred.sup.coil .mainNeg).nextReport < 2 ^ 31
    ∧ (closeDeferred.sup.coil .mainPos).on = true ∧ elapsed closeDeferred.now (closeDeferred.sup.coil .mainPos).nextReport < 2 ^ 31
    ∧ ((299 : Nat) : Int) < closeDeferred.store.active.coilMin ∧ closeDeferred.sup.close = some ⟨3, 200, 950, 800, 300, 39000, 40000⟩
    ∧ getAt closeDeferred.port.slots 3 = some (some ⟨1, 5, [], some .supervisor⟩) ∧ closeDeferred.store.queue = []
    ∧ (openingWith true).newest.isSome = true ∧ (openingWith true).store.queue = [] := by decide +kernel
theorem test_coilReport_closing : after (.coilReport .mainNeg 299 (some (.mainPos, 7))) closeDeferred
    (fun t => (t.ev.inbox.map (fun e => (e.detail, e.causes.length, e.deferred)), t.store.queue.map (·.payload), t.mem.readBytes 0x2F0 2)) =
    some ([(.coilFault .mainNeg 299 (some (.mainPos, 7)), 1, some 50)], [.wearPos 1, .wearNeg 1], [3, 11]) := by decide +kernel

/-! ### Fifth review: states for the clauses that it asked for -/

/-- DISTRIBUTING with a SENDING and a SENT record; buffer A is TAKING, buffer B was given back. -/
def distributingTwo : State :=
  withBytes [(0x4800, [1, 2, 3, 4, 5, 6, 7, 8, 9, 1, 0, 2]), (0x4818, [4, 0, 1, 4])]
    { blockSent true .distributing with upd := { (blockSent true .distributing).upd with
        dist := [distRec 1 .sending, distRec 2 .sent] } }
theorem witness_ResetLineKeeps_update : sound distributingTwo = true ∧ bufferState distributingTwo.mem .a = 2
    ∧ bufferState distributingTwo.mem .b = 4 ∧ distributingTwo.upd.state = .distributing ∧ base.upd.state = .idle := by decide +kernel
theorem test_resetLine_update : after (.resetLine .erased) distributingTwo
    (fun t => (t.upd.outcome, t.upd.dist.map (·.cause), t.mem.readBytes 0x4808 4, t.mem.readBytes 0x4818 4)) =
    some (.resetDuring, [some .reset, none], [9, 1, 4, 4], [4, 0, 1, 4]) := by decide +kernel

theorem witness_CloseEnds_sample : (closing .precharging).newest = some (sample 899900 100 40000 100) ∧ (closing .precharging).sup.mainNeg.on = true
    ∧ (closing .precharging).store.queue = [] ∧ plain (closing .closing) = true := by decide +kernel
theorem test_prechargeTimeout_fields : after .prechargeTimeout (closing .precharging)
    (fun t => (t.mem.readBytes 0x2F4 12, t.ev.inbox.map (·.detail), t.store.queue.map (·.payload))) =
    some ([0, 0, 0, 0, 100, 0, 0, 0, 0x40, 0x9C, 0, 0], [.volts 100 40000], [.wearNeg 1]) := by decide +kernel

theorem witness_OpeningAndWeldWindow_judged : plain weldPassed = true ∧ weldPassed.chain.requests = []
    ∧ 100 * 1000 < weldPassed.store.active.weldRatio.toNat * 40000
    ∧ weldPassed.store.active.weldRatio.toNat * 40000 ≤ 36000 * 1000 := by decide +kernel
theorem witness_HostWrites_order : getAt ([1, 2, 3] : List Word) 1 = some 2 ∧ 4 * ((0xFFFC : BitVec 16).toNat / 4) + 4 * 0 < 0x10000
    ∧ 4 * ((0x8004 : BitVec 16).toNat / 4) + 4 * 1 = 0x8008 := by decide

end Sys2Proof.Tests
end

namespace Sys2Proof.Machine

/-- Settles O24: each register of the reset state has the value that the definition of `State.reset` writes down. -/
theorem resetValues : Obligations.ResetValues := by
  unfold Obligations.ResetValues
  and_intros <;> rfl

/-! ### Calm and restful states -/

/-- The µs time base after an event of the chain, in the words of the statements. -/
@[simp] theorem usAt_eq_usAfter (s : State) (us : Us) : s.usAt us = usAfter s us := rfl

/-- Where no request waits, a state that shares what goes on by itself with one that rests is at rest. -/
theorem restful_of_idle {n s : State} (h : s.resting) (hq : n.chain.requests = [])
    (hsame : n.power.entry = s.power.entry ∧ n.power.patrol = s.power.patrol ∧ n.power.returning = s.power.returning
      ∧ n.plan.burst = s.plan.burst ∧ n.plan.patrolReport = s.plan.patrolReport ∧ n.upd.pause = s.upd.pause
      ∧ n.upd.state = s.upd.state ∧ n.chain.state = s.chain.state) :
    n.restful :=
  let ⟨he, hp, hr, hb, hrep, hpau, hupd, hst⟩ := hsame
  ⟨resting_of_same h he hp hr hb hrep hpau hupd hst, .inl hq⟩

/-- The requests of a chain wait as before where its state, its origin and its hold are as before. -/
theorem restful_of_held {n s : State} (h : s.restful)
    (hsame : n.power.entry = s.power.entry ∧ n.power.patrol = s.power.patrol ∧ n.power.returning = s.power.returning
      ∧ n.plan.burst = s.plan.burst ∧ n.plan.patrolReport = s.plan.patrolReport ∧ n.upd.pause = s.upd.pause
      ∧ n.upd.state = s.upd.state ∧ n.chain.state = s.chain.state)
    (hchain : n.chain.origin = s.chain.origin ∧ n.chain.hold = s.chain.hold ∧ n.chain.requests = s.chain.requests) :
    n.restful := by
  obtain ⟨he, hp, hr, hb, hrep, hpau, hupd, hst⟩ := hsame
  obtain ⟨ho, hh, hq⟩ := hchain
  refine ⟨resting_of_same h.1 he hp hr hb hrep hpau hupd hst, ?_⟩
  have hd : n.chain.down = s.chain.down := by simp only [Chain.down, hst, ho]
  simpa only [Chain.occupied, hd, hst, hh, hq] using h.2

/-- Each part of the state that the exchange memory shows is as it was, or its record is among `rs`. -/
def State.mirrors (s n : State) (rs : List (Nat × Nat)) : Prop :=
  (pointerBytes s.plan = pointerBytes n.plan ∨ pointerRec ∈ rs) ∧ (countBytes s.plan = countBytes n.plan ∨ countRec ∈ rs)
    ∧ (chainBytes s.chain = chainBytes n.chain ∨ chainRec ∈ rs)
    ∧ (contactorBytes s.sup = contactorBytes n.sup ∨ contactorRec ∈ rs)
    ∧ (s.sup.state = n.sup.state ∧ s.sup.once.set = n.sup.once.set ∨ contactorRec ∈ rs ∧ contactorTail ∈ rs)
    ∧ (s.power.resumed n.power = false ∧ powerBytes s.power = powerBytes n.power ∨ powerRec ∈ rs)
    ∧ (storeBytes s.store = storeBytes n.store ∨ storeRec ∈ rs) ∧ (updateWord s.upd = updateWord n.upd ∨ updateRec ∈ rs)
    ∧ (s.chain.map = n.chain.map ∨ mapRec ∈ rs ∧ n.chain.map.length = 24)
    ∧ (s.ev.slots = n.ev.slots ∧ s.ev.next = n.ev.next ∨ eventRec ∈ rs ∧ n.ev.slots.length = 16)
    ∧ (updateBytes s.upd = updateBytes n.upd ∨ statusRec ∈ rs) ∧ (distArea s.upd.dist = distArea n.upd.dist ∨ statusRec ∈ rs)
    ∧ (s.upd.state = n.upd.state ∨ statusRec ∈ rs)

/-- Of the memory the end of a step changes only the records of those parts of the state that differ. -/
theorem sameBut_mirror {s n : State} {rs : List (Nat × Nat)} (hw : n.mem.wf = true) (hn : s.sameBut n rs)
    (h : s.mirrors n rs) : s.sameBut { n with mem := (mirror s n).mem } rs := by
  obtain ⟨h1, h2, h3, h4, h4', h5, h6, h7, h8, h9, h10, h11, h12⟩ := h
  intro a ha
  refine (read_mirror hw (h1.imp_right (ha _)) (h2.imp_right (ha _)) (h3.imp_right (ha _)) (h4.imp_right (ha _))
    (h4'.imp_right fun h => ⟨ha _ h.1, ha _ h.2⟩) (h5.imp_right (ha _)) (h6.imp_right (ha _)) (h7.imp_right (ha _))
    (h8.imp_right ?_) (h9.imp_right ?_) (h10.imp_right fun h => ?_) (h11.imp_right fun h => ?_)
    (h12.imp_right fun h => ?_)).trans (hn a ha)
  · rintro ⟨h, hl⟩
    rw [hl]
    exact ha _ h
  · rintro ⟨h, hl⟩
    rw [hl]
    exact ha _ h
  all_goals
    have := ha _ h
    simp only [statusRec] at this
    omega

/-- A state whose memory is that of another differs from it in no byte. -/
theorem sameBut_of_mem {s n : State} {rs : List (Nat × Nat)} (h : n.mem = s.mem) : s.sameBut n rs :=
  fun _ _ => by rw [h]

/-- A state that shares the map, the supervisor and the recorder with a calm one is calm, if its captures are marked as surge
asks for. -/
theorem calm_of_captures {n s : State} (h : s.calm) (h1 : n.chain.map = s.chain.map) (h2 : n.sup = s.sup)
    (h3 : n.ev = s.ev)
    (h4 : s.sup.surge = true → ∀ c ∈ n.plan.captures, c.holding = true → c.tb.isSome = true → c.surge = true) :
    n.calm := by
  unfold State.calm at *; rw [h1, h2, h3]
  exact ⟨h.1, h.2.1, h4, h.2.2.2⟩

/-- On a calm state, while surge holds, SURGE stands on the capture that holds the chain after its broadcast (R54). -/
theorem calm_capture {s : State} (h : s.calm) (hs : s.sup.surge = true) :
    ∀ c ∈ s.plan.captures, c.holding = true → c.tb.isSome = true → c.surge = true := by
  obtain ⟨-, -, hcap, -⟩ := h
  exact hcap hs

/-! ### Frames that have left -/

theorem captureSent_react {us : Us} {f : Frame} {s : State} (hl : s.chain.line = .sending f) (hk : f.kind = .capture)
    (hd : s.chain.down = false) :
    exec (.captureSent us) s = s.react { s with
      conv.us := usAfter s us
      chain.lastSent := some (f, usAfter s us)
      chain.line := .conversion (usAfter s us)
      plan.captures := s.plan.captures.map fun c =>
        if c.holding then c.sent f.tag (usAfter s us) s.now s.sup.surge else c } := by
  show execCaptureSent us s = _
  have hd' : ∀ l x, Chain.down { s.chain with lastSent := x, line := l } = false := fun _ _ => hd
  simp [execCaptureSent, hl, Line.frame, hk, State.editHeld, State.sentFrame, State.atUs, State.now, hd']

theorem frameSent_answered_react {us : Us} {f : Frame} {s : State} (hl : s.chain.line = .sending f)
    (ha : f.addressed = true) (hw : f.answered = true) :
    exec (.frameSent us) s = s.react { s with
      conv.us := usAfter s us
      chain.lastSent := some (f, usAfter s us)
      chain.line := .window f (usAfter s us) } := by
  show execFrameSent us s = _
  simp [execFrameSent, hl, Line.frame, ha, hw, State.sentFrame, State.atUs]

theorem switchSent_react {us : Us} {f : Frame} {s : State} (hl : s.chain.line = .sending f) (hk : f.kind = .switch)
    {r : FwReq} {live : Bool} (hh : s.chain.hold = some (.firmware r live)) :
    exec (.frameSent us) s = s.react { s with
      conv.us := usAfter s us
      chain.lastSent := some (f, usAfter s us)
      chain.hold := none
      chain.line := .idle
      upd.link := if live then .none else s.upd.link
      upd.window := if live then some ⟨s.now, 0, none⟩ else s.upd.window } := by
  show execFrameSent us s = _
  cases live <;>
    simp [execFrameSent, hl, Line.frame, Frame.addressed, Frame.answered, hk, State.switchSent, hh, State.sentFrame,
      State.endExchange, State.atUs, State.now]

theorem pauseSent_react {us : Us} {f : Frame} {s : State} (hl : s.chain.line = .sending f) {p : Nat}
    (hq : s.chain.requests = []) (hh : s.chain.hold = some (.pause p)) :
    exec (.pauseSent us) s = s.react { s with
      conv.us := usAfter s us
      chain.lastSent := some (f, usAfter s us)
      chain.hold := none
      chain.line := .idle
      plan.captures := s.plan.captures.map (Capture.paused p s.now) } := by
  show execPauseSent us s = _
  simp [execPauseSent, hl, Line.frame, hh, State.sentFrame, State.endExchange, State.atUs, State.now, hq]

/-- A capture whose CAPTURE has left is marked SURGE if surge holds. -/
theorem sent_surge {l : List Capture} {tag : Nat} {tb : Us} {now : Ms} :
    ∀ c ∈ l.map fun c => if c.holding then c.sent tag tb now true else c, c.holding = true → c.surge = true := by
  intro c hc hh
  obtain ⟨d, -, rfl⟩ := List.mem_map.1 hc
  by_cases hd : d.holding = true
  · simp [hd, Capture.sent]
  · rw [if_neg hd] at hh; exact absurd hh hd

theorem paused_holding (p : Nat) (now : Ms) (c : Capture) (h : (c.paused p now).holding = true) : c.paused p now = c := by
  unfold Capture.paused at h ⊢
  split
  · rename_i hp; simp [hp, Capture.holding] at h
  · rfl

/-- Settles O31. -/
theorem framesLeave : Obligations.FramesLeave := by
  unfold Obligations.FramesLeave
  intro us f s hc hr hl
  refine ⟨fun hk hd => ?_, fun ha hw => ?_, fun hk hq r live hh => ?_, fun p hq hh => ?_⟩
  · refine next_react (captureSent_react hl hk hd) (restful_of_held hr (by simp) (by simp))
      (calm_of_captures hc rfl rfl rfl ?_) (by simp [State.shownAlike, chainBytes, pointerBytes, countBytes])
    intro hs c hc hh _
    exact sent_surge c (by simpa [hs] using hc) hh
  · exact next_react (frameSent_answered_react hl ha hw) (restful_of_held hr (by simp) (by simp))
      (calm_of_same hc rfl rfl rfl rfl) (by simp [State.shownAlike, chainBytes])
  · exact next_react (switchSent_react hl hk hh) (restful_of_idle hr.1 hq (by simp))
      (calm_of_same hc rfl rfl rfl rfl) (by simp [State.shownAlike, chainBytes, updateWord, updateBytes])
  · refine next_react (pauseSent_react hl hq hh) (restful_of_idle hr.1 hq (by simp))
      (calm_of_captures hc rfl rfl rfl ?_) (by simp [State.shownAlike, chainBytes, pointerBytes, countBytes])
    intro hs c hm hh ht
    obtain ⟨d, hd, rfl⟩ := List.mem_map.1 hm
    have e : Capture.paused p s.now d = d := paused_holding p s.now d hh
    exact (congrArg Capture.surge e).trans (calm_capture hc hs d hd (congrArg Capture.holding e ▸ hh) (congrArg Capture.tb e ▸ ht))

/-! ### Waking -/

/-- A time has passed when at least that many ms lie behind its start. -/
@[simp] theorem passed_iff (s : State) (since : Ms) (ms : Nat) : s.passed since ms = true ↔ ms ≤ elapsed s.now since := by
  simp [State.passed]

/-- Where no window fills, none ends. -/
theorem endWindows_none {s : State} (h : s.ev.filling = []) : s.endWindows = s := by
  have e : { s.ev with filling := [] } = s.ev := by rw [← h]
  simp only [State.endWindows, h, List.foldl_nil, e]

/-- The start command to a converter that stands, where no window fills (R28). -/
theorem startConverter_stopped {s : State} (hs : s.conv.scanning = false) (hf : s.ev.filling = []) :
    s.startConverter = { s.clearScan with
      conv.estimate := some ⟨s.conv.unsampled, []⟩
      power.estimate := .awaited } := by
  simp only [State.startConverter, hs, Bool.false_eq_true, if_false]
  exact endWindows_none hf

theorem wakingSettleEnd_react {s : State} (hp : s.power.state = .waking) (hn : s.power.settled = false)
    (ht : 2 ≤ elapsed s.now s.power.settleAt) (hs : s.conv.scanning = false) (hf : s.ev.filling = []) :
    exec .wakingSettleEnd s = s.react { s with
      power.settled := true
      power.estimate := .awaited
      conv.scanning := true
      conv.us := 0
      conv.lastLatch := 0
      conv.latched := none
      conv.history := []
      conv.estimate := some ⟨s.conv.unsampled, []⟩
      sup.hardRun := 0
      sup.hardFell := false
      sup.lowSupply := false
      chain.wake := .tone s.now } := by
  show execWakingSettleEnd s = _
  unfold execWakingSettleEnd
  rw [if_pos (by simp [hp, hn, wakingSettle, ht]),
    startConverter_stopped (s := { s with power.settled := true }) hs hf]
  rfl

theorem wakeToneEnd_wake {s : State} {us : Us} {gap : Bool} {since : Ms} (hw : s.chain.wake = .tone since)
    (ht : 1 ≤ elapsed s.now since) :
    exec (.wakeToneEnd ⟨us, gap⟩) s = s.done { s with
      conv.us := usAfter s us
      chain.lastSent := some (⟨.wake, 31, s.chain.exTag, []⟩, usAfter s us)
      chain.exTag := cycle 255 s.chain.exTag
      chain.wake := .settle s.now gap } := by
  show execWakeToneEnd _ s = _
  simp only [execWakeToneEnd, hw, passed_iff, wakeTone, ht, if_true]
  rfl

theorem wakeToneEnd_reset {s : State} {us : Us} {gap : Bool} {a : Nat} {second : Bool} (hw : s.chain.wake = .none)
    (hr : s.chain.resetTone = true) (ht : 1 ≤ elapsed s.now 0) (hh : s.chain.hold = some (.survey a second))
    (hl : s.chain.line = .idle) :
    exec (.wakeToneEnd ⟨us, gap⟩) s = s.done { s with
      conv.us := usAfter s us
      chain.resetTone := false
      chain.line := .sending ⟨.echo, a, s.chain.exTag, []⟩
      chain.exTag := cycle 255 s.chain.exTag } := by
  show execWakeToneEnd _ s = _
  have ht' : s.passed 0 wakeTone = true := (passed_iff _ _ _).2 ht
  simp only [execWakeToneEnd, hw, hr, ht', Bool.and_true, if_true, State.endResetTone, State.atUs_chain, hh, hl]
  rfl

theorem wakeOutEnd_done {s : State} (hw : s.power.wakeOut = true) (ht : 10 ≤ elapsed s.now s.power.wakeOutAt) :
    exec .wakeOutEnd s = s.done { s with power.wakeOut := false } := by
  show execWakeOutEnd s = _
  simp [execWakeOutEnd, hw, wakeOutTime, ht]

/-- Settles O28. -/
theorem wakingSteps : Obligations.WakingSteps := by
  unfold Obligations.WakingSteps
  refine ⟨fun s hw hc hr hp hn ht hs hf => ?_, fun s hc => ⟨?_, ?_, ?_⟩⟩
  · refine goes_shown_react _ (wakingSettleEnd_react hp hn ht hs hf)
      (restful_of_held hr (by simp) (by simp))
      (calm_of_less hc rfl rfl (fun h => ?_) rfl rfl) id ⟨rfl, sameBut_mirror hw (sameBut_of_mem rfl) (by simp [State.mirrors, chainBytes])⟩
    simp only [Sup.surge, Bool.or_false] at h ⊢
    simp [h]
  · intro us gap since hwk ht
    exact next_done (wakeToneEnd_wake hwk ht) (calm_of_same hc rfl rfl rfl rfl) (by simp [State.shownAlike, chainBytes])
  · intro us gap a second hwk hr ht hh hl
    exact next_done (wakeToneEnd_reset hwk hr ht hh hl) (calm_of_same hc rfl rfl rfl rfl)
      (by simp [State.shownAlike, chainBytes])
  · intro hw ho ht
    exact goes_shown _ (wakeOutEnd_done ho ht) (calm_of_same hc rfl rfl rfl rfl) id
      ⟨rfl, sameBut_mirror hw (sameBut_of_mem rfl) (by simp [State.mirrors, chainBytes])⟩

end Sys2Proof.Machine

namespace Sys2Proof.Machine

/-! ### An answer that fails -/

theorem atUs_eq {s : State} {u us : Us} (h : usAfter s u = us) : s.atUs u = { s with conv.us := us } := by
  rw [← h]; rfl

theorem awaits_of_window {s : State} {f : Frame} {sent : Us} (hl : s.chain.line = .window f sent) :
    s.chain.awaits f.kind = some f := by
  simp [Chain.awaits, hl]

/-- Each command with which an answer fails hands the exchange to its user as failed; a READ's user is the held capture. -/
theorem answerFails_react {c : Instr} {s : State} {f : Frame} {sent us : Us} (hl : s.chain.line = .window f sent)
    (hf : answerFails s f sent us c) (hk : f.kind = .read → ∃ p, s.chain.hold = some (.capture p)) :
    exec c s = s.react (State.answerFailed { s with conv.us := us } us f) := by
  have haw := awaits_of_window hl
  cases c with
  | replyTimeout u =>
    obtain ⟨hu, ht⟩ := hf
    show execReplyTimeout u s = _
    simp only [execReplyTimeout, hl, usAt_eq_usAfter, hu, ht, if_true, atUs_eq hu]
  | characterGap u =>
    show execCharacterGap u s = _
    simp only [execCharacterGap, hl, usAt_eq_usAfter, show usAfter s u = us from hf, atUs_eq (show usAfter s u = us from hf)]
  | reply arrival addr tag codes status version err =>
    obtain ⟨hu, hr, he⟩ := hf
    obtain ⟨p, hp⟩ := hk hr
    rw [hr] at haw
    show execReply arrival addr tag codes status version err s = _
    have hbad : (answerError f addr err (s.chain.late f arrival.first) || decide (codes.length ≠ s.plan.codesOf f.addr)
        || decide (tag ≠ f.tag)) = true := by
      simp only [answerError, Chain.late, Bool.or_eq_true, decide_eq_true_eq]
      tauto
    simp only [execReply, haw, hbad, if_true, usAt_eq_usAfter, hu, atUs_eq hu, State.answerFailed, hp]
  | echoBack u addr roundTrip kind cells sensors version err =>
    obtain ⟨hu, hr, he⟩ := hf
    rw [hr] at haw
    show execEchoBack u addr roundTrip kind cells sensors version err s = _
    have hbad : answerError f addr err (decide (10 * s.chain.windowOf f < roundTrip)) = true := by
      simp only [answerError, Bool.or_eq_true, decide_eq_true_eq]
      tauto
    simp only [execEchoBack, haw, hbad, if_true, usAt_eq_usAfter, hu, atUs_eq hu]
  | configReply arrival addr tag status version err =>
    obtain ⟨hu, hr, he⟩ := hf
    rw [hr] at haw
    show execConfigReply arrival addr tag status version err s = _
    have hbad : answerError f addr err (s.chain.late f arrival.first) = true := by
      simp only [answerError, Chain.late, Bool.or_eq_true, decide_eq_true_eq]
      tauto
    simp only [execConfigReply, haw, hbad, if_true, usAt_eq_usAfter, hu, atUs_eq hu]
  | blockAck arrival addr index toggle crc err =>
    obtain ⟨hu, hr, he⟩ := hf
    rw [hr] at haw
    show execBlockAck arrival addr index toggle crc err s = _
    have hbad : answerError f addr err (s.chain.late f arrival.first) = true := by
      simp only [answerError, Chain.late, Bool.or_eq_true, decide_eq_true_eq]
      tauto
    simp only [execBlockAck, haw, hbad, if_true, usAt_eq_usAfter, hu, atUs_eq hu]
  | _ => exact hf.elim

/-! ### The end of a step that moves modules into FAULTED or out of it -/

/-- What the end of a step sees to beside the faulted-since time: the SURGE marks, and the events sent. -/
def State.marked (n : State) : Prop :=
  (n.sup.surge = true → ∀ k ∈ n.ev.filling, ∀ r, n.ev.at k = some r → r.surge = true)
    ∧ (n.sup.surge = true → ∀ c ∈ n.plan.captures, c.holding = true → c.tb.isSome = true → c.surge = true)
    ∧ ∀ e ∈ n.ev.inbox, e.fresh = false

theorem calm_iff (n : State) : n.calm ↔ n.sup.faultedSince.isSome = anyFaulted n.chain.map ∧ n.marked := Iff.rfl

/-- The faulted-since time at the end of a step (R86). -/
theorem trackFaulted_eq (o n : State) : State.trackFaulted o n = { n with
    sup.faultedSince := if anyFaulted n.chain.map then
        if anyFaulted o.chain.map then n.sup.faultedSince else some n.now
      else none } := by
  unfold State.trackFaulted
  (repeat' split) <;> rfl

/-- Where the marks stand and the faulted-since time was right before, the end of a step follows the map and rewrites the
records. -/
theorem finish_marked {o n : State} (ho : o.calm) (hf : n.sup.faultedSince = o.sup.faultedSince) (hm : n.marked) :
    State.finish o n = mirror o (State.trackFaulted o n) := by
  obtain ⟨hof, -⟩ := (calm_iff o).1 ho
  have hc : (State.trackFaulted o n).calm := by
    rw [trackFaulted_eq, calm_iff]
    refine ⟨?_, hm⟩
    show Option.isSome (ite _ _ _) = anyFaulted n.chain.map
    split
    · rename_i hn
      split
      · rename_i hoo
        rw [hf, hof, hoo, hn]
      · rw [hn]; rfl
    · rename_i hn; simpa using hn
  unfold State.finish
  rw [markSurge_calm hc, markCaptureSurge_calm hc, endSending_calm hc]

/-- A command with reactions completes with the faulted-since time that follows the map and with its records rewritten,
where nothing reacts. -/
theorem goes_tracked_react {c : Instr} {s : State} {p : State → Prop} (n : State) (fs : Option Ms) (h : exec c s = s.react n)
    (hr : n.restful) (hs : s.calm) (hf : n.sup.faultedSince = s.sup.faultedSince) (hm : n.marked)
    (hfs : (if anyFaulted n.chain.map then if anyFaulted s.chain.map then n.sup.faultedSince else some n.now else none) = fs)
    (hp : p { n with
      sup.faultedSince := fs
      mem := (mirror s { n with sup.faultedSince := fs }).mem }) : Goes c s p := by
  refine ⟨_, by rw [h, State.react, settle_restful hr, finish_marked hs hf hm, trackFaulted_eq, hfs]; rfl, hp⟩

end Sys2Proof.Machine

namespace Sys2Proof.Machine

/-! ### Lists by address -/

theorem atAddr_modifyAddr {α : Type} (l : List α) (a b : Nat) (f : α → α) :
    atAddr (modifyAddr l a f) b = if b = a then (atAddr l b).map f else atAddr l b := by
  unfold atAddr modifyAddr
  by_cases hb : b = 0
  · simp [hb]
  · by_cases ha : a = 0
    · simp [ha, hb]
    · simp only [ha, hb, if_false, getAt_modifyAt, show b - 1 = a - 1 ↔ b = a by omega]

theorem keptAt_modifyAddr (p : Planner) (a b : Nat) (r : Option Reading) :
    Planner.keptAt { p with kept := modifyAddr p.kept a fun _ => r } b
      = if b = a then (atAddr p.kept a).bind (fun _ => r) else p.keptAt b := by
  simp only [Planner.keptAt, atAddr_modifyAddr]
  split
  · rename_i h
    subst h
    cases atAddr p.kept b <;> rfl
  · rfl

/-! ### The turns of a held capture -/

/-- The item of an address whose turn has ended. -/
def Item.settle (a : Nat) (r : Option Reading) (st : Option ModState) (m : Item) : Item :=
  if m.addr = a then { m with settled := true, reading := r, state := st.getD m.state } else m

/-- A capture after the turn of an address, if it holds the chain. -/
def Capture.settle (a : Nat) (r : Option Reading) (st : Option ModState) (c : Capture) : Capture :=
  if c.holding then { c with items := c.items.map (Item.settle a r st) } else c

@[simp] theorem Item.settle_addr (a : Nat) (r : Option Reading) (st : Option ModState) (m : Item) :
    (m.settle a r st).addr = m.addr := by
  unfold Item.settle; split <;> rfl

@[simp] theorem Capture.settle_marks (a : Nat) (r : Option Reading) (st : Option ModState) (c : Capture) :
    (c.settle a r st).holding = c.holding ∧ (c.settle a r st).tb = c.tb ∧ (c.settle a r st).surge = c.surge
      ∧ (c.settle a r st).tag = c.tag := by
  unfold Capture.settle; split <;> simp_all [Capture.holding]

/-- Whether a capture that holds the chain lists an address. -/
def Planner.lists (p : Planner) (a : Nat) : Bool :=
  p.captures.any fun c => c.holding && c.items.any fun m => decide (m.addr = a)

theorem settleItem_eq (s : State) (a : Nat) (r : Option Reading) (st : Option ModState) :
    s.settleItem a r st = { s with
      plan.captures := s.plan.captures.map (Capture.settle a r st)
      plan.kept := if s.plan.lists a then modifyAddr s.plan.kept a fun _ => r else s.plan.kept } := by
  unfold State.settleItem
  simp only [State.editHeld]
  by_cases h : (s.plan.captures.any fun c => c.holding && c.items.any fun m => decide (m.addr = a)) = true
  · rw [if_pos h, if_pos (show s.plan.lists a = true from h)]; rfl
  · rw [if_neg h, if_neg (show ¬ s.plan.lists a = true from h)]; rfl

/-- The held capture after the turn of an address. -/
theorem held_settleItem {s : State} {c : Capture} (hc : s.plan.captures.find? Capture.holding = some c) (a : Nat)
    (r : Option Reading) (st : Option ModState) :
    (s.settleItem a r st).plan.captures.find? Capture.holding
      = some { c with items := c.items.map (Item.settle a r st) } := by
  have hh : c.holding = true := List.find?_some hc
  have hcomp : Capture.holding ∘ Capture.settle a r st = Capture.holding := funext fun d => by simp
  simp only [settleItem_eq, List.find?_map, hcomp, hc, Option.map_some, Capture.settle, hh, if_true]

/-- An address that the held capture lists keeps the reading that its turn brought. -/
theorem keptAt_settleItem {s : State} {a : Nat} (hl : s.plan.lists a = true) (r : Option Reading) (st : Option ModState)
    (b : Nat) :
    (s.settleItem a r st).plan.keptAt b
      = if b = a then (atAddr s.plan.kept a).bind (fun _ => r) else s.plan.keptAt b := by
  rw [settleItem_eq, if_pos hl]
  exact keptAt_modifyAddr s.plan a b r

/-- A held capture lists the addresses of its items. -/
theorem lists_of_mem {s : State} {c : Capture} (hc : s.plan.captures.find? Capture.holding = some c) {m : Item}
    (hm : m ∈ c.items) : s.plan.lists m.addr = true := by
  simp only [Planner.lists, List.any_eq_true, Bool.and_eq_true, decide_eq_true_eq]
  exact ⟨c, List.mem_of_find?_eq_some hc, List.find?_some hc, m, hm, rfl⟩

/-- The turn of an address leaves the addresses that are listed. -/
theorem lists_settleItem {s : State} {b : Nat} (h : s.plan.lists b = true) (a : Nat) (r : Option Reading)
    (st : Option ModState) : (s.settleItem a r st).plan.lists b = true := by
  simp only [Planner.lists, List.any_eq_true, Bool.and_eq_true, decide_eq_true_eq] at h ⊢
  obtain ⟨c, hc, hch, k, hk, hka⟩ := h
  simp only [settleItem_eq]
  refine ⟨c.settle a r st, List.mem_map_of_mem hc, by simp [hch], k.settle a r st, ?_, by simp [hka]⟩
  simp only [Capture.settle, hch, if_true]
  exact List.mem_map_of_mem hk

/-- A passed-over address keeps its readings, one capture older. -/
theorem keptAt_settleOld {s : State} {a : Nat} (hl : s.plan.lists a = true) (st : Option ModState) (b : Nat) :
    (s.settleOld a st).plan.keptAt b = if b = a then (s.plan.keptAt a).map Reading.older else s.plan.keptAt b := by
  rw [State.settleOld, keptAt_settleItem hl]
  unfold Planner.keptAt
  split
  · cases atAddr s.plan.kept a with
    | none => rfl
    | some r => rfl
  · rfl

/-- The turns of items that are not read. -/
def State.passItems (l : List Item) (s : State) : State :=
  l.foldl (fun s m => if m.settled then s else s.settleOld m.addr none) s

theorem passItems_cons (m : Item) (l : List Item) (s : State) :
    State.passItems (m :: l) s = State.passItems l (if m.settled then s else s.settleOld m.addr none) := rfl

/-- Turns change the captures and the kept readings alone. -/
theorem passItems_eq (l : List Item) (s : State) :
    State.passItems l s = { s with
      plan.captures := (State.passItems l s).plan.captures
      plan.kept := (State.passItems l s).plan.kept } := by
  induction l generalizing s with
  | nil => rfl
  | cons m l ih =>
    rw [passItems_cons, ih]
    split
    · rfl
    · simp only [State.settleOld, settleItem_eq]

/-- Every capture after some turns was one before, with the same stage and marks. -/
theorem passItems_captures (l : List Item) (s : State) :
    ∀ c ∈ (State.passItems l s).plan.captures, ∃ d ∈ s.plan.captures,
      c.holding = d.holding ∧ c.tb = d.tb ∧ c.surge = d.surge := by
  induction l generalizing s with
  | nil => exact fun c hc => ⟨c, hc, rfl, rfl, rfl⟩
  | cons m l ih =>
    intro c hc
    rw [passItems_cons] at hc
    obtain ⟨d, hd, h1, h2, h3⟩ := ih _ c hc
    split at hd
    · exact ⟨d, hd, h1, h2, h3⟩
    · simp only [State.settleOld, settleItem_eq, List.mem_map] at hd
      obtain ⟨e, he, rfl⟩ := hd
      exact ⟨e, he, by simpa using h1, by simpa using h2, by simpa using h3⟩

/-- A capture holds the chain after some turns where one did before, with its tag. -/
theorem held_passItems {l : List Item} {s : State} {c : Capture}
    (hc : s.plan.captures.find? Capture.holding = some c) :
    ∃ d, (State.passItems l s).plan.captures.find? Capture.holding = some d ∧ d.tag = c.tag := by
  induction l generalizing s c with
  | nil => exact ⟨c, hc, rfl⟩
  | cons m l ih =>
    rw [passItems_cons]
    split
    · exact ih hc
    · obtain ⟨d, hd, ht⟩ := ih (held_settleItem hc m.addr ((s.plan.keptAt m.addr).map Reading.older) none)
      exact ⟨d, hd, ht⟩

/-- Whether an item has its turn without a READ. -/
def passes (s : State) (m : Item) : Prop := m.settled = true ∨ (s.chain.entry m.addr).any readable = false

theorem passItems_chain (l : List Item) (s : State) : (State.passItems l s).chain = s.chain := by
  rw [passItems_eq]

/-- Without an address to read, every listed address has its turn and the hold ends (R19). -/
theorem nextRead_all {l : List Item} {s : State} (h : ∀ m ∈ l, passes s m) :
    State.nextRead l s = (State.passItems l s).endHold := by
  induction l generalizing s with
  | nil => rfl
  | cons m l ih =>
    obtain ⟨hm, hl⟩ := List.forall_mem_cons.1 h
    rw [passItems_cons, State.nextRead]
    by_cases hs : m.settled = true
    · rw [if_pos hs, if_pos hs, ih hl]
    · have hr := hm.resolve_left hs
      rw [if_neg hs, if_neg (by simp [hr]), if_neg hs]
      exact ih fun n hn => by simpa [passes] using hl n hn

/-- The READ of the first address that is read is sent, once those before it have had their turn (R19). -/
theorem nextRead_first {pre post : List Item} {m : Item} {s : State} {c : Capture} (h : ∀ n ∈ pre, passes s n)
    (hm : m.settled = false) (hr : (s.chain.entry m.addr).any readable = true)
    (hc : s.plan.captures.find? Capture.holding = some c) :
    State.nextRead (pre ++ m :: post) s = (State.passItems pre s).beginRead m.addr c.tag := by
  induction pre generalizing s c with
  | nil => simp [State.nextRead, hm, hr, hc, State.passItems]
  | cons n pre ih =>
    obtain ⟨hn, hl⟩ := List.forall_mem_cons.1 h
    rw [passItems_cons, List.cons_append, State.nextRead]
    by_cases hs : n.settled = true
    · rw [if_pos hs, if_pos hs, ih hl hr hc]
    · have hnr := hn.resolve_left hs
      rw [if_neg hs, if_neg (by simp [hnr]), if_neg hs]
      have hheld := held_settleItem hc n.addr ((s.plan.keptAt n.addr).map Reading.older) none
      have hrest := ih (s := s.settleOld n.addr none) (fun k hk => by simpa [passes] using hl k hk) (by simpa using hr) hheld
      exact hrest

/-- The kept readings after the turns of addresses that the held capture lists. -/
theorem keptAt_passItems {l : List Item} {s : State} (hl : ∀ m ∈ l, m.settled = false → s.plan.lists m.addr = true)
    (hd : (l.map (·.addr)).Nodup) (b : Nat) :
    (State.passItems l s).plan.keptAt b
      = if ∃ m ∈ l, m.settled = false ∧ m.addr = b then (s.plan.keptAt b).map Reading.older else s.plan.keptAt b := by
  induction l generalizing s with
  | nil => simp [State.passItems]
  | cons m l ih =>
    obtain ⟨hm, hl⟩ := List.forall_mem_cons.1 hl
    rw [List.map_cons, List.nodup_cons] at hd
    obtain ⟨hnot, hd⟩ := hd
    rw [passItems_cons]
    by_cases hs : m.settled = true
    · rw [if_pos hs, ih hl hd]
      simp [hs]
    · have hs' : m.settled = false := by simpa using hs
      have hlists : ∀ n ∈ l, n.settled = false → (s.settleOld m.addr none).plan.lists n.addr = true :=
        fun n hn hns => lists_settleItem (hl n hn hns) ..
      rw [if_neg hs, ih hlists hd, keptAt_settleOld (hm hs') none b]
      by_cases hb : b = m.addr
      · subst hb
        have hno : ¬ ∃ n ∈ l, n.settled = false ∧ n.addr = m.addr := by
          rintro ⟨n, hn, -, ha⟩
          exact hnot (List.mem_map.2 ⟨n, hn, ha⟩)
        rw [if_neg hno, if_pos rfl, if_pos ⟨m, by simp, hs', rfl⟩]
      · have hiff : (∃ n ∈ m :: l, n.settled = false ∧ n.addr = b) ↔ ∃ n ∈ l, n.settled = false ∧ n.addr = b := by
          simp [Ne.symm hb]
        simp only [hiff, if_neg hb]

/-- The items of the held capture after the turns of some of its addresses. -/
theorem held_passItems_items {l : List Item} {s : State} {c : Capture}
    (hc : s.plan.captures.find? Capture.holding = some c) (hl : ∀ m ∈ l, m.settled = false)
    (hlist : ∀ m ∈ l, s.plan.lists m.addr = true) (hd : (l.map (·.addr)).Nodup) :
    (State.passItems l s).plan.captures.find? Capture.holding
      = some { c with items := c.items.map fun n => if n.addr ∈ l.map (·.addr) then passedOver s n else n } := by
  induction l generalizing s c with
  | nil => simp [State.passItems, hc]
  | cons m l ih =>
    rw [List.map_cons, List.nodup_cons] at hd
    obtain ⟨hnot, hd⟩ := hd
    have hm := hl m (by simp)
    have hml := hlist m (by simp)
    rw [passItems_cons, hm]
    have hheld := held_settleItem hc m.addr ((s.plan.keptAt m.addr).map Reading.older) none
    have hlist' : ∀ n ∈ l, (s.settleOld m.addr none).plan.lists n.addr = true := by
      intro n hn
      exact lists_settleItem (hlist n (by simp [hn])) ..
    rw [if_neg (by simp), ih (s := s.settleOld m.addr none) hheld (fun n hn => hl n (by simp [hn])) hlist' hd]
    simp only [List.map_map]
    congr 2
    refine List.map_congr_left fun n _ => ?_
    simp only [Function.comp_apply, Item.settle_addr, List.map_cons, List.mem_cons]
    by_cases hn : n.addr = m.addr
    · rw [if_neg (by rw [hn]; exact hnot), if_pos (.inl hn)]
      simp only [Item.settle, hn, if_true, Option.getD_none, passedOver]
      rfl
    · simp only [hn, false_or, Item.settle, if_false, passedOver, keptAt_settleOld hml]

end Sys2Proof.Machine

namespace Sys2Proof.Machine

/-- Turns leave every block but the planner alone, and of it all but the captures and the kept readings. -/
@[simp] theorem passItems_frame (l : List Item) (s : State) :
    (State.passItems l s).mem = s.mem ∧ (State.passItems l s).chain = s.chain ∧ (State.passItems l s).conv = s.conv
      ∧ (State.passItems l s).sup = s.sup ∧ (State.passItems l s).ev = s.ev ∧ (State.passItems l s).power = s.power
      ∧ (State.passItems l s).store = s.store ∧ (State.passItems l s).upd = s.upd
      ∧ (State.passItems l s).plan.burst = s.plan.burst
      ∧ (State.passItems l s).plan.patrolReport = s.plan.patrolReport
      ∧ (State.passItems l s).plan.latest = s.plan.latest ∧ (State.passItems l s).plan.high = s.plan.high
      ∧ (State.passItems l s).plan.low = s.plan.low ∧ (State.passItems l s).plan.temp = s.plan.temp
      ∧ (State.passItems l s).plan.implausible = s.plan.implausible := by
  rw [passItems_eq]
  simp

/-- Turns keep the marks of the end of a step. -/
theorem passItems_marked {s : State} (h : s.marked) (l : List Item) : (State.passItems l s).marked := by
  obtain ⟨hev, hcap, hin⟩ := h
  refine ⟨by simpa using hev, ?_, by simpa using hin⟩
  intro hs c hc hh ht
  obtain ⟨d, hd, h1, h2, h3⟩ := passItems_captures l s c hc
  exact h3.trans (hcap (by simpa using hs) d hd (h1 ▸ hh) (h2 ▸ ht))

theorem passItems_calm {s : State} (h : s.calm) (l : List Item) : (State.passItems l s).calm := by
  obtain ⟨hf, hm⟩ := (calm_iff s).1 h
  exact (calm_iff _).2 ⟨by simpa using hf, passItems_marked hm l⟩

/-- The captures that are left holding after the hold ends: none. -/
theorem endHold_marked {s : State} (h : s.marked) : s.endHold.marked := by
  obtain ⟨hev, hcap, hin⟩ := h
  refine ⟨hev, ?_, hin⟩
  intro hs c hc hh ht
  rcases List.mem_append.1 hc with hc | hc
  · simp [hh] at hc
  · obtain ⟨d, -, rfl⟩ := List.mem_map.1 hc
    simp [Capture.holding] at hh

theorem endHold_calm {s : State} (h : s.calm) : s.endHold.calm := by
  obtain ⟨hf, hm⟩ := (calm_iff s).1 h
  exact (calm_iff _).2 ⟨hf, endHold_marked hm⟩

/-- The capture whose hold ends waits to be built (R19). -/
theorem endHold_mem {s : State} {c : Capture} (hc : s.plan.captures.find? Capture.holding = some c) :
    { c with stage := .building } ∈ s.endHold.plan.captures := by
  refine List.mem_append_right _ (List.mem_map.2 ⟨c, ?_, rfl⟩)
  exact List.mem_filter.2 ⟨List.mem_of_find?_eq_some hc, List.find?_some hc⟩

/-! ### The end of the conversion wait -/

theorem conversionWaitEnd_react {us tb : Us} {c : Capture} {s : State} (hl : s.chain.line = .conversion tb)
    (ht : 1000 ≤ elapsed (usAfter s us) tb) (hd : s.chain.down = false)
    (hc : s.plan.captures.find? Capture.holding = some c) (hp : c.paired = true) :
    exec (.conversionWaitEnd us) s = s.react (State.nextRead c.items (s.atUs us)) := by
  show execConversionWaitEnd us s = _
  have hcond : (decide (conversionTime ≤ elapsed (s.usAt us) tb) && (s.plan.captures.find? Capture.holding).any Capture.paired)
      = true := by simp [conversionTime, ht, hc, hp]
  simp only [execConversionWaitEnd, hl, hcond, if_true, State.captureGoesOn, State.atUs_chain, hd, Bool.false_eq_true,
    if_false]
  simp only [State.readOn, State.atUs_plan, hc]

/-- The end of the conversion wait where an address is read. -/
theorem conversionWaitEnd_read {us tb : Us} {c : Capture} {s : State} (hcalm : s.calm) (hrest : s.restful)
    (hl : s.chain.line = .conversion tb)
    (ht : 1000 ≤ elapsed (usAfter s us) tb) (hd : s.chain.down = false)
    (hc : s.plan.captures.find? Capture.holding = some c) (hp : c.paired = true) {before after : List Item} {m : Item}
    (hi : c.items = before ++ m :: after) (hb : ∀ n ∈ before, passes s n) (hm : m.settled = false)
    (hr : (s.chain.entry m.addr).any readable = true) :
    exec (.conversionWaitEnd us) s = .next ((State.passItems before (s.atUs us)).beginRead m.addr c.tag) := by
  refine next_react (by rw [conversionWaitEnd_react hl ht hd hc hp, hi, nextRead_first (s := s.atUs us) hb hm hr hc]) ?_ ?_ ?_
  · exact restful_of_held hrest (by simp) (by simp)
  · exact calm_of_same (passItems_calm (s := s.atUs us) (calm_of_same hcalm rfl rfl rfl rfl) before) rfl rfl rfl rfl
  · simp [State.shownAlike, chainBytes, pointerBytes, countBytes]

/-- The end of the conversion wait where no address is read. -/
theorem conversionWaitEnd_none {us tb : Us} {c : Capture} {s : State} (hcalm : s.calm) (hrest : s.restful)
    (hl : s.chain.line = .conversion tb) (ht : 1000 ≤ elapsed (usAfter s us) tb) (hd : s.chain.down = false)
    (hc : s.plan.captures.find? Capture.holding = some c) (hp : c.paired = true) (hq : s.chain.requests = [])
    (ha : ∀ n ∈ c.items, passes s n) :
    exec (.conversionWaitEnd us) s = .next (State.passItems c.items (s.atUs us)).endHold := by
  refine next_react (by rw [conversionWaitEnd_react hl ht hd hc hp, nextRead_all (s := s.atUs us) ha]) ?_ ?_ ?_
  · exact restful_of_idle hrest.1 (by simpa using hq) (by simp)
  · exact endHold_calm (passItems_calm (s := s.atUs us) (calm_of_same hcalm rfl rfl rfl rfl) c.items)
  · simp [State.shownAlike, chainBytes, pointerBytes, countBytes]

/-- The items of a list whose addresses differ, of which those of a first part are changed. -/
theorem map_mem_addrs {before after : List Item} {g : Item → Item} (h : ((before ++ after).map (·.addr)).Nodup) :
    ((before ++ after).map fun n => if n.addr ∈ before.map (·.addr) then g n else n) = before.map g ++ after := by
  rw [List.map_append, List.nodup_append] at h
  obtain ⟨-, -, hdis⟩ := h
  rw [List.map_append]
  congr 1
  · refine List.map_congr_left fun n hn => if_pos (List.mem_map_of_mem hn)
  · conv_rhs => rw [← List.map_id after]
    refine List.map_congr_left fun n hn => if_neg fun hm => ?_
    exact hdis _ hm _ (List.mem_map_of_mem hn) rfl

/-- Settles O33. The listed addresses that are not read have had their turn by `passItems`, and what stands next is a READ or
the end of the hold. -/
theorem readsBegin : Obligations.ReadsBegin := by
  unfold Obligations.ReadsBegin
  intro us tb c s hcalm hrest hl ht hd hc hp
  have hlists : ∀ n ∈ c.items, (s.atUs us).plan.lists n.addr = true := fun n hn => lists_of_mem (s := s.atUs us) hc hn
  have hpass {l : List Item} (h : ∀ n ∈ l, (s.chain.entry n.addr).any readable = false) : ∀ n ∈ l, passes s n :=
    fun n hn => .inr (h n hn)
  refine ⟨fun m l hi hm hr => ?_, fun hi hq => ?_, fun before m after hi hd' hb hs hr => ?_, fun hq hd' hs hb => ?_⟩
  · exact conversionWaitEnd_read hcalm hrest hl ht hd hc hp (before := []) hi (by simp) hm hr
  · rw [conversionWaitEnd_none hcalm hrest hl ht hd hc hp hq (by simp [hi]), hi]
    rfl
  · have hsub : ∀ n ∈ before, n ∈ c.items := fun n hn => by rw [hi]; exact List.mem_append_left _ hn
    have hnd : (before.map (·.addr)).Nodup := by
      rw [hi, List.map_append] at hd'
      exact hd'.of_append_left
    have hset : ∀ n ∈ before, n.settled = false := fun n hn => hs n (hsub n hn)
    have hlb : ∀ n ∈ before, (s.atUs us).plan.lists n.addr = true := fun n hn => hlists n (hsub n hn)
    have hkept := keptAt_passItems (s := s.atUs us) (fun n hn _ => hlb n hn) hnd
    refine ⟨_, conversionWaitEnd_read hcalm hrest hl ht hd hc hp hi (hpass hb) (hs m (by simp [hi])) hr,
      rfl, ?_, ?_, ?_, ?_⟩
    · have hheld := held_passItems_items (s := s.atUs us) hc hset hlb hnd
      rw [hi] at hheld hd'
      rw [map_mem_addrs hd'] at hheld
      exact hheld
    · intro n hn
      exact (hkept n.addr).trans (if_pos ⟨n, hn, hset n hn, rfl⟩)
    · intro a ha
      refine (hkept a).trans (if_neg ?_)
      rintro ⟨n, hn, -, rfl⟩
      exact ha n hn rfl
    · rw [passItems_eq]
      rfl
  · have hkept := keptAt_passItems (s := s.atUs us) (fun n hn _ => hlists n hn) hd'
    refine ⟨_, conversionWaitEnd_none hcalm hrest hl ht hd hc hp hq (hpass hb), rfl, rfl, ?_, ?_, ?_, ?_⟩
    · have hheld := held_passItems_items (s := s.atUs us) hc hs hlists hd'
      have hall : (c.items.map fun n => if n.addr ∈ c.items.map (·.addr) then passedOver (s.atUs us) n else n)
          = c.items.map (passedOver s) :=
        List.map_congr_left fun n hn => if_pos (List.mem_map_of_mem hn)
      rw [hall] at hheld
      exact endHold_mem hheld
    · intro n hn
      exact (hkept n.addr).trans (if_pos ⟨n, hn, hs n hn, rfl⟩)
    · intro a ha
      refine (hkept a).trans (if_neg ?_)
      rintro ⟨n, hn, -, rfl⟩
      exact ha n hn rfl
    · unfold State.endHold
      rw [passItems_eq]
      rfl

end Sys2Proof.Machine

namespace Sys2Proof.Machine

/-- The turn of an address leaves the kept readings of every other. -/
theorem keptAt_settleItem_other (s : State) {a b : Nat} (hb : b ≠ a) (r : Option Reading) (st : Option ModState) :
    (s.settleItem a r st).plan.keptAt b = s.plan.keptAt b := by
  by_cases hl : s.plan.lists a = true
  · rw [keptAt_settleItem hl, if_neg hb]
  · rw [settleItem_eq, if_neg hl]; rfl

/-- The kept readings of an address stand while others have their turn. -/
theorem keptAt_passItems_other {l : List Item} {s : State} {b : Nat} (h : ∀ m ∈ l, m.settled = false → m.addr ≠ b) :
    (State.passItems l s).plan.keptAt b = s.plan.keptAt b := by
  induction l generalizing s with
  | nil => rfl
  | cons m l ih =>
    obtain ⟨hm, hl⟩ := List.forall_mem_cons.1 h
    rw [passItems_cons, ih hl]
    split
    · rfl
    · rename_i hs
      exact keptAt_settleItem_other s (Ne.symm (hm (by simpa using hs))) _ _

/-- The next READ depends on the working map's entries of other addresses alone. -/
theorem nextToRead_congr {s t : State} {a : Nat} (h : ∀ b, b ≠ a → t.chain.entry b = s.chain.entry b) (c : Capture) :
    nextToRead t c a = nextToRead s c a := by
  unfold nextToRead
  congr 1
  funext n
  by_cases hn : n.addr = a
  · simp [hn]
  · simp [hn, h n.addr hn]

/-- What follows the turns of a held capture: the next READ, or the end of the hold. -/
def State.goOn (s : State) (c : Capture) : Option Item → State
  | some n => s.beginRead n.addr c.tag
  | none => s.endHold

/-- Once an address has had its turn, those that are not read have theirs, and the next READ is sent or the hold ends (R19). -/
theorem readOn_settleItem {t : State} {c : Capture} (hc : t.plan.captures.find? Capture.holding = some c) (a : Nat)
    (r : Option Reading) (st : Option ModState) :
    ∃ l : List Item, (∀ m ∈ l, m.settled = false → m.addr ≠ a) ∧
      (t.settleItem a r st).readOn = (State.passItems l (t.settleItem a r st)).goOn c (nextToRead t c a) := by
  have hheld := held_settleItem hc a r st
  have hread : (t.settleItem a r st).readOn
      = State.nextRead (c.items.map (Item.settle a r st)) (t.settleItem a r st) := by
    simp only [State.readOn, hheld]
  -- an item that has had its turn, or is not read, has none in what follows
  have hpass (n : Item) (hn : (decide (n.addr ≠ a) && !n.settled && (t.chain.entry n.addr).any readable) = false) :
      passes (t.settleItem a r st) (n.settle a r st) := by
    unfold passes
    by_cases ha : n.addr = a
    · exact .inl (by simp [Item.settle, ha])
    · simp only [Item.settle, ha, if_false, settleItem_frame]
      simp only [ne_eq, ha, not_false_eq_true, decide_true, Bool.true_and, Bool.and_eq_false_iff, Bool.not_eq_false'] at hn
      exact hn
  have hother : ∀ l : List Item, ∀ m ∈ l.map (Item.settle a r st), m.settled = false → m.addr ≠ a := by
    intro l m hm hs ha
    obtain ⟨n, -, rfl⟩ := List.mem_map.1 hm
    simp only [Item.settle_addr] at ha
    simp [Item.settle, ha] at hs
  cases hn : nextToRead t c a with
  | none =>
    refine ⟨c.items.map (Item.settle a r st), hother _, ?_⟩
    rw [hread]
    refine nextRead_all fun m hm => ?_
    obtain ⟨n, hni, rfl⟩ := List.mem_map.1 hm
    exact hpass n (by simpa using List.find?_eq_none.1 hn n hni)
  | some n =>
    obtain ⟨hp, pre, post, hi, hpre⟩ := List.find?_eq_some_iff_append.1 hn
    simp only [Bool.and_eq_true, decide_eq_true_eq, Bool.not_eq_true'] at hp
    obtain ⟨⟨hna, hns⟩, hnr⟩ := hp
    have hsame : n.settle a r st = n := by simp [Item.settle, hna]
    refine ⟨pre.map (Item.settle a r st), hother _, ?_⟩
    rw [hread, hi, List.map_append, List.map_cons, hsame]
    have hfirst := nextRead_first (pre := pre.map (Item.settle a r st)) (post := post.map (Item.settle a r st))
      (s := t.settleItem a r st) (fun m hm => ?_) hns (by simpa using hnr) hheld
    · exact hfirst
    · obtain ⟨k, hk, rfl⟩ := List.mem_map.1 hm
      exact hpass k (by simpa only [Bool.not_eq_true'] using hpre k hk)

/-! ### The working map's FAULTED modules -/

theorem anyFaulted_iff (m : List ModuleEntry) :
    anyFaulted m = true ↔ ∃ e ∈ m, e.configured = true ∧ e.state = .faulted := by
  simp [anyFaulted]

theorem anyFaulted_cons (e : ModuleEntry) (m : List ModuleEntry) :
    anyFaulted (e :: m) = ((e.configured && decide (e.state = .faulted)) || anyFaulted m) := rfl

/-- A change that moves no entry into FAULTED makes no working map hold a FAULTED module. -/
theorem anyFaulted_of_modifyAt {m : List ModuleEntry} {k : Nat} {g : ModuleEntry → ModuleEntry}
    (hg : ∀ e, getAt m k = some e → (g e).configured = true → (g e).state = .faulted → e.configured = true ∧ e.state = .faulted)
    (h : anyFaulted (modifyAt m k g) = true) : anyFaulted m = true := by
  induction m generalizing k with
  | nil => cases k <;> exact h
  | cons e m ih =>
    cases k with
    | zero =>
      simp only [modifyAt, anyFaulted_cons, Bool.or_eq_true, Bool.and_eq_true, decide_eq_true_eq] at h ⊢
      exact h.imp_left fun h => hg e rfl h.1 h.2
    | succ k =>
      simp only [modifyAt, anyFaulted_cons, Bool.or_eq_true] at h ⊢
      exact h.imp_right (ih hg)

@[inherit_doc anyFaulted_of_modifyAt]
theorem anyFaulted_of_modifyAddr {m : List ModuleEntry} {a : Nat} {g : ModuleEntry → ModuleEntry}
    (hg : ∀ e, atAddr m a = some e → (g e).configured = true → (g e).state = .faulted → e.configured = true ∧ e.state = .faulted)
    (h : anyFaulted (modifyAddr m a g) = true) : anyFaulted m = true := by
  unfold modifyAddr at h
  split at h
  · exact h
  · rename_i ha
    exact anyFaulted_of_modifyAt (fun e he => hg e (by rw [atAddr, if_neg ha, he])) h

/-- A change of an entry that is not FAULTED into one that is not leaves the working map with a FAULTED module or without. -/
theorem anyFaulted_modifyAt_same {m : List ModuleEntry} {k : Nat} {g : ModuleEntry → ModuleEntry}
    (hg : ∀ e, getAt m k = some e → e.state ≠ .faulted ∧ (g e).state ≠ .faulted) :
    anyFaulted (modifyAt m k g) = anyFaulted m := by
  induction m generalizing k with
  | nil => cases k <;> rfl
  | cons e m ih =>
    cases k with
    | zero =>
      obtain ⟨h1, h2⟩ := hg e rfl
      simp only [modifyAt, anyFaulted_cons, h1, h2, decide_false, Bool.and_false]
    | succ k => simp only [modifyAt, anyFaulted_cons, ih hg]

@[inherit_doc anyFaulted_modifyAt_same]
theorem anyFaulted_modifyAddr_same {m : List ModuleEntry} {a : Nat} {g : ModuleEntry → ModuleEntry}
    (hg : ∀ e, atAddr m a = some e → e.state ≠ .faulted ∧ (g e).state ≠ .faulted) :
    anyFaulted (modifyAddr m a g) = anyFaulted m := by
  unfold modifyAddr
  split
  · rfl
  · rename_i ha
    exact anyFaulted_modifyAt_same fun e he => hg e (by rw [atAddr, if_neg ha, he])

/-- The entry of an address is one of the working map. -/
theorem mem_of_getAt {α : Type} {l : List α} {k : Nat} {x : α} (h : getAt l k = some x) : x ∈ l := by
  induction l generalizing k with
  | nil => cases k <;> cases h
  | cons y l ih =>
    cases k with
    | zero => cases h; simp
    | succ k => exact List.mem_cons_of_mem _ (ih h)

@[inherit_doc mem_of_getAt] theorem mem_of_atAddr {α : Type} {l : List α} {a : Nat} {x : α} (h : atAddr l a = some x) : x ∈ l := by
  unfold atAddr at h
  split at h
  · cases h
  · exact mem_of_getAt h

/-- A configured entry that becomes FAULTED makes the working map hold a FAULTED module. -/
theorem anyFaulted_modifyAddr {m : List ModuleEntry} {a : Nat} {g : ModuleEntry → ModuleEntry} {e : ModuleEntry}
    (he : atAddr m a = some e) (hc : (g e).configured = true) (hs : (g e).state = .faulted) :
    anyFaulted (modifyAddr m a g) = true :=
  (anyFaulted_iff _).2 ⟨g e, mem_of_atAddr (a := a) (by rw [atAddr_modifyAddr, if_pos rfl, he]; rfl), hc, hs⟩

@[simp] theorem contactorBytes_faultedSince (p : Sup) (x : Option Ms) :
    contactorBytes { p with faultedSince := x } = contactorBytes p := rfl

/-! ### The end of a READ's exchange -/

/-- The turn of an address in the held capture, and what follows it, change the line, the hold, the captures and the kept
readings alone. -/
theorem goOn_eq (l : List Item) (s : State) (c : Capture) (o : Option Item) :
    (State.passItems l s).goOn c o = { s with
      chain.line := ((State.passItems l s).goOn c o).chain.line
      chain.hold := ((State.passItems l s).goOn c o).chain.hold
      plan.captures := ((State.passItems l s).goOn c o).plan.captures
      plan.kept := ((State.passItems l s).goOn c o).plan.kept } := by
  cases o with
  | none =>
    simp only [State.goOn, State.endHold]
    rw [passItems_eq]
  | some n =>
    simp only [State.goOn, State.beginRead]
    rw [passItems_eq]

theorem goOn_marked {s : State} (h : s.marked) (c : Capture) (o : Option Item) : (s.goOn c o).marked := by
  cases o with
  | none => exact endHold_marked h
  | some n => exact h

theorem settleItem_marked {s : State} (h : s.marked) (a : Nat) (r : Option Reading) (st : Option ModState) :
    (s.settleItem a r st).marked := by
  obtain ⟨hev, hcap, hin⟩ := h
  rw [settleItem_eq]
  refine ⟨hev, fun hs c hc hh ht => ?_, hin⟩
  obtain ⟨d, hd, rfl⟩ := List.mem_map.1 hc
  simp only [Capture.settle_marks] at hh ht ⊢
  exact hcap hs d hd hh ht

end Sys2Proof.Machine

namespace Sys2Proof.Machine

/-- What the end of a READ's exchange leaves of a held capture: the address's turn, then the next READ or the end of the
hold. -/
structure State.TurnEnds (t : State) (c : Capture) (a : Nat) (r : Option Reading) (n : State) : Prop where
  frame : n = { t with
    chain.line := n.chain.line
    chain.hold := n.chain.hold
    plan.captures := n.plan.captures
    plan.kept := n.plan.kept }
  next : match nextToRead t c a with
    | some m => n.chain.line = .sending ⟨.read, m.addr, c.tag, []⟩ ∧ n.chain.hold = t.chain.hold
    | none => n.chain.line = .idle ∧ n.chain.hold = none
  kept : t.plan.lists a = true → n.plan.keptAt a = (atAddr t.plan.kept a).bind fun _ => r
  marked : t.marked → n.marked

theorem turnEnds_readOn {t : State} {c : Capture} (hc : t.plan.captures.find? Capture.holding = some c) (a : Nat)
    (r : Option Reading) (st : Option ModState) : t.TurnEnds c a r (t.settleItem a r st).readOn := by
  obtain ⟨l, hl, he⟩ := readOn_settleItem hc a r st
  rw [he]
  refine ⟨?_, ?_, fun hlist => ?_, fun h => goOn_marked (passItems_marked (settleItem_marked h a r st) l) c _⟩
  · rw [goOn_eq, settleItem_eq]
  · cases nextToRead t c a with
    | none => exact ⟨rfl, rfl⟩
    | some m => exact ⟨rfl, by simp [State.goOn]⟩
  · have hk : (State.passItems l (t.settleItem a r st)).plan.keptAt a = (atAddr t.plan.kept a).bind fun _ => r := by
      rw [keptAt_passItems_other hl, keptAt_settleItem hlist, if_pos rfl]
    cases nextToRead t c a with
    | none => exact hk
    | some m => exact hk

/-- A state that a READ's exchange has left is at rest, where no request waits. -/
theorem State.TurnEnds.restful {t n : State} {c : Capture} {a : Nat} {r : Option Reading} (h : t.TurnEnds c a r n)
    (ht : t.resting) (hq : t.chain.requests = []) : n.restful := by
  rw [h.frame]
  exact restful_of_idle ht hq (by simp)

/-! ### A good REPLY -/

theorem reply_good_react {us sent : Us} {first : Nat} {f : Frame} {codes : List Half} {status : ModuleStatus}
    {version : Half} {c : Capture} {m : Item} {s : State} (hl : s.chain.line = .window f sent) (hk : f.kind = .read)
    (hc : s.plan.captures.find? Capture.holding = some c)
    (hm : c.items.find? (fun m => decide (m.addr = f.addr)) = some m) (hn : codes.length = m.cells + m.sensors)
    (ht : first ≤ s.chain.windowOf f) (u : State) (hu : (s.atUs us).goodReply f.addr status version = u)
    (hud : u.chain.down = false) (hup : u.plan = s.plan) :
    exec (.reply ⟨us, first⟩ f.addr f.tag codes status version none) s
      = s.react (u.settleItem f.addr (some (m.goodReading c.contents (s.plan.keptAt f.addr) codes))
          (u.chain.stateOf f.addr)).readOn := by
  have haw := awaits_of_window hl
  rw [hk] at haw
  show execReply _ _ _ _ _ _ _ s = _
  have hcodes : s.plan.codesOf f.addr = codes.length := by simp [Planner.codesOf, hc, hm, hn]
  have hgood : (answerError f f.addr none (s.chain.late f first) || decide (codes.length ≠ s.plan.codesOf f.addr)
      || decide (f.tag ≠ f.tag)) = false := by
    simp [answerError, Chain.late, hcodes, ht]
  simp only [execReply, haw, hgood, Bool.false_eq_true, if_false, State.readGood, hu, State.settleGood, hup, hc, hm,
    State.captureGoesOn]
  rw [if_neg (by simpa [Chain.down] using hud)]

theorem raiseFault_of_faulted {e : ModuleEntry} (h : e.state = .faulted) (s : State) : raiseFault e none s = s := by
  simp [raiseFault, h]

theorem raiseFault_of_other {e : ModuleEntry} (h : e.state ≠ .faulted) (c : Option FaultCause) (s : State) :
    raiseFault e c s = s.raise .moduleFault := by
  simp [raiseFault, h]

theorem entry_modifyAddr_other {s t : State} {a : Nat} {g : ModuleEntry → ModuleEntry}
    (h : t.chain.map = modifyAddr s.chain.map a g) : ∀ b, b ≠ a → t.chain.entry b = s.chain.entry b := by
  intro b hb
  rw [Chain.entry, h, atAddr_modifyAddr, if_neg hb]
  rfl

theorem keptAt_congr {p q : Planner} (h : p.kept = q.kept) (a : Nat) : p.keptAt a = q.keptAt a := by
  unfold Planner.keptAt; rw [h]

/-- What a raise does depends on the attention unit, the memory and the power state alone. -/
theorem raise_congr {s t : State} (h1 : t.attn = s.attn) (h2 : t.mem = s.mem) (h3 : t.power.state = s.power.state)
    (f : Factor) : t.raise f = { t with attn := (s.raise f).attn, mem := (s.raise f).mem } := by
  simp only [State.raise, State.setFactors, h1]
  split
  · rw [← h1, ← h2]
  · simp only [State.judgeAttn, h2, h3]

/-- A raise rewrites the factor word alone. -/
theorem sameBut_raise {s n : State} {rs : List (Nat × Nat)} (h : s.sameBut n rs) (hn : n.mem.wf = true) (hf : factorRec ∈ rs)
    {f : Factor} : s.sameBut (n.raise f) rs := fun a ha =>
  (read_raise_of_out hn f (ha _ hf)).trans (h a ha)

theorem getAt_isSome {α : Type} {l : List α} {k : Nat} : (getAt l k).isSome = true ↔ k < l.length := by
  induction l generalizing k with
  | nil => cases k <;> simp [getAt]
  | cons x l ih => cases k <;> simp [getAt, ih]

/-- Lists of the same length have entries at the same addresses. -/
theorem atAddr_isSome_of_length {α β : Type} {l : List α} {m : List β} (h : l.length = m.length) (a : Nat) :
    (atAddr l a).isSome = (atAddr m a).isSome := by
  unfold atAddr
  split
  · rfl
  · rw [Bool.eq_iff_iff, getAt_isSome, getAt_isSome, h]

/-- An address with an entry in the working map of a part of the right shape has a place among the kept readings. -/
theorem atAddr_kept {s : State} (h : s.shaped) {a : Nat} {e : ModuleEntry} (he : s.chain.entry a = some e) :
    ∃ k, atAddr s.plan.kept a = some k := by
  obtain ⟨-, -, -, hmap, hkept, -⟩ := h
  refine Option.isSome_iff_exists.1 ?_
  rw [atAddr_isSome_of_length (hkept.trans hmap.symm) a]
  exact Option.isSome_iff_exists.2 ⟨e, he⟩

theorem Goes.mono {c : Instr} {s : State} {p q : State → Prop} (h : Goes c s p) (hpq : ∀ t, p t → q t) : Goes c s q :=
  let ⟨t, ht, hp⟩ := h
  ⟨t, ht, hpq t hp⟩

/-- The state after a READ's outcome has been counted and its entry followed, before the planner is told. -/
def State.followed (s : State) (us : Us) (errs : List Us) (a : Nat) (g : ModuleEntry → ModuleEntry) (A : Attn) (M : Memory) :
    State :=
  { s with
    conv.us := us
    chain.errs := errs
    chain.map := modifyAddr s.chain.map a g
    attn := A
    mem := M }

/-- A step that ends with the turn of an address follows the map and rewrites the records. -/
theorem goes_turn {c : Instr} {s n : State} {us : Us} {errs : List Us} {a : Nat} {g : ModuleEntry → ModuleEntry} {A : Attn}
    {M : Memory} {rs : List (Nat × Nat)} (hex : exec c s = s.react n)
    (hframe : n = { s.followed us errs a g A M with
      chain.line := n.chain.line
      chain.hold := n.chain.hold
      plan.captures := n.plan.captures
      plan.kept := n.plan.kept })
    (hlen : s.chain.map.length = 24) (hcalm : s.calm) (hnr : n.restful) (hmk : n.marked) (hM : M.wf = true)
    (hrs : s.sameBut { s with mem := M } rs) (hmap : mapRec ∈ rs) :
    Goes c s fun t =>
      t.chain.map = modifyAddr s.chain.map a g ∧ t.attn = A ∧ t.chain.errs = errs ∧ t.chain.line = n.chain.line
        ∧ t.chain.hold = n.chain.hold ∧ t.plan.kept = n.plan.kept
        ∧ t = { s with
            conv.us := us
            chain.errs := t.chain.errs
            chain.map := t.chain.map
            chain.line := t.chain.line
            chain.hold := t.chain.hold
            plan.captures := t.plan.captures
            plan.kept := t.plan.kept
            sup.faultedSince := if anyFaulted t.chain.map then
                if anyFaulted s.chain.map then s.sup.faultedSince else some s.now
              else none
            attn := t.attn
            mem := t.mem }
        ∧ s.sameBut t rs := by
  refine goes_tracked_react n _ hex hnr hcalm (by rw [hframe]; rfl) hmk rfl ?_
  clear hex hnr hmk
  generalize n.chain.line = l, n.chain.hold = h, n.plan.captures = cs, n.plan.kept = ks at hframe ⊢
  subst hframe
  unfold State.followed
  exact ⟨rfl, rfl, rfl, rfl, rfl, rfl, rfl, sameBut_mirror hM hrs (by simp [State.mirrors, chainBytes, pointerBytes, countBytes, hmap, hlen])⟩

/-- A good REPLY changes the entry of its address as the map's rules say, keeps the readings, and the exchange ends; `A` and
`M` are the attention unit and the memory that the rules leave. -/
theorem goes_reply_good {us sent : Us} {first : Nat} {f : Frame} {codes : List Half} {status : ModuleStatus}
    {version : Half} {c : Capture} {m : Item} {e : ModuleEntry} {s : State} {g : ModuleEntry → ModuleEntry} {A : Attn}
    {M : Memory} {rs : List (Nat × Nat)} (hsh : s.shaped) (hcalm : s.calm) (hrest : s.restful)
    (hq : s.chain.requests = []) (hl : s.chain.line = .window f sent) (hk : f.kind = .read)
    (hd : s.chain.down = false) (hc : s.plan.captures.find? Capture.holding = some c)
    (hm : c.items.find? (fun m => decide (m.addr = f.addr)) = some m) (hn : codes.length = m.cells + m.sensors)
    (he : s.chain.entry f.addr = some e) (ht : first ≤ s.chain.windowOf f)
    (hu : (s.atUs us).goodReply f.addr status version = s.followed (usAfter s us) s.chain.errs f.addr g A M)
    (hM : M.wf = true) (hrs : s.sameBut { s with mem := M } rs) (hmap : mapRec ∈ rs) :
    Goes (.reply ⟨us, first⟩ f.addr f.tag codes status version none) s fun t =>
      t.chain.map = modifyAddr s.chain.map f.addr g ∧ t.attn = A
        ∧ t.plan.keptAt f.addr = some (m.goodReading c.contents (s.plan.keptAt f.addr) codes)
        ∧ (match nextToRead s c f.addr with
          | some n => t.chain.line = .sending ⟨.read, n.addr, c.tag, []⟩ ∧ t.chain.hold = s.chain.hold
          | none => t.chain.line = .idle ∧ t.chain.hold = none)
        ∧ t = { s with
            conv.us := usAfter s us
            chain.map := t.chain.map
            chain.line := t.chain.line
            chain.hold := t.chain.hold
            plan.captures := t.plan.captures
            plan.kept := t.plan.kept
            sup.faultedSince := if anyFaulted t.chain.map then
                if anyFaulted s.chain.map then s.sup.faultedSince else some s.now
              else none
            attn := t.attn
            mem := t.mem }
        ∧ s.sameBut t rs := by
  obtain ⟨-, hmark⟩ := (calm_iff s).1 hcalm
  obtain ⟨k, hkept⟩ := atAddr_kept hsh he
  obtain ⟨-, -, -, hlen, -⟩ := hsh
  have hlist : s.plan.lists f.addr = true := by
    have ha : m.addr = f.addr := by simpa using List.find?_some hm
    simpa [ha] using lists_of_mem hc (List.mem_of_find?_eq_some hm)
  have hex := reply_good_react hl hk hc hm hn ht _ hu hd rfl
  have hte := turnEnds_readOn (t := s.followed (usAfter s us) s.chain.errs f.addr g A M) hc f.addr
    (some (m.goodReading c.contents (s.plan.keptAt f.addr) codes))
    ((s.followed (usAfter s us) s.chain.errs f.addr g A M).chain.stateOf f.addr)
  refine (goes_turn hex hte.frame hlen hcalm
    (hte.restful (resting_of_same hrest.1 rfl rfl rfl rfl rfl rfl rfl rfl) hq) (hte.marked hmark) hM hrs hmap).mono ?_
  rintro t ⟨htm, hta, hte', htl, hth, htk, htt, hsame⟩
  have hnext := hte.next
  rw [nextToRead_congr (s := s) (entry_modifyAddr_other rfl), ← htl, ← hth] at hnext
  refine ⟨htm, hta, ?_, hnext, by rw [hte'] at htt; exact htt, hsame⟩
  calc t.plan.keptAt f.addr
      = _ := keptAt_congr htk f.addr
    _ = (atAddr s.plan.kept f.addr).bind fun _ => some (m.goodReading c.contents (s.plan.keptAt f.addr) codes) :=
      hte.kept hlist
    _ = _ := by rw [hkept]; rfl

/-- Settles O34. -/
theorem goodReply : Obligations.GoodReply := by
  unfold Obligations.GoodReply
  intro us sent first p f codes status version c m e s hw hsh hcalm hrest hq hl hk hh hd hc hm hn he hfol ht
  have hfol' : (!e.follows) = false := by simp [hfol]
  have he' : (s.atUs us).chain.entry f.addr = some e := he
  refine ⟨fun hi => ?_, fun hi => ?_⟩
  · refine (goes_reply_good (rs := [mapRec]) (A := s.attn) (M := s.mem)
      (g := fun e => { e with status := status, version := version, miss := 0, state := .inService, cause := none })
      hsh hcalm hrest hq hl hk hd hc hm hn he ht ?_ hw (sameBut_of_mem rfl) (by simp)).mono ?_
    · simp only [State.goodReply, he', hfol', hi, Bool.false_eq_true, if_false]
      rfl
    · rintro t ⟨hmap, hattn, hkept, hnext, htt, hsame⟩
      have hnot : anyFaulted t.chain.map = true → anyFaulted s.chain.map = true := by
        rw [hmap]
        exact anyFaulted_of_modifyAddr fun _ _ _ h => nomatch h
      have hfs : (if anyFaulted t.chain.map then if anyFaulted s.chain.map then s.sup.faultedSince else some s.now else none)
          = if anyFaulted t.chain.map then s.sup.faultedSince else none := by
        split
        · rename_i h; rw [if_pos (hnot h)]
        · rfl
      rw [hfs, hattn] at htt
      exact ⟨hmap, by rw [htt], by rw [htt], by rw [htt], hkept, hnext, htt, hsame⟩
  · by_cases hes : e.state = .faulted
    · refine (goes_reply_good (rs := [factorRec, mapRec]) (A := s.attn) (M := s.mem)
        (g := fun e => { e with status := status, version := version, miss := 0, state := .faulted, cause := some .internal })
        hsh hcalm hrest hq hl hk hd hc hm hn he ht ?_ hw (sameBut_of_mem rfl) (by simp)).mono ?_
      · simp only [State.goodReply, he', hfol', hi, Bool.false_eq_true, if_false, if_true, raiseFault_of_faulted hes]
        rfl
      · rintro t ⟨hmap, hattn, hkept, hnext, htt, hsame⟩
        exact ⟨hmap, by rw [htt], by rw [htt], by rw [htt], fun _ => hattn, fun h => absurd hes h, hkept, hnext, htt, hsame⟩
    · refine (goes_reply_good (rs := [factorRec, mapRec]) (A := (s.raise .moduleFault).attn)
        (M := (s.raise .moduleFault).mem)
        (g := fun e => { e with status := status, version := version, miss := 0, state := .faulted, cause := some .internal })
        hsh hcalm hrest hq hl hk hd hc hm hn he ht ?_ (raise_wf _ _ hw)
        (sameBut_raise (sameBut_of_mem rfl) hw (by simp)) (by simp)).mono ?_
      · simp only [State.goodReply, he', hfol', hi, Bool.false_eq_true, if_false, if_true, raiseFault_of_other hes]
        refine (raise_congr (s := s) ?_ ?_ ?_ _).trans ?_ <;> rfl
      · rintro t ⟨hmap, hattn, hkept, hnext, htt, hsame⟩
        exact ⟨hmap, by rw [htt], by rw [htt], by rw [htt], fun h => absurd h hes, fun _ => by
          rw [hattn]; exact raise_pending_self s .moduleFault, hkept, hnext, htt, hsame⟩

/-! ### A READ that misses -/

theorem countError_up {s : State} {us : Us} (hs : s.chain.state = .up)
    (hn : (s.chain.errs.filter fun t => decide (elapsed us t < 10000)).length < 7) :
    s.countError us = { s with
      chain.errs := (s.chain.errs.filter fun t => decide (elapsed us t < 10000)) ++ [us] } := by
  simp only [State.countError, hs]
  rw [if_pos (by rw [List.length_append, List.length_singleton]; omega)]

/-- A READ's miss, once the entry of its address has followed: the address has its turn with the readings it had, and the
exchange ends; where no capture holds the chain the hold stands. -/
theorem goes_readMissed {c : Instr} {us sent : Us} {p : Nat} {f : Frame} {s : State} {errs : List Us}
    {g : ModuleEntry → ModuleEntry} {A : Attn} {M : Memory} {rs : List (Nat × Nat)} (hsh : s.shaped) (hcalm : s.calm)
    (hrest : s.restful) (hq : s.chain.requests = []) (hl : s.chain.line = .window f sent)
    (hh : s.chain.hold = some (.capture p)) (hf : answerFails s f sent us c) (hd : s.chain.down = false)
    (hu : ((State.countError { s with conv.us := us } us).miss f.addr) = s.followed us errs f.addr g A M)
    (hM : M.wf = true) (hrs : s.sameBut { s with mem := M } rs) (hmap : mapRec ∈ rs) :
    Goes c s fun t =>
      t.chain.map = modifyAddr s.chain.map f.addr g ∧ t.attn = A ∧ t.chain.errs = errs
        ∧ (∀ cap, s.plan.captures.find? Capture.holding = some cap → match nextToRead s cap f.addr with
          | some n => t.chain.line = .sending ⟨.read, n.addr, cap.tag, []⟩ ∧ t.chain.hold = s.chain.hold
          | none => t.chain.line = .idle ∧ t.chain.hold = none)
        ∧ t = { s with
            conv.us := us
            chain.errs := t.chain.errs
            chain.map := t.chain.map
            chain.line := t.chain.line
            chain.hold := t.chain.hold
            plan.captures := t.plan.captures
            plan.kept := t.plan.kept
            sup.faultedSince := if anyFaulted t.chain.map then
                if anyFaulted s.chain.map then s.sup.faultedSince else some s.now
              else none
            attn := t.attn
            mem := t.mem }
        ∧ s.sameBut t rs := by
  obtain ⟨-, hmark⟩ := (calm_iff s).1 hcalm
  obtain ⟨-, -, -, hlen, -⟩ := hsh
  have hex := answerFails_react hl hf fun _ => ⟨p, hh⟩
  simp only [State.answerFailed, hh, State.readMissed, hu, State.captureGoesOn, State.settleOld] at hex
  rw [if_neg (by simpa [State.followed, Chain.down] using hd)] at hex
  cases hc : s.plan.captures.find? Capture.holding with
  | some cap =>
    have hte := turnEnds_readOn (t := s.followed us errs f.addr g A M) hc f.addr
      (((s.followed us errs f.addr g A M).plan.keptAt f.addr).map Reading.older)
      ((s.followed us errs f.addr g A M).chain.stateOf f.addr)
    refine (goes_turn hex hte.frame hlen hcalm
      (hte.restful (resting_of_same hrest.1 rfl rfl rfl rfl rfl rfl rfl rfl) hq) (hte.marked hmark) hM hrs hmap).mono ?_
    rintro t ⟨htm, hta, hte', htl, hth, htk, htt, hsame⟩
    have hnext := hte.next
    rw [nextToRead_congr (s := s) (entry_modifyAddr_other rfl), ← htl, ← hth] at hnext
    refine ⟨htm, hta, hte', fun cap' hcap => ?_, htt, hsame⟩
    cases hcap
    exact hnext
  | none =>
    have hnone : (State.settleItem (s.followed us errs f.addr g A M) f.addr
        (((s.followed us errs f.addr g A M).plan.keptAt f.addr).map Reading.older)
        ((s.followed us errs f.addr g A M).chain.stateOf f.addr)).plan.captures.find? Capture.holding = none := by
      have hcomp (r st) : Capture.holding ∘ Capture.settle f.addr r st = Capture.holding := funext fun d => by simp
      rw [settleItem_eq]
      simp only [List.find?_map, hcomp, show (s.followed us errs f.addr g A M).plan.captures = s.plan.captures from rfl, hc,
        Option.map_none]
    simp only [State.readOn, hnone] at hex
    rw [settleItem_eq] at hex
    refine (goes_turn hex rfl hlen hcalm ?_ ?_ hM hrs hmap).mono ?_
    · exact ⟨resting_of_same hrest.1 rfl rfl rfl rfl rfl rfl rfl rfl, .inl hq⟩
    · rw [← settleItem_eq]
      exact settleItem_marked (s := s.followed us errs f.addr g A M) hmark _ _ _
    · rintro t ⟨htm, hta, hte', -, -, -, htt, hsame⟩
      exact ⟨htm, hta, hte', nofun, htt, hsame⟩

/-- Settles O35. -/
theorem readMisses : Obligations.ReadMisses := by
  unfold Obligations.ReadMisses
  intro c us sent p f e s hw hsh hcalm hrest hq hl hk hh hf hs hn he hcf hes
  have hd : s.chain.down = false := by simp [Chain.down, hs]
  have hcount := countError_up (s := { s with conv.us := us }) (us := us) hs hn
  have hentry : Chain.entry { s.chain with
    errs := (s.chain.errs.filter fun t => decide (elapsed us t < 10000)) ++ [us] } f.addr = some e := he
  obtain ⟨hfs, -⟩ := (calm_iff s).1 hcalm
  have hlive : e.state ≠ .faulted := by rcases hes with hes | hes <;> simp [hes]
  by_cases hmiss : e.miss < 2
  · refine (goes_readMissed (rs := [factorRec, mapRec])
      (errs := (s.chain.errs.filter fun t => decide (elapsed us t < 10000)) ++ [us]) (A := s.attn) (M := s.mem)
      (g := fun e => { e with miss := e.miss + 1, state := .stale }) hsh hcalm hrest hq hl hh hf hd ?_ hw
      (sameBut_of_mem rfl) (by simp)).mono ?_
    · rcases hes with hes | hes <;> simp only [hcount, State.miss, hentry, hes, hmiss, if_true] <;> rfl
    · rintro t ⟨hmap, hattn, herrs, hnext, htt, hsame⟩
      have hany : anyFaulted t.chain.map = anyFaulted s.chain.map := by
        rw [hmap]
        refine anyFaulted_modifyAddr_same fun x hx => ⟨?_, nofun⟩
        cases (show some e = some x from he.symm.trans hx)
        exact hlive
      have hsince : (if anyFaulted t.chain.map then if anyFaulted s.chain.map then s.sup.faultedSince else some s.now else none)
          = s.sup.faultedSince := by
        rw [hany]
        split
        · rfl
        · rename_i h
          rw [Bool.not_eq_true] at h
          rw [h] at hfs
          exact Eq.symm (by simpa using hfs)
      rw [hsince] at htt
      have hsup : t.sup = s.sup := by rw [htt]
      refine ⟨herrs, by rw [htt]; exact hs, fun _ => ⟨hmap, hattn, hsup⟩, fun h => absurd hmiss (by omega), hnext, ?_, hsame⟩
      rw [hsup]
      exact htt
  · refine (goes_readMissed (rs := [factorRec, mapRec])
      (errs := (s.chain.errs.filter fun t => decide (elapsed us t < 10000)) ++ [us]) (A := (s.raise .moduleFault).attn) (M := (s.raise .moduleFault).mem)
      (g := fun e => { e with miss := 3, state := .faulted, cause := some .missed }) hsh hcalm hrest hq hl hh hf hd ?_
      (raise_wf _ _ hw) (sameBut_raise (sameBut_of_mem rfl) hw (by simp)) (by simp)).mono ?_
    · rcases hes with hes | hes <;> simp only [hcount, State.miss, hentry, hes, hmiss, if_false] <;>
        refine (raise_congr (s := s) ?_ ?_ ?_ _).trans ?_ <;> rfl
    · rintro t ⟨hmap, hattn, herrs, hnext, htt, hsame⟩
      have hany : anyFaulted t.chain.map = true := by
        rw [hmap]
        exact anyFaulted_modifyAddr he hcf rfl
      rw [hany, if_pos rfl] at htt
      have hsup : t.sup = { s.sup with
          faultedSince := if anyFaulted s.chain.map then s.sup.faultedSince else some s.now } := by rw [htt]
      refine ⟨herrs, by rw [htt]; exact hs, fun h => absurd h hmiss, fun _ => ⟨hmap, ?_, hsup⟩, hnext, ?_, hsame⟩
      · rw [hattn]; exact raise_pending_self s .moduleFault
      · rw [hsup]; exact htt

end Sys2Proof.Machine

namespace Sys2Proof.Machine

/-! ### The end of a step that sends events -/

/-- While surge holds, SURGE stands on every record whose window fills and on the capture that holds the chain after its
broadcast (R98, R54). -/
def State.surgeMarked (n : State) : Prop :=
  (n.sup.surge = true → ∀ k ∈ n.ev.filling, ∀ r, n.ev.at k = some r → r.surge = true)
    ∧ (n.sup.surge = true → ∀ c ∈ n.plan.captures, c.holding = true → c.tb.isSome = true → c.surge = true)

/-- A step's events, once the step has ended. -/
def sentEvents (l : List SentEvent) : List SentEvent := l.map fun e => { e with fresh := false }

@[simp] theorem sentEvents_append (l k : List SentEvent) : sentEvents (l ++ k) = sentEvents l ++ sentEvents k := by
  simp [sentEvents]

theorem sentEvents_calm {s : State} (h : s.calm) : sentEvents s.ev.inbox = s.ev.inbox := by
  have := endSending_calm h
  exact congrArg (·.ev.inbox) this

/-- On a calm state no event waits that the step in progress has sent. -/
theorem lastOf_fresh {l : List SentEvent} (h : ∀ e ∈ l, e.fresh = false) : (lastOf l).any (·.fresh) = false := by
  induction l with
  | nil => rfl
  | cons e l ih =>
    obtain ⟨he, hl⟩ := List.forall_mem_cons.1 h
    cases l with
    | nil => simpa [lastOf] using he
    | cons f l => exact ih hl

theorem lastOf_fresh_calm {s : State} (h : s.calm) : (lastOf s.ev.inbox).any (·.fresh) = false := by
  obtain ⟨-, -, -, hin⟩ := h
  exact lastOf_fresh hin

theorem surgeMarked_of_calm {s : State} (h : s.calm) : s.surgeMarked := by
  obtain ⟨-, hev, hcap, -⟩ := h
  exact ⟨hev, hcap⟩

/-- A record marked SURGE already is not changed by the mark. -/
theorem change_surge_same {v : Recorder} {k : Nat} (h : ∀ r, v.at k = some r → r.surge = true) :
    (v.change k fun r => { r with surge := true }) = v := by
  unfold Recorder.change
  rw [modifyAt_same]
  rintro (_ | r) hx
  · rfl
  · have hr := h r (by simp [Recorder.at, hx])
    show some { r with surge := true } = some r
    rw [← hr]

theorem markSurge_marked {n : State} (h : n.surgeMarked) : n.markSurge = n := by
  unfold State.markSurge
  split
  · rename_i hs
    have hev := h.1 (by simp_all)
    have hfold : ∀ l : List Nat, (∀ k ∈ l, ∀ r, n.ev.at k = some r → r.surge = true) →
        l.foldl (fun v k => v.change k fun r => { r with surge := true }) n.ev = n.ev := by
      intro l
      induction l with
      | nil => intro _; rfl
      | cons k l ih =>
        intro hl
        obtain ⟨hk, hl⟩ := List.forall_mem_cons.1 hl
        rw [List.foldl_cons, change_surge_same hk, ih hl]
    rw [hfold _ hev]
  · rfl

theorem markCaptureSurge_marked {n : State} (h : n.surgeMarked) : n.markCaptureSurge = n := by
  unfold State.markCaptureSurge
  split
  · rename_i hs
    have hsame : ∀ c ∈ n.plan.captures,
        (if c.holding then { c with surge := c.surge || c.tb.isSome } else c) = c := by
      intro c hc
      split
      · rename_i hh
        have hm : (c.surge || c.tb.isSome) = c.surge := by
          cases ht : c.tb.isSome
          · simp
          · simp [h.2 hs c hc hh ht]
        rw [hm]
      · rfl
    unfold State.editHeld
    rw [List.map_congr_left (g := id) hsame, List.map_id]
  · rfl

/-- Where the SURGE marks stand, the end of a step follows the map, has sent the events of the step and rewrites the
records. -/
theorem finish_surgeMarked {o n : State} (hm : n.surgeMarked) :
    State.finish o n = mirror o (State.trackFaulted o n).endSending := by
  have hm' : (State.trackFaulted o n).surgeMarked := by rw [trackFaulted_eq]; exact hm
  unfold State.finish
  rw [markSurge_marked hm', markCaptureSurge_marked hm']

/-- A command with reactions completes with the faulted-since time that follows the map, its events sent and its records
rewritten, where nothing reacts. -/
theorem goes_ended_react {c : Instr} {s : State} {p : State → Prop} (n : State) (fs : Option Ms) (h : exec c s = s.react n)
    (hr : n.restful) (hm : n.surgeMarked)
    (hfs : (if anyFaulted n.chain.map then if anyFaulted s.chain.map then n.sup.faultedSince else some n.now else none) = fs)
    (hp : p { n with
      sup.faultedSince := fs
      ev.inbox := sentEvents n.ev.inbox
      mem := (mirror s { n with sup.faultedSince := fs, ev.inbox := sentEvents n.ev.inbox }).mem }) : Goes c s p := by
  refine ⟨_, ?_, hp⟩
  rw [h, State.react, settle_restful hr, finish_surgeMarked hm, trackFaulted_eq, hfs]
  rfl

/-- A command completes with the records rewritten of what its reactions leave, where no module is newly faulted. -/
theorem goes_shown_settled {c : Instr} {s n : State} {p : State → Prop} (m : State) (h : exec c s = s.react n)
    (hs : n.settle = m) (hc : m.calm) (hf : anyFaulted m.chain.map = true → anyFaulted s.chain.map = true)
    (hp : p { m with mem := (mirror s m).mem }) : Goes c s p :=
  ⟨_, by rw [h, State.react, hs, finish_calm hc hf]; rfl, hp⟩

/-- The faulted-since time stands where the map does. -/
theorem faultedSince_kept {s : State} {m : List ModuleEntry} {now : Ms} (h : s.calm) (hm : anyFaulted m = anyFaulted s.chain.map) :
    (if anyFaulted m then if anyFaulted s.chain.map then s.sup.faultedSince else some now else none) = s.sup.faultedSince := by
  obtain ⟨hf, -⟩ := (calm_iff s).1 h
  cases ha : anyFaulted s.chain.map <;> rw [hm, ha]
  · rw [ha] at hf
    exact Eq.symm (by simpa using hf)
  · rfl

/-! ### A request that is granted at once -/

/-- A chain that is not asleep, and was not, leaves a part at rest that was. -/
theorem resting_of_chain {n s : State} (h : s.resting) (ha : n.chain.state ≠ .asleep)
    (hsame : n.power.entry = s.power.entry ∧ n.power.patrol = s.power.patrol ∧ n.plan.burst = s.plan.burst
      ∧ n.plan.patrolReport = s.plan.patrolReport ∧ n.upd.pause = s.upd.pause ∧ n.upd.state = s.upd.state) : n.resting := by
  obtain ⟨h1, h2, h4, h5, h6, h7⟩ := hsame
  obtain ⟨hb, hu, hd, he, hp, -⟩ := h
  refine ⟨h4 ▸ hb, h6 ▸ hu, h7 ▸ hd, fun e hn => ?_, fun p hn => ?_, fun _ _ => ha⟩
  · rcases he e (h1 ▸ hn) with h | h | ⟨h, -⟩
    exacts [.inl h, .inr (.inl h), .inr (.inr ⟨h, ha⟩)]
  · rw [h5]; exact hp p (h2 ▸ hn)

theorem balanceReact_of_no_config {s : State} (h : s.chain.requests.contains .config = false) : s.balanceReact = s := by
  unfold State.balanceReact
  split
  · rfl
  · split
    · rfl
    · rw [h, Bool.false_and, if_neg Bool.false_ne_true]

/-- No block but the arbiter has anything to do at once. -/
structure State.Still (s : State) : Prop where
  burst : s.burstReact = s
  patrol : s.patrolReact = s
  returning : s.returnReact = s
  update : s.updateReact = s
  entry : s.entryReact = s

/-- The blocks other than the update engine rest. -/
def State.restsElse (s : State) : Prop :=
  s.plan.burst = none
    ∧ (∀ e, s.power.entry = some e → e.step = 3 ∨ e.step = 5 ∨ e.step = 4 ∧ s.chain.state ≠ .asleep)
    ∧ (∀ p, s.power.patrol = some p → p.judged = none ∧ s.plan.patrolReport = none)
    ∧ (∀ r, s.power.returning = some r → s.chain.state ≠ .asleep)

theorem resting_iff (s : State) : s.resting ↔ s.restsElse ∧ s.upd.pause = none ∧ s.upd.state ≠ .distributing := by
  unfold State.resting State.restsElse
  tauto

/-- Where the other blocks rest and the engine has nothing to do at once, only the arbiter may act. -/
theorem still_of_update {s : State} (h : s.restsElse) (hu : s.updateReact = s) : s.Still := by
  obtain ⟨hb, he, hp, hr⟩ := h
  constructor
  case update => exact hu
  case burst => simp [State.burstReact, hb]
  case patrol =>
    unfold State.patrolReact
    cases hpt : s.power.patrol with
    | none => rfl
    | some p =>
      obtain ⟨hj, hrep⟩ := hp p hpt
      simp [hj, hrep]
  case returning =>
    unfold State.returnReact
    cases hrt : s.power.returning with
    | none => rfl
    | some r => simp [hr r hrt]
  case entry =>
    unfold State.entryReact
    cases het : s.power.entry with
    | none => rfl
    | some e =>
      rcases he e het with hs | hs | ⟨hs, hna⟩ <;> simp [hs]
      exact fun h => absurd h hna

theorem still_of_resting {s : State} (h : s.resting) : s.Still := by
  obtain ⟨he, hu, hd⟩ := (resting_iff s).1 h
  refine still_of_update he ?_
  unfold State.updateReact
  rw [hu]
  cases hst : s.upd.state <;> simp_all

/-- Where nothing else is to be done, a round is what the arbiter does: it answers, and grants. -/
theorem round_still {s : State} (h : s.Still) (ha : s.answerRequests = s) : s.round = s.arbiterGrant := by
  unfold State.round
  rw [h.burst, ha, h.patrol, h.returning, h.update, h.entry, ha]

/-- Nothing is answered and nothing granted where no request waits or the chain is held. -/
theorem answerRequests_quiet {s : State} (h : s.chain.requests = [] ∨ s.chain.occupied) : s.answerRequests = s := by
  unfold State.answerRequests
  rcases h with hq | ⟨-, hd, hna⟩
  · simp [hq]
  · simp [hd, hna]

@[inherit_doc answerRequests_quiet]
theorem arbiterGrant_quiet {s : State} (h : s.chain.requests = [] ∨ s.chain.occupied) : s.arbiterGrant = s := by
  unfold State.arbiterGrant
  rcases h with hq | ⟨hh, -, -⟩
  · have hn : s.balanceReact = s := balanceReact_of_no_config (by simp [hq])
    simp [hn, Chain.grantable, hq, pickRequest]
  · have hf : s.chain.free = false := by simp [Chain.free, Option.isNone_eq_false_iff.2 hh]
    simp [hf]

/-- What the arbiter grants is all that follows where nothing else is to be done before it or after. -/
theorem settle_granted_still {s : State} (h : s.Still) (ha : s.answerRequests = s) (hs : s.arbiterGrant.Still)
    (hq : s.arbiterGrant.chain.requests = [] ∨ s.arbiterGrant.chain.occupied) : s.settle = s.arbiterGrant := by
  have key : s.arbiterGrant.round = s.arbiterGrant := by
    rw [round_still hs (answerRequests_quiet hq), arbiterGrant_quiet hq]
  unfold State.settle
  rw [round_still h ha, key, key, key]

/-- Nothing follows where nothing is to be done and no request can be answered or granted. -/
theorem settle_still {s : State} (h : s.Still) (hq : s.chain.requests = [] ∨ s.chain.occupied) : s.settle = s := by
  have hg := arbiterGrant_quiet hq
  rw [settle_granted_still h (answerRequests_quiet hq) (by rwa [hg]) (by rwa [hg]), hg]

/-- In a part at rest whose requests are not answered, what the arbiter grants is all that follows, if nothing waits
after it. -/
theorem settle_granted {s : State} (h : s.resting) (ha : s.answerRequests = s) (hr : s.arbiterGrant.restful) :
    s.settle = s.arbiterGrant :=
  settle_granted_still (still_of_resting h) ha (still_of_resting hr.1) hr.2

/-- On a free chain the one request that may be granted is. -/
theorem arbiterGrant_only {s : State} {r : Req} (hf : s.chain.free = true) (hq : s.chain.requests = [r]) (hr : r ≠ .config)
    (hg : s.chain.grantable = [r]) : s.arbiterGrant = s.grant r := by
  have hn : s.balanceReact = s := balanceReact_of_no_config (by simp [hq, Ne.symm hr])
  simp only [State.arbiterGrant, hf, if_true, hn, hg, pickRequest]

end Sys2Proof.Machine

namespace Sys2Proof.Machine

/-! ### Link health -/

theorem strayCharacters_done {us : Us} {s : State} (h : ∀ f sent, s.chain.line ≠ .window f sent) :
    exec (.strayCharacters us) s = s.done (State.countError { s with conv.us := usAfter s us } (usAfter s us)) := by
  show execStrayCharacters us s = _
  unfold execStrayCharacters
  split
  · rename_i f sent hl; exact absurd hl (h f sent)
  all_goals rfl

theorem strayCharacters_window {us sent : Us} {f : Frame} {s : State} (h : s.chain.line = .window f sent) :
    exec (.strayCharacters us) s = s.done { s with conv.us := usAfter s us } := by
  show execStrayCharacters us s = _
  simp only [execStrayCharacters, h]
  rfl

theorem countError_eighth {s : State} {us : Us} (hs : s.chain.state = .up)
    (hn : 7 ≤ (s.chain.errs.filter fun t => decide (elapsed us t < 10000)).length) :
    s.countError us = { s with
      chain.state := .suspect
      chain.errs := (s.chain.errs.filter fun t => decide (elapsed us t < 10000)) ++ [us]
      chain.suspectSince := s.now
      chain.periodStart := s.now
      chain.periodErrs := 0 } := by
  simp only [State.countError, hs]
  rw [if_neg (by rw [List.length_append, List.length_singleton]; omega)]

theorem countError_suspect {s : State} {us : Us} (hs : s.chain.state = .suspect) :
    s.countError us = { s with chain.periodErrs := s.chain.periodErrs + 1 } := by
  simp only [State.countError, hs]

theorem countError_uncounted {s : State} {us : Us} (hu : s.chain.state ≠ .up) (hs : s.chain.state ≠ .suspect) :
    s.countError us = s := by
  unfold State.countError
  split <;> simp_all

theorem suspectPeriodEnd_react {s : State} (hs : s.chain.state = .suspect) (ht : 10 ≤ elapsed s.now s.chain.periodStart) :
    exec .suspectPeriodEnd s = s.react (if s.chain.periodErrs < 2 then s.enterUp else { s with
      chain.periodStart := s.chain.periodStart + 10
      chain.periodErrs := 0 }) := by
  show execSuspectPeriodEnd s = _
  have hp : s.passed s.chain.periodStart suspectPeriod = true := (passed_iff _ _ _).2 ht
  simp only [execSuspectPeriodEnd, hs, hp, decide_true, Bool.and_true, if_true]
  split <;> rfl

/-- Where the chain is held in a state that is neither down nor ASLEEP, its occupation depends on the hold alone. -/
theorem occupied_of_up {c : Chain} (hh : c.hold.isSome = true) (hs : c.state = .up ∨ c.state = .suspect) : c.occupied := by
  unfold Chain.occupied Chain.down
  rcases hs with hs | hs <;> simp [hh, hs]

/-- Settles O41. -/
theorem linkHealth : Obligations.LinkHealth := by
  unfold Obligations.LinkHealth
  refine ⟨fun us s hw hc => ⟨fun hl => ⟨?_, ?_, ?_, ?_⟩, fun f sent hl => ?_⟩, fun s hw hc hr hs ht => ⟨fun hn => ?_, fun hn => ?_⟩⟩
  · intro hs hn
    refine next_done (by rw [strayCharacters_done hl, countError_up (s := { s with conv.us := usAfter s us }) hs hn])
      (calm_of_same hc rfl rfl rfl rfl) (by simp [State.shownAlike, chainBytes])
  · intro hs hn
    exact goes_shown _ ((strayCharacters_done hl).trans
      (congrArg s.done (countError_eighth (s := { s with conv.us := usAfter s us }) hs hn)))
      (calm_of_same hc rfl rfl rfl rfl) id ⟨rfl, sameBut_mirror hw (sameBut_of_mem rfl) (by simp [State.mirrors, chainBytes])⟩
  · intro hs
    exact next_done (by rw [strayCharacters_done hl, countError_suspect (s := { s with conv.us := usAfter s us }) hs])
      (calm_of_same hc rfl rfl rfl rfl) (by simp [State.shownAlike, chainBytes])
  · intro hu hs
    exact next_done (by rw [strayCharacters_done hl, countError_uncounted (s := { s with conv.us := usAfter s us }) hu hs])
      (calm_of_same hc rfl rfl rfl rfl) (by simp [State.shownAlike])
  · exact next_done (strayCharacters_window hl) (calm_of_same hc rfl rfl rfl rfl) (by simp [State.shownAlike])
  · have hrest : s.enterUp.restful :=
      ⟨resting_of_chain hr.1 (by simp) (by simp), hr.2.imp id fun ho => occupied_of_up ho.1 (.inl rfl)⟩
    exact goes_shown_react s.enterUp (by rw [suspectPeriodEnd_react hs ht, if_pos hn]) hrest (calm_of_same hc rfl rfl rfl rfl) id
      ⟨rfl, sameBut_mirror hw (sameBut_of_mem rfl) (by simp [State.mirrors, chainBytes])⟩
  · exact next_react (by rw [suspectPeriodEnd_react hs ht, if_neg (by omega)]) (restful_of_held hr (by simp) (by simp))
      (calm_of_same hc rfl rfl rfl rfl) (by simp [State.shownAlike, chainBytes])

/-! ### The chain is lost, and surveyed again -/

/-- The chain becomes down out of SUSPECT (R8). -/
theorem becomeDown_eq (s : State) (o : Option ChainState) (b : Nat) : s.becomeDown o b = { s with
    chain.state := .down
    chain.wasDown := true
    chain.downSince := s.now
    chain.surveyTimer := some s.now
    attn := (s.raise .chainState).attn
    mem := (s.raise .chainState).mem
    ev.inbox := s.ev.inbox ++ [⟨.chainDown, 0, s.sup.coils, s.sup.coils,
      .chainDown (if o.isSome then .surveying else .suspect) o b, [], none, false,
      (lastOf s.ev.inbox).any (·.fresh), true⟩] } := by
  have hr := raise_congr (s := s) (t := { s with
    chain.state := .down
    chain.wasDown := true
    chain.downSince := s.now
    chain.surveyTimer := some s.now }) rfl rfl rfl .chainState
  simp only [State.becomeDown]
  rw [hr]
  rfl

theorem chainLossHold_react {s : State} (hs : s.chain.state = .suspect) (hl : s.chain.line = .idle)
    (ht : s.store.active.chainHold < (elapsed s.now s.chain.suspectSince : Nat)) :
    exec .chainLossHold s = s.react (s.becomeDown none 0) := by
  show execChainLossHold s = _
  have hline : (s.becomeDown none 0).chain.line = .idle := by rw [becomeDown_eq]; exact hl
  simp only [execChainLossHold]
  rw [if_pos ⟨hs, ht⟩, hline]

/-- A survey that a free chain grants at once. -/
theorem settle_survey {s : State} (h : s.resting) (hq : s.chain.requests = [.survey]) (hf : s.chain.free = true) :
    s.settle = { s with
      chain.origin := s.chain.state
      chain.state := .surveying
      chain.surveyTimer := none
      chain.requests := []
      chain.hold := some (.survey 1 false)
      chain.line := .sending ⟨.echo, 1, s.chain.exTag, []⟩
      chain.exTag := cycle 255 s.chain.exTag } := by
  have hna : s.chain.state ≠ .asleep := by simp_all [Chain.free]
  have ha : s.answerRequests = s := by
    unfold State.answerRequests
    split
    · simp [hq, State.answerDown, hna]
    · rfl
  have hg : s.arbiterGrant = s.grant .survey :=
    arbiterGrant_only hf hq (by simp) (by simp [Chain.grantable, hq])
  have hnone : s.chain.requests.filter (· ≠ .survey) = [] := by simp [hq]
  have he : s.grant .survey = { s with
      chain.origin := s.chain.state
      chain.state := .surveying
      chain.surveyTimer := none
      chain.requests := []
      chain.hold := some (.survey 1 false)
      chain.line := .sending ⟨.echo, 1, s.chain.exTag, []⟩
      chain.exTag := cycle 255 s.chain.exTag } := by
    simp only [State.grant, State.beginSurvey, State.beginExchange, State.dropRequest, hnone]
  rw [settle_granted h ha ?_, hg, he]
  rw [hg, he]
  exact ⟨resting_of_chain h (by simp) (by simp), .inl rfl⟩

theorem autoSurveyTimer_react {s : State} {tm : Ms} (ht : s.chain.surveyTimer = some tm) (he : 200 ≤ elapsed s.now tm)
    (hq : s.chain.requests = []) (hf : s.chain.free = true) :
    exec .autoSurveyTimer s = s.react { s with chain.surveyTimer := none, chain.requests := [.survey] } := by
  show execAutoSurveyTimer s = _
  have hp : s.passed tm autoSurvey = true := (passed_iff _ _ _).2 he
  simp only [Chain.free, Bool.and_eq_true, Option.isNone_iff_eq_none, decide_eq_true_eq, Bool.not_eq_true'] at hf
  obtain ⟨⟨⟨⟨hh, -⟩, hsl⟩, -⟩, hna⟩ := hf
  simp [execAutoSurveyTimer, ht, hp, State.requestSurvey, Chain.surveyHolds, hh, hsl, hna, State.request, hq]

/-- Settles O42. -/
theorem chainLostAndSurveyed : Obligations.ChainLostAndSurveyed := by
  unfold Obligations.ChainLostAndSurveyed
  refine ⟨fun s hw hc hr hq hl hs ht => ?_, fun s tm hw hc hr hq ht he hf hs => ?_⟩
  · refine goes_ended_react _ s.sup.faultedSince ((chainLossHold_react hs hl ht).trans (congrArg s.react (becomeDown_eq s none 0)))
      ⟨resting_of_chain hr.1 (by simp) (by simp), .inl hq⟩ (surgeMarked_of_calm (s := s) hc) (faultedSince_kept hc rfl) ?_
    rw [sentEvents_append, sentEvents_calm hc, lastOf_fresh_calm hc]
    exact ⟨raise_pending_self s .chainState, rfl,
      sameBut_mirror (raise_wf _ _ hw) (sameBut_raise (sameBut_of_mem rfl) hw (by simp)) (by simp [State.mirrors, chainBytes])⟩
  · refine goes_shown_settled _ (autoSurveyTimer_react ht he hq hf)
      (settle_survey (resting_of_same hr rfl rfl rfl rfl rfl rfl rfl rfl) rfl hf) (calm_of_same hc rfl rfl rfl rfl) id ?_
    refine ⟨?_, sameBut_mirror hw (sameBut_of_mem rfl) (by simp [State.mirrors, chainBytes])⟩
    rw [hs, ← hq]

end Sys2Proof.Machine

namespace Sys2Proof.Machine

/-! ### Bytes read back -/

theorem readBytes_of_read {m : Memory} (l : List Byte) (base : Nat)
    (h : ∀ i (hi : i < l.length), Memory.read m (base + i) = l[i]) : m.readBytes base l.length = l := by
  induction l generalizing base with
  | nil => rfl
  | cons b l ih =>
    have hb := h 0 (by simp)
    have ht := ih (base + 1) fun i hi => by
      have := h (i + 1) (by simpa using hi)
      rw [List.getElem_cons_succ] at this
      rw [← this]
      congr 1
      omega
    simp only [List.length_cons, Memory.readBytes]
    rw [ht]
    exact congrArg (· :: l) hb

theorem num_congr {m n : Memory} {base k : Nat} (h : ∀ a, base ≤ a → a < base + k → Memory.read m a = Memory.read n a) :
    m.num base k = n.num base k := congrArg ofLe (readBytes_congr h)

/-! ### Completions (R179) -/

/-- The cause byte of a result: 0 for none (12.3). -/
def Result.causeCode (r : Result) : Nat := (r.cause.map (·.code)).getD 0

theorem complete_mem {s : State} {k : Nat} {c : SlipCopy} (hw : s.mem.wf = true)
    (h : getAt s.port.slots k = some (some c)) (r : Result) {a : Nat} (ha : a < 0x100 ∨ 0x104 ≤ a) :
    Memory.read (s.complete k r).mem a = Memory.read (completionWrites k c r s.mem) a := by
  simp only [State.complete, h]
  exact read_raise_of_out (completionWrites_wf hw) _ ha

/-- A completed slot reads DONE, with its code, its cause and its result fields. -/
theorem complete_readBytes {s : State} {k : Nat} {c : SlipCopy} (hw : s.mem.wf = true) (hk : k ≤ 7)
    (h : getAt s.port.slots k = some (some c)) (r : Result) :
    (s.complete k r).mem.readBytes (slotAt k) 4 = le 4 3
      ∧ (s.complete k r).mem.readBytes (slotAt k + 48) 4
        = [byte r.code.code, byte r.causeCode, 0, 0]
      ∧ (s.complete k r).mem.readBytes (slotAt k + 52) 12 = fit 12 r.fields := by
  have hs : slotAt k = 0x200 + 64 * k := rfl
  refine ⟨readBytes_of_read (le 4 3) _ fun i hi => ?_, readBytes_of_read (_ :: _ :: _ :: _ :: []) _ fun i hi => ?_, ?_⟩
  · simp only [le_length] at hi
    rw [complete_mem hw h r (by omega), read_completionWrites hw hk, if_pos (by omega), Nat.add_sub_cancel_left,
      List.getElem?_eq_getElem (by simpa using hi), Option.getD_some]
  · simp only [List.length_cons, List.length_nil] at hi
    rw [complete_mem hw h r (by omega), read_completionWrites hw hk, if_neg (by omega), if_neg (by omega),
      if_pos (by omega), Nat.add_sub_cancel_left, List.getElem?_eq_getElem (by simpa using hi), Option.getD_some]
    obtain ⟨code, cause, fields⟩ := r
    cases cause <;> rfl
  · have hf := readBytes_of_read (m := (s.complete k r).mem) (fit 12 r.fields) (slotAt k + 52) fun i hi => by
      simp only [fit_length] at hi
      rw [complete_mem hw h r (by omega), read_completionWrites hw hk, if_neg (by omega), if_neg (by omega),
        if_neg (by omega), if_pos (by omega), Nat.add_sub_cancel_left, List.getElem?_eq_getElem (by simpa using hi),
        Option.getD_some]
    rwa [fit_length] at hf

/-- Elsewhere a completion writes the factor word alone. -/
theorem read_complete_of_out {s : State} {k : Nat} (hw : s.mem.wf = true) (r : Result) {a : Nat}
    (ha : a < 0x100 ∨ 0x104 ≤ a) (ho : a < slotAt k ∨ slotAt k + 64 ≤ a) :
    Memory.read (s.complete k r).mem a = Memory.read s.mem a := by
  rcases hg : getAt s.port.slots k with _ | _ | c
  · simp only [State.complete, hg]
  · simp only [State.complete, hg]
  · rw [complete_mem hw hg r ha]
    have hkey : Memory.read (if slipKindOf c.kind = some .installKey then s.mem.store (slotAt k + 8) (fit 32 []) else s.mem) a
        = Memory.read s.mem a := by
      split
      · exact read_store_of_out hw (by simp; omega)
      · rfl
    have hkw : (if slipKindOf c.kind = some .installKey then s.mem.store (slotAt k + 8) (fit 32 []) else s.mem).wf = true := by
      split
      exacts [store_wf hw, hw]
    unfold completionWrites
    rw [read_store_of_out (store_wf (store_wf (store_wf hkw))) (by simp; omega),
      read_store_of_out (store_wf (store_wf hkw)) (by simp; omega), read_store_of_out (store_wf hkw) (by simp; omega),
      read_store_of_out hkw (by simp; omega), hkey]

/-- A completion changes the port, the attention unit and the memory alone. -/
theorem complete_eq (s : State) (k : Nat) (r : Result) : s.complete k r = { s with
    port := (s.complete k r).port
    attn := (s.complete k r).attn
    mem := (s.complete k r).mem } := by
  unfold State.complete
  split
  · rw [raise_eq]
  · rfl

/-- A factor that is pending stays so. -/
theorem complete_pending {s : State} {f : Factor} (h : s.attn.pending f = true) (k : Nat) (r : Result) :
    (s.complete k r).attn.pending f = true := by
  unfold State.complete
  split
  · rw [raise_pending]
    simp [h]
  · exact h

/-- A completed slip shows DONE. -/
theorem complete_showsDone {s : State} {k : Nat} (hw : s.mem.wf = true) (h : s.inFlight k) (r : Result) :
    (s.complete k r).showsDone k r.code.code r.causeCode := by
  obtain ⟨hk, c, hc⟩ := h
  obtain ⟨hst, hcode, -⟩ := complete_readBytes hw hk hc r
  obtain ⟨hslot, hdone, -⟩ := complete_inFlight hc r
  have hbytes : ∀ x y z w : Byte, ∀ m : Memory, ∀ b, m.readBytes b 4 = [x, y, z, w] → m.num b 1 = x.toNat ∧ m.num (b + 1) 1 = y.toNat := by
    intro x y z w m b hb
    simp only [Memory.readBytes, List.cons.injEq] at hb
    obtain ⟨h1, h2, -⟩ := hb
    simp [Memory.num, Memory.readBytes, h1, h2, ofLe]
  obtain ⟨h1, h2⟩ := hbytes _ _ _ _ _ _ hcode
  refine ⟨by rw [Memory.num, hst]; rfl, ?_, ?_, hslot, hdone⟩
  · rw [h1]
    cases r.code <;> rfl
  · rw [h2]
    obtain ⟨code, cause, fields⟩ := r
    rcases cause with _ | x
    · rfl
    · cases x <;> rfl

/-- What a slot shows stands while its bytes, its slip and SLIP_DONE do. -/
theorem showsDone_of_same {t u : State} {k code cause : Nat} (h : t.showsDone k code cause)
    (hm : ∀ a, slotAt k ≤ a → a < slotAt k + 64 → Memory.read u.mem a = Memory.read t.mem a)
    (hs : getAt u.port.slots k = getAt t.port.slots k)
    (hd : t.attn.pending .slipDone = true → u.attn.pending .slipDone = true) : u.showsDone k code cause := by
  obtain ⟨h1, h2, h3, h4, h5⟩ := h
  refine ⟨?_, ?_, ?_, hs.trans h4, hd h5⟩
  · rw [num_congr fun a ha hb => hm a (by omega) (by omega), h1]
  · rw [num_congr fun a ha hb => hm a (by omega) (by omega), h2]
  · rw [num_congr fun a ha hb => hm a (by omega) (by omega), h3]

/-- Another slot's completion leaves what a slot shows. -/
theorem showsDone_complete {s : State} {k j code cause : Nat} (h : s.showsDone k code cause) (hw : s.mem.wf = true)
    (hk : k ≤ 7) (r : Result) : (s.complete j r).showsDone k code cause := by
  have ⟨_, _, _, hnone, _⟩ := h
  rcases eq_or_ne j k with rfl | hne
  · simpa only [State.complete, hnone] using h
  · refine showsDone_of_same h (fun a h1 h2 => read_complete_of_out hw r ?_ ?_) ?_ fun hd => complete_pending hd j r
    · simp only [slotAt] at h1; omega
    · simp only [slotAt] at *; omega
    · unfold State.complete
      split
      · simp [getAt_setAt, Ne.symm hne]
      · rfl

/-! ### The end of a step, field by field -/

/-- The slots, the survey table and what else lies between the factor word and the module status mirror are no records
that the end of a step rewrites. -/
theorem read_finish_mid {o n : State} (hw : n.mem.wf = true) {a : Nat} (h1 : 0x104 ≤ a) (h2 : a < 0x1200) :
    Memory.read (State.finish o n).mem a = Memory.read n.mem a := by
  unfold State.finish
  rw [read_mirror (by simpa using hw) (.inr (by omega)) (.inr (by omega)) (.inr (by omega)) (.inr (by omega))
    (.inr (by omega)) (.inr (by omega)) (.inr (by omega)) (.inr (by omega)) (.inr (by omega)) (.inr (by omega))
    (.inr (by omega)) (.inr (by omega)) (.inr (by omega))]
  simp

theorem showsDone_finish {o n : State} {k code cause : Nat} (hw : n.mem.wf = true) (hk : k ≤ 7)
    (h : n.showsDone k code cause) : (State.finish o n).showsDone k code cause := by
  refine showsDone_of_same h (fun a h1 h2 => read_finish_mid hw ?_ ?_) (by simp) (by simp)
  all_goals simp only [slotAt] at *; omega

theorem sameOutside_of_sameBut {s t : State} {lo hi : Nat} (h : s.sameBut t [(lo, hi)]) : s.sameOutside t lo hi :=
  fun a ha => h a (by simpa using ha)

theorem sameAround_self (s : State) : s.sameAround s :=
  ⟨rfl, rfl, rfl, rfl, rfl, rfl, rfl, rfl, rfl, rfl, rfl, rfl, rfl, rfl, rfl, rfl, rfl, rfl, rfl, rfl, rfl, rfl, rfl, rfl, rfl,
    rfl, rfl, rfl, rfl⟩

theorem sameContactors_self (s : State) : s.sameContactors s :=
  ⟨rfl, rfl, rfl, rfl, rfl, rfl, rfl, rfl, rfl, rfl, rfl⟩

theorem sameAround_finish {s n : State} (h : s.sameAround n) : s.sameAround (State.finish s n) := by
  simpa [State.sameAround] using h

theorem sameContactors_finish {s n : State} (h : s.sameContactors n) : s.sameContactors (State.finish s n) := by
  simpa [State.sameContactors, Sup.coils] using h

end Sys2Proof.Machine

namespace Sys2Proof.Machine

/-! ### A settled address compared with the working map (R12) -/

theorem modifyAt_modifyAt {α : Type} (l : List α) (k : Nat) (f g : α → α) :
    modifyAt (modifyAt l k f) k g = modifyAt l k fun x => g (f x) := by
  induction l generalizing k with
  | nil => cases k <;> rfl
  | cons x l ih => cases k <;> simp [modifyAt, ih]

@[simp] theorem modifyAddr_modifyAddr {α : Type} (l : List α) (a : Nat) (f g : α → α) :
    modifyAddr (modifyAddr l a f) a g = modifyAddr l a fun x => g (f x) := by
  unfold modifyAddr
  split
  · rfl
  · exact modifyAt_modifyAt _ _ _ _

/-- An address that is not configured, or absent while it is OUT_OF_SERVICE, leaves the map. -/
theorem compare_kept {s : State} {a : Nat} {v : SurveyEntry}
    (h : ∀ e, s.chain.entry a = some e → e.configured = false ∨ e.state = .outOfService ∧ v.present = false) :
    s.compare a v = s := by
  unfold State.compare
  split
  · rfl
  · rename_i e he
    rcases h e he with hc | ⟨hs, hv⟩
    · simp [hc]
    · simp [hs, hv]

theorem compare_outOfService {s : State} {a : Nat} {v : SurveyEntry} {e : ModuleEntry} (he : s.chain.entry a = some e)
    (hc : e.configured = true) (hs : e.state = .outOfService) (hv : v.present = true) :
    s.compare a v
      = s.editModule a fun e => { e with delay := v.delay, delayClamped := v.delayClamped, version := v.version } := by
  simp [State.compare, he, hc, hs, hv]

theorem compare_absent {s : State} {a : Nat} {v : SurveyEntry} {e : ModuleEntry} (he : s.chain.entry a = some e)
    (hc : e.configured = true) (hs : e.state ≠ .outOfService) (hv : v.present = false) :
    s.compare a v = raiseFault e (some .absent) (s.editModule a fun e => { e with state := .faulted, cause := some .absent }) := by
  simp [State.compare, he, hc, hs, hv]

theorem compare_matching {s : State} {a : Nat} {v : SurveyEntry} {e : ModuleEntry} (he : s.chain.entry a = some e)
    (hc : e.configured = true) (hs : e.state ≠ .outOfService) (hv : v.present = true)
    (hm : v.cells = e.cells ∧ v.sensors = e.sensors) :
    s.compare a v = s.editModule a fun e => { e with
      delay := v.delay
      delayClamped := v.delayClamped
      version := v.version
      state := .inService
      miss := 0
      cause := none } := by
  simp [State.compare, he, hc, hs, hv, hm, State.editModule]

theorem compare_mismatch {s : State} {a : Nat} {v : SurveyEntry} {e : ModuleEntry} (he : s.chain.entry a = some e)
    (hc : e.configured = true) (hs : e.state ≠ .outOfService) (hv : v.present = true)
    (hm : ¬(v.cells = e.cells ∧ v.sensors = e.sensors)) :
    s.compare a v = raiseFault e (some .mapMismatch) (s.editModule a fun e => { e with
      delay := v.delay
      delayClamped := v.delayClamped
      version := v.version
      state := .faulted
      cause := some .mapMismatch }) := by
  unfold State.compare
  simp only [he, hc, hs, hv, hm, State.editModule, Bool.not_true, Bool.false_eq_true, if_false, modifyAddr_modifyAddr]

/-- MODULE_FAULT for a module that is FAULTED with the cause already is not raised again. -/
theorem raiseFault_same {e : ModuleEntry} {c : FaultCause} (hf : e.state = .faulted) (hc : e.cause = some c) (s : State) :
    raiseFault e (some c) s = s := by
  simp [raiseFault, hf, hc]

theorem raiseFault_new {e : ModuleEntry} {c : FaultCause} (h : e.state ≠ .faulted ∨ e.cause ≠ some c) (s : State) :
    raiseFault e (some c) s = s.raise .moduleFault := by
  unfold raiseFault
  rw [if_neg]
  rcases h with h | h <;> simp [h]

@[simp] theorem raiseFault_chain (e : ModuleEntry) (c : Option FaultCause) (s : State) : (raiseFault e c s).chain = s.chain := by
  simp

/-! ### The survey goes on -/

/-- An address's survey entry is written, in the table and in the memory (R11). -/
def State.surveyed (s : State) (a : Nat) (v : SurveyEntry) : State :=
  State.put { s with chain.survey := modifyAddr s.chain.survey a fun _ => v } (surveyAt a) (surveyBytes v)

theorem settleAddr_next {s : State} {a : Nat} (ha : a < 24) (v : SurveyEntry) :
    s.settleAddr a v = State.beginExchange { (s.surveyed a v).compare a v with chain.hold := some (.survey (a + 1) false) }
      .echo (a + 1) [] := by
  simp only [State.settleAddr, ha, if_true]
  rfl

theorem settleAddr_last (s : State) (v : SurveyEntry) : s.settleAddr 24 v = ((s.surveyed 24 v).compare 24 v).endSurvey := rfl

/-- While a survey goes on, what waits waits. -/
theorem settleAddr_next_restful {s : State} {a b : Nat} {second : Bool} (h : s.restful) (hh : s.chain.hold = some (.survey b second))
    (ha : a < 24) (v : SurveyEntry) : (s.settleAddr a v).restful := by
  rw [settleAddr_next ha]
  refine ⟨resting_of_same h.1 (by simp [State.surveyed]) (by simp [State.surveyed]) (by simp [State.surveyed])
    (by simp [State.surveyed]) (by simp [State.surveyed]) (by simp [State.surveyed]) (by simp [State.surveyed])
    (by simp [State.surveyed]), ?_⟩
  simpa [State.surveyed, Chain.occupied, Chain.down, hh] using h.2

/-- A survey's address leaves every block but the chain controller, the attention unit and the events. -/
theorem settleAddr_around {s t : State} {a : Nat} {v : SurveyEntry} (h : s.sameAround t) : s.sameAround (t.settleAddr a v) := by
  simpa [State.sameAround] using h

theorem settleAddr_contactors {s t : State} {a : Nat} {v : SurveyEntry} (h : s.sameContactors t) :
    s.sameContactors (t.settleAddr a v) := by
  simpa [State.sameContactors, Sup.coils] using h

theorem surveyFails_react {c : Instr} {s : State} {f : Frame} {sent us : Us} {a : Nat} {second : Bool}
    (hl : s.chain.line = .window f sent) (hk : f.kind = .echo) (hh : s.chain.hold = some (.survey a second))
    (hf : answerFails s f sent us c) :
    exec c s = s.react (State.surveyFailed { s with conv.us := us } a second) := by
  rw [answerFails_react hl hf (by simp [hk])]
  simp only [State.answerFailed, hh]

end Sys2Proof.Machine

namespace Sys2Proof.Machine

/-! ### The end of the survey (R8, R13, R14) -/

/-- The comparison of the survey with the map finds a configured module, and every configured one present and matching. -/
def Chain.matched (c : Chain) : Bool := c.map.any (·.configured) && (c.survey.zip c.map).all matchesMap

/-- The counts of a survey that has ended, with its hold. -/
def State.counted (s : State) : State := State.showSurveyHeader { s with
  chain.present := (s.chain.survey.filter (·.present)).length
  chain.configured := (s.chain.map.filter (·.configured)).length
  chain.breakLoc := breakOf 1 (s.chain.survey.zip s.chain.map)
  chain.hold := none
  chain.line := .idle }

/-- The chain enters UP, and comes up if the survey began in DOWN (R8). -/
def State.cameUp (s : State) : State :=
  if s.chain.origin = .down then
    (s.enterUp.raise .chainState).sendStill .chainUp 0 (.chainUp (s.chain.survey.filter (·.present)).length)
  else s.enterUp

/-- The first survey since a reset to end in UP asks for the balancing stop (R24). -/
def State.firstStop (s : State) : State := if s.chain.firstUp then s else State.askStop { s with chain.firstUp := true }

/-- The chain is found down: a survey that began in DOWN leaves it so (R8). -/
def State.foundDown (s : State) : State :=
  if s.chain.origin = .down then { s with chain.state := .down, chain.surveyTimer := some s.now }
  else s.becomeDown (some s.chain.origin) (breakOf 1 (s.chain.survey.zip s.chain.map))

/-- The SURVEY slip in flight completes with what the survey has found (R14). -/
def State.slipSurveyed (s : State) : State :=
  match s.chain.surveySlip with
  | none => s
  | some k => State.complete { s with chain.surveySlip := none } k
      (.okWith [byte s.chain.present, byte s.chain.configured, byte s.chain.breakLoc, byte s.chain.state.code])

theorem endSurvey_up {s : State} (h : s.chain.matched = true) :
    s.endSurvey = (s.counted.cameUp.firstStop.raise .surveyDone).slipSurveyed := by
  unfold Chain.matched at h
  simp only [State.endSurvey, h, if_true]
  rfl

theorem endSurvey_down {s : State} (h : s.chain.matched = false) :
    s.endSurvey = (s.counted.foundDown.raise .surveyDone).slipSurveyed := by
  unfold Chain.matched at h
  simp only [State.endSurvey, h, Bool.false_eq_true, if_false]
  rfl

/-- The slip's completion changes the slip that the chain controller records, the port, the attention unit and the memory. -/
theorem slipSurveyed_eq (s : State) : s.slipSurveyed = { s with
    chain.surveySlip := none
    port := s.slipSurveyed.port
    attn := s.slipSurveyed.attn
    mem := s.slipSurveyed.mem } := by
  unfold State.slipSurveyed
  split
  · rename_i h
    rw [← h]
  · exact complete_eq _ _ _

@[simp] theorem slipSurveyed_frame (s : State) :
    s.slipSurveyed.chain = { s.chain with surveySlip := none } ∧ s.slipSurveyed.ev = s.ev ∧ s.slipSurveyed.power = s.power
      ∧ s.slipSurveyed.plan = s.plan ∧ s.slipSurveyed.upd = s.upd ∧ s.slipSurveyed.sup = s.sup := by
  rw [slipSurveyed_eq]
  simp

theorem slipSurveyed_pending {s : State} {f : Factor} (h : s.attn.pending f = true) : s.slipSurveyed.attn.pending f = true := by
  unfold State.slipSurveyed
  split
  · exact h
  · exact complete_pending (by exact h) _ _

/-- A pending factor stays so when others are raised. -/
theorem raise_pending_of {s : State} {f : Factor} (h : s.attn.pending f = true) (g : Factor) :
    (s.raise g).attn.pending f = true := by
  rw [raise_pending, h, Bool.or_true]

@[simp] theorem counted_frame (s : State) : s.counted.chain = { s.chain with
      present := (s.chain.survey.filter (·.present)).length
      configured := (s.chain.map.filter (·.configured)).length
      breakLoc := breakOf 1 (s.chain.survey.zip s.chain.map)
      hold := none
      line := .idle } ∧ s.counted.ev = s.ev ∧ s.counted.power = s.power ∧ s.counted.plan = s.plan
    ∧ s.counted.upd = s.upd ∧ s.counted.sup = s.sup ∧ s.counted.attn = s.attn ∧ s.counted.port = s.port
    ∧ s.counted.conv = s.conv :=
  ⟨rfl, rfl, rfl, rfl, rfl, rfl, rfl, rfl, rfl⟩

/-- The chain that has come up is as it was but for its state and its error window. -/
@[simp] theorem cameUp_frame (s : State) : s.cameUp.chain = { s.chain with state := .up, errs := [] }
    ∧ s.cameUp.power = s.power ∧ s.cameUp.plan = s.plan ∧ s.cameUp.upd = s.upd ∧ s.cameUp.sup = s.sup
    ∧ s.cameUp.port = s.port ∧ s.cameUp.conv = s.conv := by
  unfold State.cameUp
  split <;> simp

/-- The chain that has been found down. -/
@[simp] theorem foundDown_frame (s : State) : s.foundDown.chain.state = .down ∧ s.foundDown.chain.surveyTimer = some s.now
    ∧ s.foundDown.chain.hold = s.chain.hold ∧ s.foundDown.chain.line = s.chain.line
    ∧ s.foundDown.chain.present = s.chain.present ∧ s.foundDown.chain.configured = s.chain.configured
    ∧ s.foundDown.chain.breakLoc = s.chain.breakLoc ∧ s.foundDown.chain.firstUp = s.chain.firstUp
    ∧ s.foundDown.chain.surveySlip = s.chain.surveySlip ∧ s.foundDown.chain.survey = s.chain.survey
    ∧ s.foundDown.chain.map = s.chain.map ∧ s.foundDown.chain.requests = s.chain.requests
    ∧ s.foundDown.power = s.power
    ∧ s.foundDown.plan = s.plan ∧ s.foundDown.upd = s.upd ∧ s.foundDown.sup = s.sup ∧ s.foundDown.port = s.port := by
  unfold State.foundDown
  split
  · simp
  · rw [becomeDown_eq]
    simp

end Sys2Proof.Machine

namespace Sys2Proof.Machine

/-- The chain once the first stop has been asked for. -/
@[simp] theorem firstStop_frame (s : State) :
    s.firstStop.chain.state = s.chain.state ∧ s.firstStop.chain.hold = s.chain.hold ∧ s.firstStop.chain.line = s.chain.line
      ∧ s.firstStop.chain.present = s.chain.present ∧ s.firstStop.chain.configured = s.chain.configured
      ∧ s.firstStop.chain.breakLoc = s.chain.breakLoc ∧ s.firstStop.chain.errs = s.chain.errs
      ∧ s.firstStop.chain.surveySlip = s.chain.surveySlip ∧ s.firstStop.chain.survey = s.chain.survey
      ∧ s.firstStop.chain.map = s.chain.map ∧ s.firstStop.chain.sleepCmd = s.chain.sleepCmd
      ∧ s.firstStop.chain.wake = s.chain.wake ∧ s.firstStop.chain.exTag = s.chain.exTag
      ∧ s.firstStop.ev = s.ev ∧ s.firstStop.power = s.power ∧ s.firstStop.plan = s.plan ∧ s.firstStop.upd = s.upd := by
  unfold State.firstStop
  split <;> simp

theorem firstStop_done {s : State} (h : s.chain.firstUp = true) : s.firstStop = s := by
  simp [State.firstStop, h]

/-- Whatever the survey found, its hold has ended and its counts are recorded (R13). -/
theorem endSurvey_counts (s : State) :
    s.endSurvey.chain.hold = none ∧ s.endSurvey.chain.line = .idle
      ∧ s.endSurvey.chain.present = (s.chain.survey.filter (·.present)).length
      ∧ s.endSurvey.chain.configured = (s.chain.map.filter (·.configured)).length
      ∧ s.endSurvey.chain.breakLoc = breakOf 1 (s.chain.survey.zip s.chain.map)
      ∧ s.endSurvey.attn.pending .surveyDone = true := by
  cases h : s.chain.matched with
  | true =>
    rw [endSurvey_up h]
    refine ⟨by simp, by simp, by simp, by simp, by simp, slipSurveyed_pending (raise_pending_self _ _)⟩
  | false =>
    rw [endSurvey_down h]
    refine ⟨by simp, by simp, by simp, by simp, by simp, slipSurveyed_pending (raise_pending_self _ _)⟩

/-- The chain is in UP where the map is matched, and otherwise in DOWN (R13). -/
theorem endSurvey_state (s : State) : s.endSurvey.chain.state = if s.chain.matched then .up else .down := by
  cases h : s.chain.matched with
  | true => rw [endSurvey_up h]; simp
  | false => rw [endSurvey_down h]; simp

theorem endSurvey_state_ne_asleep (s : State) : s.endSurvey.chain.state ≠ .asleep := by
  rw [endSurvey_state]
  split <;> simp

/-- No stop is asked for where one was at an earlier survey, or where the chain is not up. -/
theorem endSurvey_requests {s : State} (h : s.chain.firstUp = true ∨ s.chain.matched = false) :
    s.endSurvey.chain.requests = s.chain.requests := by
  cases hm : s.chain.matched with
  | true =>
    rw [endSurvey_up hm, firstStop_done (by simpa using h.resolve_right (by simp [hm]))]
    simp
  | false => rw [endSurvey_down hm]; simp

/-- The end of a survey leaves a part at rest that was. -/
theorem endSurvey_resting {s : State} (h : s.resting) : s.endSurvey.resting :=
  resting_of_chain h (endSurvey_state_ne_asleep s) (by simp)

/-- Settles O36. -/
theorem surveyEchoFails : Obligations.SurveyEchoFails := by
  unfold Obligations.SurveyEchoFails
  intro c us sent a second f s hw hsh hcalm hrest hl hk hh hf
  have hex := surveyFails_react hl hk hh hf
  refine ⟨fun h2 => ?_, fun e h2 h1 ha he hc hs => ?_, fun h2 ha hq hup => ?_, fun h2 h1 ha hno => ?_⟩
  · subst h2
    refine next_react hex ⟨resting_of_same hrest.1 rfl rfl rfl rfl rfl rfl rfl rfl, ?_⟩ (calm_of_same hcalm rfl rfl rfl rfl)
      (by simp [State.shownAlike, chainBytes])
    simpa [State.surveyFailed, Chain.occupied, Chain.down, hh] using hrest.2
  all_goals
    subst h2
    simp only [State.surveyFailed, if_true] at hex
  · refine goes_react _ hex ?_
    rw [settle_restful (settleAddr_next_restful (s := { s with conv.us := us }) hrest hh ha absentEntry)]
    have hn := settleAddr_next (s := { s with conv.us := us }) ha absentEntry
    rw [compare_absent (s := State.surveyed { s with conv.us := us } a absentEntry) he hc hs rfl] at hn
    refine ⟨by rw [hn]; simp [State.surveyed], by rw [hn]; simp [State.surveyed, State.editModule], ?_, ?_, by rw [hn]; simp, ?_, ?_, ?_, ?_⟩
    · intro hnew
      rw [hn, raiseFault_new hnew]
      simp
    · intro hf hab
      rw [hn, raiseFault_same hf hab]
      simp [State.surveyed, State.editModule]
    · rw [hn]; simp [State.surveyed, State.editModule]
    · rw [hn]; simp [State.surveyed, State.editModule]
    · exact sameAround_finish (settleAddr_around (sameAround_self s))
    · exact sameContactors_finish (settleAddr_contactors (sameContactors_self s))
  · subst ha
    refine goes_react _ hex ?_
    have hreq : (State.settleAddr { s with conv.us := us } 24 absentEntry).chain.requests = [] := by
      rw [settleAddr_last, endSurvey_requests (.inl (by simpa [State.surveyed] using hup))]
      simpa [State.surveyed] using hq
    have hr : (State.settleAddr { s with conv.us := us } 24 absentEntry).restful := by
      refine ⟨?_, .inl hreq⟩
      rw [settleAddr_last]
      refine endSurvey_resting (resting_of_same hrest.1 ?_ ?_ ?_ ?_ ?_ ?_ ?_ ?_) <;> simp [State.surveyed]
    rw [settle_restful hr]
    obtain ⟨hhold, hline, hpres, -, -, hpend⟩ :=
      endSurvey_counts ((State.surveyed { s with conv.us := us } 24 absentEntry).compare 24 absentEntry)
    rw [← settleAddr_last] at hhold hline hpres hpend
    refine ⟨?_, by simpa using hpend, by simpa using hhold, by simpa using hline, ?_, ?_, ?_⟩
    · rw [settleAddr_last]; simp [State.surveyed]
    · simp only [finish_frame, hpres]
      rw [settleAddr_last]
      simp
    · exact sameAround_finish (settleAddr_around (sameAround_self s))
    · exact sameContactors_finish (settleAddr_contactors (sameContactors_self s))
  · have hn : State.settleAddr { s with conv.us := us } a absentEntry = { s with
        conv.us := us
        chain.survey := modifyAddr s.chain.survey a fun _ => absentEntry
        chain.hold := some (.survey (a + 1) false)
        chain.line := .sending ⟨.echo, a + 1, s.chain.exTag, []⟩
        chain.exTag := cycle 255 s.chain.exTag
        mem := s.mem.store (surveyAt a) (surveyBytes absentEntry) } := by
      rw [settleAddr_next ha, compare_kept (s := State.surveyed { s with conv.us := us } a absentEntry) fun e he => (hno e he).imp_right fun h => ⟨h, rfl⟩]
      rfl
    have hr := settleAddr_next_restful (s := { s with conv.us := us }) hrest hh ha absentEntry
    rw [hn] at hex hr
    refine goes_shown_react _ hex hr (calm_of_same hcalm rfl rfl rfl rfl) id ⟨rfl, ?_⟩
    have hst : s.sameBut { s with mem := s.mem.store (surveyAt a) (surveyBytes absentEntry) }
        [(surveyAt a, surveyAt a + 16)] := fun x hx => read_store_of_out hw (by simpa using hx)
    exact sameOutside_of_sameBut (sameBut_mirror (store_wf hw) hst (by simp [State.mirrors, chainBytes]))

end Sys2Proof.Machine

namespace Sys2Proof.Machine

/-! ### Completions in a port of eight slots -/

/-- No slip is in flight beyond the port's slots. -/
theorem complete_beyond {s : State} {k : Nat} (hl : s.port.slots.length = 8) (hk : 7 < k) (r : Result) : s.complete k r = s := by
  have hn : getAt s.port.slots k = none := by
    rcases h : getAt s.port.slots k with _ | x
    · rfl
    · have := (getAt_isSome (l := s.port.slots) (k := k)).1 (by simp [h])
      omega
  simp only [State.complete, hn]

/-- A completion writes the slip area and the factor word alone. -/
theorem read_complete_area {s : State} {k : Nat} (hw : s.mem.wf = true) (hl : s.port.slots.length = 8) (r : Result) {a : Nat}
    (ha : 0x400 ≤ a) : Memory.read (s.complete k r).mem a = Memory.read s.mem a := by
  rcases Nat.lt_or_ge 7 k with hk | hk
  · rw [complete_beyond hl hk]
  · exact read_complete_of_out hw r (by omega) (by simp only [slotAt]; omega)

@[simp] theorem complete_slots_length (s : State) (k : Nat) (r : Result) :
    (s.complete k r).port.slots.length = s.port.slots.length := by
  unfold State.complete
  split <;> simp

theorem complete_getAt_other {s : State} {j k : Nat} (h : k ≠ j) (r : Result) :
    getAt (s.complete j r).port.slots k = getAt s.port.slots k := by
  unfold State.complete
  split
  · simp [getAt_setAt, h]
  · rfl

/-- Another slot's completion leaves a slip in flight. -/
theorem inFlight_complete {s : State} {j k : Nat} (h : s.inFlight k) (hne : k ≠ j) (r : Result) : (s.complete j r).inFlight k := by
  unfold State.inFlight at *
  rwa [complete_getAt_other hne]

/-! ### The balancing stop is asked for (R24) -/

theorem request_mem (s : State) (r : Req) : r ∈ (s.request r).chain.requests := by
  unfold State.request
  split
  · rename_i h; simpa using h
  · simp

theorem request_new {s : State} {r : Req} (h : s.chain.requests.contains r = false) :
    s.request r = { s with chain.requests := s.chain.requests ++ [r] } := by
  unfold State.request
  rw [h, if_neg Bool.false_ne_true]

theorem askStop_no_balance {s : State} (h : s.chain.balance = none) : s.askStop = s.request .stop := by
  simp [State.askStop, h]

theorem askStop_config {s : State} {b : Balance} (h : s.chain.balance = some b) (hh : s.chain.hold = some .config) :
    s.askStop = { s.request .stop with chain.balance := some { b with ending := true } } := by
  simp [State.askStop, h, hh]

theorem askStop_balance {s : State} {b : Balance} (h : s.chain.balance = some b) (hh : s.chain.hold ≠ some .config) :
    s.askStop = (s.request .stop).endBalance b .aborted none := by
  simp [State.askStop, h, hh]

theorem askStop_mem (s : State) : .stop ∈ s.askStop.chain.requests := by
  have hr := request_mem s .stop
  rcases hb : s.chain.balance with _ | b
  · rwa [askStop_no_balance hb]
  · by_cases hh : s.chain.hold = some .config
    · rwa [askStop_config hb hh]
    · rw [askStop_balance hb hh]
      simpa [State.endBalance] using hr

/-- The stop is the only request where none waited. -/
theorem askStop_only {s : State} (hq : s.chain.requests = []) : s.askStop.chain.requests = [.stop] := by
  have hr : (s.request .stop).chain.requests = [.stop] := by simp [State.request, hq]
  rcases hb : s.chain.balance with _ | b
  · rwa [askStop_no_balance hb]
  · by_cases hh : s.chain.hold = some .config
    · rwa [askStop_config hb hh]
    · rw [askStop_balance hb hh]
      simp [State.endBalance, hr]

/-- A BALANCE slip without an exchange in progress is ABORTED at once. -/
theorem askStop_aborts {s : State} {b : Balance} (h : s.chain.balance = some b) (hh : s.chain.hold ≠ some .config) :
    s.askStop.chain.balance = none ∧ (s.mem.wf = true → s.inFlight b.slot → s.askStop.showsDone b.slot 5 0) := by
  rw [askStop_balance h hh]
  refine ⟨by simp [State.endBalance], fun hw hf => ?_⟩
  refine complete_showsDone (r := ⟨.aborted, none, b.fields⟩) ?_ ?_
  · simpa using hw
  · simpa [State.inFlight] using hf

theorem askStop_balance_none {s : State} (hh : s.chain.hold ≠ some .config) : s.askStop.chain.balance = none := by
  rcases hb : s.chain.balance with _ | b
  · rw [askStop_no_balance hb]
    simpa using hb
  · exact (askStop_aborts hb hh).1

theorem askStop_pending {s : State} {f : Factor} (h : s.attn.pending f = true) : s.askStop.attn.pending f = true := by
  rcases hb : s.chain.balance with _ | b
  · rw [askStop_no_balance hb]
    simpa using h
  · by_cases hh : s.chain.hold = some .config
    · rw [askStop_config hb hh]
      simpa using h
    · rw [askStop_balance hb hh]
      exact complete_pending (by simpa using h) _ _

@[simp] theorem askStop_slots_length (s : State) : s.askStop.port.slots.length = s.port.slots.length := by
  rcases hb : s.chain.balance with _ | b
  · rw [askStop_no_balance hb]
    simp
  · by_cases hh : s.chain.hold = some .config
    · rw [askStop_config hb hh]
      simp
    · rw [askStop_balance hb hh]
      simp [State.endBalance]

theorem read_askStop_area {s : State} (hw : s.mem.wf = true) (hl : s.port.slots.length = 8) {a : Nat} (ha : 0x400 ≤ a) :
    Memory.read s.askStop.mem a = Memory.read s.mem a := by
  rcases hb : s.chain.balance with _ | b
  · rw [askStop_no_balance hb]
    simp
  · by_cases hh : s.chain.hold = some .config
    · rw [askStop_config hb hh]
      simp
    · rw [askStop_balance hb hh, State.endBalance]
      rw [read_complete_area (by simpa using hw) (by simpa using hl) _ ha]
      simp

/-- The stop leaves a slip in flight that is not the BALANCE's. -/
theorem inFlight_askStop {s : State} {k : Nat} (h : s.inFlight k) (hb : ∀ b, s.chain.balance = some b → b.slot ≠ k) :
    s.askStop.inFlight k := by
  rcases hb' : s.chain.balance with _ | b
  · rw [askStop_no_balance hb']
    simpa [State.inFlight] using h
  · by_cases hh : s.chain.hold = some .config
    · rw [askStop_config hb' hh]
      simpa [State.inFlight] using h
    · rw [askStop_balance hb' hh]
      exact inFlight_complete (by simpa [State.inFlight] using h) (Ne.symm (hb b hb')) _

/-! ### The balancing stop is sent -/

/-- The balancing stop holds the chain and is being sent. -/
def State.stopSent (s : State) : State := { s with
  chain.requests := []
  chain.hold := some .stop
  chain.line := .sending ⟨.config, 31, s.chain.exTag, [0, 0, 0, 0]⟩
  chain.exTag := cycle 255 s.chain.exTag }

/-- A stop that waits alone is sent by a free chain, and waits on another. -/
theorem settle_stop {s : State} (h : s.resting) (hq : s.chain.requests = [.stop]) (hna : s.chain.state ≠ .asleep) :
    s.settle = if s.chain.free then s.stopSent else s := by
  have ha : s.answerRequests = s := by
    unfold State.answerRequests
    split
    · simp [hq, State.answerDown, hna]
    · rfl
  split
  · rename_i hf
    have hg : s.arbiterGrant = s.grant .stop := arbiterGrant_only hf hq (by simp) (by simp [Chain.grantable, hq])
    have hnone : s.chain.requests.filter (· ≠ .stop) = [] := by simp [hq]
    have he : s.grant .stop = s.stopSent := by
      simp only [State.grant, State.beginExchange, State.dropRequest, hnone]
      rfl
    rw [settle_granted h ha ?_, hg, he]
    rw [hg, he]
    exact ⟨resting_of_same h rfl rfl rfl rfl rfl rfl rfl rfl, .inl rfl⟩
  · rename_i hf
    have hg : s.arbiterGrant = s := by simp only [State.arbiterGrant, if_neg hf]
    have hround : s.round = s := by rw [round_still (still_of_resting h) ha, hg]
    unfold State.settle
    rw [hround, hround, hround, hround]

end Sys2Proof.Machine

namespace Sys2Proof.Machine

/-! ### What the end of the survey shows -/

theorem firstStop_first {s : State} (h : s.chain.firstUp = false) : s.firstStop = State.askStop { s with chain.firstUp := true } := by
  simp [State.firstStop, h]

theorem firstStop_pending {s : State} {f : Factor} (h : s.attn.pending f = true) : s.firstStop.attn.pending f = true := by
  unfold State.firstStop
  split
  · exact h
  · exact askStop_pending (by exact h)

@[simp] theorem firstStop_firstUp (s : State) : s.firstStop.chain.firstUp = true := by
  unfold State.firstStop
  split
  · assumption
  · simp

/-- What the outcome of a survey leaves, before SURVEY_DONE and its slip. -/
def State.compared (s : State) : State := if s.chain.matched then s.counted.cameUp.firstStop else s.counted.foundDown

theorem endSurvey_eq (s : State) : s.endSurvey = (s.compared.raise .surveyDone).slipSurveyed := by
  cases h : s.chain.matched with
  | true => simp only [State.compared, h, if_true, endSurvey_up h]
  | false => simp only [State.compared, h, Bool.false_eq_true, if_false, endSurvey_down h]

theorem compared_pending {s : State} {f : Factor} (h : s.attn.pending f = true) : s.compared.attn.pending f = true := by
  unfold State.compared
  split
  · refine firstStop_pending ?_
    unfold State.cameUp
    split
    · simpa using raise_pending_of (s := s.counted.enterUp) (by simpa using h) .chainState
    · simpa using h
  · unfold State.foundDown
    split
    · exact h
    · rw [becomeDown_eq]
      exact raise_pending_of (s := s.counted) h .chainState

theorem endSurvey_pending {s : State} {f : Factor} (h : s.attn.pending f = true) : s.endSurvey.attn.pending f = true := by
  rw [endSurvey_eq]
  exact slipSurveyed_pending (raise_pending_of (compared_pending h) _)

@[simp] theorem compared_slots_length (s : State) : s.compared.port.slots.length = s.port.slots.length := by
  unfold State.compared
  split
  · unfold State.firstStop
    split <;> simp
  · simp

theorem cameUp_wf {s : State} (hw : s.mem.wf = true) : s.cameUp.mem.wf = true := by
  unfold State.cameUp
  split <;> simp [hw]

theorem compared_wf {s : State} (hw : s.mem.wf = true) : s.compared.mem.wf = true := by
  have hc : s.counted.mem.wf = true := by simp [State.counted, hw]
  unfold State.compared
  split
  · unfold State.firstStop
    split
    · exact cameUp_wf hc
    · exact askStop_wf _ (cameUp_wf hc)
  · unfold State.foundDown
    split <;> simp [hc]

/-- Beyond the slip area the comparison writes the header of the survey table alone. -/
theorem read_compared {s : State} (hw : s.mem.wf = true) (hl : s.port.slots.length = 8) {a : Nat} (ha : 0x400 ≤ a) :
    Memory.read s.compared.mem a = Memory.read s.counted.mem a := by
  have hc : s.counted.mem.wf = true := by simp [State.counted, hw]
  have hcame : Memory.read s.counted.cameUp.mem a = Memory.read s.counted.mem a := by
    unfold State.cameUp
    split
    · exact read_raise_of_out (s := s.counted.enterUp) hc _ (by omega)
    · rfl
  unfold State.compared
  split
  · rw [← hcame]
    unfold State.firstStop
    split
    · rfl
    · exact read_askStop_area (s := { s.counted.cameUp with chain.firstUp := true }) (cameUp_wf hc) (by simpa using hl) ha
  · unfold State.foundDown
    split
    · rfl
    · rw [becomeDown_eq]
      exact read_raise_of_out (s := s.counted) hc _ (by omega)

theorem read_slipSurveyed {s : State} (hw : s.mem.wf = true) (hl : s.port.slots.length = 8) {a : Nat} (ha : 0x400 ≤ a) :
    Memory.read s.slipSurveyed.mem a = Memory.read s.mem a := by
  unfold State.slipSurveyed
  split
  · rfl
  · exact read_complete_area (s := { s with chain.surveySlip := none }) hw hl _ ha

/-- The header of the survey table shows the counts (R13); the rest of it stands. -/
theorem read_endSurvey {s : State} (hw : s.mem.wf = true) (hl : s.port.slots.length = 8) {a : Nat} (ha : 0x400 ≤ a) :
    Memory.read s.endSurvey.mem a = Memory.read (s.mem.store 0x1000
      [byte s.endSurvey.chain.present, byte s.endSurvey.chain.configured, byte s.endSurvey.chain.breakLoc, 0]) a := by
  obtain ⟨-, -, hp, hc, hb, -⟩ := endSurvey_counts s
  rw [hp, hc, hb, endSurvey_eq, read_slipSurveyed (raise_wf _ _ (compared_wf hw)) (by simpa using hl) ha,
    read_raise_of_out (compared_wf hw) _ (by omega), read_compared hw hl ha]
  rfl

/-! ### A survey that ends in UP -/

theorem endSurvey_errs {s : State} (h : s.chain.matched = true) :
    s.endSurvey.chain.errs = [] ∧ s.endSurvey.chain.firstUp = true := by
  rw [endSurvey_up h]
  simp

/-- The chain comes up from DOWN with CHAIN_STATE and a CHAIN_UP event (R8). -/
theorem endSurvey_came_up {s : State} (h : s.chain.matched = true) (ho : s.chain.origin = .down) :
    s.endSurvey.attn.pending .chainState = true ∧ ∃ e, s.endSurvey.ev.inbox = s.ev.inbox ++ [e] ∧ e.kind = .chainUp
      ∧ e.detail = .chainUp s.endSurvey.chain.present := by
  obtain ⟨-, -, hp, -⟩ := endSurvey_counts s
  rw [hp, endSurvey_up h]
  have hup : s.counted.cameUp = (s.counted.enterUp.raise .chainState).sendStill .chainUp 0
      (.chainUp (s.chain.survey.filter (·.present)).length) := by
    simp [State.cameUp, ho]
  refine ⟨slipSurveyed_pending (raise_pending_of (firstStop_pending ?_) _), ?_⟩
  · rw [hup]; simp
  · refine ⟨⟨.chainUp, 0, s.sup.coils, s.sup.coils, .chainUp (s.chain.survey.filter (·.present)).length, [], none, false,
      (lastOf s.ev.inbox).any (·.fresh), true⟩, ?_, rfl, rfl⟩
    simp only [slipSurveyed_frame, raise_frame, firstStop_frame, hup, State.sendStill, State.send_ev]
    rfl

/-- A survey that did not begin in DOWN and ends in UP sends nothing. -/
theorem endSurvey_stays_up {s : State} (h : s.chain.matched = true) (ho : s.chain.origin ≠ .down) :
    s.endSurvey.ev.inbox = s.ev.inbox := by
  rw [endSurvey_up h]
  simp [State.cameUp, ho]

/-- The first survey since a reset to end in UP asks for the stop, and ends a BALANCE slip (R24). -/
theorem endSurvey_first {s : State} (h : s.chain.matched = true) (hf : s.chain.firstUp = false) (hq : s.chain.requests = []) :
    s.endSurvey.chain.requests = [.stop] ∧ s.endSurvey.chain.balance = none := by
  rw [endSurvey_up h, firstStop_first (by simpa using hf)]
  simp only [slipSurveyed_frame, raise_frame]
  exact ⟨askStop_only (by simpa using hq), askStop_balance_none (by simp)⟩

theorem compared_first_aborts {s : State} {b : Balance} (h : s.chain.matched = true) (hf : s.chain.firstUp = false)
    (hb : s.chain.balance = some b) (hw : s.mem.wf = true) (hi : s.inFlight b.slot) : s.compared.showsDone b.slot 5 0 := by
  have hc : s.counted.mem.wf = true := by simp [State.counted, hw]
  simp only [State.compared, h, if_true]
  rw [firstStop_first (by simpa using hf)]
  refine (askStop_aborts (b := b) (by simpa using hb) (by simp)).2 ?_ ?_
  · exact cameUp_wf hc
  · simpa [State.inFlight] using hi

theorem endSurvey_first_aborts {s : State} {b : Balance} (h : s.chain.matched = true) (hf : s.chain.firstUp = false)
    (hb : s.chain.balance = some b) (hw : s.mem.wf = true) (hi : s.inFlight b.slot) :
    s.endSurvey.showsDone b.slot 5 0 := by
  have hk : b.slot ≤ 7 := hi.1
  have hd := compared_first_aborts h hf hb hw hi
  rw [endSurvey_eq]
  have hr : (s.compared.raise .surveyDone).showsDone b.slot 5 0 := by
    refine showsDone_of_same hd (fun a h1 h2 => read_raise_of_out (compared_wf hw) _ ?_) (by simp)
      fun h => raise_pending_of h _
    simp only [slotAt] at h1; omega
  unfold State.slipSurveyed
  split
  · exact hr
  · exact showsDone_complete (s := { s.compared.raise .surveyDone with chain.surveySlip := none }) hr
      (raise_wf _ _ (compared_wf hw)) hk _

/-! ### A survey that ends in DOWN -/

theorem endSurvey_timer {s : State} (h : s.chain.matched = false) :
    s.endSurvey.chain.surveyTimer = some s.now ∧ s.endSurvey.chain.firstUp = s.chain.firstUp := by
  rw [endSurvey_down h]
  simp only [slipSurveyed_frame, raise_frame, foundDown_frame]
  exact ⟨rfl, rfl⟩

theorem endSurvey_stays_down {s : State} (h : s.chain.matched = false) (ho : s.chain.origin = .down) :
    s.endSurvey.chain.downSince = s.chain.downSince ∧ s.endSurvey.ev.inbox = s.ev.inbox := by
  rw [endSurvey_down h]
  simp [State.foundDown, ho]

/-- A chain that is found down otherwise becomes down, with CHAIN_STATE and a CHAIN_DOWN event (R8). -/
theorem endSurvey_became_down {s : State} (h : s.chain.matched = false) (ho : s.chain.origin ≠ .down) :
    s.endSurvey.chain.wasDown = true ∧ s.endSurvey.chain.downSince = s.now
      ∧ s.endSurvey.attn.pending .chainState = true ∧ ∃ e, s.endSurvey.ev.inbox = s.ev.inbox ++ [e]
        ∧ e.kind = .chainDown ∧ e.detail = .chainDown .surveying (some s.chain.origin) s.endSurvey.chain.breakLoc := by
  obtain ⟨-, -, -, -, hb, -⟩ := endSurvey_counts s
  have hd : s.counted.foundDown = s.counted.becomeDown (some s.chain.origin) (breakOf 1 (s.chain.survey.zip s.chain.map)) := by
    simp [State.foundDown, ho]
  rw [hb, endSurvey_down h, hd, becomeDown_eq]
  refine ⟨by simp, by simp; rfl, slipSurveyed_pending (raise_pending_of ?_ _), _, by simp; rfl, rfl, rfl⟩
  exact raise_pending_self s.counted .chainState

/-! ### The SURVEY slip (R14) -/

theorem inFlight_compared {s : State} {k : Nat} (h : s.inFlight k)
    (hb : s.chain.firstUp = true ∨ ∀ b, s.chain.balance = some b → b.slot ≠ k) : s.compared.inFlight k := by
  unfold State.compared
  split
  · cases hf : s.chain.firstUp with
    | true =>
      rw [firstStop_done (by simpa using hf)]
      simpa [State.inFlight] using h
    | false =>
      rw [firstStop_first (by simpa using hf)]
      refine inFlight_askStop (by simpa [State.inFlight] using h) ?_
      simpa using hb.resolve_left (by simp [hf])
  · simpa [State.inFlight] using h

/-- The SURVEY slip completes with OK, the counts and the chain's state. -/
theorem endSurvey_slip {s : State} {k : Nat} (hw : s.mem.wf = true) (hs : s.chain.surveySlip = some k) (hi : s.inFlight k)
    (hb : s.chain.firstUp = true ∨ ∀ b, s.chain.balance = some b → b.slot ≠ k) :
    s.endSurvey.showsDone k 1 0 ∧ s.endSurvey.mem.readBytes (slotAt k + 52) 4
      = [byte s.endSurvey.chain.present, byte s.endSurvey.chain.configured, byte s.endSurvey.chain.breakLoc,
          byte s.endSurvey.chain.state.code] := by
  have hin := inFlight_compared hi hb
  generalize hx : s.compared.raise .surveyDone = x
  have hxw : x.mem.wf = true := hx ▸ raise_wf _ _ (compared_wf hw)
  have hxi : x.inFlight k := by
    rw [← hx]
    simpa [State.inFlight] using hin
  have hxs : x.chain.surveySlip = some k := by
    rw [← hx]
    unfold State.compared
    split <;> simp [hs]
  have he : s.endSurvey = State.complete { x with chain.surveySlip := none } k
      (.okWith [byte x.chain.present, byte x.chain.configured, byte x.chain.breakLoc, byte x.chain.state.code]) := by
    rw [endSurvey_eq, hx]
    simp only [State.slipSurveyed, hxs]
  obtain ⟨hk, c, hc⟩ := hxi
  have hshow := complete_showsDone (s := { x with chain.surveySlip := none }) hxw ⟨hk, c, hc⟩
    (.okWith [byte x.chain.present, byte x.chain.configured, byte x.chain.breakLoc, byte x.chain.state.code])
  obtain ⟨-, -, hfields⟩ := complete_readBytes (s := { x with chain.surveySlip := none }) hxw hk hc
    (.okWith [byte x.chain.present, byte x.chain.configured, byte x.chain.breakLoc, byte x.chain.state.code])
  rw [← he] at hshow hfields
  refine ⟨hshow, ?_⟩
  have hch : s.endSurvey.chain = { x.chain with surveySlip := none } := by rw [he]; simp
  rw [hch]
  simp only [Memory.readBytes, Result.okWith, fit, List.cons.injEq] at hfields ⊢
  tauto

end Sys2Proof.Machine

namespace Sys2Proof.Machine

/-! ### A good ECHO_BACK -/

theorem modifyAt_congr {α : Type} {l : List α} {k : Nat} {f g : α → α} (h : ∀ x, getAt l k = some x → f x = g x) :
    modifyAt l k f = modifyAt l k g := by
  induction l generalizing k with
  | nil => cases k <;> rfl
  | cons y l ih =>
    cases k with
    | zero => simp [modifyAt, h y rfl]
    | succ k => simp only [modifyAt, ih fun x hx => h x hx]

theorem modifyAddr_congr {α : Type} {l : List α} {a : Nat} {f g : α → α} (h : ∀ x, atAddr l a = some x → f x = g x) :
    modifyAddr l a f = modifyAddr l a g := by
  unfold modifyAddr
  split
  · rfl
  · rename_i ha
    exact modifyAt_congr fun x hx => h x (by rw [atAddr, if_neg ha, hx])

theorem modifyAddr_same {α : Type} {l : List α} {a : Nat} {f : α → α} (h : ∀ x, atAddr l a = some x → f x = x) :
    modifyAddr l a f = l := by
  unfold modifyAddr
  split
  · rfl
  · rename_i ha
    exact modifyAt_same _ _ _ fun x hx => h x (by rw [atAddr, if_neg ha, hx])

theorem echoBack_react {us sent : Us} {f : Frame} {s : State} {rt kind cells sensors : Nat} {version : Half}
    (hl : s.chain.line = .window f sent) (hk : f.kind = .echo) (ht : rt ≤ 10 * s.chain.windowOf f) :
    exec (.echoBack us f.addr rt kind cells sensors version none) s
      = s.react ((s.atUs us).echoGood f.addr (surveyEntryOf rt kind cells sensors version)) := by
  have haw := awaits_of_window hl
  rw [hk] at haw
  show execEchoBack us f.addr rt kind cells sensors version none s = _
  have hgood : answerError f f.addr none (decide (10 * s.chain.windowOf f < rt)) = false := by
    simp [answerError, ht]
  simp only [execEchoBack, haw, hgood, Bool.false_eq_true, if_false]

/-- What a module's ECHO_BACK tells the map, and the return watches, where no module is handed back and no switch window
stands. -/
def State.heard (s : State) (us : Us) (a : Nat) (version : Half) : State := { s with
  conv.us := usAfter s us
  chain.map := modifyAddr s.chain.map a fun e => if e.configured then { e with version := version } else e
  upd.watches := s.upd.watches.filter fun w => decide (w.1 ≠ a) }

/-- Without a switch window an ECHO_BACK ends the module's return watch alone (R162). -/
theorem engineEcho_no_window {s : State} (h : s.upd.window = none) (a : Nat) (version : Half) :
    s.engineEcho a version = { s with upd.watches := s.upd.watches.filter fun w => decide (w.1 ≠ a) } := by
  unfold State.engineEcho
  split
  · rename_i hw _
    exact absurd (h.symm.trans hw) (by simp)
  · rfl

theorem echoed_no_return {s : State} (h : s.chain.returning = []) (a : Nat) (version : Half) :
    s.echoed a version = s.editModule a fun e => if e.configured then { e with version := version } else e := by
  simp only [State.echoed, h, List.any_nil, Bool.false_eq_true, if_false]

theorem echoGood_survey {s : State} {us : Us} {a b : Nat} {second : Bool} {v : SurveyEntry}
    (hh : s.chain.hold = some (.survey b second)) (hr : s.chain.returning = []) (hw : s.upd.window = none) :
    (s.atUs us).echoGood a v = (s.heard us a v.version).settleAddr a v := by
  have he : ((s.atUs us).echoed a v.version).engineEcho a v.version = s.heard us a v.version := by
    rw [echoed_no_return (s := s.atUs us) hr]
    exact engineEcho_no_window (s := State.editModule (s.atUs us) a _) hw a v.version
  simp only [State.echoGood, State.atUs_chain, hh, he]

/-- The survey's comparison of a module that has answered, seen on the map as it was before its ECHO_BACK. -/
theorem heard_compare {s : State} {us : Us} {a : Nat} {v : SurveyEntry} {e : ModuleEntry} (he : s.chain.entry a = some e)
    (hv : v.present = true) :
    (e.configured = false → (((s.heard us a v.version).surveyed a v).compare a v).chain.map = s.chain.map)
    ∧ (e.configured = true → e.state = .outOfService →
      (((s.heard us a v.version).surveyed a v).compare a v).chain.map = modifyAddr s.chain.map a fun e =>
        { e with delay := v.delay, delayClamped := v.delayClamped, version := v.version })
    ∧ (e.configured = true → e.state ≠ .outOfService → v.cells = e.cells ∧ v.sensors = e.sensors →
      (((s.heard us a v.version).surveyed a v).compare a v).chain.map = modifyAddr s.chain.map a fun e =>
        { e with
          delay := v.delay
          delayClamped := v.delayClamped
          version := v.version
          state := .inService
          miss := 0
          cause := none })
    ∧ (e.configured = true → e.state ≠ .outOfService → ¬(v.cells = e.cells ∧ v.sensors = e.sensors) →
      (((s.heard us a v.version).surveyed a v).compare a v).chain.map = (modifyAddr s.chain.map a fun e =>
        { e with
          delay := v.delay
          delayClamped := v.delayClamped
          version := v.version
          state := .faulted
          cause := some .mapMismatch })
      ∧ (e.state ≠ .faulted ∨ e.cause ≠ some .mapMismatch →
        (((s.heard us a v.version).surveyed a v).compare a v).attn.pending .moduleFault = true)) := by
  have hent : ((s.heard us a v.version).surveyed a v).chain.entry a
      = some (if e.configured then { e with version := v.version } else e) := by
    have : atAddr s.chain.map a = some e := he
    simp [State.surveyed, State.heard, Chain.entry, atAddr_modifyAddr, this]
  have hmap : ((s.heard us a v.version).surveyed a v).chain.map
      = modifyAddr s.chain.map a fun e => if e.configured then { e with version := v.version } else e := rfl
  -- the version of the ECHO_BACK stands under what the survey writes
  have hover (g : ModuleEntry → ModuleEntry) (hg : ∀ x : ModuleEntry, g { x with version := v.version } = g x) :
      modifyAddr (modifyAddr s.chain.map a fun e => if e.configured then { e with version := v.version } else e) a g
        = modifyAddr s.chain.map a g := by
    rw [modifyAddr_modifyAddr]
    refine modifyAddr_congr fun x _ => ?_
    split
    · exact hg x
    · rfl
  refine ⟨fun hc => ?_, fun hc hs => ?_, fun hc hs hm => ?_, fun hc hs hm => ?_⟩ <;>
    simp only [hc, if_true, Bool.false_eq_true, if_false] at hent
  · rw [compare_kept fun x hx => .inl ?_, hmap]
    · refine modifyAddr_same fun x hx => ?_
      have : x = e := by simpa [hx, Chain.entry] using he
      simp [this, hc]
    · have : x = e := by simpa [hent] using hx.symm
      simpa [this] using hc
  · rw [compare_outOfService hent rfl hs hv]
    exact hover _ fun _ => rfl
  · rw [compare_matching hent rfl hs hv hm]
    exact hover _ fun _ => rfl
  · rw [compare_mismatch hent rfl hs hv hm]
    refine ⟨?_, fun hnew => ?_⟩
    · rw [raiseFault_chain]
      exact hover _ fun _ => rfl
    · rw [raiseFault_new (by exact hnew)]
      simp

end Sys2Proof.Machine

namespace Sys2Proof.Machine

theorem finish_inbox (o n : State) : (State.finish o n).ev.inbox = sentEvents n.ev.inbox := by
  have hm (t : State) : t.markSurge.ev.inbox = t.ev.inbox := by simp
  have hc (t : State) : t.markCaptureSurge.ev = t.ev := by simp
  have ht : (State.trackFaulted o n).ev.inbox = n.ev.inbox := by simp
  have he : (State.finish o n).ev.inbox
      = sentEvents (State.trackFaulted o n).markSurge.markCaptureSurge.ev.inbox := by
    unfold State.finish
    simp [sentEvents]
  rw [he, hc, hm, ht]

/-- One event sent in a step that began on a calm state, once the step has ended. -/
theorem sentEvents_one {s : State} {l : List SentEvent} {k : EventKind} {d : Detail} (h : s.calm)
    (hn : ∃ e, l = s.ev.inbox ++ [e] ∧ e.kind = k ∧ e.detail = d) :
    ∃ e, sentEvents l = s.ev.inbox ++ [e] ∧ e.kind = k ∧ e.detail = d := by
  obtain ⟨e, he, hk, hd⟩ := hn
  refine ⟨{ e with fresh := false }, ?_, hk, hd⟩
  rw [he, sentEvents_append, sentEvents_calm h]
  rfl

/-- The stop that a step has asked for is sent at once, or waits. -/
def State.stopIf (n : State) (b : Bool) : State := if b then n.stopSent else n

/-- A stop that is sent leaves all but the chain's requests, hold, line and exchange tag. -/
@[simp] theorem stopIf_frame (n : State) (b : Bool) :
    (n.stopIf b).chain.state = n.chain.state ∧ (n.stopIf b).chain.errs = n.chain.errs
      ∧ (n.stopIf b).chain.firstUp = n.chain.firstUp ∧ (n.stopIf b).chain.present = n.chain.present
      ∧ (n.stopIf b).chain.configured = n.chain.configured ∧ (n.stopIf b).chain.breakLoc = n.chain.breakLoc
      ∧ (n.stopIf b).chain.survey = n.chain.survey ∧ (n.stopIf b).chain.map = n.chain.map
      ∧ (n.stopIf b).chain.surveyTimer = n.chain.surveyTimer ∧ (n.stopIf b).chain.wasDown = n.chain.wasDown
      ∧ (n.stopIf b).chain.downSince = n.chain.downSince ∧ (n.stopIf b).chain.balance = n.chain.balance
      ∧ (n.stopIf b).mem = n.mem ∧ (n.stopIf b).attn = n.attn ∧ (n.stopIf b).port = n.port ∧ (n.stopIf b).ev = n.ev
      ∧ (n.stopIf b).sup = n.sup ∧ (n.stopIf b).power = n.power ∧ (n.stopIf b).upd = n.upd
      ∧ (n.stopIf b).plan = n.plan ∧ (n.stopIf b).store = n.store ∧ (n.stopIf b).conv = n.conv
      ∧ (n.stopIf b).pins = n.pins := by
  cases b <;> simp [State.stopIf, State.stopSent]

/-- After the end of a survey the stop that it asked for is sent, or waits for the chain; nothing else follows at once. -/
theorem settle_endSurvey {s : State} (h : s.resting) (hq : s.chain.requests = []) :
    ∃ b : Bool, s.endSurvey.settle = s.endSurvey.stopIf b
      ∧ (s.chain.firstUp = true ∨ s.chain.matched = false → b = false)
      ∧ (s.chain.firstUp = false → s.chain.matched = true →
        s.endSurvey.chain.requests = [.stop] ∧ b = (!s.chain.sleepCmd && decide (s.chain.wake = .none))) := by
  have hrest := endSurvey_resting h
  by_cases hno : s.chain.firstUp = true ∨ s.chain.matched = false
  · refine ⟨false, ?_, fun _ => rfl, fun hf hm => ?_⟩
    · exact settle_restful ⟨hrest, .inl ((endSurvey_requests hno).trans hq)⟩
    · rcases hno with hno | hno
      · rw [hf] at hno; exact absurd hno nofun
      · rw [hm] at hno; exact absurd hno nofun
  · obtain ⟨hf, hm⟩ : s.chain.firstUp = false ∧ s.chain.matched = true := by simpa using hno
    obtain ⟨hreq, -⟩ := endSurvey_first hm hf hq
    obtain ⟨hhold, hline, -⟩ := endSurvey_counts s
    have hup := endSurvey_state s
    have hfree : s.endSurvey.chain.free = (!s.chain.sleepCmd && decide (s.chain.wake = .none)) := by
      simp [Chain.free, hhold, hline, hup, hm]
    refine ⟨s.endSurvey.chain.free, settle_stop hrest hreq (endSurvey_state_ne_asleep s), fun h => absurd h hno,
      fun _ _ => ⟨hreq, hfree⟩⟩

end Sys2Proof.Machine

namespace Sys2Proof.Machine

/-- The first bytes of a longer run. -/
theorem readBytes_take (m : Memory) (b n k : Nat) : m.readBytes b n = (m.readBytes b (n + k)).take n := by
  induction n generalizing b with
  | zero => simp [Memory.readBytes]
  | succ n ih =>
    rw [Nat.add_right_comm]
    simp only [Memory.readBytes, List.take_succ_cons]
    rw [ih]

/-! ### The configured modules through a survey -/

theorem map_modifyAddr {α β : Type} {f : α → β} {g : α → α} (h : ∀ x, f (g x) = f x) (l : List α) (a : Nat) :
    (modifyAddr l a g).map f = l.map f := by
  have hk : ∀ k, (modifyAt l k g).map f = l.map f := by
    induction l with
    | nil => intro k; cases k <;> rfl
    | cons x l ih =>
      intro k
      cases k with
      | zero => simp [modifyAt, h]
      | succ k => simp [modifyAt, ih]
  unfold modifyAddr
  split
  · rfl
  · exact hk _

theorem configured_length {l m : List ModuleEntry} (h : l.map (·.configured) = m.map (·.configured)) :
    (l.filter (·.configured)).length = (m.filter (·.configured)).length := by
  have hc (k : List ModuleEntry) : (k.filter (·.configured)).length = (k.map (·.configured)).countP id := by
    rw [List.countP_map, ← List.countP_eq_length_filter]
    rfl
  rw [hc, hc, h]

theorem compare_configured (s : State) (a : Nat) (v : SurveyEntry) :
    (s.compare a v).chain.map.map (·.configured) = s.chain.map.map (·.configured) := by
  unfold State.compare
  (repeat' split) <;> simp [State.editModule, map_modifyAddr]

/-- The comparison of an address writes the factor word alone. -/
theorem read_compare {s : State} (hw : s.mem.wf = true) (a : Nat) (v : SurveyEntry) {x : Nat} (hx : 0x104 ≤ x) :
    Memory.read (s.compare a v).mem x = Memory.read s.mem x := by
  have hraise (e : ModuleEntry) (c : Option FaultCause) (t : State) (ht : t.mem = s.mem) :
      Memory.read (raiseFault e c t).mem x = Memory.read s.mem x := by
    unfold raiseFault
    split
    · rw [ht]
    · rw [read_raise_of_out (by rw [ht]; exact hw) _ (by omega), ht]
  unfold State.compare
  simp only []
  split
  · rfl
  · split
    · rfl
    · split
      · split
        · rfl
        · rfl
      · split
        · exact hraise _ _ _ rfl
        · split
          · rfl
          · exact hraise _ _ _ rfl

/-! ### The survey ends with a good ECHO_BACK -/

/-- The part as the last address's ECHO_BACK leaves it for the end of the survey. -/
def State.lastHeard (s : State) (us : Us) (v : SurveyEntry) : State :=
  ((s.heard us 24 v.version).surveyed 24 v).compare 24 v

theorem echoBack_last {us sent : Us} {second : Bool} {f : Frame} {s : State} {rt kind cells sensors : Nat} {version : Half}
    (hl : s.chain.line = .window f sent) (hk : f.kind = .echo) (ha : f.addr = 24)
    (hh : s.chain.hold = some (.survey 24 second)) (hr : s.chain.returning = []) (hw : s.upd.window = none) (ht : rt ≤ 7000) :
    exec (.echoBack us 24 rt kind cells sensors version none) s
      = s.react (s.lastHeard us (surveyEntryOf rt kind cells sensors version)).endSurvey := by
  have hex := echoBack_react (us := us) (kind := kind) (cells := cells) (sensors := sensors) (version := version) hl hk
    (show rt ≤ 10 * s.chain.windowOf f by simp only [Chain.windowOf, hh]; omega)
  rw [echoGood_survey hh hr hw, ha] at hex
  rw [hex, settleAddr_last]
  rfl

@[simp] theorem lastHeard_frame (s : State) (us : Us) (v : SurveyEntry) :
    (s.lastHeard us v).chain.survey = modifyAddr s.chain.survey 24 (fun _ => v)
      ∧ (s.lastHeard us v).chain.requests = s.chain.requests ∧ (s.lastHeard us v).chain.firstUp = s.chain.firstUp
      ∧ (s.lastHeard us v).chain.surveySlip = s.chain.surveySlip ∧ (s.lastHeard us v).chain.balance = s.chain.balance
      ∧ (s.lastHeard us v).chain.origin = s.chain.origin ∧ (s.lastHeard us v).chain.state = s.chain.state
      ∧ (s.lastHeard us v).chain.sleepCmd = s.chain.sleepCmd
      ∧ (s.lastHeard us v).chain.wake = s.chain.wake ∧ (s.lastHeard us v).chain.exTag = s.chain.exTag
      ∧ (s.lastHeard us v).chain.downSince = s.chain.downSince ∧ (s.lastHeard us v).ev = s.ev
      ∧ (s.lastHeard us v).port = s.port ∧ (s.lastHeard us v).power = s.power ∧ (s.lastHeard us v).plan = s.plan
      ∧ (s.lastHeard us v).upd.pause = s.upd.pause ∧ (s.lastHeard us v).upd.state = s.upd.state
      ∧ (s.lastHeard us v).conv.part = s.conv.part := by
  simp [State.lastHeard, State.surveyed, State.heard]

/-- The map after the last address's comparison. -/
theorem lastHeard_map {s : State} {us : Us} {rt kind cells sensors : Nat} {version : Half} {e : ModuleEntry} {x : State}
    (hx : x = s.lastHeard us (surveyEntryOf rt kind cells sensors version)) (he : s.chain.entry 24 = some e) :
    (e.configured = false → x.chain.map = s.chain.map)
    ∧ (e.configured = true → e.state = .outOfService → x.chain.map = modifyAddr s.chain.map 24 fun e =>
      { e with delay := (latchDelay rt).1, delayClamped := (latchDelay rt).2, version := version })
    ∧ (e.configured = true → e.state ≠ .outOfService → cells = e.cells ∧ sensors = e.sensors →
      x.chain.map = modifyAddr s.chain.map 24 fun e =>
        { e with
          delay := (latchDelay rt).1
          delayClamped := (latchDelay rt).2
          version := version
          state := .inService
          miss := 0
          cause := none })
    ∧ (e.configured = true → e.state ≠ .outOfService → ¬(cells = e.cells ∧ sensors = e.sensors) →
      (x.chain.map = modifyAddr s.chain.map 24 fun e =>
        { e with
          delay := (latchDelay rt).1
          delayClamped := (latchDelay rt).2
          version := version
          state := .faulted
          cause := some .mapMismatch })
      ∧ (e.state ≠ .faulted ∨ e.cause ≠ some .mapMismatch → x.attn.pending .moduleFault = true)) := by
  subst hx
  exact heard_compare he rfl

theorem lastHeard_resting {s : State} (h : s.resting) (us : Us) (v : SurveyEntry) : (s.lastHeard us v).resting :=
  resting_of_same h (by simp) (by simp) (by simp) (by simp) (by simp) (by simp) (by simp) (by simp)

theorem lastHeard_wf {s : State} (h : s.mem.wf = true) (us : Us) (v : SurveyEntry) : (s.lastHeard us v).mem.wf = true := by
  simp [State.lastHeard, State.surveyed, State.heard, h, store_wf]

theorem lastHeard_configured (s : State) (us : Us) (v : SurveyEntry) :
    ((s.lastHeard us v).chain.map.filter (·.configured)).length = (s.chain.map.filter (·.configured)).length := by
  refine configured_length ?_
  rw [State.lastHeard, compare_configured]
  exact map_modifyAddr (f := (·.configured)) (g := fun e => if e.configured then { e with version := v.version } else e)
    (fun e => by split <;> rfl) s.chain.map 24

/-- The last address's entry stands in the survey table. -/
theorem lastHeard_readBytes {s : State} (hw : s.mem.wf = true) (us : Us) (v : SurveyEntry) :
    (s.lastHeard us v).mem.readBytes (surveyAt 24) 16 = surveyBytes v := by
  have hst := readBytes_store (m := s.mem) (base := surveyAt 24) (bs := surveyBytes v) hw (by simp [surveyAt, memSize])
  rw [surveyBytes_length] at hst
  rw [← hst]
  refine readBytes_congr fun a h1 h2 => ?_
  exact read_compare (s := (s.heard us 24 v.version).surveyed 24 v) (store_wf (by exact hw)) 24 v
    (by simp only [surveyAt] at h1; omega)

end Sys2Proof.Machine

namespace Sys2Proof.Machine

theorem sameAround_stopIf {s n : State} (h : s.sameAround n) (b : Bool) : s.sameAround (n.stopIf b) := by
  simpa [State.sameAround] using h

theorem sameContactors_stopIf {s n : State} (h : s.sameContactors n) (b : Bool) : s.sameContactors (n.stopIf b) := by
  simpa [State.sameContactors] using h

/-- Settles O38. The state is that of `endSurvey` after the last address's ECHO_BACK, with the stop sent where it was asked
for on a chain that is free. -/
theorem surveyEnds : Obligations.SurveyEnds := by
  unfold Obligations.SurveyEnds
  intro us sent rt kind cells sensors version second f s hsh hrest hq hl hk ha hh hret hwin hsw hpow ht
  obtain ⟨hslots, -⟩ := hsh
  have hex := echoBack_last (us := us) (kind := kind) (cells := cells) (sensors := sensors) (version := version)
    hl hk ha hh hret hwin ht
  obtain ⟨x, hx⟩ : ∃ x, x = s.lastHeard us (surveyEntryOf rt kind cells sensors version) := ⟨_, rfl⟩
  have hmap := fun e (he : s.chain.entry 24 = some e) => lastHeard_map hx he
  have hconf := lastHeard_configured s us (surveyEntryOf rt kind cells sensors version)
  have hxr := lastHeard_resting hrest.1 us (surveyEntryOf rt kind cells sensors version)
  have hxw := fun hw => lastHeard_wf (s := s) hw us (surveyEntryOf rt kind cells sensors version)
  have hbytes := fun hw => lastHeard_readBytes (s := s) hw us (surveyEntryOf rt kind cells sensors version)
  have haround : s.sameAround x.endSurvey := by
    rw [hx]
    exact settleAddr_around (a := 24) (t := s.heard us 24 version) (sameAround_self s)
  have hcont : s.sameContactors x.endSurvey := by
    rw [hx]
    exact settleAddr_contactors (a := 24) (t := s.heard us 24 version) (sameContactors_self s)
  obtain ⟨hsurvey, hreq, hfirst, hslip, hbal, horig, -, hsleep, hwake, htag, hsince, hev, hport, -, -, -, -, hpart⟩ :=
    lastHeard_frame s us (surveyEntryOf rt kind cells sensors version)
  rw [← hx] at hex hconf hxr hxw hbytes hsurvey hreq hfirst hslip hbal horig hsleep hwake htag hsince hev hport hpart
  clear hx
  have hslots' : x.port.slots.length = 8 := by rw [hport]; exact hslots
  obtain ⟨b, hset, hb0, hb1⟩ := settle_endSurvey hxr (hreq.trans hq)
  obtain ⟨hhold, hline, hpres, hcfg, hbrk, hpend⟩ := endSurvey_counts x
  have hstate := endSurvey_state x
  refine goes_react _ hex ?_
  rw [hset]
  obtain ⟨t, htt⟩ : ∃ t, t = State.finish s (x.endSurvey.stopIf b) := ⟨_, rfl⟩
  have htc : t.chain = (x.endSurvey.stopIf b).chain := by rw [htt]; simp
  have hta : t.attn = x.endSurvey.attn := by rw [htt]; simp
  have hti : t.ev.inbox = sentEvents x.endSurvey.ev.inbox := by rw [htt, finish_inbox]; simp
  have htm : s.mem.wf = true → ∀ a, 0x104 ≤ a → a < 0x1200 → Memory.read t.mem a = Memory.read x.endSurvey.mem a := by
    intro hw a h1 h2
    rw [htt, read_finish_mid (by simp [hxw hw]) h1 h2]
    simp
  have hshow : ∀ {k code cause : Nat}, s.mem.wf = true → k ≤ 7 → x.endSurvey.showsDone k code cause →
      t.showsDone k code cause := by
    intro k code cause hw hk h
    rw [htt]
    refine showsDone_finish (by simp [hxw hw]) hk ?_
    simpa [State.showsDone] using h
  have htaround : s.sameAround t := by rw [htt]; exact sameAround_finish (sameAround_stopIf haround b)
  have htcont : s.sameContactors t := by rw [htt]; exact sameContactors_finish (sameContactors_stopIf hcont b)
  rw [← htt]
  clear htt
  have hheader : s.mem.wf = true → ∀ i (hi : i < 4), Memory.read t.mem (0x1000 + i)
      = [byte t.chain.present, byte t.chain.configured, byte t.chain.breakLoc, 0][i] := by
    intro hw i hi
    rw [htm hw _ (by omega) (by omega), read_endSurvey (hxw hw) hslots' (by omega), read_store_of_in (hxw hw) (by simpa using hi)
      (by simp [memSize]; omega)]
    simp only [htc, stopIf_frame]
  have hmatched : x.chain.matched
      = (t.chain.map.any (·.configured) && (t.chain.survey.zip t.chain.map).all matchesMap) := by
    simp [htc, Chain.matched]
  simp only [htc, hta, stopIf_frame] at hmatched ⊢
  refine ⟨hpend, ?_, ?_, ?_, ?_, fun hw => ⟨?_, ?_⟩, fun e he => ?_, fun h => ?_, fun hc hm => ?_, fun h => ?_,
    fun k hw hs hi hne => ?_, htaround, htcont⟩
  · rw [hpres]; simp
  · rw [hcfg, hconf]
  · rw [hbrk]; simp
  · simp only [endSurvey_frame]
    exact hsurvey
  · have hsame : t.mem.readBytes (surveyAt 24) 16 = x.mem.readBytes (surveyAt 24) 16 := by
      refine readBytes_congr fun a h1 h2 => ?_
      simp only [surveyAt] at h1 h2
      rw [htm hw a (by omega) (by omega), read_endSurvey (hxw hw) hslots' (by omega),
        read_store_of_out (hxw hw) (by simp; omega)]
    rw [readBytes_take _ _ 10 6, hsame, hbytes hw]
    rfl
  · have hall := readBytes_of_read [byte t.chain.present, byte t.chain.configured, byte t.chain.breakLoc, 0] 0x1000
      (hheader hw)
    simp only [htc, stopIf_frame] at hall
    rw [readBytes_take _ _ 3 1]
    exact congrArg (List.take 3) hall
  · obtain ⟨h1, h2, h3, h4⟩ := hmap e he
    simp only [endSurvey_frame]
    exact ⟨h1, h2, h3, fun hc hs hm => ⟨(h4 hc hs hm).1, fun hn => endSurvey_pending ((h4 hc hs hm).2 hn)⟩⟩
  · have hb : b = false := by
      rcases h with h | h
      · exact hb0 (.inl (hfirst.trans h))
      · refine hb0 (.inr ?_)
        rw [hstate] at h
        cases hm : x.chain.matched
        · rfl
        · rw [hm, if_pos rfl] at h
          exact nomatch h
    subst hb
    exact ⟨hline, hhold⟩
  · have hm : x.chain.matched = true := by rw [hmatched, hc, hm]; rfl
    obtain ⟨herrs, hup⟩ := endSurvey_errs hm
    refine ⟨by rw [hstate, hm]; rfl, herrs, hup, fun ho => ?_, fun ho hcalm => ?_, fun hf => ⟨fun hs hw => ?_, fun hs => ?_, fun bal hbal' => ?_⟩⟩
    · obtain ⟨hpc, hsent⟩ := endSurvey_came_up hm (horig.trans ho)
      rw [hev] at hsent
      exact ⟨hpc, fun hcalm => hti ▸ sentEvents_one hcalm hsent⟩
    · rw [hti, endSurvey_stays_up hm (horig ▸ ho), hev, sentEvents_calm hcalm]
    · obtain ⟨-, hb⟩ := hb1 (hfirst.trans hf) hm
      rw [hsleep, hs, hwake, hw] at hb
      subst hb
      simp [State.stopIf, State.stopSent, htag]
    · obtain ⟨hr, hb⟩ := hb1 (hfirst.trans hf) hm
      have hb : b = false := by
        rw [hb, hsleep, hwake]
        rcases hs with hs | hs <;> simp [hs]
      subst hb
      exact hr
    · obtain ⟨-, hnone⟩ := endSurvey_first hm (hfirst.trans hf) (hreq.trans hq)
      refine ⟨hnone, fun hw hi _ => hshow hw hi.1 ?_⟩
      refine endSurvey_first_aborts hm (hfirst.trans hf) (hbal.trans hbal') (hxw hw) ?_
      simpa [State.inFlight, hport] using hi
  · have hm : x.chain.matched = false := by
      rw [hmatched]
      rcases h with h | h <;> rw [h]
      · rfl
      · exact Bool.and_false _
    obtain ⟨htimer, hfu⟩ := endSurvey_timer hm
    refine ⟨by rw [hstate, hm]; rfl, ?_, hfu.trans hfirst, fun ho => ?_, fun ho => ?_⟩
    · rw [htimer]
      exact congrArg some hpart
    · obtain ⟨hds, hin⟩ := endSurvey_stays_down hm (horig.trans ho)
      exact ⟨hds.trans hsince, fun hcalm => by rw [hti, hin, hev, sentEvents_calm hcalm]⟩
    · obtain ⟨hwas, hds, hpc, hsent⟩ := endSurvey_became_down hm (horig ▸ ho)
      rw [hev, horig] at hsent
      exact ⟨hwas, hds.trans hpart, hpc, fun hcalm => hti ▸ sentEvents_one hcalm hsent⟩
  · obtain ⟨hd, hf⟩ := endSurvey_slip (hxw hw) (hslip.trans hs) (by simpa [State.inFlight, hport] using hi)
      (by simpa [hfirst, hbal] using hne)
    refine ⟨hshow hw hi.1 hd, ?_⟩
    rw [← hf]
    refine readBytes_congr fun a h1 h2 => ?_
    have hk := hi.1
    simp only [slotAt] at h1 h2
    exact htm hw a (by omega) (by omega)

end Sys2Proof.Machine

namespace Sys2Proof.Machine

/-! ### Several completions -/

theorem completeAll_cons (s : State) (j : Nat) (l : List Nat) (r : Result) :
    s.completeAll (j :: l) r = (s.complete j r).completeAll l r := rfl

theorem showsDone_completeAll {s : State} {k code cause : Nat} (h : s.showsDone k code cause) (hw : s.mem.wf = true)
    (hk : k ≤ 7) (l : List Nat) (r : Result) : (s.completeAll l r).showsDone k code cause := by
  induction l generalizing s with
  | nil => exact h
  | cons j l ih =>
    rw [completeAll_cons]
    exact ih (showsDone_complete h hw hk r) (complete_wf _ _ _ hw)

/-- Each slip of the list that is in flight shows DONE. -/
theorem completeAll_showsDone {s : State} {k : Nat} {l : List Nat} (hm : k ∈ l) (hi : s.inFlight k) (hw : s.mem.wf = true)
    (r : Result) : (s.completeAll l r).showsDone k r.code.code r.causeCode := by
  induction l generalizing s with
  | nil => exact absurd hm List.not_mem_nil
  | cons j l ih =>
    rw [completeAll_cons]
    by_cases hj : k = j
    · subst hj
      exact showsDone_completeAll (complete_showsDone hw hi r) (complete_wf _ _ _ hw) hi.1 l r
    · exact ih (by simpa [hj] using hm) (inFlight_complete hi hj r) (complete_wf _ _ _ hw)

theorem completeAll_pending {s : State} {f : Factor} (h : s.attn.pending f = true) (l : List Nat) (r : Result) :
    (s.completeAll l r).attn.pending f = true := by
  induction l generalizing s with
  | nil => exact h
  | cons j l ih => exact ih (complete_pending h j r)

/-! ### The end of an update (R146) -/

/-- An update that has ended, before its slips complete. -/
def State.closeUpdate (s : State) (o : UpdOutcome) : State :=
  let n (st : DistState) : Nat := if decide (s.upd.header.target = .moduleFirmware) then countDist s.upd.dist st else 0
  ((State.disregard (State.dropFirmware { s.stopIntake with
    upd.outcome := o
    upd.outcomeState := some s.upd.state
    upd.staging := []
    upd.turn := none
    upd.link := .none
    upd.pause := none
    upd.window := none
    upd.commit := .none
    upd.aborting := false
    upd.aborts := []
    upd.slip := none })).toUpd .idle).sendStill .updateOutcome o.code
    (.updateOutcome s.upd.header.target.code s.upd.header.kind s.upd.header.version (n .switched) (n .rollback) (n .failed))

/-- The slip of an update that has ended completes, if it has one. -/
def State.slipEnded (s : State) (slip : Option (EngineSlip × Nat)) (code : ResultCode) (cause : Option ResultCause) : State :=
  match slip with
  | none => s
  | some (k, slot) => s.complete slot ⟨code, cause, s.upd.slipFields k⟩

theorem endUpdate_eq (s : State) (o : UpdOutcome) (code : ResultCode) (cause : Option ResultCause) :
    s.endUpdate o code cause = ((s.closeUpdate o).slipEnded s.upd.slip code cause).completeAll s.upd.aborts
      (.okWith ((s.closeUpdate o).slipEnded s.upd.slip code cause).upd.abortFields) := rfl

@[simp] theorem slipEnded_frame (s : State) (slip : Option (EngineSlip × Nat)) (code : ResultCode) (cause : Option ResultCause) :
    (s.slipEnded slip code cause).upd = s.upd ∧ (s.slipEnded slip code cause).chain = s.chain
      ∧ (s.slipEnded slip code cause).ev = s.ev := by
  unfold State.slipEnded
  split <;> simp

theorem slipEnded_wf {s : State} (h : s.mem.wf = true) (slip : Option (EngineSlip × Nat)) (code : ResultCode)
    (cause : Option ResultCause) : (s.slipEnded slip code cause).mem.wf = true := by
  unfold State.slipEnded
  split <;> simp [h]

@[simp] theorem closeUpdate_frame (s : State) (o : UpdOutcome) :
    (s.closeUpdate o).upd.state = .idle ∧ (s.closeUpdate o).upd.outcome = o
      ∧ (s.closeUpdate o).upd.outcomeState = some s.upd.state ∧ (s.closeUpdate o).upd.staging = []
      ∧ (s.closeUpdate o).upd.turn = none ∧ (s.closeUpdate o).upd.link = .none ∧ (s.closeUpdate o).upd.pause = none
      ∧ (s.closeUpdate o).upd.window = none ∧ (s.closeUpdate o).upd.commit = .none
      ∧ (s.closeUpdate o).upd.aborting = false ∧ (s.closeUpdate o).upd.aborts = [] ∧ (s.closeUpdate o).upd.slip = none
      ∧ (s.closeUpdate o).attn.pending .updateState = true
      ∧ (s.closeUpdate o).port.slots = s.port.slots := by
  simp [State.closeUpdate, State.toUpd]

theorem closeUpdate_wf {s : State} (h : s.mem.wf = true) (o : UpdOutcome) : (s.closeUpdate o).mem.wf = true := by
  simp [State.closeUpdate, State.toUpd, h]

/-- The fields of the engine after the end of an update. -/
@[simp] theorem endUpdate_upd (s : State) (o : UpdOutcome) (code : ResultCode) (cause : Option ResultCause) :
    (s.endUpdate o code cause).upd.state = .idle ∧ (s.endUpdate o code cause).upd.outcome = o
      ∧ (s.endUpdate o code cause).upd.outcomeState = some s.upd.state ∧ (s.endUpdate o code cause).upd.staging = []
      ∧ (s.endUpdate o code cause).upd.turn = none ∧ (s.endUpdate o code cause).upd.link = .none
      ∧ (s.endUpdate o code cause).upd.pause = none ∧ (s.endUpdate o code cause).upd.window = none
      ∧ (s.endUpdate o code cause).upd.aborting = false ∧ (s.endUpdate o code cause).upd.aborts = []
      ∧ (s.endUpdate o code cause).upd.slip = none := by
  rw [endUpdate_eq]
  simp

theorem endUpdate_pending (s : State) (o : UpdOutcome) (code : ResultCode) (cause : Option ResultCause) :
    (s.endUpdate o code cause).attn.pending .updateState = true := by
  rw [endUpdate_eq]
  refine completeAll_pending ?_ _ _
  have h : (s.closeUpdate o).attn.pending .updateState = true := by simp
  unfold State.slipEnded
  split
  · exact h
  · exact complete_pending h _ _

/-- The engine's requests are withdrawn; a hold of the engine's stands, disregarded (R165). -/
theorem endUpdate_requests (s : State) (o : UpdOutcome) (code : ResultCode) (cause : Option ResultCause) :
    (s.endUpdate o code cause).chain.requests = s.dropFirmware.chain.requests := by
  rw [endUpdate_eq]
  simp only [completeAll_frame, slipEnded_frame]
  simp [State.closeUpdate, State.toUpd, State.dropFirmware]

theorem endUpdate_hold {s : State} (h : s.chain.hold = none) (o : UpdOutcome) (code : ResultCode) (cause : Option ResultCause) :
    (s.endUpdate o code cause).chain.hold = none := by
  rw [endUpdate_eq]
  simp only [completeAll_frame, slipEnded_frame]
  simp [State.closeUpdate, State.toUpd, State.disregard, h]

/-- The engine's slip completes with the code and the cause of the end. -/
theorem endUpdate_slip {s : State} {q : EngineSlip} {k : Nat} (hw : s.mem.wf = true) (hs : s.upd.slip = some (q, k))
    (hi : s.inFlight k) (o : UpdOutcome) (code : ResultCode) (cause : Option ResultCause) :
    (s.endUpdate o code cause).showsDone k code.code ((cause.map (·.code)).getD 0) := by
  have hci : (s.closeUpdate o).inFlight k := by simpa [State.inFlight] using hi
  rw [endUpdate_eq]
  refine showsDone_completeAll ?_ (slipEnded_wf (closeUpdate_wf hw o) _ _ _) hi.1 _ _
  rw [hs]
  exact complete_showsDone (closeUpdate_wf hw o) hci _

/-- The aborts that wait complete with OK. -/
theorem endUpdate_aborts {s : State} {k : Nat} (hw : s.mem.wf = true) (hk : k ∈ s.upd.aborts) (hi : s.inFlight k)
    (o : UpdOutcome) (code : ResultCode) (cause : Option ResultCause) :
    (s.endUpdate o code cause).showsDone k 1 0 ∨ ∃ q, s.upd.slip = some (q, k) := by
  by_cases hs : ∃ q, s.upd.slip = some (q, k)
  · exact .inr hs
  · left
    rw [endUpdate_eq]
    refine completeAll_showsDone hk ?_ (slipEnded_wf (closeUpdate_wf hw o) _ _ _) _
    have hci : (s.closeUpdate o).inFlight k := by simpa [State.inFlight] using hi
    unfold State.slipEnded
    split
    · exact hci
    · rename_i q slot hq
      exact inFlight_complete hci (fun h => hs ⟨q, h ▸ hq⟩) _

/-- A state in which an update has ended still shows it at the end of the step. -/
theorem updateEnds_finish {s u : State} {o : UpdOutcome} {code : ResultCode} {cause : Option ResultCause} (hw : u.mem.wf = true)
    (hst : u.upd.state = s.upd.state) (hsl : u.upd.slip = s.upd.slip) (hpo : u.port.slots = s.port.slots) :
    (State.finish s (u.endUpdate o code cause)).updateEnds s o code.code ((cause.map (·.code)).getD 0) := by
  refine ⟨by simp, by simp, by simp [hst], by simp, by simp, by simp, by simpa using endUpdate_pending u o code cause, ?_⟩
  intro q k hq _ hi
  have hui : u.inFlight k := by simpa [State.inFlight, hpo] using hi
  exact showsDone_finish (endUpdate_wf _ _ _ _ hw) hi.1 (endUpdate_slip hw (hsl.trans hq) hui o code cause)

end Sys2Proof.Machine

namespace Sys2Proof.Machine

/-! ### Distribution records -/

theorem exists_getAt {α : Type} {l : List α} {x : α} (h : x ∈ l) : ∃ j, getAt l j = some x := by
  induction l with
  | nil => exact absurd h List.not_mem_nil
  | cons y l ih =>
    rcases List.mem_cons.1 h with rfl | h
    · exact ⟨0, rfl⟩
    · obtain ⟨j, hj⟩ := ih h
      exact ⟨j + 1, hj⟩

theorem firstDist_none {st : DistState} {l : List DistRec} (h : ∀ d ∈ l, d.state ≠ st) (i : Nat) : firstDist st i l = none := by
  induction l generalizing i with
  | nil => rfl
  | cons d l ih =>
    obtain ⟨hd, hl⟩ := List.forall_mem_cons.1 h
    simp only [firstDist, if_neg hd, ih hl]

theorem firstDist_firstIn {st : DistState} {l : List DistRec} {n : Nat} {d : DistRec} (h : firstIn st l n d) (i : Nat) :
    firstDist st i l = some (i + n, d) := by
  obtain ⟨hg, hs, hb⟩ := h
  induction l generalizing n i with
  | nil => cases n <;> cases hg
  | cons x l ih =>
    cases n with
    | zero =>
      have hx : x = d := Option.some.inj hg
      simp only [firstDist, hx, hs, if_true, Nat.add_zero]
    | succ n =>
      have hx : x.state ≠ st := hb 0 x (by omega) rfl
      simp only [firstDist, if_neg hx]
      rw [ih (i + 1) hg fun j y hj hy => hb (j + 1) y (by omega) hy]
      congr 2
      omega

/-- A change of one record leaves no record in a state, if no other was in it and the changed one is not. -/
theorem none_in_modifyAt {st : DistState} {l : List DistRec} {n : Nat} {g : DistRec → DistRec}
    (ho : ∀ j d, getAt l j = some d → j ≠ n → d.state ≠ st) (hg : ∀ d, (g d).state ≠ st) :
    ∀ d ∈ modifyAt l n g, d.state ≠ st := by
  intro d hd
  obtain ⟨j, hj⟩ := exists_getAt hd
  rw [getAt_modifyAt] at hj
  split at hj
  · obtain ⟨x, -, rfl⟩ := Option.map_eq_some_iff.1 hj
    exact hg x
  · rename_i hne
    exact ho j d hj hne

/-! ### Requests for the engine's writes (R130) -/

theorem mem_enqueue (p : Payload) (who : Requester) (l : List WriteReq) :
    ∃ q ∈ enqueue p who l, who ∈ q.who ∧ (q.payload = p ∨ ∃ x ∈ l, x.payload.join p = some q.payload) := by
  induction l with
  | nil => exact ⟨⟨p, [who]⟩, by simp [enqueue], by simp, .inl rfl⟩
  | cons x l ih =>
    cases hj : x.payload.join p with
    | some p' =>
      refine ⟨⟨p', x.who ++ [who]⟩, by simp [enqueue, hj], by simp, .inr ⟨x, by simp, hj⟩⟩
    | none =>
      obtain ⟨q, hq, hw, hp⟩ := ih
      refine ⟨q, by simp [enqueue, hj, hq], hw, hp.imp_right ?_⟩
      rintro ⟨y, hy, hyp⟩
      exact ⟨y, by simp [hy], hyp⟩

/-- A firmware floor joins one of its module type alone, and the higher version stands. -/
theorem join_fwFloor {x y : Payload} {k v : Nat} (h : x.join (.fwFloor k v) = some y) : ∃ w, y = .fwFloor k w ∧ v ≤ w := by
  cases x with
  | fwFloor j a =>
    simp only [Payload.join] at h
    split at h
    · rename_i hj
      subst hj
      exact ⟨max a v, (Option.some.inj h).symm, le_max_right a v⟩
    · exact nomatch h
  | _ => exact nomatch h

/-- A requested firmware floor stands in the queue with its version or a higher one. -/
theorem requestWrite_fwFloor {s : State} {k v : Nat} (h : s.store.alreadyDone (.fwFloor k v) = false) (who : Requester) :
    ∃ q ∈ (s.requestWrite (.fwFloor k v) who).store.queue, who ∈ q.who ∧ ∃ w, q.payload = .fwFloor k w ∧ v ≤ w := by
  obtain ⟨q, hq, hw, hp⟩ := mem_enqueue (.fwFloor k v) who s.store.queue
  refine ⟨q, by simpa only [State.requestWrite, h, Bool.false_eq_true, if_false] using hq, hw, ?_⟩
  rcases hp with hp | ⟨x, -, hx⟩
  · exact ⟨v, hp, le_rfl⟩
  · exact join_fwFloor hx

/-! ### The end of switching (R163) -/

theorem nextSwitch_none {s : State} (h : ∀ d ∈ s.upd.dist, d.state ≠ .sent) (n : Nat) : State.nextSwitch (n + 1) s = s.endSwitching := by
  simp only [State.nextSwitch, firstDist_none h]

theorem nextSwitch_first {s : State} {n : Nat} {d : DistRec} (h : firstIn .sent s.upd.dist n d) (he : s.eligible d.addr = true)
    (hm : d.moved = false) (fuel : Nat) :
    State.nextSwitch (fuel + 1) s
      = State.askChain { s.outOfService d.addr with upd.turn := some ⟨n, false, 0, 0⟩ } .switch := by
  simp only [State.nextSwitch, firstDist_firstIn h, Nat.zero_add, he, hm, Bool.not_false, Bool.and_self, if_true]

theorem endSwitching_partial {s : State} (h : (s.upd.dist.any fun d => decide (d.state ≠ .switched)) = true) :
    s.endSwitching = s.endUpdate .partial_ .refused (some .partial_) := by
  have hall : (s.upd.dist.all fun d => decide (d.state = .switched)) = false := by
    rw [List.all_eq_not_any_not]
    simpa using h
  simp only [State.endSwitching, hall, Bool.false_eq_true, if_false]

theorem endSwitching_floor {s : State} (h : ∀ d ∈ s.upd.dist, d.state = .switched)
    (hd : s.store.alreadyDone (.fwFloor s.upd.header.kind s.upd.header.version) = false) :
    s.endSwitching = State.requestWrite { s with upd.commit := .fwFloor, upd.turn := none }
      (.fwFloor s.upd.header.kind s.upd.header.version) .engine := by
  have hall : (s.upd.dist.all fun d => decide (d.state = .switched)) = true := by simpa using h
  simp only [State.endSwitching, hall, if_true, hd, Bool.false_eq_true, if_false]

end Sys2Proof.Machine

namespace Sys2Proof.Machine

/-! ### A good ECHO_BACK outside a survey -/

/-- An exchange that an ECHO_BACK has ended, with what it tells the map. -/
def State.echoEnded (s : State) (us : Us) (a : Nat) (version : Half) : State := (s.atUs us).endExchange.echoed a version

theorem echoGood_other {s : State} {us : Us} {a : Nat} {v : SurveyEntry} (h : ∀ b second, s.chain.hold ≠ some (.survey b second)) :
    (s.atUs us).echoGood a v = (s.echoEnded us a v.version).engineEcho a v.version := by
  unfold State.echoGood
  split
  · rename_i b second hh
    exact absurd hh (h b second)
  · rfl

theorem entry_editModule (s : State) (a b : Nat) (g : ModuleEntry → ModuleEntry) :
    (s.editModule a g).chain.entry b = if b = a then (s.chain.entry b).map g else s.chain.entry b :=
  atAddr_modifyAddr _ _ _ _

/-- A module returns to IN_SERVICE (R18). -/
def ModuleEntry.back (e : ModuleEntry) : ModuleEntry :=
  if e.state = .outOfService then { e with state := .inService, miss := 0, cause := none } else e

theorem entry_backInService (s : State) (a b : Nat) :
    (s.backInService a).chain.entry b = if b = a then (s.chain.entry b).map ModuleEntry.back else s.chain.entry b :=
  atAddr_modifyAddr _ _ _ _

/-- What a module's ECHO_BACK leaves of its entry, where it is handed back or not. -/
theorem entry_echoed {s : State} {a : Nat} {e : ModuleEntry} (he : s.chain.entry a = some e) (hc : e.configured = true)
    (version : Half) : (s.echoed a version).chain.entry a
      = some { (if s.chain.returning.any (fun r => decide (r.1 = a)) then e.back else e) with version := version } := by
  have hb : e.back.configured = true := by unfold ModuleEntry.back; split <;> exact hc
  unfold State.echoed
  split
  · rw [entry_editModule, if_pos rfl, entry_backInService, if_pos rfl, he]
    simp [hb]
  · rw [entry_editModule, if_pos rfl, he]
    simp [hc]

theorem entry_echoed_other {s : State} {a b : Nat} (h : b ≠ a) (version : Half) :
    (s.echoed a version).chain.entry b = s.chain.entry b := by
  unfold State.echoed
  rw [entry_editModule, if_neg h]
  split
  · rw [entry_backInService, if_neg h]
  · rfl

@[simp] theorem echoEnded_frame (s : State) (us : Us) (a : Nat) (version : Half) :
    (s.echoEnded us a version).upd = s.upd ∧ (s.echoEnded us a version).power = s.power
      ∧ (s.echoEnded us a version).plan = s.plan ∧ (s.echoEnded us a version).port = s.port
      ∧ (s.echoEnded us a version).mem = s.mem ∧ (s.echoEnded us a version).store = s.store
      ∧ (s.echoEnded us a version).chain.hold = none ∧ (s.echoEnded us a version).chain.line = .idle
      ∧ (s.echoEnded us a version).chain.requests = s.chain.requests
      ∧ (s.echoEnded us a version).chain.state = s.chain.state
      ∧ (s.echoEnded us a version).chain.origin = s.chain.origin
      ∧ (s.echoEnded us a version).chain.survey = s.chain.survey
      ∧ (s.echoEnded us a version).chain.sleepCmd = s.chain.sleepCmd ∧ (s.echoEnded us a version).chain.wake = s.chain.wake
      ∧ (s.echoEnded us a version).chain.exTag = s.chain.exTag
      ∧ (s.echoEnded us a version).conv.part = s.conv.part := by
  simp [State.echoEnded]

theorem echoEnded_around (s : State) (us : Us) (a : Nat) (version : Half) : s.sameAround (s.echoEnded us a version) := by
  simp [State.sameAround, State.echoEnded]

theorem echoEnded_contactors (s : State) (us : Us) (a : Nat) (version : Half) :
    s.sameContactors (s.echoEnded us a version) := by
  simp [State.sameContactors, State.echoEnded]

/-! ### The engine judges a switch probe (R161) -/

/-- The module in turn has been judged: its window, its turn and the engine's requests are gone. -/
def State.judged (s : State) : State := State.dropFirmware { s with upd.window := none, upd.turn := none, upd.link := .none }

theorem afterJudged_eq (s : State) : s.afterJudged = if s.upd.aborting then s.judged.endAborted else State.nextSwitch 24 s.judged := rfl

theorem engineEcho_other {s : State} {a : Nat} {version : Half} {w : SwitchWindow} {t : Turn} {d : DistRec}
    (hw : s.upd.window = some w) (hc : s.upd.current = some (t, d)) (ha : d.addr = a) (ht : elapsed s.now w.since < 2000)
    (hv : version.toNat ≠ s.upd.header.version) : s.engineEcho a version = { s with
      upd.watches := s.upd.watches.filter fun w => decide (w.1 ≠ a)
      upd.dist := modifyAt s.upd.dist t.pos fun d => { d with reported := some version.toNat }
      upd.window := some { w with reported := some version.toNat } } := by
  simp only [State.engineEcho, hw, hc, ha, ht, hv, decide_true, Bool.and_self, if_true, if_false]
  rfl

/-- The part as a probe that shows the update's version leaves it for the next record. -/
def State.switched (s : State) (a : Nat) (version : Half) (pos : Nat) : State :=
  State.judged (State.backInService { s with
    upd.watches := s.upd.watches.filter fun w => decide (w.1 ≠ a)
    upd.dist := modifyAt s.upd.dist pos fun d => { d with state := .switched, reported := some version.toNat } } a)

theorem engineEcho_switched {s : State} {a : Nat} {version : Half} {w : SwitchWindow} {t : Turn} {d : DistRec}
    (hw : s.upd.window = some w) (hc : s.upd.current = some (t, d)) (ha : d.addr = a) (ht : elapsed s.now w.since < 2000)
    (hv : version.toNat = s.upd.header.version) : s.engineEcho a version
      = if s.upd.aborting then (s.switched a version t.pos).endAborted else State.nextSwitch 24 (s.switched a version t.pos) := by
  simp only [State.engineEcho, hw, hc, ha, ht, hv, decide_true, Bool.and_self, if_true]
  rw [← hv]
  exact afterJudged_eq _

theorem dropFirmware_nil {s : State} (h : s.chain.requests = []) : s.dropFirmware = s := by
  unfold State.dropFirmware
  rw [h]
  simp only [List.filter_nil]
  rw [← h]

@[simp] theorem switched_upd (s : State) (a : Nat) (version : Half) (pos : Nat) : (s.switched a version pos).upd = { s.upd with
    watches := s.upd.watches.filter fun w => decide (w.1 ≠ a)
    dist := modifyAt s.upd.dist pos fun d => { d with state := .switched, reported := some version.toNat }
    window := none
    turn := none
    link := .none } := rfl

@[simp] theorem switched_frame (s : State) (a : Nat) (version : Half) (pos : Nat) :
    (s.switched a version pos).power = s.power ∧ (s.switched a version pos).plan = s.plan
      ∧ (s.switched a version pos).port = s.port ∧ (s.switched a version pos).mem = s.mem
      ∧ (s.switched a version pos).store = s.store ∧ (s.switched a version pos).chain.hold = s.chain.hold
      ∧ (s.switched a version pos).chain.line = s.chain.line ∧ (s.switched a version pos).chain.state = s.chain.state
      ∧ (s.switched a version pos).chain.origin = s.chain.origin ∧ (s.switched a version pos).chain.survey = s.chain.survey
      ∧ (s.switched a version pos).chain.sleepCmd = s.chain.sleepCmd ∧ (s.switched a version pos).chain.wake = s.chain.wake
      ∧ (s.switched a version pos).chain.exTag = s.chain.exTag ∧ (s.switched a version pos).conv = s.conv :=
  ⟨rfl, rfl, rfl, rfl, rfl, rfl, rfl, rfl, rfl, rfl, rfl, rfl, rfl, rfl⟩

theorem switched_requests {s : State} (h : s.chain.requests = []) (a : Nat) (version : Half) (pos : Nat) :
    (s.switched a version pos).chain.requests = [] := by
  simp [State.switched, State.judged, State.dropFirmware, State.backInService, State.editModule, h]

theorem entry_switched (s : State) (a : Nat) (version : Half) (pos b : Nat) : (s.switched a version pos).chain.entry b
    = if b = a then (s.chain.entry b).map ModuleEntry.back else s.chain.entry b := atAddr_modifyAddr _ _ _ _

theorem switched_around {s t : State} (h : s.sameAround t) (a : Nat) (version : Half) (pos : Nat) :
    s.sameAround (t.switched a version pos) := h

theorem switched_contactors {s t : State} (h : s.sameContactors t) (a : Nat) (version : Half) (pos : Nat) :
    s.sameContactors (t.switched a version pos) := h

theorem sameAround_endUpdate {s t : State} (h : s.sameAround t) (o : UpdOutcome) (code : ResultCode) (cause : Option ResultCause) :
    s.sameAround (t.endUpdate o code cause) := by
  simpa [State.sameAround] using h

theorem sameContactors_endUpdate {s t : State} (h : s.sameContactors t) (o : UpdOutcome) (code : ResultCode)
    (cause : Option ResultCause) : s.sameContactors (t.endUpdate o code cause) := by
  simpa [State.sameContactors] using h

theorem sameAround_requestWrite {s t : State} (h : s.sameAround t) (p : Payload) (who : Requester) :
    s.sameAround (t.requestWrite p who) := by
  unfold State.requestWrite
  split
  · exact h
  · obtain ⟨h1, h2, h3, h4, h5, h6, h7, h8, hs, hrest⟩ := h
    refine ⟨h1, h2, h3, h4, h5, h6, h7, h8, ?_, hrest⟩
    rw [hs]

end Sys2Proof.Machine

namespace Sys2Proof.Machine

/-- An entry that was OUT_OF_SERVICE is back once the module has shown the update's version. -/
theorem entry_echoEnded_switched {s : State} {us : Us} {a : Nat} {e : ModuleEntry} (he : s.chain.entry a = some e)
    (hc : e.configured = true) (ho : e.state = .outOfService) (version : Half) (pos : Nat) :
    ((s.echoEnded us a version).switched a version pos).chain.entry a
      = some { e with state := .inService, miss := 0, cause := none, version := version } := by
  rw [entry_switched, if_pos rfl, State.echoEnded, entry_echoed (s := (s.atUs us).endExchange) he hc]
  split <;> simp [ModuleEntry.back, ho]

/-- The eligibility of an address rests on its entry, the survey and the header (R156). -/
theorem eligible_congr {s t : State} {a : Nat} (he : t.chain.entry a = s.chain.entry a) (hs : t.chain.survey = s.chain.survey)
    (hh : t.upd.header = s.upd.header) : t.eligible a = s.eligible a := by
  unfold State.eligible
  rw [he, hs, hh]

theorem getAt_current {u : Update} {t : Turn} {d : DistRec} (h : u.current = some (t, d)) : u.turn = some t ∧ getAt u.dist t.pos = some d := by
  unfold Update.current at h
  split at h
  · exact nomatch h
  · rename_i t' ht
    obtain ⟨d', hd, heq⟩ := Option.map_eq_some_iff.1 h
    cases heq
    exact ⟨ht, hd⟩

/-- The SWITCH of a record that waits alone is sent by a free chain that is not down. -/
theorem settle_switch {s : State} {tn : Turn} {d : DistRec} (h : s.resting) (hq : s.chain.requests = [.firmware .switch])
    (hf : s.chain.free = true) (hd : s.chain.down = false) (hc : s.upd.current = some (tn, d)) :
    s.settle = { s with
      chain.requests := []
      chain.hold := some (.firmware .switch true)
      chain.line := .sending ⟨.switch, d.addr, s.chain.exTag, le 2 s.upd.header.version⟩
      chain.exTag := cycle 255 s.chain.exTag
      upd.link := .exchange } := by
  have hna : s.chain.state ≠ .asleep := by simp_all [Chain.free]
  have ha : s.answerRequests = s := by simp [State.answerRequests, hd, hna]
  have hg : s.arbiterGrant = s.grant (.firmware .switch) :=
    arbiterGrant_only hf hq (by simp) (by simp [Chain.grantable, hq, hd])
  have hnone : s.chain.requests.filter (· ≠ .firmware .switch) = [] := by simp [hq]
  have he : s.grant (.firmware .switch) = { s with
      chain.requests := []
      chain.hold := some (.firmware .switch true)
      chain.line := .sending ⟨.switch, d.addr, s.chain.exTag, le 2 s.upd.header.version⟩
      chain.exTag := cycle 255 s.chain.exTag
      upd.link := .exchange } := by
    simp only [State.grant, State.grantFirmware, State.dropRequest, hc, hnone]
    rfl
  rw [settle_granted h ha ?_, hg, he]
  rw [hg, he]
  exact ⟨resting_of_same h rfl rfl rfl rfl rfl rfl rfl rfl, .inl rfl⟩

theorem restsElse_of_awake {s : State} (h : s.awake) (hb : s.plan.burst = none) : s.restsElse := by
  obtain ⟨he, hp, hr⟩ := h
  exact ⟨hb, by simp [he], by simp [hp], by simp [hr]⟩

theorem restsElse_of_same {n s : State} (h : s.restsElse) (h1 : n.power = s.power) (h2 : n.plan = s.plan)
    (h3 : s.chain.state ≠ .asleep → n.chain.state ≠ .asleep) : n.restsElse := by
  obtain ⟨hb, he, hp, hr⟩ := h
  unfold State.restsElse
  rw [h1, h2]
  exact ⟨hb, fun e hn => (he e hn).imp_right fun h => h.imp_right fun h => ⟨h.1, h3 h.2⟩, hp, fun r hn => h3 (hr r hn)⟩

/-- A state within a step of the update engine: the exchange has ended, no request waits, and of the rest of the part only
what the engine and the map of the chain record has changed. -/
structure State.EngineWorks (s x : State) : Prop where
  power : x.power = s.power
  plan : x.plan = s.plan
  awake : s.chain.state ≠ .asleep → x.chain.state ≠ .asleep
  requests : x.chain.requests = []
  hold : x.chain.hold = none
  line : x.chain.line = .idle
  around : s.sameAround x
  contactors : s.sameContactors x
  state : x.upd.state = s.upd.state
  slip : x.upd.slip = s.upd.slip
  slots : x.port.slots = s.port.slots
  wf : s.mem.wf = true → x.mem.wf = true

theorem State.EngineWorks.ends {s x : State} (h : s.EngineWorks x) (hr : s.restsElse) (hw : s.mem.wf = true) (o : UpdOutcome)
    (code : ResultCode) (cause : Option ResultCause) :
    (x.endUpdate o code cause).settle = x.endUpdate o code cause
      ∧ (State.finish s (x.endUpdate o code cause)).updateEnds s o code.code ((cause.map (·.code)).getD 0)
      ∧ (x.endUpdate o code cause).chain.hold = none ∧ (x.endUpdate o code cause).chain.line = .idle
      ∧ s.sameAround (State.finish s (x.endUpdate o code cause))
      ∧ s.sameContactors (State.finish s (x.endUpdate o code cause)) := by
  refine ⟨settle_restful ⟨(resting_iff _).2 ⟨restsElse_of_same hr ?_ ?_ ?_, by simp, by simp⟩, .inl ?_⟩,
    updateEnds_finish (h.wf hw) h.state h.slip h.slots, endUpdate_hold h.hold _ _ _, by simpa using h.line,
    sameAround_finish (sameAround_endUpdate h.around _ _ _), sameContactors_finish (sameContactors_endUpdate h.contactors _ _ _)⟩
  · simpa using h.power
  · simpa using h.plan
  · simpa using h.awake
  · rw [endUpdate_requests, dropFirmware_nil h.requests]
    exact h.requests

/-- An update that ends or waits for its floor leaves the records, the map and the rest of the part (R163). -/
theorem State.EngineWorks.endSwitching {s x : State} (h : s.EngineWorks x) (hr : s.restsElse) (hw : s.mem.wf = true)
    (hst : x.upd.state = .switching) (hwin : x.upd.window = none) (hp : x.upd.pause = none) :
    (State.finish s x.endSwitching.settle).upd.dist = x.upd.dist
      ∧ (State.finish s x.endSwitching.settle).upd.window = none
      ∧ (State.finish s x.endSwitching.settle).chain.hold = none
      ∧ (State.finish s x.endSwitching.settle).chain.map = x.chain.map
      ∧ ((x.upd.dist.any fun d => decide (d.state ≠ .switched)) = true →
          (State.finish s x.endSwitching.settle).updateEnds s .partial_ 3 32)
      ∧ ((∀ d ∈ x.upd.dist, d.state = .switched) → ∀ n, getAt x.store.work.fwFloors x.upd.header.kind = some n →
          n < x.upd.header.version →
          (State.finish s x.endSwitching.settle).upd.state = .switching
            ∧ (State.finish s x.endSwitching.settle).upd.commit = .fwFloor
            ∧ ∃ q ∈ (State.finish s x.endSwitching.settle).store.queue, .engine ∈ q.who
              ∧ ∃ v, q.payload = .fwFloor x.upd.header.kind v ∧ x.upd.header.version ≤ v)
      ∧ s.sameAround (State.finish s x.endSwitching.settle) ∧ s.sameContactors (State.finish s x.endSwitching.settle) := by
  cases hany : x.upd.dist.any fun d => decide (d.state ≠ .switched) with
  | true =>
    obtain ⟨hset, hends, hhold, -, har, hco⟩ := h.ends hr hw .partial_ .refused (some .partial_)
    rw [endSwitching_partial hany, hset]
    refine ⟨by simp, by simp, by simpa using hhold, by simp, fun _ => hends, fun hall => ?_, har, hco⟩
    obtain ⟨d, hd, hne⟩ := List.any_eq_true.1 hany
    exact absurd (hall d hd) (by simpa using hne)
  | false =>
    have hall : ∀ d ∈ x.upd.dist, d.state = .switched := by
      intro d hd
      simpa using List.any_eq_false.1 hany d hd
    cases hdone : x.store.alreadyDone (.fwFloor x.upd.header.kind x.upd.header.version) with
    | true =>
      have heq : x.endSwitching = State.endUpdate { x with upd.floorWritten := true } .ok .ok none := by
        simp only [State.endSwitching, hdone, if_true]
        rw [if_pos (by simpa using hall)]
      have hx' : s.EngineWorks { x with upd.floorWritten := true } :=
        ⟨h.power, h.plan, h.awake, h.requests, h.hold, h.line, h.around, h.contactors, h.state, h.slip, h.slots, h.wf⟩
      obtain ⟨hset, hends, hhold, -, har, hco⟩ := hx'.ends hr hw .ok .ok none
      rw [heq, hset]
      refine ⟨by simp, by simp, by simpa using hhold, by simp, nofun, fun _ n hn hlt => ?_, har, hco⟩
      have : x.upd.header.version ≤ n := by simpa [Store.alreadyDone, hn] using hdone
      omega
    | false =>
      rw [endSwitching_floor hall hdone]
      have har := sameAround_requestWrite (t := { x with upd.commit := .fwFloor, upd.turn := none }) h.around
        (.fwFloor x.upd.header.kind x.upd.header.version) .engine
      have hset : (State.requestWrite { x with upd.commit := .fwFloor, upd.turn := none }
          (.fwFloor x.upd.header.kind x.upd.header.version) .engine).settle
          = State.requestWrite { x with upd.commit := .fwFloor, upd.turn := none }
            (.fwFloor x.upd.header.kind x.upd.header.version) .engine :=
        settle_restful ⟨(resting_iff _).2 ⟨restsElse_of_same hr (by simpa using h.power) (by simpa using h.plan)
          (by simpa using h.awake), by simpa using hp, by simp [hst]⟩, .inl (by simpa using h.requests)⟩
      obtain ⟨q, hq, hwho, v, hpay, hv⟩ := requestWrite_fwFloor
        (s := { x with upd.commit := .fwFloor, upd.turn := none }) hdone .engine
      rw [hset]
      refine ⟨by simp, by simpa using hwin, by simpa using h.hold, by simp, nofun, fun _ n hn hlt => ?_, sameAround_finish har, ?_⟩
      · exact ⟨by simpa using hst, by simp, q, by simpa using hq, hwho, v, hpay, hv⟩
      · exact sameContactors_finish (by simpa [State.sameContactors] using h.contactors)

/-- The module of the record in turn is OUT_OF_SERVICE and is being sent the SWITCH (R161). -/
def State.switchGoesOut (x : State) (n a : Nat) : State := { x.outOfService a with
  chain.requests := []
  chain.hold := some (.firmware .switch true)
  chain.line := .sending ⟨.switch, a, x.chain.exTag, le 2 x.upd.header.version⟩
  chain.exTag := cycle 255 x.chain.exTag
  upd.turn := some ⟨n, false, 0, 0⟩
  upd.link := .exchange }

@[simp] theorem switchGoesOut_frame (x : State) (n a : Nat) :
    (x.switchGoesOut n a).upd = { x.upd with turn := some ⟨n, false, 0, 0⟩, link := .exchange }
      ∧ (x.switchGoesOut n a).chain.hold = some (.firmware .switch true)
      ∧ (x.switchGoesOut n a).chain.line = .sending ⟨.switch, a, x.chain.exTag, le 2 x.upd.header.version⟩
      ∧ (x.switchGoesOut n a).attn = x.attn :=
  ⟨rfl, rfl, rfl, rfl⟩

theorem entry_switchGoesOut (x : State) (n a b : Nat) : (x.switchGoesOut n a).chain.entry b
    = if b = a then (x.chain.entry b).map fun e => { e with state := .outOfService, cause := none } else x.chain.entry b :=
  atAddr_modifyAddr _ _ _ _

/-- The next SWITCH is sent at once on a chain that is free and not down. -/
theorem State.EngineWorks.switches {s x : State} (h : s.EngineWorks x) (hr : s.restsElse) (hst : x.upd.state = .switching)
    (hp : x.upd.pause = none) {n : Nat} {d : DistRec} (hd : getAt x.upd.dist n = some d) (hdown : x.chain.down = false)
    (hna : x.chain.state ≠ .asleep) (hsl : x.chain.sleepCmd = false) (hwk : x.chain.wake = .none) :
    (State.askChain { x.outOfService d.addr with upd.turn := some ⟨n, false, 0, 0⟩ } .switch).settle
      = x.switchGoesOut n d.addr := by
  have hask : State.askChain { x.outOfService d.addr with upd.turn := some ⟨n, false, 0, 0⟩ } .switch
      = { x.outOfService d.addr with
        upd.turn := some ⟨n, false, 0, 0⟩
        upd.link := .waiting
        chain.requests := [.firmware .switch] } := by
    unfold State.askChain
    rw [request_new]
    · simp only [State.outOfService, State.editModule, h.requests, List.nil_append]
    · simp [State.outOfService, State.editModule, h.requests]
  rw [hask, settle_switch (tn := ⟨n, false, 0, 0⟩) (d := d)]
  · rfl
  · exact (resting_iff _).2 ⟨restsElse_of_same hr h.power h.plan h.awake, hp,
      by simpa [State.outOfService, State.editModule] using fun hc => nomatch hst.symm.trans hc⟩
  · rfl
  · simp [Chain.free, State.outOfService, State.editModule, h.hold, h.line, hsl, hwk, hna]
  · exact hdown
  · simp [Update.current, State.outOfService, State.editModule, hd]

/-- Settles O37. -/
theorem surveyEchoBack : Obligations.SurveyEchoBack := by
  unfold Obligations.SurveyEchoBack
  refine ⟨?_, ?_⟩
  · intro us sent a rt kind cells sensors version second f e s hw hsh hrest hl hk ha hh h1 h24 he hc hs hret hwin hst ht
    have hex := echoBack_react (us := us) (kind := kind) (cells := cells) (sensors := sensors) (version := version) hl hk
      (show rt ≤ 10 * s.chain.windowOf f by simp only [Chain.windowOf, hh]; omega)
    rw [ha, echoGood_survey hh hret hwin, show (surveyEntryOf rt kind cells sensors version).version = version from rfl] at hex
    obtain ⟨-, -, hmatch, hmis⟩ := heard_compare (us := us) (v := surveyEntryOf rt kind cells sensors version) he rfl
    have hr := settleAddr_next_restful (s := s.heard us a version) (b := a) (second := second)
      ⟨resting_of_same hrest.1 rfl rfl rfl rfl rfl rfl rfl rfl, hrest.2⟩ hh h24 (surveyEntryOf rt kind cells sensors version)
    have hnext := settleAddr_next (s := s.heard us a version) h24 (surveyEntryOf rt kind cells sensors version)
    refine goes_react _ hex ?_
    rw [settle_restful hr]
    refine ⟨?_, ?_, ?_, ?_, fun hm => ?_, fun hm => ⟨?_, fun hnew => ?_⟩, ?_, ?_⟩
    · rw [hnext]; simp [State.surveyed, State.heard]; rfl
    · rw [hnext]; simp [State.surveyed, State.heard]
    · rw [hnext]; simp
    · rw [hnext]; simp [State.surveyed, State.heard]
    · rw [hnext]
      simp only [finish_frame]
      exact hmatch hc hs hm
    · rw [hnext]
      simp only [finish_frame]
      exact (hmis hc hs hm).1
    · rw [hnext]
      simp only [finish_frame]
      exact (hmis hc hs hm).2 hnew
    · exact sameAround_finish (settleAddr_around (t := s.heard us a version) (sameAround_self s))
    · exact sameContactors_finish (settleAddr_contactors (t := s.heard us a version) (sameContactors_self s))
  · intro us sent rt kind cells sensors version f e s hw hsh hcalm hrest hq hl hk he hc ho ht
    have hex := echoBack_react (us := us) (kind := kind) (cells := cells) (sensors := sensors) (version := version) hl hk ht
    obtain ⟨-, hpause, -⟩ := hrest.1
    refine ⟨fun a hh hany hwin => ?_, fun live w tn d hh hst hwin hcur hda htime => ?_⟩
    · rw [echoGood_other (by simp [hh]), show (surveyEntryOf rt kind cells sensors version).version = version from rfl,
        engineEcho_no_window (by simpa using hwin)] at hex
      have hn : ({ s.echoEnded us f.addr version with
          upd.watches := (s.echoEnded us f.addr version).upd.watches.filter fun w => decide (w.1 ≠ f.addr) } : State)
          = { s with
            conv.us := usAfter s us
            chain.hold := none
            chain.line := .idle
            chain.returning := s.chain.returning.filter fun r => decide (r.1 ≠ f.addr)
            chain.map := modifyAddr s.chain.map f.addr fun e =>
              { e with state := .inService, miss := 0, cause := none, version := version }
            upd.watches := s.upd.watches.filter fun w => decide (w.1 ≠ f.addr) } := by
        have hm : modifyAddr (modifyAddr s.chain.map f.addr ModuleEntry.back) f.addr
              (fun e => if e.configured then { e with version := version } else e)
            = modifyAddr s.chain.map f.addr fun e =>
              { e with state := .inService, miss := 0, cause := none, version := version } := by
          rw [modifyAddr_modifyAddr]
          refine modifyAddr_congr fun x hx => ?_
          cases (show some e = some x from he.symm.trans hx)
          simp [ModuleEntry.back, ho, hc]
        have he : s.echoEnded us f.addr version = ((s.atUs us).endExchange.backInService f.addr).editModule f.addr fun e =>
            if e.configured then { e with version := version } else e := by
          unfold State.echoEnded State.echoed
          rw [if_pos (by simpa using hany)]
        rw [he, ← hm]
        rfl
      rw [hn] at hex
      have hcalm' : anyFaulted (modifyAddr s.chain.map f.addr fun e =>
          { e with state := .inService, miss := 0, cause := none, version := version }) = anyFaulted s.chain.map := by
        refine anyFaulted_modifyAddr_same fun x hx => ⟨?_, nofun⟩
        cases (show some e = some x from he.symm.trans hx)
        simp [ho]
      obtain ⟨-, -, -, hlen, -⟩ := hsh
      refine goes_shown_react _ hex (restful_of_idle hrest.1 hq (by simp)) (calm_of_less hcalm hcalm' rfl id rfl rfl)
        (fun h => hcalm' ▸ h) ⟨rfl, ?_⟩
      exact sameBut_mirror hw (sameBut_of_mem rfl) (by simp [State.mirrors, chainBytes, updateWord, updateBytes, hlen])
    · rw [echoGood_other (by simp [hh]), show (surveyEntryOf rt kind cells sensors version).version = version from rfl] at hex
      have hwin' : (s.echoEnded us f.addr version).upd.window = some w := by simpa using hwin
      have hcur' : (s.echoEnded us f.addr version).upd.current = some (tn, d) := by simpa using hcur
      have htime' : elapsed (s.echoEnded us f.addr version).now w.since < 2000 := by
        rw [show (s.echoEnded us f.addr version).now = s.now by simp [State.now]]
        exact htime
      have hreq : ((s.echoEnded us f.addr version).switched f.addr version tn.pos).chain.requests = [] :=
        switched_requests (by simpa using hq) _ _ _
      have haround := switched_around (echoEnded_around s us f.addr version) f.addr version tn.pos
      have hcont := switched_contactors (echoEnded_contactors s us f.addr version) f.addr version tn.pos
      have hentry := entry_echoEnded_switched (us := us) he hc ho version tn.pos
      refine ⟨fun hv => ?_, fun hv hnos hds => ?_, fun n d' e' hv hab hne hd' hds hbefore hmoved helig hda' he' hdown hna hsl hwk => ?_⟩
      · rw [engineEcho_other hwin' hcur' hda htime' (by simpa using hv)] at hex
        refine goes_react _ hex ?_
        rw [settle_restful ⟨(resting_iff _).2 ⟨restsElse_of_same ((resting_iff s).1 hrest.1).1 (by simp) (by simp) (by simp), by simpa using hpause, by simp [hst]⟩, .inl (by simpa using hq)⟩]
        refine ⟨by simp, by simp, by simpa using hst, by simp, by simp, fun hret => ?_, ?_, ?_⟩
        · simp only [finish_frame, State.echoEnded]
          rw [echoed_no_return (s := (s.atUs us).endExchange) hret, entry_editModule, if_pos rfl,
            show (s.atUs us).endExchange.chain.entry f.addr = some e from he]
          simp [hc, ho]
        · exact sameAround_finish (echoEnded_around s us f.addr version)
        · exact sameContactors_finish (echoEnded_contactors s us f.addr version)
      · have hdist : ((s.echoEnded us f.addr version).switched f.addr version tn.pos).upd.dist = modifyAt s.upd.dist tn.pos
            fun d => { d with state := .switched, reported := some version.toNat } := by simp
        have hnone : ∀ d ∈ ((s.echoEnded us f.addr version).switched f.addr version tn.pos).upd.dist, d.state ≠ .sent := by
          rw [hdist]
          exact none_in_modifyAt hnos fun _ => nofun
        have hx : s.EngineWorks ((s.echoEnded us f.addr version).switched f.addr version tn.pos) :=
          ⟨by simp, by simp, by simp, hreq, by simp, by simp, haround, hcont, by simp, by simp, by simp, by simp⟩
        rw [engineEcho_switched hwin' hcur' hda htime' (by simpa using hv), nextSwitch_none hnone] at hex
        have hab : (s.echoEnded us f.addr version).upd.aborting = s.upd.aborting := by simp
        have hhead : ((s.echoEnded us f.addr version).switched f.addr version tn.pos).upd.header = s.upd.header := by simp
        have hstore : ((s.echoEnded us f.addr version).switched f.addr version tn.pos).store = s.store := by simp
        have hswin : ((s.echoEnded us f.addr version).switched f.addr version tn.pos).upd.window = none := by simp
        have hsst : ((s.echoEnded us f.addr version).switched f.addr version tn.pos).upd.state = .switching := by simpa using hst
        rw [hab] at hex
        have hspause : ((s.echoEnded us f.addr version).switched f.addr version tn.pos).upd.pause = none := by simpa using hpause
        generalize (s.echoEnded us f.addr version).switched f.addr version tn.pos = x at *
        obtain ⟨helse, -⟩ := (resting_iff s).1 hrest.1
        refine goes_react _ hex ?_
        cases hb : s.upd.aborting with
        | true =>
          obtain ⟨hset, hends, hhold, -, har, hco⟩ := hx.ends helse hw .aborted .aborted none
          rw [if_pos rfl, State.endAborted, hset]
          refine ⟨by simpa using hdist, by simp, by simpa using hhold, ?_, fun _ => hends, nofun, nofun, har, hco⟩
          simpa [Chain.entry] using hentry
        | false =>
          obtain ⟨hd, hwn, hhold, hmap, hpart, hfl, har, hco⟩ := hx.endSwitching helse hw hsst hswin hspause
          rw [if_neg Bool.false_ne_true]
          refine ⟨hd.trans hdist, hwn, hhold, ?_, nofun, fun _ hany => hpart (by rwa [hd] at hany), fun _ hall => ?_, har, hco⟩
          · rw [Chain.entry, hmap]
            exact hentry
          · rw [← hstore, ← hhead]
            exact hfl (by rwa [hd] at hall)
      · have hfirst : firstIn .sent ((s.echoEnded us f.addr version).switched f.addr version tn.pos).upd.dist n d' := by
          refine ⟨?_, hds, fun j x hj hx => ?_⟩
          · simp [getAt_modifyAt, hne, hd']
          · simp only [switched_upd, getAt_modifyAt, echoEnded_frame] at hx
            split at hx
            · obtain ⟨y, -, rfl⟩ := Option.map_eq_some_iff.1 hx
              exact nofun
            · rename_i hjt
              exact hbefore j x hj hjt hx
        have hother : ((s.echoEnded us f.addr version).switched f.addr version tn.pos).chain.entry d'.addr = some e' := by
          rw [entry_switched, if_neg hda', State.echoEnded, entry_echoed_other hda']
          exact he'
        have helig' : ((s.echoEnded us f.addr version).switched f.addr version tn.pos).eligible d'.addr = true := by
          rw [eligible_congr (s := s) (hother.trans he'.symm) (by simp) (by simp), helig]
        rw [engineEcho_switched hwin' hcur' hda htime' (by simpa using hv), nextSwitch_first hfirst helig' hmoved,
          if_neg (by simp [hab])] at hex
        refine goes_react _ hex ?_
        generalize hx : (s.echoEnded us f.addr version).switched f.addr version tn.pos = x at *
        have hchain : x.chain.state = s.chain.state ∧ x.chain.origin = s.chain.origin ∧ x.chain.hold = none
            ∧ x.chain.line = .idle ∧ x.chain.sleepCmd = s.chain.sleepCmd ∧ x.chain.wake = s.chain.wake
            ∧ x.chain.exTag = s.chain.exTag := by
          rw [← hx]; simp
        obtain ⟨hcst, hcor, hchold, hcline, hcsl, hcwk, hctag⟩ := hchain
        have hworks : s.EngineWorks x := by
          rw [← hx]
          exact ⟨by simp, by simp, by simp, hx ▸ hreq, by simp, by simp, hx ▸ haround, hx ▸ hcont, by simp, by simp, by simp, by simp⟩
        have hupd : x.upd = { s.upd with
            watches := s.upd.watches.filter fun w => decide (w.1 ≠ f.addr)
            dist := modifyAt s.upd.dist tn.pos fun d => { d with state := .switched, reported := some version.toNat }
            window := none
            turn := none
            link := .none } := by
          rw [← hx]; simp
        have hset := hworks.switches ((resting_iff s).1 hrest.1).1 (n := n) (d := d') (by rw [hupd]; exact hst)
          (by rw [hupd]; exact hpause) hfirst.1 (by simpa [Chain.down, hcst, hcor] using hdown) (hworks.awake hna) (hcsl.trans hsl) (hcwk.trans hwk)
        rw [hset]
        have hend : ∀ b, (State.finish s (x.switchGoesOut n d'.addr)).chain.entry b = (x.switchGoesOut n d'.addr).chain.entry b := by
          intro b
          simp [Chain.entry]
        refine ⟨by simp [hupd], by simpa [hupd] using hst, by simp, by simp [hupd], by simp, by simp, by simp [hctag, hupd], ?_, ?_, ?_, ?_⟩
        · rw [hend, entry_switchGoesOut, if_neg (Ne.symm hda')]
          exact hentry
        · rw [hend, entry_switchGoesOut, if_pos rfl, hother]
          rfl
        · exact sameAround_finish hworks.around
        · exact sameContactors_finish hworks.contactors

end Sys2Proof.Machine

namespace Sys2Proof.Machine

/-! ### A step's reactions leave the blocks around the engine (R94 to R191) -/

theorem settle_store (s : State) : s.settle.store = { s.store with queue := s.settle.store.queue } := by
  have h := settle_frame s
  cases hs : s.settle.store
  cases hb : s.store
  simp [hs, hb] at h ⊢
  simp [h]

theorem sameAround_settle {s x : State} (h : s.sameAround x) : s.sameAround x.settle := by
  obtain ⟨h1, h2, h3, h4, h5, h6, h7, h8, hs, hrest⟩ := h
  refine ⟨by simpa using h1, by simpa using h2, by simpa using h3, by simpa using h4, by simpa using h5, by simpa using h6,
    by simpa using h7, by simpa using h8, ?_, by simpa using hrest⟩
  rw [settle_store, hs]

theorem sameContactors_settle {s x : State} (h : s.sameContactors x) : s.sameContactors x.settle := by
  simpa [State.sameContactors, Sup.coils] using h

theorem nextRecord_store (n : Nat) (s : State) : (State.nextRecord n s).store = { s.store with queue := (State.nextRecord n s).store.queue } := by
  have h := nextRecord_frame n s
  cases hs : (State.nextRecord n s).store
  cases hb : s.store
  simp [hs, hb] at h ⊢
  simp [h]

theorem sameAround_nextRecord {s x : State} (h : s.sameAround x) (n : Nat) : s.sameAround (State.nextRecord n x) := by
  obtain ⟨h1, h2, h3, h4, h5, h6, h7, h8, hs, hrest⟩ := h
  refine ⟨by simpa using h1, by simpa using h2, by simpa using h3, by simpa using h4, by simpa using h5, by simpa using h6,
    by simpa using h7, by simpa using h8, ?_, by simpa using hrest⟩
  rw [nextRecord_store, hs]

theorem sameContactors_nextRecord {s x : State} (h : s.sameContactors x) (n : Nat) :
    s.sameContactors (State.nextRecord n x) := by
  simpa [State.sameContactors, Sup.coils] using h

/-! ### A block is sent (R157) -/

/-- The block of a turn is being sent to an address. -/
def State.blockSent (x : State) (tn : Turn) (a : Nat) : State := { x with
  chain.requests := []
  chain.hold := some (.firmware .block true)
  chain.line := .sending ⟨.block, a, x.chain.exTag, blockPayload x.upd.staging tn⟩
  chain.exTag := cycle 255 x.chain.exTag
  upd.turn := some { tn with attempts := tn.attempts + 1 }
  upd.link := .exchange }

/-- The engine has nothing to do at once in DISTRIBUTING while an exchange carries the record in turn, or while it is not
spoiled (R156, R159). -/
theorem updateReact_distributing {x : State} {tn : Turn} {d : DistRec} (hst : x.upd.state = .distributing) (hp : x.upd.pause = none)
    (hc : x.upd.current = some (tn, d)) (h : x.upd.link = .exchange ∨ x.spoiled d = false) : x.updateReact = x := by
  unfold State.updateReact
  rw [hp, hst, hc]
  rcases h with h | h <;> simp [h]

/-- The block request that waits alone is granted by a free chain that is not down (R157). -/
theorem settle_block {x : State} {tn : Turn} {d : DistRec} (hr : x.restsElse) (hst : x.upd.state = .distributing)
    (hp : x.upd.pause = none) (hc : x.upd.current = some (tn, d)) (hs : x.spoiled d = false)
    (hq : x.chain.requests = [.firmware .block]) (hf : x.chain.free = true) (hd : x.chain.down = false) :
    x.settle = x.blockSent tn d.addr := by
  have hna : x.chain.state ≠ .asleep := by simp_all [Chain.free]
  have ha : x.answerRequests = x := by simp [State.answerRequests, hd, hna]
  have hg : x.arbiterGrant = x.grant (.firmware .block) :=
    arbiterGrant_only hf hq (by simp) (by simp [Chain.grantable, hq, hd])
  have hnone : x.chain.requests.filter (· ≠ .firmware .block) = [] := by simp [hq]
  have he : x.grant (.firmware .block) = x.blockSent tn d.addr := by
    simp only [State.grant, State.grantFirmware, State.dropRequest, hc, hnone]
    rfl
  obtain ⟨-, hcd⟩ := getAt_current hc
  have hc' : (x.blockSent tn d.addr).upd.current = some ({ tn with attempts := tn.attempts + 1 }, d) := by
    simp [Update.current, State.blockSent, hcd]
  rw [settle_granted_still (still_of_update hr (updateReact_distributing hst hp hc (.inr hs))) ha ?_ ?_, hg, he]
  · rw [hg, he]
    exact still_of_update hr (updateReact_distributing hst hp hc' (.inl rfl))
  · rw [hg, he]
    exact .inl rfl

end Sys2Proof.Machine

namespace Sys2Proof.Machine

/-! ### The record in turn (R156 to R160) -/

/-- A state in which the engine may turn to its next exchange: what a frame of the engine rests on is as it was before the
step, and the chain is free, in UP or SUSPECT. -/
structure State.TurnFree (s x : State) : Prop where
  works : s.EngineWorks x
  header : x.upd.header = s.upd.header
  staging : x.upd.staging = s.upd.staging
  pause : x.upd.pause = none
  map : x.chain.map = s.chain.map
  survey : x.chain.survey = s.chain.survey
  exTag : x.chain.exTag = s.chain.exTag
  up : x.chain.state = .up ∨ x.chain.state = .suspect
  sleepCmd : x.chain.sleepCmd = false
  wake : x.chain.wake = .none

/-- The records, the turn and the engine's link are the engine's alone. -/
theorem State.TurnFree.turn {s x : State} (h : s.TurnFree x) (l : List DistRec) (tn : Option Turn) (k : EngineLink) (p : Bool) :
    s.TurnFree { x with upd.dist := l, upd.turn := tn, upd.link := k, upd.switchPending := p } :=
  ⟨⟨h.works.power, h.works.plan, h.works.awake, h.works.requests, h.works.hold, h.works.line, h.works.around,
    h.works.contactors, h.works.state, h.works.slip, h.works.slots, h.works.wf⟩,
    h.header, h.staging, h.pause, h.map, h.survey, h.exTag, h.up, h.sleepCmd, h.wake⟩

theorem State.TurnFree.awake {s x : State} (h : s.TurnFree x) : x.chain.state ≠ .asleep := by
  rcases h.up with hu | hu <;> simp [hu]

theorem State.TurnFree.notDown {s x : State} (h : s.TurnFree x) : x.chain.down = false := by
  rcases h.up with hu | hu <;> simp [Chain.down, hu]

theorem State.TurnFree.free {s x : State} (h : s.TurnFree x) : x.chain.free = true := by
  simp [Chain.free, h.works.hold, h.works.line, h.sleepCmd, h.wake, h.awake]

theorem State.TurnFree.rests {s x : State} (h : s.TurnFree x) (hr : s.restsElse) : x.restsElse :=
  restsElse_of_same hr h.works.power h.works.plan fun _ => h.awake

theorem State.TurnFree.eligible {s x : State} (h : s.TurnFree x) (a : Nat) : x.eligible a = s.eligible a :=
  eligible_congr (by rw [Chain.entry, h.map]; rfl) h.survey h.header

theorem State.TurnFree.spoiled {s x : State} (h : s.TurnFree x) (d : DistRec) : x.spoiled d = s.spoiled d := by
  unfold State.spoiled Chain.entry
  rw [h.map]

theorem spoiled_of_eligible {s : State} {d : DistRec} (hm : d.moved = false) (he : s.eligible d.addr = true) :
    s.spoiled d = false := by
  unfold State.eligible at he
  unfold State.spoiled
  cases hen : s.chain.entry d.addr with
  | none => simp [hm]
  | some e =>
    rw [hen] at he
    cases hst : e.state <;> simp_all
    rcases he.1.2 with hc | hc <;> simp [hc]

theorem sameAround_blockSent {s x : State} (h : s.sameAround x) (tn : Turn) (a : Nat) : s.sameAround (x.blockSent tn a) := h

/-- A block that the engine asks for is sent at once. -/
theorem State.TurnFree.sends {s x : State} (h : s.TurnFree x) (hr : s.restsElse) (hst : s.upd.state = .distributing)
    {tn : Turn} {d : DistRec} (hc : x.upd.current = some (tn, d)) (hs : s.spoiled d = false) :
    (x.askChain .block).settle = x.blockSent tn d.addr := by
  have hask : x.askChain .block = { x with upd.link := .waiting, chain.requests := [.firmware .block] } := by
    unfold State.askChain
    rw [request_new] <;> simp [h.works.requests]
  rw [hask, settle_block (tn := tn) (d := d)]
  · rfl
  · exact h.rests hr
  · exact h.works.state.trans hst
  · exact h.pause
  · exact hc
  · exact (h.spoiled d).trans hs
  · rfl
  · exact h.free
  · exact h.notDown

theorem State.TurnFree.goesOut {s x : State} (h : s.TurnFree x) (hst : s.upd.state = .distributing) (tn : Turn) (d : DistRec) :
    blockGoesOut s (State.finish s (x.blockSent tn d.addr)) d tn := by
  refine ⟨?_, by simp [State.blockSent], by simp [State.blockSent], by simp [State.blockSent], ?_⟩
  · simpa [State.blockSent] using h.works.state.trans hst
  · simp [State.blockSent, h.exTag, h.staging]

theorem countDist_zero {l : List DistRec} {st : DistState} : countDist l st = 0 ↔ ∀ d ∈ l, d.state ≠ st := by
  simp [countDist]

/-- The next record's turn, once the record in turn has ended. -/
theorem State.TurnFree.passes {s x : State} (h : s.TurnFree x) (hr : s.restsElse) (hw : s.mem.wf = true)
    (hst : s.upd.state = .distributing) : turnPasses s (State.finish s (State.nextRecord 24 x).settle) x.upd.dist := by
  refine ⟨fun n d hf hm he => ?_, fun hnone => ?_⟩
  · have hn : State.nextRecord 24 x = State.askChain { x.editDist n (fun d => { d with state := .sending }) with
        upd.turn := some ⟨n, false, 0, 0⟩ } .block := by
      simp only [State.nextRecord, firstDist_firstIn hf, Nat.zero_add, h.eligible, he, if_true]
    have hy := h.turn (modifyAt x.upd.dist n fun d => { d with state := .sending }) (some ⟨n, false, 0, 0⟩) x.upd.link
      x.upd.switchPending
    have hset := hy.sends hr hst (tn := ⟨n, false, 0, 0⟩) (d := { d with state := .sending })
      (by simp [Update.current, getAt_modifyAt, hf.1]) (spoiled_of_eligible (d := { d with state := .sending }) hm he)
    rw [show (State.nextRecord 24 x).settle = _ from (congrArg State.settle hn).trans hset]
    exact ⟨by simp [State.blockSent], hy.goesOut hst ⟨n, false, 0, 0⟩ d⟩
  · have hn : State.nextRecord 24 x = x.endDistribution := by simp only [State.nextRecord, firstDist_none hnone]
    have hy (p : Bool) := h.turn x.upd.dist none EngineLink.none p
    rw [hn]
    refine ⟨fun hns => ?_, fun ⟨d, hd, hds⟩ hno hnl => ?_, fun n d e hf hsup hm he hen => ?_⟩
    · obtain ⟨hset, hends, -⟩ := (hy x.upd.switchPending).works.ends hr hw .noneSent .refused (some .noneSent)
      have he : x.endDistribution = State.endUpdate { x with upd.turn := none, upd.link := .none } .noneSent .refused
          (some .noneSent) := by
        simp only [State.endDistribution, countDist_zero.2 hns, if_true]
      rw [he, show State.settle _ = _ from hset]
      exact ⟨by simp, hends⟩
    · have hcount : countDist x.upd.dist .sent ≠ 0 := fun hc => countDist_zero.1 hc d hd hds
      obtain ⟨hsst, -⟩ := h.works.contactors
      have hgate : x.sup.gate = false := by simp [Sup.gate, hsst, hno, hnl]
      have he : x.endDistribution = { x with upd.turn := none, upd.link := .none, upd.switchPending := true } := by
        simp only [State.endDistribution, if_neg hcount, hgate, Bool.false_eq_true, if_false]
      have hz := hy true
      have hset : State.settle { x with upd.turn := none, upd.link := .none, upd.switchPending := true }
          = { x with upd.turn := none, upd.link := .none, upd.switchPending := true } := by
        refine settle_still (still_of_update (hz.rests hr) ?_) (.inl hz.works.requests)
        simp [State.updateReact, h.pause, Update.current, hgate, h.works.state.trans hst]
      rw [he, hset]
      refine ⟨?_, by simp, by simp, by simp, ?_, ?_⟩
      · simpa using h.works.state.trans hst
      · simpa using h.works.hold
      · simpa using h.works.line
    · have hcount : countDist x.upd.dist .sent ≠ 0 := fun hc => countDist_zero.1 hc d (mem_of_getAt hf.1) hf.2.1
      obtain ⟨hsst, -⟩ := h.works.contactors
      have hgate : x.sup.gate = true := by simpa [Sup.gate, hsst] using hsup
      obtain ⟨y, hyx⟩ : ∃ y, y = State.toUpd { x with upd.turn := none, upd.link := .none, upd.switchPending := false } .switching :=
        ⟨_, rfl⟩
      have hchain : y.chain = x.chain := by rw [hyx]; simp [State.toUpd]
      have hupd : y.upd = { x.upd with turn := none, link := .none, switchPending := false, state := .switching } := by
        rw [hyx]; simp [State.toUpd]
      have hworks : ({ s with upd.state := .switching } : State).EngineWorks y := by
        have hz := (hy false).works
        rw [hyx]
        exact ⟨by simpa [State.toUpd] using hz.power, by simpa [State.toUpd] using hz.plan,
          by simpa [State.toUpd] using hz.awake, by simpa [State.toUpd] using hz.requests,
          by simpa [State.toUpd] using hz.hold, by simpa [State.toUpd] using hz.line,
          by simpa [State.toUpd, State.sameAround] using hz.around,
          by simpa [State.toUpd, State.sameContactors] using hz.contactors, by simp [State.toUpd],
          by simpa [State.toUpd] using hz.slip, by simpa [State.toUpd] using hz.slots,
          fun hw => raise_wf _ _ (hz.wf hw)⟩
      have hpend : y.attn.pending .updateState = true := by rw [hyx]; simp [State.toUpd]
      have helig : y.eligible d.addr = true := by
        rw [eligible_congr (s := x) (by rw [hchain]) (by rw [hchain]) (by rw [hupd]), h.eligible, he]
      have hn : x.endDistribution
          = State.askChain { y.outOfService d.addr with upd.turn := some ⟨n, false, 0, 0⟩ } .switch := by
        rw [← nextSwitch_first (fuel := 23) (s := y) (by rw [hupd]; exact hf) helig hm, hyx]
        simp only [State.endDistribution, if_neg hcount, hgate, if_true, State.enterSwitching]
      have hset := hworks.switches (n := n) (d := d) (restsElse_of_same hr rfl rfl id) (by rw [hupd]) (by rw [hupd]; exact h.pause)
        (by rw [hupd]; exact hf.1) (by rw [hchain]; exact h.notDown) (by rw [hchain]; exact h.awake)
        (by rw [hchain]; exact h.sleepCmd) (by rw [hchain]; exact h.wake)
      rw [hn, hset]
      refine ⟨by simp [hupd], ?_, by simp [hupd], by simp [hupd], by simp [hupd], by simp, by simp, ?_, ?_⟩
      · simpa using hpend
      · simp [hchain, hupd, h.exTag, h.header]
      · rw [show (State.finish s (y.switchGoesOut n d.addr)).chain.entry d.addr
            = (y.switchGoesOut n d.addr).chain.entry d.addr by simp [Chain.entry], entry_switchGoesOut, if_pos rfl,
          Chain.entry, hchain, h.map, show atAddr s.chain.map d.addr = some e from hen]
        rfl

end Sys2Proof.Machine

namespace Sys2Proof.Machine

/-! ### The end of a block's exchange (R158, R164) -/

/-- A BLOCK_ACK without a character error is judged by the engine (R158). -/
theorem blockAck_react {s : State} {f : Frame} {sent us : Us} {first : Nat} (hl : s.chain.line = .window f sent)
    (hk : f.kind = .block) (hw : first ≤ s.chain.windowOf f) (index crc : Half) (toggle : Bool) :
    exec (.blockAck ⟨us, first⟩ f.addr index toggle crc none) s = s.react ((s.atUs us).blockAcked index toggle crc) := by
  have haw := awaits_of_window hl
  rw [hk] at haw
  have hgood : answerError f f.addr none (s.chain.late f first) = false := by
    simp [answerError, Chain.late, hw]
  show execBlockAck ⟨us, first⟩ f.addr index toggle crc none s = _
  simp only [execBlockAck, haw, hgood, Bool.false_eq_true, if_false]

theorem blockAcked_live {s : State} {r : FwReq} {tn : Turn} {d : DistRec} (hh : s.chain.hold = some (.firmware r true))
    (hc : s.upd.current = some (tn, d)) (index crc : Half) (toggle : Bool) :
    s.blockAcked index toggle crc = s.endExchange.blockEnded (judgeBlock s.upd.staging tn index toggle crc) := by
  simp only [State.blockAcked, hh, hc]

theorem blockAcked_disregarded {s : State} {r : FwReq} (hh : s.chain.hold = some (.firmware r false)) (index crc : Half)
    (toggle : Bool) : s.blockAcked index toggle crc = s.endExchange := by
  simp only [State.blockAcked, hh]

theorem judgeBlock_acked {l : List Byte} {tn : Turn} {index crc : Half} (hi : index.toNat = tn.block)
    (hc : crc = crc16 (blockData l tn.block)) : judgeBlock l tn index tn.toggle crc = .acked := by
  simp [judgeBlock, hi, hc]

theorem judgeBlock_failed {l : List Byte} {tn : Turn} {index : Half} {toggle : Bool}
    (h : index.toNat ≠ tn.block ∨ toggle ≠ tn.toggle) (crc : Half) : judgeBlock l tn index toggle crc = .failed :=
  if_pos h

theorem judgeBlock_mismatch {l : List Byte} {tn : Turn} {index crc : Half} (hi : index.toNat = tn.block)
    (hc : crc ≠ crc16 (blockData l tn.block)) : judgeBlock l tn index tn.toggle crc = .mismatch := by
  simp [judgeBlock, hi, hc]

/-- The records once the exchange of a block has an outcome, before they follow it. -/
def ackedDist (l : List DistRec) (tn : Turn) (o : BlockOutcome) : List DistRec :=
  if o = .acked then modifyAt l tn.pos fun d => { d with lastAck := some tn.block } else l

/-- The engine has the records and the turn of a list, and no exchange or request. -/
def State.inTurn (x : State) (l : List DistRec) (tn : Option Turn) : State :=
  { x with upd.link := .none, upd.dist := l, upd.turn := tn }

@[simp] theorem inTurn_frame (x : State) (l : List DistRec) (tn : Option Turn) :
    (x.inTurn l tn).upd = { x.upd with link := .none, dist := l, turn := tn } ∧ (x.inTurn l tn).chain = x.chain :=
  ⟨rfl, rfl⟩

theorem State.TurnFree.inTurn {s x : State} (h : s.TurnFree x) (l : List DistRec) (tn : Option Turn) :
    s.TurnFree (x.inTurn l tn) := h.turn l tn .none x.upd.switchPending

theorem blockEnded_aborts {x : State} {tn : Turn} {d : DistRec} (hc : x.upd.current = some (tn, d))
    (ha : x.upd.aborting = true) (o : BlockOutcome) :
    x.blockEnded o = (x.inTurn (failRest .aborted (ackedDist x.upd.dist tn o)) (some tn)).endAborted := by
  obtain ⟨ht, -⟩ := getAt_current hc
  have hx (l : List DistRec) : x.inTurn l (some tn) = { x with upd.link := .none, upd.dist := l } := by
    rw [← ht]; rfl
  unfold State.blockEnded
  rw [hc, hx]
  refine (if_pos (by simp [ha])).trans ?_
  unfold ackedDist
  cases o <;> rfl

/-- An acknowledged block is followed by the next one, or its record is SENT. -/
theorem blockEnded_acked {x : State} {tn : Turn} {d : DistRec} (hc : x.upd.current = some (tn, d))
    (ha : x.upd.aborting = false) (hs : x.spoiled d = false) :
    x.blockEnded .acked = if tn.block + 1 < blockCount x.upd.header.length then
        (x.inTurn (modifyAt x.upd.dist tn.pos fun d => { d with lastAck := some tn.block })
          (some ⟨tn.pos, !tn.toggle, tn.block + 1, 0⟩)).askChain .block
      else State.nextRecord 24
        (x.inTurn (modifyAt x.upd.dist tn.pos fun d => { d with lastAck := some tn.block, state := .sent }) (some tn)) := by
  obtain ⟨ht, -⟩ := getAt_current hc
  unfold State.blockEnded
  rw [hc]
  refine (if_neg (by simp [ha])).trans ((if_neg (by simp [hs])).trans ?_)
  simp only [if_true, State.editDist, modifyAt_modifyAt]
  rw [← ht]
  rfl

/-- A block without an acknowledgement is sent again, up to four sends; after them its record is FAILED with NO_ACK. -/
theorem blockEnded_resent {x : State} {tn : Turn} {d : DistRec} (hc : x.upd.current = some (tn, d))
    (ha : x.upd.aborting = false) (hs : x.spoiled d = false) {o : BlockOutcome} (ho : o ≠ .acked) :
    x.blockEnded o = if tn.attempts < 4 then
        (x.inTurn x.upd.dist
          (some { tn with toggle := if o = .mismatch then !tn.toggle else tn.toggle })).askChain .block
      else State.nextRecord 24
        (x.inTurn (modifyAt x.upd.dist tn.pos fun d => { d with state := .failed, cause := some .noAck }) (some tn)) := by
  obtain ⟨ht, -⟩ := getAt_current hc
  have hx (l : List DistRec) : x.inTurn l (some tn) = { x with upd.link := .none, upd.dist := l } := by
    rw [← ht]; rfl
  unfold State.blockEnded
  rw [hc, hx]
  refine (if_neg (by simp [ha])).trans ((if_neg (by simp [hs])).trans ?_)
  cases o with
  | acked => exact absurd rfl ho
  | failed =>
    exact congrArg (fun z => if tn.attempts < 4 then State.askChain z .block else State.nextRecord 24 _) (hx x.upd.dist).symm
  | mismatch => rfl

/-- What is left of a step in which a block is sent. -/
theorem State.TurnFree.sends_ends {s y : State} (h : s.TurnFree y) (hr : s.restsElse) (hst : s.upd.state = .distributing)
    {tn : Turn} {d e : DistRec} (hc : y.upd.current = some (tn, e)) (he : e.addr = d.addr) (hs : s.spoiled e = false) :
    blockGoesOut s (State.finish s (y.askChain .block).settle) d tn
      ∧ (State.finish s (y.askChain .block).settle).upd.dist = y.upd.dist
      ∧ s.sameAround (State.finish s (y.askChain .block).settle)
      ∧ s.sameContactors (State.finish s (y.askChain .block).settle) := by
  rw [h.sends hr hst hc hs, he]
  exact ⟨h.goesOut hst tn d, by simp [State.blockSent], sameAround_finish h.works.around, sameContactors_finish h.works.contactors⟩

/-- What is left of a step in which the next record's turn comes. -/
theorem State.TurnFree.passes_ends {s y : State} (h : s.TurnFree y) (hr : s.restsElse) (hw : s.mem.wf = true)
    (hst : s.upd.state = .distributing) :
    turnPasses s (State.finish s (State.nextRecord 24 y).settle) y.upd.dist
      ∧ s.sameAround (State.finish s (State.nextRecord 24 y).settle)
      ∧ s.sameContactors (State.finish s (State.nextRecord 24 y).settle) :=
  ⟨h.passes hr hw hst, sameAround_finish (sameAround_settle (sameAround_nextRecord h.works.around 24)),
    sameContactors_finish (sameContactors_settle (sameContactors_nextRecord h.works.contactors 24))⟩

/-- A block without an acknowledgement: it is sent again, or the next record's turn comes. -/
theorem State.TurnFree.resends {s x : State} (h : s.TurnFree x) (hr : s.restsElse) (hw : s.mem.wf = true)
    (hst : s.upd.state = .distributing) {tn : Turn} {d : DistRec} (hu : x.upd = s.upd) (hc : s.upd.current = some (tn, d))
    (ha : s.upd.aborting = false) (hs : s.spoiled d = false) {o : BlockOutcome} (ho : o ≠ .acked) :
    (tn.attempts < 4 → blockGoesOut s (State.finish s (x.blockEnded o).settle) d
        { tn with toggle := if o = .mismatch then !tn.toggle else tn.toggle }
        ∧ (State.finish s (x.blockEnded o).settle).upd.dist = s.upd.dist)
      ∧ (4 ≤ tn.attempts → turnPasses s (State.finish s (x.blockEnded o).settle)
        (modifyAt s.upd.dist tn.pos fun d => { d with state := .failed, cause := some .noAck }))
      ∧ s.sameAround (State.finish s (x.blockEnded o).settle) ∧ s.sameContactors (State.finish s (x.blockEnded o).settle) := by
  obtain ⟨-, hd⟩ := getAt_current hc
  rw [blockEnded_resent (hu ▸ hc) (hu ▸ ha) ((h.spoiled d).trans hs) ho, hu]
  split
  · rename_i hlt
    obtain ⟨hgo, hdist, har, hco⟩ := (h.inTurn s.upd.dist
      (some { tn with toggle := if o = .mismatch then !tn.toggle else tn.toggle })).sends_ends hr hst (d := d) (e := d)
      (by simp [Update.current, hd]; rfl) rfl hs
    exact ⟨fun _ => ⟨hgo, hdist⟩, fun hle => absurd hlt (by omega), har, hco⟩
  · rename_i hge
    obtain ⟨hp, har, hco⟩ := (h.inTurn
      (modifyAt s.upd.dist tn.pos fun d => { d with state := .failed, cause := some .noAck }) (some tn)).passes_ends hr hw hst
    exact ⟨fun hlt => absurd hlt hge, fun _ => hp, har, hco⟩

/-- What the end of an exchange leaves for the engine's next step. -/
theorem engineWorks_endExchange {s : State} (hq : s.chain.requests = []) (us : Us) : s.EngineWorks (State.endExchange { s with conv.us := us }) :=
  ⟨rfl, rfl, id, hq, rfl, rfl, sameAround_self s, sameContactors_self s, rfl, rfl, rfl, id⟩

theorem turnFree_endExchange {s : State} (hq : s.chain.requests = []) (hp : s.upd.pause = none)
    (hu : s.chain.state = .up ∨ s.chain.state = .suspect) (hsl : s.chain.sleepCmd = false) (hwk : s.chain.wake = .none)
    (us : Us) : s.TurnFree (State.endExchange { s with conv.us := us }) :=
  ⟨engineWorks_endExchange hq us, rfl, rfl, hp, rfl, rfl, rfl, hu, hsl, hwk⟩

theorem countError_errs {s : State} {us u : Us} (hs : s.chain.state = .up) :
    ((State.endExchange { s with conv.us := u }).countError us).chain.errs
      = (s.chain.errs.filter fun t => decide (elapsed us t < 10000)) ++ [us] := by
  unfold State.countError
  rw [show (State.endExchange { s with conv.us := u }).chain.state = .up from hs]
  simp only
  split <;> rfl

theorem countError_active {s : State} (h : s.chain.state = .up ∨ s.chain.state = .suspect) (us : Us) :
    (s.countError us).chain.state = .up ∨ (s.countError us).chain.state = .suspect := by
  unfold State.countError
  rcases h with h | h <;> rw [h] <;> simp only
  · split
    · exact .inl h
    · exact .inr rfl
  · exact .inr h

theorem turnFree_countError {s x : State} (h : s.TurnFree x) (us : Us) : s.TurnFree (x.countError us) := by
  have hup := countError_active h.up us
  obtain ⟨⟨hpow, hplan, -, hq, hh, hl, har, hco, hst, hsl, hslots, hwf⟩, hhd, hsta, hp, hm, hsu, he, -, hs, hw⟩ := h
  refine ⟨⟨by simpa using hpow, by simpa using hplan, fun _ hc => ?_, by simpa using hq, by simpa using hh, by simpa using hl,
    by simpa [State.sameAround] using har, by simpa [State.sameContactors] using hco, by simpa using hst, by simpa using hsl,
    by simpa using hslots, fun h => by simpa using hwf h⟩, by simpa using hhd, by simpa using hsta, by simpa using hp,
    by simpa using hm, by simpa using hsu, by simpa using he, hup, by simpa using hs, by simpa using hw⟩
  rcases hup with h | h <;> exact nomatch h.symm.trans hc

/-- Settles O40. -/
theorem blockAcknowledged : Obligations.BlockAcknowledged := by
  unfold Obligations.BlockAcknowledged
  intro us sent first f tn d live s hawake hwin hb hp hl hk hh
  have hr := restsElse_of_awake hawake hb
  have hex (index crc : Half) (toggle : Bool) := blockAck_react (us := us) hl hk hwin index crc toggle
  have hlive (hlv : live = true) (hc : s.upd.current = some (tn, d)) (index crc : Half) (toggle : Bool) :
      exec (.blockAck ⟨us, first⟩ f.addr index toggle crc none) s
        = s.react ((s.atUs us).endExchange.blockEnded (judgeBlock s.upd.staging tn index toggle crc)) := by
    rw [hex, blockAcked_live (r := .block) (by rw [← hlv]; simpa using hh) (by simpa using hc)]
    simp
  have hdead (hlv : live = false) (index crc : Half) (toggle : Bool) :
      exec (.blockAck ⟨us, first⟩ f.addr index toggle crc none) s = s.react (s.atUs us).endExchange := by
    rw [hex, blockAcked_disregarded (r := .block) (by rw [← hlv]; simpa using hh)]
  have hcur (hc : s.upd.current = some (tn, d)) : (s.atUs us).endExchange.upd.current = some (tn, d) := by simpa using hc
  refine ⟨?_, ?_, ?_, ?_, ?_⟩
  · intro hlv hq hc hst hab hs hup hsl hwk hlt index crc hi hcrc
    have hx : s.TurnFree (s.atUs us).endExchange := turnFree_endExchange hq hp (.inl hup) hsl hwk _
    obtain ⟨-, hd⟩ := getAt_current hc
    refine goes_react _ (hlive hlv hc index crc tn.toggle) ?_
    rw [judgeBlock_acked hi hcrc, blockEnded_acked (hcur hc) (by simpa using hab) ((hx.spoiled d).trans hs),
      if_pos (by simpa using hlt), show (s.atUs us).endExchange.upd.dist = s.upd.dist from rfl]
    obtain ⟨⟨h1, h2, h3, h4, h5⟩, hdist, har, hco⟩ := (hx.inTurn
      (modifyAt s.upd.dist tn.pos fun d => { d with lastAck := some tn.block })
      (some ⟨tn.pos, !tn.toggle, tn.block + 1, 0⟩)).sends_ends hr hst (d := d) (tn := ⟨tn.pos, !tn.toggle, tn.block + 1, 0⟩)
      (e := { d with lastAck := some tn.block }) (by simp [Update.current, getAt_modifyAt, hd]) rfl hs
    exact ⟨hdist, h2, h4, h3, h1, h5, by simp, har, hco⟩
  · intro hlv hq hc hw hst hab index crc hi hcrc
    have hx : s.EngineWorks ((s.atUs us).endExchange.inTurn (failRest .aborted (ackedDist s.upd.dist tn .acked)) (some tn)) := by
      obtain ⟨hpow, hplan, haw, hreq, hhold, hline, har, hco, hst, hsl, hslots, hwf⟩ := engineWorks_endExchange hq (usAfter s us)
      exact ⟨hpow, hplan, haw, hreq, hhold, hline, har, hco, hst, hsl, hslots, hwf⟩
    refine goes_react _ (hlive hlv hc index crc tn.toggle) ?_
    rw [judgeBlock_acked hi hcrc, blockEnded_aborts (hcur hc) (by simpa using hab)]
    obtain ⟨hset, hends, -, -, har, hco⟩ := hx.ends hr hw .aborted .aborted none
    rw [State.endAborted, show (s.atUs us).endExchange.upd.dist = s.upd.dist by simp, hset]
    refine ⟨by simp [ackedDist, failRest], hends, by simp, fun k hk hi => ?_, har, hco⟩
    refine (endUpdate_aborts (hx.wf hw) (by simpa using hk) ?_ .aborted .aborted none).imp (fun h => ?_) (fun h => by simpa using h)
    · simpa [State.inFlight, hx.slots] using hi
    · exact showsDone_finish (endUpdate_wf _ _ _ _ (hx.wf hw)) hi.1 h
  · intro hlv hq hcalm hrest index crc toggle
    exact next_react (hdead hlv index crc toggle) (restful_of_idle (resting_of_same hrest.1 rfl rfl rfl rfl rfl rfl rfl rfl) hq (by simp))
      (calm_of_same hcalm rfl rfl rfl rfl) (by simp [State.shownAlike, chainBytes])
  · intro hlv hq hc hst _ hs hup hsl hwk index crc toggle
    refine goes_react _ (hdead hlv index crc toggle) ?_
    rw [settle_block (x := (s.atUs us).endExchange) (tn := tn) (d := d) (restsElse_of_same hr rfl rfl id) hst hp hc hs hq
      (by simp [Chain.free, hup, hsl, hwk]) (by simp [Chain.down, hup])]
    refine ⟨by simp [State.blockSent], by simp [State.blockSent], by simp [State.blockSent], by simp [State.blockSent],
      by simp [State.blockSent], sameAround_finish (sameAround_self s), sameContactors_finish (sameContactors_self s)⟩
  · intro hlv hw hq hc hst hab hs hup hsl hwk
    have hx : s.TurnFree (s.atUs us).endExchange := turnFree_endExchange hq hp hup hsl hwk _
    refine ⟨?_, ?_, ?_, ?_⟩
    · intro index crc hi hcrc hle
      refine goes_react _ (hlive hlv hc index crc tn.toggle) ?_
      rw [judgeBlock_acked hi hcrc, blockEnded_acked (hcur hc) (by simpa using hab) ((hx.spoiled d).trans hs),
        if_neg (by simpa using hle), show (s.atUs us).endExchange.upd.dist = s.upd.dist from rfl]
      obtain ⟨hpass, har, hco⟩ := (hx.inTurn
        (modifyAt s.upd.dist tn.pos fun d => { d with lastAck := some tn.block, state := .sent }) (some tn)).passes_ends hr hw hst
      exact ⟨hpass, by simp, har, hco⟩
    · intro c failedAt hf
      have hreact := answerFails_react hl hf (by simp [hk])
      have hz := turnFree_countError (turnFree_endExchange hq hp hup hsl hwk failedAt) failedAt
      obtain ⟨hsend, hpass, har, hco⟩ := hz.resends hr hw hst (by simp) hc hab hs (o := .failed) (by simp)
      have hfail : State.answerFailed { s with conv.us := failedAt } failedAt f
          = ((State.endExchange { s with conv.us := failedAt }).countError failedAt).blockEnded .failed := by
        simp only [State.answerFailed, hh, hlv, State.firmwareFailed]
      refine goes_react _ (hfail ▸ hreact) ⟨hsend, hpass, fun hsus => ?_, fun hup => ?_, har, hco⟩
      · rw [countError_suspect (by simpa using hsus)]
        simp
      · simpa using countError_errs (u := failedAt) (us := failedAt) hup
    · intro index crc toggle hne
      refine goes_react _ (hlive hlv hc index crc toggle) ?_
      rw [judgeBlock_failed hne]
      exact hx.resends hr hw hst (by simp) hc hab hs (o := .failed) (by simp)
    · intro index crc hi hcrc
      refine goes_react _ (hlive hlv hc index crc tn.toggle) ?_
      rw [judgeBlock_mismatch hi hcrc]
      exact hx.resends hr hw hst (by simp) hc hab hs (o := .mismatch) (by simp)

end Sys2Proof.Machine

namespace Sys2Proof.Machine

/-! ### What the reactions of a step keep of its events and of the records that rolled back -/

/-- Every event that was sent stands, and so does every record in ROLLBACK. -/
def State.Keeps (s t : State) : Prop :=
  s.ev.inbox ⊆ t.ev.inbox
    ∧ ∀ n d, getAt s.upd.dist n = some d → d.state = .rollback → getAt t.upd.dist n = some d

theorem State.Keeps.trans {s t u : State} (h : s.Keeps t) (k : t.Keeps u) : s.Keeps u :=
  ⟨fun _ he => k.1 (h.1 he), fun n d hd hr => k.2 n d (h.2 n d hd hr) hr⟩

theorem keeps_of_same {s t : State} (h1 : t.ev.inbox = s.ev.inbox) (h2 : t.upd.dist = s.upd.dist) :
    s.Keeps t :=
  ⟨fun _ he => h1 ▸ he, fun _ _ hd _ => h2 ▸ hd⟩

theorem State.Keeps.after {s t u : State} (h : s.Keeps t) (h1 : u.ev.inbox = t.ev.inbox)
    (h2 : u.upd.dist = t.upd.dist) : s.Keeps u :=
  h.trans (keeps_of_same h1 h2)

theorem keeps_sendStill (s : State) (k : EventKind) (c : Nat) (d : Detail) : s.Keeps (s.sendStill k c d) :=
  ⟨fun _ he => List.mem_append_left _ he, fun _ _ hd _ => by simpa using hd⟩

theorem keeps_failDist {s : State} {pos : Nat} {d : DistRec} (hd : getAt s.upd.dist pos = some d) (hr : d.state ≠ .rollback)
    (c : DistCause) : s.Keeps (s.failDist pos c) := by
  refine ⟨fun _ he => he, fun n x hx hxr => ?_⟩
  have hne : n ≠ pos := by
    rintro rfl
    exact hr ((Option.some.inj (hx.symm.trans hd)) ▸ hxr)
  simpa [State.failDist, State.editDist, getAt_modifyAt, hne] using hx

theorem keeps_editDist {s : State} {pos : Nat} {d : DistRec} (hd : getAt s.upd.dist pos = some d) (hr : d.state ≠ .rollback)
    (f : DistRec → DistRec) : s.Keeps (s.editDist pos f) := by
  refine ⟨fun _ he => he, fun n x hx hxr => ?_⟩
  have hne : n ≠ pos := by
    rintro rfl
    exact hr ((Option.some.inj (hx.symm.trans hd)) ▸ hxr)
  simpa [State.editDist, getAt_modifyAt, hne] using hx

theorem firstDist_some {st : DistState} {l : List DistRec} {i k : Nat} {d : DistRec} (h : firstDist st i l = some (k, d)) :
    ∃ n, k = i + n ∧ getAt l n = some d ∧ d.state = st := by
  induction l generalizing i with
  | nil => exact nomatch h
  | cons x l ih =>
    unfold firstDist at h
    split at h
    · rename_i hx
      cases h
      exact ⟨0, rfl, rfl, hx⟩
    · obtain ⟨n, rfl, hn⟩ := ih h
      exact ⟨n + 1, by omega, hn⟩

/-- The first record in a state is at its position. -/
theorem firstDist_getAt {st : DistState} {l : List DistRec} {k : Nat} {d : DistRec} (h : firstDist st 0 l = some (k, d)) :
    getAt l k = some d ∧ d.state = st := by
  obtain ⟨n, rfl, hn⟩ := firstDist_some h
  rwa [Nat.zero_add]

theorem keeps_endUpdate (s : State) (o : UpdOutcome) (code : ResultCode) (cause : Option ResultCause) :
    s.Keeps (s.endUpdate o code cause) := by
  refine ⟨fun e he => ?_, fun n d hd _ => by simpa using hd⟩
  rw [endUpdate_eq]
  simp only [completeAll_frame, slipEnded_frame]
  exact List.mem_append_left _ (by simpa [State.toUpd] using he)

theorem keeps_endSwitching (s : State) : s.Keeps s.endSwitching := by
  unfold State.endSwitching
  simp only
  split
  · split
    · exact (keeps_of_same (by rfl) (by rfl)).trans (keeps_endUpdate _ _ _ _)
    · exact keeps_of_same (by simp) (by simp)
  · exact keeps_endUpdate _ _ _ _

theorem keeps_nextSwitch (k : Nat) (s : State) : s.Keeps (State.nextSwitch k s) := by
  induction k generalizing s with
  | zero => exact keeps_endSwitching s
  | succ k ih =>
    unfold State.nextSwitch
    split
    · exact keeps_endSwitching s
    · rename_i pos d hf
      obtain ⟨hd, hds⟩ := firstDist_getAt hf
      split
      · exact keeps_of_same (by simp) (by simp)
      · exact (keeps_failDist hd (by simp [hds]) _).trans (ih _)

theorem keeps_toUpd (s : State) (st : UpdState) : s.Keeps (s.toUpd st) := keeps_of_same (by simp [State.toUpd]) (by simp [State.toUpd])

theorem keeps_enterSwitching (s : State) : s.Keeps s.enterSwitching :=
  ((keeps_of_same (by rfl) (by rfl)).trans (keeps_toUpd { s with upd.switchPending := false } .switching)).trans
    (keeps_nextSwitch 24 _)

theorem keeps_endDistribution (s : State) : s.Keeps s.endDistribution := by
  have h0 : s.Keeps { s with upd.turn := none, upd.link := .none } := keeps_of_same (by simp) (by simp)
  unfold State.endDistribution
  simp only
  split
  · exact h0.trans (keeps_endUpdate _ _ _ _)
  · split
    · exact h0.trans (keeps_enterSwitching _)
    · exact h0.after (by simp) (by simp)

theorem keeps_nextRecord (k : Nat) (s : State) : s.Keeps (State.nextRecord k s) := by
  induction k generalizing s with
  | zero => exact keeps_endDistribution s
  | succ k ih =>
    unfold State.nextRecord
    split
    · exact keeps_endDistribution s
    · rename_i pos d hf
      obtain ⟨hd, hds⟩ := firstDist_getAt hf
      split
      · exact (keeps_editDist hd (by simp [hds]) fun d => { d with state := .sending }).after (by simp) (by simp)
      · exact (keeps_failDist hd (by simp [hds]) _).trans (ih _)

theorem keeps_failSpoiled {s : State} {t : Turn} {d : DistRec} (hc : s.upd.current = some (t, d)) (hs : d.state = .sending) :
    s.Keeps (s.failSpoiled t) := by
  obtain ⟨-, hd⟩ := getAt_current hc
  have h1 := (State.Keeps.after (u := State.dropFirmware { s.failDist t.pos .notEligible with upd.pause := none, upd.link := .none })
    (keeps_failDist hd (by simp [hs]) .notEligible) (by simp) (by simp)).trans (keeps_nextRecord 24 _)
  unfold State.failSpoiled
  simp only
  split
  · exact h1.after (by simp) (by simp)
  · exact h1

theorem keeps_updateReact (s : State) : s.Keeps s.updateReact := by
  unfold State.updateReact
  split
  · simp only
    split <;> exact keeps_of_same (by simp) (by simp)
  · split
    · split
      · rename_i t d hc
        split
        · rename_i h
          simp only [Bool.and_eq_true, decide_eq_true_eq] at h
          exact keeps_failSpoiled hc h.1.1
        · exact keeps_of_same (by simp) (by simp)
      · split
        · exact keeps_enterSwitching s
        · exact keeps_of_same (by simp) (by simp)
    · exact keeps_of_same (by simp) (by simp)

/-- The part is set for RUN: the converter and the counts of the blocks begin again, and a survey is asked for (R120). -/
def State.runPrepared (s : State) : State :=
  let s1 := State.restartConverter { s with power.state := .run }
  State.clearSilence { (if s1.chain.state = .surveying then s1 else s1.requestSurvey) with
    sup.lapsed := false
    plan.high := 0
    plan.low := 0
    plan.temp := 0
    plan.implausible := 0
    plan.fresh := none
    plan.quiet := false
    plan.patrolReport := none
    conv.snapTimer := 0 }

theorem enterRun_eq (s : State) (r : Option PatrolResult) : s.enterRun r = State.judgeAttn
    { (s.runPrepared.sendStill .fullWake 0 (.fullWake s.power.pend s.runPrepared.power.estimate.detail)).raise .wakeReason with
      power.wakeOut := true
      power.wakeOutAt :=
        ((s.runPrepared.sendStill .fullWake 0 (.fullWake s.power.pend s.runPrepared.power.estimate.detail)).raise .wakeReason).now
      power.lastWake := some (s.power.pend, r)
      power.pend := 0
      power.target := .none
      power.patrol := none
      power.returning := none } := rfl

@[simp] theorem runPrepared_kept (s : State) : s.runPrepared.ev.inbox = s.ev.inbox ∧ s.runPrepared.upd = s.upd := by
  unfold State.runPrepared
  simp only [clearSilence_frame]
  split <;> simp

theorem keeps_enterRun (s : State) (r : Option PatrolResult) : s.Keeps (s.enterRun r) := by
  have h : s.Keeps s.runPrepared := keeps_of_same (by simp) (by simp)
  rw [enterRun_eq]
  exact (h.trans (keeps_sendStill _ .fullWake 0 (.fullWake s.power.pend s.runPrepared.power.estimate.detail))).after (by simp) (by simp)

theorem keeps_patrolReact (s : State) : s.Keeps s.patrolReact := by
  have hend (s : State) (r : PatrolResult) : s.Keeps (s.endPatrol r) := by
    have hreturn : s.Keeps s.beginReturn := keeps_of_same (by simp) (by simp)
    cases r with
    | pass =>
      simp only [State.endPatrol]
      split
      · exact keeps_enterRun s none
      · exact hreturn
    | breach => exact keeps_enterRun s _
    | chainFail =>
      simp only [State.endPatrol]
      split
      · exact keeps_enterRun s _
      · exact hreturn
  unfold State.patrolReact
  split
  · exact keeps_of_same (by simp) (by simp)
  · split
    · split
      · exact keeps_of_same (by simp) (by simp)
      · exact State.Keeps.trans (keeps_of_same (by simp) (by simp)) (hend _ _)
    · simp only
      split <;> exact keeps_of_same (by simp) (by simp)
    · exact keeps_of_same (by simp) (by simp)

theorem keeps_round (s : State) : s.Keeps s.round := by
  have hans (s : State) : s.Keeps s.answerRequests := keeps_of_same (by simp) (by simp)
  have hret (s : State) : s.Keeps s.returnReact := keeps_of_same (by simp) (by simp)
  have hent (s : State) : s.Keeps s.entryReact := keeps_of_same (by simp) (by simp)
  have harb (s : State) : s.Keeps s.arbiterGrant := keeps_of_same (by simp) (by simp)
  have hburst : s.Keeps s.burstReact := keeps_of_same (by simp) (by simp)
  exact (hburst.trans ((hans _).trans ((keeps_patrolReact _).trans ((hret _).trans ((keeps_updateReact _).trans
    ((hent _).trans ((hans _).trans (harb _))))))))

theorem keeps_settle (s : State) : s.Keeps s.settle :=
  (((keeps_round s).trans (keeps_round _)).trans (keeps_round _)).trans (keeps_round _)

end Sys2Proof.Machine

namespace Sys2Proof.Machine

/-! ### The timers of an update (R159, R161, R162) -/

theorem rollBack_store (s : State) (w : SwitchWindow) (tn : Turn) (d : DistRec) :
    (s.rollBack w tn d).store = { s.store with queue := (s.rollBack w tn d).store.queue } := by
  have h := rollBack_frame s w tn d
  cases hs : (s.rollBack w tn d).store
  cases hb : s.store
  simp [hs, hb] at h ⊢
  simp [h]

theorem sameAround_rollBack (s : State) (w : SwitchWindow) (tn : Turn) (d : DistRec) : s.sameAround (s.rollBack w tn d) := by
  refine ⟨by simp, by simp, by simp, by simp, by simp, by simp, by simp, by simp, rollBack_store s w tn d, by simp⟩

theorem rollBack_handsBack (s : State) (w : SwitchWindow) (tn : Turn) (d : DistRec) :
    (s.rollBack w tn d).chain.returning = s.chain.returning.filter (fun r => decide (r.1 ≠ d.addr)) ++ [(d.addr, s.now)]
      ∧ (s.rollBack w tn d).upd.watches = s.upd.watches.filter (fun r => decide (r.1 ≠ d.addr)) ++ [(d.addr, s.now)] := by
  constructor
  · simp [State.rollBack, State.handBack, State.editDist, State.now]
  · simp [State.rollBack, State.handBack, State.editDist, State.now]

theorem pauseLimit_react {s : State} {tm : Ms} (hp : s.upd.pause = some tm) (h : 10000 ≤ elapsed s.now tm) :
    exec .chainPauseLimit s = s.react s.pauseLimit := by
  show execChainPauseLimit s = _
  simp [execChainPauseLimit, hp, tenSeconds, h]

theorem switchProbe_react {s : State} {w : SwitchWindow} (hw : s.upd.window = some w) (hn : w.probes < 9)
    (h : 200 * (w.probes + 1) ≤ elapsed s.now w.since) (hlt : elapsed s.now w.since < 2000) :
    exec .switchProbe s
      = s.react (State.request { s with upd.window := some { w with probes := w.probes + 1 } } (.firmware .probe)) := by
  show execSwitchProbe s = _
  simp [execSwitchProbe, hw, probeCount, probeSpacing, switchWindow, hn, h, hlt]

theorem switchWindowEnd_react {s : State} {w : SwitchWindow} {tn : Turn} {d : DistRec} (hw : s.upd.window = some w)
    (hc : s.upd.current = some (tn, d)) (h : 2000 ≤ elapsed s.now w.since) :
    exec .switchWindowEnd s = s.react (s.rollBack w tn d) := by
  show execSwitchWindowEnd s = _
  simp [execSwitchWindowEnd, hw, hc, switchWindow, h]

theorem returnLimit_react {s : State} {a : Nat} {tm : Ms}
    (hf : s.upd.watches.find? (fun w => decide (w.1 = a)) = some (a, tm)) (h : 10000 ≤ elapsed s.now tm) :
    exec (.returnLimit a) s
      = s.react (State.backInService { s with upd.watches := s.upd.watches.filter fun w => decide (w.1 ≠ a) } a) := by
  show execReturnLimit a s = _
  simp only [execReturnLimit, hf, tenSeconds, passed_iff, h, if_true]

/-- A module that is back in service was OUT_OF_SERVICE, not FAULTED. -/
theorem anyFaulted_backInService (m : List ModuleEntry) (a : Nat) :
    anyFaulted (modifyAddr m a fun e =>
      if e.state = .outOfService then { e with state := .inService, miss := 0, cause := none } else e) = anyFaulted m := by
  by_cases h : ∃ e, atAddr m a = some e ∧ e.state = .outOfService
  · obtain ⟨e, he, ho⟩ := h
    refine anyFaulted_modifyAddr_same fun x hx => ?_
    cases hx.symm.trans he
    simp [ho]
  · rw [modifyAddr_same fun x hx => if_neg fun ho => h ⟨x, hx, ho⟩]

/-- At the limit of a chain pause the update has ended, and the module in turn of a switching is back (R159, R161). -/
theorem pauseLimit_eq {s : State} (h : s.upd.state = .distributing ∨ s.upd.state = .switching) :
    ∃ y : State, s.pauseLimit = y.endUpdate .chainLost .refused (some .chainLost)
      ∧ y.power = s.power ∧ y.plan = s.plan ∧ y.sup = s.sup ∧ y.chain.state = s.chain.state
      ∧ y.chain.requests = s.chain.requests ∧ y.upd.state = s.upd.state
      ∧ (s.upd.state = .distributing → y.upd.dist = failRest .chainLost s.upd.dist)
      ∧ (s.upd.state = .switching → ∀ tn d, s.upd.current = some (tn, d) → y = s.backInService d.addr) := by
  rcases h with h | h
  · refine ⟨{ s with upd.dist := failRest .chainLost s.upd.dist }, by simp only [State.pauseLimit, h], rfl, rfl, rfl, rfl,
      rfl, rfl, fun _ => rfl, fun hs => absurd (h.symm.trans hs) (by simp)⟩
  · cases hc : s.upd.current with
    | none =>
      exact ⟨s, by simp only [State.pauseLimit, h, hc], rfl, rfl, rfl, rfl, rfl, rfl, fun hs => absurd (h.symm.trans hs) (by simp), nofun⟩
    | some p =>
      refine ⟨s.backInService p.2.addr, by simp only [State.pauseLimit, h, hc], rfl, rfl, rfl, rfl, rfl, rfl,
        fun hs => absurd (h.symm.trans hs) (by simp), fun _ tn d hp => ?_⟩
      cases hp
      rfl

/-- The window's end: the record in ROLLBACK, its event, the hand-back and the return watch are what is left, whatever
follows (R161, R162). -/
theorem rollBack_keeps {s : State} {w : SwitchWindow} {tn : Turn} {d : DistRec} (hc : s.upd.current = some (tn, d)) :
    getAt (s.rollBack w tn d).settle.upd.dist tn.pos = some { d with state := .rollback }
      ∧ ∃ x ∈ (s.rollBack w tn d).settle.ev.inbox, x.kind = .moduleRollback
        ∧ x.detail = .moduleRollback d.addr s.upd.header.version w.reported := by
  obtain ⟨-, hd⟩ := getAt_current hc
  obtain ⟨y, hy⟩ : ∃ y, y = ((s.editDist tn.pos fun d => { d with state := .rollback }).sendStill .moduleRollback 0
      (.moduleRollback d.addr s.upd.header.version w.reported)).handBack d.addr := ⟨_, rfl⟩
  have hk : y.Keeps (s.rollBack w tn d).settle := by
    have hj (z : State) : z.Keeps z.afterJudged := by
      unfold State.afterJudged
      simp only
      have h0 : z.Keeps (State.dropFirmware { z with upd.window := none, upd.turn := none, upd.link := .none }) := keeps_of_same (by simp) (by simp)
      split
      · exact h0.trans (keeps_endUpdate _ _ _ _)
      · exact h0.trans (keeps_nextSwitch _ _)
    refine State.Keeps.trans ?_ (keeps_settle _)
    rw [hy]
    exact (keeps_of_same (by rfl) (by rfl)).trans (hj _)
  obtain ⟨hin, hdist⟩ := hk
  refine ⟨hdist _ _ ?_ rfl, ⟨.moduleRollback, 0, s.sup.coils, s.sup.coils, .moduleRollback d.addr s.upd.header.version w.reported,
    [], none, false, (lastOf s.ev.inbox).any (·.fresh), true⟩, hin ?_, rfl, rfl⟩
  · rw [hy]
    simp [State.handBack, State.editDist, getAt_modifyAt, hd]
  · rw [hy]
    exact List.mem_append_right _ (by simp [State.editDist])

/-- Settles O60. -/
theorem updateTimers : Obligations.UpdateTimers := by
  unfold Obligations.UpdateTimers
  refine ⟨?_, fun s => ⟨?_, ?_, ?_⟩⟩
  · intro tm s hawake hb hq hp ht hst
    obtain ⟨y, hy, hpow, hplan, hsup, hchain, hreq, hyst, hdist, hback⟩ := pauseLimit_eq hst
    have hset : (y.endUpdate .chainLost .refused (some .chainLost)).settle = y.endUpdate .chainLost .refused (some .chainLost) := by
      refine settle_restful ⟨(resting_iff _).2 ⟨restsElse_of_same (restsElse_of_awake hawake hb) (by simpa using hpow)
        (by simpa using hplan) (by simp [hchain]), by simp, by simp⟩, .inl ?_⟩
      rw [endUpdate_requests, dropFirmware_nil (hreq.trans hq)]
      exact hreq.trans hq
    refine goes_react _ (pauseLimit_react hp ht) ?_
    rw [hy, hset]
    refine ⟨by simp, by simp, by simp [hyst], by simp, by simp, by simpa using endUpdate_pending _ _ _ _, fun h => ?_,
      fun tn d e h hc he ho => ?_, ?_⟩
    · simpa [failRest] using hdist h
    · have hen := entry_backInService s d.addr d.addr
      rw [if_pos rfl, he] at hen
      rw [hback h tn d hc, show ∀ x : State, (State.finish s (x.endUpdate .chainLost .refused (some .chainLost))).chain.entry d.addr
        = x.chain.entry d.addr by simp [Chain.entry], hen]
      simp [ModuleEntry.back, ho]
    · refine sameContactors_finish ?_
      simp [State.sameContactors, hsup, Sup.coils]
  · intro w hcalm hrest hocc hw hn h1 h2 hno
    have hreq : State.request { s with upd.window := some { w with probes := w.probes + 1 } } (.firmware .probe)
        = { s with
          upd.window := some { w with probes := w.probes + 1 }
          chain.requests := s.chain.requests ++ [.firmware .probe] } := request_new hno
    refine next_react ((switchProbe_react hw hn h1 h2).trans (congrArg s.react hreq)) ⟨?_, .inr hocc⟩
      (calm_of_same hcalm rfl rfl rfl rfl) (by simp [State.shownAlike, chainBytes, updateWord, updateBytes])
    exact resting_of_same hrest.1 rfl rfl rfl rfl rfl rfl rfl rfl
  · intro w tn d hw hc ht
    obtain ⟨hd, x, hx, hk, hdet⟩ := rollBack_keeps (w := w) hc
    refine goes_react _ (switchWindowEnd_react hw hc ht) ⟨by simpa using hd, ⟨{ x with fresh := false }, ?_, hk, hdet⟩, ?_, ?_, ?_, ?_⟩
    · rw [finish_inbox]
      exact List.mem_map_of_mem hx
    · simpa using (rollBack_handsBack s w tn d).1
    · simpa using (rollBack_handsBack s w tn d).2
    · exact sameAround_finish (sameAround_settle (sameAround_rollBack s w tn d))
    · exact sameContactors_finish (sameContactors_settle (by simp [State.sameContactors, Sup.coils]))
  · intro a tm hw hsh hcalm hrest hf ht
    obtain ⟨-, -, -, hlen, -⟩ := hsh
    have hany := anyFaulted_backInService s.chain.map a
    refine goes_shown_react _ (returnLimit_react hf ht) ⟨resting_of_same hrest.1 rfl rfl rfl rfl rfl rfl rfl rfl, hrest.2⟩
      (calm_of_less hcalm hany rfl id rfl rfl) (fun h => hany ▸ h) ⟨rfl, ?_⟩
    exact sameBut_mirror hw (sameBut_of_mem rfl) (by simp [State.mirrors, chainBytes, updateWord, updateBytes, State.backInService, State.editModule, hlen])

end Sys2Proof.Machine

namespace Sys2Proof.Machine

/-! ### Changes of the working map -/

theorem anyFaulted_eq_map (m : List ModuleEntry) :
    anyFaulted m = (m.map fun e => e.configured && decide (e.state = .faulted)).any id := by
  simp [anyFaulted, List.any_map]

/-- A change that leaves the states and the configured set leaves a map with a FAULTED module or without. -/
theorem anyFaulted_modifyAddr_kept {g : ModuleEntry → ModuleEntry} (hc : ∀ e, (g e).configured = e.configured)
    (hs : ∀ e, (g e).state = e.state) (m : List ModuleEntry) (a : Nat) : anyFaulted (modifyAddr m a g) = anyFaulted m := by
  rw [anyFaulted_eq_map, anyFaulted_eq_map, map_modifyAddr fun e => by rw [hc, hs]]

@[inherit_doc anyFaulted_modifyAddr_kept]
theorem anyFaulted_map_kept {g : ModuleEntry → ModuleEntry} (hc : ∀ e, (g e).configured = e.configured)
    (hs : ∀ e, (g e).state = e.state) (m : List ModuleEntry) : anyFaulted (m.map g) = anyFaulted m := by
  simp [anyFaulted, List.any_map, Function.comp_def, hc, hs]

/-- A change of one entry of the working map rewrites its entry of the mirror alone. -/
theorem read_mirrorModules_modifyAt {m : Memory} (hw : m.wf = true) {i k : Nat} {l : List ModuleEntry}
    {g : ModuleEntry → ModuleEntry} {a : Nat} (ha : a < moduleAt (i + k) ∨ moduleAt (i + k + 1) ≤ a) :
    Memory.read (mirrorModules i l (modifyAt l k g) m) a = Memory.read m a := by
  induction l generalizing i k m with
  | nil => cases k <;> rfl
  | cons e l ih =>
    cases k with
    | zero =>
      simp only [modifyAt, mirrorModules, mirrorModules_same]
      split
      · rfl
      · exact read_store_of_out hw (by rw [moduleBytes_length]; simp only [moduleAt] at ha ⊢; omega)
    | succ k =>
      simp only [modifyAt, mirrorModules, if_true]
      exact ih hw (by simpa only [Nat.add_assoc, Nat.add_comm 1, Nat.add_left_comm 1] using ha)

/-- Where the map alone has changed, the end of a step rewrites the module status mirror alone. -/
theorem mirror_map (s : State) (l : List ModuleEntry) :
    (mirror s { s with chain.map := l }).mem = mirrorModules 0 s.chain.map l s.mem := by
  have hdir : mirrorDirectory s { s with chain.map := l } s.mem = s.mem := by
    have hc : chainBytes { s.chain with map := l } = chainBytes s.chain := rfl
    simp [mirrorDirectory, hc, mirrorBlock, mirrorWords_same]
  unfold mirror
  simp only [hdir, and_self, if_true]
  split
  · rename_i h
    rw [← h, mirrorModules_same]
  · rfl

/-! ### The balancing stop and what waited for it (R18, R23, R24, R108) -/

/-- What one round does is all that follows, if nothing is to be done after it. -/
theorem settle_of_round {s t : State} (h : s.round = t) (ht : t.Still) (hq : t.chain.requests = [] ∨ t.chain.occupied) :
    s.settle = t := by
  have key : t.round = t := by rw [round_still ht (answerRequests_quiet hq), arbiterGrant_quiet hq]
  unfold State.settle
  rw [h, key, key, key]

/-- The stop has been sent: every balancing record is inactive and the hold has ended. -/
@[simp] def State.stopDone (s : State) (us : Us) (f : Frame) : State := { s with
  conv.us := usAfter s us
  chain.lastSent := some (f, usAfter s us)
  chain.hold := none
  chain.line := .idle
  chain.map := s.chain.map.map fun e => { e with balMask := 0, balEnd := 0 } }

theorem stopSent_react {us : Us} {s : State} {f : Frame} (hl : s.chain.line = .sending f) (hh : s.chain.hold = some .stop) :
    exec (.balancingStopSent us) s = s.react (s.stopDone us f) := by
  show execBalancingStopSent us s = _
  simp only [execBalancingStopSent, Line.frame, hl, hh]
  rfl

/-- A sleep entry whose stop is done goes on with its snapshot, and nothing else follows (R108). -/
theorem settle_entry_snapshot {s : State} {e : Entry} (hb : s.plan.burst = none) (hp : s.upd.pause = none)
    (hd : s.upd.state ≠ .distributing) (hpt : s.power.patrol = none) (hr : s.power.returning = none)
    (he : s.power.entry = some e) (h2 : e.step = 2) (hq : s.chain.requests = []) (hh : s.chain.hold ≠ some .stop) :
    s.settle = State.requestSnapshot { s with power.entry := some { e with step := 3, requestAt := s.now } } .entry := by
  have hupd : s.updateReact = s := by
    unfold State.updateReact
    rw [hp]
    cases hst : s.upd.state <;> simp_all
  have hent : s.entryReact = State.requestSnapshot { s with power.entry := some { e with step := 3, requestAt := s.now } } .entry := by
    simp [State.entryReact, he, h2, hq, hh]
  obtain ⟨y, hy⟩ : ∃ y, y = State.requestSnapshot { s with power.entry := some { e with step := 3, requestAt := s.now } } .entry :=
    ⟨_, rfl⟩
  have hyq : y.chain.requests = [] := by rw [hy]; simpa using hq
  rw [← hy] at hent ⊢
  refine settle_of_round ?_ (still_of_update ?_ ?_) (.inl hyq)
  · unfold State.round
    rw [show s.burstReact = s by simp [State.burstReact, hb], answerRequests_quiet (.inl hq),
      show s.patrolReact = s by simp [State.patrolReact, hpt], show s.returnReact = s by simp [State.returnReact, hr],
      hupd, hent, answerRequests_quiet (.inl hyq), arbiterGrant_quiet (.inl hyq)]
  · rw [hy]
    exact ⟨by simpa using hb, by simp, by simp [hpt], by simp [hr]⟩
  · have h1 : y.upd.pause = none := by rw [hy]; simpa using hp
    have h3 : y.upd.state ≠ .distributing := by rw [hy]; simpa using hd
    unfold State.updateReact
    rw [h1]
    cases hst : y.upd.state <;> simp_all

theorem mem_requestSnapshot (s : State) (who : Requester) :
    ∃ q ∈ (s.requestSnapshot who).store.queue, q.payload = .snapshot ⟨s.conv.charge, s.conv.chargeSat⟩ ∧ who ∈ q.who := by
  obtain ⟨q, hq, hw, hp⟩ := mem_enqueue (.snapshot ⟨s.conv.charge, s.conv.chargeSat⟩) who s.store.queue
  refine ⟨q, hq, ?_, hw⟩
  rcases hp with hp | ⟨x, -, hx⟩
  · exact hp
  · cases h : x.payload <;> rw [h] at hx <;> simp only [Payload.join, Option.some.injEq, reduceCtorEq] at hx
    exact hx.symm

theorem sameAround_requestSnapshot {s t : State} (h : s.sameAround t) (who : Requester) :
    s.sameAround (t.requestSnapshot who) :=
  sameAround_requestWrite (t := { t with conv.snapTimer := 0 }) h _ who

theorem returnProbe_react {s : State} {a : Nat} {last : Ms}
    (hf : s.chain.returning.find? (fun r => decide (r.1 = a)) = some (a, last)) (ht : 200 ≤ elapsed s.now last)
    (hs : (s.chain.entry a).map (·.state) = some .outOfService) :
    exec (.returnProbe a) s = s.react (State.request { s with
      chain.returning := s.chain.returning.map fun r => if r.1 = a then (a, s.now) else r } (.returnEcho a)) := by
  have hst : s.chain.stateOf a = some .outOfService := hs
  show execReturnProbe a s = _
  simp [execReturnProbe, hf, returnSpacing, ht, hst]

theorem balancingEnd_done {s : State} {a : Nat} {e : ModuleEntry} (he : s.chain.entry a = some e) (hm : e.balMask ≠ 0)
    (ht : elapsed s.now e.balEnd < 2 ^ 31) :
    exec (.balancingEnd a) s = s.done (s.editModule a fun e => { e with balMask := 0, balEnd := 0 }) := by
  show execBalancingEnd a s = _
  simp only [execBalancingEnd, he]
  exact if_pos ⟨hm, ht⟩

/-- Settles O32. -/
theorem balancingStopsAndProbes : Obligations.BalancingStopsAndProbes := by
  unfold Obligations.BalancingStopsAndProbes
  refine ⟨?_, ?_, fun a s hw hsh hcalm => ⟨?_, ?_⟩⟩
  · intro us f s hw hsh hcalm hrest hq hl hh
    obtain ⟨-, -, -, hlen, -⟩ := hsh
    have hany := anyFaulted_map_kept (g := fun e => { e with balMask := 0, balEnd := 0 }) (fun _ => rfl) (fun _ => rfl) s.chain.map
    refine goes_shown_react _ (stopSent_react hl hh) (restful_of_idle hrest.1 hq (by simp)) (calm_of_less hcalm hany rfl id rfl rfl)
      (fun h => hany ▸ h) ⟨rfl, ?_⟩
    exact sameBut_mirror hw (sameBut_of_mem rfl) (by simp [State.mirrors, chainBytes, updateWord, updateBytes, hlen])
  · intro us f e s hb hp hd hpt hr he h2 hq hl hh
    refine goes_react _ (stopSent_react hl hh) ?_
    rw [settle_entry_snapshot (s := s.stopDone us f) hb hp hd hpt hr he h2 hq (by simp)]
    obtain ⟨q, hqm, hpay, hwho⟩ := mem_requestSnapshot { s.stopDone us f with
      power.entry := some { e with step := 3, requestAt := s.now } } .entry
    refine ⟨by simp [State.now], by simp, by simp,
      ⟨q, by simp only [finish_frame]; exact hqm, hpay, hwho⟩, by simp [State.requestSnapshot], by simp,
      by simp, by simp, by simp, by simp, ?_, ?_⟩
    · refine sameAround_finish (sameAround_requestSnapshot ?_ _)
      exact sameAround_self s
    · refine sameContactors_finish ?_
      simp [State.sameContactors, Sup.coils]
  · intro last hrest hocc hf ht hs hno
    refine next_react ((returnProbe_react hf ht hs).trans (congrArg s.react (request_new hno))) ⟨?_, .inr hocc⟩
      (calm_of_same hcalm rfl rfl rfl rfl) (by simp [State.shownAlike, chainBytes])
    exact resting_of_same hrest.1 rfl rfl rfl rfl rfl rfl rfl rfl
  · intro e he hm ht
    have hany := anyFaulted_modifyAddr_kept (g := fun e => { e with balMask := 0, balEnd := 0 }) (fun _ => rfl) (fun _ => rfl)
      s.chain.map a
    refine goes_shown _ (balancingEnd_done he hm ht) (calm_of_less hcalm hany rfl id rfl rfl) (fun h => hany ▸ h) ⟨rfl, fun x hx => ?_⟩
    have hmap := mirror_map s (modifyAddr s.chain.map a fun e => { e with balMask := 0, balEnd := 0 })
    rw [show (mirror s (s.editModule a fun e => { e with balMask := 0, balEnd := 0 })).mem = _ from hmap]
    have ha : a ≠ 0 := by
      rintro rfl
      exact nomatch he
    rw [modifyAddr, if_neg ha]
    exact read_mirrorModules_modifyAt hw (by rw [Nat.zero_add, Nat.sub_add_cancel (Nat.one_le_iff_ne_zero.2 ha)]; exact hx)

end Sys2Proof.Machine

namespace Sys2Proof.Machine

/-! ### The map through a step's reactions -/

/-- Outside DISTRIBUTING the engine's reactions leave the working map and the engine's state. -/
theorem updateReact_map {s : State} (h : s.upd.state ≠ .distributing) :
    s.updateReact.chain.map = s.chain.map ∧ s.updateReact.upd.state = s.upd.state := by
  unfold State.updateReact
  split
  · simp only
    split <;> simp [State.askChain]
  · split
    · contradiction
    · simp

theorem settle_map {s : State} (h : s.upd.state ≠ .distributing) : s.settle.chain.map = s.chain.map := by
  have hround (s : State) (h : s.upd.state ≠ .distributing) :
      s.round.chain.map = s.chain.map ∧ s.round.upd.state = s.upd.state := by
    have hu := updateReact_map (s := s.burstReact.answerRequests.patrolReact.returnReact) (by simpa using h)
    simpa [State.round] using hu
  have next (s : State) (h : s.upd.state ≠ .distributing) : s.round.upd.state ≠ .distributing := by
    rw [(hround s h).2]
    exact h
  have h1 := next s h
  have h2 := next _ h1
  have h3 := next _ h2
  unfold State.settle
  rw [(hround _ h3).1, (hround _ h2).1, (hround _ h1).1, (hround s h).1]

theorem sameAround_complete {s t : State} (h : s.sameAround t) (k : Nat) (r : Result) : s.sameAround (t.complete k r) := by
  simpa [State.sameAround] using h

/-! ### The answer to a CONFIG (R23) -/

theorem configReply_react {s : State} {f : Frame} {sent us : Us} {first : Nat} (hl : s.chain.line = .window f sent)
    (hk : f.kind = .config) (hw : first ≤ s.chain.windowOf f) (tag : Nat) (status : ModuleStatus) (version : Half) :
    exec (.configReply ⟨us, first⟩ f.addr tag status version none) s
      = s.react (if tag = f.tag then ((s.atUs us).endExchange.editModule f.addr fun e =>
            { e with status := status, version := version }).balanceAnswered true
          else (s.atUs us).endExchange.balanceAnswered false) := by
  have haw := awaits_of_window hl
  rw [hk] at haw
  have hgood : answerError f f.addr none (s.chain.late f first) = false := by
    simp [answerError, Chain.late, hw]
  show execConfigReply ⟨us, first⟩ f.addr tag status version none s = _
  simp only [execConfigReply, haw, hgood, Bool.false_eq_true, if_false]
  by_cases ht : tag = f.tag <;> simp [ht]

/-- The last CONFIG of a BALANCE slip is acknowledged: the record is active and the slip ends. -/
theorem balanceAnswered_last {s : State} {b : Balance} {a : Nat} {mask : Half} (hb : s.chain.balance = some b)
    (ht : b.todo = [(a, mask)]) (hn : b.anyNotAcked = false) (he : b.ending = false) (hm : mask ≠ 0) :
    s.balanceAnswered true = State.endBalance { s.editModule a fun e =>
        { e with balMask := mask, balEnd := s.now + BitVec.ofNat 32 (1000 * b.duration) } with
      chain.balance := some { b with todo := [], tries := 0, acked := b.acked + 1 } }
      { b with todo := [], tries := 0, acked := b.acked + 1 }
      (if b.clamped || decide (0 < b.skipped) then .okClamped else .ok) none := by
  simp only [State.balanceAnswered, hb, ht, if_true, State.balanceNext, Balance.skipHeads, he, hn, Bool.false_eq_true, if_false,
    if_neg hm]

/-- Settles O39. -/
theorem configAnswered : Obligations.ConfigAnswered := by
  unfold Obligations.ConfigAnswered
  intro us sent first f status version b mask s hw hwin hl hk hh hb ht
  refine ⟨fun hrest hq hn he hi hm => ?_, fun tag htag => ?_⟩
  · have hex := configReply_react (us := us) hl hk hwin f.tag status version
    obtain ⟨y, hy⟩ : ∃ y, y = (s.atUs us).endExchange.editModule f.addr fun e =>
      { e with status := status, version := version } := ⟨_, rfl⟩
    have hyn : y.now = s.now := by rw [hy]; simp [State.now, State.editModule]
    rw [if_pos rfl, ← hy, balanceAnswered_last (s := y) (b := b) (by simpa [hy, State.editModule] using hb) ht hn he hm] at hex
    obtain ⟨z, hz⟩ : ∃ z, z = { y.editModule f.addr fun e =>
          { e with balMask := mask, balEnd := y.now + BitVec.ofNat 32 (1000 * b.duration) } with
        chain.balance := none
        chain.requests := y.chain.requests.filter (· ≠ Req.config) } := ⟨_, rfl⟩
    have hzs : z = { s with
        conv.us := usAfter s us
        chain.hold := none
        chain.line := .idle
        chain.balance := none
        chain.requests := []
        chain.map := modifyAddr s.chain.map f.addr fun e => { e with
          status := status
          version := version
          balMask := mask
          balEnd := s.now + BitVec.ofNat 32 (1000 * b.duration) } } := by
      have hyq : y.chain.requests = [] := by rw [hy]; exact hq
      rw [hz, hyn, hyq, hy]
      simp [State.editModule]
    rw [show State.endBalance _ _ _ _ = z.complete b.slot ⟨if b.clamped || decide (0 < b.skipped) then .okClamped else .ok, none,
      Balance.fields { b with todo := [], tries := 0, acked := b.acked + 1 }⟩ by rw [hz]; rfl] at hex
    have hzr : z.resting := by
      rw [hzs]
      exact resting_of_same hrest.1 rfl rfl rfl rfl rfl rfl rfl rfl
    refine goes_react _ hex ?_
    rw [settle_restful (restful_of_idle hzr (by simp [hzs]) (by simp [hzs]))]
    have hzw : z.mem.wf = true := by rw [hzs]; exact hw
    refine ⟨by simp [hzs], by simp [hzs], by simp [hzs], by simp [hzs], ?_, ?_, ?_⟩
    · have hd := showsDone_finish (o := s) (complete_wf _ _ _ hzw) hi.1 (complete_showsDone hzw (by rw [hzs]; exact hi)
        ⟨if b.clamped || decide (0 < b.skipped) then .okClamped else .ok, none,
          Balance.fields { b with todo := [], tries := 0, acked := b.acked + 1 }⟩)
      have hcode : (if b.clamped = true ∨ 0 < b.skipped then 2 else 1)
          = (if b.clamped || decide (0 < b.skipped) then ResultCode.okClamped else .ok).code := by
        simp only [Bool.or_eq_true, decide_eq_true_eq]
        split <;> rfl
      rw [hcode]
      exact hd
    · refine sameAround_finish (sameAround_complete ?_ _ _)
      rw [hzs]
      exact sameAround_self s
    · refine sameContactors_finish ?_
      simp [hzs, State.sameContactors, Sup.coils]
  · have hex := configReply_react (us := us) hl hk hwin tag status version
    rw [if_neg htag] at hex
    refine goes_react _ hex ⟨by simp, by simp, fun hrest => ?_⟩
    obtain ⟨-, -, hd, -⟩ := hrest.1
    rw [show ∀ x : State, (State.finish s x).chain.map = x.chain.map by simp, settle_map (by simpa using hd)]
    simp only [State.balanceAnswered, State.endExchange, State.atUs, hb, ht, Bool.false_eq_true, if_false]
    split <;> simp

end Sys2Proof.Machine

namespace Sys2Proof.Machine

/-! ### A plan falls due (R40, R41) -/

theorem tryDue_not {s : State} {i : Nat} (h : s.isDue i = false) : s.tryDue i = s := by
  simp [State.tryDue, h]

/-- With no plan of a lower index due, a plan falls due alone. -/
theorem dueUpTo_alone {s : State} {i : Nat} (h : ∀ j, j < i → s.isDue j = false) : s.dueUpTo i = s.tryDue i := by
  have hlow : ∀ l : List Nat, (∀ j ∈ l, j < i) → l.foldl State.tryDue s = s := by
    intro l
    induction l with
    | nil => intro _; rfl
    | cons j l ih =>
      intro hl
      obtain ⟨hj, hl⟩ := List.forall_mem_cons.1 hl
      rw [List.foldl_cons, tryDue_not (h j hj), ih hl]
  rw [State.dueUpTo, List.range_succ, List.foldl_append, hlow _ fun j hj => List.mem_range.1 hj]
  rfl

theorem planDue_react {s : State} {i : Nat} {p : Plan} (hrun : s.power.state = .run) (hd : getAt s.plan.dueDone i = some false)
    (hf : getAt s.plan.inForce i = some p) (ha : p.active = true) (ht : s.now.toNat % p.period = p.phase)
    (hlow : ∀ j, j < i → s.isDue j = false) : exec (.planDue i) s = s.react (s.fallDue i p) := by
  have hdue : s.isDue i = true := by simp [State.isDue, hrun, hd, hf, Plan.due, ha, ht]
  show execPlanDue i s = _
  rw [execPlanDue, if_pos hdue, dueUpTo_alone hlow, State.tryDue, if_pos hdue, hf]

theorem fallDue_empty {s : State} {i : Nat} {p : Plan} (h : s.chain.selectsConfigured p.mask = false) :
    s.fallDue i p = { s with plan.dueDone := setAt s.plan.dueDone i true } := by
  simp [State.fallDue, h]

theorem fallDue_busy {s : State} {i : Nat} {p : Plan} (h : s.chain.selectsConfigured p.mask = true) (hb : s.plan.busy i = true) :
    s.fallDue i p = { s with
      plan.dueDone := setAt s.plan.dueDone i true
      plan.overrun := setAt s.plan.overrun i true
      attn := (s.raise .planOverrun).attn
      mem := (s.raise .planOverrun).mem } := by
  have hb' : Planner.busy { s.plan with dueDone := setAt s.plan.dueDone i true } i = true := hb
  simp only [State.fallDue, h, hb', Bool.not_true, Bool.false_eq_true, if_false, if_true]
  refine raise_congr ?_ ?_ ?_ _ <;> rfl

/-- The capture with which a plan that falls due begins. -/
def dueCapture (i : Nat) (p : Plan) : Capture := { newCapture i p.mask p.contents p.publish with
  pause := p.pause
  stage := if p.pause = 0 then .requested else .pauseRequested }

theorem fallDue_begins {s : State} {i : Nat} {p : Plan} (hi : i ≤ 7) (h : s.chain.selectsConfigured p.mask = true)
    (hb : s.plan.busy i = false) : s.fallDue i p = State.request { s with
      plan.dueDone := setAt s.plan.dueDone i true
      plan.captures := s.plan.captures ++ [dueCapture i p] } (if p.pause = 0 then .capture i else .pause i) := by
  have hb' : Planner.busy { s.plan with dueDone := setAt s.plan.dueDone i true } i = false := hb
  have hreq : captureReq i = .capture i := by
    rw [captureReq, if_neg (by simp [burstPlan]; omega), if_neg (by simp [patrolPlan]; omega)]
  have hd : (planCapture i p).pause = p.pause ∧ (planCapture i p).plan = i := ⟨rfl, rfl⟩
  simp only [State.fallDue, h, hb', Bool.not_true, Bool.false_eq_true, if_false, State.beginPlanCapture, hd.1, hd.2, hreq, dueCapture]
  split <;> rfl

theorem busy_iff {p : Planner} {i : Nat} : p.busy i = false ↔ ∀ c ∈ p.captures, c.plan ≠ i := by
  simp [Planner.busy]

/-- A capture that does not hold the chain asks for no SURGE mark (R54). -/
theorem calm_append_capture {s n : State} {c : Capture} (h : s.calm) (h1 : n.chain.map = s.chain.map) (h2 : n.sup = s.sup)
    (h3 : n.ev = s.ev) (h4 : n.plan.captures = s.plan.captures ++ [c]) (hc : c.holding = false ∨ c.tb = none) : n.calm := by
  refine calm_of_captures h h1 h2 h3 fun hs x hx hh ht => ?_
  rw [h4] at hx
  rcases List.mem_append.1 hx with hx | hx
  · exact calm_capture h hs x hx hh ht
  · obtain rfl := List.mem_singleton.1 hx
    rcases hc with hc | hc <;> simp [hc] at hh ht

/-- The addresses that a capture lists are those of its items. -/
theorem filterMap_fixItem {c : Chain} {l : List Nat} (h : ∀ a ∈ l, (c.entry a).isSome = true) :
    (l.filterMap (fixItem c)).map (·.addr) = l := by
  induction l with
  | nil => rfl
  | cons a l ih =>
    obtain ⟨ha, hl⟩ := List.forall_mem_cons.1 h
    obtain ⟨e, he⟩ := Option.isSome_iff_exists.1 ha
    simp only [List.filterMap_cons, fixItem, he, Option.map_some, List.map_cons]
    rw [ih hl]

theorem configuredAddrs_isSome {c : Chain} {a : Nat} (h : a ∈ c.configuredAddrs) : (c.entry a).isSome = true := by
  obtain ⟨-, he⟩ := List.mem_filter.1 h
  cases hc : c.entry a with
  | none => rw [hc] at he; exact nomatch he
  | some e => rfl

/-- What a capture works with, fixed at its grant (R48). -/
def Capture.granted (c : Capture) (ch : Chain) : Capture := { c with
  stage := .held
  items := (ch.configuredAddrs.filter (selects c.mask)).filterMap (fixItem ch)
  allListed := decide (ch.configuredAddrs.filter (selects c.mask) = ch.configuredAddrs) }

/-- The one capture of a host plan that waits is granted the chain at once. -/
theorem settle_capture {s : State} {i : Nat} {l : List Capture} {c : Capture} (h : s.resting) (hi : i ≤ 7)
    (hq : s.chain.requests = [.capture i]) (hf : s.chain.free = true) (hd : s.chain.down = false)
    (hc : s.plan.captures = l ++ [c]) (hl : ∀ x ∈ l, x.plan ≠ i) (hp : c.plan = i) (hs : c.stage = .requested) :
    s.settle = { s with
      plan.captures := l ++ [c.granted s.chain]
      chain.requests := []
      chain.hold := some (.capture i)
      chain.line := .sending ⟨.capture, broadcast, s.chain.capTag, []⟩
      chain.capTag := cycle 255 s.chain.capTag } := by
  subst hp
  have hna : s.chain.state ≠ .asleep := by simp_all [Chain.free]
  have ha : s.answerRequests = s := by simp [State.answerRequests, hd, hna]
  have hg : s.arbiterGrant = s.grant (.capture c.plan) :=
    arbiterGrant_only hf hq (by simp) (by simp [Chain.grantable, hq, hd])
  have hnone : s.chain.requests.filter (· ≠ .capture c.plan) = [] := by simp [hq]
  have hn : ¬(c.plan = burstPlan ∨ c.plan = patrolPlan) := by simp only [burstPlan, patrolPlan]; omega
  have he : s.grant (.capture c.plan) = { s with
      plan.captures := l ++ [c.granted s.chain]
      chain.requests := []
      chain.hold := some (.capture c.plan)
      chain.line := .sending ⟨.capture, broadcast, s.chain.capTag, []⟩
      chain.capTag := cycle 255 s.chain.capTag } := by
    have hmap : ∀ f : Capture → Capture, (∀ x, x.plan ≠ c.plan → f x = x) → s.plan.captures.map f = l ++ [f c] := by
      intro f hx
      rw [hc, List.map_append, List.map_congr_left fun x hm => hx x (hl x hm), List.map_id']
      rfl
    simp only [State.grant, State.grantCapture, State.beginCapture, State.dropRequest, hnone, if_neg hn]
    rw [hmap _ fun x hx => by simp [hx]]
    simp only [hs, decide_true, Bool.and_true, if_true]
    rfl
  rw [settle_granted h ha ?_, hg, he]
  rw [hg, he]
  exact ⟨resting_of_same h rfl rfl rfl rfl rfl rfl rfl rfl, .inl rfl⟩

/-- Settles O49. -/
theorem planFallsDue : Obligations.PlanFallsDue := by
  unfold Obligations.PlanFallsDue
  intro i p s hw hcalm hrest hi hrun hd hf hact ht hlow
  have hex := planDue_react hrun hd hf hact ht hlow
  refine ⟨fun hsel => ?_, fun hsel hb => ?_, fun hsel hb hocc hno hnp => ?_, fun hsel hb hp hq hfree hup => ?_⟩
  · rw [fallDue_empty hsel] at hex
    exact next_react hex (restful_of_held hrest (by simp) (by simp)) (calm_of_same hcalm rfl rfl rfl rfl)
      (by simp [State.shownAlike, pointerBytes, countBytes])
  · rw [fallDue_busy hsel hb] at hex
    refine goes_shown_react _ hex (restful_of_held hrest (by simp) (by simp)) (calm_of_same hcalm rfl rfl rfl rfl) id
      ⟨raise_pending_self s .planOverrun, rfl, ?_⟩
    exact sameBut_mirror (raise_wf _ _ hw) (sameBut_raise (sameBut_of_mem rfl) hw (by simp)) (by simp [State.mirrors, pointerBytes, countBytes])
  · rw [fallDue_begins hi hsel hb, request_new (by split <;> assumption)] at hex
    refine next_react hex ⟨resting_of_same hrest.1 rfl rfl rfl rfl rfl rfl rfl rfl, .inr hocc⟩
      (calm_append_capture hcalm rfl rfl rfl rfl (.inl ?_)) (by simp [State.shownAlike, chainBytes, pointerBytes, countBytes])
    simp only [Capture.holding]
    split <;> rfl
  · rw [fallDue_begins hi hsel hb, if_pos hp, request_new (by simp [hq])] at hex
    have hset := settle_capture (s := { s with
        plan.dueDone := setAt s.plan.dueDone i true
        plan.captures := s.plan.captures ++ [dueCapture i p]
        chain.requests := s.chain.requests ++ [.capture i] }) (resting_of_same hrest.1 rfl rfl rfl rfl rfl rfl rfl rfl) hi
      (by rw [hq]; rfl) hfree (by simp [Chain.down, hup]) rfl (busy_iff.1 hb) rfl (by simp [dueCapture, hp])
    refine goes_shown_settled _ hex hset (calm_append_capture hcalm rfl rfl rfl rfl (.inr rfl)) id ?_
    refine ⟨rfl, rfl, rfl, rfl, ⟨_, rfl, rfl, rfl, ?_⟩, ?_, ?_⟩
    · exact filterMap_fixItem fun a ha => configuredAddrs_isSome (List.mem_filter.1 ha).1
    · exact sameAround_self s
    · exact sameContactors_self s

end Sys2Proof.Machine

namespace Sys2Proof.Machine

/-! ### The taking of a posted slip (R177, R178) -/

/-- A posted slip is copied and reads TAKEN, and its owner takes it. -/
theorem post_react {s : State} {w : Word} {rest : List Word} {k : Nat} {q : SlipKind} (h : postedSlip s w rest k (some q))
    (hp : s.power.state ≠ .enteringDeep) :
    exec .post s = s.react ((takenSlip s rest k).handSlip k q (slipArgs s k)) := by
  obtain ⟨hn, hk, hs, hle, hpost, hkind⟩ := h
  have hacc : NoteKind.post.accepts (noteArg w) = true := by simpa [NoteKind.accepts, hs] using hle
  have hpost' : State.posted { s with port.notes := rest } k = true := hpost
  have hc : slipKindOf (copySlot s.mem k).kind = some q := hkind
  show execPost s = _
  simp only [execPost, State.takeNote, hn, hk, if_true, hacc, hs, hpost']
  congr 1
  simp only [State.takeSlip, if_neg hp, hc]
  rfl

/-- A part that is awake with no work in progress rests; on a chain that is held every request waits. -/
theorem restful_of_awake {s : State} (h : s.awake) (hb : s.plan.burst = none) (hp : s.upd.pause = none)
    (hd : s.upd.state ≠ .distributing) (ho : s.chain.occupied) : s.restful :=
  ⟨(resting_iff s).2 ⟨restsElse_of_awake h hb, hp, hd⟩, .inr ho⟩

theorem updateReact_resting {s : State} (hp : s.upd.pause = none) (hd : s.upd.state ≠ .distributing) : s.updateReact = s := by
  unfold State.updateReact
  rw [hp]
  cases hst : s.upd.state <;> simp_all

/-- Awake, with the engine and the burst at rest, no block but the arbiter has anything to do at once. -/
theorem still_of_awake {s : State} (h : s.awake) (hb : s.burstReact = s) (hu : s.updateReact = s) : s.Still := by
  obtain ⟨he, hp, hr⟩ := h
  exact ⟨hb, by simp [State.patrolReact, hp], by simp [State.returnReact, hr], hu, by simp [State.entryReact, he]⟩

/-- A command after which nothing follows, and which leaves every shown record as it is. -/
theorem next_settled {c : Instr} {s n : State} (h : exec c s = s.react n) (hs : n.settle = n) (hc : n.calm)
    (hsame : s.shownAlike n) : exec c s = .next n := by
  rw [h, State.react, hs, finish_same hc hsame]

theorem pauseWaitEnd_react {s : State} {i : Nat} (hi : i ≤ 7) (h : s.plan.captures.any (Capture.pauseOver i s.now) = true)
    (hno : s.chain.requests.contains (.capture i) = false) :
    exec (.pauseWaitEnd i) s = s.react { s with
      plan.captures := s.plan.captures.map fun c => if c.pauseOver i s.now then { c with stage := .requested } else c
      chain.requests := s.chain.requests ++ [.capture i] } := by
  have hreq : captureReq i = .capture i := by
    rw [captureReq, if_neg (by simp [burstPlan]; omega), if_neg (by simp [patrolPlan]; omega)]
  show execPauseWaitEnd i s = _
  rw [execPauseWaitEnd, if_pos h, hreq]
  exact congrArg s.react (request_new hno)

theorem burstCaptureDue_react {s : State} {b : Burst} (hb : s.plan.burst = some b) (h12 : b.begun = 1 ∨ b.begun = 2)
    (ht : 20 * b.begun ≤ elapsed s.now b.part) (hr : s.plan.burstRuns b.seq = false)
    (hno : s.chain.requests.contains .burst = false) :
    exec .burstCaptureDue s = s.react { s with
      plan.burst := some { b with begun := b.begun + 1 }
      plan.captures := s.plan.captures ++ [{ newCapture burstPlan 0xFFFFFF .both true with link := b.seq }]
      chain.requests := s.chain.requests ++ [.burst] } := by
  have h12' : 1 ≤ b.begun ∧ b.begun ≤ 2 := by omega
  show execBurstCaptureDue s = _
  simp only [execBurstCaptureDue, hb, h12', decide_true, Bool.true_and, burstSpacing, (passed_iff _ _ _).2 ht, hr, Bool.not_false,
    if_true, and_self]
  exact congrArg s.react (request_new hno)

/-- A survey that no other one covers is asked for (R10). -/
theorem requestSurvey_new {s : State} (hsv : s.chain.surveyHolds = false) (hna : s.chain.state ≠ .asleep)
    (hsl : s.chain.sleepCmd = false) (hno : s.chain.requests.contains .survey = false) :
    s.requestSurvey = { s with chain.requests := s.chain.requests ++ [.survey] } := by
  rw [State.requestSurvey, hsv, hsl, decide_eq_false hna]
  exact request_new hno

/-- A SURVEY slip that is not BUSY asks for its survey (R14). -/
theorem takeSurvey_free {s : State} {args : List Byte} (h : answerAtOnce s args .survey = none) (k : Nat) :
    s.takeSurvey k = State.requestSurvey { s with chain.surveySlip := some k } := by
  have hbusy : (s.chain.surveySlip.isSome || s.chain.balance.isSome) = false := by
    simp only [answerAtOnce] at h
    split at h
    · exact nomatch h
    · rename_i hn
      simpa using hn
  rw [State.takeSurvey, hbusy, if_neg Bool.false_ne_true]

/-- The addresses of a BALANCE slip are in service at its taking (R23). -/
theorem balanceTodo_inService {c : Chain} {args : List Byte} {first n i : Nat} :
    ∀ x ∈ (balanceTodo c args first n i).1, c.outOf x.1 = false := by
  induction n generalizing i with
  | zero => simp [balanceTodo]
  | succ n ih =>
    intro x hx
    unfold balanceTodo at hx
    cases he : c.entry (first + i) with
    | none =>
      simp only [he] at hx
      exact ih x hx
    | some e =>
      simp only [he] at hx
      split at hx
      · rename_i hin
        simp only [Bool.and_eq_true, decide_eq_true_eq] at hin
        rcases List.mem_cons.1 hx with rfl | hx
        · rcases hin.2 with hs | hs <;> simp [Chain.outOf, he, hs]
        · exact ih x hx
      · exact ih x hx

/-- A BALANCE slip with an address to send to asks for its first CONFIG (R23). -/
theorem balanceNext_asks {s : State} {b : Balance} (hne : b.todo ≠ []) (ho : ∀ x ∈ b.todo, s.chain.outOf x.1 = false)
    (he : b.ending = false) (hno : s.chain.requests.contains .config = false) :
    State.balanceNext { s with chain.balance := some b }
      = { s with chain.balance := some b, chain.requests := s.chain.requests ++ [.config] } := by
  obtain ⟨⟨a, m⟩, l, hl⟩ := List.exists_cons_of_ne_nil hne
  have hout : Chain.outOf { s.chain with balance := some b } a = false := ho (a, m) (by simp [hl])
  have hskip : b.skipHeads { s.chain with balance := some b } 24 = b := by
    unfold Balance.skipHeads
    simp only [hl, hout, Bool.false_eq_true, if_false]
  simp only [State.balanceNext, hskip, he, Bool.false_eq_true, if_false, if_neg hne]
  exact request_new hno

theorem clampNat_duration (d : Nat) : clampNat 1 3600 d = max 1 (min 3600 d) := by
  unfold clampNat
  split
  · omega
  · split <;> omega

/-- The BALANCE slip of a taking: its addresses and skipped ones by the map, its duration held at 1 to 3600 s (R23). -/
def balanceSlip (c : Chain) (k : Nat) (args : List Byte) : Balance :=
  let r := balanceTodo c args (argNum args 0 1) (argNum args 1 1) 0
  { slot := k
    todo := r.1
    tries := 0
    duration := max 1 (min 3600 (argNum args 2 2))
    sent := 0
    acked := 0
    skipped := r.2.1
    clamped := r.2.2 || decide (argNum args 2 2 < 1 ∨ 3600 < argNum args 2 2)
    lowestNotAcked := 0
    anyNotAcked := false
    ending := false }

/-- A BALANCE slip that passes its checks is in flight and goes on to its first CONFIG (R23). -/
theorem takeBalance_free {s : State} {args : List Byte} (h : answerAtOnce s args .balance = none) (k : Nat) :
    s.takeBalance k args = State.balanceNext { s with chain.balance := some (balanceSlip s.chain k args) } := by
  simp only [answerAtOnce] at h
  split_ifs at h with hbusy hrange hdown
  have hb : (s.chain.surveySlip.isSome || s.chain.balance.isSome) = false := by simpa using hbusy
  have hr : ¬(argNum args 0 1 < 1 ∨ 24 < argNum args 0 1 ∨ argNum args 1 1 < 1 ∨ 16 < argNum args 1 1
      ∨ 24 < argNum args 0 1 + argNum args 1 1 - 1) := by omega
  have hc : (max 1 (min 3600 (argNum args 2 2)) ≠ argNum args 2 2) ↔ argNum args 2 2 < 1 ∨ 3600 < argNum args 2 2 := by omega
  rw [State.takeBalance]
  simp only [hb, Bool.false_eq_true, if_false, if_neg hr, if_neg hdown, clampNat_duration, hc]
  rfl

/-- A CAPTURE_NOW slip that passes its checks begins its capture, which asks for the chain (R44, R47). -/
theorem takeCaptureNow_free {s : State} {args : List Byte} (h : answerAtOnce s args .captureNow = none) {c : Contents}
    (hc : contentsOf (argNum args 4 1) = some c) (hno : s.chain.requests.contains (.capture 9) = false) (k : Nat) :
    s.takeCaptureNow k args = { s with
      plan.captures := s.plan.captures ++ [{ newCapture 9 (BitVec.ofNat 24 (argNum args 0 4)) c true with slot := some k }]
      chain.requests := s.chain.requests ++ [.capture 9] } := by
  simp only [answerAtOnce] at h
  split_ifs at h with hbusy hrange hempty hdown
  have hb : (s.plan.captures.any fun c => c.slot.isSome) = false := by simpa using hbusy
  have he : s.chain.selectsConfigured (BitVec.ofNat 24 (argNum args 0 4)) = true := by simpa using hempty
  rw [State.takeCaptureNow]
  simp only [hb, Bool.false_eq_true, if_false, hc, he, Bool.not_true, if_neg hdown]
  exact request_new hno

/-- Settles O50. -/
theorem capturesAskForTheChain : Obligations.CapturesAskForTheChain := by
  unfold Obligations.CapturesAskForTheChain
  intro s hcalm hocc hp hd haw
  refine ⟨fun i hb hi hover hno => ?_, fun b hb h12 ht hr hno => ?_, fun w rest k args hw hb hpow hargs => ⟨?_, ?_, ?_⟩⟩
  · refine next_react (pauseWaitEnd_react hi hover hno) (restful_of_awake haw hb hp hd hocc) (calm_of_captures hcalm rfl rfl rfl ?_)
      (by simp [State.shownAlike, chainBytes, pointerBytes, countBytes])
    intro hs x hx hh ht
    obtain ⟨c, hc, rfl⟩ := List.mem_map.1 hx
    by_cases ho : c.pauseOver i s.now = true
    · rw [if_pos ho] at hh
      exact absurd hh (by simp [Capture.holding])
    · rw [if_neg ho] at hh ht ⊢
      exact calm_capture hcalm hs c hc hh ht
  · refine next_settled (burstCaptureDue_react hb h12 ht hr hno) (settle_still (still_of_awake haw ?_ (updateReact_resting hp hd))
      (.inr hocc)) (calm_append_capture hcalm rfl rfl rfl rfl (.inl rfl))
      (by simp [State.shownAlike, chainBytes, pointerBytes, countBytes])
    have hne : b.begun + 1 ≠ 0 := by omega
    simp [State.burstReact, Planner.burstRuns, newCapture]
  · intro hpost hans hsv hsl hno
    have hex := post_react hpost hpow
    rw [show State.handSlip _ k .survey _ = State.takeSurvey _ k from rfl,
      takeSurvey_free (s := takenSlip s rest k) (args := slipArgs s k) (hargs ▸ hans)] at hex
    refine next_react (hex.trans (congrArg s.react (requestSurvey_new hsv hocc.2.2 hsl hno))) (restful_of_awake haw hb hp hd hocc)
      (calm_of_same hcalm rfl rfl rfl rfl) (by simp [State.shownAlike, chainBytes, takenSlip])
  · intro r hpost hans hr hne hno
    have hex := post_react hpost hpow
    rw [show State.handSlip _ k .balance _ = State.takeBalance _ k (slipArgs s k) from rfl, ← hargs] at hex
    subst hr
    rw [takeBalance_free (s := takenSlip s rest k) (hargs ▸ hans), balanceNext_asks (s := takenSlip s rest k) hne
      (fun x hx => balanceTodo_inService x hx) rfl hno] at hex
    exact next_react hex (restful_of_awake haw hb hp hd hocc) (calm_of_same hcalm rfl rfl rfl rfl)
      (by simp [State.shownAlike, chainBytes, takenSlip])
  · intro c hpost hans hc hno
    have hex := post_react hpost hpow
    rw [show State.handSlip _ k .captureNow _ = State.takeCaptureNow _ k (slipArgs s k) from rfl, ← hargs] at hex
    rw [takeCaptureNow_free (s := takenSlip s rest k) (hargs ▸ hans) hc hno] at hex
    exact next_react hex (restful_of_awake haw hb hp hd hocc) (calm_append_capture hcalm rfl rfl rfl rfl (.inl rfl))
      (by simp [State.shownAlike, chainBytes, pointerBytes, countBytes, takenSlip])

end Sys2Proof.Machine

namespace Sys2Proof.Machine

/-! ### A TABLES note for the module map -/

/-- The part once the oldest note is taken off its queue. -/
def State.noteTaken (s : State) (rest : List Word) : State := { s with port.notes := rest }

theorem tablesModuleMap_react {w : Word} {rest : List Word} {s : State} (hn : s.port.notes = w :: rest)
    (hk : noteKindOf (noteKind w) = some .tables) (h3 : (noteArg w).toNat = 3) :
    exec .tablesModuleMap s = s.react (s.noteTaken rest).takeModuleMap := by
  have hacc : NoteKind.tables.accepts (noteArg w) = true := by simp [NoteKind.accepts, h3]
  show execTablesModuleMap s = _
  simp only [execTablesModuleMap, State.takeTables, State.takeNote, hn, h3, hk, hacc, if_true, Nat.le_refl, ne_eq,
    not_true_eq_false, and_false, if_false]
  rfl

/-- A table status written by a note: its entry and the last table id, and nothing else of the port. -/
theorem tableStatus_port {s : State} {id : Nat} {old : TableEntry} (h : getAt s.port.tables id = some old)
    (r : TableOutcome) (c : List ClampRec) :
    (s.tableStatus id .note r c).port = { s.port with
      tables := setAt s.port.tables id ⟨cycle 65535 old.number, .note, r, min (clampedFields c) 255, c.take 4⟩
      lastTable := id } := by
  simp only [State.tableStatus, h]
  rw [raise_eq]

/-- A step that ends with the module map's status written: the entry names the outcome, TABLE_STATUS is pending, the
faulted-since time follows the map, and of the memory only the entry, the last table id, the factor word and the mirror of a
changed map are rewritten. -/
theorem goes_mapStatus {c : Instr} {s u : State} {rest : List Word} {old : TableEntry} {r : TableOutcome}
    {clamps : List ClampRec} {rs : List (Nat × Nat)} (hc : s.canonical) (hcalm : s.calm)
    (hex : exec c s = s.react (u.tableStatus 3 .note r clamps)) (hr : u.restful)
    (hold : getAt s.port.tables 3 = some old) (hport : u.port = (s.noteTaken rest).port) (hmem : u.mem = s.mem)
    (hsup : u.sup = s.sup) (hev : u.ev = s.ev) (hpow : u.power = s.power) (hstore : u.store = s.store)
    (hcap : u.plan.captures = s.plan.captures) (hptr : pointerBytes s.plan = pointerBytes u.plan)
    (hcnt : countBytes s.plan = countBytes u.plan) (hchn : chainBytes s.chain = chainBytes u.chain)
    (hword : updateWord s.upd = updateWord u.upd) (hbytes : updateBytes s.upd = updateBytes u.upd)
    (hdist : distArea s.upd.dist = distArea u.upd.dist) (hstate : s.upd.state = u.upd.state)
    (hfault : anyFaulted u.chain.map = true → anyFaulted s.chain.map = true)
    (hmap : s.chain.map = u.chain.map ∨ mapRec ∈ rs ∧ u.chain.map.length = 24)
    (hrs : [entryRec 3, lastTableRec, factorRec] ⊆ rs) :
    Goes c s fun t =>
      (∃ e, t.port = entryWritten s rest 3 e ∧ e.number = cycle 65535 old.number ∧ e.origin = .note ∧ e.outcome = r)
        ∧ t.attn.pending .tableStatus = true
        ∧ t = { u with
            port := t.port
            sup.faultedSince := if anyFaulted t.chain.map then s.sup.faultedSince else none
            attn := t.attn
            mem := t.mem }
        ∧ s.sameBut t rs := by
  have hold' : getAt u.port.tables 3 = some old := by rw [hport]; exact hold
  obtain ⟨-, -, hpend⟩ := tableStatus_entry hold' .note r clamps
  have hprt := tableStatus_port hold' r clamps
  have hstart : s.sameBut (u.tableStatus 3 .note r clamps) rs := by
    intro a ha
    have h1 := ha _ (hrs (by simp : entryRec 3 ∈ _))
    have h2 := ha _ (hrs (by simp : lastTableRec ∈ _))
    have h3 := ha _ (hrs (by simp : factorRec ∈ _))
    simp only [entryRec, lastTableRec, factorRec] at h1 h2 h3
    rw [read_tableStatus_of_out (by rw [hmem]; exact hc) _ _ _ h1 (by omega), hmem]
  have hw : (u.tableStatus 3 .note r clamps).mem.wf = true := tableStatus_wf _ _ _ _ _ (by rw [hmem]; exact hc)
  obtain ⟨n, hn⟩ : ∃ n, n = u.tableStatus 3 .note r clamps := ⟨_, rfl⟩
  have heq : n = { u with port := n.port, attn := n.attn, mem := n.mem } := by rw [hn]; exact tableStatus_eq ..
  rw [← hn] at hpend hprt hstart hw hex
  have hrn : n.restful := by
    rw [heq]
    exact restful_of_same hr rfl rfl rfl rfl rfl
  obtain ⟨hchain, hplan, hsupn, hevn, hpown, hston, hupdn⟩ : n.chain = u.chain ∧ n.plan = u.plan ∧ n.sup = s.sup ∧ n.ev = s.ev
      ∧ n.power = s.power ∧ n.store = s.store ∧ n.upd = u.upd := by
    rw [heq]
    exact ⟨rfl, rfl, hsup, hev, hpow, hstore, rfl⟩
  obtain ⟨-, hmarked⟩ := (calm_iff s).1 hcalm
  refine goes_tracked_react n (if anyFaulted n.chain.map then s.sup.faultedSince else none) hex hrn hcalm (by rw [hsupn]) ?_ ?_
    ⟨⟨⟨cycle 65535 old.number, .note, r, min (clampedFields clamps) 255, clamps.take 4⟩, ?_, rfl, rfl, rfl⟩, hpend (by simp), ?_, ?_⟩
  · unfold State.marked at hmarked ⊢
    rw [hsupn, hevn, hplan, hcap]
    exact hmarked
  · rw [hchain, hsupn]
    split
    · rename_i ha
      rw [if_pos (hfault ha)]
    · rfl
  · show n.port = _
    rw [hprt, hport]
    rfl
  · rw [heq, hsup]
  · exact sameBut_mirror hw hstart
      ⟨.inl (hptr.trans (congrArg pointerBytes hplan).symm), .inl (hcnt.trans (congrArg countBytes hplan).symm),
      .inl (hchn.trans (congrArg chainBytes hchain).symm), .inl (congrArg contactorBytes hsupn).symm,
      .inl ⟨(congrArg Sup.state hsupn).symm, (congrArg (fun v => v.once.set) hsupn).symm⟩,
      .inl ⟨by rw [hpown]; exact resumed_of_entry rfl, (congrArg powerBytes hpown).symm⟩, .inl (congrArg storeBytes hston).symm, .inl (hword.trans (congrArg updateWord hupdn).symm),
      by rw [hchain]; exact hmap,
      .inl ⟨(congrArg Recorder.slots hevn).symm, (congrArg Recorder.next hevn).symm⟩,
      .inl (hbytes.trans (congrArg updateBytes hupdn).symm),
      .inl (hdist.trans (congrArg (fun v => distArea v.dist) hupdn).symm),
      .inl (hstate.trans (congrArg Update.state hupdn).symm)⟩

/-! ### The maps that a note leaves -/

theorem configuredSet_length (m : List ModuleEntry) : (configuredSet m).length = m.length := by
  simp [configuredSet]

theorem takeModules_length (l : List HostModule) (m : List ModuleEntry) : (takeModules l m).length = m.length := by
  induction l generalizing m with
  | nil => cases m <;> rfl
  | cons h hs ih =>
    cases m with
    | nil => rfl
    | cons e es => simp [takeModules, ih]

theorem take_configuredSet (h : HostModule) (e : ModuleEntry) :
    ((h.take e).configured, (h.take e).cells, (h.take e).sensors) = (h.configured, h.cells, h.sensors) := by
  unfold HostModule.take
  split <;> rfl

/-- An entry whose part of the configured set changes becomes ABSENT with miss count 0 (R16). -/
theorem take_changed {h : HostModule} {e : ModuleEntry} (hch : h.changes e = true) :
    (h.take e).state = .absent ∧ (h.take e).miss = 0 := by
  simp [HostModule.take, hch]

/-- An entry whose part of the configured set stays keeps its state and its miss count (R16). -/
theorem take_unchanged {h : HostModule} {e : ModuleEntry} (hch : h.changes e = false) :
    (h.take e).configured = e.configured ∧ (h.take e).state = e.state ∧ (h.take e).miss = e.miss := by
  have hcfg : h.configured = e.configured := by
    simp only [HostModule.changes, Bool.not_eq_false', Bool.and_eq_true, decide_eq_true_eq] at hch
    exact hch.1.1
  simp [HostModule.take, hch, hcfg]

/-- An entry that is FAULTED after a map was taken was FAULTED before. -/
theorem anyFaulted_takeModules (l : List HostModule) (m : List ModuleEntry) :
    anyFaulted (takeModules l m) = true → anyFaulted m = true := by
  induction l generalizing m with
  | nil => cases m <;> exact id
  | cons h hs ih =>
    cases m with
    | nil => exact id
    | cons e es =>
      intro hf
      simp only [takeModules, anyFaulted, List.any_cons, Bool.or_eq_true] at hf ⊢
      refine hf.imp (fun he => ?_) (ih es)
      cases hch : h.changes e with
      | true => simp [take_changed hch] at he
      | false => simpa [take_unchanged hch] using he

/-- The entry of an address after a map was taken, from the host's entry and the working one. -/
theorem getAt_takeModules {l : List HostModule} {m : List ModuleEntry} {i : Nat} {h : HostModule} {e : ModuleEntry}
    (hl : getAt l i = some h) (hm : getAt m i = some e) : getAt (takeModules l m) i = some (h.take e) := by
  induction l generalizing m i with
  | nil => exact nomatch hl
  | cons a l ih =>
    cases m with
    | nil => exact nomatch hm
    | cons b m =>
      cases i with
      | zero =>
        obtain rfl : a = h := Option.some.inj hl
        obtain rfl : b = e := Option.some.inj hm
        rfl
      | succ i => exact ih (m := m) (i := i) hl hm

theorem getAt_map {α β : Type} (f : α → β) (l : List α) (i : Nat) : getAt (l.map f) i = (getAt l i).map f := by
  induction l generalizing i with
  | nil => rfl
  | cons a l ih => cases i with
    | zero => rfl
    | succ i => exact ih i

/-- The host's entry of an address, as the module map gives it. -/
theorem getAt_readModules (m : Memory) (lim : Limits) {i : Nat} (hi : i < 24) :
    getAt (readModules m lim).1 i = some (readModule m lim (i + 1)).1 := by
  have haddr : ∀ j, j < 24 → getAt addresses j = some (j + 1) := by decide
  simp only [readModules, getAt_map, haddr i hi, Option.map_some]

theorem readModule_counts (m : Memory) (lim : Limits) (i : Nat) :
    (readModule m lim (i + 1)).1.cells = max 4 (min 16 (m.num (0x501 + 16 * i) 1))
      ∧ (readModule m lim (i + 1)).1.sensors = min 4 (m.num (0x502 + 16 * i) 1) := by
  have h1 : 0x500 + 16 * (i + 1 - 1) + 1 = 0x501 + 16 * i := by omega
  have h2 : 0x500 + 16 * (i + 1 - 1) + 2 = 0x502 + 16 * i := by omega
  simp only [readModule, h1, h2, clampNat]
  constructor
  · split
    · omega
    · split <;> omega
  · omega

/-- What a taken map leaves before its survey is asked for. -/
def State.withMap (s : State) (l : List HostModule) : State := { s with
  chain.map := takeModules l s.chain.map
  chain.returning := s.chain.returning.filter fun r => !setMoved s.chain.map (takeModules l s.chain.map) r.1
  plan.kept := discardKept s.chain.map (takeModules l s.chain.map) s.plan.kept
  upd.dist := s.upd.dist.map (DistRec.noteMove s.chain.map (takeModules l s.chain.map)) }

theorem setModules_same {s : State} {l : List HostModule}
    (h : configuredSet s.chain.map = configuredSet (takeModules l s.chain.map)) : s.setModules l = s.withMap l := by
  rw [State.setModules, if_pos h]
  rfl

theorem setModules_moved {s : State} {l : List HostModule}
    (h : configuredSet s.chain.map ≠ configuredSet (takeModules l s.chain.map)) :
    s.setModules l = (s.withMap l).requestSurvey := by
  rw [State.setModules, if_neg h]
  rfl

/-- The moved mark of a distribution record is not shown. -/
theorem distArea_noteMove (old new : List ModuleEntry) (l : List DistRec) :
    distArea (l.map (DistRec.noteMove old new)) = distArea l := by
  have hrec : ∀ d, distBytes (DistRec.noteMove old new d) = distBytes d := fun d => by
    unfold DistRec.noteMove
    split <;> rfl
  simp [distArea, List.flatMap_map, hrec]

theorem takeModuleMap_refused {s : State} {r : List HostModule × List ClampRec} {o : TableOutcome}
    (hr : readModules s.mem s.store.active = r) (h : s.mapRefusal r.1 = some o) :
    s.takeModuleMap = s.tableStatus 3 .note o r.2 := by
  simp only [State.takeModuleMap, hr, h]

theorem takeModuleMap_taken {s : State} {r : List HostModule × List ClampRec}
    (hr : readModules s.mem s.store.active = r) (h : s.mapRefusal r.1 = none) :
    s.takeModuleMap = (s.setModules r.1).tableStatus 3 .note (takenOutcome r.2) r.2 := by
  simp only [State.takeModuleMap, hr, h]

/-- What a taken map says of an address, when the working entry before is known (R16). -/
theorem takeModules_entry (m : Memory) (lim : Limits) {map : List ModuleEntry} (hlen : map.length = 24) {i : Nat}
    {e : ModuleEntry} (he : getAt map i = some e) :
    ∃ e', getAt (takeModules (readModules m lim).1 map) i = some e'
      ∧ e'.cells = max 4 (min 16 (m.num (0x501 + 16 * i) 1)) ∧ e'.sensors = min 4 (m.num (0x502 + 16 * i) 1)
      ∧ (e'.configured ≠ e.configured ∨ e'.cells ≠ e.cells ∨ e'.sensors ≠ e.sensors → e'.state = .absent ∧ e'.miss = 0)
      ∧ (e'.configured = e.configured → e'.cells = e.cells → e'.sensors = e.sensors →
          e'.state = e.state ∧ e'.miss = e.miss) := by
  have hi : i < 24 := hlen ▸ getAt_isSome.1 (by rw [he]; rfl)
  obtain ⟨h, hh⟩ : ∃ h, h = (readModule m lim (i + 1)).1 := ⟨_, rfl⟩
  have hset := take_configuredSet h e
  simp only [Prod.mk.injEq] at hset
  obtain ⟨hcfg, hcells, hsens⟩ := hset
  obtain ⟨hc, hs⟩ := readModule_counts m lim i
  rw [← hh] at hc hs
  refine ⟨h.take e, getAt_takeModules ((getAt_readModules m lim hi).trans (congrArg some hh.symm)) he, hcells.trans hc,
    hsens.trans hs, fun hne => take_changed ?_, fun h1 h2 h3 => ?_⟩
  · rw [hcfg, hcells, hsens] at hne
    simp only [HostModule.changes, Bool.not_eq_true', Bool.and_eq_false_iff, decide_eq_false_iff_not]
    tauto
  · obtain ⟨-, hst, hms⟩ := take_unchanged (h := h) (e := e) (by
      rw [hcfg] at h1
      rw [hcells] at h2
      rw [hsens] at h3
      simp [HostModule.changes, h1, h2, h3])
    exact ⟨hst, hms⟩

/-- Settles O20. The three outcomes of a module map each end with its status entry; what differs is the map before it. -/
theorem moduleMapNote : Obligations.ModuleMapNote := by
  unfold Obligations.ModuleMapNote
  intro w rest s old hc hcalm hshape hrest hn hk h3 hold
  have hex := tablesModuleMap_react hn hk h3
  have hlen : s.chain.map.length = 24 := by
    obtain ⟨-, -, -, hl, -⟩ := hshape
    exact hl
  have hr1 : (s.noteTaken rest).restful := restful_of_same hrest rfl rfl rfl rfl rfl
  refine ⟨fun o ho => ?_, fun hnone hset => ?_, fun hnone hset hocc hsv hsl hno => ?_⟩
  · rw [takeModuleMap_refused (s := s.noteTaken rest) rfl ho] at hex
    refine Goes.mono (goes_mapStatus (rest := rest) (rs := [entryRec 3, lastTableRec, factorRec]) hc hcalm hex hr1 hold
      rfl rfl rfl rfl rfl rfl rfl rfl rfl rfl rfl rfl rfl rfl id (.inl rfl) (List.Subset.refl _)) ?_
    rintro t ⟨⟨e, hport, hnum, horg, hout⟩, hpend, ht, hbut⟩
    refine ⟨⟨e, hnum, horg, hout, ?_⟩, hpend, hbut⟩
    have hmap : t.chain.map = s.chain.map := by rw [ht]; rfl
    have hfs : (if anyFaulted t.chain.map then s.sup.faultedSince else none) = s.sup.faultedSince := by
      rw [hmap]
      exact (ite_congr rfl (fun h => by rw [if_pos h]) fun _ => rfl).trans (faultedSince_kept (now := s.now) hcalm rfl)
    rw [hfs, hport] at ht
    exact ht
  · rw [takeModuleMap_taken (s := s.noteTaken rest) (r := readModules s.mem s.store.active) rfl hnone, setModules_same (s := s.noteTaken rest) hset] at hex
    have hr2 : ((s.noteTaken rest).withMap (readModules s.mem s.store.active).1).restful :=
      ⟨resting_of_same hr1.1 rfl rfl rfl rfl rfl rfl rfl rfl, hr1.2⟩
    refine Goes.mono (goes_mapStatus (rest := rest) (rs := [entryRec 3, lastTableRec, factorRec, mapRec]) hc hcalm hex
      hr2 hold rfl rfl rfl rfl rfl rfl rfl rfl rfl rfl rfl rfl (distArea_noteMove _ _ _).symm rfl
      (anyFaulted_takeModules _ _) (.inr ⟨by simp, (takeModules_length _ _).trans hlen⟩) (by simp)) ?_
    rintro t ⟨hentry, hpend, ht, hbut⟩
    have hchain := congrArg State.chain ht
    have hplan := congrArg State.plan ht
    have hupd := congrArg State.upd ht
    have hmap := congrArg Chain.map hchain
    refine ⟨hmap, hentry, hpend, ?_, hbut⟩
    rw [hmap] at ht
    rw [hchain, hplan, hupd]
    exact ht
  · rw [takeModuleMap_taken (s := s.noteTaken rest) (r := readModules s.mem s.store.active) rfl hnone, setModules_moved (s := s.noteTaken rest) hset] at hex
    rw [requestSurvey_new (s := (s.noteTaken rest).withMap _) hsv hocc.2.2 hsl hno] at hex
    refine Goes.mono (goes_mapStatus (rest := rest) (rs := [entryRec 3, lastTableRec, factorRec, mapRec]) hc hcalm hex
      ⟨hr1.1, .inr hocc⟩ hold rfl rfl rfl rfl rfl rfl rfl rfl rfl rfl rfl rfl (distArea_noteMove _ _ _).symm rfl
      (anyFaulted_takeModules _ _) (.inr ⟨by simp, (takeModules_length _ _).trans hlen⟩) (by simp)) ?_
    rintro t ⟨hentry, hpend, ht, hbut⟩
    have hchain := congrArg State.chain ht
    have hplan := congrArg State.plan ht
    have hupd := congrArg State.upd ht
    have hmap := congrArg Chain.map hchain
    refine ⟨congrArg Chain.requests hchain, fun i e he => ?_, hentry, hpend, ?_, hbut⟩
    · rw [hmap]
      exact takeModules_entry s.mem s.store.active hlen he
    · rw [hmap] at ht
      rw [hchain, hplan, hupd]
      exact ht

end Sys2Proof.Machine

namespace Sys2Proof.Machine

/-! ### What RESET_LINE writes -/

theorem read_put_of_out {s : State} (hc : s.canonical) {base : Nat} {bs : List Byte} {a : Nat}
    (ha : a < base ∨ base + bs.length ≤ a) : Memory.read (s.put base bs).mem a = Memory.read s.mem a :=
  read_store_of_out hc ha

/-- The first bytes of a stored run read as they were stored. -/
theorem readBytes_store_prefix {m : Memory} (hw : m.wf = true) {base n : Nat} {xs ys : List Byte} (hn : xs.length = n)
    (hm : base + (xs ++ ys).length ≤ memSize) : (m.store base (xs ++ ys)).readBytes base n = xs := by
  rw [readBytes_take _ _ _ ys.length, ← hn, ← List.length_append, readBytes_store hw hm, List.take_left]

theorem num_put_same {s : State} (hc : s.canonical) {base n v : Nat} (hb : base + n ≤ memSize) :
    (s.put base (le n v)).mem.num base n = v % 256 ^ n := by
  have hbytes : (s.put base (le n v)).mem.readBytes base n = le n v := by
    have h := readBytes_store (bs := le n v) hc (by rwa [le_length])
    rwa [le_length] at h
  rw [Memory.num, hbytes, ofLe_le]

theorem converterBytes_length (c : Conv) : (converterBytes c).length = 36 := by
  unfold converterBytes
  split <;> simp

/-- The directory is written below the enables (R173). -/
theorem read_showDirectory_of_out {s : State} (hc : s.canonical) {a : Nat} (ha : 0x104 ≤ a) :
    Memory.read s.showDirectory.mem a = Memory.read s.mem a := by
  have hw : s.mem.wf = true := hc
  simp only [State.showDirectory, State.showConverter, State.showSilence, State.put]
  iterate 8 rw [read_store_of_out (by (repeat' apply store_wf); exact hw) (by simp [noteFaultBytes_length, converterBytes_length]; omega)]

/-- The update word is written with the directory (R166, R167). -/
theorem showDirectory_updateWord {s : State} (hc : s.canonical) :
    s.showDirectory.mem.readBytes 0xB0 4 = updateWord s.upd := by
  have hw : s.mem.wf = true := hc
  simp only [State.showDirectory, State.showConverter, State.showSilence, State.put]
  rw [readBytes_congr fun a _ _ => read_store_of_out (by (repeat' apply store_wf); exact hw) (.inl (by omega))]
  exact readBytes_store_prefix (by (repeat' apply store_wf); exact hw) (updateWord_length _)
    (by simp [noteFaultBytes_length, memSize])

theorem read_showTables_of_out {s : State} (hc : s.canonical) (hs : s.chain.survey.length = 24) (hm : s.chain.map.length = 24)
    {a : Nat} (ha : a < 0x1000 ∨ 0x1400 ≤ a) : Memory.read s.showTables.mem a = Memory.read s.mem a := by
  have hl : (s.chain.survey.flatMap surveyBytes).length = 384 := by simp [List.length_flatMap, hs]
  have hl' : (s.chain.map.flatMap moduleBytes).length = 384 := by simp [List.length_flatMap, hm]
  simp only [State.showTables, State.showSurveyHeader]
  rw [read_put_of_out (put_wf _ _ _ (put_wf _ _ _ hc)) (by simp [hl', moduleAt]; omega),
    read_put_of_out (put_wf _ _ _ hc) (by simp [hl, surveyAt]; omega), read_put_of_out hc (by simp; omega)]

theorem read_showUpdate_of_out {s : State} (hc : s.canonical) {a : Nat} (ha : a < 0x4820 ∨ 0x4940 ≤ a) :
    Memory.read s.showUpdate.mem a = Memory.read s.mem a := by
  simp only [State.showUpdate]
  rw [read_put_of_out (put_wf _ _ _ hc) (by simp; omega), read_put_of_out hc (by simp; omega)]

/-- The update status is written whole (R166, R167). -/
theorem showUpdate_updateBytes {s : State} (hc : s.canonical) :
    s.showUpdate.mem.readBytes 0x4820 96 = updateBytes s.upd := by
  have h := readBytes_store (bs := updateBytes s.upd) (base := 0x4820) hc (by simp [memSize])
  rw [updateBytes_length] at h
  refine Eq.trans (readBytes_congr fun a _ _ => ?_) h
  exact read_put_of_out (put_wf _ _ _ hc) (.inl (by omega))

theorem read_clearPages_of_out {s : State} (hc : s.canonical) {a : Nat} (ha : a < 0x2800 ∨ 0x4800 ≤ a) :
    Memory.read s.clearPages.mem a = Memory.read s.mem a := by
  simp only [State.clearPages, List.foldl]
  iterate 8 rw [read_put_of_out (by (repeat' apply put_wf); exact hc) (by simp [pageAt]; omega)]

/-- What becomes of the slots when the states of a list of them are written FREE. -/
theorem freed_slots {s : State} (hc : s.canonical) (l : List Nat) (hl : ∀ j ∈ l, j < 8) :
    (∀ a, a < 0x200 ∨ 0x400 ≤ a →
      Memory.read (l.foldl (fun s j => s.put (slotAt j) (le 4 0)) s).mem a = Memory.read s.mem a)
    ∧ ∀ k, k ∈ l ∨ s.mem.num (slotAt k) 4 = 0 →
      (l.foldl (fun s j => s.put (slotAt j) (le 4 0)) s).mem.num (slotAt k) 4 = 0 := by
  induction l generalizing s with
  | nil => exact ⟨fun _ _ => rfl, fun k hk => hk.resolve_left (by simp)⟩
  | cons j l ih =>
    obtain ⟨hout, hin⟩ := ih (s := s.put (slotAt j) (le 4 0)) (store_wf hc) fun i hi => hl i (List.mem_cons_of_mem _ hi)
    have hj := hl j List.mem_cons_self
    refine ⟨fun a ha => (hout a ha).trans (read_put_of_out hc (by simp only [slotAt, le_length]; omega)), fun k hk => ?_⟩
    refine hin k ?_
    rcases eq_or_ne k j with rfl | hne
    · exact .inr (num_put_same hc (by simp only [slotAt, memSize]; omega))
    · refine hk.imp (fun hm => (List.mem_cons.1 hm).resolve_left hne) fun h0 => ?_
      rw [← h0]
      exact num_congr fun a h1 h2 => read_put_of_out hc (by simp only [slotAt, le_length] at *; omega)

theorem read_freeSlots_of_out {s : State} (hc : s.canonical) (hk : ∀ k, s.store.keySlip = some k → k < 8) {a : Nat}
    (ha : a < 0x200 ∨ 0x400 ≤ a) : Memory.read s.freeSlots.mem a = Memory.read s.mem a := by
  unfold State.freeSlots
  cases hkey : s.store.keySlip with
  | none => exact (freed_slots hc _ (by decide)).1 a ha
  | some k =>
    have := hk k hkey
    exact ((freed_slots (s := s.put (slotAt k + 8) (fit 32 [])) (store_wf hc) _ (by decide)).1 a ha).trans
      (read_put_of_out hc (by simp only [slotAt, fit_length]; omega))

theorem freeSlots_free {s : State} (hc : s.canonical) {k : Nat} (hk : k < 8) : s.freeSlots.mem.num (slotAt k) 4 = 0 := by
  have hmem : k ∈ [0, 1, 2, 3, 4, 5, 6, 7] := by simp; omega
  unfold State.freeSlots
  cases s.store.keySlip with
  | none => exact (freed_slots hc _ (by decide)).2 k (.inl hmem)
  | some j => exact (freed_slots (s := s.put (slotAt j + 8) (fit 32 [])) (store_wf hc) _ (by decide)).2 k (.inl hmem)

end Sys2Proof.Machine

namespace Sys2Proof.Machine

/-! ### The chunk descriptors at RESET_LINE (R150) -/

/-- Bytes spell a number that is written with the same bytes. -/
theorem le_ofLe (l : List Byte) : le l.length (ofLe l) = l := by
  induction l with
  | nil => rfl
  | cons x l ih =>
    have hx := x.isLt
    have hlow : BitVec.ofNat 8 (x.toNat + 256 * ofLe l) = x := by
      apply BitVec.eq_of_toNat_eq
      rw [BitVec.toNat_ofNat]
      omega
    have hhigh : (x.toNat + 256 * ofLe l) / 256 = ofLe l := by omega
    simp only [List.length_cons, le, ofLe, hlow, hhigh, ih]

theorem readBytes_length (m : Memory) (b n : Nat) : (m.readBytes b n).length = n := by
  induction n generalizing b with
  | zero => rfl
  | succ n ih => simp [Memory.readBytes, ih]

theorem le_num (m : Memory) (b n : Nat) : le n (m.num b n) = m.readBytes b n := by
  have h := le_ofLe (m.readBytes b n)
  rwa [readBytes_length] at h

theorem readBytes_split (m : Memory) (b n k : Nat) :
    m.readBytes b (n + k) = m.readBytes b n ++ m.readBytes (b + n) k := by
  induction n generalizing b with
  | zero => simp [Memory.readBytes]
  | succ n ih =>
    rw [Nat.add_right_comm]
    simp only [Memory.readBytes, List.cons_append, ih, Nat.add_assoc, Nat.add_comm 1 n]

theorem num_one (m : Memory) (a : Nat) : m.num a 1 = (Memory.read m a).toNat := by
  simp [Memory.num, Memory.readBytes, ofLe]

/-- Whether a descriptor reads FILLED or TAKING. -/
def State.bufferHeld (s : State) (buf : Buffer) : Prop := bufferState s.mem buf = 1 ∨ bufferState s.mem buf = 2

theorem resetBuffer_given {s : State} {buf : Buffer} (h : s.bufferHeld buf) :
    s.resetBuffer buf = s.giveBack buf (s.mem.num (descriptorAt buf + 8) 2) .rejected (some .notReceiving) := if_pos h

theorem resetBuffer_left {s : State} {buf : Buffer} (h : ¬ s.bufferHeld buf) : s.resetBuffer buf = s := if_neg h

theorem read_giveBack_of_out {s : State} (hc : s.canonical) (buf : Buffer) (n : Nat) (st : BufferState)
    (c : Option RejectCause) {a : Nat} (hf : a < 0x100 ∨ 0x104 ≤ a)
    (ha : a < descriptorAt buf + 8 ∨ descriptorAt buf + 12 ≤ a) :
    Memory.read (s.giveBack buf n st c).mem a = Memory.read s.mem a := by
  rw [State.giveBack, read_raise_of_out (s := s.setBuffer buf n st c) (put_wf _ _ _ hc) _ hf]
  exact read_put_of_out hc (by simpa using ha)

theorem read_resetBuffer_of_out {s : State} (hc : s.canonical) (buf : Buffer) {a : Nat} (hf : a < 0x100 ∨ 0x104 ≤ a)
    (ha : a < descriptorAt buf + 8 ∨ descriptorAt buf + 12 ≤ a) :
    Memory.read (s.resetBuffer buf).mem a = Memory.read s.mem a := by
  by_cases h : s.bufferHeld buf
  · rw [resetBuffer_given h]
    exact read_giveBack_of_out hc buf _ _ _ hf ha
  · rw [resetBuffer_left h]

/-- A descriptor given back at RESET_LINE reads REJECTED with cause NOT_RECEIVING, its other fields as before. -/
theorem resetBuffer_shows {s : State} (hc : s.canonical) {buf : Buffer} (h : s.bufferHeld buf) :
    bufferState (s.resetBuffer buf).mem buf = 4 ∧ (s.resetBuffer buf).mem.num (descriptorAt buf + 10) 1 = 4
      ∧ (s.resetBuffer buf).mem.readBytes (descriptorAt buf) 10 = s.mem.readBytes (descriptorAt buf) 10 := by
  have hd : 0x4800 ≤ descriptorAt buf ∧ descriptorAt buf ≤ 0x4810 := by cases buf <;> simp [descriptorAt]
  have hmem : ∀ a, 0x104 ≤ a → Memory.read (s.resetBuffer buf).mem a = Memory.read (s.mem.store (descriptorAt buf + 8)
      (le 2 (s.mem.num (descriptorAt buf + 8) 2) ++ [4, 4])) a := fun a ha => by
    rw [resetBuffer_given h]
    exact read_raise_of_out (put_wf _ _ _ hc) _ (.inr ha)
  have hbyte : ∀ k (_ : k = 2 ∨ k = 3), (s.resetBuffer buf).mem.num (descriptorAt buf + 8 + k) 1 = 4 := fun k hk => by
    rw [num_one, hmem _ (by omega), read_store_of_in hc (by simp; omega) (by simp only [memSize]; omega)]
    rcases hk with rfl | rfl <;> rfl
  refine ⟨hbyte 3 (.inr rfl), hbyte 2 (.inl rfl), ?_⟩
  rw [readBytes_congr fun a h1 _ => hmem a (by omega), readBytes_split _ _ 8 2, readBytes_split s.mem _ 8 2]
  congr 1
  · exact readBytes_congr fun a _ h2 => read_store_of_out hc (.inl h2)
  · rw [readBytes_store_prefix hc (le_length _ _) (by simp [memSize]; omega), le_num]

theorem resetBuffer_pending (s : State) (buf : Buffer) (f : Factor) :
    (s.resetBuffer buf).attn.pending f = true ↔ (s.bufferHeld buf ∧ f = .updateState) ∨ s.attn.pending f = true := by
  by_cases h : s.bufferHeld buf
  · rw [resetBuffer_given h, State.giveBack, raise_pending]
    rw [Bool.or_eq_true, decide_eq_true_eq]
    exact or_congr ⟨fun e => ⟨h, e.symm⟩, fun e => e.2.symm⟩ Iff.rfl
  · simp [resetBuffer_left h, h]

theorem resetBuffer_right {s : State} (h : s.attnRight) (buf : Buffer) : (s.resetBuffer buf).attnRight := by
  by_cases hb : s.bufferHeld buf
  · rw [resetBuffer_given hb]
    exact raise_right (s := s.setBuffer buf _ _ _) h _
  · rwa [resetBuffer_left hb]

/-- Both descriptors at RESET_LINE: each is given back or stays, whatever the other does. -/
def State.resetBuffers (s : State) : State := (s.resetBuffer .a).resetBuffer .b

theorem read_resetBuffers_of_out {s : State} (hc : s.canonical) {a : Nat} (hf : a < 0x100 ∨ 0x104 ≤ a)
    (ha : a < 0x4808 ∨ 0x481C ≤ a) : Memory.read s.resetBuffers.mem a = Memory.read s.mem a := by
  rw [State.resetBuffers, read_resetBuffer_of_out (resetBuffer_wf _ _ hc) _ hf (by simp only [descriptorAt]; omega),
    read_resetBuffer_of_out hc _ hf (by simp only [descriptorAt]; omega)]

/-- One buffer's descriptor does not move with the other's. -/
theorem resetBuffer_other {s : State} (hc : s.canonical) {x d : Buffer} (hne : x ≠ d) {n : Nat} (hn : n ≤ 16) {k : Nat}
    (hk : k + n ≤ 16) : (s.resetBuffer x).mem.readBytes (descriptorAt d + k) n = s.mem.readBytes (descriptorAt d + k) n := by
  refine readBytes_congr fun a h1 h2 => read_resetBuffer_of_out hc x (.inr ?_) ?_
  all_goals cases x <;> cases d <;> simp only [descriptorAt, ne_eq, not_true_eq_false] at * <;> omega

theorem bufferHeld_other {s : State} (hc : s.canonical) {x d : Buffer} (hne : x ≠ d) :
    (s.resetBuffer x).bufferHeld d ↔ s.bufferHeld d := by
  have h : bufferState (s.resetBuffer x).mem d = bufferState s.mem d :=
    congrArg ofLe (resetBuffer_other hc hne (by omega) (by omega))
  rw [State.bufferHeld, h]
  exact Iff.rfl

/-- What RESET_LINE leaves in a buffer's descriptor (R150). -/
def descriptorReset (s t : State) (buf : Buffer) : Prop :=
  (bufferState s.mem buf = 1 ∨ bufferState s.mem buf = 2 →
    bufferState t.mem buf = 4 ∧ t.mem.num (descriptorAt buf + 10) 1 = 4
      ∧ t.mem.readBytes (descriptorAt buf) 10 = s.mem.readBytes (descriptorAt buf) 10)
  ∧ (bufferState s.mem buf ≠ 1 → bufferState s.mem buf ≠ 2 →
    t.mem.readBytes (descriptorAt buf) 16 = s.mem.readBytes (descriptorAt buf) 16)

theorem resetBuffer_descriptor {s : State} (hc : s.canonical) (buf : Buffer) : descriptorReset s (s.resetBuffer buf) buf :=
  ⟨resetBuffer_shows hc, fun h1 h2 => by rw [resetBuffer_left (s := s) (not_or.2 ⟨h1, h2⟩)]⟩

/-- Descriptors that read alike have their fields alike. -/
theorem descriptor_fields {m n : Memory} {buf : Buffer}
    (h : m.readBytes (descriptorAt buf) 16 = n.readBytes (descriptorAt buf) 16) :
    m.readBytes (descriptorAt buf) 10 = n.readBytes (descriptorAt buf) 10
      ∧ m.num (descriptorAt buf + 10) 1 = n.num (descriptorAt buf + 10) 1 ∧ bufferState m buf = bufferState n buf := by
  rw [readBytes_split _ _ 10 6, readBytes_split n _ 10 6] at h
  obtain ⟨h10, h6⟩ := List.append_inj h (by simp only [readBytes_length])
  simp only [Memory.readBytes, List.cons.injEq] at h6
  obtain ⟨hcause, hstate, -⟩ := h6
  exact ⟨h10, by rw [num_one, num_one, hcause], by rw [bufferState, bufferState, num_one, num_one]; exact congrArg _ hstate⟩

/-- A descriptor reset stands for states whose descriptors read alike. -/
theorem descriptorReset_congr {s s' t t' : State} {buf : Buffer} (h : descriptorReset s t buf)
    (hs : s'.mem.readBytes (descriptorAt buf) 16 = s.mem.readBytes (descriptorAt buf) 16)
    (ht : t'.mem.readBytes (descriptorAt buf) 16 = t.mem.readBytes (descriptorAt buf) 16) : descriptorReset s' t' buf := by
  obtain ⟨hs10, hs1, hss⟩ := descriptor_fields hs
  obtain ⟨ht10, ht1, hts⟩ := descriptor_fields ht
  rw [descriptorReset, hss, hts, hs10, ht10, ht1, hs, ht]
  exact h

theorem resetBuffers_descriptor {s : State} (hc : s.canonical) (buf : Buffer) : descriptorReset s s.resetBuffers buf := by
  cases buf with
  | a =>
    exact descriptorReset_congr (resetBuffer_descriptor hc .a) rfl
      (resetBuffer_other (x := .b) (d := .a) (n := 16) (k := 0) (resetBuffer_wf _ _ hc) (by decide) (by omega) (by omega))
  | b =>
    exact descriptorReset_congr (resetBuffer_descriptor (resetBuffer_wf _ _ hc) .b)
      (resetBuffer_other (x := .a) (d := .b) (n := 16) (k := 0) hc (by decide) (by omega) (by omega)).symm rfl

theorem resetBuffers_pending {s : State} (hc : s.canonical) (f : Factor) :
    s.resetBuffers.attn.pending f = true ↔
      ((∃ buf, s.bufferHeld buf) ∧ f = .updateState) ∨ s.attn.pending f = true := by
  have hex : (∃ buf, s.bufferHeld buf) ↔ s.bufferHeld .b ∨ s.bufferHeld .a :=
    ⟨fun ⟨buf, h⟩ => by cases buf <;> tauto, fun h => h.elim (⟨_, ·⟩) (⟨_, ·⟩)⟩
  rw [State.resetBuffers, resetBuffer_pending, resetBuffer_pending, bufferHeld_other hc (by decide), hex]
  tauto

theorem resetBuffers_right {s : State} (h : s.attnRight) : s.resetBuffers.attnRight :=
  resetBuffer_right (resetBuffer_right h _) _

end Sys2Proof.Machine

namespace Sys2Proof.Machine

/-! ### RESET_LINE -/

theorem tableStatus_reset_attn (s : State) (id : Nat) (r : TableOutcome) (c : List ClampRec) :
    (s.tableStatus id .reset r c).attn = s.attn := by
  simp only [State.tableStatus]
  cases getAt s.port.tables id <;> rfl

/-- A factor is raised where a condition holds. -/
def State.raiseIf (s : State) (b : Bool) (f : Factor) : State := if b then s.raise f else s

@[simp] theorem raiseIf_frame (s : State) (b : Bool) (f : Factor) :
    (s.raiseIf b f).pins = s.pins ∧ (s.raiseIf b f).port = s.port ∧ (s.raiseIf b f).attn.enables = s.attn.enables
      ∧ (s.raiseIf b f).attn.levels = s.attn.levels ∧ (s.raiseIf b f).attn.mask = s.attn.mask
      ∧ (s.raiseIf b f).chain = s.chain ∧ (s.raiseIf b f).conv = s.conv ∧ (s.raiseIf b f).plan = s.plan
      ∧ (s.raiseIf b f).sup = s.sup ∧ (s.raiseIf b f).ev = s.ev ∧ (s.raiseIf b f).power = s.power
      ∧ (s.raiseIf b f).store = s.store ∧ (s.raiseIf b f).upd = s.upd := by
  cases b <;> simp [State.raiseIf]

theorem read_raiseIf_of_out {s : State} (hc : s.canonical) (b : Bool) (f : Factor) {a : Nat} (ha : a < 0x100 ∨ 0x104 ≤ a) :
    Memory.read (s.raiseIf b f).mem a = Memory.read s.mem a := by
  cases b
  · rfl
  · exact read_raise_of_out hc f ha

theorem raiseIf_canonical {s : State} (hc : s.canonical) (b : Bool) (f : Factor) : (s.raiseIf b f).canonical := by
  cases b
  · exact hc
  · exact raise_wf _ _ hc

theorem raiseIf_pending (s : State) (b : Bool) (f g : Factor) :
    (s.raiseIf b f).attn.pending g = true ↔ (b = true ∧ f = g) ∨ s.attn.pending g = true := by
  cases b
  · simp [State.raiseIf]
  · simp [State.raiseIf, raise_pending]

theorem raiseIf_right {s : State} (h : s.attnRight) (b : Bool) (f : Factor) : (s.raiseIf b f).attnRight := by
  cases b
  · exact h
  · exact raise_right h f

/-- What RESET_LINE leaves once every owner has written its records and before the status entries. -/
def State.resetRecords (s : State) (cut : CutRead) : State :=
  (s.freeSlots.resetBlocks cut).resetAttn.showDirectory.showTables.showUpdate.clearPages

/-- What RESET_LINE leaves before the chunk descriptors are given back. -/
def State.resetStatus (s : State) (cut : CutRead) : State :=
  (State.tableStatus { s.resetRecords cut with
    mem := mirrorEvents none 0 s.ev.slots (s.resetRecords cut).ev.slots
      (mirrorBlock 0x90 (storeBytes s.store) (storeBytes (s.resetRecords cut).store) (s.resetRecords cut).mem) }
    0 .reset (takenOutcome (readPlans s.mem).2) (readPlans s.mem).2).tableStatus 3 .reset
      (takenOutcome (readModules s.mem factoryLimits).2) (readModules s.mem factoryLimits).2

/-- What RESET_LINE leaves. -/
def State.lineReset (s : State) (cut : CutRead) : State :=
  ((s.resetStatus cut).resetBuffers.raiseIf (!decide (s.upd.state = .idle)) .updateState).raiseIf s.ev.reset.2 .eventNew

theorem resetLine_next (cut : CutRead) (s : State) : exec (.resetLine cut) s = .next (s.lineReset cut) := by
  show execResetLine cut s = .next (State.raiseIf (State.raiseIf _ _ _) _ _)
  have hlast : ∀ u : State, State.raiseIf u s.ev.reset.2 .eventNew = if s.ev.reset.2 then u.raise .eventNew else u :=
    fun _ => rfl
  have hupd : ∀ u : State, State.raiseIf u (!decide (s.upd.state = .idle)) .updateState
      = if s.upd.state = .idle then u else u.raise .updateState := fun u => by
    by_cases h : s.upd.state = .idle <;> simp [State.raiseIf, h]
  rw [hlast, hupd]
  rfl

/-- RESET_LINE leaves every block at its values. -/
theorem lineReset_blocks (s : State) (cut : CutRead) :
    (s.lineReset cut).pins = { s.pins with resetN := true }
      ∧ (s.lineReset cut).chain = chainAtReset ((readModules s.freeSlots.mem factoryLimits).1.map HostModule.fresh)
      ∧ (s.lineReset cut).plan = planAtReset (readPlans s.freeSlots.mem).1 s.plan.setSeq
      ∧ (s.lineReset cut).sup = supAtReset s.sup.once ∧ (s.lineReset cut).ev = s.ev.reset.1
      ∧ (s.lineReset cut).power = powerAtResetLine s.power
      ∧ (s.lineReset cut).store = storeAtResetLine s.store (s.store.nvAfterReset cut)
      ∧ (s.lineReset cut).upd = updAtResetLine s.upd := by
  simp [State.lineReset, State.resetBuffers, State.resetStatus, State.resetRecords, State.resetBlocks]

/-- RESET_LINE empties the port but for the status of the tables, and keeps the charge counter. -/
theorem lineReset_port (s : State) (cut : CutRead) :
    (s.lineReset cut).port.notes = [] ∧ (s.lineReset cut).port.slots = copies 8 none ∧ (s.lineReset cut).port.fault = none
      ∧ (s.lineReset cut).port.faultCount = 0 ∧ (s.lineReset cut).conv.charge = s.conv.charge
      ∧ (s.lineReset cut).conv.chargeSat = s.conv.chargeSat ∧ (s.lineReset cut).conv.part = 0
      ∧ (s.lineReset cut).conv.us = 0 ∧ (s.lineReset cut).conv.history = [] := by
  simp [State.lineReset, State.resetBuffers, State.resetStatus, State.resetRecords, State.resetBlocks, convAtReset]

theorem resetStatus_attn (s : State) (cut : CutRead) :
    (s.resetStatus cut).attn = (s.freeSlots.resetBlocks cut).resetAttn.attn := by
  simp only [State.resetStatus, tableStatus_reset_attn]
  simp [State.resetRecords]

theorem resetStatus_right (s : State) (cut : CutRead) : (s.resetStatus cut).attnRight := by
  have hright : (s.freeSlots.resetBlocks cut).resetAttn.attnRight := judgeAttn_right _
  have hpow : (s.resetStatus cut).power = (s.freeSlots.resetBlocks cut).resetAttn.power := by
    simp [State.resetStatus, State.resetRecords]
  rw [State.attnRight, resetStatus_attn, hpow]
  exact hright

theorem resetStatus_pending (s : State) (cut : CutRead) (f : Factor) : (s.resetStatus cut).attn.pending f = false := by
  rw [resetStatus_attn]
  show BitVec.getLsbD 0 f.bit = false
  simp

/-- The levels that RESET_LINE reads are the host's (R190). -/
theorem lineReset_levels {s : State} (hc : s.canonical) (hk : ∀ k, s.store.keySlip = some k → k < 8) (cut : CutRead) :
    (s.lineReset cut).attn.mask = 0 ∧ (s.lineReset cut).attn.enables = BitVec.ofNat 20 (s.mem.num 0x104 4)
      ∧ (s.lineReset cut).attn.levels = (s.mem.readBytes 0x108 6).map (fun b => min b.toNat 3) := by
  have hnum : s.freeSlots.mem.num 0x104 4 = s.mem.num 0x104 4 :=
    num_congr fun a h1 h2 => read_freeSlots_of_out hc hk (by omega)
  have hlev : s.freeSlots.mem.readBytes 0x108 6 = s.mem.readBytes 0x108 6 :=
    readBytes_congr fun a h1 h2 => read_freeSlots_of_out hc hk (by omega)
  simp only [State.lineReset, State.resetBuffers, raiseIf_frame, resetBuffer_frame, resetStatus_attn]
  rw [← hnum, ← hlev]
  exact ⟨rfl, rfl, rfl⟩

/-! ### The memory after RESET_LINE -/

theorem resetRecords_canonical {s : State} (hc : s.canonical) (cut : CutRead) : (s.resetRecords cut).canonical := by
  have h1 : (s.freeSlots.resetBlocks cut).resetAttn.mem.wf = true := by
    simp only [resetAttn_frame]
    exact freeSlots_wf s hc
  exact clearPages_wf _ (showUpdate_wf _ (showTables_wf _ (showDirectory_wf _ h1)))

theorem copies_length {α : Type} (n : Nat) (x : α) : (copies n x).length = n := by
  induction n with
  | zero => rfl
  | succ n ih => simp [copies, ih]

theorem settleSlots_length (l : List Nat) (i : Nat) (v : List (Option EventRec)) : (settleSlots l i v).length = v.length := by
  induction v generalizing i with
  | nil => rfl
  | cons r v ih => simp [settleSlots, ih]

/-- Every owner writes its own records: the rest of the memory is that of the freed slots. -/
theorem read_resetRecords_of_out {s : State} (hc : s.canonical) (cut : CutRead) {a : Nat}
    (h : 0x104 ≤ a ∧ a < 0x1000 ∨ 0x1400 ≤ a ∧ a < 0x2800 ∨ 0x4800 ≤ a ∧ a < 0x4820 ∨ 0x4940 ≤ a) :
    Memory.read (s.resetRecords cut).mem a = Memory.read s.freeSlots.mem a := by
  have h0 : (s.freeSlots.resetBlocks cut).resetAttn.canonical := freeSlots_wf s hc
  have h1 := showDirectory_wf _ h0
  have h2 := showTables_wf _ h1
  have h3 := showUpdate_wf _ h2
  rw [State.resetRecords, read_clearPages_of_out h3 (by omega), read_showUpdate_of_out h2 (by omega),
    read_showTables_of_out h1 (by simp [State.resetBlocks, chainAtReset, copies_length])
      (by simp [State.resetBlocks, chainAtReset, readModules, addresses]) (by omega),
    read_showDirectory_of_out h0 (by omega)]
  rfl

/-- The status entries, the store record and the event area are all that is written after the owners' records. -/
theorem read_resetStatus_of_out {s : State} (hc : s.canonical) (hs : s.ev.slots.length = 16) (cut : CutRead) {a : Nat}
    (h : 0xB0 ≤ a ∧ a < 0xC0 ∨ 0x104 ≤ a ∧ a < 0x1800 ∨ 0x2800 ≤ a) :
    Memory.read (s.resetStatus cut).mem a = Memory.read (s.resetRecords cut).mem a := by
  have hrec : (s.resetRecords cut).mem.wf = true := resetRecords_canonical hc cut
  have hblk := mirrorBlock_wf (base := 0x90) (old := storeBytes s.store) (new := storeBytes (s.resetRecords cut).store) hrec
  have hev := mirrorEvents_wf (taken := none) (i := 0) (old := s.ev.slots) (new := (s.resetRecords cut).ev.slots) hblk
  have hlen : (s.resetRecords cut).ev.slots.length = 16 := by
    simp [State.resetRecords, State.resetBlocks, Recorder.reset, settleSlots_length, hs]
  rw [State.resetStatus, read_tableStatus_of_out (tableStatus_wf _ _ _ _ _ hev) _ _ _ (by simp only [tableAt]; omega) (by omega),
    read_tableStatus_of_out hev _ _ _ (by simp only [tableAt]; omega) (by omega)]
  refine (read_mirrorEvents_of_out hblk ?_).trans (read_mirrorBlock_of_out hrec ?_)
  · rw [hlen]
    simp only [eventAt]
    omega
  · rw [storeBytes_length]
    omega

/-- The update word and the update status show the engine after RESET_LINE. -/
theorem resetStatus_update {s : State} (hc : s.canonical) (hs : s.ev.slots.length = 16) (cut : CutRead) :
    (s.resetStatus cut).mem.readBytes 0xB0 4 = updateWord (updAtResetLine s.upd)
      ∧ (s.resetStatus cut).mem.readBytes 0x4820 96 = updateBytes (updAtResetLine s.upd) := by
  have h0 : (s.freeSlots.resetBlocks cut).resetAttn.canonical := freeSlots_wf s hc
  have h1 := showDirectory_wf _ h0
  have h2 := showTables_wf _ h1
  have h3 := showUpdate_wf _ h2
  rw [readBytes_congr fun a _ _ => read_resetStatus_of_out hc hs cut (by omega),
    readBytes_congr (base := 0x4820) fun a _ _ => read_resetStatus_of_out hc hs cut (by omega)]
  have hupd : (s.freeSlots.resetBlocks cut).resetAttn.upd = updAtResetLine s.upd := by simp [State.resetBlocks]
  constructor
  · rw [← hupd, ← showDirectory_updateWord h0]
    refine readBytes_congr fun a _ _ => ?_
    rw [State.resetRecords, read_clearPages_of_out h3 (by omega), read_showUpdate_of_out h2 (by omega),
      read_showTables_of_out h1 (by simp [State.resetBlocks, chainAtReset, copies_length])
        (by simp [State.resetBlocks, chainAtReset, readModules, addresses]) (by omega)]
  · have hupd' : (s.freeSlots.resetBlocks cut).resetAttn.showDirectory.showTables.upd = updAtResetLine s.upd := by
      simp [State.resetBlocks]
    rw [← hupd', ← showUpdate_updateBytes h2]
    exact readBytes_congr fun a _ _ => read_clearPages_of_out h3 (by omega)

theorem resetStatus_canonical {s : State} (hc : s.canonical) (cut : CutRead) : (s.resetStatus cut).canonical :=
  tableStatus_wf _ _ _ _ _ (tableStatus_wf _ _ _ _ _ (mirrorEvents_wf (mirrorBlock_wf (resetRecords_canonical hc cut))))

/-- The descriptors and the factor word are all that is written after the status entries. -/
theorem read_lineReset_of_out {s : State} (hc : s.canonical) (cut : CutRead) {a : Nat} (hf : a < 0x100 ∨ 0x104 ≤ a)
    (ha : a < 0x4808 ∨ 0x481C ≤ a) : Memory.read (s.lineReset cut).mem a = Memory.read (s.resetStatus cut).mem a := by
  have h0 := resetStatus_canonical hc cut
  have h1 : (s.resetStatus cut).resetBuffers.canonical := resetBuffer_wf _ _ (resetBuffer_wf _ _ h0)
  rw [State.lineReset, read_raiseIf_of_out (raiseIf_canonical h1 _ _) _ _ hf, read_raiseIf_of_out h1 _ _ hf,
    read_resetBuffers_of_out h0 hf ha]

theorem lineReset_pending {s : State} (hc : s.canonical) (cut : CutRead) (f : Factor) :
    (s.lineReset cut).attn.pending f = true ↔ (s.ev.reset.2 = true ∧ Factor.eventNew = f)
      ∨ (s.upd.state ≠ .idle ∧ Factor.updateState = f)
      ∨ ((∃ buf, (s.resetStatus cut).bufferHeld buf) ∧ f = .updateState) := by
  rw [State.lineReset, raiseIf_pending, raiseIf_pending, resetBuffers_pending (resetStatus_canonical hc cut)]
  simp [resetStatus_pending]

theorem lineReset_right (s : State) (cut : CutRead) : (s.lineReset cut).attnRight :=
  raiseIf_right (raiseIf_right (resetBuffers_right (resetStatus_right s cut)) _ _) _ _

/-- The descriptors stand as they were until they are given back. -/
theorem resetStatus_descriptor {s : State} (hc : s.canonical) (hk : ∀ k, s.store.keySlip = some k → k < 8)
    (hs : s.ev.slots.length = 16) (cut : CutRead) (buf : Buffer) :
    (s.resetStatus cut).mem.readBytes (descriptorAt buf) 16 = s.mem.readBytes (descriptorAt buf) 16 := by
  have hd : 0x4800 ≤ descriptorAt buf ∧ descriptorAt buf ≤ 0x4810 := by cases buf <;> simp [descriptorAt]
  refine readBytes_congr fun a h1 h2 => ?_
  rw [read_resetStatus_of_out hc hs cut (by omega), read_resetRecords_of_out hc cut (by omega),
    read_freeSlots_of_out hc hk (by omega)]

theorem lineReset_descriptor {s : State} (hc : s.canonical) (hk : ∀ k, s.store.keySlip = some k → k < 8)
    (hs : s.ev.slots.length = 16) (cut : CutRead) (buf : Buffer) : descriptorReset s (s.lineReset cut) buf := by
  have h0 := resetStatus_canonical hc cut
  have h1 : (s.resetStatus cut).resetBuffers.canonical := resetBuffer_wf _ _ (resetBuffer_wf _ _ h0)
  have hd : 0x4800 ≤ descriptorAt buf := by cases buf <;> simp [descriptorAt]
  refine descriptorReset_congr (resetBuffers_descriptor h0 buf) (resetStatus_descriptor hc hk hs cut buf).symm
    (readBytes_congr fun a _ _ => ?_)
  rw [State.lineReset, read_raiseIf_of_out (raiseIf_canonical h1 _ _) _ _ (by omega), read_raiseIf_of_out h1 _ _ (by omega)]

/-- Settles O25. -/
theorem resetLineKeeps : Obligations.ResetLineKeeps := by
  unfold Obligations.ResetLineKeeps
  intro cut s hc hshape
  obtain ⟨-, -, -, -, -, -, hslots, hkey, -⟩ := hshape
  refine ⟨_, resetLine_next cut s, ?_⟩
  obtain ⟨hpins, hchain, hplan, hsup, hev, hpow, hstore, hupd⟩ := lineReset_blocks s cut
  obtain ⟨hnotes, hports, hfault, hfaults, hcharge, hsat, hpart, hus, hhist⟩ := lineReset_port s cut
  obtain ⟨hmask, henab, hlev⟩ := lineReset_levels hc hkey cut
  obtain ⟨hword, hstatus⟩ := resetStatus_update hc hslots cut
  have hbuf := fun buf => resetStatus_descriptor hc hkey hslots cut buf
  have hheld : ∀ buf, (s.resetStatus cut).bufferHeld buf ↔ bufferState s.mem buf = 1 ∨ bufferState s.mem buf = 2 := by
    intro buf
    obtain ⟨-, -, h⟩ := descriptor_fields (hbuf buf)
    rw [State.bufferHeld, h]
  have hpend := fun f => lineReset_pending hc cut f
  simp only [hheld] at hpend
  simp only [hpins, hchain, hplan, hsup, hev, hpow, hstore, hupd, hnotes, hports, hfault, hfaults, hcharge, hsat, hpart, hus,
    hhist, hmask, henab, hlev, chainAtReset, supAtReset, powerAtResetLine, powerAtPowerOn, planAtReset, storeAtResetLine,
    updAtResetLine, updAtPowerOn, Recorder.reset, true_and, lineReset_right]
  refine ⟨rfl, rfl, fun f h1 h2 => ?_, fun h => if_neg h, fun h => if_pos h, ?_, ?_, fun buf => ?_, ?_, fun k hk => ?_,
    fun a ha => ?_⟩
  · rw [← Bool.not_eq_true, hpend f]
    rintro (⟨-, rfl⟩ | ⟨-, rfl⟩ | ⟨-, rfl⟩)
    exacts [h2 rfl, h1 rfl, h1 rfl]
  · rw [readBytes_congr fun a _ _ => read_lineReset_of_out hc cut (by omega) (by omega), readBytes_take _ _ _ 2, hword]
    rfl
  · rw [readBytes_congr fun a _ _ => read_lineReset_of_out hc cut (by omega) (by omega), readBytes_take _ _ _ 94, hstatus]
    rfl
  · exact lineReset_descriptor hc hkey hslots cut buf
  · rw [hpend]
    simp
  · rw [← freeSlots_free hc hk]
    refine num_congr fun a h1 h2 => ?_
    simp only [slotAt] at h1 h2
    rw [read_lineReset_of_out hc cut (by omega) (by omega), read_resetStatus_of_out hc hslots cut (by omega),
      read_resetRecords_of_out hc cut (by omega)]
  · rw [read_lineReset_of_out hc cut (by omega) (by omega), read_resetStatus_of_out hc hslots cut (by omega),
      read_resetRecords_of_out hc cut (by omega), read_freeSlots_of_out hc hkey (by omega)]

end Sys2Proof.Machine

namespace Sys2Proof.Machine

/-! ### The entry into RUN from a wake -/

theorem restartConverter_scan {s : State} (h : s.conv.scanning = true) :
    s.restartConverter.conv.scanning = true ∧ s.restartConverter.conv.history = [] ∧ s.restartConverter.conv.us = 0 := by
  simp [State.restartConverter, h, State.clearScan]

/-- The state in which the part is set for RUN, but for its counts. -/
def State.runAsked (s : State) : State :=
  let s1 := State.restartConverter { s with power.state := .run }
  if s1.chain.state = .surveying then s1 else s1.requestSurvey

theorem runPrepared_eq (s : State) : s.runPrepared = { s.runAsked with
    sup.silence := 0
    sup.warn := false
    sup.lapsed := false
    plan.high := 0
    plan.low := 0
    plan.temp := 0
    plan.implausible := 0
    plan.fresh := none
    plan.quiet := false
    plan.patrolReport := none
    conv.snapTimer := 0 } := rfl

theorem requestSurvey_congr {s u : State} (h : u.chain = s.chain) :
    u.requestSurvey.chain.requests = s.requestSurvey.chain.requests := by
  simp only [State.requestSurvey, State.request, h]
  repeat' split
  all_goals simp only [h]

theorem runAsked_kept (s : State) : s.runAsked.power = { s.power with state := .run } ∧ s.runAsked.conv.part = s.conv.part
    ∧ s.runAsked.chain.requests
      = if s.chain.state = .surveying then s.chain.requests else s.requestSurvey.chain.requests := by
  have hchain : (State.restartConverter { s with power.state := .run }).chain = s.chain := by simp
  unfold State.runAsked
  simp only [hchain]
  split
  · simp
  · exact ⟨by simp, by simp, requestSurvey_congr hchain⟩

theorem runAsked_scan {s : State} (h : s.conv.scanning = true) :
    s.runAsked.conv.scanning = true ∧ s.runAsked.conv.history = [] ∧ s.runAsked.conv.us = 0 := by
  have hr := restartConverter_scan (s := { s with power.state := .run }) h
  unfold State.runAsked
  simp only []
  split
  · exact hr
  · simpa using hr

/-- The power controller after the entry into RUN from a wake (R120). -/
theorem enterRun_power (s : State) (r : Option PatrolResult) : (s.enterRun r).power = { s.power with
    state := .run
    wakeOut := true
    wakeOutAt := s.now
    lastWake := some (s.power.pend, r)
    pend := 0
    target := .none
    patrol := none
    returning := none } := by
  obtain ⟨hp, hpart, -⟩ := runAsked_kept s
  rw [enterRun_eq]
  simp [runPrepared_eq, hp, hpart, State.now]

/-- The counts that begin again with the entry into RUN (R120). -/
theorem enterRun_counts (s : State) (r : Option PatrolResult) :
    (s.enterRun r).conv.snapTimer = 0 ∧ (s.enterRun r).sup.silence = 0 ∧ (s.enterRun r).sup.warn = false
      ∧ (s.enterRun r).sup.lapsed = false ∧ (s.enterRun r).plan.high = 0 ∧ (s.enterRun r).plan.low = 0
      ∧ (s.enterRun r).plan.temp = 0 ∧ (s.enterRun r).plan.implausible = 0 ∧ (s.enterRun r).plan.fresh = none := by
  rw [enterRun_eq]
  simp [runPrepared_eq]

theorem enterRun_scan {s : State} (h : s.conv.scanning = true) (r : Option PatrolResult) :
    (s.enterRun r).conv.scanning = true ∧ (s.enterRun r).conv.history = [] ∧ (s.enterRun r).conv.us = 0 := by
  rw [enterRun_eq]
  simpa [runPrepared_eq] using runAsked_scan h

/-- The FULL_WAKE event holds the sources and the held estimate (R120). -/
theorem enterRun_inbox (s : State) (r : Option PatrolResult) :
    ∃ e, (s.enterRun r).ev.inbox = s.ev.inbox ++ [e] ∧ e.kind = .fullWake
      ∧ e.detail = .fullWake s.power.pend s.power.estimate.detail := by
  obtain ⟨hp, -⟩ := runAsked_kept s
  have hpow : s.runPrepared.power = { s.power with state := .run } := hp
  rw [enterRun_eq]
  simp [State.sendStill, State.send, hpow]

theorem enterRun_wakeReason (s : State) (r : Option PatrolResult) : (s.enterRun r).attn.pending .wakeReason = true := by
  rw [enterRun_eq]
  exact raise_pending_self _ _

theorem enterRun_requests (s : State) (r : Option PatrolResult) :
    (s.enterRun r).chain.requests = if s.chain.state = .surveying then s.chain.requests else s.requestSurvey.chain.requests := by
  obtain ⟨-, -, hq⟩ := runAsked_kept s
  rw [enterRun_eq]
  simpa [runPrepared_eq] using hq

/-- After the entry into RUN from a wake only the arbiter may act, where the burst and the engine rest. -/
theorem enterRun_resting {s : State} (hb : s.plan.burst = none) (he : s.power.entry = none) (hp : s.upd.pause = none)
    (hd : s.upd.state ≠ .distributing) (r : Option PatrolResult) : (s.enterRun r).resting := by
  have hpow := enterRun_power s r
  refine ⟨by simpa using hb, by simpa using hp, by simpa using hd, fun e h => ?_, fun p h => ?_, fun x h => ?_⟩
  all_goals rw [hpow] at h
  · exact absurd (he.symm.trans h) (by simp)
  · exact nomatch h
  · exact nomatch h

theorem sameAround_enterRun (s : State) (r : Option PatrolResult) : s.sameAround (s.enterRun r) := by
  simp [State.sameAround, enterRun_power]

theorem sameContactors_enterRun (s : State) (r : Option PatrolResult) : s.sameContactors (s.enterRun r) := by
  simp [State.sameContactors, Sup.coils]

/-! ### The module wake time ends -/

theorem moduleWakeTimeEnd_react {s : State} {since : Ms} {gap : Bool} (h : s.chain.wake = .settle since gap)
    (ht : 5 ≤ elapsed s.now since) : exec .moduleWakeTimeEnd s = s.react (s.endModuleWake gap) := by
  show execModuleWakeTimeEnd s = _
  simp only [execModuleWakeTimeEnd, h, moduleWakeTime, (passed_iff _ _ _).2 ht, if_true]

/-- The part begins the survey of its wake. -/
def State.wakeSurveys (s : State) : State := State.beginSurvey { s with chain.wake := .none }

theorem endModuleWake_run {s : State} {gap : Bool} (hst : s.power.state = .waking) (htg : s.power.target = .run) :
    s.endModuleWake gap = s.wakeSurveys.enterRun none := by
  simp only [State.endModuleWake, hst, htg, State.wakeSurveys]

/-- The chain is awake and its controller in UP (R9). -/
def State.wokenUp (s : State) : State := State.enterUp { s with chain.wake := .none }

theorem endModuleWake_patrol {s : State} (hst : s.power.state = .waking) (htg : s.power.target = .patrol) (gap : Bool) :
    s.endModuleWake gap = if gap then s.wokenUp else s.wokenUp.enterPatrol := by
  simp only [State.endModuleWake, hst, htg, State.wokenUp]

/-- The part enters PATROL and its first capture waits (R121). -/
@[simp] def State.patrolAsked (s : State) : State := { s with
  power.state := .patrol
  power.patrol := some ⟨1, false, none⟩
  plan.patrolReport := none
  plan.captures := s.plan.captures ++ [newCapture patrolPlan 0xFFFFFF .both true]
  chain.requests := [.patrol] }

theorem enterPatrol_asks {s : State} (hc : s.chain.configuredAddrs ≠ []) (hq : s.chain.requests = []) :
    s.enterPatrol = s.patrolAsked := by
  rw [State.enterPatrol, if_neg hc]
  refine (request_new (s := { s with
    power.state := .patrol
    power.patrol := some ⟨1, false, none⟩
    plan.patrolReport := none
    plan.captures := s.plan.captures ++ [newCapture patrolPlan 0xFFFFFF .both true] }) ?_).trans ?_
  · simp [hq]
  · simp [hq, captureReq, newCapture, patrolPlan, burstPlan]

/-- On a free chain the patrol's capture is granted at once. -/
theorem settle_patrol {s : State} (h : s.resting) (hq : s.chain.requests = [.patrol]) (hf : s.chain.free = true)
    (hd : s.chain.down = false) : s.settle = s.grant .patrol := by
  have hna : s.chain.state ≠ .asleep := by simp_all [Chain.free]
  have ha : s.answerRequests = s := by simp [State.answerRequests, hd, hna]
  have hg : s.arbiterGrant = s.grant .patrol := arbiterGrant_only hf hq (by simp) (by simp [Chain.grantable, hq, hd])
  rw [settle_granted h ha ?_, hg]
  rw [hg]
  exact ⟨resting_of_same h rfl rfl rfl rfl rfl rfl rfl rfl, .inl (by simp [State.grant, State.grantCapture,
    State.beginCapture, State.dropRequest, hq])⟩

/-- The first capture of a patrol is granted on a free chain in UP. -/
theorem settle_patrolAsked {s : State} (hup : s.chain.state = .up) (hb : s.plan.burst = none) (he : s.power.entry = none)
    (hr : s.power.returning = none) (hu : s.upd.state = .idle) (hp : s.upd.pause = none) (hf : s.chain.free = true) :
    s.patrolAsked.settle = s.patrolAsked.grant .patrol := by
  refine settle_patrol ⟨hb, hp, by simp [hu], fun e h => ?_, fun p h => ?_, fun r h => ?_⟩ rfl hf (by simp [Chain.down, hup])
  · exact absurd (he.symm.trans h) (by simp)
  · simp only [State.patrolAsked, Option.some.injEq] at h
    subst h
    exact ⟨rfl, rfl⟩
  · exact absurd (hr.symm.trans h) (by simp)

end Sys2Proof.Machine

namespace Sys2Proof.Machine

/-! ### What the entry into RUN writes -/

theorem read_completeRecord_of_out {s : State} (hc : s.canonical) (k : Nat) {a : Nat} (ha : a < 0x100 ∨ 0x104 ≤ a) :
    Memory.read (s.completeRecord k).mem a = Memory.read s.mem a :=
  read_raise_of_out (s := { s with ev := s.ev.change k fun r => { r with complete := true } }) hc .eventNew ha

theorem read_completeEach_of_out (l : List Nat) {s : State} (hc : s.canonical) {a : Nat} (ha : a < 0x100 ∨ 0x104 ≤ a) :
    Memory.read (l.foldl (fun s k => State.completeRecord
      { s with ev := s.ev.change k fun r => { r with windowSkipped := true } } k) s).mem a = Memory.read s.mem a := by
  induction l generalizing s with
  | nil => rfl
  | cons k l ih =>
    rw [List.foldl_cons]
    refine (ih ?_).trans ?_
    · exact completeRecord_wf _ _ hc
    · exact read_completeRecord_of_out (s := { s with ev := s.ev.change k fun r => { r with windowSkipped := true } }) hc k ha

theorem read_restartConverter_of_out {s : State} (hc : s.canonical) {a : Nat} (ha : a < 0x100 ∨ 0x104 ≤ a) :
    Memory.read s.restartConverter.mem a = Memory.read s.mem a := by
  unfold State.restartConverter
  split
  · exact read_completeEach_of_out _ (s := { s.clearScan with ev := { s.ev with filling := [] } }) hc ha
  · rfl

/-- The entry into RUN writes the factor word and no other byte. -/
theorem read_enterRun_of_out {s : State} (hc : s.canonical) (r : Option PatrolResult) {a : Nat} (ha : a < 0x100 ∨ 0x104 ≤ a) :
    Memory.read (s.enterRun r).mem a = Memory.read s.mem a := by
  have hmem : s.runAsked.mem = (State.restartConverter { s with power.state := .run }).mem := by
    unfold State.runAsked
    simp only []
    split <;> simp
  have hw : s.runPrepared.canonical := by
    show s.runAsked.mem.wf = true
    rw [hmem]
    exact restartConverter_wf _ hc
  rw [enterRun_eq]
  refine (read_raise_of_out (s := s.runPrepared.sendStill .fullWake 0 _) hw _ ha).trans ?_
  show Memory.read s.runAsked.mem a = _
  rw [hmem]
  exact read_restartConverter_of_out (s := { s with power.state := .run }) hc ha

/-! ### What the reactions leave of the memory -/

/-- A chain that is not free grants nothing. -/
theorem settle_waits {s : State} (h : s.Still) (ha : s.answerRequests = s) (hf : s.chain.free = false) : s.settle = s := by
  have hg : s.arbiterGrant = s := by simp [State.arbiterGrant, hf]
  have hr : s.round = s := by rw [round_still h ha, hg]
  unfold State.settle
  rw [hr, hr, hr, hr]

/-- A survey that waits writes nothing and leaves the map, whether it is granted or not. -/
theorem settle_survey_kept {s : State} (h : s.resting) (ha : s.answerRequests = s)
    (hq : s.chain.requests = [] ∨ s.chain.requests = [.survey]) :
    s.settle.mem = s.mem ∧ s.settle.chain.map = s.chain.map := by
  rcases hq with hq | hq
  · rw [settle_still (still_of_resting h) (.inl hq)]
    exact ⟨rfl, rfl⟩
  · cases hf : s.chain.free with
    | false =>
      rw [settle_waits (still_of_resting h) ha hf]
      exact ⟨rfl, rfl⟩
    | true =>
      rw [settle_survey h hq hf]
      exact ⟨rfl, rfl⟩

/-- What a judged patrol leaves is all that follows at once, before the requests it makes. -/
theorem settle_patrolReact {s : State} (hb : s.burstReact = s) (ha : s.answerRequests = s) (hy : s.patrolReact.Still)
    (hya : s.patrolReact.answerRequests = s.patrolReact) : s.settle = s.patrolReact.settle := by
  have hround : s.round = s.patrolReact.round := by
    rw [round_still hy hya]
    unfold State.round
    rw [hb, ha, hy.returning, hy.update, hy.entry, hya]
  unfold State.settle
  rw [hround]

/-! ### The patrol of an empty map -/

/-- The part enters PATROL with no module to capture (R121). -/
@[simp] def State.patrolEmpty (s : State) : State := { s with
  power.state := .patrol
  power.patrol := some ⟨0, false, some (.chainFail, noBreach, none)⟩ }

theorem enterPatrol_empty {s : State} (h : s.chain.configuredAddrs = []) : s.enterPatrol = s.patrolEmpty := if_pos h

/-- The empty patrol in the log (R122, R123). -/
def State.emptyLogged (s : State) : State := s.patrolEmpty.logPatrol ⟨0, false, some (.chainFail, noBreach, none)⟩ .chainFail noBreach none

theorem patrolEmpty_react {s : State} (h : s.power.estimate ≠ .awaited) :
    s.patrolEmpty.patrolReact = s.emptyLogged.endPatrol .chainFail := if_neg h

/-- A part of a stored run reads as it was stored. -/
theorem readBytes_store_mid {m : Memory} (hw : m.wf = true) {base : Nat} (xs : List Byte) {ys zs : List Byte}
    (hm : base + (xs ++ (ys ++ zs)).length ≤ memSize) :
    (m.store base (xs ++ (ys ++ zs))).readBytes (base + xs.length) ys.length = ys := by
  have h := readBytes_store hw hm
  rw [List.length_append, List.length_append, readBytes_split, readBytes_split] at h
  obtain ⟨-, h2⟩ := List.append_inj h (by rw [readBytes_length])
  exact (List.append_inj h2 (by rw [readBytes_length])).1

/-- A written patrol entry reads as it was written: its number, the result with the attempts, the promotion, the part
time. -/
theorem emptyLogged_reads {s : State} (hc : s.canonical) (hn : s.power.nextSlot ≤ 31) :
    s.emptyLogged.mem.num (patrolAt s.power.nextSlot) 2 = cycle 65535 s.power.lastNumber
      ∧ s.emptyLogged.mem.num (patrolAt s.power.nextSlot + 2) 1 = 3
      ∧ (s.emptyLogged.mem.read (patrolAt s.power.nextSlot + 3)).getLsbD 0 = false
      ∧ s.emptyLogged.mem.num (patrolAt s.power.nextSlot + 0x10) 4 = s.now.toNat := by
  have hat : patrolAt s.power.nextSlot + 32 ≤ memSize := by simp only [patrolAt, memSize]; omega
  obtain ⟨avg, havg⟩ : ∃ avg, avg = s.power.estimate.detail := ⟨_, rfl⟩
  obtain ⟨charge, hcharge⟩ : ∃ charge, charge = match avg with | some (_, c) => c | none => s.conv.charge := ⟨_, rfl⟩
  have hmem : s.emptyLogged.mem = s.mem.store (patrolAt s.power.nextSlot) (le 2 (cycle 65535 s.power.lastNumber)
      ++ ([3, byte (flagBits [false, false, false, false, false, false, false, avg.isSome])]
      ++ ([0, 0, 0] ++ les 3 ((avg.map (·.1)).getD 0) ++ le 2 0 ++ le 2 0 ++ les 2 0 ++ (le 4 s.now.toNat
      ++ (le 4 0 ++ les 8 charge))))) := by
    rw [hcharge, havg]
    simp only [State.emptyLogged, State.logPatrol, State.put, patrolBytes, List.append_assoc]
    rfl
  obtain ⟨flags, hflags⟩ : ∃ b, b = byte (flagBits [false, false, false, false, false, false, false, avg.isSome]) := ⟨_, rfl⟩
  rw [← hflags] at hmem
  have hlen : ∀ xs : List Byte, xs.length = 32 → patrolAt s.power.nextSlot + xs.length ≤ memSize := fun xs h => by omega
  have hword : s.emptyLogged.mem.readBytes (patrolAt s.power.nextSlot + 2) 2 = [3, flags] := by
    rw [hmem]
    exact readBytes_store_mid hc (le 2 (cycle 65535 s.power.lastNumber)) (hlen _ (by simp))
  simp only [Memory.readBytes, List.cons.injEq, and_true] at hword
  obtain ⟨hres, hfl⟩ := hword
  refine ⟨?_, by rw [num_one, hres]; rfl, ?_, ?_⟩
  · rw [Memory.num, hmem, readBytes_store_prefix hc (le_length _ _) (hlen _ (by simp)), ofLe_le]
    unfold cycle
    split <;> omega
  · rw [hfl, hflags]
    cases avg.isSome <;> rfl
  · have hnow := s.now.isLt
    rw [Memory.num, hmem, ← List.append_assoc, ← List.append_assoc]
    refine Eq.trans (congrArg ofLe (readBytes_store_mid hc _ (ys := le 4 s.now.toNat) (hlen _ (by simp)))) ?_
    rw [ofLe_le]
    omega

end Sys2Proof.Machine

namespace Sys2Proof.Machine

/-! ### A patrol of an empty map is logged and ends -/

/-- The patrol log is no record that the end of a step rewrites, where the map stands. -/
theorem read_finish_patrol {o n : State} (hw : n.mem.wf = true) (hm : o.chain.map = n.chain.map) {a : Nat}
    (h1 : 0x1400 ≤ a) (h2 : a < 0x1800) : Memory.read (State.finish o n).mem a = Memory.read n.mem a := by
  unfold State.finish
  rw [read_mirror (by simpa using hw) (.inr (by omega)) (.inr (by omega)) (.inr (by omega)) (.inr (by omega))
    (.inr (by omega)) (.inr (by omega)) (.inr (by omega)) (.inr (by omega)) (.inl (by simp [hm])) (.inr (by omega))
    (.inr (by omega)) (.inr (by omega)) (.inr (by omega))]
  simp

/-- A state that keeps the number and the entry of an empty patrol's log shows it. -/
theorem logged_of_empty {s t : State} (hc : s.canonical) (hn : s.power.nextSlot ≤ 31)
    (hl : t.power.lastNumber = s.emptyLogged.power.lastNumber) (hs : t.power.nextSlot = s.emptyLogged.power.nextSlot)
    (hm : ∀ a, 0x1400 ≤ a → a < 0x1800 → Memory.read t.mem a = Memory.read s.emptyLogged.mem a) : t.logged s 3 0 0 false := by
  obtain ⟨h0, h2, h3, h16⟩ := emptyLogged_reads hc hn
  have hat : patrolAt s.power.nextSlot + 32 ≤ 0x1800 ∧ 0x1400 ≤ patrolAt s.power.nextSlot := by
    simp only [patrolAt]
    omega
  have hnum : ∀ k n, k + n ≤ 32 → t.mem.num (patrolAt s.power.nextSlot + k) n
      = s.emptyLogged.mem.num (patrolAt s.power.nextSlot + k) n := fun k n hk =>
    num_congr fun a _ _ => hm a (by omega) (by omega)
  refine ⟨hl, hs, ?_, ?_, ?_, ?_⟩
  · rw [hl]
    exact (hnum 0 2 (by omega)).trans h0
  · exact (hnum 2 1 (by omega)).trans h2
  · rw [hm _ (by omega) (by omega)]
    exact h3
  · exact (hnum 16 4 (by omega)).trans h16

@[simp] theorem emptyLogged_chain (s : State) : s.emptyLogged.chain = s.chain := rfl

theorem emptyLogged_canonical {s : State} (hc : s.canonical) : s.emptyLogged.canonical := store_wf hc

theorem requestSurvey_requests (s : State) : s.requestSurvey.chain.requests = s.chain.requests
    ∨ s.requestSurvey.chain.requests = s.chain.requests ++ [.survey] := by
  simp only [State.requestSurvey, State.request]
  repeat' split
  all_goals simp

theorem answerRequests_up {s : State} (h : s.chain.state = .up) : s.answerRequests = s := by
  simp [State.answerRequests, Chain.down, h]

/-- A part in which only an empty patrol has work: awake but for it, no burst, no update, no request, the chain in UP. -/
structure State.PatrolAlone (s : State) : Prop where
  up : s.chain.state = .up
  burst : s.plan.burst = none
  entry : s.power.entry = none
  returning : s.power.returning = none
  idle : s.upd.state = .idle
  pause : s.upd.pause = none
  requests : s.chain.requests = []

namespace State.PatrolAlone

variable {s : State}

/-- Without level 2 for a chain failure the empty patrol returns to DEEP (R124). -/
theorem returns (h : s.PatrolAlone) (hest : s.power.estimate ≠ .awaited) (htg : s.power.target = .patrol)
    (hcf : s.power.wakeTable.chainFail ≠ 2) : s.patrolEmpty.settle = s.emptyLogged.beginReturn := by
  have hend : s.patrolEmpty.patrolReact = s.emptyLogged.beginReturn :=
    (patrolEmpty_react hest).trans (if_neg (by
      rintro (hr | hr)
      · exact absurd (htg.symm.trans hr) (by simp)
      · exact hcf hr))
  have hrest : s.emptyLogged.beginReturn.resting :=
    ⟨h.burst, h.pause, fun hd => absurd (h.idle.symm.trans hd) (by simp), fun e he => absurd (h.entry.symm.trans he) (by simp),
      fun p hp => (nomatch hp), fun r _ ha => absurd (h.up.symm.trans ha) (by simp)⟩
  have hq : s.emptyLogged.beginReturn.chain.requests = [] := h.requests
  rw [settle_patrolReact (s := s.patrolEmpty) (by simp [State.burstReact, h.burst]) (answerRequests_quiet (.inl h.requests))
    (hend ▸ still_of_resting hrest) (hend ▸ answerRequests_quiet (.inl hq)), hend,
    settle_still (still_of_resting hrest) (.inl hq)]

/-- The entry into RUN leaves a part at rest, its chain in UP. -/
theorem emptyRun (h : s.PatrolAlone) : (s.emptyLogged.enterRun (some .chainFail)).resting
    ∧ (s.emptyLogged.enterRun (some .chainFail)).chain.state = .up :=
  ⟨enterRun_resting (s := s.emptyLogged) h.burst h.entry h.pause
    (fun hd => absurd (h.idle.symm.trans hd) (by simp)) _, by simpa using h.up⟩

/-- With level 2 for a chain failure the part enters RUN (R124). -/
theorem runs (h : s.PatrolAlone) (hest : s.power.estimate ≠ .awaited) (hcf : s.power.wakeTable.chainFail = 2) :
    s.patrolEmpty.settle = (s.emptyLogged.enterRun (some .chainFail)).settle := by
  have hend : s.patrolEmpty.patrolReact = s.emptyLogged.enterRun (some .chainFail) :=
    (patrolEmpty_react hest).trans (if_pos (.inr hcf))
  obtain ⟨hrest, hup⟩ := h.emptyRun
  exact (settle_patrolReact (s := s.patrolEmpty) (by simp [State.burstReact, h.burst]) (answerRequests_quiet (.inl h.requests))
    (hend ▸ still_of_resting hrest) (hend ▸ answerRequests_up hup)).trans (by rw [hend])

end State.PatrolAlone

/-- What an empty patrol leaves of the log, and the map, stand when the part enters RUN and what follows has followed. -/
theorem settle_emptyRun_kept {s : State} (h : s.PatrolAlone) (hc : s.canonical) :
    (∀ a, 0x104 ≤ a →
      Memory.read (s.emptyLogged.enterRun (some .chainFail)).settle.mem a = Memory.read s.emptyLogged.mem a)
    ∧ (s.emptyLogged.enterRun (some .chainFail)).settle.chain.map = s.chain.map := by
  obtain ⟨hrest, hup⟩ := h.emptyRun
  have hq : (s.emptyLogged.enterRun (some .chainFail)).chain.requests = []
      ∨ (s.emptyLogged.enterRun (some .chainFail)).chain.requests = [.survey] := by
    rw [enterRun_requests, if_neg (by simp [h.up])]
    have hr := requestSurvey_requests s.emptyLogged
    rwa [emptyLogged_chain, h.requests] at hr
  obtain ⟨hmem, hmap⟩ := settle_survey_kept hrest (answerRequests_up hup) hq
  refine ⟨fun a ha => ?_, hmap.trans (by simp)⟩
  rw [hmem]
  exact read_enterRun_of_out (emptyLogged_canonical hc) _ (.inr ha)

/-- A step that ends with the empty patrol's return to DEEP or entry into RUN shows its entry in the log. -/
theorem patrolEmpty_logged {o s : State} (h : s.PatrolAlone) (hc : s.canonical) (hn : s.power.nextSlot ≤ 31)
    (hest : s.power.estimate ≠ .awaited) (htg : s.power.target = .patrol) (hm : o.chain.map = s.chain.map) :
    (State.finish o s.patrolEmpty.settle).logged s 3 0 0 false := by
  by_cases hcf : s.power.wakeTable.chainFail = 2
  · have hw : (s.emptyLogged.enterRun (some .chainFail)).settle.mem.wf = true :=
      settle_wf _ (enterRun_wf _ _ (emptyLogged_canonical hc))
    obtain ⟨hpow, -⟩ := settle_awake (s := s.emptyLogged.enterRun (some .chainFail))
      ⟨by rw [enterRun_power]; exact h.entry, by rw [enterRun_power], by rw [enterRun_power]⟩
    rw [enterRun_power] at hpow
    rw [h.runs hest hcf]
    refine logged_of_empty hc hn (by simp [hpow]) (by simp [hpow]) fun a h1 h2 => ?_
    obtain ⟨hmem, hmap⟩ := settle_emptyRun_kept h hc
    exact (read_finish_patrol hw (hm.trans hmap.symm) h1 h2).trans (hmem a (by omega))
  · rw [h.returns hest htg hcf]
    refine logged_of_empty hc hn (by simp [State.beginReturn]) (by simp [State.beginReturn]) fun a h1 h2 => ?_
    exact read_finish_patrol (n := s.emptyLogged.beginReturn) (emptyLogged_canonical hc) hm h1 h2

/-- The power controller and the sleep command after an empty patrol (R124). -/
theorem patrolEmpty_ends {s : State} (h : s.PatrolAlone) (hest : s.power.estimate ≠ .awaited)
    (htg : s.power.target = .patrol) :
    s.patrolEmpty.settle.power.patrol = none ∧ s.patrolEmpty.settle.chain.wake = s.chain.wake
      ∧ (s.power.wakeTable.chainFail ≠ 2 → s.patrolEmpty.settle.power.state = .patrol
        ∧ s.patrolEmpty.settle.power.returning = some s.power.pend ∧ s.patrolEmpty.settle.chain.sleepCmd = true)
      ∧ (s.power.wakeTable.chainFail = 2 → s.patrolEmpty.settle.power.state = .run ∧ s.patrolEmpty.settle.power.pend = 0
        ∧ s.patrolEmpty.settle.power.lastWake = some (s.power.pend, some .chainFail)
        ∧ s.patrolEmpty.settle.power.wakeOut = true) := by
  have hwake : s.patrolEmpty.settle.chain.wake = s.chain.wake := by simp
  rw [hwake]
  by_cases hcf : s.power.wakeTable.chainFail = 2
  · obtain ⟨hpow, -⟩ := settle_awake (s := s.emptyLogged.enterRun (some .chainFail))
      ⟨by rw [enterRun_power]; exact h.entry, by rw [enterRun_power], by rw [enterRun_power]⟩
    rw [enterRun_power] at hpow
    rw [h.runs hest hcf, hpow]
    exact ⟨rfl, rfl, fun hne => absurd hcf hne, fun _ => ⟨rfl, rfl, rfl, rfl⟩⟩
  · rw [h.returns hest htg hcf]
    exact ⟨rfl, rfl, fun _ => ⟨rfl, rfl, rfl⟩, fun h2 => absurd h2 hcf⟩

end Sys2Proof.Machine

namespace Sys2Proof.Machine

/-! ### A late cause -/

/-- A source that makes a cause after the target PATROL was read: its pin, its comparator mark and its flag are set. -/
def State.lateWoken (u : State) (x : Source) : State := { u with
  pins.wakeLine := u.pins.wakeLine || decide (x = .line)
  power.compFired := u.power.compFired || decide (x = .current)
  power.pend := u.power.pend ||| x.flag }

/-- A level-2 cause of any source that can come there enters RUN at once (R119). -/
theorem lateCause_react {u : State} {x : Source} (hx : wakes u x) (hl : u.power.wakeTable.level x = 2)
    (hw : u.chain.wake = .none) (hst : u.power.state = .waking) (hset : u.power.settled = true)
    (htg : u.power.target = .patrol) (hup : u.chain.state = .up) :
    ∃ p, exec (wakeCommand x) u = State.react { u with pins := p } ((u.lateWoken x).enterRun none) := by
  have hlate : ∀ v : State, v.power.wakeTable = u.power.wakeTable → v.power.state = .waking → v.power.target = .patrol →
      v.power.settled = true → v.chain.wake = .none →
      v.wakeCause x = State.enterRun { v with power.pend := v.power.pend ||| x.flag } none := by
    intro v h1 h2 h3 h4 h5
    rw [State.wakeCause, if_pos]
    simp [State.lateCause, h1, h2, h3, h4, h5, hl]
  cases x with
  | timer => exact absurd (hst.symm.trans hx.1) (by simp)
  | chain => exact absurd (hup.symm.trans hx.2) (by simp)
  | line =>
    have hwatch : PowerState.watched u.power.state = true := by simp [PowerState.watched, hst]
    have hwoken : u.lateWoken .line = { u with pins.wakeLine := true, power.pend := u.power.pend ||| Source.line.flag } := by
      simp [State.lateWoken]
    refine ⟨{ u.pins with wakeLine := true }, (if_pos hwatch).trans ?_⟩
    rw [hlate { u with pins.wakeLine := true } rfl hst htg hset hw, hwoken]
  | current =>
    obtain ⟨-, hscan, hrun, hfired⟩ := hx
    have hdue : (!u.conv.scanning && u.power.state.watched && decide (currentRun ≤ u.power.compRun) && !u.power.compFired)
        = true := by simp [PowerState.watched, hst, hscan, hfired, currentRun, hrun]
    refine ⟨u.pins, (if_pos hdue).trans ?_⟩
    rw [hlate { u with power.compFired := true } rfl hst htg hset hw]
    simp [State.lateWoken]
  | link =>
    obtain ⟨-, -, hreset⟩ := hx
    have hserved : (u.power.state.asleep && !u.pins.resetN) = true := by simp [PowerState.asleep, PowerState.awake, hst, hreset]
    refine ⟨u.pins, (if_pos hserved).trans ?_⟩
    rw [hlate u rfl hst htg hset hw]
    simp [State.lateWoken]

/-- Settles O29. -/
theorem moduleWakeEnds : Obligations.ModuleWakeEnds := by
  unfold Obligations.ModuleWakeEnds
  intro s since gap hw ht hst hch hb he hr hu hp
  have hreact := moduleWakeTimeEnd_react hw ht
  refine ⟨fun htg hq => ?_, fun htg hgap hq hne hh hl hsl => ?_, fun htg hgap hc hem hq hest hn => ?_,
    fun htg hgap hc hcalm hrest hq => ?_, fun u uw ust uset utg uup ub ue ur up uu upz uq uf => ⟨fun hne => ?_, fun x hx hl => ?_⟩⟩
  · have hex := hreact.trans (congrArg s.react (endModuleWake_run hst htg))
    have hrest : (s.wakeSurveys.enterRun none).restful := by
      refine ⟨enterRun_resting (s := s.wakeSurveys) hb he hp (by simp [State.wakeSurveys, hu]) none, .inl ?_⟩
      rw [enterRun_requests]
      exact hq
    have hpow := enterRun_power s.wakeSurveys none
    obtain ⟨hsnap, hsil, hwarn, hlap, hhi, hlo, htmp, himp, hfr⟩ := enterRun_counts s.wakeSurveys none
    have hscan := fun h => enterRun_scan (s := s.wakeSurveys) h none
    obtain ⟨e, hbox, hkind, hdet⟩ := enterRun_inbox s.wakeSurveys none
    refine goes_react _ hex ?_
    rw [settle_restful hrest]
    simp only [finish_frame, enterRun_frame, hpow, hsnap, hsil, hwarn, hlap, hhi, hlo, htmp, himp, hfr, enterRun_wakeReason,
      true_and, finish_inbox]
    refine ⟨rfl, rfl, hch, rfl, rfl, hscan, fun hcalm _ => ?_, ?_, ?_⟩
    · obtain ⟨e', hbox', hkind', hdet'⟩ := sentEvents_one hcalm ⟨e, hbox, hkind, hdet⟩
      exact ⟨e', hbox', hkind', fun avg c h => hdet'.trans (congrArg (fun x => Detail.fullWake s.power.pend (Held.detail x)) h),
        fun h => hdet'.trans (congrArg (fun x => Detail.fullWake s.power.pend (Held.detail x)) h)⟩
    · exact sameAround_finish (sameAround_enterRun s.wakeSurveys none)
    · exact sameContactors_finish (sameContactors_enterRun s.wakeSurveys none)
  · have hup : s.wokenUp.chain.state = .up := rfl
    have hf : s.wokenUp.chain.free = true := by
      simp [Chain.free, State.wokenUp, State.enterUp, hh, hl, hsl]
    have hex := hreact.trans (congrArg s.react ((endModuleWake_patrol hst htg gap).trans
      ((if_neg (by simp [hgap])).trans (enterPatrol_asks hne hq))))
    refine goes_react _ hex ?_
    rw [settle_patrolAsked hup hb he hr hu hp hf]
    simp only [finish_frame]
    exact ⟨rfl, rfl, rfl, rfl, rfl, rfl, rfl, sameAround_finish (sameAround_self s),
      sameContactors_finish (sameContactors_self s)⟩
  · have hu1 : s.wokenUp.PatrolAlone := ⟨rfl, hb, he, hr, hu, hp, hq⟩
    have hex := hreact.trans (congrArg s.react ((endModuleWake_patrol hst htg gap).trans
      ((if_neg (by simp [hgap])).trans (enterPatrol_empty hem))))
    have hlog := patrolEmpty_logged (o := s) hu1 hc hn hest htg rfl
    obtain ⟨hpat, hwake, hret, hrun⟩ := patrolEmpty_ends hu1 hest htg
    refine goes_react _ hex ?_
    simp only [finish_frame]
    refine ⟨hpat, hwake, hlog, hret, hrun, ?_, ?_⟩
    · exact sameAround_finish (sameAround_settle (sameAround_self s))
    · exact sameContactors_finish (sameContactors_settle (sameContactors_self s))
  · have hex : exec .moduleWakeTimeEnd s
        = s.react { s with chain.state := .up, chain.errs := [], chain.wake := .none } :=
      hreact.trans (congrArg s.react ((endModuleWake_patrol hst htg gap).trans (if_pos hgap)))
    refine goes_shown_react _ hex ⟨?_, .inl hq⟩ (calm_of_same hcalm rfl rfl rfl rfl) id ⟨rfl, ?_⟩
    · obtain ⟨h1, h2, h3, h4, h5, h6⟩ := hrest.1
      exact ⟨h1, h2, h3, fun e h => absurd (he.symm.trans h) (by simp), h5, fun x h => absurd (hr.symm.trans h) (by simp)⟩
    · exact sameBut_mirror hc (sameBut_of_mem rfl) (by simp [State.mirrors])
  · have hex : exec .moduleWakeTimeEnd u = u.react u.patrolAsked := by
      show execModuleWakeTimeEnd u = _
      simp only [execModuleWakeTimeEnd, uw, ust, uset, decide_true, Bool.and_self, if_true, enterPatrol_asks hne uq]
    refine goes_react _ hex ?_
    rw [settle_patrolAsked uup ub ue ur uu upz uf]
    simp only [finish_frame]
    exact ⟨rfl, rfl, rfl, sameAround_finish (sameAround_self u), sameContactors_finish (sameContactors_self u)⟩
  · obtain ⟨p, hex⟩ := lateCause_react hx hl uw ust uset utg uup
    have hrest : ((u.lateWoken x).enterRun none).resting :=
      enterRun_resting (s := u.lateWoken x) ub ue upz (fun hd => absurd (uu.symm.trans hd) (by simp)) _
    have hpow := enterRun_power (u.lateWoken x) none
    have hq : ((u.lateWoken x).enterRun none).chain.requests = [.survey] := by
      rw [enterRun_requests]
      have hfree := uf
      simp only [Chain.free, Bool.and_eq_true, Bool.not_eq_true', Option.isNone_iff_eq_none] at hfree
      obtain ⟨⟨⟨⟨hhold, -⟩, hsl⟩, -⟩, -⟩ := hfree
      have huq : (u.lateWoken x).chain = u.chain := rfl
      rw [requestSurvey_new (by simp [huq, Chain.surveyHolds, hhold]) (by simp [huq, uup]) (by simp [huq, hsl])
        (by simp [huq, uq])]
      simp [huq, uup, uq]
    have hfree : ((u.lateWoken x).enterRun none).chain.free = true := by
      simpa [Chain.free, State.lateWoken] using uf
    refine ⟨_, hex, ?_⟩
    rw [settle_survey hrest hq hfree]
    simp only [finish_frame, hpow, enterRun_wakeReason]
    refine ⟨trivial, trivial, rfl, trivial, trivial, trivial, ?_, ?_, ?_⟩
    · simpa [State.lateWoken] using uup
    · simp [State.sameAround, State.lateWoken]
    · simp [State.sameContactors, Sup.coils, State.lateWoken]

end Sys2Proof.Machine

namespace Sys2Proof.Machine

/-! ### What every reaction keeps: pending factors, slots that no completion touches, slips that are right -/

/-- A pending factor stays pending; a slot keeps its record and its bytes, or is completed. -/
structure State.Serves (s t : State) : Prop where
  pending : ∀ f, s.attn.pending f = true → t.attn.pending f = true
  slot : ∀ k, getAt t.port.slots k = getAt s.port.slots k ∨ getAt t.port.slots k = some none
  wf : s.canonical → t.canonical
  bytes : s.canonical → ∀ k, k ≤ 7 → getAt t.port.slots k = getAt s.port.slots k →
    ∀ a, slotAt k ≤ a → a < slotAt k + 64 → Memory.read t.mem a = Memory.read s.mem a

/-- The part keeps its shape, and the slips that blocks record stay right. -/
structure State.Steady (s t : State) : Prop where
  shape : s.shaped → t.shaped
  slips : s.slipsRight → t.slipsRight

/-- What every reaction keeps: the slots are served, the shape stays, and the slips that blocks record stay right. -/
structure State.Follows (s t : State) : Prop extends s.Serves t, s.Steady t

/-- What the shape of a part speaks of: the lengths of its lists, the slip of an INSTALL_KEY and the patrol log's next entry. -/
def State.sizes (s : State) : List Nat × Option Nat × Nat :=
  ([s.port.slots.length, s.port.tables.length, s.chain.survey.length, s.chain.map.length, s.plan.kept.length,
    s.plan.pages.length, s.ev.slots.length], s.store.keySlip, s.power.nextSlot)

@[simp] theorem change_slots_length (v : Recorder) (k : Nat) (f : EventRec → EventRec) :
    (v.change k f).slots.length = v.slots.length := by
  simp [Recorder.change]

theorem shaped_of_sizes {s t : State} (h : t.sizes = s.sizes) (hs : s.shaped) : t.shaped := by
  simp only [State.sizes, Prod.mk.injEq, List.cons.injEq] at h
  obtain ⟨⟨h1, h2, h3, h4, h5, h6, h7, -⟩, h8, h9⟩ := h
  unfold State.shaped at *
  rwa [h1, h2, h3, h4, h5, h6, h7, h8, h9]

theorem State.Serves.trans {s t u : State} (h : s.Serves t) (g : t.Serves u) : s.Serves u := by
  refine ⟨fun f hf => g.pending f (h.pending f hf), fun k => ?_, fun hc => g.wf (h.wf hc), fun hc k hk hu a h1 h2 => ?_⟩
  · rcases g.slot k with hg | hg
    · rcases h.slot k with hh | hh
      · exact .inl (hg.trans hh)
      · exact .inr (hg.trans hh)
    · exact .inr hg
  · have hmid : getAt t.port.slots k = getAt s.port.slots k := by
      rcases h.slot k with hh | hh
      · exact hh
      · rcases g.slot k with hg | hg
        · exact hg.symm.trans hu
        · exact hh.trans (hg.symm.trans hu)
    exact (g.bytes (h.wf hc) k hk (hu.trans hmid.symm) a h1 h2).trans (h.bytes hc k hk hmid a h1 h2)

theorem State.Follows.trans {s t u : State} (h : s.Follows t) (g : t.Follows u) : s.Follows u :=
  ⟨h.toServes.trans g.toServes, fun hs => g.shape (h.shape hs), fun hs => g.slips (h.slips hs)⟩

/-- A slip that shows DONE goes on showing it. -/
theorem State.Serves.showsDone {s t : State} (h : s.Serves t) (hc : s.canonical) {k code cause : Nat} (hk : k ≤ 7)
    (hd : s.showsDone k code cause) : t.showsDone k code cause := by
  obtain ⟨-, -, -, hfree, -⟩ := id hd
  have hslot : getAt t.port.slots k = getAt s.port.slots k := (h.slot k).elim id fun hn => hn.trans hfree.symm
  exact showsDone_of_same hd (h.bytes hc k hk hslot) hslot (h.pending _)

/-- A slip still in flight has its slot as it was. -/
theorem State.Serves.inFlight {s t : State} (h : s.Serves t) (hc : s.canonical) {k : Nat} (hf : t.inFlight k) :
    s.inFlight k ∧ ∀ a, slotAt k ≤ a → a < slotAt k + 64 → Memory.read t.mem a = Memory.read s.mem a := by
  obtain ⟨hk, c, hslot⟩ := hf
  have hsame : getAt t.port.slots k = getAt s.port.slots k :=
    (h.slot k).elim id fun hn => absurd (hslot.symm.trans hn) (by simp)
  exact ⟨⟨hk, c, hsame.symm.trans hslot⟩, h.bytes hc k hk hsame⟩

/-- Where no block records a slip that was not recorded, and the recorded slots stand, the slips are right. -/
theorem slipsRight_of_count {s t : State} (h : s.slipsRight) (hc : ∀ k, t.slips.count k ≤ s.slips.count k)
    (hp : ∀ k ∈ t.slips, getAt t.port.slots k = getAt s.port.slots k) : t.slipsRight := by
  obtain ⟨hnd, hfl⟩ := h
  refine ⟨List.nodup_iff_count_le_one.2 fun k => (hc k).trans (List.nodup_iff_count_le_one.1 hnd k), fun k hk => ?_⟩
  have hmem : k ∈ s.slips := List.count_pos_iff.1 ((List.count_pos_iff.2 hk).trans_le (hc k))
  obtain ⟨h7, c, hcopy⟩ := hfl k hmem
  exact ⟨h7, c, (hp k hk).trans hcopy⟩

/-- What leaves the attention unit, the memory and the slots alone, and records no slip that was not recorded. -/
theorem follows_of_count {s t : State} (hc : ∀ k, t.slips.count k ≤ s.slips.count k) (h1 : t.attn.factors = s.attn.factors)
    (h2 : t.mem = s.mem) (h3 : t.port.slots = s.port.slots) (h5 : s.shaped → t.shaped) : s.Follows t := by
  refine ⟨⟨fun f hf => ?_, fun k => .inl (by rw [h3]), fun h => ?_, fun _ k _ _ a _ _ => by rw [h2]⟩, h5,
    fun h => slipsRight_of_count h hc fun k _ => by rw [h3]⟩
  · rwa [Attn.pending, h1]
  · rwa [State.canonical, h2]

/-- What leaves the attention unit, the memory, the slots and the recorded slips alone. -/
theorem follows_of_same {s t : State} (h1 : t.attn.factors = s.attn.factors) (h2 : t.mem = s.mem)
    (h3 : t.port.slots = s.port.slots) (h4 : t.slips = s.slips) (h5 : t.sizes = s.sizes) : s.Follows t :=
  follows_of_count (fun _ => by rw [h4]) h1 h2 h3 (shaped_of_sizes h5)

theorem follows_self (s : State) : s.Follows s := follows_of_same rfl rfl rfl rfl rfl

/-- What leaves the factors, the slots, their bytes and the recorded slips alone, and writes elsewhere. -/
theorem follows_of_read {s t : State} (hw : s.canonical → t.canonical)
    (hm : s.canonical → ∀ a, 0x200 ≤ a → a < 0x400 → Memory.read t.mem a = Memory.read s.mem a)
    (h1 : ∀ f, s.attn.pending f = true → t.attn.pending f = true) (h3 : t.port.slots = s.port.slots)
    (h4 : t.slips = s.slips) (h5 : t.sizes = s.sizes) : s.Follows t := by
  refine ⟨⟨h1, fun k => .inl (by rw [h3]), hw, fun hc k hk _ a ha hb => ?_⟩, shaped_of_sizes h5,
    fun h => slipsRight_of_same h h4 h3⟩
  simp only [slotAt] at ha hb
  exact hm hc a (by omega) (by omega)

theorem follows_put (s : State) {base : Nat} {bs : List Byte} (h : 0x400 ≤ base ∨ base + bs.length ≤ 0x200) :
    s.Follows (s.put base bs) :=
  follows_of_read (fun hc => put_wf _ _ _ hc) (fun hc a _ _ => read_put_of_out hc (by omega)) (fun _ hf => hf) rfl rfl rfl

theorem follows_raise (s : State) (f : Factor) : s.Follows (s.raise f) :=
  follows_of_read (fun hc => raise_wf _ _ hc) (fun hc a _ _ => read_raise_of_out hc f (by omega))
    (fun g hg => by rw [raise_pending, hg, Bool.or_true]) (by simp) (by simp [State.slips]) (by simp [State.sizes])

theorem serves_complete (s : State) (k : Nat) (r : Result) : s.Serves (s.complete k r) := by
  refine ⟨fun f hf => complete_pending hf k r, fun j => ?_, fun hc => complete_wf _ _ _ hc, fun hc j hj hsame a h1 h2 => ?_⟩
  · rcases eq_or_ne j k with rfl | hne
    · rcases hg : getAt s.port.slots j with _ | _ | c
      · exact .inl (by simp only [State.complete, hg])
      · exact .inl (by simp only [State.complete, hg])
      · exact .inr (complete_inFlight hg r).1
    · exact .inl (complete_getAt_other hne r)
  · rcases eq_or_ne j k with rfl | hne
    · rcases hg : getAt s.port.slots j with _ | _ | c
      · simp only [State.complete, hg]
      · simp only [State.complete, hg]
      · exact absurd (hsame.symm.trans ((complete_inFlight hg r).1)) (by simp [hg])
    · refine read_complete_of_out hc r ?_ ?_
      · simp only [slotAt] at h1
        omega
      · simp only [slotAt] at h1 h2 ⊢
        omega

@[simp] theorem complete_slips (s : State) (k : Nat) (r : Result) : (s.complete k r).slips = s.slips := by
  simp [State.slips]

@[simp] theorem complete_sizes (s : State) (k : Nat) (r : Result) : (s.complete k r).sizes = s.sizes := by
  have hlen : (s.complete k r).port.slots.length = s.port.slots.length := by
    unfold State.complete
    split <;> simp [State.raise]
  simp [State.sizes, hlen]

/-- The completion of a slip that no block records leaves the recorded ones right. -/
theorem slipsRight_complete {s : State} (h : s.slipsRight) {k : Nat} (hk : k ∉ s.slips) (r : Result) :
    (s.complete k r).slipsRight := by
  refine slipsRight_of_count h (fun _ => by rw [complete_slips]) fun j hj => complete_getAt_other ?_ r
  rintro rfl
  rw [complete_slips] at hj
  exact hk hj

/-- A block drops a slip that it recorded, and the slip is completed. -/
theorem State.Follows.ends {s u : State} {k : Nat} (h : s.Follows u)
    (hc : ∀ j, u.slips.count j + (if j = k then 1 else 0) ≤ s.slips.count j) (r : Result) : s.Follows (u.complete k r) := by
  refine ⟨h.toServes.trans (serves_complete u k r), fun hs => shaped_of_sizes (complete_sizes u k r) (h.shape hs),
    fun hs => slipsRight_complete (h.slips hs) (fun hm => ?_) r⟩
  have h1 := List.nodup_iff_count_le_one.1 hs.1 k
  have h2 := List.count_pos_iff.2 hm
  have h3 := hc k
  rw [if_pos rfl] at h3
  omega

end Sys2Proof.Machine

namespace Sys2Proof.Machine

/-! ### The operations of the reactions -/

/-- A block's bookkeeping after what follows: nothing shown, no slot and no recorded slip changes. -/
theorem State.Follows.after {s t u : State} (h : s.Follows t) (h1 : u.attn.factors = t.attn.factors)
    (h2 : u.mem = t.mem) (h3 : u.port.slots = t.port.slots)
    (h4 : u.slips = t.slips) (h5 : u.sizes = t.sizes) : s.Follows u :=
  h.trans (follows_of_same h1 h2 h3 h4 h5)

/-- A block's bookkeeping before what follows. -/
theorem State.Follows.before {s t u : State} (h : t.Follows u) (h1 : t.attn.factors = s.attn.factors)
    (h2 : t.mem = s.mem) (h3 : t.port.slots = s.port.slots)
    (h4 : t.slips = s.slips) (h5 : t.sizes = s.sizes) : s.Follows u :=
  (follows_of_same h1 h2 h3 h4 h5).trans h

theorem follows_request (s : State) (r : Req) : s.Follows (s.request r) := follows_of_same (by simp) (by simp) (by simp) (by simp [State.slips]) (by simp [State.sizes])

theorem follows_dropRequest (s : State) (r : Req) : s.Follows (s.dropRequest r) := follows_of_same (by simp) (by simp) (by simp) (by simp [State.slips]) (by simp [State.sizes])

theorem follows_sendStill (s : State) (k : EventKind) (c : Nat) (d : Detail) : s.Follows (s.sendStill k c d) := follows_of_same (by simp) (by simp) (by simp) (by simp [State.slips]) (by simp [State.sizes])

theorem follows_rewrite (s : State) (k : Nat) (f : EventRec → EventRec) : s.Follows (s.rewrite k f) := by
  unfold State.rewrite
  split
  · exact follows_self s
  · split
    · exact (follows_raise _ _).before (by simp) (by simp) (by simp) (by simp [State.slips]) (by simp [State.sizes])
    · exact follows_of_same rfl rfl rfl rfl (by simp [State.sizes])

theorem follows_answerLink (s : State) (n : Nat) (a : Option Nat) : s.Follows (s.answerLink n a) := by
  unfold State.answerLink
  split
  · exact follows_self s
  · exact follows_rewrite _ _ _

theorem follows_completeRecord (s : State) (k : Nat) : s.Follows (s.completeRecord k) :=
  (follows_raise _ _).before (by simp) (by simp) (by simp) (by simp [State.slips]) (by simp [State.sizes])

theorem follows_endWindows (s : State) : s.Follows s.endWindows := by
  have key : ∀ (l : List Nat) (u : State), u.Follows (l.foldl (fun s k => State.completeRecord
      { s with ev := s.ev.change k fun r => { r with windowSkipped := true } } k) u) := by
    intro l
    induction l with
    | nil => exact follows_self
    | cons k l ih =>
      intro u
      exact State.Follows.trans ((follows_completeRecord _ k).before (by simp) (by simp) (by simp) (by simp [State.slips]) (by simp [State.sizes])) (ih _)
  exact (key s.ev.filling { s with ev := { s.ev with filling := [] } }).before (by simp) (by simp) (by simp) (by simp [State.slips]) (by simp [State.sizes])

/-! ### Balancing -/

/-- What the slips of the blocks are, one block after the other. -/
theorem slips_count (s : State) (k : Nat) : s.slips.count k =
    (s.sup.close.map (·.slot)).toList.count k + (s.sup.clear.map (·.slot)).toList.count k
      + ((s.sup.opening.map (·.slots)).getD []).count k + s.chain.surveySlip.toList.count k
      + (s.chain.balance.map (·.slot)).toList.count k + (s.plan.captures.filterMap (·.slot)).count k
      + s.store.keySlip.toList.count k + (s.upd.slip.map (·.2)).toList.count k + s.upd.aborts.count k
      + (s.power.entry.map (·.slot)).toList.count k := by
  simp only [State.slips, List.count_append]

theorem follows_endBalance {s : State} {b : Balance} (h : ∃ b', s.chain.balance = some b' ∧ b'.slot = b.slot) (code : ResultCode)
    (cause : Option ResultCause) : s.Follows (s.endBalance b code cause) := by
  obtain ⟨b', hb, hk⟩ := h
  refine State.Follows.ends (s := s) (u := { s with
    chain.balance := none, chain.requests := s.chain.requests.filter (· ≠ .config) }) (follows_of_count (fun j => ?_) rfl rfl rfl (shaped_of_sizes rfl))
    (fun j => ?_) _
  all_goals simp only [slips_count, hb, Option.map_some, Option.map_none, Option.toList_some, Option.toList_none, hk,
    List.count_singleton, List.count_nil]
  · omega
  · split <;> simp_all

theorem skipHeads_slot (c : Chain) (n : Nat) (b : Balance) : (b.skipHeads c n).slot = b.slot := by
  induction n generalizing b with
  | zero => rfl
  | succ n ih =>
    cases htodo : b.todo with
    | nil =>
      unfold Balance.skipHeads
      rw [htodo]
    | cons x l =>
      obtain ⟨a, half⟩ := x
      unfold Balance.skipHeads
      rw [htodo]
      simp only []
      split
      · refine (ih _).trans ?_
        unfold Balance.passHead
        split <;> rfl
      · rfl

/-- What the BALANCE slip in flight becomes while it stays in flight. -/
theorem follows_balance {s : State} {b b' : Balance} (hb : s.chain.balance = some b) (hk : b'.slot = b.slot) :
    s.Follows { s with chain.balance := some b' } :=
  follows_of_same rfl rfl rfl (by simp [State.slips, hb, hk]) rfl

theorem follows_balanceNext (s : State) : s.Follows s.balanceNext := by
  unfold State.balanceNext
  cases hb : s.chain.balance with
  | none => exact follows_self s
  | some b =>
    have hk := skipHeads_slot s.chain 24 b
    simp only []
    repeat' split
    all_goals first
      | exact follows_endBalance ⟨b, hb, hk.symm⟩ _ _
      | exact (follows_balance hb hk).trans (follows_request _ _)

theorem follows_balanceReact (s : State) : s.Follows s.balanceReact := by
  unfold State.balanceReact
  repeat' split
  all_goals first
    | exact follows_self s
    | exact (follows_dropRequest s _).trans (follows_balanceNext _)

theorem follows_askStop (s : State) : s.Follows s.askStop := by
  unfold State.askStop
  simp only []
  split
  · exact follows_request _ _
  · rename_i b hb
    split
    · exact (follows_request s _).trans (follows_balance hb rfl)
    · exact (follows_request s _).trans (follows_endBalance ⟨b, hb, rfl⟩ _ _)

/-! ### Captures -/

/-- A block drops slips that it recorded, and they are completed. -/
theorem State.Follows.endsAll {s u : State} (l : List Nat) (h : s.Follows u)
    (hc : ∀ j, u.slips.count j + l.count j ≤ s.slips.count j) (r : Result) : s.Follows (u.completeAll l r) := by
  induction l generalizing u with
  | nil => exact h
  | cons k l ih =>
    rw [completeAll_cons]
    have hcons : ∀ j, (k :: l).count j = l.count j + if j = k then 1 else 0 := fun j => by
      rw [List.count_cons]
      exact congrArg _ (if_congr (beq_iff_eq.trans eq_comm) rfl rfl)
    refine ih (h.ends (k := k) (fun j => ?_) r) fun j => ?_
    · have := hc j
      rw [hcons] at this
      omega
    · have := hc j
      rw [hcons] at this
      rw [complete_slips]
      omega

/-- The slips of the captures that are kept and of those that are dropped. -/
theorem count_captures (l : List Capture) (p : Capture → Bool) (k : Nat) :
    ((l.filter fun c => !p c).filterMap (·.slot)).count k + ((l.filter p).filterMap (·.slot)).count k
      = (l.filterMap (·.slot)).count k := by
  induction l with
  | nil => rfl
  | cons c l ih =>
    have hcons : ∀ m : List Capture, ((c :: m).filterMap (·.slot)).count k
        = c.slot.toList.count k + (m.filterMap (·.slot)).count k := fun m => by
      cases hc : c.slot <;> simp [hc, List.count_cons, Nat.add_comm]
    cases hp : p c <;> simp only [List.filter_cons, hp, Bool.not_false, Bool.not_true, if_true, Bool.false_eq_true, if_false,
      hcons] <;> omega

theorem follows_dropCaptures (s : State) (p : Capture → Bool) :
    s.Follows { s with plan.captures := s.plan.captures.filter fun c => !p c } := by
  refine follows_of_count (fun j => ?_) rfl rfl rfl (shaped_of_sizes rfl)
  have := count_captures s.plan.captures p j
  simp only [slips_count]
  omega

theorem follows_dropEarly (s : State) (p : Nat) : s.Follows (s.dropEarly p) :=
  ((follows_dropCaptures s _).trans (follows_dropRequest _ _)).trans (follows_dropRequest _ _)

theorem follows_becomeQuiet (s : State) : s.Follows s.becomeQuiet := by
  have key : ∀ (l : List Nat) (u : State), u.Follows (l.foldl (fun s p => s.dropEarly p) u) := by
    intro l
    induction l with
    | nil => exact follows_self
    | cons p l ih => exact fun u => (follows_dropEarly u p).trans (ih _)
  exact (key [0, 1, 2, 3, 4, 5, 6, 7] { s with plan.quiet := true }).before (by simp) (by simp) (by simp) (by simp [State.slips]) (by simp [State.sizes])

theorem follows_captureNotMade (s : State) (p : Nat) : s.Follows (s.captureNotMade p) := by
  have hdrop : s.Follows ((s.dropEarly p).completeAll
      ((s.plan.captures.filter fun c => decide (c.plan = p) && c.stage.early).filterMap (·.slot)) (.refuse .chain noPage)) := by
    refine (follows_dropEarly s p).endsAll _ (fun j => ?_) _
    have := count_captures s.plan.captures (fun c => decide (c.plan = p) && c.stage.early) j
    simp only [slips_count, State.dropEarly, State.dropRequest]
    omega
  unfold State.captureNotMade
  simp only []
  split
  · exact hdrop.after (by simp) (by simp) (by simp) (by simp [State.slips]) (by simp [State.sizes])
  · exact hdrop

end Sys2Proof.Machine

namespace Sys2Proof.Machine

/-! ### Planner, converter, wake and patrol -/

theorem follows_clearRun (s : State) : s.Follows s.clearRun := follows_of_same rfl rfl rfl rfl rfl

theorem follows_clearSilence (s : State) : s.Follows s.clearSilence := follows_of_same rfl rfl rfl rfl rfl

theorem follows_judgeAttn (s : State) : s.Follows s.judgeAttn := follows_of_same rfl rfl rfl rfl rfl

theorem follows_showConverter (s : State) : s.Follows s.showConverter := by
  refine follows_of_read (fun hc => store_wf hc) (fun hc a h1 h2 => ?_) (fun _ hf => hf) rfl rfl rfl
  exact read_store_of_out hc (.inr (by simp only [List.length_append, converterBytes_length, le_length, fit_length]; omega))

theorem follows_makeEstimate (s : State) : s.Follows s.makeEstimate := by
  unfold State.makeEstimate
  split
  · exact follows_self s
  · split
    · exact follows_of_same rfl rfl rfl rfl rfl
    · exact (follows_showConverter _).before (by simp) (by simp) (by simp) (by simp [State.slips]) (by simp [State.sizes])

theorem follows_clearScan (s : State) : s.Follows s.clearScan := (follows_clearRun _).before (by simp) (by simp) (by simp) (by simp [State.slips]) (by simp [State.sizes])

theorem follows_restartConverter (s : State) : s.Follows s.restartConverter := by
  unfold State.restartConverter
  split
  · exact (follows_clearScan s).trans (follows_endWindows _)
  · exact follows_self s

theorem follows_startConverter (s : State) : s.Follows s.startConverter := by
  unfold State.startConverter
  split
  · exact follows_restartConverter s
  · exact (follows_clearScan s).trans ((follows_endWindows _).before (by simp) (by simp) (by simp) (by simp [State.slips]) (by simp [State.sizes]))

theorem follows_stopConverter (s : State) : s.Follows s.stopConverter := by
  unfold State.stopConverter
  split
  · exact follows_self s
  · exact ((follows_makeEstimate _).trans (follows_clearRun _)).trans
      ((follows_endWindows _).trans (follows_showConverter _)) |>.before (by simp) (by simp) (by simp) (by simp [State.slips]) (by simp [State.sizes])

theorem follows_requestSurvey (s : State) : s.Follows s.requestSurvey := by
  unfold State.requestSurvey
  split
  · exact follows_self s
  · exact follows_request s _

theorem follows_beginPlanCapture (s : State) {c : Capture} (h : c.slot = none) : s.Follows (s.beginPlanCapture c) := by
  unfold State.beginPlanCapture
  split
  all_goals exact (follows_request _ _).before rfl rfl rfl (by simp [State.slips, h]) rfl

theorem follows_beginBurstCapture (s : State) (b : Burst) : s.Follows (s.beginBurstCapture b) :=
  (follows_beginPlanCapture _ rfl).before (by simp) (by simp) (by simp) (by simp [State.slips]) (by simp [State.sizes])

theorem follows_burstReact (s : State) : s.Follows s.burstReact := by
  unfold State.burstReact
  split
  · exact follows_self s
  · split
    · split
      · exact follows_self s
      · exact follows_beginBurstCapture s _
    · split
      · exact (follows_answerLink _ _ _).before (by simp) (by simp) (by simp) (by simp [State.slips]) (by simp [State.sizes])
      · exact follows_self s

theorem follows_askPatrol (s : State) : s.Follows s.askPatrol := (follows_beginPlanCapture _ rfl).before (by simp) (by simp) (by simp) (by simp [State.slips]) (by simp [State.sizes])

theorem follows_enterPatrol (s : State) : s.Follows s.enterPatrol := by
  unfold State.enterPatrol
  split
  · exact follows_of_same rfl rfl rfl rfl rfl
  · exact (follows_askPatrol _).before (by simp) (by simp) (by simp) (by simp [State.slips]) (by simp [State.sizes])

theorem follows_enterRun (s : State) (r : Option PatrolResult) : s.Follows (s.enterRun r) := by
  have h1 : s.Follows (State.restartConverter { s with power.state := .run }) := (follows_restartConverter _).before (by simp) (by simp) (by simp) (by simp [State.slips]) (by simp [State.sizes])
  have h2 : s.Follows (if (State.restartConverter { s with power.state := .run }).chain.state = .surveying then
      State.restartConverter { s with power.state := .run }
      else State.requestSurvey (State.restartConverter { s with power.state := .run })) := by
    split
    · exact h1
    · exact h1.trans (follows_requestSurvey _)
  have hprep : s.Follows s.runPrepared := h2.after rfl rfl rfl rfl rfl
  rw [enterRun_eq]
  exact (hprep.trans ((follows_sendStill _ .fullWake 0 _).trans (follows_raise _ .wakeReason))).after rfl rfl rfl rfl rfl

theorem follows_lookAtFlags (s : State) : s.Follows s.lookAtFlags := by
  unfold State.lookAtFlags
  split
  · exact follows_of_same rfl rfl rfl rfl rfl
  · exact follows_self s

theorem follows_noteCause (s : State) (x : Source) : s.Follows (s.noteCause x) := by
  unfold State.noteCause
  simp only []
  split
  · exact follows_self s
  · split
    · split
      · exact follows_of_same rfl rfl rfl rfl rfl
      · exact follows_of_same rfl rfl rfl rfl rfl
      · exact (follows_lookAtFlags _).before (by simp) (by simp) (by simp) (by simp [State.slips]) (by simp [State.sizes])
    · exact (follows_lookAtFlags _).before (by simp) (by simp) (by simp) (by simp [State.slips]) (by simp [State.sizes])

theorem follows_wakeCause (s : State) (x : Source) : s.Follows (s.wakeCause x) := by
  unfold State.wakeCause
  split
  · exact (follows_enterRun _ _).before (by simp) (by simp) (by simp) (by simp [State.slips]) (by simp [State.sizes])
  · exact follows_noteCause s x

theorem follows_alertAtSleep (s : State) : s.Follows s.alertAtSleep := by
  unfold State.alertAtSleep
  split
  · exact follows_self s
  · exact (follows_wakeCause _ _).before (by simp) (by simp) (by simp) (by simp [State.slips]) (by simp [State.sizes])

theorem follows_toDeep (s : State) : s.Follows s.toDeep := (follows_lookAtFlags _).before (by simp) (by simp) (by simp) (by simp [State.slips]) (by simp [State.sizes])

theorem follows_returnReact (s : State) : s.Follows s.returnReact := by
  unfold State.returnReact
  split
  · exact follows_self s
  · split
    · exact (follows_stopConverter s).trans ((follows_toDeep _).before (by simp) (by simp) (by simp) (by simp [State.slips]) (by simp [State.sizes]))
    · exact follows_self s

theorem follows_logPatrol (s : State) (p : Patrol) (r : PatrolResult) (b : Breached) (x : Option PatrolSet) :
    s.Follows (s.logPatrol p r b x) := by
  refine State.Follows.trans ?_ (follows_put _ (.inl ?_))
  · refine follows_of_count (fun _ => le_rfl) rfl rfl rfl fun hs => ?_
    obtain ⟨h1, h2, h3, h4, h5, h6, h7, h8, -⟩ := hs
    refine ⟨h1, h2, h3, h4, h5, h6, h7, h8, ?_⟩
    show (if s.power.nextSlot < 31 then s.power.nextSlot + 1 else 0) ≤ 31
    split <;> omega
  · simp only [patrolAt]
    omega

theorem follows_endPatrol (s : State) (r : PatrolResult) : s.Follows (s.endPatrol r) := by
  have hret : s.Follows s.beginReturn := follows_of_same rfl rfl rfl rfl rfl
  cases r with
  | pass =>
    simp only [State.endPatrol]
    split
    · exact follows_enterRun s _
    · exact hret
  | breach => exact follows_enterRun s _
  | chainFail =>
    simp only [State.endPatrol]
    split
    · exact follows_enterRun s _
    · exact hret

theorem follows_patrolReact (s : State) : s.Follows s.patrolReact := by
  unfold State.patrolReact
  split
  · exact follows_self s
  · split
    · split
      · exact follows_self s
      · exact (follows_logPatrol s _ _ _ _).trans (follows_endPatrol _ _)
    · simp only []
      split
      · exact (follows_askPatrol _).before (by simp) (by simp) (by simp) (by simp [State.slips]) (by simp [State.sizes])
      · exact follows_of_same rfl rfl rfl rfl rfl
    · exact follows_self s

/-! ### Sleep entry and the store -/

theorem follows_requestWrite (s : State) (p : Payload) (w : Requester) : s.Follows (s.requestWrite p w) := by
  unfold State.requestWrite
  split
  · exact follows_self s
  · exact follows_of_same rfl rfl rfl rfl rfl

theorem follows_requestSnapshot (s : State) (w : Requester) : s.Follows (s.requestSnapshot w) :=
  (follows_requestWrite _ _ _).before (by simp) (by simp) (by simp) (by simp [State.slips]) (by simp [State.sizes])

/-- A sleep entry goes on to another step. -/
theorem follows_entry {s : State} {e e' : Entry} (h : s.power.entry = some e) (hk : e'.slot = e.slot) :
    s.Follows { s with power.entry := some e' } :=
  follows_of_same rfl rfl rfl (by simp [State.slips, h, hk]) rfl

theorem follows_entryReact (s : State) : s.Follows s.entryReact := by
  unfold State.entryReact
  cases he : s.power.entry with
  | none => exact follows_self s
  | some e =>
    simp only []
    split
    · split
      · exact (follows_entry (e' := { e with step := 2 }) he rfl).trans (follows_askStop _)
      · exact follows_self s
    · split
      · exact follows_self s
      · exact (follows_entry (e' := { e with step := 3, requestAt := s.now }) he rfl).trans (follows_requestSnapshot _ _)
    · split
      · exact follows_entry (e' := { e with step := 5 }) he rfl
      · exact follows_self s
    · exact follows_self s

end Sys2Proof.Machine

namespace Sys2Proof.Machine

/-! ### The update engine -/

theorem follows_toUpd (s : State) (st : UpdState) : s.Follows (s.toUpd st) := (follows_raise _ _).before (by simp) (by simp) (by simp) (by simp [State.slips]) (by simp [State.sizes])

theorem follows_setBuffer (s : State) (buf : Buffer) (n : Nat) (st : BufferState) (c : Option RejectCause) :
    s.Follows (s.setBuffer buf n st c) :=
  follows_put s (.inl (by cases buf <;> simp only [descriptorAt] <;> omega))

theorem follows_giveBack (s : State) (buf : Buffer) (n : Nat) (st : BufferState) (c : Option RejectCause) :
    s.Follows (s.giveBack buf n st c) :=
  (follows_setBuffer s _ _ _ _).trans (follows_raise _ _)

theorem follows_reject (s : State) (buf : Buffer) (n : Nat) (c : RejectCause) : s.Follows (s.reject buf n c) :=
  (follows_giveBack _ _ _ _ _).before (by simp) (by simp) (by simp) (by simp [State.slips]) (by simp [State.sizes])

theorem follows_stopIntake (s : State) : s.Follows s.stopIntake := by
  unfold State.stopIntake
  split
  · exact follows_self s
  · exact (follows_reject _ _ _ _).before (by simp) (by simp) (by simp) (by simp [State.slips]) (by simp [State.sizes])

theorem follows_dropFirmware (s : State) : s.Follows s.dropFirmware := follows_of_same rfl rfl rfl rfl rfl

theorem follows_disregard (s : State) : s.Follows s.disregard := by
  unfold State.disregard
  split
  · exact follows_of_same rfl rfl rfl rfl rfl
  · exact follows_self s

theorem follows_closeUpdate (s : State) (o : UpdOutcome) : s.Follows (s.closeUpdate o) := by
  unfold State.closeUpdate
  refine State.Follows.trans ?_ (follows_sendStill _ _ _ _)
  refine State.Follows.trans ?_ (follows_toUpd _ _)
  refine State.Follows.trans ?_ (follows_disregard _)
  refine State.Follows.trans ?_ (follows_dropFirmware _)
  refine (follows_stopIntake s).trans (follows_of_count (fun j => ?_) rfl rfl rfl (shaped_of_sizes rfl))
  simp only [slips_count, Option.map_none, Option.toList_none, List.count_nil]
  omega

/-- An update that has ended records none of the slips that it recorded. -/
theorem closeUpdate_slips (s : State) (o : UpdOutcome) (j : Nat) :
    (s.closeUpdate o).slips.count j + (s.upd.slip.map (·.2)).toList.count j + s.upd.aborts.count j = s.slips.count j := by
  simp only [slips_count, closeUpdate_frame]
  simp [State.closeUpdate, State.toUpd]
  omega

/-- The slips of the engine end with the update. -/
theorem follows_endUpdate (s : State) (o : UpdOutcome) (code : ResultCode) (cause : Option ResultCause) :
    s.Follows (s.endUpdate o code cause) := by
  have hcount := closeUpdate_slips s o
  rw [endUpdate_eq]
  cases hs : s.upd.slip with
  | none =>
    refine (follows_closeUpdate s o).endsAll _ (fun j => ?_) _
    have := hcount j
    change (s.closeUpdate o).slips.count j + _ ≤ _
    omega
  | some p =>
    obtain ⟨q, k⟩ := p
    have hone : ∀ j, (s.upd.slip.map (·.2)).toList.count j = if j = k then 1 else 0 := fun j => by
      rw [hs, Option.map_some, Option.toList_some, List.count_singleton]
      exact if_congr (beq_iff_eq.trans eq_comm) rfl rfl
    refine ((follows_closeUpdate s o).ends (k := k) (fun j => ?_) _).endsAll _ (fun j => ?_) _
    · have := hcount j
      rw [hone] at this
      omega
    · have := hcount j
      rw [complete_slips]
      omega

theorem follows_editDist (s : State) (pos : Nat) (f : DistRec → DistRec) : s.Follows (s.editDist pos f) :=
  follows_of_same rfl rfl rfl rfl rfl

theorem follows_editModule (s : State) (a : Nat) (f : ModuleEntry → ModuleEntry) : s.Follows (s.editModule a f) :=
  follows_of_same rfl rfl rfl rfl (by simp [State.sizes, State.editModule])

theorem follows_askChain (s : State) (r : FwReq) : s.Follows (s.askChain r) := (follows_request _ _).before (by simp) (by simp) (by simp) (by simp [State.slips]) (by simp [State.sizes])

theorem follows_endSwitching (s : State) : s.Follows s.endSwitching := by
  unfold State.endSwitching
  simp only []
  split
  · split
    · exact (follows_endUpdate _ _ _ _).before (by simp) (by simp) (by simp) (by simp [State.slips]) (by simp [State.sizes])
    · exact (follows_requestWrite _ _ _).before (by simp) (by simp) (by simp) (by simp [State.slips]) (by simp [State.sizes])
  · exact follows_endUpdate s _ _ _

theorem follows_nextSwitch (n : Nat) (s : State) : s.Follows (State.nextSwitch n s) := by
  induction n generalizing s with
  | zero => exact follows_endSwitching s
  | succ n ih =>
    unfold State.nextSwitch
    split
    · exact follows_endSwitching s
    · split
      · exact (follows_askChain _ _).before rfl rfl rfl rfl (by simp [State.sizes, State.outOfService, State.editModule])
      · exact (follows_editDist s _ _).trans (ih _)

theorem follows_enterSwitching (s : State) : s.Follows s.enterSwitching :=
  ((follows_toUpd _ _).trans (follows_nextSwitch _ _)).before rfl rfl rfl rfl rfl

theorem follows_endDistribution (s : State) : s.Follows s.endDistribution := by
  unfold State.endDistribution
  simp only []
  split
  · exact (follows_endUpdate _ _ _ _).before rfl rfl rfl rfl rfl
  · split
    · exact (follows_enterSwitching _).before rfl rfl rfl rfl rfl
    · exact follows_of_same rfl rfl rfl rfl rfl

theorem follows_nextRecord (n : Nat) (s : State) : s.Follows (State.nextRecord n s) := by
  induction n generalizing s with
  | zero => exact follows_endDistribution s
  | succ n ih =>
    unfold State.nextRecord
    split
    · exact follows_endDistribution s
    · split
      · exact (follows_askChain _ _).before rfl rfl rfl rfl rfl
      · exact (follows_editDist s _ _).trans (ih _)

theorem follows_failSpoiled (s : State) (t : Turn) : s.Follows (s.failSpoiled t) := by
  have hnext : s.Follows (State.nextRecord 24
      (State.dropFirmware { s.failDist t.pos .notEligible with upd.pause := none, upd.link := .none })) :=
    (follows_nextRecord 24 _).before rfl rfl rfl rfl rfl
  unfold State.failSpoiled
  simp only []
  split
  · exact hnext.after rfl rfl rfl rfl rfl
  · exact hnext

theorem follows_updateReact (s : State) : s.Follows s.updateReact := by
  unfold State.updateReact
  simp only []
  split
  · split
    · exact (follows_askChain _ _).before rfl rfl rfl rfl rfl
    · exact (follows_askChain _ _).before rfl rfl rfl rfl rfl
    · exact follows_of_same rfl rfl rfl rfl rfl
  · split
    · split
      · split
        · exact follows_failSpoiled s _
        · exact follows_self s
      · split
        · exact follows_enterSwitching s
        · exact follows_self s
    · exact follows_self s

theorem follows_firmwareDown (s : State) (r : FwReq) : s.Follows (s.firmwareDown r) := by
  cases r with
  | probe => exact follows_self s
  | block => exact follows_of_same rfl rfl rfl rfl rfl
  | switch => exact follows_of_same rfl rfl rfl rfl rfl

/-! ### The arbiter -/

theorem follows_answerDown (s : State) (r : Req) : s.Follows (s.answerDown r) := by
  unfold State.answerDown
  split
  · exact follows_self s
  · cases r with
    | survey =>
      simp only []
      split
      · exact follows_dropRequest s _
      · exact follows_self s
    | stop =>
      simp only []
      split
      · exact follows_dropRequest s _
      · exact follows_self s
    | burst => exact follows_captureNotMade s _
    | patrol => exact follows_captureNotMade s _
    | capture p => exact follows_captureNotMade s _
    | pause p => exact follows_captureNotMade s _
    | firmware q => exact (follows_dropRequest s _).trans (follows_firmwareDown _ _)
    | returnEcho a => exact follows_dropRequest s _
    | config =>
      simp only []
      cases hb : s.chain.balance with
      | none => exact follows_dropRequest s _
      | some b =>
        exact (follows_dropRequest s .config).trans (follows_endBalance (s := s.dropRequest .config) ⟨b, hb, rfl⟩ _ _)

theorem follows_answerRequests (s : State) : s.Follows s.answerRequests := by
  have key : ∀ (l : List Req) (u : State), u.Follows (l.foldl State.answerDown u) := by
    intro l
    induction l with
    | nil => exact follows_self
    | cons r l ih => exact fun u => (follows_answerDown u r).trans (ih _)
  unfold State.answerRequests
  split
  · exact key _ s
  · exact follows_self s

theorem follows_beginExchange (s : State) (kind : FrameKind) (addr : Nat) (payload : List Byte) :
    s.Follows (s.beginExchange kind addr payload) := follows_of_same rfl rfl rfl rfl rfl

theorem follows_beginSurvey (s : State) : s.Follows s.beginSurvey := follows_of_same rfl rfl rfl rfl rfl

/-- Captures that keep their slips go on. -/
theorem follows_captures (s : State) {f : Capture → Capture} (h : ∀ c, (f c).slot = c.slot) :
    s.Follows { s with plan.captures := s.plan.captures.map f } := by
  refine follows_of_same rfl rfl rfl ?_ rfl
  have hf : (·.slot) ∘ f = fun c : Capture => c.slot := funext h
  simp only [State.slips, List.filterMap_map, hf]

theorem follows_grantCapture (s : State) (p : Nat) : s.Follows (s.grantCapture p) := by
  refine State.Follows.after (follows_captures s fun c => ?_) rfl rfl rfl rfl rfl
  split <;> rfl

theorem follows_grantFirmware (s : State) (r : FwReq) : s.Follows (s.grantFirmware r) := by
  unfold State.grantFirmware
  split
  · exact follows_self s
  · cases r <;> exact follows_of_same rfl rfl rfl rfl rfl

theorem follows_grantConfig (s : State) : s.Follows s.grantConfig := by
  unfold State.grantConfig
  cases hb : s.chain.balance with
  | none => exact follows_self s
  | some b =>
    simp only []
    split
    · exact follows_self s
    · exact follows_of_same rfl rfl rfl (by simp [State.slips, State.beginExchange, hb]) rfl

theorem follows_grant (s : State) (r : Req) : s.Follows (s.grant r) := by
  refine (follows_dropRequest s r).trans ?_
  cases r with
  | survey => exact follows_beginSurvey _
  | burst => exact follows_grantCapture _ _
  | patrol => exact follows_grantCapture _ _
  | capture p => exact follows_grantCapture _ _
  | firmware q => exact follows_grantFirmware _ _
  | config => exact follows_grantConfig _
  | pause p => exact follows_of_same rfl rfl rfl rfl rfl
  | stop => exact follows_of_same rfl rfl rfl rfl rfl
  | returnEcho a => exact follows_of_same rfl rfl rfl rfl rfl

theorem follows_arbiterGrant (s : State) : s.Follows s.arbiterGrant := by
  unfold State.arbiterGrant
  split
  · simp only []
    split
    · exact follows_balanceReact s
    · exact (follows_balanceReact s).trans (follows_grant _ _)
  · exact follows_self s

/-! ### All of it -/

theorem follows_round (s : State) : s.Follows s.round :=
  (follows_burstReact s).trans <| (follows_answerRequests _).trans <| (follows_patrolReact _).trans <|
    (follows_returnReact _).trans <| (follows_updateReact _).trans <| (follows_entryReact _).trans <|
      (follows_answerRequests _).trans (follows_arbiterGrant _)

theorem follows_settle (s : State) : s.Follows s.settle :=
  (follows_round s).trans <| (follows_round _).trans <| (follows_round _).trans (follows_round _)

theorem finish_slots_length (o n : State) : (State.finish o n).ev.slots.length = n.ev.slots.length := by
  have hfold : ∀ (l : List Nat) (v : Recorder) (f : EventRec → EventRec),
      (l.foldl (fun v k => v.change k f) v).slots.length = v.slots.length := by
    intro l v f
    induction l generalizing v with
    | nil => rfl
    | cons k l ih => rw [List.foldl_cons, ih, change_slots_length]
  have hmark : ∀ u : State, u.markSurge.ev.slots.length = u.ev.slots.length := by
    intro u
    unfold State.markSurge
    split
    · exact hfold _ _ _
    · rfl
  simp [State.finish, State.endSending, hmark]

theorem follows_finish {o n : State} : n.Follows (State.finish o n) := by
  have hcap : (State.finish o n).plan.captures.filterMap (·.slot) = n.plan.captures.filterMap (·.slot) := by
    have hmark : ∀ s : State, s.markCaptureSurge.plan.captures.filterMap (·.slot) = s.plan.captures.filterMap (·.slot) := by
      intro s
      unfold State.markCaptureSurge State.editHeld
      split
      · rw [List.filterMap_map]
        congr 1
        funext c
        simp only [Function.comp]
        split <;> rfl
      · rfl
    simpa [State.finish] using hmark (State.trackFaulted o n).markSurge
  refine follows_of_read (fun hc => finish_wf o n hc) (fun hc a h1 h2 => read_finish_mid hc (by omega) (by omega))
    (fun f hf => ?_) (by simp) ?_ ?_
  · rwa [(by simp : (State.finish o n).attn = n.attn)]
  · simp [State.slips, hcap]
  · simp [State.sizes, finish_slots_length]

/-- What a reaction keeps of the state whose reaction it is. -/
theorem State.Follows.reacts {s u o : State} (h : s.Follows u) : s.Follows (State.finish o u.settle) :=
  h.trans ((follows_settle u).trans follows_finish)

end Sys2Proof.Machine

namespace Sys2Proof.Machine

/-! ### The wait for the entry's snapshot ends (R109) -/

theorem snapshotWaitLimit_react {s : State} {e : Entry} (he : s.power.entry = some e) (hstep : e.step = 3)
    (hwait : 250 ≤ elapsed s.now e.requestAt) (hq : ∃ q ∈ s.store.queue, Requester.entry ∈ q.who) :
    exec .snapshotWaitLimit s = s.react { s with
      store.queue := s.store.queue.filter fun q => !q.who.contains .entry
      power.entry := some { e with step := 4 }
      power.snapOutcome := .skipped
      chain.sleepCmd := true } := by
  have hp : s.passed e.requestAt snapshotWait = true := (passed_iff _ _ _).2 hwait
  have hw : s.store.entryWaits = true := List.any_eq_true.2 (hq.imp fun q h => ⟨h.1, by simpa using h.2⟩)
  change execSnapshotWaitLimit s = _
  simp [execSnapshotWaitLimit, he, hstep, hp, hw, State.withdrawWrites, State.endSnapshotStep]

/-! ### SLEEP (R9) -/

/-- The SLEEP broadcast has left: the chain is ASLEEP, and a wake that had to wait for it begins. -/
def State.asleepNow (s : State) (us : Us) : State :=
  { s with
    conv.us := usAfter s us
    chain.lastSent := some (⟨.sleep, 31, s.chain.exTag, []⟩, usAfter s us)
    chain.exTag := cycle 255 s.chain.exTag
    chain.state := .asleep
    chain.sleepCmd := false
    chain.wakeAfterSleep := false
    chain.surveyTimer := none
    chain.wake := if s.chain.wakeAfterSleep then .tone s.now else .none }

/-- A chain alert that is asserted outside RUN as the chain falls ASLEEP is a cause. -/
def State.alertIf (s : State) : State := if s.pins.chainAlert && s.power.state.watched then s.alertAtSleep else s

theorem sleepReady_iff (c : Chain) : c.sleepReady = true ↔
    c.sleepCmd = true ∧ c.hold = none ∧ c.line = .idle ∧ c.wake = .none ∧ c.state ≠ .asleep := by
  simp [Chain.sleepReady, and_assoc]

theorem sleepBroadcast_react {us : Us} {s : State} (h : s.chain.sleepReady = true) :
    exec (.sleepBroadcast us) s = s.react (s.asleepNow us).alertIf := by
  obtain ⟨-, -, -, hwake, -⟩ := (sleepReady_iff s.chain).1 h
  change execSleepBroadcast us s = _
  have key : (if s.chain.wakeAfterSleep then
      State.wakeChain { (s.atUs us).sendAtOnce .sleep with
        chain.state := .asleep, chain.sleepCmd := false, chain.wakeAfterSleep := false, chain.surveyTimer := none }
      else { (s.atUs us).sendAtOnce .sleep with
        chain.state := .asleep, chain.sleepCmd := false, chain.wakeAfterSleep := false, chain.surveyTimer := none })
      = s.asleepNow us := by
    split <;> simp [State.asleepNow, *, State.wakeChain, State.sendAtOnce, atUs_eq, broadcast, State.now]
  simp only [execSleepBroadcast, h, if_true, key]
  rfl

/-- What a wake cause leaves alone while the chain is ASLEEP: a patrol goes on unjudged or ends. -/
structure State.CauseKept (s t : State) : Prop where
  chain : t.chain = s.chain
  burst : t.plan.burst = s.plan.burst
  upd : t.upd = s.upd
  entry : t.power.entry = s.power.entry
  returning : s.power.returning = none → t.power.returning = none
  patrol : s.power.patrol = none → t.power.patrol = none
  judged : (∀ p, s.power.patrol = some p → p.judged = none ∧ s.plan.patrolReport = none) →
    ∀ p, t.power.patrol = some p → p.judged = none ∧ t.plan.patrolReport = none

theorem enterRun_asleep {s : State} (h : s.chain.state = .asleep) (r : Option PatrolResult) : (s.enterRun r).chain = s.chain := by
  have hprep : s.runPrepared.chain = s.chain := by
    simp [State.runPrepared, State.clearSilence, State.requestSurvey, h]
  rw [enterRun_eq]
  simpa using hprep

theorem causeKept_enterRun {s : State} (h : s.chain.state = .asleep) (r : Option PatrolResult) : s.CauseKept (s.enterRun r) := by
  have hpow := enterRun_power s r
  refine ⟨enterRun_asleep h r, by simp, by simp, by rw [hpow], fun _ => by rw [hpow], fun _ => by rw [hpow], fun _ p hp => ?_⟩
  rw [hpow] at hp
  exact nomatch hp

theorem noteCause_patrol (s : State) (x : Source) : (s.noteCause x).power.patrol = s.power.patrol
    ∨ (s.noteCause x).power.patrol = s.power.patrol.map fun p => { p with promoted := true } := by
  unfold State.noteCause State.lookAtFlags
  simp only []
  repeat' split
  all_goals first
    | exact .inl rfl
    | exact .inr rfl

theorem causeKept_noteCause (s : State) (x : Source) : s.CauseKept (s.noteCause x) := by
  refine ⟨by simp, by simp, by simp, by simp, fun h => by simpa using h, fun h => ?_, fun h p hp => ?_⟩
  · rcases noteCause_patrol s x with hx | hx
    · rw [hx, h]
    · rw [hx, h, Option.map_none]
  · have hrep : (s.noteCause x).plan = s.plan := by simp
    rw [hrep]
    rcases noteCause_patrol s x with hx | hx
    · exact h p (hx.symm.trans hp)
    · obtain ⟨q, hq, rfl⟩ := Option.map_eq_some_iff.1 (hx.symm.trans hp)
      exact h q hq

theorem causeKept_wakeCause {s : State} (h : s.chain.state = .asleep) (x : Source) : s.CauseKept (s.wakeCause x) := by
  unfold State.wakeCause
  split
  · obtain ⟨h1, h2, h3, h4, h5, h6, h7⟩ := causeKept_enterRun (s := { s with power.pend := s.power.pend ||| x.flag }) h none
    exact ⟨h1, h2, h3, h4, h5, h6, h7⟩
  · exact causeKept_noteCause s x

theorem causeKept_alertIf {s : State} (h : s.chain.state = .asleep) : s.CauseKept s.alertIf := by
  have hself : s.CauseKept s := ⟨rfl, rfl, rfl, rfl, id, id, id⟩
  unfold State.alertIf State.alertAtSleep
  split
  · split
    · exact hself
    · obtain ⟨h1, h2, h3, h4, h5, h6, h7⟩ := causeKept_wakeCause (s := { s with
        power.returning := s.power.returning.map fun r => r &&& ~~~Source.chain.flag }) h .chain
      exact ⟨h1, h2, h3, h4, fun hn => h5 (by simp [hn]), h6, h7⟩
  · exact hself

theorem sameAround_alertIf (s : State) : s.sameAround s.alertIf := by
  unfold State.alertIf State.alertAtSleep State.wakeCause
  repeat' split
  all_goals simp [State.sameAround]

theorem sameContactors_alertIf (s : State) : s.sameContactors s.alertIf := by
  unfold State.alertIf State.alertAtSleep State.wakeCause
  repeat' split
  all_goals simp [State.sameContactors, Sup.coils]

/-- Once the chain is ASLEEP a block that rested still rests, where no sleep entry and no return to DEEP waits for it. -/
theorem asleepNow_restful {s : State} {us : Us} (hr : s.restful) (hh : s.chain.hold = none)
    (he : s.power.entry = none) (hret : s.power.returning = none) : (s.asleepNow us).alertIf.restful := by
  have hk := causeKept_alertIf (s := s.asleepNow us) rfl
  obtain ⟨⟨hb, hp, hd, -, hpat, -⟩, hq⟩ := hr
  refine ⟨⟨hk.burst.trans hb, (congrArg Update.pause hk.upd).trans hp, fun h => hd ((congrArg Update.state hk.upd).symm.trans h),
    fun e h => ?_, hk.judged hpat, fun r h => ?_⟩, .inl ?_⟩
  · exact absurd ((hk.entry.trans he).symm.trans h) (by simp)
  · exact absurd ((hk.returning hret).symm.trans h) (by simp)
  · refine (congrArg Chain.requests hk.chain).trans (hq.resolve_right fun ho => ?_)
    exact absurd ho.1 (by simp [hh])

end Sys2Proof.Machine

namespace Sys2Proof.Machine

/-- A sleep entry at another step. -/
@[simp] def State.entryAt (s : State) (e : Entry) : State := { s with power.entry := some e }

/-- Step 4 of a sleep entry ends with the chain ASLEEP, and nothing else follows (R108). -/
theorem settle_entry_asleep {s : State} {e : Entry} (hb : s.plan.burst = none) (hp : s.upd.pause = none)
    (hd : s.upd.state ≠ .distributing) (hpt : s.power.patrol = none) (hr : s.power.returning = none)
    (he : s.power.entry = some e) (h4 : e.step = 4) (hq : s.chain.requests = []) (ha : s.chain.state = .asleep)
    (hc : s.chain.sleepCmd = false) (hw : s.chain.wake = .none) :
    s.settle = s.entryAt { e with step := 5 } := by
  have hent : s.entryReact = s.entryAt { e with step := 5 } := by
    simp [State.entryReact, he, h4, ha, hc, hw]
  have hrest : (s.entryAt { e with step := 5 }).resting := by
    refine ⟨hb, hp, hd, ?_, ?_, ?_⟩
    · rintro f hf
      obtain rfl := Option.some.inj hf
      exact .inr (.inl rfl)
    · exact fun p hf => absurd (hpt.symm.trans hf) (by simp)
    · exact fun p hf => absurd (hr.symm.trans hf) (by simp)
  have hyq : (s.entryAt { e with step := 5 }).chain.requests = [] := hq
  generalize s.entryAt { e with step := 5 } = y at *
  refine settle_of_round ?_ (still_of_resting hrest) (.inl hyq)
  unfold State.round
  rw [show s.burstReact = s by simp [State.burstReact, hb], answerRequests_quiet (.inl hq),
    show s.patrolReact = s by simp [State.patrolReact, hpt], show s.returnReact = s by simp [State.returnReact, hr],
    updateReact_resting hp hd, hent, answerRequests_quiet (.inl hyq), arbiterGrant_quiet (.inl hyq)]

/-- The return from a patrol is complete: the converter stops and the part is in DEEP (R124). -/
def State.returned (s : State) (src : BitVec 5) : State :=
  State.toDeep { s.stopConverter with
    power.pend := s.stopConverter.power.pend &&& ~~~src
    power.returning := none }

/-- The return from a patrol ends with the chain ASLEEP, and nothing else follows (R124). -/
theorem settle_returns {s : State} {src : BitVec 5} (hb : s.plan.burst = none) (hp : s.upd.pause = none)
    (hd : s.upd.state ≠ .distributing) (hpt : s.power.patrol = none) (hr : s.power.returning = some src)
    (he : s.power.entry = none) (hq : s.chain.requests = []) (ha : s.chain.state = .asleep) :
    s.settle = s.returned src := by
  have hret : s.returnReact = s.returned src := by simp [State.returnReact, hr, ha, State.returned]
  have hkeep : (s.returned src).plan.burst = none ∧ (s.returned src).upd = s.upd ∧ (s.returned src).chain = s.chain
      ∧ (s.returned src).power.entry = none ∧ (s.returned src).power.patrol = none ∧ (s.returned src).power.returning = none := by
    simp [State.returned, hb, he, hpt]
  generalize s.returned src = y at *
  obtain ⟨hyb, hyu, hyc, hye, hyp, hyr⟩ := hkeep
  have hyq : y.chain.requests = [] := by rw [hyc, hq]
  have hrest : y.resting := by
    refine ⟨hyb, by rw [hyu, hp], by rwa [hyu], ?_, ?_, ?_⟩
    · exact fun e hf => absurd (hye.symm.trans hf) (by simp)
    · exact fun e hf => absurd (hyp.symm.trans hf) (by simp)
    · exact fun e hf => absurd (hyr.symm.trans hf) (by simp)
  have hst := still_of_resting hrest
  refine settle_of_round ?_ hst (.inl hyq)
  unfold State.round
  rw [show s.burstReact = s by simp [State.burstReact, hb], answerRequests_quiet (.inl hq),
    show s.patrolReact = s by simp [State.patrolReact, hpt], hret, hst.update, hst.entry, answerRequests_quiet (.inl hyq),
    arbiterGrant_quiet (.inl hyq)]

/-- The part is in DEEP with the patrol timer loaded, before it looks at the flags (R110, R114). -/
def State.deepNow (s : State) : State := State.judgeAttn { s with
  power.state := .deep
  power.target := .none
  power.timer := 1000 * s.power.wakeTable.period
  power.timerRunning := true
  power.compRun := 0
  power.compFired := false }

theorem toDeep_quiet {s : State} (h : s.power.pendingWith (fun l => decide (l ≠ 0)) = false) : s.toDeep = s.deepNow := by
  have h' : ¬ (decide (s.deepNow.power.state = .deep) && s.deepNow.power.pendingWith (fun l => decide (l ≠ 0))) = true :=
    fun hw => Bool.false_ne_true (h.symm.trans hw)
  exact if_neg h'

theorem toDeep_wakes {s : State} (h : s.power.pendingWith (fun l => decide (l ≠ 0)) = true) : s.toDeep.power.state = .waking := by
  have h' : (decide (s.deepNow.power.state = .deep) && s.deepNow.power.pendingWith (fun l => decide (l ≠ 0))) = true := h
  change s.deepNow.lookAtFlags.power.state = _
  rw [State.lookAtFlags, if_pos h']

theorem toDeep_kept (s : State) : s.toDeep.power.timer = 1000 * s.power.wakeTable.period ∧ s.toDeep.power.timerRunning = true
    ∧ s.toDeep.power.compRun = 0 ∧ s.toDeep.power.pend = s.power.pend ∧ s.toDeep.conv = s.conv
    ∧ s.toDeep.power.wakeTable = s.power.wakeTable := by
  unfold State.toDeep State.lookAtFlags
  split <;> simp [State.judgeAttn]

theorem stopConverter_scanning (s : State) : s.stopConverter.conv.scanning = false := by
  unfold State.stopConverter
  split
  · simp_all
  · simp [State.showConverter, State.clearRun, State.makeEstimate]
    split <;> [skip; split] <;> simp

theorem stopConverter_power (s : State) : s.stopConverter.power = { s.power with estimate := s.stopConverter.power.estimate } := by
  unfold State.stopConverter
  split
  · rfl
  · simp [State.makeEstimate]
    split <;> [skip; split] <;> simp [State.charge, State.showConverter]

end Sys2Proof.Machine

namespace Sys2Proof.Machine

/-- The sleep entry goes on without its snapshot (R109). -/
def State.skipped (s : State) (e : Entry) : State := { s with
  store.queue := s.store.queue.filter fun q => !q.who.contains .entry
  power.entry := some { e with step := 4 }
  power.snapOutcome := .skipped
  chain.sleepCmd := true }

theorem skipped_restful {s : State} {e : Entry} (h : s.restful) (ha : s.chain.state ≠ .asleep) : (s.skipped e).restful := by
  obtain ⟨⟨hb, hp, hd, -, hpt, hr⟩, hq⟩ := h
  refine ⟨⟨hb, hp, hd, ?_, hpt, hr⟩, hq⟩
  rintro f hf
  obtain rfl := Option.some.inj hf
  exact .inr (.inr ⟨rfl, ha⟩)

theorem attnCondition_deep (a : Attn) : attnCondition .deep a = false := by
  simp [attnCondition, PowerState.awake]

theorem pendingWith_congr {p q : Power} (h1 : p.pend = q.pend) (h2 : p.wakeTable = q.wakeTable) (f : Nat → Bool) :
    p.pendingWith f = q.pendingWith f := by
  unfold Power.pendingWith
  rw [h1, h2]

theorem enterDeep_quiet {s : State} (h : s.power.pendingWith (fun l => decide (l ≠ 0)) = false) (k : Nat) :
    s.enterDeep k = State.deepNow { s.stopConverter.complete k (.okWith s.stopConverter.power.sleepFields) with power.entry := none } := by
  refine toDeep_quiet ?_
  rw [← h]
  refine pendingWith_congr ?_ ?_ _
  · simp
  · simp

theorem enterDeep_fields {s : State} (h : s.power.pendingWith (fun l => decide (l ≠ 0)) = false) (k : Nat) :
    (s.enterDeep k).power.state = .deep ∧ (s.enterDeep k).power.entry = none
      ∧ (s.enterDeep k).power.timer = 1000 * s.power.wakeTable.period ∧ (s.enterDeep k).power.timerRunning = true
      ∧ (s.enterDeep k).power.compRun = 0 ∧ (s.enterDeep k).attn.line = false ∧ (s.enterDeep k).conv.scanning = false
      ∧ (s.enterDeep k).power.patrol = s.power.patrol ∧ (s.enterDeep k).power.returning = s.power.returning := by
  rw [enterDeep_quiet h]
  simp [State.deepNow, State.judgeAttn, attnCondition_deep, stopConverter_scanning]

theorem enterDeep_restful {s : State} (h : s.restful) (hq : s.chain.requests = []) (hpt : s.power.patrol = none)
    (hw : s.power.pendingWith (fun l => decide (l ≠ 0)) = false) (k : Nat) : (s.enterDeep k).restful := by
  obtain ⟨-, he, -, -, -, -, -, hp, hr⟩ := enterDeep_fields hw k
  obtain ⟨⟨hb, hu, hd, -, -, hret⟩, -⟩ := h
  refine ⟨⟨by simpa using hb, by simpa using hu, by simpa using hd, fun e hf => ?_, fun p hf => ?_, fun r hf => ?_⟩,
    .inl (by simpa using hq)⟩
  · exact absurd (he.symm.trans hf) (by simp)
  · exact absurd ((hp.trans hpt).symm.trans hf) (by simp)
  · simpa using hret r (hr.symm.trans hf)

theorem enterDeep_showsDone {s : State} {k : Nat} (hc : s.canonical) (hi : s.inFlight k) : (s.enterDeep k).showsDone k 1 0 := by
  have hs := complete_showsDone (s := s.stopConverter) (k := k) (follows_stopConverter s |>.wf hc)
    (by simpa [State.inFlight] using hi) (.okWith s.stopConverter.power.sleepFields)
  exact showsDone_of_same hs (fun a _ _ => by simp [State.enterDeep]) (by simp [State.enterDeep])
    (fun hp => by simpa [State.enterDeep, Attn.pending] using hp)

end Sys2Proof.Machine

namespace Sys2Proof.Machine

theorem finish_frame_conv (o n : State) : (State.finish o n).conv = n.conv := by simp

theorem returned_fields (s : State) (src : BitVec 5) :
    (s.returned src).conv.scanning = false ∧ (s.returned src).power.pend = s.power.pend &&& ~~~src
      ∧ (s.returned src).power.timer = 1000 * s.power.wakeTable.period ∧ (s.returned src).power.timerRunning = true
      ∧ (s.returned src).power.returning = none
      ∧ ((s.returned src).power.pendingWith (fun l => decide (l ≠ 0)) = false → (s.returned src).power.state = .deep)
      ∧ ((s.returned src).power.pendingWith (fun l => decide (l ≠ 0)) = true → (s.returned src).power.state = .waking) := by
  obtain ⟨u, hu⟩ : ∃ u : State, u = { s.stopConverter with
      power.pend := s.stopConverter.power.pend &&& ~~~src
      power.returning := none } := ⟨_, rfl⟩
  have heq : s.returned src = u.toDeep := by rw [hu]; rfl
  obtain ⟨h1, h2, -, h4, h5, h6⟩ := toDeep_kept u
  have hpw : ∀ f, u.toDeep.power.pendingWith f = u.power.pendingWith f := pendingWith_congr h4 h6
  rw [heq, h1, h2, h4, h5, hpw]
  refine ⟨?_, ?_, ?_, rfl, ?_, fun h => ?_, toDeep_wakes⟩
  · rw [hu]
    exact stopConverter_scanning s
  · rw [hu]
    simp
  · rw [hu]
    simp
  · rw [hu]
    simp
  · rw [toDeep_quiet h]
    rfl

theorem sleepBroadcast_goes (us : Us) (s : State) (h : s.chain.sleepReady = true) :
    Goes (.sleepBroadcast us) s fun t =>
      t.chain.lastSent = some (⟨.sleep, 31, s.chain.exTag, []⟩, usAfter s us)
        ∧ t.chain.wake = (if s.chain.wakeAfterSleep then .tone s.now else .none)
        ∧ t.chain.wakeAfterSleep = false
        ∧ (s.restful → s.power.entry = none → s.power.returning = none →
            t.chain.state = .asleep ∧ t.chain.sleepCmd = false ∧ t.chain.surveyTimer = none)
        ∧ (∀ e, s.restful → s.power.entry = some e → e.step = 4 → s.power.patrol = none → s.power.returning = none →
            s.chain.wakeAfterSleep = false →
            t.chain.state = .asleep ∧ t.chain.sleepCmd = false ∧ t.power.entry = some { e with step := 5 })
        ∧ (∀ src, s.restful → s.power.returning = some src → s.power.entry = none → s.power.patrol = none →
            s.power.state = .patrol → s.chain.wakeAfterSleep = false → s.pins.chainAlert = false →
            t.chain.state = .asleep ∧ t.power.returning = none ∧ t.power.pend = s.power.pend &&& ~~~src
              ∧ t.conv.scanning = false ∧ t.power.timer = 1000 * s.power.wakeTable.period
              ∧ t.power.timerRunning = true
              ∧ (t.power.pendingWith (fun l => decide (l ≠ 0)) = false → t.power.state = .deep)
              ∧ (t.power.pendingWith (fun l => decide (l ≠ 0)) = true → t.power.state = .waking))
        ∧ s.sameAround t ∧ s.sameContactors t := by
  obtain ⟨-, hhold, -, -, -⟩ := (sleepReady_iff s.chain).1 h
  have hk := causeKept_alertIf (s := s.asleepNow us) rfl
  have haround : s.sameAround (s.asleepNow us).alertIf := sameAround_alertIf (s.asleepNow us)
  have hcont : s.sameContactors (s.asleepNow us).alertIf := sameContactors_alertIf (s.asleepNow us)
  have hnoreq : s.restful → s.chain.requests = [] := fun hr => hr.2.resolve_right fun ho => absurd ho.1 (by simp [hhold])
  refine goes_react _ (sleepBroadcast_react h) ?_
  refine ⟨?_, ?_, ?_, fun hr he hret => ?_, fun e hr he h4 hpt hret hwa => ?_, fun src hr hret he hpt hst hwa hca => ?_,
    sameAround_finish (sameAround_settle haround), sameContactors_finish (sameContactors_settle hcont)⟩
  · simp only [finish_frame, settle_frame, hk.chain]
    rfl
  · simp only [finish_frame, settle_frame, hk.chain]
    rfl
  · simp only [finish_frame, settle_frame, hk.chain]
    rfl
  · rw [settle_restful (asleepNow_restful hr hhold he hret)]
    simp only [finish_frame, hk.chain]
    exact ⟨rfl, rfl, rfl⟩
  · obtain ⟨⟨hb, hp, hd, -, -, -⟩, -⟩ := id hr
    rw [settle_entry_asleep (e := e) (hk.burst.trans hb) ((congrArg Update.pause hk.upd).trans hp)
      (fun hx => hd ((congrArg Update.state hk.upd).symm.trans hx)) (hk.patrol hpt) (hk.returning hret) (hk.entry.trans he) h4
      ((congrArg Chain.requests hk.chain).trans (hnoreq hr)) (congrArg Chain.state hk.chain)
      (congrArg Chain.sleepCmd hk.chain) ((congrArg Chain.wake hk.chain).trans (by simp [State.asleepNow, hwa]))]
    simp only [finish_frame, State.entryAt, hk.chain]
    exact ⟨rfl, rfl, trivial⟩
  · obtain ⟨⟨hb, hp, hd, -, -, -⟩, -⟩ := id hr
    have hal : (s.asleepNow us).alertIf = s.asleepNow us := by simp [State.alertIf, State.asleepNow, hca]
    rw [hal, settle_returns (s := s.asleepNow us) (src := src) hb hp hd hpt hret he (hnoreq hr) rfl]
    obtain ⟨hscan, hpend, htim, hrun, hret', hdeep, hwak⟩ := returned_fields (s.asleepNow us) src
    rw [(by simp : (State.finish s ((s.asleepNow us).returned src)).power = ((s.asleepNow us).returned src).power)]
    refine ⟨by simp [State.returned, State.asleepNow], hret', hpend, ?_, htim, hrun, hdeep, hwak⟩
    rw [finish_frame_conv]
    exact hscan

end Sys2Proof.Machine

namespace Sys2Proof.Machine

/-! ### The supervisor -/

theorem follows_drawn (s : State) : s.Follows s.drawn := by
  unfold State.drawn
  split
  · exact follows_self s
  · exact follows_of_same rfl rfl rfl rfl rfl

theorem follows_send (s : State) (e : SentEvent) : s.Follows (s.send e) := follows_of_same rfl rfl rfl rfl rfl

theorem follows_addCause (s : State) (c : CauseRec) : s.Follows (s.addCause c) := by
  unfold State.addCause
  repeat' split
  all_goals first
    | exact follows_self s
    | exact follows_rewrite s _ _
    | exact follows_of_same rfl rfl rfl rfl rfl

theorem follows_toSup (s : State) (st : SupState) : s.Follows (s.toSup st) := (follows_raise _ _).before rfl rfl rfl rfl rfl

theorem follows_releasePos (s : State) : s.Follows s.releasePos := by
  unfold State.releasePos
  split
  · exact (follows_requestWrite _ _ _).before rfl rfl rfl rfl rfl
  · exact follows_self s

theorem follows_releaseNeg (s : State) : s.Follows s.releaseNeg := by
  unfold State.releaseNeg
  split
  · exact (follows_requestWrite _ _ _).before rfl rfl rfl rfl rfl
  · exact follows_self s

theorem follows_releasePrecharge (s : State) : s.Follows s.releasePrecharge := follows_of_same rfl rfl rfl rfl rfl

theorem follows_abortClose (s : State) : s.Follows s.abortClose := by
  unfold State.abortClose
  cases hc : s.sup.close with
  | none => exact follows_self s
  | some c =>
    refine State.Follows.ends (s := s) (k := c.slot) (u := { s with sup.close := none }) (follows_of_count (fun j => ?_) rfl rfl rfl (shaped_of_sizes rfl)) (fun j => ?_) _
    all_goals simp only [slips_count, hc, Option.map_some, Option.map_none, Option.toList_some, Option.toList_none,
      List.count_singleton, List.count_nil]
    · omega
    · split <;> simp_all

/-- An opening has begun, before what it ends and sends (R80). -/
def State.openingBegun (s : State) (slot : Option Nat) (causes : List CauseRec) : State :=
  State.toSup { (s.releasePos.releasePrecharge).drawn with
    sup.deferral := none
    sup.opening := some ⟨slot.toList, s.newestI, causes.map (·.cause), s.now⟩ } .opening

/-- What an opening that has begun ends, sends and asks for (R79, R80, R87). -/
theorem follows_startOpening (s : State) (slot : Option Nat) (causes : List CauseRec) :
    (s.openingBegun slot causes).Follows (s.startOpening slot causes) := by
  have h1 : ∀ e, (s.openingBegun slot causes).Follows ((s.openingBegun slot causes).abortClose.send e) :=
    fun e => (follows_abortClose _).trans (follows_send _ e)
  have h2 : ∀ (p : Prop) [Decidable p] (e f : SentEvent), (s.openingBegun slot causes).Follows
      (if p then ((s.openingBegun slot causes).abortClose.send e).send f else (s.openingBegun slot causes).abortClose.send e) := by
    intro p _ e f
    split
    · exact (h1 e).trans (follows_send _ f)
    · exact h1 e
  unfold State.startOpening
  simp only []
  split
  · exact (h2 _ _ _).trans ((follows_raise _ _).trans (follows_askStop _))
  · exact h2 _ _ _

theorem follows_openingBegun (s : State) (causes : List CauseRec) : s.Follows (s.openingBegun none causes) := by
  refine ((follows_releasePos s).trans ((follows_releasePrecharge _).trans (follows_drawn _))).trans ?_
  unfold State.openingBegun
  refine State.Follows.trans ?_ (follows_toSup _ _)
  refine follows_of_count (fun j => ?_) rfl rfl rfl (shaped_of_sizes rfl)
  simp only [slips_count, Option.map_some, Option.getD_some, Option.toList_none, List.count_nil]
  omega

/-- A cause that is handled (R87). -/
theorem follows_causeDue (s : State) (c : CauseRec) : s.Follows (s.causeDue c) := by
  have hclosing : s.Follows (match s.sup.deferral with
      | some d =>
        if d.causes.any fun r => decide (r.cause = c.cause) then s
        else { s with sup.deferral := some { d with causes := d.causes ++ [c] } }
      | none =>
        if (s.newestI.natAbs : Int) < s.store.active.breakLimit then s.startOpening none [c]
        else State.drawn { s with sup.deferral := some ⟨s.now, s.store.active.deferral.toNat, [c]⟩ }) := by
    split
    · split
      · exact follows_self s
      · exact follows_of_same rfl rfl rfl rfl rfl
    · split
      · exact (follows_openingBegun s _).trans (follows_startOpening s _ _)
      · exact (follows_drawn _).before rfl rfl rfl rfl rfl
  unfold State.causeDue
  cases hst : s.sup.state with
  | opening =>
    simp only []
    cases ho : s.sup.opening with
    | none => exact follows_self s
    | some o =>
      simp only []
      split
      · exact follows_self s
      · exact (follows_addCause _ _).before rfl rfl rfl (by simp [State.slips, ho]) rfl
  | open_ => exact follows_self s
  | weldCheck => exact follows_self s
  | lockedOut => exact follows_self s
  | precharging => exact hclosing
  | closing => exact hclosing
  | closed => exact hclosing

theorem follows_causesDue (s : State) (l : List CauseRec) : s.Follows (s.causesDue l) := by
  induction l generalizing s with
  | nil => exact follows_self s
  | cons c l ih => exact (follows_causeDue s c).trans (ih _)

theorem follows_endDeferral (s : State) : s.Follows s.endDeferral := by
  unfold State.endDeferral
  split
  · exact follows_self s
  · exact (follows_openingBegun s _).trans (follows_startOpening s _ _)

theorem follows_silenceWarning (s : State) : s.Follows s.silenceWarning := (follows_raise _ _).before rfl rfl rfl rfl rfl

theorem follows_silenceExpiry (s : State) : s.Follows s.silenceExpiry := by
  unfold State.silenceExpiry
  simp only []
  split
  · exact (follows_sendStill _ _ _ _).before rfl rfl rfl rfl rfl
  · exact (follows_causeDue _ _).before rfl rfl rfl rfl rfl

theorem follows_armSilence (s : State) : s.Follows s.armSilence := by
  have hwarn : s.Follows (if decide (s.sup.once.limit ≤ s.sup.silence) && !s.sup.warn then s.silenceWarning else s) := by
    split
    · exact follows_silenceWarning s
    · exact follows_self s
  have hends : ∀ u, s.Follows u → s.Follows (if u.silenceEnd ≤ u.sup.silence then u.silenceExpiry else u) := by
    intro u hu
    split
    · exact hu.trans (follows_silenceExpiry u)
    · exact hu
  unfold State.armSilence
  split
  · exact follows_self s
  · exact hends _ hwarn

end Sys2Proof.Machine

namespace Sys2Proof.Machine

/-! ### The taking of a slip (R178) -/

/-- What the taking of slip `k` by its owner keeps: it is recorded once, or completed. -/
structure State.Accepts (k : Nat) (s t : State) : Prop extends s.Serves t where
  shape : s.shaped → k ≤ 7 → t.shaped
  slips : s.slipsRight → k ∉ s.slips → s.inFlight k → t.slipsRight

theorem State.Follows.accepts {s t : State} (h : s.Follows t) (k : Nat) : State.Accepts k s t :=
  ⟨h.toServes, fun hs _ => h.shape hs, fun hs _ _ => h.slips hs⟩

theorem State.Accepts.trans {s t u : State} {k : Nat} (h : State.Accepts k s t) (g : t.Follows u) : State.Accepts k s u :=
  ⟨h.toServes.trans g.toServes, fun hs hk => g.shape (h.shape hs hk), fun hs hk hi => g.slips (h.slips hs hk hi)⟩

theorem accepts_complete (s : State) (k : Nat) (r : Result) : State.Accepts k s (s.complete k r) :=
  ⟨serves_complete s k r, fun hs _ => shaped_of_sizes (complete_sizes s k r) hs, fun hs hk _ => slipsRight_complete hs hk r⟩

theorem accepted_of_sizes {s t : State} {k : Nat} (h : t.sizes = s.sizes) : s.shaped → k ≤ 7 → t.shaped :=
  fun hs _ => shaped_of_sizes h hs

/-- The owner records the slip. -/
theorem accepts_record {s t : State} {k : Nat} (hc : ∀ j, t.slips.count j ≤ s.slips.count j + if j = k then 1 else 0)
    (h1 : t.attn.factors = s.attn.factors) (h2 : t.mem = s.mem)
    (h3 : t.port.slots = s.port.slots) (h5 : s.shaped → k ≤ 7 → t.shaped) : State.Accepts k s t := by
  refine ⟨⟨fun f hf => by rwa [Attn.pending, h1], fun j => .inl (by rw [h3]), fun h => by rwa [State.canonical, h2],
    fun _ _ _ _ a _ _ => by rw [h2]⟩, h5, fun hs hk hi => ⟨List.nodup_iff_count_le_one.2 fun j => (hc j).trans ?_, fun j hj => ?_⟩⟩
  · have h1 := List.nodup_iff_count_le_one.1 hs.1 j
    split
    · next he =>
      rw [he, List.count_eq_zero_of_not_mem hk]
    · exact h1
  · rw [State.inFlight, h3]
    by_cases he : j = k
    · rwa [he]
    · have hpos := (List.count_pos_iff.2 hj).trans_le (hc j)
      rw [if_neg he] at hpos
      exact hs.2 j (List.count_pos_iff.1 hpos)

theorem follows_judgeLoss (s : State) : s.Follows s.judgeLoss := follows_of_same rfl rfl rfl rfl rfl

/-- The close begins with its coils (R76). -/
def State.closeBegun (s : State) (k : Nat) : State := State.inrush { s with
  sup.mainNeg := coilOn s.now
  sup.precharge := coilOn s.now
  sup.close := some ⟨k, s.now, s.store.active.ratio.toNat, s.store.active.timeout.toNat, 0, 0, 0⟩ }

theorem accepts_closeBegun (s : State) (k : Nat) : State.Accepts k s (s.closeBegun k) := by
  refine accepts_record (fun j => ?_) rfl rfl rfl (accepted_of_sizes rfl)
  simp only [State.closeBegun, State.inrush, slips_count, Option.map_some, Option.toList_some, List.count_singleton, beq_iff_eq,
    eq_comm (a := k)]
  omega

/-- The CHAIN_LOSS that a close meets at its entry is taken at once (R86). -/
theorem follows_lossTaken (s : State) :
    s.Follows (if s.sup.lossDue then State.causeDue { s with sup.lossDue := false } s.lossCause else s) := by
  split
  · exact (follows_causeDue _ _).before rfl rfl rfl rfl rfl
  · exact follows_self s

theorem accepts_beginClose (s : State) (k : Nat) : State.Accepts k s (s.beginClose k) :=
  (accepts_closeBegun s k).trans ((follows_toSup _ _).trans ((follows_judgeLoss _).trans (follows_lossTaken _)))

theorem accepts_takeClose (s : State) (k : Nat) : State.Accepts k s (s.takeClose k) := by
  unfold State.takeClose
  split
  · exact accepts_complete s k _
  · split
    · split
      · exact accepts_complete s k _
      · exact accepts_beginClose s k
    all_goals exact accepts_complete s k _

/-- The releases of an opening change none of the slots. -/
theorem releases_kept (s : State) : s.releasePos.releasePrecharge.drawn.slips = s.slips
    ∧ s.releasePos.releasePrecharge.drawn.port = s.port ∧ s.releasePos.releasePrecharge.drawn.attn = s.attn
    ∧ s.releasePos.releasePrecharge.drawn.mem = s.mem ∧ s.releasePos.releasePrecharge.drawn.sizes = s.sizes := by
  simp [State.slips, State.sizes, State.releasePrecharge]

theorem accepts_openingBegun (s : State) (k : Nat) (causes : List CauseRec) :
    State.Accepts k s (s.openingBegun (some k) causes) := by
  obtain ⟨hsl, hport, hattn, hmem, hsizes⟩ := releases_kept s
  unfold State.openingBegun
  refine State.Accepts.trans ?_ (follows_toSup _ _)
  refine accepts_record (fun j => ?_) (congrArg Attn.factors hattn) hmem (congrArg Port.slots hport)
    (accepted_of_sizes hsizes)
  have hcount : s.slips.count j = s.releasePos.releasePrecharge.drawn.slips.count j := by rw [hsl]
  rw [hcount]
  simp only [slips_count, Option.map_some, Option.getD_some, Option.toList_some, List.count_singleton, beq_iff_eq,
    eq_comm (a := k)]
  omega

theorem accepts_takeOpen (s : State) (k : Nat) : State.Accepts k s (s.takeOpen k) := by
  have hopen : State.Accepts k s (s.startOpening (some k) s.deferralCauses) :=
    (accepts_openingBegun s k _).trans (follows_startOpening s _ _)
  unfold State.takeOpen
  split
  · exact hopen
  · exact hopen
  · exact hopen
  · cases ho : s.sup.opening with
    | none => exact accepts_complete s k _
    | some o =>
      refine accepts_record (fun j => ?_) rfl rfl rfl (accepted_of_sizes rfl)
      simp only [slips_count, ho, Option.map_some, Option.getD_some, List.count_append, List.count_singleton, beq_iff_eq,
        eq_comm (a := k)]
      omega
  all_goals exact accepts_complete s k _

end Sys2Proof.Machine

namespace Sys2Proof.Machine

/-- The slip is completed once its owner has acted, without having recorded it. -/
theorem State.Follows.completes {s u : State} {k : Nat} (h : s.Follows u) (hl : u.slips = s.slips) (r : Result) :
    State.Accepts k s (u.complete k r) :=
  ⟨h.toServes.trans (serves_complete u k r), fun hs _ => shaped_of_sizes (complete_sizes u k r) (h.shape hs), fun hs hk _ => slipsRight_complete (h.slips hs) (by rwa [hl]) r⟩

/-- The owner records the slip before it goes on. -/
theorem State.Follows.recording {s u t : State} {k : Nat} (g : u.Follows t)
    (hc : ∀ j, u.slips.count j ≤ s.slips.count j + if j = k then 1 else 0) (h1 : u.attn.factors = s.attn.factors)
    (h2 : u.mem = s.mem) (h3 : u.port.slots = s.port.slots) (h5 : s.shaped → k ≤ 7 → u.shaped) : State.Accepts k s t :=
  (accepts_record hc h1 h2 h3 h5).trans g

theorem accepts_takeClear (s : State) (k : Nat) : State.Accepts k s (s.takeClear k) := by
  unfold State.takeClear
  split
  · exact accepts_complete s k _
  · split
    · refine accepts_record (fun j => ?_) rfl rfl rfl (accepted_of_sizes rfl)
      simp only [slips_count, Option.map_some, Option.toList_some, List.count_singleton, beq_iff_eq, eq_comm (a := k)]
      omega
    all_goals exact accepts_complete s k _

theorem accepts_takeSetOnce (s : State) (k : Nat) (args : List Byte) : State.Accepts k s (s.takeSetOnce k args) := by
  have hset : ∀ u : State, u.slips = s.slips → s.Follows u → ∀ r, State.Accepts k s (State.armSilence (u.complete k r)) :=
    fun u hl hu r => (hu.completes hl r).trans (follows_armSilence _)
  unfold State.takeSetOnce
  simp only []
  split
  · exact accepts_complete s k _
  · split
    · exact accepts_complete s k _
    · split
      · exact accepts_complete s k _
      · refine hset _ ?_ ?_ _
        · rfl
        · exact follows_of_same rfl rfl rfl rfl rfl

/-- The wake inputs that are asserted at the beginning of a sleep entry are causes (R114). -/
def State.noteInputs (s : State) : State :=
  let s2 := if s.pins.wakeLine then s.noteCause .line else s
  if s2.pins.chainAlert && decide (s2.chain.state = .asleep) then s2.noteCause .chain else s2

/-- A sleep entry that begins with its first step (R107). -/
@[simp] def State.entryBegun (s : State) (k : Nat) : State := { s with
  power.state := .enteringDeep
  power.entry := some ⟨k, 1, s.now⟩
  power.snapOutcome := .none }

theorem beginEntry_eq (s : State) (k : Nat) : s.beginEntry k = State.noteInputs (s.entryBegun k).becomeQuiet := rfl

theorem follows_noteInputs (s : State) : s.Follows s.noteInputs := by
  have hline : s.Follows (if s.pins.wakeLine then s.noteCause .line else s) := by
    split
    · exact follows_noteCause s _
    · exact follows_self s
  have hchain : ∀ u : State, u.Follows (if u.pins.chainAlert && decide (u.chain.state = .asleep) then u.noteCause .chain else u) := by
    intro u
    split
    · exact follows_noteCause u _
    · exact follows_self u
  exact hline.trans (hchain _)

/-- The sleep entry records its slip (R107). -/
theorem accepts_beginEntry (s : State) (k : Nat) : State.Accepts k s (s.beginEntry k) := by
  rw [beginEntry_eq]
  refine ((follows_becomeQuiet _).trans (follows_noteInputs _)).recording (fun j => ?_) rfl rfl rfl (accepted_of_sizes rfl)
  simp only [State.entryBegun, slips_count, Option.map_some, Option.toList_some, List.count_singleton, beq_iff_eq,
    eq_comm (a := k)]
  omega

theorem accepts_takeSleep (s : State) (k : Nat) : State.Accepts k s (s.takeSleep k) := by
  unfold State.takeSleep
  split
  · exact accepts_complete s k _
  · exact accepts_beginEntry s k

theorem accepts_takeSurvey (s : State) (k : Nat) : State.Accepts k s (s.takeSurvey k) := by
  unfold State.takeSurvey
  split
  · exact accepts_complete s k _
  · refine (follows_requestSurvey _).recording (fun j => ?_) rfl rfl rfl (accepted_of_sizes rfl)
    simp only [slips_count, Option.toList_some, List.count_singleton, beq_iff_eq, eq_comm (a := k)]
    omega

theorem accepts_takeBalance (s : State) (k : Nat) (args : List Byte) : State.Accepts k s (s.takeBalance k args) := by
  unfold State.takeBalance
  simp only []
  split
  · exact accepts_complete s k _
  · split
    · exact accepts_complete s k _
    · split
      · exact accepts_complete s k _
      · refine (follows_balanceNext _).recording (fun j => ?_) rfl rfl rfl (accepted_of_sizes rfl)
        simp only [slips_count, Option.map_some, Option.toList_some, List.count_singleton, beq_iff_eq, eq_comm (a := k)]
        omega

theorem accepts_beginPlanCapture (s : State) {c : Capture} {k : Nat} (h : c.slot = some k) :
    State.Accepts k s (s.beginPlanCapture c) := by
  unfold State.beginPlanCapture
  split
  all_goals
    refine (follows_request _ _).recording (fun j => ?_) rfl rfl rfl (accepted_of_sizes rfl)
    simp only [slips_count, List.filterMap_append, List.filterMap_cons, List.filterMap_nil, h, List.count_append,
      List.count_singleton, beq_iff_eq, eq_comm (a := k)]
    omega

theorem accepts_takeCaptureNow (s : State) (k : Nat) (args : List Byte) : State.Accepts k s (s.takeCaptureNow k args) := by
  unfold State.takeCaptureNow
  simp only []
  repeat' split
  all_goals first
    | exact accepts_complete s k _
    | exact accepts_beginPlanCapture s rfl

theorem accepts_takeInstallKey (s : State) (k : Nat) (args : List Byte) : State.Accepts k s (s.takeInstallKey k args) := by
  unfold State.takeInstallKey
  simp only []
  split
  · exact accepts_complete s k _
  · split
    · exact accepts_complete s k _
    · split
      · exact accepts_complete s k _
      · refine (follows_requestWrite _ _ _).recording (fun j => ?_) rfl rfl rfl fun hs hk => ?_
        · simp only [slips_count, Option.toList_some, List.count_singleton, beq_iff_eq, eq_comm (a := k)]
          omega
        · obtain ⟨h1, h2, h3, h4, h5, h6, h7, -, h9⟩ := hs
          refine ⟨h1, h2, h3, h4, h5, h6, h7, fun j hj => ?_, h9⟩
          have hjk : k = j := Option.some.inj hj
          omega

theorem accepts_takeReadStore (s : State) (k : Nat) (args : List Byte) : State.Accepts k s (s.takeReadStore k args) := by
  unfold State.takeReadStore
  repeat' split
  all_goals exact accepts_complete s k _

theorem accepts_takeBegin (s : State) (k : Nat) (args : List Byte) : State.Accepts k s (s.takeBegin k args) := by
  have hbegin : s.Follows (s.beginUpdate (rawHeader args)) := (follows_toUpd _ _).before rfl rfl rfl rfl rfl
  unfold State.takeBegin
  simp only []
  repeat' split
  all_goals first
    | exact accepts_complete s k _
    | exact hbegin.completes (by simp [State.slips, State.beginUpdate, State.toUpd]) _

theorem accepts_takeCheck (s : State) (k : Nat) : State.Accepts k s (s.takeCheck k) := by
  unfold State.takeCheck
  split
  · exact accepts_complete s k _
  · split
    · exact accepts_complete s k _
    · split
      · exact accepts_complete s k _
      · refine (follows_toUpd _ _).recording (fun j => ?_) rfl rfl rfl (accepted_of_sizes rfl)
        simp only [slips_count, Option.map_some, Option.toList_some, List.count_singleton, beq_iff_eq, eq_comm (a := k)]
        omega

/-- The engine records its slip. -/
theorem slips_engine {s t : State} {k : Nat} {q : EngineSlip} (h : t.upd.slip = some (q, k)) (ha : t.upd.aborts = s.upd.aborts)
    (h1 : t.sup = s.sup) (h2 : t.chain = s.chain) (h3 : t.plan = s.plan) (h4 : t.store = s.store) (h5 : t.power = s.power)
    (j : Nat) : t.slips.count j ≤ s.slips.count j + if j = k then 1 else 0 := by
  simp only [slips_count, h, ha, h1, h2, h3, h4, h5, Option.map_some, Option.toList_some, List.count_singleton, beq_iff_eq,
    eq_comm (a := k)]
  omega

theorem accepts_takeApply (s : State) (k : Nat) : State.Accepts k s (s.takeApply k) := by
  unfold State.takeApply
  split
  · exact accepts_complete s k _
  · split
    · exact accepts_complete s k _
    · unfold State.applyUpdate
      split
      · split
        · exact ((follows_toUpd _ _).trans (follows_requestWrite _ _ _)).recording (slips_engine rfl rfl rfl rfl rfl rfl rfl)
            rfl rfl rfl (accepted_of_sizes rfl)
        · exact accepts_complete s k _
      · exact ((follows_toUpd _ _).trans (follows_nextRecord _ _)).recording (slips_engine rfl rfl rfl rfl rfl rfl rfl)
          rfl rfl rfl (accepted_of_sizes rfl)

theorem follows_endAborted (s : State) : s.Follows s.endAborted := follows_endUpdate s _ _ _

theorem accepts_aborts (s : State) (k : Nat) (l : List Nat) (h : l = s.upd.aborts) :
    State.Accepts k s { s with upd.aborts := l ++ [k] } := by
  refine accepts_record (fun j => ?_) rfl rfl rfl (accepted_of_sizes rfl)
  simp only [slips_count, h, List.count_append, List.count_singleton, beq_iff_eq, eq_comm (a := k)]
  omega

theorem accepts_takeAbort (s : State) (k : Nat) : State.Accepts k s (s.takeAbort k) := by
  have hnow : s.upd.aborts = [] → ∀ t, State.Follows { s with upd.aborts := [k] } t → State.Accepts k s t := fun h t g =>
    State.Accepts.trans (t := { s with upd.aborts := [k] }) (accepts_aborts s k [] h.symm) g
  have hwait : State.Accepts k s (s.waitAbort k) :=
    (accepts_aborts s k _ rfl).trans (follows_of_same rfl rfl rfl rfl rfl)
  unfold State.takeAbort
  split
  · exact accepts_aborts s k _ rfl
  · next hne =>
    have h := hnow (by simpa using hne)
    simp only []
    split
    · exact accepts_complete s k _
    · exact h _ (follows_endAborted _)
    · exact h _ (follows_endAborted _)
    · exact h _ (follows_endAborted _)
    · split
      · split
        · exact h _ ((follows_endAborted _).before rfl rfl rfl rfl rfl)
        · exact hwait
      · split
        · exact h _ ((follows_endAborted _).before rfl rfl rfl rfl rfl)
        · exact h _ (follows_self _)
      all_goals exact h _ (follows_self _)
    · split
      · exact hwait
      · exact h _ ((follows_endAborted _).before rfl rfl rfl rfl rfl)
    · split
      · exact h _ (follows_self _)
      · split
        · exact hwait
        · split
          · exact h _ (follows_endAborted _)
          · exact h _ ((follows_endAborted _).before rfl rfl rfl rfl (by simp [State.sizes, State.backInService, State.editModule]))

theorem accepts_handSlip (s : State) (k : Nat) (q : SlipKind) (args : List Byte) : State.Accepts k s (s.handSlip k q args) := by
  cases q with
  | close => exact accepts_takeClose s k
  | open_ => exact accepts_takeOpen s k
  | clearLockout => exact accepts_takeClear s k
  | setOnce => exact accepts_takeSetOnce s k args
  | sleep => exact accepts_takeSleep s k
  | survey => exact accepts_takeSurvey s k
  | balance => exact accepts_takeBalance s k args
  | captureNow => exact accepts_takeCaptureNow s k args
  | installKey => exact accepts_takeInstallKey s k args
  | readStore => exact accepts_takeReadStore s k args
  | updateBegin => exact accepts_takeBegin s k args
  | updateCheck => exact accepts_takeCheck s k
  | updateApply => exact accepts_takeApply s k
  | updateAbort => exact accepts_takeAbort s k

end Sys2Proof.Machine

namespace Sys2Proof.Machine

/-! ### The cancellation of a sleep entry (R111) -/

/-- A block drops a slip that it recorded and that has completed. -/
theorem follows_completed {u t : State} {k : Nat} {r : Result}
    (hc : ∀ j, t.slips.count j + (if j = k then 1 else 0) ≤ u.slips.count j) (h1 : t.attn.factors = (u.complete k r).attn.factors)
    (h2 : t.mem = (u.complete k r).mem) (h3 : t.port.slots = (u.complete k r).port.slots)
    (h5 : t.sizes = (u.complete k r).sizes) : u.Follows t := by
  have hserves := serves_complete u k r
  refine ⟨⟨fun f hf => ?_, fun j => by rw [h3]; exact hserves.slot j, fun hw => ?_, fun hw j hj hs a ha hb => ?_⟩,
    shaped_of_sizes (h5.trans (complete_sizes u k r)), fun hs => ?_⟩
  · rw [Attn.pending, h1]
    exact hserves.pending f hf
  · rw [State.canonical, h2]
    exact hserves.wf hw
  · rw [h2]
    exact hserves.bytes hw j hj (by rwa [h3] at hs) a ha hb
  · refine slipsRight_of_count hs (fun j => (Nat.le_add_right _ _).trans (hc j)) fun j hj => ?_
    rw [h3]
    refine complete_getAt_other ?_ r
    rintro rfl
    have h4 := hc j
    have h5 := List.nodup_iff_count_le_one.1 hs.1 j
    have h6 := List.count_pos_iff.2 hj
    rw [if_pos rfl] at h4
    omega

/-- The steps that a cancelled entry reached are undone (R111). -/
def State.entryUndone (s : State) (e : Entry) : State :=
  let s1 : State := State.forgetEntryWrites { s with plan.quiet := false }
  if e.step < 4 then s1
  else if s1.chain.sleepCmd then { s1 with chain.wakeAfterSleep := true }
  else s1.wakeChain

theorem entryUndone_kept (s : State) (e : Entry) :
    (s.entryUndone e).port = s.port ∧ (s.entryUndone e).mem = s.mem ∧ (s.entryUndone e).attn = s.attn
      ∧ (s.entryUndone e).slips = s.slips ∧ (s.entryUndone e).power = s.power ∧ (s.entryUndone e).plan.quiet = false
      ∧ (s.entryUndone e).sup = s.sup ∧ (s.entryUndone e).sizes = s.sizes := by
  unfold State.entryUndone
  simp only []
  repeat' split
  all_goals exact ⟨rfl, rfl, rfl, rfl, rfl, rfl, rfl, rfl⟩

/-- A chain that was told to sleep is woken again (R111). -/
theorem entryUndone_wakes {s : State} {e : Entry} (h : 4 ≤ e.step) :
    (s.chain.sleepCmd = true → (s.entryUndone e).chain.wakeAfterSleep = true)
      ∧ (s.chain.sleepCmd = false → (s.entryUndone e).chain.wake = .tone s.now) := by
  unfold State.entryUndone
  simp only [if_neg (Nat.not_lt.2 h)]
  have hcmd : (State.forgetEntryWrites { s with plan.quiet := false }).chain.sleepCmd = s.chain.sleepCmd := rfl
  refine ⟨fun hc => ?_, fun hc => ?_⟩
  · rw [if_pos (hcmd.trans hc)]
  · rw [if_neg (fun hx => Bool.false_ne_true (hc.symm.trans (hcmd.symm.trans hx)))]
    rfl

theorem cancelEntry_eq {s : State} {e : Entry} (h : s.power.entry = some e) : s.cancelEntry =
    State.judgeAttn { (s.entryUndone e).complete e.slot ⟨.cancelled, none, (s.entryUndone e).power.sleepFields⟩ with
      power.state := .run, power.entry := none, conv.snapTimer := 0 } := by
  unfold State.cancelEntry
  rw [h]
  rfl

theorem follows_cancelEntry (s : State) : s.Follows s.cancelEntry := by
  cases he : s.power.entry with
  | none =>
    unfold State.cancelEntry
    rw [he]
    exact follows_self s
  | some e =>
    obtain ⟨hport, hmem, hattn, hsl, hpow, -, -, hsizes⟩ := entryUndone_kept s e
    refine State.Follows.before (t := s.entryUndone e) ?_ (congrArg Attn.factors hattn) hmem (congrArg Port.slots hport) hsl hsizes
    rw [cancelEntry_eq he]
    refine follows_completed (k := e.slot) (r := ⟨.cancelled, none, (s.entryUndone e).power.sleepFields⟩) (fun j => ?_) rfl rfl rfl rfl
    simp [slips_count, State.judgeAttn, hpow, he, List.count_singleton, eq_comm (a := j)]

theorem cancelEntry_fields {s : State} {e : Entry} (h : s.power.entry = some e) :
    s.cancelEntry.power.state = .run ∧ s.cancelEntry.power.entry = none ∧ s.cancelEntry.plan.quiet = false
      ∧ (4 ≤ e.step → s.chain.sleepCmd = true → s.cancelEntry.chain.wakeAfterSleep = true)
      ∧ (4 ≤ e.step → s.chain.sleepCmd = false → s.cancelEntry.chain.wake = .tone s.now) := by
  obtain ⟨-, -, -, -, -, hquiet, -⟩ := entryUndone_kept s e
  rw [cancelEntry_eq h]
  refine ⟨rfl, rfl, ?_, fun h4 hc => ?_, fun h4 hc => ?_⟩
  · simpa [State.judgeAttn] using hquiet
  · simpa [State.judgeAttn] using (entryUndone_wakes h4).1 hc
  · simpa [State.judgeAttn] using (entryUndone_wakes h4).2 hc

theorem cancelEntry_showsDone {s : State} {e : Entry} (h : s.power.entry = some e) (hc : s.canonical) (hi : s.inFlight e.slot) :
    s.cancelEntry.showsDone e.slot 6 0 := by
  obtain ⟨hport, hmem, -, -, -, -, -⟩ := entryUndone_kept s e
  have hs := complete_showsDone (s := s.entryUndone e) (k := e.slot) (by rw [hmem]; exact hc)
    (by rw [State.inFlight, hport]; exact hi) ⟨.cancelled, none, (s.entryUndone e).power.sleepFields⟩
  rw [cancelEntry_eq h]
  exact showsDone_of_same hs (fun _ _ _ => rfl) rfl id

/-! ### A slip that is posted while the part enters DEEP (R111, R178) -/

/-- The entry is cancelled, and the posted slip is copied and reads TAKEN. -/
def State.cancelAndTake (s : State) (rest : List Word) (k : Nat) : State :=
  (State.cancelEntry { s with port.notes := rest }).copyAndTake k

/-- What the owner, or the port for a slip of no kind, makes of a slip that has been taken. -/
def State.acceptSlip (s : State) (k : Nat) (kind : Option SlipKind) (args : List Byte) : State :=
  match kind with
  | none => s.complete k (.plain .badSlip)
  | some q => s.handSlip k q args

theorem accepts_acceptSlip (s : State) (k : Nat) (kind : Option SlipKind) (args : List Byte) :
    State.Accepts k s (s.acceptSlip k kind args) := by
  cases kind with
  | none => exact accepts_complete s k _
  | some q => exact accepts_handSlip s k q args

theorem post_cancels {s : State} {w : Word} {rest : List Word} {k : Nat} {e : Entry} {kind : Option SlipKind}
    (h : postedSlip s w rest k kind) (hp : s.power.state = .enteringDeep) (he : s.power.entry = some e)
    (hi : s.inFlight e.slot) (hc : s.canonical) :
    ∃ args, exec .post s = s.react ((s.cancelAndTake rest k).acceptSlip k kind args) := by
  obtain ⟨hn, hk, hs, hle, hpost, hkind⟩ := h
  have hacc : NoteKind.post.accepts (noteArg w) = true := by simpa [NoteKind.accepts, hs] using hle
  have hpost' : State.posted { s with port.notes := rest } k = true := hpost
  have hne : k ≠ e.slot := by
    rintro rfl
    obtain ⟨-, c, hslot⟩ := hi
    simp [State.posted, hslot] at hpost
  have hbyte : Memory.read (State.cancelEntry { s with port.notes := rest }).mem (slotAt k + 4) = Memory.read s.mem (slotAt k + 4) := by
    obtain ⟨-, hmem, -, -, -, -, -⟩ := entryUndone_kept { s with port.notes := rest } e
    rw [cancelEntry_eq (s := { s with port.notes := rest }) he]
    refine (read_complete_of_out (by rw [hmem]; exact hc) _ ?_ ?_).trans (by rw [hmem])
    all_goals
      have h7 := hi.1
      simp only [slotAt]
      omega
  refine ⟨(copySlot (State.cancelEntry { s with port.notes := rest }).mem k).args, ?_⟩
  have hcopy : slipKindOf (copySlot (State.cancelEntry { s with port.notes := rest }).mem k).kind = kind := by
    rw [← hkind, ← hbyte]
    rfl
  show execPost s = _
  simp only [execPost, State.takeNote, hn, hk, if_true, hacc, hs, hpost']
  congr 1
  simp only [State.takeSlip, if_pos hp, hcopy]
  rfl

theorem cancelAndTake_slot {s : State} {rest : List Word} {k j : Nat} (h : j ≠ k) :
    getAt (s.cancelAndTake rest k).port.slots j = getAt (State.cancelEntry { s with port.notes := rest }).port.slots j := by
  simp [State.cancelAndTake, State.copyAndTake, getAt_setAt, h]

theorem cancelAndTake_showsDone {s : State} {rest : List Word} {k : Nat} {e : Entry} (he : s.power.entry = some e)
    (hc : s.canonical) (hi : s.inFlight e.slot) (hne : e.slot ≠ k) :
    (s.cancelAndTake rest k).showsDone e.slot 6 0 := by
  have hs := cancelEntry_showsDone (s := { s with port.notes := rest }) he hc hi
  have hw : (State.cancelEntry { s with port.notes := rest }).canonical := (follows_cancelEntry { s with port.notes := rest }).wf hc
  refine showsDone_of_same hs (fun a h1 h2 => ?_) (cancelAndTake_slot hne) id
  refine read_store_of_out hw ?_
  have h7 := hi.1
  simp only [slotAt, le_length] at *
  omega

/-- A slip that is taken is in flight, and no block records it yet. -/
theorem copyAndTake_right {s : State} {k : Nat} (hk : k ≤ 7) (hfree : getAt s.port.slots k = some none) (h : s.slipsRight) :
    (s.copyAndTake k).slipsRight ∧ k ∉ (s.copyAndTake k).slips ∧ (s.copyAndTake k).inFlight k := by
  have hout : k ∉ s.slips := fun hm => by
    obtain ⟨-, c, hslot⟩ := h.2 k hm
    exact absurd (hfree.symm.trans hslot) (by simp)
  refine ⟨slipsRight_of_count h (fun _ => le_rfl) fun j hj => ?_, hout, hk, copySlot s.mem k, ?_⟩
  · have hne : j ≠ k := fun he => hout (he ▸ hj)
    simp [State.copyAndTake, getAt_setAt, hne]
  · simp [State.copyAndTake, getAt_setAt, hfree]

theorem cancelAndTake_right {s : State} {w : Word} {rest : List Word} {k : Nat} {kind : Option SlipKind}
    (h : postedSlip s w rest k kind) (hr : s.slipsRight) :
    (s.cancelAndTake rest k).slipsRight ∧ k ∉ (s.cancelAndTake rest k).slips ∧ (s.cancelAndTake rest k).inFlight k := by
  obtain ⟨-, -, -, hk, hpost, -⟩ := h
  have hfree : getAt s.port.slots k = some none := by
    have := (Bool.and_eq_true_iff.1 hpost).1
    exact of_decide_eq_true this
  have hfol : s.Follows (State.cancelEntry { s with port.notes := rest }) := (follows_cancelEntry _).before rfl rfl rfl rfl rfl
  exact copyAndTake_right hk ((hfol.slot k).elim (fun hs => hs.trans hfree) id) (hfol.slips hr)

end Sys2Proof.Machine

namespace Sys2Proof.Machine

/-- A slip other than SLEEP leaves the power controller, the planner's quiet mark and the chain's wake alone. -/
theorem acceptSlip_kept {s : State} {kind : Option SlipKind} (h : kind ≠ some .sleep) (k : Nat) (args : List Byte) :
    (s.acceptSlip k kind args).power = s.power ∧ (s.acceptSlip k kind args).plan.quiet = s.plan.quiet
      ∧ (s.acceptSlip k kind args).chain.wakeAfterSleep = s.chain.wakeAfterSleep
      ∧ (s.acceptSlip k kind args).chain.wake = s.chain.wake := by
  cases kind with
  | none => simp [State.acceptSlip]
  | some q =>
    cases q with
    | sleep => exact absurd rfl h
    | _ => simp [State.acceptSlip, State.handSlip]

theorem post_other_cancels {s : State} {w : Word} {rest : List Word} {k : Nat} {e : Entry} {kind : Option SlipKind}
    (hc : s.canonical) (hpt : s.power.patrol = none) (hret : s.power.returning = none) (h : postedSlip s w rest k kind)
    (hk : kind ≠ some .sleep) (hp : s.power.state = .enteringDeep) (he : s.power.entry = some e) (hi : s.inFlight e.slot) :
    Goes .post s fun t =>
      t.showsDone e.slot 6 0 ∧ t.power.state = .run ∧ t.power.entry = none ∧ t.plan.quiet = false
        ∧ (4 ≤ e.step → s.chain.sleepCmd = true → t.chain.wakeAfterSleep = true)
        ∧ (4 ≤ e.step → s.chain.sleepCmd = false → t.chain.wake = .tone s.now) := by
  obtain ⟨args, hex⟩ := post_cancels h hp he hi hc
  have hne : e.slot ≠ k := fun hx => by
    obtain ⟨-, -, -, -, hpost, -⟩ := h
    obtain ⟨-, c, hslot⟩ := hi
    simp [State.posted, ← hx, hslot] at hpost
  obtain ⟨hrun, hent, hquiet, hafter, htone⟩ := cancelEntry_fields (s := { s with port.notes := rest }) he
  have hx : (s.cancelAndTake rest k).power = (State.cancelEntry { s with port.notes := rest }).power
      ∧ (s.cancelAndTake rest k).plan = (State.cancelEntry { s with port.notes := rest }).plan
      ∧ (s.cancelAndTake rest k).chain = (State.cancelEntry { s with port.notes := rest }).chain := ⟨rfl, rfl, rfl⟩
  obtain ⟨hxp, hxq, hxc⟩ := hx
  have hdone := cancelAndTake_showsDone (rest := rest) he hc hi hne
  have hcx : (s.cancelAndTake rest k).canonical :=
    store_wf ((follows_cancelEntry { s with port.notes := rest }).wf hc)
  have hacc := accepts_acceptSlip (s.cancelAndTake rest k) k kind args
  obtain ⟨hpow, hq, hwas, hwk⟩ := acceptSlip_kept (s := s.cancelAndTake rest k) hk k args
  have hpat : (State.cancelEntry { s with port.notes := rest }).power.patrol = none := by simpa using hpt
  have hretu : (State.cancelEntry { s with port.notes := rest }).power.returning = none := by simpa using hret
  have hawake : ((s.cancelAndTake rest k).acceptSlip k kind args).awake := by
    rw [State.awake, hpow, hxp]
    exact ⟨hent, hpat, hretu⟩
  obtain ⟨hsp, -, -, -, -, -, -, -, -, hsq, -⟩ := settle_awake hawake
  refine goes_react _ hex ⟨?_, ?_, ?_, ?_, fun h4 hcmd => ?_, fun h4 hcmd => ?_⟩
  · exact (hacc.toServes.trans ((follows_settle _).trans follows_finish).toServes).showsDone hcx hi.1 hdone
  · simp only [finish_frame, hsp, hpow, hxp, hrun]
  · simp only [finish_frame, hsp, hpow, hxp, hent]
  · simp only [finish_frame, hsq, hq, hxq, hquiet]
  · simp only [finish_frame, settle_frame, hwas, hxc, hafter h4 hcmd]
  · simp only [finish_frame, settle_frame, hwk, hxc, htone h4 hcmd]
    rfl

end Sys2Proof.Machine

namespace Sys2Proof.Machine

/-- A sleep entry is in its first steps, with the SLEEP slip of a slot (R108). -/
structure State.Entering (s : State) (k : Nat) : Prop where
  state : s.power.state = .enteringDeep
  entry : ∃ f, s.power.entry = some f ∧ f.slot = k ∧ f.step ≤ 3
  patrol : s.power.patrol = none
  returning : s.power.returning = none
  quiet : s.plan.quiet = true

theorem State.Entering.same {s t : State} {k : Nat} (h : s.Entering k) (h1 : t.power = s.power)
    (h2 : t.plan.quiet = s.plan.quiet) : t.Entering k := by
  obtain ⟨hst, hen, hpt, hret, hq⟩ := h
  exact ⟨by rw [h1, hst], by rw [h1]; exact hen, by rw [h1, hpt], by rw [h1, hret], by rw [h2, hq]⟩

theorem entryReact_entering {s : State} {k : Nat} (h : s.Entering k) : s.entryReact.Entering k := by
  obtain ⟨hst, ⟨f, hf, hk, h3⟩, hpt, hret, hq⟩ := id h
  have hstep : ∀ g : Entry, g.slot = k → g.step ≤ 3 → (s.entryAt g).Entering k := fun g hg h3 =>
    ⟨hst, ⟨g, rfl, hg, h3⟩, hpt, hret, hq⟩
  unfold State.entryReact
  simp only [hf]
  split
  · split
    · exact (hstep { f with step := 2 } hk (by simp)).same (by simp) (by simp)
    · exact h
  · split
    · exact h
    · exact (hstep { f with step := 3, requestAt := s.now } hk (by simp)).same (by simp) (by simp)
  · omega
  · exact h

theorem round_entering {s : State} {k : Nat} (h : s.Entering k) : s.round.Entering k := by
  have h1 : (State.answerRequests s.burstReact).Entering k := h.same (by simp) (by simp)
  have h2 : (State.answerRequests s.burstReact).patrolReact = State.answerRequests s.burstReact := by
    simp [State.patrolReact, h.patrol]
  have h3 : (State.answerRequests s.burstReact).returnReact = State.answerRequests s.burstReact := by
    simp [State.returnReact, h.returning]
  unfold State.round
  rw [h2, h3]
  have h4 : (State.answerRequests s.burstReact).updateReact.Entering k := h1.same (by simp) (by simp)
  have h5 := entryReact_entering h4
  exact h5.same (by simp) (by simp)

theorem settle_entering {s : State} {k : Nat} (h : s.Entering k) : s.settle.Entering k :=
  round_entering (round_entering (round_entering (round_entering h)))

theorem lookAtFlags_awake {s : State} (h : s.power.state ≠ .deep) : s.lookAtFlags = s := by
  simp [State.lookAtFlags, h]

/-- In ENTERING_DEEP a cause changes the pending flags alone. -/
theorem noteCause_entering {s : State} (h : s.power.state = .enteringDeep) (x : Source) :
    (s.noteCause x).power = { s.power with pend := (s.noteCause x).power.pend } := by
  have key : s.noteCause x = s ∨ s.noteCause x = { s with power.pend := s.power.pend ||| x.flag } := by
    have hlook := lookAtFlags_awake (s := { s with power.pend := s.power.pend ||| x.flag }) (by simp [h])
    unfold State.noteCause
    simp only []
    split
    · exact .inl rfl
    · split
      · split
        · next hw => exact absurd (h.symm.trans hw) (by simp)
        · next hw => exact absurd (h.symm.trans hw) (by simp)
        · exact .inr hlook
      · exact .inr hlook
  rcases key with hk | hk
  · rw [hk]
  · rw [hk]

theorem noteInputs_entering {s : State} (h : s.power.state = .enteringDeep) :
    s.noteInputs.power = { s.power with pend := s.noteInputs.power.pend } ∧ s.noteInputs.plan = s.plan
      ∧ s.noteInputs.chain = s.chain ∧ s.noteInputs.sup = s.sup ∧ s.noteInputs.upd = s.upd := by
  have hone : ∀ (p : Bool) (x : Source) (u : State), u.power.state = .enteringDeep →
      (if p then u.noteCause x else u).power = { u.power with pend := (if p then u.noteCause x else u).power.pend }
        ∧ (if p then u.noteCause x else u).plan = u.plan ∧ (if p then u.noteCause x else u).chain = u.chain
        ∧ (if p then u.noteCause x else u).sup = u.sup ∧ (if p then u.noteCause x else u).upd = u.upd := by
    intro p x u hu
    cases p with
    | false => exact ⟨rfl, rfl, rfl, rfl, rfl⟩
    | true => exact ⟨noteCause_entering hu x, by simp, by simp, by simp, by simp⟩
  obtain ⟨h1, h2, h3, h4, h5⟩ := hone s.pins.wakeLine .line s h
  obtain ⟨g1, g2, g3, g4, g5⟩ := hone ((if s.pins.wakeLine then s.noteCause .line else s).pins.chainAlert
    && decide ((if s.pins.wakeLine then s.noteCause .line else s).chain.state = .asleep)) .chain
    (if s.pins.wakeLine then s.noteCause .line else s) (by rw [h1]; exact h)
  refine ⟨g1.trans ?_, g2.trans h2, g3.trans h3, g4.trans h4, g5.trans h5⟩
  rw [h1]
  rfl

/-- What a sleep entry begins with (R107, R108). -/
theorem beginEntry_fields (s : State) (k : Nat) :
    (s.beginEntry k).power = { s.power with
        state := .enteringDeep, entry := some ⟨k, 1, s.now⟩, snapOutcome := .none, pend := (s.beginEntry k).power.pend }
      ∧ (s.beginEntry k).plan = s.becomeQuiet.plan ∧ (s.beginEntry k).chain = s.becomeQuiet.chain
      ∧ (s.beginEntry k).sup = s.sup ∧ (s.beginEntry k).upd = s.upd := by
  obtain ⟨h1, h2, h3, h4, h5⟩ := noteInputs_entering (s := (s.entryBegun k).becomeQuiet) (by simp)
  rw [beginEntry_eq]
  refine ⟨h1.trans ?_, h2.trans rfl, h3.trans rfl, h4.trans (by simp), h5.trans (by simp)⟩
  simp

theorem takeSleep_begins {s : State} {k : Nat} (h1 : s.sup.state = .open_) (h2 : s.upd.state = .idle) (h3 : s.ev.filling = []) :
    s.takeSleep k = s.beginEntry k := by
  simp [State.takeSleep, State.sleepRefusal, h1, h2, h3]

theorem beginEntry_entering {s : State} (k : Nat) (hpt : s.power.patrol = none) (hret : s.power.returning = none) :
    (s.beginEntry k).Entering k := by
  obtain ⟨hpow, hplan, -, -, -⟩ := beginEntry_fields s k
  refine ⟨by rw [hpow], ⟨⟨k, 1, s.now⟩, by rw [hpow], rfl, by simp⟩, by rw [hpow]; exact hpt, by rw [hpow]; exact hret, ?_⟩
  rw [hplan]
  rfl

end Sys2Proof.Machine

namespace Sys2Proof.Machine

/-- A slip that reads TAKEN and that a block still records after the step reads TAKEN still. -/
theorem stillTaken_of_accepts {x t : State} {m : Memory} {k : Nat} (hr : x.slipsRight) (hout : k ∉ x.slips) (hin : x.inFlight k)
    (hm : m.wf = true) (hx : x.mem = m.store (slotAt k) (le 4 2)) (h : State.Accepts k x t) (hk : k ∈ t.slips) :
    stillTaken t k := by
  have hc : x.canonical := by
    rw [State.canonical, hx]
    exact store_wf hm
  have hfl := (h.slips hr hout hin).2 k hk
  obtain ⟨-, hbytes⟩ := h.toServes.inFlight hc hfl
  obtain ⟨h7, hslot⟩ := hfl
  have hread : x.mem.readBytes (slotAt k) 4 = le 4 2 := by
    rw [hx]
    exact readBytes_store (bs := le 4 2) hm (by simp only [le_length, slotAt, memSize]; omega)
  refine ⟨?_, hslot⟩
  rw [num_congr fun a h1 h2 => hbytes a h1 (by omega), Memory.num, hread, ofLe_le]
  rfl

theorem mem_slips_entry {s : State} {e : Entry} (h : s.power.entry = some e) : e.slot ∈ s.slips := by
  simp [State.slips, h]

/-! ### A second SLEEP (R108, R111) -/

theorem sameContactors_beginEntry {s t : State} (h : s.sameContactors t) (k : Nat) : s.sameContactors (t.beginEntry k) := by
  obtain ⟨-, -, -, hsup, -⟩ := beginEntry_fields t k
  unfold State.sameContactors at *
  rwa [hsup]

theorem post_sleep_again {s : State} {w : Word} {rest : List Word} {k : Nat} {e : Entry} (hc : s.canonical) (hr : s.slipsRight)
    (hpt : s.power.patrol = none) (hret : s.power.returning = none) (h : postedSlip s w rest k (some .sleep))
    (hp : s.power.state = .enteringDeep) (he : s.power.entry = some e) (hi : s.inFlight e.slot) (hsup : s.sup.state = .open_)
    (hupd : s.upd.state = .idle) (hfil : s.ev.filling = []) :
    Goes .post s fun t =>
      t.showsDone e.slot 6 0 ∧ t.power.state = .enteringDeep ∧ stillTaken t k
        ∧ (∃ f, t.power.entry = some f ∧ f.slot = k ∧ f.step ≤ 3) ∧ t.plan.quiet = true
        ∧ (4 ≤ e.step → s.chain.sleepCmd = true → t.chain.wakeAfterSleep = true)
        ∧ (4 ≤ e.step → s.chain.sleepCmd = false → t.chain.wake = .tone s.now) ∧ s.sameContactors t := by
  obtain ⟨args, hex⟩ := post_cancels h hp he hi hc
  have hne : e.slot ≠ k := fun hx => by
    obtain ⟨-, -, -, -, hpost, -⟩ := h
    obtain ⟨-, c, hslot⟩ := hi
    simp [State.posted, ← hx, hslot] at hpost
  obtain ⟨-, -, -, hafter, htone⟩ := cancelEntry_fields (s := { s with port.notes := rest }) he
  obtain ⟨hxr, hxout, hxin⟩ := cancelAndTake_right h hr
  have hdone := cancelAndTake_showsDone (rest := rest) he hc hi hne
  have hwf : (State.cancelEntry { s with port.notes := rest }).canonical :=
    (follows_cancelEntry { s with port.notes := rest }).wf hc
  have hcx : (s.cancelAndTake rest k).canonical := store_wf hwf
  have hxmem : (s.cancelAndTake rest k).mem = (State.cancelEntry { s with port.notes := rest }).mem.store (slotAt k) (le 4 2) := rfl
  have hbegin : (s.cancelAndTake rest k).acceptSlip k (some .sleep) args = (s.cancelAndTake rest k).beginEntry k :=
    takeSleep_begins (by simpa [State.cancelAndTake, State.copyAndTake] using hsup)
      (by simpa [State.cancelAndTake, State.copyAndTake] using hupd) (by simpa [State.cancelAndTake, State.copyAndTake] using hfil)
  have hchain : ((s.cancelAndTake rest k).beginEntry k).chain.wakeAfterSleep
      = (State.cancelEntry { s with port.notes := rest }).chain.wakeAfterSleep
      ∧ ((s.cancelAndTake rest k).beginEntry k).chain.wake = (State.cancelEntry { s with port.notes := rest }).chain.wake := by
    simp [State.cancelAndTake, State.copyAndTake]
  have hcont : s.sameContactors (s.cancelAndTake rest k) := by
    obtain ⟨-, -, -, -, -, -, hsup', -⟩ := entryUndone_kept { s with port.notes := rest } e
    have : (s.cancelAndTake rest k).sup = s.sup := by
      have : (s.cancelAndTake rest k).sup = (State.cancelEntry { s with port.notes := rest }).sup := rfl
      rw [this, cancelEntry_eq (s := { s with port.notes := rest }) he]
      simpa [State.judgeAttn] using hsup'
    simp [State.sameContactors, this]
  have hxe : (s.cancelAndTake rest k).power.patrol = none ∧ (s.cancelAndTake rest k).power.returning = none := by
    simp [State.cancelAndTake, State.copyAndTake, hpt, hret]
  rw [hbegin] at hex
  have hacc := (accepts_beginEntry (s.cancelAndTake rest k) k).trans (State.Follows.reacts (o := s) (follows_self _))
  generalize s.cancelAndTake rest k = x at *
  obtain ⟨hst, ⟨f, hf, hfk, hf3⟩, -, -, hq⟩ := settle_entering (beginEntry_entering k hxe.1 hxe.2)
  have htf : (State.finish s (x.beginEntry k).settle).power.entry = some f := by simp only [finish_frame, hf]
  have hmem : k ∈ (State.finish s (x.beginEntry k).settle).slips := by
    have := mem_slips_entry htf
    rwa [hfk] at this
  have htaken := stillTaken_of_accepts hxr hxout hxin hwf hxmem hacc hmem
  refine goes_react _ hex ⟨hacc.toServes.showsDone hcx hi.1 hdone, ?_, htaken, ⟨f, htf, hfk, hf3⟩, ?_, fun h4 hcmd => ?_,
    fun h4 hcmd => ?_, sameContactors_finish (sameContactors_settle (sameContactors_beginEntry hcont k))⟩
  · simp only [finish_frame, hst]
  · simp only [finish_frame, hq]
  · simp only [finish_frame, settle_frame, hchain, hafter h4 hcmd]
  · simp only [finish_frame, settle_frame, hchain, htone h4 hcmd]
    rfl

/-! ### The first SLEEP (R107, R108) -/

/-- Step 1 of a sleep entry ends at once without a capture, and the stop it asks for is sent (R108). -/
theorem settle_entry_stop {s : State} {e : Entry} (hb : s.plan.burst = none) (hcap : s.plan.captures = [])
    (hp : s.upd.pause = none) (hd : s.upd.state ≠ .distributing) (hpt : s.power.patrol = none) (hr : s.power.returning = none)
    (he : s.power.entry = some e) (h1 : e.step = 1) (hq : s.chain.requests = []) (hbal : s.chain.balance = none)
    (hf : s.chain.free = true) : s.settle = (s.entryAt { e with step := 2 }).stopSent := by
  obtain ⟨y, hy⟩ : ∃ y, y = State.request (s.entryAt { e with step := 2 }) .stop := ⟨_, rfl⟩
  have hyc : y.chain = { s.chain with requests := [.stop] } := by rw [hy]; simp [State.request, hq]
  have hna : s.chain.state ≠ .asleep := by
    have := (Bool.and_eq_true_iff.1 hf).2
    exact of_decide_eq_true this
  have hent : s.entryReact = y := by
    simp [State.entryReact, he, h1, Planner.ended, hcap, hb, hy, State.askStop, hbal]
  have hans : y.answerRequests = y := by
    unfold State.answerRequests
    split
    · simp [hyc, State.answerDown, hna]
    · rfl
  have hgrant : y.arbiterGrant = (s.entryAt { e with step := 2 }).stopSent := by
    rw [arbiterGrant_only (r := .stop) (by rw [hyc]; exact hf) (by rw [hyc]) (by simp) (by simp [Chain.grantable, hyc]), hy]
    simp [State.grant, State.beginExchange, State.dropRequest, State.request, hq, State.stopSent]
    exact ⟨rfl, rfl⟩
  have hz : (s.entryAt { e with step := 2 }).stopSent.Still := by
    refine ⟨?_, ?_, ?_, updateReact_resting hp hd, ?_⟩
    · simp [State.burstReact, State.stopSent, hb]
    · simp [State.patrolReact, State.stopSent, hpt]
    · simp [State.returnReact, State.stopSent, hr]
    · simp [State.entryReact, State.stopSent]
  have hzq : (s.entryAt { e with step := 2 }).stopSent.chain.requests = [] := rfl
  refine settle_of_round ?_ hz (.inl hzq)
  unfold State.round
  rw [show s.burstReact = s by simp [State.burstReact, hb], answerRequests_quiet (.inl hq),
    show s.patrolReact = s by simp [State.patrolReact, hpt], show s.returnReact = s by simp [State.returnReact, hr],
    updateReact_resting hp hd, hent, hans, hgrant]

/-- With no capture and no request there is nothing to withdraw (R46). -/
theorem becomeQuiet_none {s : State} (hcap : s.plan.captures = []) (hq : s.chain.requests = []) :
    s.becomeQuiet = { s with plan.quiet := true } := by
  have hdrop : ∀ p, State.dropEarly { s with plan.quiet := true } p = { s with plan.quiet := true } := fun p => by
    have hcaps : ∀ f : Capture → Bool, s.plan.captures.filter f = s.plan.captures := fun f => by rw [hcap, List.filter_nil]
    have hreqs : ∀ f : Req → Bool, s.chain.requests.filter f = s.chain.requests := fun f => by rw [hq, List.filter_nil]
    simp only [State.dropEarly, State.dropRequest, hcaps, hreqs]
  simp only [State.becomeQuiet, List.foldl_cons, List.foldl_nil, hdrop]

theorem post_sleep_begins {s : State} {w : Word} {rest : List Word} {k : Nat} (hc : s.canonical) (hr : s.slipsRight)
    (hpt : s.power.patrol = none) (hret : s.power.returning = none) (h : postedSlip s w rest k (some .sleep))
    (hp : s.power.state = .run) (hsup : s.sup.state = .open_) (hupd : s.upd.state = .idle) (hfil : s.ev.filling = [])
    (hrest : s.restful) (hcap : s.plan.captures = []) (hq : s.chain.requests = []) (hbal : s.chain.balance = none)
    (hfree : s.chain.free = true) :
    Goes .post s fun t =>
      t.power.state = .enteringDeep ∧ t.power.entry = some ⟨k, 2, s.now⟩ ∧ t.plan.quiet = true
        ∧ t.power.snapOutcome = .none ∧ t.chain.hold = some .stop ∧ stillTaken t k
        ∧ State.sameAround { s with port.notes := rest } t ∧ s.sameContactors t := by
  have hex := post_react h (by rw [hp]; simp)
  obtain ⟨-, -, -, hk, hpost, -⟩ := id h
  have hfreeSlot : getAt s.port.slots k = some none := of_decide_eq_true (Bool.and_eq_true_iff.1 hpost).1
  obtain ⟨hxr, hxout, hxin⟩ := copyAndTake_right (s := { s with port.notes := rest }) hk hfreeSlot hr
  have hxeq : takenSlip s rest k = State.copyAndTake { s with port.notes := rest } k := rfl
  rw [← hxeq] at hxr hxout hxin
  have hbegin : (takenSlip s rest k).handSlip k .sleep (slipArgs s k) = (takenSlip s rest k).beginEntry k :=
    takeSleep_begins hsup hupd hfil
  rw [hbegin] at hex
  obtain ⟨hpow, hplan, hchain, -, hu⟩ := beginEntry_fields (takenSlip s rest k) k
  obtain ⟨⟨hb, hup, hud, -, -, -⟩, -⟩ := hrest
  have hquiet := becomeQuiet_none (s := takenSlip s rest k) hcap hq
  have hset := settle_entry_stop (s := (takenSlip s rest k).beginEntry k) (e := ⟨k, 1, s.now⟩)
    (by rw [hplan, hquiet]; exact hb) (by rw [hplan, hquiet]; exact hcap) (by rw [hu]; exact hup) (by rw [hu]; exact hud) (by rw [hpow]; exact hpt)
    (by rw [hpow]; exact hret) (by rw [hpow]; rfl) rfl (by rw [hchain, hquiet]; exact hq) (by rw [hchain, hquiet]; exact hbal)
    (by rw [hchain, hquiet]; exact hfree)
  have hacc := (accepts_beginEntry (takenSlip s rest k) k).trans (State.Follows.reacts (o := s) (follows_self _))
  have hcont : s.sameContactors ((takenSlip s rest k).beginEntry k) :=
    sameContactors_beginEntry (t := takenSlip s rest k) ⟨rfl, rfl, rfl, rfl, rfl, rfl, rfl, rfl, rfl, rfl, rfl⟩ k
  have haround : State.sameAround { s with port.notes := rest } ((takenSlip s rest k).beginEntry k) := by
    simp [State.sameAround, takenSlip]
  have hent : (State.finish s ((takenSlip s rest k).beginEntry k).settle).power.entry = some ⟨k, 2, s.now⟩ := by
    simp only [finish_frame, hset]
    rfl
  have hmem : k ∈ (State.finish s ((takenSlip s rest k).beginEntry k).settle).slips := mem_slips_entry hent
  have htaken := stillTaken_of_accepts hxr hxout hxin hc rfl hacc hmem
  have hhold : ((takenSlip s rest k).beginEntry k).settle.chain.hold = some .stop := by
    rw [hset]
    rfl
  have hstate : ((takenSlip s rest k).beginEntry k).settle.power.state = .enteringDeep := by
    rw [hset]
    exact congrArg Power.state hpow
  have hsnap : ((takenSlip s rest k).beginEntry k).settle.power.snapOutcome = .none := by
    rw [hset]
    exact congrArg Power.snapOutcome hpow
  have hq' : ((takenSlip s rest k).beginEntry k).settle.plan.quiet = true := by
    rw [hset]
    exact congrArg Planner.quiet (hplan.trans (congrArg State.plan hquiet))
  have hlast : State.sameAround { s with port.notes := rest } (State.finish s ((takenSlip s rest k).beginEntry k).settle) := by
    have hset' := sameAround_settle haround
    simpa [State.sameAround] using hset'
  refine goes_react _ hex ⟨?_, hent, ?_, ?_, ?_, htaken, hlast,
    sameContactors_finish (sameContactors_settle hcont)⟩
  · simp only [finish_frame, hstate]
  · simp only [finish_frame, hq']
  · simp only [finish_frame, hsnap]
  · simp only [finish_frame, hhold]

end Sys2Proof.Machine

namespace Sys2Proof.Machine

theorem snapshotWaitLimit_goes (s : State) (e : Entry) (he : s.power.entry = some e) (hstep : e.step = 3)
    (hwait : 250 ≤ elapsed s.now e.requestAt) (hq : ∃ q ∈ s.store.queue, Requester.entry ∈ q.who) :
    Goes .snapshotWaitLimit s fun t =>
      t.power.snapOutcome = .skipped ∧ (s.restful → s.chain.state ≠ .asleep →
          t.power.entry = some { e with step := 4 } ∧ t.chain.sleepCmd = true
            ∧ t.store.queue = s.store.queue.filter fun q => !q.who.contains .entry)
        ∧ s.sameAround t ∧ s.sameContactors t := by
  have hex : exec .snapshotWaitLimit s = s.react (s.skipped e) := snapshotWaitLimit_react he hstep hwait hq
  have haround : s.sameAround (s.skipped e) := by simp [State.sameAround, State.skipped]
  have hcont : s.sameContactors (s.skipped e) := sameContactors_self s
  refine goes_react _ hex ⟨?_, fun hr ha => ?_, sameAround_finish (sameAround_settle haround),
    sameContactors_finish (sameContactors_settle hcont)⟩
  · simp only [finish_frame, settle_frame]
    rfl
  · rw [settle_restful (skipped_restful hr ha)]
    simp only [finish_frame]
    exact ⟨rfl, rfl, rfl⟩

theorem deepEntry_goes (s : State) (e : Entry) (he : s.power.entry = some e) (hstep : e.step = 5) (hn : s.port.notes = [])
    (hr : s.restful) (hpt : s.power.patrol = none) (hw : s.power.pendingWith (fun l => decide (l ≠ 0)) = false)
    (hq : s.chain.requests = []) :
    Goes .deepEntry s fun t =>
      t.power.state = .deep ∧ t.power.entry = none ∧ t.power.timer = 1000 * s.power.wakeTable.period
        ∧ t.power.timerRunning = true ∧ t.power.compRun = 0 ∧ t.attn.line = false ∧ t.conv.scanning = false
        ∧ (s.canonical → s.inFlight e.slot → t.showsDone e.slot 1 0) ∧ s.sameAround t ∧ s.sameContactors t := by
  have hex : exec .deepEntry s = s.react (s.enterDeep e.slot) := by
    change execDeepEntry s = _
    simp [execDeepEntry, he, hstep, hn]
  obtain ⟨h1, h2, h3, h4, h5, h6, h7, -, -⟩ := enterDeep_fields hw e.slot
  have haround : s.sameAround (s.enterDeep e.slot) := by simp [State.sameAround]
  have hcont : s.sameContactors (s.enterDeep e.slot) := by simp [State.sameContactors, Sup.coils]
  refine goes_react _ hex ?_
  rw [settle_restful (enterDeep_restful hr hq hpt hw e.slot)]
  refine ⟨?_, ?_, ?_, ?_, ?_, ?_, ?_, fun hc hi => ?_, sameAround_finish haround, sameContactors_finish hcont⟩
  · simp only [finish_frame, h1]
  · simp only [finish_frame, h2]
  · simp only [finish_frame, h3]
  · simp only [finish_frame, h4]
  · simp only [finish_frame, h5]
  · simp only [finish_frame, h6]
  · simp only [finish_frame, h7]
  · exact showsDone_finish (enterDeep_wf _ _ hc) hi.1 (enterDeep_showsDone hc hi)

/-- Settles O30: each step of a sleep entry by what its reaction leaves, the POSTs by the invariant of the entry's first
steps. -/
theorem sleepEntrySteps : Obligations.SleepEntrySteps := by
  refine ⟨snapshotWaitLimit_goes, sleepBroadcast_goes, deepEntry_goes, fun w rest k s hc hr hpt hret => ⟨?_, ?_, ?_⟩⟩
  · intro h hrun hsup hupd hfil hrest hcap hq hbal hfree
    exact post_sleep_begins hc hr hpt hret h hrun hsup hupd hfil hrest hcap hq hbal hfree
  · intro e kind h hk hp he hi
    exact post_other_cancels hc hpt hret h hk hp he hi
  · intro e h hp he hi hsup hupd hfil
    exact post_sleep_again hc hr hpt hret h hp he hi hsup hupd hfil

end Sys2Proof.Machine

namespace Sys2Proof.Machine

/-! ### An opening, part by part (R79, R80, R87, R88) -/

/-- The event of an opening: AUTO_OPEN, or OPENED where an OPEN slip begins it. -/
def openingEvent (s : State) (slot : Option Nat) (causes : List CauseRec) : SentEvent :=
  { kind := if slot.isNone then .autoOpen else .opened
    cause := if slot.isNone then (match causes with | [] => 0 | c :: _ => c.cause.code) else 0
    before := s.sup.coils
    after := (s.openingBegun slot causes).sup.coils
    detail := .release s.newestI
    causes := if slot.isNone then causes.drop 1 else causes
    deferred := s.deferralLength
    adding := true
    together := false
    fresh := false }

/-- The HIGH_CURRENT_BREAK event of an opening. -/
def breakEvent (s : State) (slot : Option Nat) (causes : List CauseRec) : SentEvent :=
  ⟨.highCurrentBreak, 0, s.sup.coils, (s.openingBegun slot causes).sup.coils, .release s.newestI, [], none, false, false, false⟩

/-- An opening that has begun, once its CLOSE is aborted and its events are sent. -/
def State.openingSent (s : State) (slot : Option Nat) (causes : List CauseRec) : State :=
  if s.store.active.breakLimit ≤ (s.newestI.natAbs : Int) then
    ((s.openingBegun slot causes).abortClose.send (openingEvent s slot causes)).send (breakEvent s slot causes)
  else (s.openingBegun slot causes).abortClose.send (openingEvent s slot causes)

theorem startOpening_auto (s : State) (causes : List CauseRec) :
    s.startOpening none causes = ((s.openingSent none causes).raise .autoOpen).askStop := rfl

theorem startOpening_slip (s : State) (k : Nat) (causes : List CauseRec) :
    s.startOpening (some k) causes = s.openingSent (some k) causes := rfl

theorem newestI_of_newest {s : State} {x : Sample} (h : s.newest = some x) : s.newestI = x.i := by
  unfold State.newestI
  rw [h]

theorem drawn_of_newest {s : State} {x : Sample} (h : s.newest = some x) : s.drawn = s := by
  unfold State.drawn
  rw [h]

theorem releasePos_off (s : State) : s.releasePos.sup.mainPos.on = false := by
  unfold State.releasePos
  split
  · simp [Coil.release]
  · next h => simpa using h

/-- The supervisor after the beginning of an opening. -/
theorem openingBegun_fields {s : State} {x : Sample} (hx : s.newest = some x) (slot : Option Nat) (causes : List CauseRec) :
    (s.openingBegun slot causes).sup.state = .opening ∧ (s.openingBegun slot causes).sup.mainPos.on = false
      ∧ (s.openingBegun slot causes).sup.precharge.on = false
      ∧ (s.openingBegun slot causes).sup.mainNeg = s.sup.mainNeg
      ∧ (s.openingBegun slot causes).sup.opening = some ⟨slot.toList, x.i, causes.map (·.cause), s.now⟩
      ∧ (s.openingBegun slot causes).sup.deferral = none ∧ (s.openingBegun slot causes).sup.once = s.sup.once
      ∧ (s.openingBegun slot causes).sup.close = s.sup.close ∧ (s.openingBegun slot causes).ev = s.ev
      ∧ (s.openingBegun slot causes).chain = s.chain ∧ (s.openingBegun slot causes).store = s.releasePos.store
      ∧ (s.openingBegun slot causes).port = s.port ∧ (s.openingBegun slot causes).attn.pending .contactorChange = true := by
  have hn : s.releasePos.releasePrecharge.newest = some x := by
    rw [← hx]
    simp [State.newest, State.releasePrecharge]
  unfold State.openingBegun
  rw [drawn_of_newest hn, newestI_of_newest hx]
  refine ⟨by simp [State.toSup], ?_, ?_, ?_, ?_, ?_, ?_, ?_, ?_, ?_, ?_, ?_, ?_⟩
  · simpa [State.toSup, State.releasePrecharge] using releasePos_off s
  · simp [State.toSup, State.releasePrecharge, Coil.release]
  · simp [State.toSup, State.releasePrecharge]
  · simp [State.toSup, State.releasePrecharge]
  · simp [State.toSup, State.releasePrecharge]
  · simp [State.toSup, State.releasePrecharge]
  · simp [State.toSup, State.releasePrecharge]
  · simp [State.toSup, State.releasePrecharge]
  · simp [State.toSup, State.releasePrecharge]
  · simp [State.toSup, State.releasePrecharge]
  · simp [State.toSup, State.releasePrecharge]
  · exact raise_pending_self _ _

theorem abortClose_close (s : State) : s.abortClose.sup.close = none := by
  unfold State.abortClose
  cases h : s.sup.close with
  | none => simpa using h
  | some c => simp

/-- A CLOSE in flight is ABORTED by the opening (R79). -/
theorem abortClose_showsDone {s : State} {c : Close} (h : s.sup.close = some c) (hc : s.canonical) (hi : s.inFlight c.slot) :
    s.abortClose.showsDone c.slot 5 0 := by
  unfold State.abortClose
  rw [h]
  exact complete_showsDone (s := { s with sup.close := none }) hc hi _

/-- The supervisor and what else an opening has done before it asks for the balancing stop. -/
theorem openingSent_fields {s : State} {x : Sample} (hx : s.newest = some x) (slot : Option Nat) (causes : List CauseRec) :
    (s.openingSent slot causes).sup.state = .opening ∧ (s.openingSent slot causes).sup.mainPos.on = false
      ∧ (s.openingSent slot causes).sup.precharge.on = false ∧ (s.openingSent slot causes).sup.mainNeg = s.sup.mainNeg
      ∧ (s.openingSent slot causes).sup.opening = some ⟨slot.toList, x.i, causes.map (·.cause), s.now⟩
      ∧ (s.openingSent slot causes).sup.deferral = none ∧ (s.openingSent slot causes).sup.once = s.sup.once
      ∧ (s.openingSent slot causes).sup.close = none ∧ (s.openingSent slot causes).chain = s.chain
      ∧ (s.openingSent slot causes).store = s.releasePos.store := by
  obtain ⟨h1, h2, h3, h4, h5, h6, h7, -, -, h10, h11, -, -⟩ := openingBegun_fields hx slot causes
  unfold State.openingSent
  split
  all_goals
    simp only [State.send, abortClose_frame]
    exact ⟨h1, h2, h3, h4, h5, h6, h7, abortClose_close _, h10, h11⟩

theorem openingEvent_eq {s : State} {x : Sample} (hx : s.newest = some x) (slot : Option Nat) (causes : List CauseRec) :
    (openingEvent s slot causes).before = s.sup.coils
      ∧ (openingEvent s slot causes).after = ⟨s.sup.mainNeg.on, false, false⟩
      ∧ (openingEvent s slot causes).detail = .release x.i := by
  obtain ⟨-, h2, h3, h4, -, -, -, -, -, -, -, -, -⟩ := openingBegun_fields hx slot causes
  refine ⟨rfl, ?_, ?_⟩
  · simp [openingEvent, Sup.coils, h2, h3, h4]
  · simp [openingEvent, newestI_of_newest hx]

end Sys2Proof.Machine

namespace Sys2Proof.Machine

theorem sentEvents_send {s : State} (e : SentEvent) (he : e.fresh = false) : sentEvents (s.send e).ev.inbox
    = sentEvents s.ev.inbox ++ [{ e with together := (lastOf s.ev.inbox).any (·.fresh) }] := by
  simp [State.send, sentEvents, he]

theorem lastOf_append {α : Type} (l : List α) (x : α) : lastOf (l ++ [x]) = some x := by
  induction l with
  | nil => rfl
  | cons y l ih =>
    cases l with
    | nil => rfl
    | cons z l => exact ih

/-- The events of an opening follow the ones that have been sent before the step (R80, R102). -/
theorem openingSent_inbox {s : State} {x : Sample} (hx : s.newest = some x) (hc : ∀ e ∈ s.ev.inbox, e.fresh = false)
    (slot : Option Nat) (causes : List CauseRec) :
    sentEvents (s.openingSent slot causes).ev.inbox = s.ev.inbox ++ openingEvent s slot causes
      :: (if s.store.active.breakLimit ≤ (x.i.natAbs : Int) then [{ breakEvent s slot causes with together := true }] else []) := by
  obtain ⟨-, -, -, -, -, -, -, -, hev, -, -, -, -⟩ := openingBegun_fields hx slot causes
  have hin : (s.openingBegun slot causes).abortClose.ev.inbox = s.ev.inbox := by simp [hev]
  have hsame : sentEvents s.ev.inbox = s.ev.inbox := by
    refine (List.map_congr_left (g := id) fun e he => ?_).trans (List.map_id _)
    have hf := hc e he
    cases e
    simp_all
  have h1 : sentEvents ((s.openingBegun slot causes).abortClose.send (openingEvent s slot causes)).ev.inbox
      = s.ev.inbox ++ [openingEvent s slot causes] := by
    rw [sentEvents_send _ rfl, hin, lastOf_fresh hc, hsame]
    rfl
  have h2 : lastOf ((s.openingBegun slot causes).abortClose.send (openingEvent s slot causes)).ev.inbox
      = some { openingEvent s slot causes with together := false, fresh := true } := by
    rw [State.send]
    simp only [lastOf_append, hin, lastOf_fresh hc]
  unfold State.openingSent
  rw [newestI_of_newest hx]
  split
  · rw [sentEvents_send _ rfl, h1, h2, List.append_assoc]
    rfl
  · rw [h1]

/-- A payload that joins none of the waiting ones goes to the end of the queue. -/
theorem enqueue_new {p : Payload} {who : Requester} {l : List WriteReq} (h : ∀ q ∈ l, q.payload.join p = none) :
    enqueue p who l = l ++ [⟨p, [who]⟩] := by
  induction l with
  | nil => rfl
  | cons q l ih =>
    rw [enqueue, h q (by simp)]
    simp only [List.cons_append, ih fun r hr => h r (by simp [hr])]

/-- The wear of MAIN_POS is counted by a write that joins no other (R81). -/
theorem releasePos_queue {s : State} {x : Sample} (hx : s.newest = some x) (hon : s.sup.mainPos.on = true)
    (hq : ∀ q ∈ s.store.queue, ∀ d, q.payload ≠ .wearPos d) :
    s.releasePos.store.queue = s.store.queue ++ [⟨.wearPos (releaseWear s x.i), [.wear]⟩] := by
  have hjoin : ∀ (w : Nat), ∀ q ∈ s.store.queue, q.payload.join (.wearPos w) = none := by
    intro w q hm
    have := hq q hm
    cases hp : q.payload <;> simp_all [Payload.join]
  unfold State.releasePos
  rw [if_pos hon, newestI_of_newest hx]
  simp only [State.requestWrite, Store.alreadyDone, Bool.false_eq_true, if_false]
  exact enqueue_new (hjoin _)

/-- A stop that a resting part asks for with the chain ASLEEP is answered, and nothing else follows (R22). -/
theorem settle_stop_asleep {u : State} (h : u.resting) (hq : u.chain.requests = [.stop]) (ha : u.chain.state = .asleep) :
    u.settle = { u with chain.requests := [] } := by
  have hans : u.answerRequests = { u with chain.requests := [] } := by
    have hcond : (u.chain.down || decide (u.chain.state = .asleep)) = true := by simp [ha]
    unfold State.answerRequests
    rw [if_pos hcond, hq]
    simp [State.answerDown, hq, ha, State.dropRequest]
  have hrest : State.resting { u with chain.requests := [] } := resting_of_same h rfl rfl rfl rfl rfl rfl rfl rfl
  have hyq : (State.chain { u with chain.requests := [] }).requests = [] := rfl
  obtain ⟨hburst, -, -, -, -⟩ := still_of_resting h
  generalize ({ u with chain.requests := [] } : State) = y at *
  have hy := still_of_resting hrest
  refine settle_of_round ?_ hy (.inl hyq)
  unfold State.round
  rw [hburst, hans, hy.patrol, hy.returning, hy.update, hy.entry, answerRequests_quiet (.inl hyq), arbiterGrant_quiet (.inl hyq)]

/-- The balancing stop that a resting part has asked for is sent, or waits, or is answered with the chain ASLEEP; the
supervisor's inbox and the write queue stay. -/
theorem settle_askStop {u : State} (h : u.resting) (hq : u.chain.requests = [.stop] ∨ u.chain.occupied) :
    u.settle = u ∨ (u.chain.free = true ∧ u.settle = u.stopSent) ∨ (u.chain.state = .asleep ∧ u.settle = { u with chain.requests := [] }) := by
  rcases hq with hq | ho
  · by_cases ha : u.chain.state = .asleep
    · exact .inr (.inr ⟨ha, settle_stop_asleep h hq ha⟩)
    · rw [settle_stop h hq ha]
      split
      · next hf => exact .inr (.inl ⟨hf, rfl⟩)
      · exact .inl rfl
  · exact .inl (settle_restful ⟨h, .inr ho⟩)

end Sys2Proof.Machine

namespace Sys2Proof.Machine

/-- The state in which a cause that has fallen due is handled: its own mark is cleared, and of a SILENCE the count, with a
warning that had not come yet. -/
structure State.CauseTaken (s b : State) : Prop where
  follows : s.Follows b
  conv : b.conv = s.conv
  chain : b.chain = s.chain
  ev : b.ev = s.ev
  power : b.power = s.power
  plan : b.plan = s.plan
  upd : b.upd = s.upd
  store : b.store = s.store
  port : b.port = s.port
  pins : b.pins = s.pins
  sup : b.sup = { s.sup with
    hardDue := b.sup.hardDue, lossDue := b.sup.lossDue, silence := b.sup.silence, warn := b.sup.warn, lapsed := b.sup.lapsed }
  attn : b.attn.enables = s.attn.enables ∧ b.attn.levels = s.attn.levels ∧ b.attn.mask = s.attn.mask

theorem causeTaken_self (s : State) : s.CauseTaken s :=
  ⟨follows_self s, rfl, rfl, rfl, rfl, rfl, rfl, rfl, rfl, rfl, rfl, rfl, rfl, rfl⟩

theorem State.CauseTaken.newest {s b : State} (h : s.CauseTaken b) : b.newest = s.newest := by
  unfold State.newest
  rw [h.conv]

theorem State.CauseTaken.coils {s b : State} (h : s.CauseTaken b) : b.sup.coils = s.sup.coils := by rw [h.sup]; rfl

theorem State.CauseTaken.now {s b : State} (h : s.CauseTaken b) : b.now = s.now := congrArg Conv.part h.conv

theorem State.CauseTaken.deferralLength {s b : State} (h : s.CauseTaken b) : b.deferralLength = s.deferralLength := by
  unfold State.deferralLength
  rw [h.sup, h.now]

theorem State.CauseTaken.sameAround {s b : State} (h : s.CauseTaken b) : s.sameAround b := by
  obtain ⟨-, hconv, -, -, hpow, hplan, hupd, hstore, hport, hpins, -, he, hl, hm⟩ := h
  simp [State.sameAround, hconv, hpow, hplan, hupd, hstore, hport, hpins, he, hl, hm]

theorem follows_openingSent (s : State) (slot : Option Nat) (causes : List CauseRec) :
    (s.openingBegun slot causes).abortClose.Follows (s.openingSent slot causes) := by
  unfold State.openingSent
  split
  · exact (follows_send _ _).trans (follows_send _ _)
  · exact follows_send _ _

/-- The chain after the request of the balancing stop. -/
theorem askStop_asked {s : State} (h : s.slipsRight) :
    .stop ∈ s.askStop.chain.requests ∧ (s.chain.requests = [] → s.askStop.chain.requests = [.stop])
      ∧ (∀ b, s.chain.balance = some b →
          (s.chain.hold = some .config → s.askStop.chain.balance = some { b with ending := true })
          ∧ (s.chain.hold ≠ some .config → s.askStop.chain.balance = none
            ∧ (s.canonical → s.askStop.showsDone b.slot 5 0))) := by
  refine ⟨askStop_mem s, askStop_only, fun b hb => ⟨fun hh => by rw [askStop_config hb hh], fun hh => ?_⟩⟩
  have hin : s.inFlight b.slot := h.2 _ (by simp [State.slips, hb])
  obtain ⟨h1, h2⟩ := askStop_aborts hb hh
  exact ⟨h1, fun hc => h2 hc hin⟩

theorem requestWrite_store (s : State) (p : Payload) (who : Requester) :
    (s.requestWrite p who).store = { s.store with queue := (s.requestWrite p who).store.queue } := by
  unfold State.requestWrite
  split <;> rfl

theorem releasePos_store (s : State) : s.releasePos.store = { s.store with queue := s.releasePos.store.queue } := by
  unfold State.releasePos
  split
  · exact requestWrite_store _ _ _
  · rfl

theorem startOpening_store {s : State} {x : Sample} (hx : s.newest = some x) (slot : Option Nat) (causes : List CauseRec) :
    (s.startOpening slot causes).store = s.releasePos.store := by
  obtain ⟨-, -, -, -, -, -, -, -, -, hstore⟩ := openingSent_fields hx slot causes
  rw [← hstore]
  cases slot with
  | none => simp [startOpening_auto]
  | some k => rw [startOpening_slip]

theorem sameAround_startOpening {s b : State} {x : Sample} (h : s.sameAround b) (hx : b.newest = some x) (slot : Option Nat)
    (causes : List CauseRec) : s.sameAround (b.startOpening slot causes) := by
  have hstore := (startOpening_store hx slot causes).trans (releasePos_store b)
  obtain ⟨h1, h2, h3, h4, h5, h6, h7, h8, h9, h10⟩ := h
  exact ⟨by simp [h1], by simp [h2], by simp [h3], by simp [h4], by simp [h5], by simp [h6], by simp [h7], by simp [h8],
    by rw [hstore, h9], by simpa using h10⟩

/-- An autonomous open leaves a part at rest that was, with the balancing stop alone waiting or with a chain in use. -/
theorem startOpening_rests {s b : State} {x : Sample} (hx : b.newest = some x) (hb : s.CauseTaken b) (causes : List CauseRec)
    (hr : s.restful) :
    (b.startOpening none causes).resting
      ∧ ((b.startOpening none causes).chain.requests = [.stop] ∨ (b.startOpening none causes).chain.occupied) := by
  obtain ⟨hrest, hocc⟩ := hr
  obtain ⟨-, -, -, -, -, -, -, -, hchain, -⟩ := openingSent_fields hx none causes
  refine ⟨resting_of_same hrest (by simp [hb.power]) (by simp [hb.power]) (by simp [hb.power]) (by simp [hb.plan])
    (by simp [hb.plan]) (by simp [hb.upd]) (by simp [hb.upd]) (by simp [hb.chain]), hocc.imp (fun hq => ?_) fun ho => ?_⟩
  · rw [startOpening_auto]
    exact askStop_only (by simp [hchain, hb.chain, hq])
  · simpa [Chain.occupied, Chain.down, hb.chain] using ho

end Sys2Proof.Machine

namespace Sys2Proof.Machine

/-- An autonomous open before it asks for the balancing stop. -/
def State.openedAlone (s : State) (causes : List CauseRec) : State := (s.openingSent none causes).raise .autoOpen

theorem startOpening_none (s : State) (causes : List CauseRec) :
    s.startOpening none causes = (s.openedAlone causes).askStop := startOpening_auto s causes

theorem follows_openedAlone (s : State) (causes : List CauseRec) : s.Follows (s.openedAlone causes) := by
  refine State.Follows.trans ?_ (follows_raise _ _)
  refine State.Follows.trans ?_ (follows_openingSent _ _ _)
  exact (follows_openingBegun _ _).trans (follows_abortClose _)

theorem Chain.awake_of_free {c : Chain} (h : c.free = true) : c.state ≠ .asleep := by
  unfold Chain.free at h
  simp only [Bool.and_eq_true, decide_eq_true_eq] at h
  exact h.2

theorem stopAsked_opened {s b : State} {x : Sample} (hx : b.newest = some x) (hb : s.CauseTaken b) (causes : List CauseRec)
    (hs : s.slipsRight) (hr : s.restful) : stopAsked s (State.finish s (b.startOpening none causes).settle) := by
  have hfol : s.Follows (b.openedAlone causes) := hb.follows.trans (follows_openedAlone b causes)
  obtain ⟨-, -, -, -, -, -, -, -, hchain, -⟩ := openingSent_fields hx none causes
  have hz : (b.openedAlone causes).chain = s.chain := by simp [State.openedAlone, hchain, hb.chain]
  obtain ⟨hrest, hq⟩ := startOpening_rests hx hb causes hr
  have hset := settle_askStop hrest hq
  have hnchain : (b.startOpening none causes).chain = (b.openedAlone causes).askStop.chain := by rw [startOpening_none]
  obtain ⟨hmem, honly, hbal⟩ := askStop_asked (hfol.slips hs)
  have hafter : (b.openedAlone causes).askStop.Serves (State.finish s (b.startOpening none causes).settle) := by
    rw [← startOpening_none]
    exact ((follows_settle _).trans follows_finish).toServes
  refine ⟨fun ho => ?_, fun hreq hf => ?_, fun bal hbl => ⟨fun hh => ?_, fun hh => ⟨?_, fun hc hi => ?_⟩⟩⟩
  · have hocc : (b.startOpening none causes).chain.occupied := by
      simpa [Chain.occupied, Chain.down, hb.chain] using ho
    simp only [finish_frame, settle_restful ⟨hrest, .inr hocc⟩, hnchain]
    exact hmem
  · have hfree : (b.startOpening none causes).chain.free = true := by
      simpa [Chain.free, hb.chain] using hf
    have hone : (b.startOpening none causes).chain.requests = [.stop] := by
      rw [hnchain]
      exact honly (by rw [hz, hreq])
    simp only [finish_frame, settle_stop hrest hone (Chain.awake_of_free hfree), if_pos hfree, State.stopSent]
    simp [hb.chain]
  · have hend := (hbal bal (by rw [hz, hbl])).1 (by rw [hz, hh])
    rw [← hnchain] at hend
    simp only [finish_frame]
    rcases hset with h | ⟨-, h⟩ | ⟨-, h⟩ <;> (rw [h]; exact hend)
  · obtain ⟨hnone, -⟩ := (hbal bal (by rw [hz, hbl])).2 (by rwa [hz])
    rw [← hnchain] at hnone
    simp only [finish_frame]
    rcases hset with h | ⟨-, h⟩ | ⟨-, h⟩ <;> (rw [h]; exact hnone)
  · obtain ⟨-, hdone⟩ := (hbal bal (by rw [hz, hbl])).2 (by rwa [hz])
    have hzc : (b.openedAlone causes).canonical := hfol.wf hc
    exact hafter.showsDone ((follows_askStop _).wf hzc) hi.1 (hdone hzc)

/-- The AUTO_OPEN event, in the words of the statements. -/
theorem openingEvent_auto {s : State} {x : Sample} (hx : s.newest = some x) (causes : List CauseRec) :
    openingEvent s none causes = ⟨.autoOpen, (causes.head?.map (·.cause.code)).getD 0, s.sup.coils,
      ⟨s.sup.mainNeg.on, false, false⟩, .release x.i, causes.drop 1, s.deferralLength, true, false, false⟩ := by
  obtain ⟨-, hafter, hdetail⟩ := openingEvent_eq hx none causes
  rw [← hafter, ← hdetail]
  cases causes <;> rfl

/-- The OPENED event, in the words of the statements. -/
theorem openingEvent_slip {s : State} {x : Sample} (hx : s.newest = some x) (k : Nat) (causes : List CauseRec) :
    openingEvent s (some k) causes = ⟨.opened, 0, s.sup.coils, ⟨s.sup.mainNeg.on, false, false⟩, .release x.i, causes,
      s.deferralLength, true, false, false⟩ := by
  obtain ⟨-, hafter, hdetail⟩ := openingEvent_eq hx (some k) causes
  rw [← hafter, ← hdetail]
  rfl

/-- The HIGH_CURRENT_BREAK event, in the words of the statements. -/
theorem breakEvent_eq {s : State} {x : Sample} (hx : s.newest = some x) (slot : Option Nat) (causes : List CauseRec) :
    { breakEvent s slot causes with together := true } = (⟨.highCurrentBreak, 0, s.sup.coils,
      ⟨s.sup.mainNeg.on, false, false⟩, .release x.i, [], none, false, true, false⟩ : SentEvent) := by
  obtain ⟨-, hafter, hdetail⟩ := openingEvent_eq hx slot causes
  rw [← hafter, ← hdetail]
  rfl

/-- The events of an autonomous open, in the words of the statements. -/
theorem opened_inbox {s b : State} {x : Sample} (hx : b.newest = some x) (hb : s.CauseTaken b) (causes : List CauseRec)
    (hcalm : s.calm) (hr : s.restful) :
    (State.finish s (b.startOpening none causes).settle).ev.inbox = s.ev.inbox
      ++ ⟨.autoOpen, (causes.head?.map (·.cause.code)).getD 0, s.sup.coils, ⟨s.sup.mainNeg.on, false, false⟩, .release x.i,
          causes.drop 1, s.deferralLength, true, false, false⟩
        :: (if s.store.active.breakLimit ≤ (x.i.natAbs : Int) then
          [⟨.highCurrentBreak, 0, s.sup.coils, ⟨s.sup.mainNeg.on, false, false⟩, .release x.i, [], none, false, true, false⟩]
          else []) := by
  obtain ⟨hrest, hq⟩ := startOpening_rests hx hb causes hr
  obtain ⟨-, -, -, hfresh⟩ := hcalm
  have hsettle : (b.startOpening none causes).settle.ev = (b.startOpening none causes).ev := by
    rcases settle_askStop hrest hq with h | ⟨-, h⟩ | ⟨-, h⟩ <;> (rw [h]; try rfl)
  have hev : (b.startOpening none causes).settle.ev.inbox = (b.openingSent none causes).ev.inbox := by
    rw [hsettle, startOpening_none]
    simp [State.openedAlone]
  have hneg : b.sup.mainNeg = s.sup.mainNeg := by rw [hb.sup]
  rw [finish_inbox, hev, openingSent_inbox hx (by rwa [hb.ev]) none causes, openingEvent_auto hx, breakEvent_eq hx, hb.ev,
    hb.store, hb.coils, hneg, hb.deferralLength]

/-- The wear of MAIN_POS that an opening asks to be written, in the words of the statements. -/
theorem opened_queue {s b : State} {x : Sample} (hx : b.newest = some x) (hb : s.CauseTaken b) (causes : List CauseRec)
    (hr : s.restful) (hon : s.sup.mainPos.on = true) (hq : ∀ q ∈ s.store.queue, ∀ d, q.payload ≠ .wearPos d) :
    (State.finish s (b.startOpening none causes).settle).store.queue
      = s.store.queue ++ [⟨.wearPos (releaseWear s x.i), [.wear]⟩] := by
  obtain ⟨hrest, hreq⟩ := startOpening_rests hx hb causes hr
  have hsettle : (b.startOpening none causes).settle.store = (b.startOpening none causes).store := by
    rcases settle_askStop hrest hreq with h | ⟨-, h⟩ | ⟨-, h⟩ <;> (rw [h]; try rfl)
  have hpos : b.sup.mainPos = s.sup.mainPos := by rw [hb.sup]
  have hwear : releaseWear b x.i = releaseWear s x.i := by unfold releaseWear; rw [hb.store]
  simp only [finish_frame, hsettle, startOpening_store hx]
  have hpon : b.sup.mainPos.on = true := (congrArg Coil.on hpos).trans hon
  have hqb : ∀ q ∈ b.store.queue, ∀ d, q.payload ≠ .wearPos d := by rwa [hb.store]
  rw [releasePos_queue hx hpon hqb, hb.store, hwear]

/-- An autonomous open with a list of causes, begun in a state in which a cause is handled (R79, R80, R87, R88). -/
theorem opens_autonomously {c : Instr} {s b : State} {x : Sample} (hx : s.newest = some x) (hs : s.slipsRight)
    (hb : s.CauseTaken b) {causes : List CauseRec} (hex : exec c s = s.react (b.startOpening none causes)) :
    Goes c s fun t => autonomousOpen s t x.i causes ∧ s.sameAround t := by
  have hxb : b.newest = some x := hb.newest.trans hx
  refine goes_react _ hex ⟨?_, sameAround_finish (sameAround_settle (sameAround_startOpening hb.sameAround hxb _ _))⟩
  have hfields : (b.startOpening none causes).sup = (b.openingSent none causes).sup := by
    rw [startOpening_none]
    simp [State.openedAlone]
  obtain ⟨hst, hpos, hpre, hneg, hop, hdef, honce, hcl, -, -⟩ := openingSent_fields hxb none causes
  obtain ⟨-, -, -, -, -, -, -, -, -, -, -, hport, hchange⟩ := openingBegun_fields hxb none causes
  have hsup := hb.sup
  have hafter : (b.openedAlone causes).Serves (State.finish s (b.startOpening none causes).settle) := by
    rw [startOpening_none]
    exact ((follows_askStop _).trans ((follows_settle _).trans follows_finish)).toServes
  have hsent : (b.openingBegun none causes).abortClose.Serves (State.finish s (b.startOpening none causes).settle) :=
    ((follows_openingSent b none causes).trans (follows_raise _ _)).toServes.trans hafter
  refine ⟨?_, ?_, ?_, ?_, ?_, ?_, ?_, ?_, ?_, ?_, fun cl hcls hc hi => ?_, opened_inbox hxb hb causes, opened_queue hxb hb causes,
    stopAsked_opened hxb hb causes hs⟩
  · simp only [finish_frame, settle_frame, hfields, hst]
  · simp only [finish_frame, settle_frame, hfields, hpos]
  · simp only [finish_frame, settle_frame, hfields, hpre]
  · simp only [finish_frame, settle_frame, hfields, hneg]
    rw [hsup]
  · simp only [finish_frame, settle_frame, hfields, hop, hb.now]
    rfl
  · simp only [finish_frame, settle_frame, hfields, hcl]
  · simp only [finish_frame, settle_frame, hfields, hdef]
  · simp only [finish_frame, settle_frame, hfields, honce]
    rw [hsup]
  · exact hafter.pending _ (raise_pending_self _ _)
  · exact hsent.pending _ ((follows_abortClose _).pending _ hchange)
  · have hbegun := (hb.follows.trans (follows_openingBegun b causes)).wf hc
    have hclose : (b.openingBegun none causes).sup.close = some cl := by
      obtain ⟨-, -, -, -, -, -, -, h, -, -, -, -, -⟩ := openingBegun_fields hxb none causes
      rw [h, hsup, ← hcls]
    have hin : (b.openingBegun none causes).inFlight cl.slot := by
      unfold State.inFlight
      rw [hport, hb.port]
      exact hi
    exact hsent.showsDone ((follows_abortClose _).wf hbegun) hi.1 (abortClose_showsDone hclose hbegun hin)

end Sys2Proof.Machine

namespace Sys2Proof.Machine

/-! ### A cause that falls due (R85, R86, R90) -/

theorem execHardCurrent_due {s : State} (h : s.sup.hardDue = true) :
    exec .hardCurrent s = s.react (State.causeDue { s with sup.hardDue := false } ⟨.hardCurrent, 0, 0, 0, 0⟩) := by
  show execHardCurrent s = _
  unfold execHardCurrent
  rw [if_pos h]

theorem execChainLoss_due {s : State} (h : s.sup.lossDue = true) :
    exec .chainLoss s = s.react (State.causeDue { s with sup.lossDue := false } s.lossCause) := by
  show execChainLoss s = _
  unfold execChainLoss
  rw [if_pos h]

/-- The silence timer at its expiry, with a warning that had not come yet. -/
def State.silenceWarned (s : State) : State := if s.warnDue then s.silenceWarning else s

/-- What is left of the silence timer at its expiry. -/
def State.silenceLapsed (s : State) : State := State.clearSilence { s.silenceWarned with sup.lapsed := true }

theorem silenceExpiry_due {s : State} (h : s.sup.state.atRest = false) :
    s.silenceExpiry = (State.clearSilence { s with sup.lapsed := true }).causeDue ⟨.silence, 0, 0, 0, s.sup.silence⟩ :=
  if_neg (ne_true_of_eq_false (h : (State.clearSilence { s with sup.lapsed := true }).sup.state.atRest = false))

theorem silenceWarned_kept (s : State) :
    s.silenceWarned.sup.state = s.sup.state ∧ s.silenceWarned.sup.silence = s.sup.silence := by
  unfold State.silenceWarned
  split <;> simp [State.silenceWarning]

theorem execSilence_due {s : State} (h1 : 0 < s.sup.once.limit) (h2 : s.sup.once.limit + s.store.active.grace.toNat ≤ s.sup.silence)
    (h : s.sup.state.atRest = false) :
    exec .silence s = s.react (s.silenceLapsed.causeDue ⟨.silence, 0, 0, 0, s.sup.silence⟩) := by
  obtain ⟨hst, hn⟩ := silenceWarned_kept s
  have hex : exec .silence s = s.react s.silenceWarned.silenceExpiry := by
    show execSilence s = _
    unfold execSilence
    rw [if_pos (by simp [Sup.armed, State.silenceEnd, h1, h2])]
    rfl
  rw [hex, silenceExpiry_due (by rw [hst, h]), hn, State.silenceLapsed]

theorem causeTaken_silence (s : State) : s.CauseTaken s.silenceLapsed := by
  have hf : s.Follows s.silenceWarned := by
    unfold State.silenceWarned
    split
    · exact follows_silenceWarning s
    · exact follows_self s
  refine ⟨hf.after rfl rfl rfl rfl rfl, ?_, ?_, ?_, ?_, ?_, ?_, ?_, ?_, ?_, ?_, ?_⟩
  all_goals
    unfold State.silenceLapsed State.silenceWarned
    split <;> simp [State.silenceWarning, State.clearSilence]

theorem causeTaken_hard (s : State) : s.CauseTaken { s with sup.hardDue := false } :=
  ⟨follows_of_same rfl rfl rfl rfl rfl, rfl, rfl, rfl, rfl, rfl, rfl, rfl, rfl, rfl, rfl, rfl, rfl, rfl⟩

theorem causeTaken_loss (s : State) : s.CauseTaken { s with sup.lossDue := false } :=
  ⟨follows_of_same rfl rfl rfl rfl rfl, rfl, rfl, rfl, rfl, rfl, rfl, rfl, rfl, rfl, rfl, rfl, rfl, rfl⟩

/-- A cause that falls due outside rest is handled in a state that differs in its own mark alone. -/
theorem fallsDue_react {c : Instr} {s : State} {r : CauseRec} (h : fallsDue s c r) (hr : s.sup.state.atRest = false) :
    ∃ b, s.CauseTaken b ∧ exec c s = s.react (b.causeDue r) := by
  unfold fallsDue at h
  split at h
  · obtain ⟨hd, rfl⟩ := h
    exact ⟨{ s with sup.hardDue := false }, causeTaken_hard s, execHardCurrent_due hd⟩
  · obtain ⟨hd, rfl⟩ := h
    exact ⟨{ s with sup.lossDue := false }, causeTaken_loss s, execChainLoss_due hd⟩
  · obtain ⟨h1, h2, rfl⟩ := h
    exact ⟨_, causeTaken_silence s, execSilence_due h1 h2 hr⟩
  · exact h.elim

theorem causeDue_opens {s : State} {x : Sample} (hx : s.newest = some x) (r : CauseRec) (hc : s.sup.state.isClosing = true)
    (hd : s.sup.deferral = none) (hi : (x.i.natAbs : Int) < s.store.active.breakLimit) :
    s.causeDue r = s.startOpening none [r] := by
  unfold State.causeDue
  split <;> rename_i hst
  all_goals simp [hst, SupState.isClosing] at hc
  all_goals rw [hd]; simp only [newestI_of_newest hx, if_pos hi]

theorem causeDue_defers {s : State} {x : Sample} (hx : s.newest = some x) (r : CauseRec) (hc : s.sup.state.isClosing = true)
    (hd : s.sup.deferral = none) (hi : s.store.active.breakLimit ≤ (x.i.natAbs : Int)) :
    s.causeDue r = { s with sup.deferral := some ⟨s.now, s.store.active.deferral.toNat, [r]⟩ } := by
  unfold State.causeDue
  split <;> rename_i hst
  all_goals simp [hst, SupState.isClosing] at hc
  all_goals
    rw [hd]
    simp only [newestI_of_newest hx, if_neg (Int.not_lt.2 hi)]
    exact drawn_of_newest (s := { s with sup.deferral := some ⟨s.now, s.store.active.deferral.toNat, [r]⟩ }) hx

theorem causeDue_joins {s : State} {o : Opening} (r : CauseRec) (hst : s.sup.state = .opening) (ho : s.sup.opening = some o)
    (hn : r.cause ∉ o.causes) :
    s.causeDue r = State.addCause { s with sup.opening := some { o with causes := o.causes ++ [r.cause] } } r := by
  unfold State.causeDue
  simp [hst, ho, hn]

theorem causeDue_listed {s : State} {o : Opening} (r : CauseRec) (hst : s.sup.state = .opening) (ho : s.sup.opening = some o)
    (hn : r.cause ∈ o.causes) : s.causeDue r = s := by
  unfold State.causeDue
  simp [hst, ho, hn]

end Sys2Proof.Machine

namespace Sys2Proof.Machine

/-! ### A cause that joins a running opening (R87, R102) -/

theorem slotWhere_only {p : EventRec → Bool} {l : List (Option EventRec)} {k : Nat} {e : EventRec} (i : Nat)
    (hk : (getAt l k).getD none = some e) (hp : p e = true)
    (ho : ∀ j e', j ≠ k → (getAt l j).getD none = some e' → p e' = false) : slotWhere p i l = some (i + k) := by
  induction l generalizing i k with
  | nil => cases k <;> simp [getAt] at hk
  | cons r l ih =>
    cases k with
    | zero =>
      simp only [getAt, Option.getD_some] at hk
      simp [slotWhere, hk, hp]
    | succ k =>
      have hrest := ih (i + 1) (k := k) (by simpa [getAt] using hk)
        fun j e' hj he' => ho (j + 1) e' (by omega) (by simpa [getAt] using he')
      have hgo : slotWhere p i (r :: l) = slotWhere p (i + 1) l := by
        cases r with
        | none => rfl
        | some x => simp [slotWhere, ho 0 x (by omega) (by simp [getAt])]
      rw [hgo, hrest]
      congr 1
      omega

theorem change_at (v : Recorder) (k j : Nat) (f : EventRec → EventRec) :
    (v.change k f).at j = if j = k then (v.at j).map f else v.at j := by
  unfold Recorder.at Recorder.change
  simp only [getAt_modifyAt]
  split
  · cases getAt v.slots j <;> rfl
  · rfl

/-- A record that is rewritten: what is written, in a COMPLETE one as a revision. -/
def EventRec.rewritten (f : EventRec → EventRec) (e : EventRec) : EventRec :=
  { f e with revision := if e.complete then bump 255 e.revision else (f e).revision }

theorem rewrite_at {s : State} {k : Nat} {e : EventRec} (h : s.ev.at k = some e) (f : EventRec → EventRec) :
    (s.rewrite k f).ev.at k = some (e.rewritten f) ∧ (∀ j, j ≠ k → (s.rewrite k f).ev.at j = s.ev.at j)
      ∧ (e.complete = true → (s.rewrite k f).attn.pending .eventNew = true) := by
  unfold State.rewrite
  rw [h]
  simp only []
  split
  · next hc =>
    refine ⟨?_, fun j hj => ?_, fun _ => raise_pending_self _ _⟩
    · simp [change_at, h, EventRec.rewritten, hc]
    · simp [change_at, hj]
  · next hc =>
    refine ⟨?_, fun j hj => ?_, fun hx => absurd hx hc⟩
    · simp [change_at, h, EventRec.rewritten, hc]
    · simp [change_at, hj]

/-- A cause joins the record of the running opening (R102). -/
theorem addCause_record {s : State} {r : CauseRec} {k : Nat} {e : EventRec} (hin : ∀ y ∈ s.ev.inbox, y.adding = false)
    (hk : s.ev.at k = some e) (ha : e.adding = true) (ho : ∀ j e', j ≠ k → s.ev.at j = some e' → e'.adding = false)
    (hkind : e.kind = .autoOpen → e.cause ≠ r.cause.code) (hnew : ∀ y ∈ e.causes, y.cause ≠ r.cause) :
    s.addCause r = s.rewrite k fun e => { e with causes := e.causes ++ [r] } := by
  have hfind : s.ev.inbox.find? (·.adding) = none := by simpa using hin
  have hwhere : slotWhere (·.adding) 0 s.ev.slots = some k := by
    simpa using slotWhere_only 0 hk ha ho
  have hstands : causeStands e.kind e.cause e.causes r = false := by
    simp only [causeStands, Bool.or_eq_false_iff, Bool.and_eq_false_iff, decide_eq_false_iff_not, List.any_eq_false,
      decide_eq_true_eq]
    exact ⟨not_or_of_imp hkind, hnew⟩
  unfold State.addCause
  simp only [hfind, hwhere, hk, hstands, Bool.false_eq_true, if_false]

end Sys2Proof.Machine

namespace Sys2Proof.Machine

theorem calm_rewrite {s : State} (h : s.calm) (k : Nat) {f : EventRec → EventRec} (hf : ∀ e, (f e).surge = e.surge) :
    (s.rewrite k f).calm := by
  obtain ⟨hm, hfill, hcap, hin⟩ := h
  refine ⟨by simpa using hm, fun hs j hj r hr => ?_, by simpa using hcap, by simpa using hin⟩
  have hs' : s.sup.surge = true := by simpa using hs
  have hj' : j ∈ s.ev.filling := by simpa using hj
  cases hk : s.ev.at k with
  | none =>
    have hsame : s.rewrite k f = s := by
      unfold State.rewrite
      rw [hk]
    rw [hsame] at hr
    exact hfill hs' j hj' r hr
  | some e =>
    obtain ⟨h1, h2, -⟩ := rewrite_at hk f
    rcases eq_or_ne j k with rfl | hne
    · obtain rfl : e.rewritten f = r := Option.some.inj (h1.symm.trans hr)
      exact (hf e).trans (hfill hs' j hj' e hk)
    · exact hfill hs' j hj' r ((h2 j hne).symm.trans hr)

/-- A state in which a due cause is handled is calm and at rest as the one before it. -/
theorem State.CauseTaken.calm {s b : State} (h : s.CauseTaken b) (hc : s.calm) : b.calm :=
  calm_of_less hc (by rw [h.chain]) (by rw [h.sup]) (by rw [h.sup]; exact id) h.ev (by rw [h.plan])

theorem State.CauseTaken.restful {s b n : State} (h : s.CauseTaken b) (hr : s.restful) (h1 : n.power = b.power)
    (h2 : n.chain = b.chain) (h3 : n.plan = b.plan) (h4 : n.upd = b.upd) : n.restful :=
  restful_of_same hr (h1.trans h.power) (h2.trans h.chain) (by rw [h3, h.plan]) (by rw [h3, h.plan]) (h4.trans h.upd)

theorem causeListed_goes {c : Instr} {s b : State} {r : CauseRec} {o : Opening} (hb : s.CauseTaken b)
    (hex : exec c s = s.react (b.causeDue r)) (hc : s.calm) (hr : s.restful) (hst : s.sup.state = .opening)
    (ho : s.sup.opening = some o) (hn : r.cause ∈ o.causes) :
    Goes c s fun t => t.sup.opening = s.sup.opening ∧ ∀ j, t.ev.at j = s.ev.at j := by
  have hop : b.sup.opening = s.sup.opening := by rw [hb.sup]
  rw [causeDue_listed r (by rw [hb.sup]; exact hst) (hop.trans ho) hn] at hex
  refine goes_shown_react _ hex (hb.restful hr rfl rfl rfl rfl) (hb.calm hc) (by rw [hb.chain]; exact id) ⟨hop, fun j => ?_⟩
  exact congrArg (fun v => v.at j) hb.ev

theorem causeJoins_goes {c : Instr} {s b : State} {r : CauseRec} {o : Opening} {k : Nat} {e : EventRec} (hb : s.CauseTaken b)
    (hex : exec c s = s.react (b.causeDue r)) (hc : s.calm) (hr : s.restful) (hst : s.sup.state = .opening)
    (ho : s.sup.opening = some o) (hn : r.cause ∉ o.causes) (hin : ∀ y ∈ s.ev.inbox, y.adding = false)
    (hk : s.ev.at k = some e) (ha : e.adding = true) (hone : ∀ j e', j ≠ k → s.ev.at j = some e' → e'.adding = false)
    (hkind : e.kind = .autoOpen → e.cause ≠ r.cause.code) (hnew : ∀ y ∈ e.causes, y.cause ≠ r.cause) :
    Goes c s fun t =>
      t.sup.state = .opening ∧ t.sup.opening = some { o with causes := o.causes ++ [r.cause] }
        ∧ t.ev.at k = some { e with
            causes := e.causes ++ [r]
            revision := if e.complete then bump 255 e.revision else e.revision }
        ∧ (e.complete = true → t.attn.pending .eventNew = true) ∧ (∀ j, j ≠ k → t.ev.at j = s.ev.at j)
        ∧ s.sameAround t := by
  have hbst : b.sup.state = .opening := by rw [hb.sup]; exact hst
  have hbop : b.sup.opening = some o := by rw [hb.sup]; exact ho
  obtain ⟨z, hz⟩ : ∃ z : State, z = { b with sup.opening := some { o with causes := o.causes ++ [r.cause] } } := ⟨_, rfl⟩
  have hzev : z.ev = s.ev := by rw [hz]; exact hb.ev
  have hzk : z.ev.at k = some e := by rw [hzev, hk]
  have hzcalm : z.calm := by
    rw [hz]
    exact calm_of_less (hb.calm hc) rfl rfl id rfl rfl
  rw [causeDue_joins r hbst hbop hn, ← hz, addCause_record (by rwa [hzev]) hzk ha (by rwa [hzev]) hkind hnew] at hex
  obtain ⟨hat, hother, hnewRev⟩ := rewrite_at hzk fun x => { x with causes := x.causes ++ [r] }
  refine goes_shown_react _ hex ?_ (calm_rewrite hzcalm k fun _ => rfl) ?_ ⟨?_, ?_, hat, hnewRev, fun j hj => ?_, ?_⟩
  · exact hb.restful hr (by simp [hz]) (by simp [hz]) (by simp [hz]) (by simp [hz])
  · simp [hz, hb.chain]
  · simp [hz, hbst]
  · simp [hz]
  · exact (hother j hj).trans (by rw [hzev])
  · have haround : s.sameAround z := by rw [hz]; exact hb.sameAround
    simpa [State.sameAround] using haround

end Sys2Proof.Machine

namespace Sys2Proof.Machine

theorem mem_slips_opening {s : State} {o : Opening} {k : Nat} (h : s.sup.opening = some o) (hk : k ∈ o.slots) : k ∈ s.slips := by
  simp [State.slips, h, hk]

theorem takeOpen_opens {s : State} (k : Nat) (h : s.sup.state.isClosing = true) :
    s.takeOpen k = s.startOpening (some k) s.deferralCauses := by
  unfold State.takeOpen
  split <;> rename_i hst
  · rfl
  · rfl
  · rfl
  all_goals simp [hst, SupState.isClosing] at h

/-- An OPEN slip begins an opening and waits on it (R79). -/
theorem post_opens {s : State} {x : Sample} {w : Word} {rest : List Word} {k : Nat} (hx : s.newest = some x)
    (hs : s.slipsRight) (h : postedSlip s w rest k (some .open_)) (hc : s.canonical) (hcalm : s.calm) (hr : s.restful)
    (hp : s.power.state ≠ .enteringDeep) (hcl : s.sup.state.isClosing = true) :
    Goes .post s fun t =>
      t.sup.state = .opening ∧ t.sup.mainPos.on = false ∧ t.sup.precharge.on = false
        ∧ t.sup.mainNeg = s.sup.mainNeg ∧ t.sup.opening = some ⟨[k], x.i, s.deferralCauses.map (·.cause), s.now⟩
        ∧ t.sup.close = none ∧ t.sup.deferral = none ∧ stillTaken t k
        ∧ (∀ c, s.sup.close = some c → s.inFlight c.slot → t.showsDone c.slot 5 0)
        ∧ t.ev.inbox = s.ev.inbox
            ++ ⟨.opened, 0, s.sup.coils, ⟨s.sup.mainNeg.on, false, false⟩, .release x.i, s.deferralCauses,
                s.deferralLength, true, false, false⟩
              :: (if s.store.active.breakLimit ≤ (x.i.natAbs : Int) then
                [⟨.highCurrentBreak, 0, s.sup.coils, ⟨s.sup.mainNeg.on, false, false⟩, .release x.i, [], none, false,
                  true, false⟩] else [])
        ∧ (s.sup.mainPos.on = true → (∀ q ∈ s.store.queue, ∀ d, q.payload ≠ .wearPos d) →
            t.store.queue = s.store.queue ++ [⟨.wearPos (releaseWear s x.i), [.wear]⟩])
        ∧ t.attn.pending .contactorChange = true ∧ t.sup.once = s.sup.once
        ∧ State.sameAround { s with port.notes := rest } t := by
  obtain ⟨-, -, -, hk, hpost, -⟩ := id h
  have hfreeSlot : getAt s.port.slots k = some none := of_decide_eq_true (Bool.and_eq_true_iff.1 hpost).1
  have hright := copyAndTake_right (s := { s with port.notes := rest }) hk hfreeSlot hs
  obtain ⟨y, hy⟩ : ∃ y, y = takenSlip s rest k := ⟨_, rfl⟩
  have hex := post_react h hp
  rw [← hy] at hex
  obtain ⟨hyr, hyout, hyin⟩ : y.slipsRight ∧ k ∉ y.slips ∧ y.inFlight k := by rw [hy]; exact hright
  have hyc : y.canonical := by
    rw [hy]
    exact store_wf hc
  have hyx : y.newest = some x := by rw [hy]; exact hx
  have hysup : y.sup = s.sup := by rw [hy]; rfl
  have hyev : y.ev = s.ev := by rw [hy]; rfl
  have hystore : y.store = s.store := by rw [hy]; rfl
  have hynow : y.now = s.now := by rw [hy]; rfl
  have hycauses : y.deferralCauses = s.deferralCauses := by rw [hy]; rfl
  have hylen : y.deferralLength = s.deferralLength := by rw [hy]; rfl
  obtain ⟨n, hn⟩ : ∃ n, n = y.openingSent (some k) s.deferralCauses := ⟨_, rfl⟩
  have hhand : y.handSlip k .open_ (slipArgs s k) = n := by
    show y.takeOpen k = n
    rw [takeOpen_opens k (by rw [hysup]; exact hcl), hycauses, startOpening_slip, hn]
  rw [hhand] at hex
  obtain ⟨hst, hpos, hpre, hneg, hop, hdef, honce, hclose, hchain, hsto⟩ := openingSent_fields hyx (some k) s.deferralCauses
  obtain ⟨-, -, -, -, -, -, -, hbclose, -, -, -, hbport, hchange⟩ := openingBegun_fields hyx (some k) s.deferralCauses
  rw [← hn] at hst hpos hpre hneg hop hdef honce hclose hchain hsto
  have hfollow : (y.openingBegun (some k) s.deferralCauses).abortClose.Follows n := by
    rw [hn]
    exact follows_openingSent y (some k) s.deferralCauses
  have hstart : y.startOpening (some k) s.deferralCauses = n := by rw [startOpening_slip, hn]
  have hfr : n.restful := by
    rw [← hstart]
    refine restful_of_same hr (by simp [hy, takenSlip]) ?_ (by simp [hy, takenSlip]) (by simp [hy, takenSlip]) (by simp [hy, takenSlip])
    rw [hstart, hchain, hy]
    rfl
  have hafter : (y.openingBegun (some k) s.deferralCauses).abortClose.Serves (State.finish s n) :=
    hfollow.toServes.trans follows_finish.toServes
  have hacc : State.Accepts k y (State.finish s n) :=
    ((accepts_openingBegun y k s.deferralCauses).trans (follows_abortClose _)).trans (hfollow.trans follows_finish)
  have haround : State.sameAround { s with port.notes := rest } n := by
    rw [← hstart]
    exact sameAround_startOpening (by simp [State.sameAround, hy, takenSlip]) hyx _ _
  refine goes_react _ hex ?_
  rw [settle_restful hfr]
  have htop : (State.finish s n).sup.opening = some ⟨[k], x.i, s.deferralCauses.map (·.cause), s.now⟩ := by
    simp only [finish_frame, hop, hynow]
    rfl
  refine ⟨?_, ?_, ?_, ?_, htop, ?_, ?_, ?_, fun cl hcls hi => ?_, ?_, fun hon hq => ?_, hafter.pending _ ((follows_abortClose _).pending _ hchange),
    ?_, ?_⟩
  · simp only [finish_frame, hst]
  · simp only [finish_frame, hpos]
  · simp only [finish_frame, hpre]
  · simp only [finish_frame, hneg, hysup]
  · simp only [finish_frame, hclose]
  · simp only [finish_frame, hdef]
  · exact stillTaken_of_accepts hyr hyout hyin hc (by rw [hy]; rfl) hacc (mem_slips_opening htop (by simp))
  · have hbegun := (accepts_openingBegun y k s.deferralCauses).wf hyc
    have hycl : y.sup.close = some cl := by rw [hysup, hcls]
    have hyi : y.inFlight cl.slot := hyr.2 _ (by simp [State.slips, hycl])
    have hin : (y.openingBegun (some k) s.deferralCauses).inFlight cl.slot := by
      unfold State.inFlight
      rwa [hbport]
    exact hafter.showsDone ((follows_abortClose _).wf hbegun) hi.1 (abortClose_showsDone (hbclose.trans hycl) hbegun hin)
  · obtain ⟨-, -, -, hfresh⟩ := hcalm
    rw [finish_inbox, hn, openingSent_inbox hyx (by rwa [hyev]) (some k) s.deferralCauses, openingEvent_slip hyx, breakEvent_eq hyx,
      hyev, hystore, hysup, hylen]
  · have hwear : releaseWear y x.i = releaseWear s x.i := by unfold releaseWear; rw [hystore]
    have hyon : y.sup.mainPos.on = true := (congrArg (fun p => p.mainPos.on) hysup).trans hon
    have hyq : ∀ q ∈ y.store.queue, ∀ d, q.payload ≠ .wearPos d := by rwa [hystore]
    simp only [finish_frame, hsto]
    rw [releasePos_queue hyx hyon hyq, hystore, hwear]
  · simp only [finish_frame, honce, hysup]
  · simpa [State.sameAround] using haround

/-- An OPEN slip during an opening waits on it (R79). -/
theorem post_waits {s : State} {w : Word} {rest : List Word} {k : Nat} {o : Opening}
    (h : postedSlip s w rest k (some .open_)) (hcalm : s.calm) (hr : s.restful) (hp : s.power.state ≠ .enteringDeep)
    (hst : s.sup.state = .opening) (ho : s.sup.opening = some o) :
    exec .post s = .next { takenSlip s rest k with sup.opening := some { o with slots := o.slots ++ [k] } } := by
  have hhand : (takenSlip s rest k).handSlip k .open_ (slipArgs s k)
      = { takenSlip s rest k with sup.opening := some { o with slots := o.slots ++ [k] } } := by
    show (takenSlip s rest k).takeOpen k = _
    simp [State.takeOpen, takenSlip, hst, ho]
  exact next_react (by rw [post_react h hp, hhand]) (restful_of_same hr rfl rfl rfl rfl rfl)
    (calm_of_less hcalm rfl rfl id rfl rfl) (by simp [State.shownAlike, takenSlip, contactorBytes, Sup.coils, Sup.surge])

/-- A cause that meets a high current is deferred (R87, R88). -/
theorem cause_deferred {c : Instr} {s b : State} {r : CauseRec} {x : Sample} (hx : s.newest = some x) (hb : s.CauseTaken b)
    (hex : exec c s = s.react (b.causeDue r)) (hcl : s.sup.state.isClosing = true) (hd : s.sup.deferral = none)
    (hi : s.store.active.breakLimit ≤ (x.i.natAbs : Int)) :
    Goes c s fun t =>
      t.sup.state = s.sup.state ∧ t.sup.coils = s.sup.coils ∧ t.sup.close = s.sup.close
        ∧ t.sup.opening = s.sup.opening
        ∧ t.sup.deferral = some ⟨s.now, s.store.active.deferral.toNat, [r]⟩ ∧ t.sup.once = s.sup.once
        ∧ s.sameAround t := by
  rw [causeDue_defers (hb.newest.trans hx) r (by rw [hb.sup]; exact hcl) (by rw [hb.sup]; exact hd) (by rwa [hb.store])] at hex
  have hcoils : b.sup.coils = s.sup.coils := hb.coils
  have hsup := hb.sup
  refine goes_react _ hex ⟨?_, ?_, ?_, ?_, ?_, ?_, sameAround_finish (sameAround_settle hb.sameAround)⟩
  · simp only [finish_frame, settle_frame]
    rw [hsup]
  · simp only [Sup.coils, finish_frame, settle_frame]
    exact hcoils
  · simp only [finish_frame, settle_frame]
    rw [hsup]
  · simp only [finish_frame, settle_frame]
    rw [hsup]
  · simp only [finish_frame, settle_frame, hb.now, hb.store]
  · simp only [finish_frame, settle_frame]
    rw [hsup]

/-- Settles O57. -/
theorem causesOpen : Obligations.CausesOpen := by
  unfold Obligations.CausesOpen
  intro x s hx hs
  refine ⟨fun c r hdue hcl hd => ?_, fun d hd ht => ?_, fun c r o hdue hc hr hst ho => ?_,
    fun w rest k h hc hcalm hr hp => ⟨post_opens hx hs h hc hcalm hr hp, fun o => post_waits h hcalm hr hp⟩⟩
  · obtain ⟨b, hb, hex⟩ := fallsDue_react hdue (by cases hst : s.sup.state <;> simp_all [SupState.isClosing, SupState.atRest])
    refine ⟨fun hi => opens_autonomously hx hs hb (hex.trans (congrArg s.react ?_)), cause_deferred hx hb hex hcl hd⟩
    exact causeDue_opens (hb.newest.trans hx) r (by rw [hb.sup]; exact hcl) (by rw [hb.sup]; exact hd) (by rwa [hb.store])
  · have hex : exec .deferralLimit s = s.react (s.startOpening none d.causes) := by
      show execDeferralLimit s = _
      simp [execDeferralLimit, State.endDeferral, hd, ht]
    exact opens_autonomously hx hs (causeTaken_self s) hex
  · obtain ⟨b, hb, hex⟩ := fallsDue_react hdue (by rw [hst]; rfl)
    exact ⟨causeListed_goes hb hex hc hr hst ho, fun k e => causeJoins_goes hb hex hc hr hst ho⟩

end Sys2Proof.Machine

namespace Sys2Proof.Machine

/-! ### What keeps the shape of a part and its recorded slips (R178, R179) -/

theorem State.Steady.trans {s t u : State} (h : s.Steady t) (g : t.Steady u) : s.Steady u :=
  ⟨fun hs => g.shape (h.shape hs), fun hs => g.slips (h.slips hs)⟩

/-- Two states with the same slots, the same recorded slips and the same sizes. -/
def State.Alike (s t : State) : Prop := t.port.slots = s.port.slots ∧ t.slips = s.slips ∧ t.sizes = s.sizes

theorem steady_of_alike {s t : State} (h : s.Alike t) : s.Steady t := by
  obtain ⟨hp, hl, hz⟩ := h
  exact ⟨shaped_of_sizes hz, fun hs => slipsRight_of_same hs hl hp⟩

theorem steady_self (s : State) : s.Steady s := steady_of_alike ⟨rfl, rfl, rfl⟩

/-- What leaves the slots and the sizes alone, and records no slip that was not recorded. -/
theorem steady_of_count {s t : State} (hp : t.port.slots = s.port.slots) (hc : ∀ k, t.slips.count k ≤ s.slips.count k)
    (hz : t.sizes = s.sizes) : s.Steady t :=
  ⟨shaped_of_sizes hz, fun hs => slipsRight_of_count hs hc fun k _ => by rw [hp]⟩

/-- A block's bookkeeping after what keeps the shape and the slips. -/
theorem State.Steady.after {s t u : State} (h : s.Steady t) (g : t.Alike u) : s.Steady u := h.trans (steady_of_alike g)

/-- A block's bookkeeping before what keeps the shape and the slips. -/
theorem State.Steady.before {s t u : State} (h : t.Steady u) (g : s.Alike t) : s.Steady u := (steady_of_alike g).trans h

/-- A block that has dropped a slip that it recorded completes it. -/
theorem State.Steady.ends {s u : State} {k : Nat} (h : s.Steady u)
    (hc : ∀ j, u.slips.count j + (if j = k then 1 else 0) ≤ s.slips.count j) (r : Result) : s.Steady (u.complete k r) := by
  refine ⟨fun hs => shaped_of_sizes (complete_sizes u k r) (h.shape hs), fun hs =>
    slipsRight_complete (h.slips hs) (fun hm => ?_) r⟩
  have h1 := List.nodup_iff_count_le_one.1 hs.1 k
  have h2 := List.count_pos_iff.2 hm
  have h3 := hc k
  rw [if_pos rfl] at h3
  omega

/-- A block drops a slip that it recorded, and the slip is completed. -/
theorem steady_drops {s u : State} {k : Nat} (hsame : u.port.slots = s.port.slots ∧ u.sizes = s.sizes)
    (hc : ∀ j, u.slips.count j + (if j = k then 1 else 0) ≤ s.slips.count j) (r : Result) : s.Steady (u.complete k r) :=
  (steady_of_count hsame.1 (fun j => (Nat.le_add_right _ _).trans (hc j)) hsame.2).ends hc r

/-- What a step without reactions, or with them, keeps of the state whose step it is. -/
theorem State.Steady.finishes {s n o : State} (h : s.Steady n) : s.Steady (State.finish o n) := h.trans follows_finish.toSteady

theorem State.Steady.reacts {s n o : State} (h : s.Steady n) : s.Steady (State.finish o n.settle) :=
  (h.trans (follows_settle n).toSteady).finishes

theorem steady_raise (s : State) (f : Factor) : s.Steady (s.raise f) := (follows_raise s f).toSteady

theorem steady_put (s : State) (a : Nat) (bs : List Byte) : s.Steady (s.put a bs) := steady_of_alike ⟨rfl, rfl, rfl⟩

theorem steady_editModule (s : State) (a : Nat) (f : ModuleEntry → ModuleEntry) : s.Steady (s.editModule a f) :=
  (follows_editModule s a f).toSteady

/-! ### The cell chain's exchanges (chapter 1) -/

theorem steady_countError (s : State) (us : Us) : s.Steady (s.countError us) :=
  steady_of_alike (by simp [State.Alike, State.slips, State.sizes])

theorem steady_raiseFault (e : ModuleEntry) (c : Option FaultCause) (s : State) : s.Steady (raiseFault e c s) := by
  unfold raiseFault
  split
  · exact steady_self s
  · exact steady_raise s _

theorem steady_miss (s : State) (a : Nat) : s.Steady (s.miss a) := by
  unfold State.miss
  split
  · exact steady_self s
  · split
    · split
      · exact steady_editModule _ _ _
      · exact (steady_editModule _ _ _).trans (steady_raise _ _)
    · split
      · exact steady_editModule _ _ _
      · exact (steady_editModule _ _ _).trans (steady_raise _ _)
    · split
      · exact steady_editModule _ _ _
      · exact steady_self s
    all_goals exact steady_self s

theorem steady_goodReply (s : State) (a : Nat) (status : ModuleStatus) (version : Half) : s.Steady (s.goodReply a status version) := by
  unfold State.goodReply
  split
  · exact steady_self s
  · split
    · exact steady_self s
    · split
      · exact (steady_editModule _ _ _).trans (steady_raiseFault _ _ _)
      · exact steady_editModule _ _ _

theorem steady_editHeld (s : State) {f : Capture → Capture} (h : ∀ c, (f c).slot = c.slot) : s.Steady (s.editHeld f) :=
  (follows_captures s (f := fun c => if c.holding then f c else c) fun c => by split <;> simp [h]).toSteady

theorem steady_kept (s : State) {l : List (Option Reading)} (h : l.length = s.plan.kept.length) :
    s.Steady { s with plan.kept := l } :=
  steady_of_alike ⟨rfl, rfl, by simp [State.sizes, h]⟩

theorem steady_settleItem (s : State) (a : Nat) (r : Option Reading) (st : Option ModState) : s.Steady (s.settleItem a r st) := by
  unfold State.settleItem
  simp only []
  split
  · refine State.Steady.trans ?_ (steady_kept _ (modifyAddr_length _ _ _))
    exact steady_editHeld s fun _ => rfl
  · exact steady_editHeld s fun _ => rfl

theorem steady_settleOld (s : State) (a : Nat) (st : Option ModState) : s.Steady (s.settleOld a st) := steady_settleItem _ _ _ _

theorem steady_settleGood (s : State) (a : Nat) (codes : List Half) (st : Option ModState) : s.Steady (s.settleGood a codes st) := by
  unfold State.settleGood
  split
  · exact steady_self s
  · split
    · exact steady_self s
    · exact steady_settleItem _ _ _ _

theorem steady_endHold (s : State) : s.Steady s.endHold := by
  refine steady_of_count rfl (fun j => ?_) rfl
  have hsplit : ∀ l : List Capture, ((l.filter fun c => !c.holding).filterMap (·.slot)).count j
      + (((l.filter Capture.holding).map fun c => { c with stage := .building }).filterMap (·.slot)).count j
        = (l.filterMap (·.slot)).count j := by
    intro l
    induction l with
    | nil => rfl
    | cons c l ih =>
      cases hh : c.holding <;> cases hs : c.slot <;>
        simp only [List.filter_cons, hh, Bool.not_true, Bool.not_false, if_true, List.filterMap_cons, hs, List.map_cons,
          List.count_cons, Bool.false_eq_true, if_false] at ih ⊢ <;> omega
  simp only [slips_count, State.endHold, List.filterMap_append, List.count_append, hsplit, le_refl]

theorem steady_nextRead (l : List Item) (s : State) : s.Steady (State.nextRead l s) := by
  induction l generalizing s with
  | nil => exact steady_endHold s
  | cons m l ih =>
    unfold State.nextRead
    split
    · exact ih s
    · split
      · split
        · exact steady_self s
        · exact steady_of_alike ⟨rfl, rfl, rfl⟩
      · exact (steady_settleOld _ _ _).trans (ih _)

theorem steady_abandonReads (s : State) : s.Steady s.abandonReads := by
  have hall : ∀ (l : List Item) (u : State), u.Steady (l.foldl (fun s m => s.settleOld m.addr none) u) := by
    intro l
    induction l with
    | nil => exact steady_self
    | cons m l ih => exact fun u => (steady_settleOld _ _ _).trans (ih _)
  unfold State.abandonReads
  split
  · exact steady_self s
  · exact (hall _ _).trans (steady_endHold _)

theorem steady_captureGoesOn (s : State) : s.Steady s.captureGoesOn := by
  unfold State.captureGoesOn
  split
  · exact steady_abandonReads s
  · unfold State.readOn
    split
    · exact steady_self s
    · exact steady_nextRead _ _

theorem steady_readMissed (s : State) (us : Us) (a : Nat) : s.Steady (s.readMissed us a) :=
  (steady_countError s us).trans ((steady_miss _ _).trans ((steady_settleOld _ _ _).trans (steady_captureGoesOn _)))

theorem steady_readGood (s : State) (a : Nat) (codes : List Half) (status : ModuleStatus) (version : Half) :
    s.Steady (s.readGood a codes status version) :=
  (steady_goodReply _ _ _ _).trans ((steady_settleGood _ _ _ _).trans (steady_captureGoesOn _))

end Sys2Proof.Machine

namespace Sys2Proof.Machine

/-! ### The update engine on the chain (chapter 8) -/

theorem steady_endUpdate (s : State) (o : UpdOutcome) (code : ResultCode) (cause : Option ResultCause) :
    s.Steady (s.endUpdate o code cause) := (follows_endUpdate s o code cause).toSteady

theorem steady_endAborted (s : State) : s.Steady s.endAborted := steady_endUpdate s _ _ _

theorem steady_nextRecord (n : Nat) (s : State) : s.Steady (State.nextRecord n s) := (follows_nextRecord n s).toSteady

theorem steady_askChain (s : State) (r : FwReq) : s.Steady (s.askChain r) := (follows_askChain s r).toSteady

theorem steady_backInService (s : State) (a : Nat) : s.Steady (s.backInService a) :=
  (steady_editModule _ _ _).before ⟨rfl, rfl, rfl⟩

theorem steady_afterJudged (s : State) : s.Steady s.afterJudged := by
  unfold State.afterJudged
  simp only []
  split
  · exact (steady_endAborted _).before ⟨rfl, rfl, rfl⟩
  · exact (follows_nextSwitch _ _).toSteady.before ⟨rfl, rfl, rfl⟩

theorem steady_engineEcho (s : State) (a : Nat) (version : Half) : s.Steady (s.engineEcho a version) := by
  unfold State.engineEcho
  simp only []
  split
  · split
    · split
      · refine State.Steady.trans ?_ (steady_afterJudged _)
        exact (steady_backInService _ _).before ⟨rfl, rfl, rfl⟩
      · exact steady_of_alike ⟨rfl, rfl, rfl⟩
    · exact steady_of_alike ⟨rfl, rfl, rfl⟩
  · exact steady_of_alike ⟨rfl, rfl, rfl⟩

theorem steady_rollBack (s : State) (w : SwitchWindow) (t : Turn) (d : DistRec) : s.Steady (s.rollBack w t d) :=
  (steady_afterJudged _).before ⟨rfl, rfl, rfl⟩

theorem steady_blockEnded (s : State) (o : BlockOutcome) : s.Steady (s.blockEnded o) := by
  unfold State.blockEnded
  split
  · exact steady_self s
  · simp only []
    generalize hu : (if o = .acked then State.editDist { s with upd.link := .none } _ _ else _) = u
    have hsu : s.Alike u := by
      rw [← hu]
      split <;> exact ⟨rfl, rfl, rfl⟩
    have hnext : ∀ v : State, u.Alike v → s.Steady (State.nextRecord 24 v) := fun v hv =>
      ((steady_nextRecord _ _).before hv).before hsu
    have hask : ∀ v : State, u.Alike v → s.Steady (v.askChain .block) := fun v hv =>
      ((steady_askChain _ _).before hv).before hsu
    split
    · have habort : ∀ v : State, u.Alike v → s.Steady v.endAborted := fun v hv =>
        ((steady_endAborted _).before hv).before hsu
      exact habort _ ⟨rfl, rfl, rfl⟩
    · split
      · exact hnext _ ⟨rfl, rfl, rfl⟩
      · cases o with
        | acked =>
          simp only []
          split
          · exact hask _ ⟨rfl, rfl, rfl⟩
          · exact hnext _ ⟨rfl, rfl, rfl⟩
        | failed =>
          simp only []
          split
          · exact hask _ ⟨rfl, rfl, rfl⟩
          · exact hnext _ ⟨rfl, rfl, rfl⟩
        | mismatch =>
          simp only []
          split
          · exact hask _ ⟨rfl, rfl, rfl⟩
          · exact hnext _ ⟨rfl, rfl, rfl⟩

theorem steady_pauseLimit (s : State) : s.Steady s.pauseLimit := by
  unfold State.pauseLimit
  split
  · exact (steady_endUpdate _ _ _ _).before ⟨rfl, rfl, rfl⟩
  · simp only []
    split
    · exact steady_endUpdate _ _ _ _
    · exact (steady_backInService _ _).trans (steady_endUpdate _ _ _ _)
  · exact steady_self s

/-! ### The survey (R10 to R13) -/

theorem steady_compare (s : State) (a : Nat) (v : SurveyEntry) : s.Steady (s.compare a v) := by
  unfold State.compare
  simp only []
  split
  · exact steady_self s
  · split
    · exact steady_self s
    · split
      · split
        · exact steady_editModule _ _ _
        · exact steady_self s
      · split
        · exact (steady_editModule _ _ _).trans (steady_raiseFault _ _ _)
        · split
          · exact (steady_editModule _ _ _).trans (steady_editModule _ _ _)
          · exact ((steady_editModule _ _ _).trans (steady_editModule _ _ _)).trans (steady_raiseFault _ _ _)

theorem steady_askStop (s : State) : s.Steady s.askStop := (follows_askStop s).toSteady

theorem steady_sendStill (s : State) (k : EventKind) (c : Nat) (d : Detail) : s.Steady (s.sendStill k c d) :=
  (follows_sendStill s k c d).toSteady

theorem steady_becomeDown (s : State) (o : Option ChainState) (n : Nat) : s.Steady (s.becomeDown o n) :=
  ((steady_raise _ _).trans (steady_sendStill _ _ _ _)).before ⟨rfl, rfl, rfl⟩

/-- The end of a survey before its SURVEY slip is answered. -/
theorem steady_slipSurveyed (s : State) : s.Steady s.slipSurveyed := by
  unfold State.slipSurveyed
  split
  · exact steady_self s
  · next k hk =>
    refine steady_drops (s := s) (u := { s with chain.surveySlip := none }) ⟨rfl, rfl⟩ (fun j => ?_) _
    simp only [slips_count, hk, Option.toList_none, List.count_nil, Option.toList_some, List.count_singleton, beq_iff_eq,
      eq_comm (a := k)]
    omega

theorem steady_endSurvey (s : State) : s.Steady s.endSurvey := by
  have hcount : s.Steady s.counted := steady_of_alike ⟨rfl, rfl, rfl⟩
  have hslip : ∀ u : State, s.Steady u → s.Steady (u.raise .surveyDone).slipSurveyed := fun u h =>
    h.trans ((steady_raise _ _).trans (steady_slipSurveyed _))
  cases h : s.chain.matched with
  | true =>
    rw [endSurvey_up h]
    have hup : s.counted.Steady s.counted.cameUp := by
      unfold State.cameUp
      split
      · exact ((steady_raise _ _).trans (steady_sendStill _ _ _ _)).before ⟨rfl, rfl, rfl⟩
      · exact steady_of_alike ⟨rfl, rfl, rfl⟩
    refine hslip _ (hcount.trans (hup.trans ?_))
    unfold State.firstStop
    split
    · exact steady_self _
    · exact (steady_askStop _).before ⟨rfl, rfl, rfl⟩
  | false =>
    rw [endSurvey_down h]
    refine hslip _ (hcount.trans ?_)
    unfold State.foundDown
    split
    · exact steady_of_alike ⟨rfl, rfl, rfl⟩
    · exact steady_becomeDown _ _ _

theorem steady_settleAddr (s : State) (a : Nat) (v : SurveyEntry) : s.Steady (s.settleAddr a v) := by
  have hput : s.Steady (State.put { s with chain.survey := modifyAddr s.chain.survey a fun _ => v } (surveyAt a)
      (surveyBytes v)) := steady_of_alike ⟨rfl, rfl, by simp [State.sizes]⟩
  unfold State.settleAddr
  simp only []
  split
  · exact (hput.trans (steady_compare _ _ _)).after ⟨rfl, rfl, rfl⟩
  · exact (hput.trans (steady_compare _ _ _)).trans (steady_endSurvey _)

theorem steady_surveyFailed (s : State) (a : Nat) (second : Bool) : s.Steady (s.surveyFailed a second) := by
  unfold State.surveyFailed
  split
  · exact steady_settleAddr _ _ _
  · exact steady_of_alike ⟨rfl, rfl, rfl⟩

/-! ### The answers (R3, R17, R18, R23, R158) -/

theorem steady_balanceNext (s : State) : s.Steady s.balanceNext := (follows_balanceNext s).toSteady

theorem steady_balanceAnswered (s : State) (acked : Bool) : s.Steady (s.balanceAnswered acked) := by
  unfold State.balanceAnswered
  split
  · exact steady_self s
  · next b hb =>
    split
    · exact steady_balanceNext s
    · simp only []
      split
      · refine State.Steady.trans ?_ (steady_balanceNext _)
        exact (steady_editModule _ _ _).after ⟨rfl, by simp [State.slips, State.editModule, hb], rfl⟩
      · split
        · exact steady_balanceNext s
        · exact (steady_balanceNext _).before ⟨rfl, by simp [State.slips, hb], rfl⟩

theorem steady_endExchange (s : State) : s.Steady s.endExchange := steady_of_alike ⟨rfl, rfl, rfl⟩

theorem steady_firmwareFailed (s : State) (us : Us) (r : FwReq) (live : Bool) : s.Steady (s.firmwareFailed us r live) := by
  have hcount := (steady_endExchange s).trans (steady_countError _ us)
  unfold State.firmwareFailed
  simp only []
  split
  · exact hcount.trans (steady_blockEnded _ _)
  · exact hcount

theorem steady_answerFailed (s : State) (us : Us) (f : Frame) : s.Steady (s.answerFailed us f) := by
  have hcount := (steady_endExchange s).trans (steady_countError _ us)
  unfold State.answerFailed
  split
  · exact steady_surveyFailed _ _ _
  · exact steady_readMissed _ _ _
  · exact steady_firmwareFailed _ _ _ _
  · exact hcount.trans (steady_balanceAnswered _ _)
  all_goals exact hcount

theorem steady_echoed (s : State) (a : Nat) (version : Half) : s.Steady (s.echoed a version) := by
  unfold State.echoed
  simp only []
  split
  · exact (steady_backInService _ _).trans (steady_editModule _ _ _)
  · exact steady_editModule _ _ _

theorem steady_echoGood (s : State) (a : Nat) (v : SurveyEntry) : s.Steady (s.echoGood a v) := by
  unfold State.echoGood
  split
  · exact ((steady_echoed _ _ _).trans (steady_engineEcho _ _ _)).trans (steady_settleAddr _ _ _)
  · exact ((steady_endExchange _).trans (steady_echoed _ _ _)).trans (steady_engineEcho _ _ _)

theorem steady_blockAcked (s : State) (index : Half) (toggle : Bool) (crc : Half) : s.Steady (s.blockAcked index toggle crc) := by
  unfold State.blockAcked
  split
  · exact (steady_endExchange s).trans (steady_blockEnded _ _)
  · exact steady_endExchange s

end Sys2Proof.Machine

namespace Sys2Proof.Machine

/-! ### The contactor supervisor (chapter 4) -/

theorem steady_toSup (s : State) (st : SupState) : s.Steady (s.toSup st) := (follows_toSup s st).toSteady

theorem steady_requestWrite (s : State) (p : Payload) (who : Requester) : s.Steady (s.requestWrite p who) :=
  (follows_requestWrite s p who).toSteady

theorem steady_send (s : State) (e : SentEvent) : s.Steady (s.send e) := steady_of_alike ⟨rfl, rfl, rfl⟩

/-- A block drops slips that it recorded, and they are completed. -/
theorem State.Steady.endsAll {s u : State} (l : List Nat) (h : s.Steady u)
    (hc : ∀ j, u.slips.count j + l.count j ≤ s.slips.count j) (r : Result) : s.Steady (u.completeAll l r) := by
  induction l generalizing u with
  | nil => exact h
  | cons k l ih =>
    rw [completeAll_cons]
    have hcons : ∀ j, (k :: l).count j = l.count j + if j = k then 1 else 0 := fun j => by
      rw [List.count_cons]
      exact congrArg _ (if_congr (beq_iff_eq.trans eq_comm) rfl rfl)
    refine ih (h.ends (k := k) (fun j => ?_) r) fun j => ?_
    · have := hc j
      rw [hcons] at this
      omega
    · have := hc j
      rw [hcons] at this
      rw [complete_slips]
      omega

/-- The supervisor drops its CLOSE, and the slip completes. -/
theorem steady_closeEnds {s u : State} {c : Close} (h : s.sup.close = some c) (hp : u.port.slots = s.port.slots) (hz : u.sizes = s.sizes)
    (hl : u.slips = State.slips { s with sup.close := none }) (r : Result) : s.Steady (u.complete c.slot r) := by
  refine steady_drops ⟨hp, hz⟩ (fun j => ?_) r
  rw [hl]
  simp only [slips_count, h, Option.map_none, Option.map_some, Option.toList_none, List.count_nil, Option.toList_some,
    List.count_singleton, beq_iff_eq, eq_comm (a := c.slot)]
  omega

/-- The supervisor drops its CLEAR_LOCKOUT, and the slip completes. -/
theorem steady_clearEnds {s u : State} {c : Clear} (h : s.sup.clear = some c) (hp : u.port.slots = s.port.slots) (hz : u.sizes = s.sizes)
    (hl : u.slips = State.slips { s with sup.clear := none }) (r : Result) : s.Steady (u.complete c.slot r) := by
  refine steady_drops ⟨hp, hz⟩ (fun j => ?_) r
  rw [hl]
  simp only [slips_count, h, Option.map_none, Option.map_some, Option.toList_none, List.count_nil, Option.toList_some,
    List.count_singleton, beq_iff_eq, eq_comm (a := c.slot)]
  omega

/-- The supervisor drops its opening, and the OPEN slips that wait on it complete. -/
theorem steady_openingEnds {s u : State} {o : Opening} (h : s.sup.opening = some o) (hp : u.port.slots = s.port.slots)
    (hz : u.sizes = s.sizes) (hl : u.slips = State.slips { s with sup.opening := none }) (r : Result) :
    s.Steady (u.completeAll o.slots r) := by
  have hc : ∀ j, u.slips.count j + o.slots.count j ≤ s.slips.count j := fun j => by
    rw [hl]
    simp only [slips_count, h, Option.map_none, Option.map_some, Option.getD_none, Option.getD_some, List.count_nil]
    omega
  exact (steady_of_count hp (fun j => (Nat.le_add_right _ _).trans (hc j)) hz).endsAll _ hc r

theorem steady_endOpening (s : State) : s.Steady s.endOpening := by
  unfold State.endOpening
  split
  · exact steady_self s
  · next o ho =>
    refine steady_openingEnds ho ?_ ?_ ?_ _
    all_goals simp [State.endAdditions, State.toSup, State.sizes, State.slips]

theorem steady_coilFault (s : State) (coil : CoilName) (mA : Nat) (second : Option (CoilName × Nat)) :
    s.Steady (s.coilFault coil mA second) := by
  unfold State.coilFault
  simp only []
  refine State.Steady.trans ?_ (steady_send _ _)
  split
  · exact steady_endOpening s
  · split
    · exact steady_of_alike (by simp [State.Alike, State.toSup, State.releasePrecharge, State.sizes, State.slips])
    · next c hc =>
      have hclose : s.sup.close = some c := by simpa [State.toSup, State.releasePrecharge] using hc
      refine steady_closeEnds hclose ?_ ?_ ?_ _
      all_goals simp [State.toSup, State.releasePrecharge, State.sizes, State.slips]

theorem steady_prechargeFails {s : State} {c : Close} (h : s.sup.close = some c) : s.Steady (s.prechargeFails c) := by
  unfold State.prechargeFails
  simp only []
  refine State.Steady.trans ?_ (steady_send _ _)
  refine steady_closeEnds h ?_ ?_ ?_ _
  all_goals simp [State.toSup, State.releasePrecharge, State.sizes, State.slips]

theorem steady_settled {s : State} {c : Close} (h : s.sup.close = some c) : s.Steady (s.settled c) := by
  unfold State.settled
  simp only []
  refine State.Steady.trans ?_ (steady_send _ _)
  refine steady_closeEnds h ?_ ?_ ?_ _
  all_goals simp [State.toSup, State.releasePrecharge, State.sizes, State.slips]

theorem steady_judgeWeld (s : State) (w : Weld) (x : Sample) : s.Steady (s.judgeWeld w x) := by
  unfold State.judgeWeld
  simp only []
  split
  · split
    · exact steady_of_alike ⟨rfl, rfl, rfl⟩
    · next c hc =>
      split
      · exact steady_clearEnds hc (by rfl) (by rfl) (by rfl) _
      · exact (steady_requestWrite _ _ _).before ⟨rfl, by simp [State.slips, hc], rfl⟩
  · split
    · refine State.Steady.trans ?_ (steady_requestWrite _ _ _)
      refine State.Steady.trans ?_ (steady_raise _ _)
      exact (steady_toSup _ _).before ⟨rfl, rfl, rfl⟩
    · exact (steady_toSup _ _).before ⟨rfl, rfl, rfl⟩

theorem steady_lockoutCleared (s : State) (done : Bool) : s.Steady (s.lockoutCleared done) := by
  unfold State.lockoutCleared
  split
  · exact steady_self s
  · next c hc =>
    simp only []
    split
    · refine State.Steady.trans ?_ (steady_sendStill _ _ _ _)
      refine steady_clearEnds hc ?_ ?_ ?_ _
      all_goals simp [State.toSup, State.sizes, State.slips]
    · exact steady_clearEnds hc (by rfl) (by rfl) (by rfl) _

theorem steady_causeDue (s : State) (c : CauseRec) : s.Steady (s.causeDue c) := (follows_causeDue s c).toSteady

theorem steady_endDeferral (s : State) : s.Steady s.endDeferral := (follows_endDeferral s).toSteady

theorem steady_reachPrecharge (s : State) (x : Sample) : s.Steady (s.reachPrecharge x) := by
  unfold State.reachPrecharge
  split
  · next c hst hc =>
    split
    · refine (steady_toSup _ _).before ⟨rfl, ?_, rfl⟩
      simp [State.slips, State.inrush, hc]
    · exact steady_self s
  · exact steady_self s

theorem steady_supSample (s : State) (x : Sample) : s.Steady (s.supSample x) := by
  have hlow : s.Steady { s with sup.lowSupply := decide ((x.vCoil : Int) < s.store.active.surge) } :=
    steady_of_alike ⟨rfl, rfl, rfl⟩
  have hrun : ∀ u : State, u.Steady (u.countHard x.i) := fun u =>
    steady_of_alike (by simp [State.Alike, State.sizes, State.slips])
  have hdef : ∀ u : State, u.Steady (if u.sup.deferral.isSome && decide ((x.i.natAbs : Int) < u.store.active.breakLimit) then
      u.endDeferral else u) := fun u => by
    split
    · exact steady_endDeferral u
    · exact steady_self u
  have hweld : ∀ u : State, u.Steady (match u.sup.weld with
      | some w => if w.waitingSample then u.judgeWeld w x else u
      | none => u) := fun u => by
    split
    · split
      · exact steady_judgeWeld _ _ _
      · exact steady_self u
    · exact steady_self u
  exact (((hlow.trans (hrun _)).trans (hdef _)).trans (steady_reachPrecharge _ x)).trans (hweld _)

end Sys2Proof.Machine

namespace Sys2Proof.Machine

/-! ### The commands of the cell chain (chapter 1) -/

/-- An outcome's next state has the shape, and the slips are right in it, if they are in `s`. -/
def State.KeptBy (s : State) (o : Out) : Prop := ∀ t, o = .next t → s.Steady t

theorem State.Steady.kept {s t : State} (h : s.Steady t) : s.KeptBy (.next t) := by
  rintro u ⟨⟩
  exact h

theorem State.Steady.kept_done {s n : State} (h : s.Steady n) (o : State) : s.KeptBy (o.done n) := h.finishes.kept

theorem State.Steady.kept_react {s n : State} (h : s.Steady n) (o : State) : s.KeptBy (o.react n) := h.reacts.kept

theorem kept_idle (s : State) : s.KeptBy (s.done s) := (steady_self s).kept_done s

theorem steady_atUs (s : State) (us : Us) : s.Steady (s.atUs us) := steady_of_alike ⟨rfl, rfl, rfl⟩

theorem kept_atUs (s : State) (us : Us) : s.KeptBy (s.done (s.atUs us)) := (steady_atUs s us).kept_done s

theorem steady_captures (s : State) {f : Capture → Capture} (h : ∀ c, (f c).slot = c.slot) :
    s.Steady { s with plan.captures := s.plan.captures.map f } := (follows_captures s h).toSteady

theorem steady_request (s : State) (r : Req) : s.Steady (s.request r) := (follows_request s r).toSteady

theorem steady_requestSurvey (s : State) : s.Steady s.requestSurvey := (follows_requestSurvey s).toSteady

theorem execCaptureSent_keeps (us : Us) (s : State) : s.KeptBy (execCaptureSent us s) := by
  unfold execCaptureSent
  split
  · exact kept_atUs s us
  · next f _ =>
    split
    · simp only []
      refine State.Steady.kept_react ?_ s
      generalize hu : State.editHeld _ _ = u
      have hsu : s.Steady u := by
        rw [← hu]
        refine (steady_editHeld _ fun c => ?_).before ⟨rfl, rfl, rfl⟩
        unfold Capture.sent
        rfl
      split
      · exact hsu.trans (steady_abandonReads u)
      · exact hsu
    · exact kept_atUs s us

theorem execPauseSent_keeps (us : Us) (s : State) : s.KeptBy (execPauseSent us s) := by
  unfold execPauseSent
  split
  · next f p _ _ =>
    simp only []
    refine State.Steady.kept_react ?_ s
    split
    · exact steady_of_alike ⟨rfl, rfl, rfl⟩
    · refine (steady_captures _ fun c => ?_).before ⟨rfl, rfl, rfl⟩
      unfold Capture.paused
      split <;> rfl
  · exact kept_atUs s us

theorem steady_switchSent (s : State) : s.Steady s.switchSent := by
  unfold State.switchSent
  split <;> exact steady_of_alike ⟨rfl, rfl, rfl⟩

theorem execFrameSent_keeps (us : Us) (s : State) : s.KeptBy (execFrameSent us s) := by
  unfold execFrameSent
  split
  · exact kept_atUs s us
  · split
    · simp only []
      split
      · refine State.Steady.kept_react ?_ s
        exact steady_of_alike ⟨rfl, rfl, rfl⟩
      · refine State.Steady.kept_react ?_ s
        exact (steady_switchSent _).before ⟨rfl, rfl, rfl⟩
    · exact kept_atUs s us

theorem steady_wakeChain (s : State) : s.Steady s.wakeChain := steady_of_alike ⟨rfl, rfl, rfl⟩

theorem execSleepBroadcast_keeps (us : Us) (s : State) : s.KeptBy (execSleepBroadcast us s) := by
  unfold execSleepBroadcast
  split
  · simp only []
    refine State.Steady.kept_react ?_ s
    generalize hu : (if s.chain.wakeAfterSleep = true then _ else _ : State) = u
    have hsu : s.Steady u := by
      rw [← hu]
      split
      · exact (steady_wakeChain _).before ⟨rfl, rfl, rfl⟩
      · exact steady_of_alike ⟨rfl, rfl, rfl⟩
    split
    · exact hsu.trans (follows_alertAtSleep u).toSteady
    · exact hsu
  · exact kept_atUs s us

theorem steady_clearBalancing (s : State) : s.Steady s.clearBalancing :=
  steady_of_alike ⟨rfl, rfl, by simp [State.sizes, State.clearBalancing]⟩

theorem execBalancingStopSent_keeps (us : Us) (s : State) : s.KeptBy (execBalancingStopSent us s) := by
  unfold execBalancingStopSent
  split
  · refine State.Steady.kept_react ?_ s
    exact (steady_clearBalancing _).before ⟨rfl, rfl, rfl⟩
  · exact kept_atUs s us

theorem execReply_keeps (arrival : Arrival) (addr tag : Nat) (codes : List Half) (status : ModuleStatus) (version : Half)
    (err : Option CharError) (s : State) : s.KeptBy (execReply arrival addr tag codes status version err s) := by
  unfold execReply
  split
  · exact kept_atUs s _
  · simp only []
    split
    · exact ((steady_atUs _ _).trans (steady_readMissed _ _ _)).kept_react s
    · exact ((steady_atUs _ _).trans (steady_readGood _ _ _ _ _)).kept_react s

theorem execEchoBack_keeps (us : Us) (addr roundTrip kind cells sensors : Nat) (version : Half) (err : Option CharError)
    (s : State) : s.KeptBy (execEchoBack us addr roundTrip kind cells sensors version err s) := by
  unfold execEchoBack
  split
  · exact kept_atUs s us
  · simp only []
    split
    · exact ((steady_atUs _ _).trans (steady_answerFailed _ _ _)).kept_react s
    · exact ((steady_atUs _ _).trans (steady_echoGood _ _ _)).kept_react s

theorem execConfigReply_keeps (arrival : Arrival) (addr tag : Nat) (status : ModuleStatus) (version : Half)
    (err : Option CharError) (s : State) : s.KeptBy (execConfigReply arrival addr tag status version err s) := by
  have hend : ∀ us, s.Steady (s.atUs us).endExchange := fun us => (steady_atUs s us).trans (steady_endExchange _)
  unfold execConfigReply
  split
  · exact kept_atUs s _
  · simp only []
    split
    · exact ((steady_atUs _ _).trans (steady_answerFailed _ _ _)).kept_react s
    · split
      · exact ((hend _).trans (steady_balanceAnswered _ _)).kept_react s
      · exact ((hend _).trans ((steady_editModule _ _ _).trans (steady_balanceAnswered _ _))).kept_react s

theorem execBlockAck_keeps (arrival : Arrival) (addr : Nat) (index : Half) (toggle : Bool) (crc16 : Half)
    (err : Option CharError) (s : State) : s.KeptBy (execBlockAck arrival addr index toggle crc16 err s) := by
  unfold execBlockAck
  split
  · exact kept_atUs s _
  · simp only []
    split
    · exact ((steady_atUs _ _).trans (steady_answerFailed _ _ _)).kept_react s
    · exact ((steady_atUs _ _).trans (steady_blockAcked _ _ _ _)).kept_react s

theorem execReplyTimeout_keeps (us : Us) (s : State) : s.KeptBy (execReplyTimeout us s) := by
  unfold execReplyTimeout
  split
  · split
    · exact ((steady_atUs _ _).trans (steady_answerFailed _ _ _)).kept_react s
    · exact kept_atUs s us
  all_goals exact kept_atUs s us

theorem execCharacterGap_keeps (us : Us) (s : State) : s.KeptBy (execCharacterGap us s) := by
  unfold execCharacterGap
  split
  · exact ((steady_atUs _ _).trans (steady_answerFailed _ _ _)).kept_react s
  all_goals exact kept_atUs s us

theorem execStrayCharacters_keeps (us : Us) (s : State) : s.KeptBy (execStrayCharacters us s) := by
  unfold execStrayCharacters
  split
  · exact kept_atUs s us
  all_goals exact ((steady_atUs _ _).trans (steady_countError _ _)).kept_done s

theorem steady_enterUp (s : State) : s.Steady s.enterUp := steady_of_alike ⟨rfl, rfl, rfl⟩

theorem execSuspectPeriodEnd_keeps (s : State) : s.KeptBy (execSuspectPeriodEnd s) := by
  unfold execSuspectPeriodEnd
  split
  · split
    · exact (steady_enterUp s).kept_react s
    · refine State.Steady.kept_react ?_ s
      exact steady_of_alike ⟨rfl, rfl, rfl⟩
  · exact kept_idle s

theorem execChainLossHold_keeps (s : State) : s.KeptBy (execChainLossHold s) := by
  unfold execChainLossHold
  split
  · simp only []
    refine State.Steady.kept_react ((steady_becomeDown s none 0).trans ?_) s
    split
    · exact steady_abandonReads _
    all_goals exact steady_self _
  · exact kept_idle s

theorem execAutoSurveyTimer_keeps (s : State) : s.KeptBy (execAutoSurveyTimer s) := by
  unfold execAutoSurveyTimer
  split
  · exact kept_idle s
  · split
    · refine State.Steady.kept_react ?_ s
      exact (steady_requestSurvey _).before ⟨rfl, rfl, rfl⟩
    · exact kept_idle s

theorem execConversionWaitEnd_keeps (us : Us) (s : State) : s.KeptBy (execConversionWaitEnd us s) := by
  unfold execConversionWaitEnd
  split
  · split
    · exact ((steady_atUs _ _).trans (steady_captureGoesOn _)).kept_react s
    · exact kept_atUs s us
  all_goals exact kept_atUs s us

theorem steady_endResetTone (s : State) : s.Steady s.endResetTone := by
  unfold State.endResetTone
  simp only []
  split
  · exact (follows_beginExchange _ _ _ _).toSteady.before ⟨rfl, rfl, rfl⟩
  · exact steady_of_alike ⟨rfl, rfl, rfl⟩

theorem execWakeToneEnd_keeps (tone : ToneEnd) (s : State) : s.KeptBy (execWakeToneEnd tone s) := by
  have hidle : s.KeptBy (if s.chain.resetTone && s.passed 0 wakeTone then s.done (s.atUs tone.us).endResetTone
      else s.done (s.atUs tone.us)) := by
    split
    · exact ((steady_atUs _ _).trans (steady_endResetTone _)).kept_done s
    · exact kept_atUs s _
  unfold execWakeToneEnd
  split
  · split
    · refine State.Steady.kept_done ?_ s
      exact steady_of_alike ⟨rfl, rfl, rfl⟩
    · exact kept_atUs s _
  all_goals exact hidle

theorem execReturnProbe_keeps (addr : Nat) (s : State) : s.KeptBy (execReturnProbe addr s) := by
  unfold execReturnProbe
  split
  · exact kept_idle s
  · split
    · refine State.Steady.kept_react ?_ s
      exact (steady_request _ _).before ⟨rfl, rfl, rfl⟩
    · exact kept_idle s

theorem execBalancingEnd_keeps (addr : Nat) (s : State) : s.KeptBy (execBalancingEnd addr s) := by
  unfold execBalancingEnd
  split
  · exact kept_idle s
  · split
    · exact (steady_editModule _ _ _).kept_done s
    · exact kept_idle s

end Sys2Proof.Machine

namespace Sys2Proof.Machine

/-! ### The converter's and the planner's commands (chapters 2 and 3) -/

theorem execSampleLatch_keeps (readings : Readings) (s : State) : s.KeptBy (execSampleLatch readings s) := by
  unfold execSampleLatch
  split
  · refine State.Steady.kept_done ?_ s
    exact steady_of_alike ⟨rfl, rfl, rfl⟩
  · exact kept_idle s

theorem steady_collect (s : State) (i : Int) : s.Steady (s.collect i) := by
  unfold State.collect
  split
  · exact steady_self s
  · simp only []
    split
    · exact steady_of_alike ⟨rfl, rfl, rfl⟩
    · exact (follows_makeEstimate _).toSteady.before ⟨rfl, rfl, rfl⟩

theorem pairUp_slot (h : List Sample) (x : Sample) (c : Capture) : (c.pairUp h x).slot = c.slot := by
  unfold Capture.pairUp
  split <;> rfl

theorem steady_completeRecord (s : State) (k : Nat) : s.Steady (s.completeRecord k) := (follows_completeRecord s k).toSteady

/-- The recorder changes, and keeps its number of event slots. -/
theorem steady_recorder (s : State) {v : Recorder} (h : v.slots.length = s.ev.slots.length) : s.Steady { s with ev := v } :=
  steady_of_alike ⟨rfl, rfl, by simp [State.sizes, h]⟩

theorem steady_fillOne (s : State) (x : Sample) (slot : Nat) : s.Steady (s.fillOne x slot) := by
  unfold State.fillOne
  split
  · exact steady_self s
  · split
    · simp only []
      split
      · exact steady_recorder s (by simp)
      · refine State.Steady.trans ?_ (steady_completeRecord _ _)
        exact steady_recorder s (by simp)
    · exact steady_self s

/-- What holds for every step of a fold holds for the fold. -/
theorem steady_foldl {α : Type} {f : State → α → State} (h : ∀ (s : State) (a : α), s.Steady (f s a)) (l : List α) (s : State) :
    s.Steady (l.foldl f s) := by
  induction l generalizing s with
  | nil => exact steady_self s
  | cons a l ih => exact (h s a).trans (ih _)

theorem steady_fillWindows (s : State) (x : Sample) : s.Steady (s.fillWindows x) :=
  steady_foldl (fun s k => steady_fillOne s x k) _ s

theorem steady_completeSample (s : State) (x : Sample) : s.Steady (s.completeSample x) := by
  unfold State.completeSample
  refine State.Steady.trans ?_ (steady_fillWindows _ _)
  refine State.Steady.trans ?_ (steady_supSample _ _)
  refine State.Steady.trans ?_ (steady_collect _ _)
  refine State.Steady.before (steady_captures _ (pairUp_slot _ _)) ?_
  exact ⟨rfl, rfl, rfl⟩

theorem execSampleComplete_keeps (s : State) : s.KeptBy (execSampleComplete s) := by
  unfold execSampleComplete
  split
  · split
    · exact (steady_completeSample s _).kept_react s
    · exact kept_idle s
  · exact kept_idle s

theorem steady_silenceShown (s : State) : s.Steady s.silenceShown := by
  unfold State.silenceShown
  split
  · exact steady_of_alike ⟨rfl, rfl, rfl⟩
  · exact steady_self s

theorem steady_tick (s : State) (shunt : Nat) : s.Steady (s.tick shunt) := by
  unfold State.tick
  simp only []
  refine State.Steady.trans ?_ (follows_judgeLoss _).toSteady
  generalize hu : (State.countSilence _ : State) = u
  have hsu : s.Alike u := by
    rw [← hu]
    simp [State.Alike, State.slips, State.sizes]
  have hshown : s.Steady (if u.conv.scanning then u.showConverter else u) := by
    split
    · exact (follows_showConverter u).toSteady.before hsu
    · exact steady_of_alike hsu
  exact hshown.trans (steady_silenceShown _)

theorem execPartTimeTick_keeps (shunt : Nat) (s : State) : s.KeptBy (execPartTimeTick shunt s) :=
  (steady_tick s shunt).kept_done s

theorem steady_requestSnapshot (s : State) (who : Requester) : s.Steady (s.requestSnapshot who) :=
  (follows_requestSnapshot s who).toSteady

theorem execSnapshotTimer_keeps (s : State) : s.KeptBy (execSnapshotTimer s) := by
  unfold execSnapshotTimer
  split
  · exact (steady_requestSnapshot s _).kept_done s
  · exact kept_idle s

theorem steady_fallDue (s : State) (i : Nat) (p : Plan) : s.Steady (s.fallDue i p) := by
  unfold State.fallDue
  simp only []
  split
  · exact steady_of_alike ⟨rfl, rfl, rfl⟩
  · split
    · exact (steady_raise _ _).before ⟨rfl, rfl, rfl⟩
    · refine State.Steady.before (follows_beginPlanCapture _ ?_).toSteady ?_
      · rfl
      · exact ⟨rfl, rfl, rfl⟩

theorem steady_tryDue (s : State) (i : Nat) : s.Steady (s.tryDue i) := by
  unfold State.tryDue
  split
  · split
    · exact steady_self s
    · exact steady_fallDue s _ _
  · exact steady_self s

theorem execPlanDue_keeps (index : Nat) (s : State) : s.KeptBy (execPlanDue index s) := by
  unfold execPlanDue
  split
  · exact (steady_foldl steady_tryDue _ s).kept_react s
  · exact kept_idle s

theorem execPauseWaitEnd_keeps (index : Nat) (s : State) : s.KeptBy (execPauseWaitEnd index s) := by
  unfold execPauseWaitEnd
  split
  · refine State.Steady.kept_react ?_ s
    refine State.Steady.trans ?_ (steady_request _ _)
    refine steady_captures s fun c => ?_
    split <;> rfl
  · exact kept_idle s

theorem execBurstCaptureDue_keeps (s : State) : s.KeptBy (execBurstCaptureDue s) := by
  unfold execBurstCaptureDue
  split
  · exact kept_idle s
  · split
    · exact (follows_beginBurstCapture s _).toSteady.kept_react s
    · exact kept_idle s

/-! ### The building of a set (R56 to R65) -/

/-- The capture whose set is built leaves the captures, its slip with it. -/
theorem filterMap_slot_filter {l : List Capture} {c : Capture} {p : Capture → Bool} (hm : c ∈ l) (hp : p c = false) (j : Nat) :
    ((l.filter p).filterMap (·.slot)).count j + c.slot.toList.count j ≤ (l.filterMap (·.slot)).count j := by
  have hsub : ∀ l : List Capture, ((l.filter p).filterMap (·.slot)).count j ≤ (l.filterMap (·.slot)).count j := fun l =>
    (List.filter_sublist.filterMap _).count_le j
  induction l with
  | nil => cases hm
  | cons d l ih =>
    rcases List.mem_cons.1 hm with rfl | hl
    · have hl := hsub l
      cases hs : c.slot <;>
        simp only [List.filter_cons, hp, List.filterMap_cons, hs, Option.toList_none, Option.toList_some, List.count_nil,
          List.count_cons, Bool.false_eq_true, if_false] <;> omega
    · have ih := ih hl
      cases hd : p d <;> cases hs : d.slot <;>
        simp only [List.filter_cons, hd, List.filterMap_cons, hs, List.count_cons, Bool.false_eq_true, if_false, if_true] <;>
        omega

theorem nextBuild_mem {p : Planner} {c : Capture} (h : p.nextBuild = some c) : c ∈ p.captures ∧ c.stage = .building := by
  unfold Planner.nextBuild at h
  split at h
  · simp at h
  · exact ⟨List.mem_of_find?_eq_some h, by simpa using List.find?_some h⟩

/-- The captures but the one whose set is built. -/
def SampleSet.others (x : SampleSet) (l : List Capture) : List Capture :=
  l.filter fun c => !(decide (c.stage = .building) && decide (c = x.capture))

/-- The set's page, if it has one, is begun, and the built capture leaves the captures (R64). -/
def State.pageBegun (s : State) (x : SampleSet) (page : Option Nat) : State :=
  match page with
  | some p => State.beginPageWrite { s with
      plan.captures := { x.capture with stage := .writing, slot := none } :: x.others s.plan.captures } x p
  | none => { s with plan.captures := x.others s.plan.captures }

theorem pageBegun_kept (s : State) (x : SampleSet) (page : Option Nat) :
    (s.pageBegun x page).port = s.port ∧ (s.pageBegun x page).sizes = s.sizes
      ∧ (s.pageBegun x page).slips = State.slips { s with plan.captures := x.others s.plan.captures } := by
  cases page <;> simp [State.pageBegun, State.beginPageWrite, State.sizes, State.slips, State.put]

/-- What a built set shows besides its page (R57, R63, R122). -/
def State.setReported (s : State) (x : SampleSet) (page : Option Nat) : State :=
  let s2 := if x.capture.publish && page.isNone then s.raise .setDropped else s
  let s3 := if x.capture.plan = burstPlan then s2.answerLink x.capture.link (some x.seq) else s2
  if x.capture.plan = patrolPlan then { s3 with plan.patrolReport := some (.made x.patrol) } else s3

theorem setReported_slips (s : State) (x : SampleSet) (page : Option Nat) : (s.setReported x page).slips = s.slips := by
  unfold State.setReported
  repeat' split
  all_goals simp [State.slips]

theorem steady_setReported (s : State) (x : SampleSet) (page : Option Nat) : s.Steady (s.setReported x page) := by
  unfold State.setReported
  simp only []
  generalize hu : (if x.capture.publish && page.isNone then s.raise .setDropped else s : State) = u
  have hsu : s.Steady u := by
    rw [← hu]
    split
    · exact steady_raise s _
    · exact steady_self s
  generalize hv : (if x.capture.plan = burstPlan then u.answerLink x.capture.link (some x.seq) else u : State) = v
  have huv : u.Steady v := by
    rw [← hv]
    split
    · exact (follows_answerLink u _ _).toSteady
    · exact steady_self u
  split
  · exact (hsu.trans huv).after ⟨rfl, rfl, rfl⟩
  · exact hsu.trans huv

theorem publish_eq (s : State) (x : SampleSet) : ∃ page, s.publish x = match x.capture.slot with
    | none => (s.pageBegun x page).setReported x page
    | some k => ((s.pageBegun x page).setReported x page).complete k (.okWith (x.nowFields page)) :=
  ⟨if x.capture.publish then s.plan.choosePage else none, rfl⟩

theorem steady_publish {s : State} {x : SampleSet} (hm : x.capture ∈ s.plan.captures) (hb : x.capture.stage = .building) :
    s.Steady (s.publish x) := by
  obtain ⟨page, heq⟩ := publish_eq s x
  obtain ⟨hport, hsizes, hslips⟩ := pageBegun_kept s x page
  have hcount : ∀ j, (s.pageBegun x page).slips.count j + x.capture.slot.toList.count j ≤ s.slips.count j := fun j => by
    have := filterMap_slot_filter (p := fun c => !(decide (c.stage = .building) && decide (c = x.capture))) hm (by simp [hb]) j
    rw [hslips]
    simp only [slips_count, SampleSet.others]
    omega
  have hbegun : s.Steady (s.pageBegun x page) :=
    steady_of_count (congrArg Port.slots hport) (fun j => (Nat.le_add_right _ _).trans (hcount j)) hsizes
  have hshown := hbegun.trans (steady_setReported _ x page)
  rw [heq]
  split
  · exact hshown
  · next k hk =>
    refine hshown.ends (fun j => ?_) _
    rw [setReported_slips]
    simpa [hk, List.count_singleton, eq_comm (a := j)] using hcount j

theorem steady_actOnSet (s : State) (x : SampleSet) : s.Steady (s.actOnSet x).1 := by
  have h : ((s.actOnSet x).1).port = s.port ∧ ((s.actOnSet x).1).slips = s.slips ∧ ((s.actOnSet x).1).sizes = s.sizes := by
    simp [State.slips, State.sizes]
  obtain ⟨hport, hslips, hsizes⟩ := h
  exact steady_of_alike ⟨congrArg Port.slots hport, hslips, hsizes⟩

theorem execSetBuilt_keeps (s : State) : s.KeptBy (execSetBuilt s) := by
  unfold execSetBuilt
  split
  · exact kept_idle s
  · next c hc =>
    obtain ⟨hm, hb⟩ := nextBuild_mem hc
    split
    · exact kept_idle s
    · next bc _ =>
      refine State.Steady.kept_react ?_ s
      unfold State.buildSet
      simp only []
      refine (steady_actOnSet s (s.makeSet c bc)).trans ((follows_causesDue _ _).toSteady.trans (steady_publish ?_ hb))
      simpa [State.makeSet] using hm

theorem execPageWriteEnd_keeps (s : State) : s.KeptBy (execPageWriteEnd s) := by
  unfold execPageWriteEnd
  split
  · exact kept_idle s
  · next w _ =>
    refine State.Steady.kept_react ?_ s
    unfold State.endPageWrite
    refine State.Steady.trans ?_ (steady_raise _ _)
    refine steady_of_count ?_ (fun j => ?_) ?_
    · rfl
    · have hle : ∀ l : List Capture, ((l.filter fun c => decide (c.stage ≠ .writing)).filterMap (·.slot)).count j
          ≤ (l.filterMap (·.slot)).count j := fun l => (List.filter_sublist.filterMap _).count_le j
      have := hle s.plan.captures
      simp only [slips_count, State.put]
      omega
    · simp [State.sizes, State.put]

end Sys2Proof.Machine

namespace Sys2Proof.Machine

/-! ### The commands of the exchange memory (chapter 9) -/

theorem steady_noteFault (s : State) (w : Word) (cause : NoteCause) : s.Steady (s.noteFault w cause) :=
  (steady_raise _ _).before ⟨rfl, rfl, rfl⟩

/-- What is done with a note whose argument is legal. -/
theorem steady_takeNote {k : NoteKind} {hand : Word → State → State}
    (h : ∀ (w : Word) (t : State), k.accepts (noteArg w) = true → t.Steady (hand w t)) (s : State) :
    s.Steady (s.takeNote k hand) := by
  unfold State.takeNote
  split
  · exact steady_self s
  · next w l _ =>
    split
    · simp only []
      split
      · next ha => exact (h w _ ha).before ⟨rfl, rfl, rfl⟩
      · exact (steady_noteFault _ _ _).before ⟨rfl, rfl, rfl⟩
    · exact steady_self s

theorem kept_accessAsleep (s : State) : s.KeptBy s.accessAsleep := by
  unfold State.accessAsleep
  split
  · exact (follows_wakeCause s _).toSteady.kept_react s
  · exact kept_idle s

theorem execHostWordWrite_keeps (addr : BitVec 15) (word : Word) (s : State) : s.KeptBy (execHostWordWrite addr word s) := by
  unfold execHostWordWrite
  split
  · refine State.Steady.kept_done ?_ s
    exact steady_of_alike ⟨rfl, rfl, rfl⟩
  · exact kept_accessAsleep s

theorem execNote_keeps (word : Word) (s : State) : s.KeptBy (execNote word s) := by
  unfold execNote
  split
  · exact kept_accessAsleep s
  · split
    · refine State.Steady.kept_done ?_ s
      exact steady_of_alike ⟨rfl, rfl, rfl⟩
    · exact (steady_noteFault s _ _).kept_done s

/-- A slip that is taken is handed to its owner. -/
theorem steady_handed {s : State} {k : Nat} (hk : k ≤ 7) (hfree : getAt s.port.slots k = some none) (kind : Option SlipKind)
    (args : List Byte) : s.Steady ((s.copyAndTake k).acceptSlip k kind args) := by
  have hacc := accepts_acceptSlip (s.copyAndTake k) k kind args
  refine ⟨fun hs => hacc.shape (shaped_of_sizes ?_ hs) hk, fun hs => ?_⟩
  · simp [State.sizes, State.copyAndTake]
  · obtain ⟨hright, hout, hin⟩ := copyAndTake_right hk hfree hs
    exact hacc.slips hright hout hin

theorem steady_takeSlip {s : State} {k : Nat} (hk : k ≤ 7) (hfree : getAt s.port.slots k = some none) : s.Steady (s.takeSlip k) := by
  unfold State.takeSlip
  simp only []
  generalize hu : (if s.power.state = .enteringDeep then s.cancelEntry else s : State) = u
  have hsu : s.Follows u := by
    rw [← hu]
    split
    · exact follows_cancelEntry s
    · exact follows_self s
  have hslot : getAt u.port.slots k = some none := (hsu.slot k).elim (fun h => h.trans hfree) id
  exact hsu.toSteady.trans (steady_handed hk hslot (slipKindOf (copySlot u.mem k).kind) _)

theorem execPost_keeps (s : State) : s.KeptBy (execPost s) := by
  refine State.Steady.kept_react (steady_takeNote (fun w t ha => ?_) s) s
  simp only []
  split
  · next hp =>
    exact steady_takeSlip (of_decide_eq_true ha) (of_decide_eq_true (Bool.and_eq_true_iff.1 hp).1)
  · exact steady_noteFault t _ _

theorem execRefresh_keeps (s : State) : s.KeptBy (execRefresh s) := by
  refine State.Steady.kept_done (steady_takeNote (fun w t _ => ?_) s) s
  exact steady_of_alike ⟨rfl, rfl, rfl⟩

theorem steady_judgeAttn (s : State) : s.Steady s.judgeAttn := steady_of_alike ⟨rfl, rfl, rfl⟩

theorem execClear_keeps (s : State) : s.KeptBy (execClear s) := by
  refine State.Steady.kept_done (steady_takeNote (fun w t _ => ?_) s) s
  unfold State.clearFactors
  simp only []
  refine State.Steady.trans ?_ (steady_judgeAttn _)
  split <;> exact steady_of_alike ⟨rfl, rfl, rfl⟩

theorem execSetMask_keeps (s : State) : s.KeptBy (execSetMask s) := by
  refine State.Steady.kept_done (steady_takeNote (fun w t _ => ?_) s) s
  exact (steady_judgeAttn _).before ⟨rfl, rfl, rfl⟩

theorem execLevels_keeps (s : State) : s.KeptBy (execLevels s) := by
  refine State.Steady.kept_done (steady_takeNote (fun w t _ => ?_) s) s
  exact (steady_judgeAttn _).before ⟨rfl, rfl, rfl⟩

/-! ### The tables (R182) -/

theorem steady_tableStatus (s : State) (id : Nat) (origin : Origin) (outcome : TableOutcome) (clamps : List ClampRec) :
    s.Steady (s.tableStatus id origin outcome clamps) := by
  unfold State.tableStatus
  split
  · exact steady_self s
  · simp only []
    generalize hu : ({ s with port.tables := _, port.lastTable := _, mem := _ } : State) = u
    have hsu : s.Steady u := by
      rw [← hu]
      exact steady_of_alike ⟨rfl, rfl, by simp [State.sizes]⟩
    split
    · exact hsu
    all_goals exact hsu.trans (steady_raise u _)

theorem steady_takeTables {id : Nat} {hand : State → State} (h : ∀ t : State, t.Steady (hand t)) (s : State) :
    s.Steady (s.takeTables id hand) := by
  unfold State.takeTables
  split
  · exact steady_self s
  · split
    · exact steady_self s
    · exact steady_takeNote (fun _ t _ => h t) s

theorem execTablesPlanTable_keeps (s : State) : s.KeptBy (execTablesPlanTable s) := by
  refine State.Steady.kept_done (steady_takeTables (fun t => ?_) s) s
  unfold State.takePlanTable
  exact (steady_tableStatus _ _ _ _ _).before ⟨rfl, rfl, rfl⟩

theorem execTablesLimitTable_keeps (s : State) : s.KeptBy (execTablesLimitTable s) := by
  refine State.Steady.kept_done (steady_takeTables (fun t => ?_) s) s
  unfold State.takeLimitTable
  exact (steady_tableStatus _ _ _ _ _).before ⟨rfl, rfl, rfl⟩

theorem execTablesWakeTable_keeps (s : State) : s.KeptBy (execTablesWakeTable s) := by
  refine State.Steady.kept_done (steady_takeTables (fun t => ?_) s) s
  unfold State.takeWakeTable
  exact (steady_tableStatus _ _ _ _ _).before ⟨rfl, rfl, rfl⟩

theorem discardKept_length (old new : List ModuleEntry) (kept : List (Option Reading)) :
    (discardKept old new kept).length = kept.length := by
  induction old generalizing new kept with
  | nil => rfl
  | cons o os ih =>
    cases new with
    | nil => rfl
    | cons n ns =>
      cases kept with
      | nil => rfl
      | cons k ks => simp [discardKept, ih]

theorem steady_setModules (s : State) (l : List HostModule) : s.Steady (s.setModules l) := by
  unfold State.setModules
  simp only []
  generalize hu : ({ s with chain.map := _, chain.returning := _, plan.kept := _, upd.dist := _ } : State) = u
  have hsu : s.Steady u := by
    rw [← hu]
    exact steady_of_alike ⟨rfl, rfl, by simp [State.sizes, takeModules_length, discardKept_length]⟩
  split
  · exact hsu
  · exact hsu.trans (steady_requestSurvey u)

theorem execTablesModuleMap_keeps (s : State) : s.KeptBy (execTablesModuleMap s) := by
  refine State.Steady.kept_react (steady_takeTables (fun t => ?_) s) s
  unfold State.takeModuleMap
  simp only []
  split
  · exact steady_tableStatus t _ _ _ _
  · exact (steady_setModules t _).trans (steady_tableStatus _ _ _ _ _)

/-! ### Pages, events and chunks (R66, R103, R148) -/

theorem steady_pages (s : State) {l : List Page} (h : l.length = s.plan.pages.length) : s.Steady { s with plan.pages := l } :=
  steady_of_alike ⟨rfl, rfl, by simp [State.sizes, h]⟩

theorem execHold_keeps (s : State) : s.KeptBy (execHold s) := by
  refine State.Steady.kept_done (steady_takeNote (fun w t _ => ?_) s) s
  exact steady_pages t (modifyAt_length _ _ _)

theorem execRelease_keeps (s : State) : s.KeptBy (execRelease s) := by
  refine State.Steady.kept_done (steady_takeNote (fun w t _ => ?_) s) s
  exact steady_pages t (modifyAt_length _ _ _)

theorem foldl_change_length (l : List Nat) (v : Recorder) (f : EventRec → EventRec) :
    (l.foldl (fun v i => v.change i f) v).slots.length = v.slots.length := by
  induction l generalizing v with
  | nil => rfl
  | cons i l ih => simp [ih]

theorem execAckEvents_keeps (s : State) : s.KeptBy (execAckEvents s) := by
  refine State.Steady.kept_done (steady_takeNote (fun w t _ => ?_) s) s
  split
  · next u hu =>
    unfold State.ackUpTo at hu
    split at hu
    · simp at hu
    · obtain rfl := Option.some.inj hu
      exact steady_recorder t (foldl_change_length _ _ _)
  · exact steady_noteFault t _ _

theorem execChunk_keeps (s : State) : s.KeptBy (execChunk s) := by
  refine State.Steady.kept_done (steady_takeNote (fun w t _ => ?_) s) s
  unfold State.chunkNote
  simp only []
  split
  · split
    · exact steady_self t
    · exact steady_of_alike ⟨rfl, rfl, rfl⟩
  · split
    · exact steady_self t
    · exact (follows_reject t _ _ _).toSteady

theorem execUnknownKind_keeps (s : State) : s.KeptBy (execUnknownKind s) := by
  refine State.Steady.kept_done ?_ s
  split
  · exact steady_self s
  · split
    · exact steady_self s
    · exact (steady_noteFault _ _ _).before ⟨rfl, rfl, rfl⟩

end Sys2Proof.Machine

namespace Sys2Proof.Machine

/-! ### The commands of the power states (chapter 6) -/

theorem steady_wakeCause (s : State) (x : Source) : s.Steady (s.wakeCause x) := (follows_wakeCause s x).toSteady

theorem execWakeLine_keeps (s : State) : s.KeptBy (execWakeLine s) := by
  unfold execWakeLine
  simp only []
  split
  · refine State.Steady.kept_react ?_ _
    exact (steady_wakeCause _ _).before ⟨rfl, rfl, rfl⟩
  · refine State.Steady.kept_done ?_ s
    exact steady_of_alike ⟨rfl, rfl, rfl⟩

theorem execWakeChain_keeps (s : State) : s.KeptBy (execWakeChain s) := by
  unfold execWakeChain
  simp only []
  split
  · refine State.Steady.kept_react ?_ _
    exact (steady_wakeCause _ _).before ⟨rfl, rfl, rfl⟩
  · refine State.Steady.kept_done ?_ s
    exact steady_of_alike ⟨rfl, rfl, rfl⟩

theorem execWakeTimer_keeps (s : State) : s.KeptBy (execWakeTimer s) := by
  unfold execWakeTimer
  split
  · refine State.Steady.kept_react ?_ s
    exact (steady_wakeCause _ _).before ⟨rfl, rfl, rfl⟩
  · exact kept_idle s

theorem execWakeCurrent_keeps (s : State) : s.KeptBy (execWakeCurrent s) := by
  unfold execWakeCurrent
  split
  · refine State.Steady.kept_react ?_ s
    exact (steady_wakeCause _ _).before ⟨rfl, rfl, rfl⟩
  · exact kept_idle s

/-- A step of the sleep entry keeps its slip. -/
theorem steady_endSnapshotStep (s : State) (o : SnapOutcome) : s.Steady (s.endSnapshotStep o) := by
  unfold State.endSnapshotStep
  split
  · exact steady_self s
  · next e he =>
    split
    · exact steady_of_alike ⟨rfl, by simp [State.slips, he], rfl⟩
    · exact steady_self s

theorem execSnapshotWaitLimit_keeps (s : State) : s.KeptBy (execSnapshotWaitLimit s) := by
  unfold execSnapshotWaitLimit
  split
  · exact kept_idle s
  · split
    · refine State.Steady.kept_react ?_ s
      exact (steady_endSnapshotStep _ _).before ⟨rfl, rfl, rfl⟩
    · exact kept_idle s

/-- The sleep entry drops its slip, which completes (R109). -/
theorem steady_entryEnds {s : State} {e : Entry} (h : s.power.entry = some e) (r : Result) :
    s.Steady { s.complete e.slot r with power.entry := none } := by
  refine State.Follows.toSteady ?_
  refine follows_completed (k := e.slot) (r := r) (fun j => ?_) rfl rfl rfl rfl
  simp [slips_count, h, List.count_singleton, eq_comm (a := j)]

theorem execDeepEntry_keeps (s : State) : s.KeptBy (execDeepEntry s) := by
  unfold execDeepEntry
  split
  · exact kept_idle s
  · next e he =>
    split
    · refine State.Steady.kept_react ?_ s
      unfold State.enterDeep
      simp only []
      refine State.Steady.trans ?_ (follows_toDeep _).toSteady
      refine (follows_stopConverter s).toSteady.trans ?_
      refine steady_entryEnds ?_ _
      simpa using he
    · exact kept_idle s

theorem execWakingSettleEnd_keeps (s : State) : s.KeptBy (execWakingSettleEnd s) := by
  unfold execWakingSettleEnd
  split
  · refine State.Steady.kept_react ?_ s
    refine State.Steady.trans ?_ (steady_wakeChain _)
    exact (follows_startConverter _).toSteady.before ⟨rfl, rfl, rfl⟩
  · exact kept_idle s

theorem steady_endModuleWake (s : State) (gap : Bool) : s.Steady (s.endModuleWake gap) := by
  unfold State.endModuleWake
  simp only []
  generalize hu : ({ s with chain.wake := .none } : State) = u
  have hsu : s.Steady u := by
    rw [← hu]
    exact steady_of_alike ⟨rfl, rfl, rfl⟩
  have hsurvey : s.Steady u.beginSurvey := hsu.trans (follows_beginSurvey u).toSteady
  have hup : s.Steady u.enterUp := hsu.trans (steady_enterUp u)
  split
  · exact hsurvey.trans (follows_enterRun _ _).toSteady
  · split
    · exact hup
    · exact hup.trans (follows_enterPatrol _).toSteady
  · exact hsurvey

theorem execModuleWakeTimeEnd_keeps (s : State) : s.KeptBy (execModuleWakeTimeEnd s) := by
  unfold execModuleWakeTimeEnd
  split
  · split
    · exact (steady_endModuleWake s _).kept_react s
    · exact kept_idle s
  · split
    · exact (follows_enterPatrol s).toSteady.kept_react s
    · exact kept_idle s
  · exact kept_idle s

theorem execWakeOutEnd_keeps (s : State) : s.KeptBy (execWakeOutEnd s) := by
  unfold execWakeOutEnd
  split
  · refine State.Steady.kept_done ?_ s
    exact steady_of_alike ⟨rfl, rfl, rfl⟩
  · exact kept_idle s

/-! ### The recorder's command (chapter 5) -/

theorem steady_skipWindow (s : State) (slot : Nat) : s.Steady (s.skipWindow slot) :=
  State.Steady.trans (steady_recorder s (change_slots_length _ _ _)) (steady_completeRecord _ _)

theorem steady_openWindow (s : State) (slot : Nat) : s.Steady (s.openWindow slot) := by
  unfold State.openWindow
  split
  · exact steady_skipWindow s slot
  · split
    · exact steady_recorder s (change_slots_length _ _ _)
    · exact steady_skipWindow s slot

theorem empty_slots_length (v : Recorder) (k : Nat) : (v.empty k).slots.length = v.slots.length := by
  simp [Recorder.empty]

theorem steady_takeEvent (s : State) (e : SentEvent) : s.Steady (s.takeEvent e) := by
  unfold State.takeEvent
  simp only []
  generalize hu : ({ s with ev := _ } : State) = u
  have hsu : s.Steady u := by
    rw [← hu]
    exact steady_recorder s (by simp [empty_slots_length])
  generalize hv : (if s.ev.chooseSlot.2 then u.raise .eventFull else u : State) = v
  have hsv : s.Steady v := by
    rw [← hv]
    split
    · exact hsu.trans (steady_raise u _)
    · exact hsu
  split
  · exact hsv.trans (steady_openWindow v _)
  · exact hsv.trans (steady_completeRecord v _)

theorem steady_askBurst (s : State) (seq : Nat) (part : Ms) : s.Steady (s.askBurst seq part) := by
  unfold State.askBurst
  simp only []
  generalize hu : ({ s.dropEarly burstPlan with plan.burst := some ⟨seq, part, 0⟩ } : State) = u
  have hsu : s.Steady u := by
    rw [← hu]
    exact (follows_dropEarly s _).toSteady.after ⟨rfl, rfl, rfl⟩
  split
  · exact hsu
  · split
    · exact hsu
    · exact hsu.trans (follows_answerLink u _ _).toSteady

theorem steady_askForBurst (s : State) : s.Steady s.askForBurst := by
  unfold State.askForBurst
  split
  · exact steady_self s
  · split
    · exact steady_askBurst s _ _
    · exact steady_self s

theorem execEventTake_keeps (pick : Nat) (s : State) : s.KeptBy (execEventTake pick s) := by
  unfold execEventTake
  split
  · exact kept_idle s
  · refine State.Steady.kept_react ?_ s
    refine State.Steady.trans ?_ (steady_askForBurst _)
    exact (steady_takeEvent _ _).before ⟨rfl, rfl, rfl⟩

end Sys2Proof.Machine

namespace Sys2Proof.Machine

/-! ### The commands of the settings store (chapter 7) -/

theorem execWriteBegin_keeps (s : State) : s.KeptBy (execWriteBegin s) := by
  refine State.Steady.kept_done ?_ s
  unfold State.beginWrite
  split
  · split
    · exact steady_self s
    · exact steady_of_alike ⟨rfl, rfl, rfl⟩
  · exact steady_self s

theorem steady_finishWrite (s : State) (r : Running) (matched : Bool) : s.Steady (s.finishWrite r matched) := by
  unfold State.finishWrite
  simp only []
  split
  · exact steady_of_alike ⟨rfl, rfl, rfl⟩
  · exact (steady_raise _ _).before ⟨rfl, rfl, rfl⟩

theorem steady_loadLimits (s : State) (l : Limits) (clamps : Nat) (origin : Origin) : s.Steady (s.loadLimits l clamps origin) := by
  unfold State.loadLimits
  simp only []
  generalize hu : (State.computeInForce _ : State) = u
  have hsu : s.Steady u := by
    rw [← hu]
    exact steady_of_alike ⟨rfl, rfl, by simp [State.sizes, State.computeInForce, recalibrate]⟩
  split
  · split
    · exact hsu
    · exact hsu.trans (steady_tableStatus u _ _ _ _)
  · exact hsu.trans (steady_tableStatus u _ _ _ _)

theorem steady_loadBank (s : State) (bk : BankId) (origin : Origin) : s.Steady (s.loadBank bk origin) := by
  unfold State.loadBank
  split
  · exact steady_self s
  · exact (steady_loadLimits _ _ _ _).before ⟨rfl, rfl, rfl⟩

theorem steady_activate (s : State) (p : Payload) (done : Bool) : s.Steady (s.activate p done) := by
  unfold State.activate
  split
  · exact steady_loadBank s _ _
  · exact steady_self s

theorem steady_engineTold (s : State) (bank : BankId) (done : Bool) : s.Steady (s.engineTold bank done) := by
  unfold State.engineTold
  split
  · exact steady_self s
  · simp only []
    generalize hu : (if done then { s with upd.bankWritten := some bank } else s : State) = u
    have hsu : s.Steady u := by
      rw [← hu]
      split
      · exact steady_of_alike ⟨rfl, rfl, rfl⟩
      · exact steady_self s
    split
    · exact hsu.trans (steady_endAborted u)
    · split
      · refine hsu.trans ?_
        exact (steady_requestWrite _ _ _).before ⟨rfl, rfl, rfl⟩
      · exact hsu.trans (steady_endUpdate u _ _ _)
  · split
    · simp only []
      split
      · exact (steady_endUpdate _ _ _ _).before ⟨rfl, rfl, rfl⟩
      · exact (steady_requestWrite _ _ _).before ⟨rfl, rfl, rfl⟩
    · exact steady_endUpdate s _ _ _
  all_goals
    split
    · exact (steady_endUpdate _ _ _ _).before ⟨rfl, rfl, rfl⟩
    · exact steady_endUpdate s _ _ _

/-- The store drops its INSTALL_KEY, and the slip completes (R141). -/
theorem steady_keyWritten (s : State) (done : Bool) : s.Steady (s.keyWritten done) := by
  unfold State.keyWritten
  split
  · exact steady_self s
  · next k hk =>
    have hcount : ∀ j, List.count j (State.slips { s with store.keySlip := none }) + (if j = k then 1 else 0)
        ≤ s.slips.count j := fun j => by
      simp only [slips_count, hk, Option.toList_none, List.count_nil, Option.toList_some, List.count_singleton, beq_iff_eq,
        eq_comm (a := k)]
      omega
    have hdrop : s.Steady { s with store.keySlip := none } := by
      refine ⟨fun hs => ?_, fun hs => slipsRight_of_count hs (fun j => (Nat.le_add_right _ _).trans (hcount j)) fun _ _ => rfl⟩
      unfold State.shaped at hs ⊢
      obtain ⟨h1, h2, h3, h4, h5, h6, h7, -, h9⟩ := hs
      exact ⟨h1, h2, h3, h4, h5, h6, h7, by simp, h9⟩
    exact hdrop.ends hcount _

theorem steady_told (s : State) (bank : BankId) (done : Bool) (who : Requester) : s.Steady (s.told bank done who) := by
  unfold State.told
  split
  · exact steady_lockoutCleared s done
  · exact steady_endSnapshotStep s _
  · exact steady_engineTold s bank done
  · exact steady_keyWritten s done
  all_goals exact steady_self s

theorem execWriteEnd_keeps (matched : Bool) (s : State) : s.KeptBy (execWriteEnd matched s) := by
  unfold execWriteEnd
  split
  · exact kept_idle s
  · next r _ =>
    split
    · refine State.Steady.kept_react ?_ s
      unfold State.endWrite
      refine State.Steady.trans ?_ (steady_foldl (fun t w => steady_told t r.bank matched w) _ _)
      exact (steady_finishWrite s r matched).trans (steady_activate _ _ _)
    · exact kept_idle s

/-! ### The end of the start-up read (R36, R74, R133, R134) -/

theorem steady_storeFault (s : State) (c : StoreFaultCause) (item : Option StoreItem) : s.Steady (s.storeFault c item) :=
  (steady_raise _ _).before ⟨rfl, rfl, rfl⟩

theorem steady_chooseImage (s : State) : s.Steady s.chooseImage := by
  unfold State.chooseImage
  split
  · simp only []
    refine State.Steady.trans ?_ (steady_loadLimits _ _ _ _)
    exact (steady_storeFault _ _ _).before ⟨rfl, rfl, rfl⟩
  · next bk marked _ =>
    simp only []
    refine State.Steady.trans ?_ (steady_requestWrite _ _ _)
    generalize hu : (State.loadBank _ bk .reset : State) = u
    have hsu : s.Steady u := by
      rw [← hu]
      exact (steady_loadBank _ _ _).before ⟨rfl, rfl, rfl⟩
    split
    · exact hsu
    · exact hsu.trans (steady_requestWrite u _ _)

theorem steady_readStore (s : State) : s.Steady s.readStore := by
  unfold State.readStore
  simp only []
  refine State.Steady.trans ?_ (steady_chooseImage _)
  split
  · exact steady_of_alike ⟨rfl, rfl, rfl⟩
  · exact (steady_storeFault _ _ _).before ⟨rfl, rfl, rfl⟩

theorem steady_restoreCharge (s : State) : s.Steady s.restoreCharge := by
  unfold State.restoreCharge
  split
  · exact (follows_showConverter _).toSteady.before ⟨rfl, rfl, rfl⟩
  · exact steady_self s

theorem steady_leaveWait (s : State) : s.Steady s.leaveWait := by
  unfold State.leaveWait
  split
  · exact (steady_raise _ _).before ⟨rfl, rfl, rfl⟩
  · exact steady_of_alike ⟨rfl, rfl, rfl⟩

theorem execStartUpReadEnd_keeps (s : State) : s.KeptBy (execStartUpReadEnd s) := by
  unfold execStartUpReadEnd
  split
  · refine State.Steady.kept_react ?_ s
    unfold State.endStartUp
    simp only []
    refine State.Steady.trans ?_ (steady_leaveWait _)
    refine State.Steady.trans ?_ (steady_put _ _ _)
    exact (steady_readStore s).trans (steady_restoreCharge _)
  · exact kept_idle s

/-! ### The supervisor's commands (chapter 4) -/

theorem steady_takeReport (s : State) (n : CoilName) : s.Steady (s.takeReport n) := by
  cases n <;> exact steady_of_alike ⟨rfl, rfl, rfl⟩

/-- The readings of coils that were due are judged, after their reports were taken (R71). -/
theorem kept_coilsJudged {s u : State} (hsu : s.Steady u) (coil : CoilName) (mA : Nat) (bad : Option (CoilName × Nat)) :
    s.KeptBy (if s.faulty mA then s.react (u.coilFault coil mA bad)
      else
        match bad with
        | some d => s.react (u.coilFault d.1 d.2 none)
        | none => s.react u) := by
  split
  · exact (hsu.trans (steady_coilFault u _ _ _)).kept_react s
  · split
    · exact (hsu.trans (steady_coilFault u _ _ _)).kept_react s
    · exact hsu.kept_react s

theorem execCoilReport_keeps (coil : CoilName) (mA : Nat) (also : Option (CoilName × Nat)) (s : State) :
    s.KeptBy (execCoilReport coil mA also s) := by
  unfold execCoilReport
  simp only []
  generalize (also.filter fun d => decide (d.1 ≠ coil) && s.reportDue d.1) = second
  split
  · cases second with
    | none => exact kept_coilsJudged (steady_takeReport s coil) coil mA _
    | some d => exact kept_coilsJudged ((steady_takeReport s coil).trans (steady_takeReport _ d.1)) coil mA _
  · exact kept_idle s

theorem execInrushEnd_keeps (s : State) : s.KeptBy (execInrushEnd s) := by
  unfold execInrushEnd
  split
  · exact kept_idle s
  · split
    · refine State.Steady.kept_done ?_ s
      exact steady_of_alike ⟨rfl, rfl, rfl⟩
    · exact kept_idle s

theorem execPrechargeTimeout_keeps (s : State) : s.KeptBy (execPrechargeTimeout s) := by
  unfold execPrechargeTimeout
  split
  · next hc =>
    split
    · exact (steady_prechargeFails hc).kept_react s
    · exact kept_idle s
  · exact kept_idle s

theorem execMainSettleEnd_keeps (s : State) : s.KeptBy (execMainSettleEnd s) := by
  unfold execMainSettleEnd
  split
  · next hc =>
    split
    · exact (steady_settled hc).kept_react s
    · exact kept_idle s
  · exact kept_idle s

theorem execOpeningSecondStep_keeps (s : State) : s.KeptBy (execOpeningSecondStep s) := by
  unfold execOpeningSecondStep
  split
  · exact kept_idle s
  · split
    · exact (steady_endOpening s).kept_react s
    · exact kept_idle s

theorem execWeldWindowEnd_keeps (s : State) : s.KeptBy (execWeldWindowEnd s) := by
  unfold execWeldWindowEnd
  split
  · exact kept_idle s
  · split
    · split
      · refine State.Steady.kept_done ?_ s
        exact steady_of_alike ⟨rfl, rfl, rfl⟩
      · exact (steady_judgeWeld s _ _).kept_react s
    · exact kept_idle s

theorem execDeferralLimit_keeps (s : State) : s.KeptBy (execDeferralLimit s) := by
  unfold execDeferralLimit
  split
  · exact kept_idle s
  · split
    · exact (steady_endDeferral s).kept_react s
    · exact kept_idle s

theorem execHardCurrent_keeps (s : State) : s.KeptBy (execHardCurrent s) := by
  unfold execHardCurrent
  split
  · refine State.Steady.kept_react ?_ s
    exact (steady_causeDue _ _).before ⟨rfl, rfl, rfl⟩
  · exact kept_idle s

theorem execChainLoss_keeps (s : State) : s.KeptBy (execChainLoss s) := by
  unfold execChainLoss
  split
  · refine State.Steady.kept_react ?_ s
    exact (steady_causeDue _ _).before ⟨rfl, rfl, rfl⟩
  · exact kept_idle s

theorem execSilenceWarn_keeps (s : State) : s.KeptBy (execSilenceWarn s) := by
  unfold execSilenceWarn
  split
  · exact (follows_silenceWarning s).toSteady.kept_done s
  · exact kept_idle s

theorem execSilence_keeps (s : State) : s.KeptBy (execSilence s) := by
  unfold execSilence
  split
  · simp only []
    refine State.Steady.kept_react ?_ s
    refine State.Steady.trans ?_ (follows_silenceExpiry _).toSteady
    split
    · exact (follows_silenceWarning s).toSteady
    · exact steady_self s
  · exact kept_idle s

/-! ### The commands of the update engine (chapter 8) -/

theorem steady_reject (s : State) (buf : Buffer) (n : Nat) (c : RejectCause) : s.Steady (s.reject buf n c) :=
  (follows_reject s buf n c).toSteady

theorem steady_giveBack (s : State) (buf : Buffer) (n : Nat) (st : BufferState) (c : Option RejectCause) :
    s.Steady (s.giveBack buf n st c) := (follows_giveBack s buf n st c).toSteady

theorem execAbsorptionStart_keeps (s : State) : s.KeptBy (execAbsorptionStart s) := by
  refine State.Steady.kept_done ?_ s
  unfold State.absorbNext
  split
  · simp only []
    split
    · exact (steady_reject _ _ _ _).before ⟨rfl, rfl, rfl⟩
    · exact (steady_giveBack _ _ _ _ _).before ⟨rfl, rfl, rfl⟩
    · exact (follows_setBuffer _ _ _ _ _).toSteady.before ⟨rfl, rfl, rfl⟩
  · exact steady_self s

theorem execAbsorptionEnd_keeps (s : State) : s.KeptBy (execAbsorptionEnd s) := by
  unfold execAbsorptionEnd
  split
  · exact kept_idle s
  · split
    · refine State.Steady.kept_done ?_ s
      unfold State.endAbsorption
      simp only []
      split
      · exact (steady_giveBack _ _ _ _ _).before ⟨rfl, rfl, rfl⟩
      · exact (steady_reject _ _ _ _).before ⟨rfl, rfl, rfl⟩
    · exact kept_idle s

/-- The engine drops its UPDATE_CHECK, and the slip completes (R155). -/
theorem steady_verified (s : State) : s.Steady s.verified := by
  unfold State.verified
  simp only []
  split
  · exact (follows_toUpd _ _).toSteady.before ⟨rfl, by simp [State.slips, *], rfl⟩
  · next q k hk =>
    refine steady_drops (s := s) (k := k) ?_ (fun j => ?_) _
    · simp [State.toUpd, State.sizes]
    · have hslips : (State.toUpd { s with upd.slip := none } .verified).slips = State.slips { s with upd.slip := none } := by
        simp [State.toUpd, State.slips]
      rw [hslips]
      simp only [slips_count, hk, Option.map_none, Option.map_some, Option.toList_none, List.count_nil, Option.toList_some,
        List.count_singleton, beq_iff_eq, eq_comm (a := k)]
      omega

theorem execCheckEnd_keeps (places : List Nat) (bytes : List Byte) (s : State) : s.KeptBy (execCheckEnd places bytes s) := by
  unfold execCheckEnd
  split
  · simp only []
    refine State.Steady.kept_done ?_ s
    unfold State.endCheck
    split
    · exact steady_endUpdate s _ _ _
    · split
      · exact steady_verified s
      · exact steady_endUpdate s _ _ _
  · exact kept_idle s

theorem execChainPauseLimit_keeps (s : State) : s.KeptBy (execChainPauseLimit s) := by
  unfold execChainPauseLimit
  split
  · exact kept_idle s
  · split
    · exact (steady_pauseLimit s).kept_react s
    · exact kept_idle s

theorem execSwitchProbe_keeps (s : State) : s.KeptBy (execSwitchProbe s) := by
  unfold execSwitchProbe
  split
  · exact kept_idle s
  · split
    · refine State.Steady.kept_react ?_ s
      exact (steady_request _ _).before ⟨rfl, rfl, rfl⟩
    · exact kept_idle s

theorem execSwitchWindowEnd_keeps (s : State) : s.KeptBy (execSwitchWindowEnd s) := by
  unfold execSwitchWindowEnd
  split
  · split
    · exact (steady_rollBack s _ _ _).kept_react s
    · exact kept_idle s
  · exact kept_idle s

theorem execReturnLimit_keeps (addr : Nat) (s : State) : s.KeptBy (execReturnLimit addr s) := by
  unfold execReturnLimit
  split
  · exact kept_idle s
  · split
    · refine State.Steady.kept_react ?_ s
      exact (steady_backInService _ _).before ⟨rfl, rfl, rfl⟩
    · exact kept_idle s

end Sys2Proof.Machine

namespace Sys2Proof.Machine

/-! ### The resets, and every command -/

theorem readModules_length (m : Memory) (l : Limits) : (readModules m l).1.length = 24 := by
  simp [readModules, addresses]

/-- Where no block records a slip, the slips are right. -/
theorem slipsRight_of_none {s : State} (h : s.slips = []) : s.slipsRight := by
  rw [State.slipsRight, h]
  exact ⟨List.nodup_nil, fun _ hk => absurd hk List.not_mem_nil⟩

/-- What a reset shows of the blocks. -/
theorem steady_shown (s : State) : s.Steady s.showDirectory.showTables.showUpdate :=
  steady_of_alike (by simp [State.Alike, State.slips, State.sizes])

theorem execPowerOn_keeps (cut : CutRead) (s : State) : s.KeptBy (execPowerOn cut s) := by
  refine State.Steady.kept ?_
  unfold powerOnState
  simp only []
  refine State.Steady.trans ?_ (steady_tableStatus _ _ _ _ _)
  refine State.Steady.trans ?_ (steady_shown _)
  refine ⟨fun _ => ?_, fun _ => slipsRight_of_none rfl⟩
  simp [State.shaped, chainAtReset, planAtReset, storeAtPowerOn, powerAtPowerOn, copies_length, readModules_length]

theorem steady_resetBlocks (s : State) (cut : CutRead) : s.Steady (s.resetBlocks cut) := by
  refine ⟨fun hs => ?_, fun _ => slipsRight_of_none rfl⟩
  obtain ⟨-, htab, -, -, -, -, hev, -, hnext⟩ := hs
  simp [State.shaped, State.resetBlocks, chainAtReset, planAtReset, storeAtResetLine, powerAtResetLine, Recorder.reset,
    copies_length, readModules_length, settleSlots_length, htab, hev, hnext]

theorem steady_freeSlots (s : State) : s.Steady s.freeSlots :=
  steady_of_alike (by simp [State.Alike, State.slips, State.sizes])

theorem steady_resetAttn (s : State) : s.Steady s.resetAttn :=
  steady_of_alike (by simp [State.Alike, State.slips, State.sizes])

theorem steady_resetRecords (s : State) (cut : CutRead) : s.Steady (s.resetRecords cut) := by
  refine State.Steady.after (t := (s.freeSlots.resetBlocks cut).resetAttn.showDirectory.showTables.showUpdate) ?_ ?_
  · have hblocks : s.Steady (s.freeSlots.resetBlocks cut) := (steady_freeSlots s).trans (steady_resetBlocks _ cut)
    exact (hblocks.trans (steady_resetAttn _)).trans (steady_shown _)
  · simp [State.Alike, State.slips, State.sizes, State.resetRecords]

theorem steady_resetStatus (s : State) (cut : CutRead) : s.Steady (s.resetStatus cut) := by
  have hrecords := steady_resetRecords s cut
  unfold State.resetStatus
  generalize s.resetRecords cut = u at hrecords ⊢
  refine State.Steady.trans ?_ (steady_tableStatus _ _ _ _ _)
  refine State.Steady.trans ?_ (steady_tableStatus _ _ _ _ _)
  exact hrecords.after ⟨rfl, rfl, rfl⟩

theorem steady_resetBuffer (s : State) (buf : Buffer) : s.Steady (s.resetBuffer buf) := by
  unfold State.resetBuffer
  simp only []
  split
  · exact steady_giveBack s _ _ _ _
  · exact steady_self s

theorem steady_raiseIf (s : State) (b : Bool) (f : Factor) : s.Steady (s.raiseIf b f) := by
  cases b
  · exact steady_self s
  · exact steady_raise s f

theorem execResetLine_keeps (cut : CutRead) (s : State) : s.KeptBy (exec (.resetLine cut) s) := by
  rw [resetLine_next]
  refine State.Steady.kept ?_
  unfold State.lineReset State.resetBuffers
  refine State.Steady.trans ?_ (steady_raiseIf _ _ _)
  refine State.Steady.trans ?_ (steady_raiseIf _ _ _)
  exact (steady_resetStatus s cut).trans ((steady_resetBuffer _ _).trans (steady_resetBuffer _ _))

theorem execVehicleWakeInputDeasserted_keeps (s : State) : s.KeptBy (execVehicleWakeInputDeasserted s) := by
  refine State.Steady.kept_done ?_ s
  exact steady_of_alike ⟨rfl, rfl, rfl⟩

theorem execChainAlertDeasserted_keeps (s : State) : s.KeptBy (execChainAlertDeasserted s) := by
  refine State.Steady.kept_done ?_ s
  exact steady_of_alike ⟨rfl, rfl, rfl⟩

theorem execResetNReleased_keeps (s : State) : s.KeptBy (execResetNReleased s) := by
  refine State.Steady.kept ?_
  exact steady_of_alike ⟨rfl, rfl, rfl⟩

theorem exec_keeps (i : Instr) (s : State) : s.KeptBy (exec i s) := by
  cases i with
  | powerOn cut => exact execPowerOn_keeps cut s
  | resetLine cut => exact execResetLine_keeps cut s
  | hostWordWrite addr word => exact execHostWordWrite_keeps addr word s
  | registerWrite => exact kept_accessAsleep s
  | note word => exact execNote_keeps word s
  | wakeLink => exact kept_accessAsleep s
  | post => exact execPost_keeps s
  | refresh => exact execRefresh_keeps s
  | clear => exact execClear_keeps s
  | setMask => exact execSetMask_keeps s
  | levels => exact execLevels_keeps s
  | tablesPlanTable => exact execTablesPlanTable_keeps s
  | tablesLimitTable => exact execTablesLimitTable_keeps s
  | tablesWakeTable => exact execTablesWakeTable_keeps s
  | tablesModuleMap => exact execTablesModuleMap_keeps s
  | hold => exact execHold_keeps s
  | release => exact execRelease_keeps s
  | ackEvents => exact execAckEvents_keeps s
  | chunk => exact execChunk_keeps s
  | unknownKind => exact execUnknownKind_keeps s
  | wakeLine => exact execWakeLine_keeps s
  | wakeChain => exact execWakeChain_keeps s
  | captureSent us => exact execCaptureSent_keeps us s
  | pauseSent us => exact execPauseSent_keeps us s
  | frameSent us => exact execFrameSent_keeps us s
  | sleepBroadcast us => exact execSleepBroadcast_keeps us s
  | balancingStopSent us => exact execBalancingStopSent_keeps us s
  | reply arrival addr tag codes status version err => exact execReply_keeps arrival addr tag codes status version err s
  | echoBack us addr roundTrip kind cells sensors version err =>
    exact execEchoBack_keeps us addr roundTrip kind cells sensors version err s
  | configReply arrival addr tag status version err => exact execConfigReply_keeps arrival addr tag status version err s
  | blockAck arrival addr index toggle crc16 err => exact execBlockAck_keeps arrival addr index toggle crc16 err s
  | replyTimeout us => exact execReplyTimeout_keeps us s
  | characterGap us => exact execCharacterGap_keeps us s
  | strayCharacters us => exact execStrayCharacters_keeps us s
  | suspectPeriodEnd => exact execSuspectPeriodEnd_keeps s
  | chainLossHold => exact execChainLossHold_keeps s
  | autoSurveyTimer => exact execAutoSurveyTimer_keeps s
  | conversionWaitEnd us => exact execConversionWaitEnd_keeps us s
  | wakeToneEnd tone => exact execWakeToneEnd_keeps tone s
  | moduleWakeTimeEnd => exact execModuleWakeTimeEnd_keeps s
  | returnProbe addr => exact execReturnProbe_keeps addr s
  | balancingEnd addr => exact execBalancingEnd_keeps addr s
  | sampleLatch readings => exact execSampleLatch_keeps readings s
  | sampleComplete => exact execSampleComplete_keeps s
  | partTimeTick shunt => exact execPartTimeTick_keeps shunt s
  | snapshotTimer => exact execSnapshotTimer_keeps s
  | planDue index => exact execPlanDue_keeps index s
  | pauseWaitEnd index => exact execPauseWaitEnd_keeps index s
  | burstCaptureDue => exact execBurstCaptureDue_keeps s
  | setBuilt => exact execSetBuilt_keeps s
  | pageWriteEnd => exact execPageWriteEnd_keeps s
  | coilReport coil mA also => exact execCoilReport_keeps coil mA also s
  | inrushEnd => exact execInrushEnd_keeps s
  | prechargeTimeout => exact execPrechargeTimeout_keeps s
  | mainSettleEnd => exact execMainSettleEnd_keeps s
  | openingSecondStep => exact execOpeningSecondStep_keeps s
  | weldWindowEnd => exact execWeldWindowEnd_keeps s
  | deferralLimit => exact execDeferralLimit_keeps s
  | hardCurrent => exact execHardCurrent_keeps s
  | chainLoss => exact execChainLoss_keeps s
  | silenceWarn => exact execSilenceWarn_keeps s
  | silence => exact execSilence_keeps s
  | eventTake pick => exact execEventTake_keeps pick s
  | snapshotWaitLimit => exact execSnapshotWaitLimit_keeps s
  | deepEntry => exact execDeepEntry_keeps s
  | wakeTimer => exact execWakeTimer_keeps s
  | wakeCurrent => exact execWakeCurrent_keeps s
  | wakingSettleEnd => exact execWakingSettleEnd_keeps s
  | wakeOutEnd => exact execWakeOutEnd_keeps s
  | writeBegin => exact execWriteBegin_keeps s
  | writeEnd matched => exact execWriteEnd_keeps matched s
  | startUpReadEnd => exact execStartUpReadEnd_keeps s
  | absorptionStart => exact execAbsorptionStart_keeps s
  | absorptionEnd => exact execAbsorptionEnd_keeps s
  | checkEnd places bytes => exact execCheckEnd_keeps places bytes s
  | chainPauseLimit => exact execChainPauseLimit_keeps s
  | switchProbe => exact execSwitchProbe_keeps s
  | switchWindowEnd => exact execSwitchWindowEnd_keeps s
  | returnLimit addr => exact execReturnLimit_keeps addr s
  | resetNReleased => exact execResetNReleased_keeps s
  | vehicleWakeInputDeasserted => exact execVehicleWakeInputDeasserted_keeps s
  | chainAlertDeasserted => exact execChainAlertDeasserted_keeps s

/-- A step keeps the shape of the part and the recorded slips. -/
theorem step_steady {s t : State} (h : step s = .next t) : s.Steady t := by
  unfold step at h
  split at h
  · obtain rfl := Host.Outcome.next.inj h
    exact steady_self s
  · next i rest _ => exact (exec_keeps i { s with pending := rest } t h).before ⟨rfl, rfl, rfl⟩

/-- Settles O8. -/
theorem stepKeepsShape : Obligations.StepKeepsShape :=
  ⟨fun _ _ hs h => (step_steady h).shape hs, fun _ _ hs h => (step_steady h).slips hs⟩

end Sys2Proof.Machine

namespace Sys2Proof.Machine

/-! ### What keeps the bounds (R27, R98, R175, R186, R187) -/

/-- A state meets the bounds if another does. -/
def State.Bounds (s t : State) : Prop := s.bounded → t.bounded

/-- Two states with the same notes, history, filling windows and levels. -/
def State.SameBounds (s t : State) : Prop :=
  t.port.notes = s.port.notes ∧ t.conv.history = s.conv.history ∧ t.ev.filling = s.ev.filling
    ∧ t.attn.levels = s.attn.levels ∧ t.attn.mask = s.attn.mask

theorem State.Bounds.trans {s t u : State} (h : s.Bounds t) (g : t.Bounds u) : s.Bounds u := fun hs => g (h hs)

theorem State.SameBounds.bounds {s t : State} (h : s.SameBounds t) : s.Bounds t := by
  obtain ⟨hnotes, hhist, hfill, hlev, hmask⟩ := h
  unfold State.Bounds State.bounded
  rw [hnotes, hhist, hfill, hlev, hmask]
  exact id

/-- No note, sample or filling window comes, and the levels stay. -/
theorem bounds_of_le {s t : State} (hnotes : t.port.notes.length ≤ s.port.notes.length)
    (hhist : t.conv.history.length ≤ s.conv.history.length) (hfill : t.ev.filling.length ≤ s.ev.filling.length)
    (hlev : t.attn.levels = s.attn.levels) (hmask : t.attn.mask = s.attn.mask) : s.Bounds t := by
  rintro ⟨h1, h2, h3, h4, h5⟩
  exact ⟨hnotes.trans h1, hhist.trans h2, hfill.trans h3, by rwa [hlev], by rwa [hmask]⟩

/-- A block's bookkeeping before what keeps the bounds. -/
theorem State.Bounds.before {s t u : State} (h : t.Bounds u) (g : s.SameBounds t) : s.Bounds u := g.bounds.trans h

/-- A block's bookkeeping after what keeps the bounds. -/
theorem State.Bounds.after {s t u : State} (h : s.Bounds t) (g : t.SameBounds u) : s.Bounds u := h.trans g.bounds

theorem bounds_self (s : State) : s.Bounds s := id

/-- Every filling window ends, and the samples stay (R99). -/
theorem endWindows_bounds (s : State) : s.Bounds s.endWindows :=
  bounds_of_le (by simp) (by simp) (by
    have hnone : s.endWindows.ev.filling = [] := by
      unfold State.endWindows
      have key : ∀ (l : List Nat) (u : State), (l.foldl (fun s k => State.completeRecord
          { s with ev := s.ev.change k fun r => { r with windowSkipped := true } } k) u).ev.filling = u.ev.filling := by
        intro l
        induction l with
        | nil => exact fun _ => rfl
        | cons k l ih => intro u; rw [List.foldl_cons, ih]; simp
      exact key _ _
    simp [hnone]) (by simp) (by simp)

theorem stopConverter_bounds (s : State) : s.Bounds s.stopConverter := by
  unfold State.stopConverter
  split
  · exact bounds_self s
  · simp only []
    generalize hu : State.clearRun _ = u
    have hsu : s.SameBounds u := by
      rw [← hu]
      simp [State.SameBounds]
    exact hsu.bounds.trans ((endWindows_bounds u).trans (State.SameBounds.bounds (by simp [State.SameBounds])))

theorem clearScan_bounds (s : State) : s.Bounds s.clearScan :=
  bounds_of_le (by simp) (by simp [State.clearScan, State.clearRun]) (by simp) (by simp) (by simp)

theorem restartConverter_bounds (s : State) : s.Bounds s.restartConverter := by
  unfold State.restartConverter
  split
  · exact (clearScan_bounds s).trans (endWindows_bounds _)
  · exact bounds_self s

theorem startConverter_bounds (s : State) : s.Bounds s.startConverter := by
  unfold State.startConverter
  split
  · exact restartConverter_bounds s
  · refine State.Bounds.trans ?_ (endWindows_bounds _)
    exact (clearScan_bounds s).trans (State.SameBounds.bounds (by simp [State.SameBounds]))

theorem enterRun_bounds (s : State) (r : Option PatrolResult) : s.Bounds (s.enterRun r) := by
  unfold State.enterRun
  simp only []
  generalize hu : State.restartConverter _ = u
  have hsu : s.Bounds u := by
    rw [← hu]
    exact State.Bounds.trans (State.SameBounds.bounds (by simp [State.SameBounds])) (restartConverter_bounds _)
  refine hsu.trans (State.SameBounds.bounds ?_)
  split <;> simp [State.SameBounds]

theorem endPatrol_bounds (s : State) (r : PatrolResult) : s.Bounds (s.endPatrol r) := by
  unfold State.endPatrol
  split
  · split
    · exact enterRun_bounds s _
    · exact State.SameBounds.bounds (by simp [State.SameBounds])
  · exact enterRun_bounds s _
  · split
    · exact enterRun_bounds s _
    · exact State.SameBounds.bounds (by simp [State.SameBounds])

theorem patrolReact_bounds (s : State) : s.Bounds s.patrolReact := by
  unfold State.patrolReact
  split
  · exact bounds_self s
  · split
    · split
      · exact bounds_self s
      · exact State.Bounds.trans (State.SameBounds.bounds (by simp [State.SameBounds])) (endPatrol_bounds _ _)
    · simp only []
      split <;> exact State.SameBounds.bounds (by simp [State.SameBounds])
    · exact bounds_self s

theorem returnReact_bounds (s : State) : s.Bounds s.returnReact := by
  unfold State.returnReact
  split
  · exact bounds_self s
  · split
    · exact (stopConverter_bounds s).trans (State.SameBounds.bounds (by simp [State.SameBounds]))
    · exact bounds_self s

theorem round_bounds (s : State) : s.Bounds s.round := by
  unfold State.round
  have hrequests : s.Bounds s.burstReact.answerRequests := State.SameBounds.bounds (by simp [State.SameBounds])
  generalize s.burstReact.answerRequests = u at hrequests ⊢
  have hpatrol : s.Bounds u.patrolReact.returnReact :=
    hrequests.trans ((patrolReact_bounds u).trans (returnReact_bounds _))
  generalize u.patrolReact.returnReact = v at hpatrol ⊢
  exact hpatrol.trans (State.SameBounds.bounds (by simp [State.SameBounds]))

theorem settle_bounds (s : State) : s.Bounds s.settle :=
  ((round_bounds s).trans (round_bounds _)).trans ((round_bounds _).trans (round_bounds _))

theorem finish_bounds (o n : State) : n.Bounds (State.finish o n) := State.SameBounds.bounds (by simp [State.SameBounds])

/-- An outcome's next state meets the bounds if `s` does. -/
def State.BoundedBy (s : State) (o : Out) : Prop := ∀ t, o = .next t → s.Bounds t

theorem State.Bounds.next {s t : State} (h : s.Bounds t) : s.BoundedBy (.next t) := by
  rintro u ⟨⟩
  exact h

theorem State.Bounds.done {s n : State} (h : s.Bounds n) (o : State) : s.BoundedBy (o.done n) :=
  (h.trans (finish_bounds o n)).next

theorem State.Bounds.react {s n : State} (h : s.Bounds n) (o : State) : s.BoundedBy (o.react n) :=
  (h.trans ((settle_bounds n).trans (finish_bounds o _))).next

theorem bounded_idle (s : State) : s.BoundedBy (s.done s) := (bounds_self s).done s

end Sys2Proof.Machine

namespace Sys2Proof.Machine

section
variable {s n : State} (h1 : n.port.notes = s.port.notes) (h2 : n.conv.history = s.conv.history)
  (h3 : n.ev.filling = s.ev.filling) (h4 : n.attn.levels = s.attn.levels) (h5 : n.attn.mask = s.attn.mask)
include h1 h2 h3 h4 h5

@[simp] theorem bounded_done : s.BoundedBy (s.done n) := State.Bounds.done (State.SameBounds.bounds ⟨h1, h2, h3, h4, h5⟩) s

@[simp] theorem bounded_react : s.BoundedBy (s.react n) := State.Bounds.react (State.SameBounds.bounds ⟨h1, h2, h3, h4, h5⟩) s

end

@[simp] theorem bounded_atUs (s : State) (us : Us) : s.BoundedBy (s.done (s.atUs us)) :=
  State.Bounds.done (State.SameBounds.bounds ⟨rfl, rfl, rfl, rfl, rfl⟩) s

/-! ### The commands that leave notes, samples, windows and levels alone in every branch -/

theorem execFrameSent_bounds (us : Us) (s : State) : s.BoundedBy (execFrameSent us s) := by
  unfold execFrameSent
  (repeat' split) <;> simp

theorem execBalancingStopSent_bounds (us : Us) (s : State) : s.BoundedBy (execBalancingStopSent us s) := by
  unfold execBalancingStopSent
  (repeat' split) <;> simp

theorem execReply_bounds (arrival : Arrival) (addr tag : Nat) (codes : List Half) (status : ModuleStatus)
    (version : Half) (err : Option CharError) (s : State) :
    s.BoundedBy (execReply arrival addr tag codes status version err s) := by
  unfold execReply
  (repeat' split) <;> simp

theorem execEchoBack_bounds (us : Us) (addr roundTrip kind cells sensors : Nat) (version : Half)
    (err : Option CharError) (s : State) :
    s.BoundedBy (execEchoBack us addr roundTrip kind cells sensors version err s) := by
  unfold execEchoBack
  (repeat' split) <;> simp

theorem execConfigReply_bounds (arrival : Arrival) (addr tag : Nat) (status : ModuleStatus) (version : Half)
    (err : Option CharError) (s : State) :
    s.BoundedBy (execConfigReply arrival addr tag status version err s) := by
  unfold execConfigReply
  (repeat' split) <;> simp

theorem execBlockAck_bounds (arrival : Arrival) (addr : Nat) (index : Half) (toggle : Bool) (crc16 : Half)
    (err : Option CharError) (s : State) :
    s.BoundedBy (execBlockAck arrival addr index toggle crc16 err s) := by
  unfold execBlockAck
  (repeat' split) <;> simp

theorem execReplyTimeout_bounds (us : Us) (s : State) : s.BoundedBy (execReplyTimeout us s) := by
  unfold execReplyTimeout
  (repeat' split) <;> simp

theorem execCharacterGap_bounds (us : Us) (s : State) : s.BoundedBy (execCharacterGap us s) := by
  unfold execCharacterGap
  (repeat' split) <;> simp

theorem execStrayCharacters_bounds (us : Us) (s : State) : s.BoundedBy (execStrayCharacters us s) := by
  unfold execStrayCharacters
  (repeat' split) <;> simp

theorem execSuspectPeriodEnd_bounds (s : State) : s.BoundedBy (execSuspectPeriodEnd s) := by
  unfold execSuspectPeriodEnd
  (repeat' split) <;> simp

theorem execAutoSurveyTimer_bounds (s : State) : s.BoundedBy (execAutoSurveyTimer s) := by
  unfold execAutoSurveyTimer
  (repeat' split) <;> simp

theorem execConversionWaitEnd_bounds (us : Us) (s : State) : s.BoundedBy (execConversionWaitEnd us s) := by
  unfold execConversionWaitEnd
  (repeat' split) <;> simp

theorem execReturnProbe_bounds (addr : Nat) (s : State) : s.BoundedBy (execReturnProbe addr s) := by
  unfold execReturnProbe
  (repeat' split) <;> simp

theorem execBalancingEnd_bounds (addr : Nat) (s : State) : s.BoundedBy (execBalancingEnd addr s) := by
  unfold execBalancingEnd
  (repeat' split) <;> simp

theorem execSampleLatch_bounds (readings : Readings) (s : State) : s.BoundedBy (execSampleLatch readings s) := by
  unfold execSampleLatch
  (repeat' split) <;> simp

theorem execPartTimeTick_bounds (shunt : Nat) (s : State) : s.BoundedBy (execPartTimeTick shunt s) := by
  unfold execPartTimeTick
  simp

theorem execSnapshotTimer_bounds (s : State) : s.BoundedBy (execSnapshotTimer s) := by
  unfold execSnapshotTimer
  (repeat' split) <;> simp

theorem execPlanDue_bounds (index : Nat) (s : State) : s.BoundedBy (execPlanDue index s) := by
  unfold execPlanDue
  (repeat' split) <;> simp

theorem execPauseWaitEnd_bounds (index : Nat) (s : State) : s.BoundedBy (execPauseWaitEnd index s) := by
  unfold execPauseWaitEnd
  (repeat' split) <;> simp

theorem execBurstCaptureDue_bounds (s : State) : s.BoundedBy (execBurstCaptureDue s) := by
  unfold execBurstCaptureDue
  (repeat' split) <;> simp

theorem execSetBuilt_bounds (s : State) : s.BoundedBy (execSetBuilt s) := by
  unfold execSetBuilt
  (repeat' split) <;> simp

theorem execPageWriteEnd_bounds (s : State) : s.BoundedBy (execPageWriteEnd s) := by
  unfold execPageWriteEnd
  (repeat' split) <;> simp

theorem execInrushEnd_bounds (s : State) : s.BoundedBy (execInrushEnd s) := by
  unfold execInrushEnd
  (repeat' split) <;> simp

theorem execPrechargeTimeout_bounds (s : State) : s.BoundedBy (execPrechargeTimeout s) := by
  unfold execPrechargeTimeout
  (repeat' split) <;> simp

theorem execMainSettleEnd_bounds (s : State) : s.BoundedBy (execMainSettleEnd s) := by
  unfold execMainSettleEnd
  (repeat' split) <;> simp

theorem execOpeningSecondStep_bounds (s : State) : s.BoundedBy (execOpeningSecondStep s) := by
  unfold execOpeningSecondStep
  (repeat' split) <;> simp

theorem execWeldWindowEnd_bounds (s : State) : s.BoundedBy (execWeldWindowEnd s) := by
  unfold execWeldWindowEnd
  (repeat' split) <;> simp

theorem execDeferralLimit_bounds (s : State) : s.BoundedBy (execDeferralLimit s) := by
  unfold execDeferralLimit
  (repeat' split) <;> simp

theorem execHardCurrent_bounds (s : State) : s.BoundedBy (execHardCurrent s) := by
  unfold execHardCurrent
  (repeat' split) <;> simp

theorem execChainLoss_bounds (s : State) : s.BoundedBy (execChainLoss s) := by
  unfold execChainLoss
  (repeat' split) <;> simp

theorem execSilenceWarn_bounds (s : State) : s.BoundedBy (execSilenceWarn s) := by
  unfold execSilenceWarn
  (repeat' split) <;> simp

theorem execSilence_bounds (s : State) : s.BoundedBy (execSilence s) := by
  unfold execSilence
  (repeat' split) <;> simp

theorem execSnapshotWaitLimit_bounds (s : State) : s.BoundedBy (execSnapshotWaitLimit s) := by
  unfold execSnapshotWaitLimit
  (repeat' split) <;> simp

theorem execWakeOutEnd_bounds (s : State) : s.BoundedBy (execWakeOutEnd s) := by
  unfold execWakeOutEnd
  (repeat' split) <;> simp

theorem execWriteBegin_bounds (s : State) : s.BoundedBy (execWriteBegin s) := by
  unfold execWriteBegin
  simp

theorem execWriteEnd_bounds (matched : Bool) (s : State) : s.BoundedBy (execWriteEnd matched s) := by
  unfold execWriteEnd
  (repeat' split) <;> simp

theorem execStartUpReadEnd_bounds (s : State) : s.BoundedBy (execStartUpReadEnd s) := by
  unfold execStartUpReadEnd
  (repeat' split) <;> simp

theorem execAbsorptionStart_bounds (s : State) : s.BoundedBy (execAbsorptionStart s) := by
  unfold execAbsorptionStart
  simp

theorem execAbsorptionEnd_bounds (s : State) : s.BoundedBy (execAbsorptionEnd s) := by
  unfold execAbsorptionEnd
  (repeat' split) <;> simp

theorem execCheckEnd_bounds (places : List Nat) (bytes : List Byte) (s : State) :
    s.BoundedBy (execCheckEnd places bytes s) := by
  unfold execCheckEnd
  (repeat' split) <;> simp

theorem execChainPauseLimit_bounds (s : State) : s.BoundedBy (execChainPauseLimit s) := by
  unfold execChainPauseLimit
  (repeat' split) <;> simp

theorem execSwitchProbe_bounds (s : State) : s.BoundedBy (execSwitchProbe s) := by
  unfold execSwitchProbe
  (repeat' split) <;> simp

theorem execSwitchWindowEnd_bounds (s : State) : s.BoundedBy (execSwitchWindowEnd s) := by
  unfold execSwitchWindowEnd
  (repeat' split) <;> simp

theorem execReturnLimit_bounds (addr : Nat) (s : State) : s.BoundedBy (execReturnLimit addr s) := by
  unfold execReturnLimit
  (repeat' split) <;> simp

theorem execVehicleWakeInputDeasserted_bounds (s : State) : s.BoundedBy (execVehicleWakeInputDeasserted s) := by
  unfold execVehicleWakeInputDeasserted
  simp

theorem execChainAlertDeasserted_bounds (s : State) : s.BoundedBy (execChainAlertDeasserted s) := by
  unfold execChainAlertDeasserted
  simp


/-! ### The notes and the levels -/

/-- A taken note leaves the queue (R176). -/
theorem takeNote_bounds {k : NoteKind} {hand : Word → State → State} (h : ∀ w (t : State), t.Bounds (hand w t)) (s : State) :
    s.Bounds (s.takeNote k hand) := by
  unfold State.takeNote
  split
  · exact bounds_self s
  · next w l hn =>
    have htaken : s.Bounds { s with port.notes := l } := bounds_of_le (by simp [hn]) le_rfl le_rfl rfl rfl
    split
    · simp only []
      split
      · exact htaken.trans (h w _)
      · exact htaken.trans (State.SameBounds.bounds (by simp [State.SameBounds]))
    · exact bounds_self s

theorem takeTables_bounds {id : Nat} {hand : State → State} (h : ∀ t : State, t.Bounds (hand t)) (s : State) :
    s.Bounds (s.takeTables id hand) := by
  unfold State.takeTables
  split
  · exact bounds_self s
  · split
    · exact bounds_self s
    · exact takeNote_bounds (fun _ => h) s

theorem wakeCause_bounds (s : State) (x : Source) : s.Bounds (s.wakeCause x) := by
  unfold State.wakeCause
  split
  · exact (enterRun_bounds _ _).before ⟨rfl, rfl, rfl, rfl, rfl⟩
  · exact State.SameBounds.bounds (by simp [State.SameBounds])

theorem accessAsleep_bounds (s : State) : s.BoundedBy s.accessAsleep := by
  unfold State.accessAsleep
  split
  · exact (wakeCause_bounds s .link).react s
  · exact bounded_idle s

theorem execHostWordWrite_bounds (addr : BitVec 15) (word : Word) (s : State) :
    s.BoundedBy (execHostWordWrite addr word s) := by
  unfold execHostWordWrite
  split
  · exact bounded_done rfl rfl rfl rfl rfl
  · exact accessAsleep_bounds s

/-- A note joins the queue only while fewer than 8 wait (R175). -/
theorem execNote_bounds (word : Word) (s : State) : s.BoundedBy (execNote word s) := by
  unfold execNote
  split
  · exact accessAsleep_bounds s
  · split
    · next hroom =>
      refine State.Bounds.done (fun hs => ?_) s
      obtain ⟨-, hrest⟩ := hs
      refine ⟨?_, hrest⟩
      simp only [List.length_append, List.length_singleton]
      exact hroom
    · simp

theorem execPost_bounds (s : State) : s.BoundedBy (execPost s) := by
  unfold execPost
  refine State.Bounds.react (takeNote_bounds (fun w t => State.SameBounds.bounds ?_) s) s
  simp only []
  split <;> simp [State.SameBounds]

theorem execRefresh_bounds (s : State) : s.BoundedBy (execRefresh s) := by
  unfold execRefresh
  refine State.Bounds.done (takeNote_bounds (fun _ _ => ?_) s) s
  exact State.SameBounds.bounds ⟨rfl, rfl, rfl, rfl, rfl⟩

theorem execClear_bounds (s : State) : s.BoundedBy (execClear s) :=
  State.Bounds.done (takeNote_bounds (fun _ _ => State.SameBounds.bounds (by simp [State.SameBounds])) s) s

/-- The mask level is the argument of a SET_MASK, which is at most 3 (R176, R187). -/
theorem execSetMask_bounds (s : State) : s.BoundedBy (execSetMask s) := by
  refine State.Bounds.done ?_ s
  unfold State.takeNote
  split
  · exact bounds_self s
  · next w l hn =>
    split
    · simp only []
      split
      · next ha =>
        rintro ⟨hnotes, hhist, hfill, hlev, -⟩
        rw [hn] at hnotes
        exact ⟨Nat.le_of_succ_le hnotes, hhist, hfill, hlev, by simpa [NoteKind.accepts] using ha⟩
      · refine bounds_of_le ?_ ?_ ?_ ?_ ?_ <;> simp [hn]
    · exact bounds_self s

/-- A level above 3 is taken as 3 (R186). -/
theorem readLevels_bounds (s : State) : s.Bounds s.readLevels := by
  rintro ⟨hnotes, hhist, hfill, -, hmask⟩
  refine ⟨hnotes, hhist, hfill, fun l hl => ?_, hmask⟩
  simp only [State.readLevels, State.judgeAttn, List.mem_map] at hl
  obtain ⟨b, -, rfl⟩ := hl
  exact Nat.min_le_right _ _

theorem execLevels_bounds (s : State) : s.BoundedBy (execLevels s) :=
  State.Bounds.done (takeNote_bounds (fun _ t => readLevels_bounds t) s) s

theorem execTablesPlanTable_bounds (s : State) : s.BoundedBy (execTablesPlanTable s) :=
  State.Bounds.done (takeTables_bounds (fun _ => State.SameBounds.bounds (by simp [State.SameBounds])) s) s

theorem execTablesLimitTable_bounds (s : State) : s.BoundedBy (execTablesLimitTable s) :=
  State.Bounds.done (takeTables_bounds (fun _ => State.SameBounds.bounds (by simp [State.SameBounds])) s) s

theorem execTablesWakeTable_bounds (s : State) : s.BoundedBy (execTablesWakeTable s) :=
  State.Bounds.done (takeTables_bounds (fun _ => State.SameBounds.bounds (by simp [State.SameBounds])) s) s

theorem execTablesModuleMap_bounds (s : State) : s.BoundedBy (execTablesModuleMap s) :=
  State.Bounds.react (takeTables_bounds (fun _ => State.SameBounds.bounds (by simp [State.SameBounds])) s) s

theorem execHold_bounds (s : State) : s.BoundedBy (execHold s) := by
  unfold execHold
  refine State.Bounds.done (takeNote_bounds (fun _ _ => ?_) s) s
  exact State.SameBounds.bounds ⟨rfl, rfl, rfl, rfl, rfl⟩

theorem execRelease_bounds (s : State) : s.BoundedBy (execRelease s) := by
  unfold execRelease
  refine State.Bounds.done (takeNote_bounds (fun _ _ => ?_) s) s
  exact State.SameBounds.bounds ⟨rfl, rfl, rfl, rfl, rfl⟩

theorem execAckEvents_bounds (s : State) : s.BoundedBy (execAckEvents s) := by
  refine State.Bounds.done (takeNote_bounds (fun w t => ?_) s) s
  split
  · next u hu =>
    refine State.SameBounds.bounds ?_
    unfold State.ackUpTo at hu
    split at hu
    · cases hu
    · obtain rfl := Option.some.inj hu
      simp [State.SameBounds]
  · exact State.SameBounds.bounds (by simp [State.SameBounds])

theorem execChunk_bounds (s : State) : s.BoundedBy (execChunk s) :=
  State.Bounds.done (takeNote_bounds (fun _ _ => State.SameBounds.bounds (by simp [State.SameBounds])) s) s

theorem execUnknownKind_bounds (s : State) : s.BoundedBy (execUnknownKind s) := by
  refine State.Bounds.done ?_ s
  split
  · exact bounds_self s
  · next w l hn =>
    split
    · exact bounds_self s
    · refine bounds_of_le ?_ ?_ ?_ ?_ ?_ <;> simp [hn]

/-! ### The wakes -/

theorem execWakeLine_bounds (s : State) : s.BoundedBy (execWakeLine s) := by
  unfold execWakeLine
  simp only []
  split
  · refine State.Bounds.react ((wakeCause_bounds _ _).before ?_) _
    exact ⟨rfl, rfl, rfl, rfl, rfl⟩
  · exact bounded_done rfl rfl rfl rfl rfl

theorem execWakeChain_bounds (s : State) : s.BoundedBy (execWakeChain s) := by
  unfold execWakeChain
  simp only []
  split
  · refine State.Bounds.react ((wakeCause_bounds _ _).before ?_) _
    exact ⟨rfl, rfl, rfl, rfl, rfl⟩
  · exact bounded_done rfl rfl rfl rfl rfl

theorem execWakeTimer_bounds (s : State) : s.BoundedBy (execWakeTimer s) := by
  unfold execWakeTimer
  split
  · refine State.Bounds.react ((wakeCause_bounds _ _).before ?_) s
    exact ⟨rfl, rfl, rfl, rfl, rfl⟩
  · exact bounded_idle s

theorem execWakeCurrent_bounds (s : State) : s.BoundedBy (execWakeCurrent s) := by
  unfold execWakeCurrent
  split
  · refine State.Bounds.react ((wakeCause_bounds _ _).before ?_) s
    exact ⟨rfl, rfl, rfl, rfl, rfl⟩
  · exact bounded_idle s

/-- The chain falls ASLEEP, with a cause where the chain alert is asserted (R9, R114). -/
theorem execSleepBroadcast_bounds (us : Us) (s : State) : s.BoundedBy (execSleepBroadcast us s) := by
  unfold execSleepBroadcast
  split
  · simp only []
    generalize hu : (if s.chain.wakeAfterSleep = true then _ else _ : State) = u
    have hsu : s.Bounds u := by
      rw [← hu]
      split <;> exact State.SameBounds.bounds (by simp [State.SameBounds])
    refine State.Bounds.react (hsu.trans ?_) s
    split
    · unfold State.alertAtSleep
      split
      · exact bounds_self u
      · exact (wakeCause_bounds _ _).before ⟨rfl, rfl, rfl, rfl, rfl⟩
    · exact bounds_self u
  · simp

theorem execDeepEntry_bounds (s : State) : s.BoundedBy (execDeepEntry s) := by
  unfold execDeepEntry
  split
  · exact bounded_idle s
  · split
    · exact State.Bounds.react ((stopConverter_bounds s).trans (State.SameBounds.bounds (by
        simp [State.SameBounds, State.enterDeep]))) s
    · exact bounded_idle s

theorem execWakingSettleEnd_bounds (s : State) : s.BoundedBy (execWakingSettleEnd s) := by
  unfold execWakingSettleEnd
  split
  · refine State.Bounds.react (State.Bounds.trans (t := State.startConverter { s with power.settled := true }) ?_
      (State.SameBounds.bounds (by simp [State.SameBounds]))) s
    exact (startConverter_bounds _).before ⟨rfl, rfl, rfl, rfl, rfl⟩
  · exact bounded_idle s

theorem endModuleWake_bounds (s : State) (gap : Bool) : s.Bounds (s.endModuleWake gap) := by
  unfold State.endModuleWake
  simp only []
  split
  · exact State.Bounds.trans (State.SameBounds.bounds (by simp [State.SameBounds])) (enterRun_bounds _ _)
  · split <;> exact State.SameBounds.bounds (by simp [State.SameBounds])
  · exact State.SameBounds.bounds (by simp [State.SameBounds])

theorem execModuleWakeTimeEnd_bounds (s : State) : s.BoundedBy (execModuleWakeTimeEnd s) := by
  unfold execModuleWakeTimeEnd
  split
  · split
    · exact (endModuleWake_bounds s _).react s
    · exact bounded_idle s
  · split
    · simp
    · exact bounded_idle s
  · exact bounded_idle s

/-! ### The cell chain and the contactors -/

theorem execCaptureSent_bounds (us : Us) (s : State) : s.BoundedBy (execCaptureSent us s) := by
  unfold execCaptureSent
  simp only []
  repeat' split
  all_goals simp

theorem execPauseSent_bounds (us : Us) (s : State) : s.BoundedBy (execPauseSent us s) := by
  unfold execPauseSent
  simp only []
  repeat' split
  all_goals simp

theorem execChainLossHold_bounds (s : State) : s.BoundedBy (execChainLossHold s) := by
  unfold execChainLossHold
  simp only []
  repeat' split
  all_goals simp

theorem execWakeToneEnd_bounds (tone : ToneEnd) (s : State) : s.BoundedBy (execWakeToneEnd tone s) := by
  unfold execWakeToneEnd
  split
  · split
    · exact bounded_done rfl rfl rfl rfl rfl
    · simp
  all_goals
    split
    · rcases endResetTone_cases (s.atUs tone.us) with ⟨_, _, _, _, he⟩ | he <;> rw [he] <;>
        exact bounded_done rfl rfl rfl rfl rfl
    · simp

theorem execCoilReport_bounds (coil : CoilName) (mA : Nat) (also : Option (CoilName × Nat)) (s : State) :
    s.BoundedBy (execCoilReport coil mA also s) := by
  unfold execCoilReport
  simp only []
  repeat' split
  all_goals simp

end Sys2Proof.Machine

namespace Sys2Proof.Machine

/-! ### The recorder and the converter -/

/-- A window begins to fill only while fewer than two fill (R98). -/
theorem openWindow_bounds (s : State) (slot : Nat) : s.Bounds (s.openWindow slot) := by
  unfold State.openWindow
  split
  · exact State.SameBounds.bounds (by simp [State.SameBounds])
  · split
    · next hroom =>
      rintro ⟨hnotes, hhist, -, hlev, hmask⟩
      refine ⟨hnotes, hhist, ?_, hlev, hmask⟩
      simp only [Bool.and_eq_true, decide_eq_true_eq] at hroom
      simpa using hroom.2
    · exact State.SameBounds.bounds (by simp [State.SameBounds])

theorem takeEvent_bounds (s : State) (e : SentEvent) : s.Bounds (s.takeEvent e) := by
  unfold State.takeEvent
  simp only []
  generalize hu : (if s.ev.chooseSlot.2 = true then _ else _ : State) = u
  have hsu : s.Bounds u := by
    rw [← hu]
    split <;> refine bounds_of_le ?_ ?_ ?_ ?_ ?_ <;> simp [Recorder.empty, List.length_filter_le]
  split
  · exact hsu.trans (openWindow_bounds u _)
  · exact hsu.after (by simp [State.SameBounds])

theorem execEventTake_bounds (pick : Nat) (s : State) : s.BoundedBy (execEventTake pick s) := by
  unfold execEventTake
  split
  · exact bounded_idle s
  · next e l _ =>
    have htaken : s.Bounds (State.takeEvent { s with ev.inbox := l } e) :=
      (takeEvent_bounds _ e).before ⟨rfl, rfl, rfl, rfl, rfl⟩
    exact (htaken.after (by simp [State.SameBounds])).react s

theorem fillOne_bounds (s : State) (x : Sample) (slot : Nat) : s.Bounds (s.fillOne x slot) := by
  unfold State.fillOne
  split
  · exact bounds_self s
  · split
    · simp only []
      split
      · exact State.SameBounds.bounds (by simp [State.SameBounds])
      · refine bounds_of_le ?_ ?_ ?_ ?_ ?_ <;> simp [List.length_filter_le]
    · exact bounds_self s

theorem fillWindows_bounds (s : State) (x : Sample) : s.Bounds (s.fillWindows x) := by
  have key : ∀ (l : List Nat) (u : State), u.Bounds (l.foldl (fun s k => s.fillOne x k) u) := by
    intro l
    induction l with
    | nil => exact bounds_self
    | cons k l ih => exact fun u => (fillOne_bounds u x k).trans (ih _)
  exact key _ s

/-- The oldest of 64 samples gives way (R27). -/
theorem pushSample_length {h : List Sample} (hlen : h.length ≤ 64) (x : Sample) : (pushSample h x).length ≤ 64 := by
  unfold pushSample
  split <;> simp <;> omega

theorem completeSample_bounds (s : State) (x : Sample) : s.Bounds (s.completeSample x) := by
  refine State.Bounds.trans (fun hs => ?_) (fillWindows_bounds _ x)
  obtain ⟨hnotes, hhist, hfill, hlev, hmask⟩ := hs
  refine ⟨?_, ?_, ?_, by simpa using hlev, ?_⟩ <;> simp [State.charge, pushSample_length, *]

theorem execSampleComplete_bounds (s : State) : s.BoundedBy (execSampleComplete s) := by
  unfold execSampleComplete
  split
  · split
    · exact (completeSample_bounds s _).react s
    · exact bounded_idle s
  · exact bounded_idle s

/-! ### The resets, and every command -/

theorem execPowerOn_bounds (cut : CutRead) (s : State) : s.BoundedBy (execPowerOn cut s) := by
  refine State.Bounds.next fun _ => ?_
  simp [State.bounded, powerOnState, convAtReset, copies]

/-- RESET_LINE rereads the levels and sets the mask level to 0 (R190). -/
theorem resetAttn_bounds (s : State) : s.Bounds s.resetAttn := by
  refine State.Bounds.trans ?_ (readLevels_bounds _)
  rintro ⟨hnotes, hhist, hfill, hlev, -⟩
  exact ⟨hnotes, hhist, hfill, hlev, Nat.zero_le _⟩

theorem lineReset_bounds (s : State) (cut : CutRead) : s.Bounds (s.lineReset cut) := by
  have hblocks : s.Bounds (s.freeSlots.resetBlocks cut) := by
    refine bounds_of_le ?_ ?_ ?_ ?_ ?_ <;> simp [State.resetBlocks, convAtReset, Recorder.reset]
  have hattn : s.Bounds (s.freeSlots.resetBlocks cut).resetAttn := hblocks.trans (resetAttn_bounds _)
  exact hattn.after (by simp [State.SameBounds, State.lineReset, State.resetStatus, State.resetRecords, State.resetBuffers])

theorem execResetLine_bounds (cut : CutRead) (s : State) : s.BoundedBy (exec (.resetLine cut) s) := by
  rw [resetLine_next]
  exact (lineReset_bounds s cut).next

theorem execResetNReleased_bounds (s : State) : s.BoundedBy (execResetNReleased s) :=
  State.Bounds.next (State.SameBounds.bounds ⟨rfl, rfl, rfl, rfl, rfl⟩)

theorem exec_bounds (i : Instr) (s : State) : s.BoundedBy (exec i s) := by
  cases i with
  | powerOn cut => exact execPowerOn_bounds cut s
  | resetLine cut => exact execResetLine_bounds cut s
  | hostWordWrite addr word => exact execHostWordWrite_bounds addr word s
  | registerWrite addr word => exact accessAsleep_bounds s
  | note word => exact execNote_bounds word s
  | wakeLink => exact accessAsleep_bounds s
  | post => exact execPost_bounds s
  | refresh => exact execRefresh_bounds s
  | clear => exact execClear_bounds s
  | setMask => exact execSetMask_bounds s
  | levels => exact execLevels_bounds s
  | tablesPlanTable => exact execTablesPlanTable_bounds s
  | tablesLimitTable => exact execTablesLimitTable_bounds s
  | tablesWakeTable => exact execTablesWakeTable_bounds s
  | tablesModuleMap => exact execTablesModuleMap_bounds s
  | hold => exact execHold_bounds s
  | release => exact execRelease_bounds s
  | ackEvents => exact execAckEvents_bounds s
  | chunk => exact execChunk_bounds s
  | unknownKind => exact execUnknownKind_bounds s
  | wakeLine => exact execWakeLine_bounds s
  | wakeChain => exact execWakeChain_bounds s
  | captureSent us => exact execCaptureSent_bounds us s
  | pauseSent us => exact execPauseSent_bounds us s
  | frameSent us => exact execFrameSent_bounds us s
  | sleepBroadcast us => exact execSleepBroadcast_bounds us s
  | balancingStopSent us => exact execBalancingStopSent_bounds us s
  | reply arrival addr tag codes status version err => exact execReply_bounds arrival addr tag codes status version err s
  | echoBack us addr roundTrip kind cells sensors version err =>
    exact execEchoBack_bounds us addr roundTrip kind cells sensors version err s
  | configReply arrival addr tag status version err => exact execConfigReply_bounds arrival addr tag status version err s
  | blockAck arrival addr index toggle crc16 err => exact execBlockAck_bounds arrival addr index toggle crc16 err s
  | replyTimeout us => exact execReplyTimeout_bounds us s
  | characterGap us => exact execCharacterGap_bounds us s
  | strayCharacters us => exact execStrayCharacters_bounds us s
  | suspectPeriodEnd => exact execSuspectPeriodEnd_bounds s
  | chainLossHold => exact execChainLossHold_bounds s
  | autoSurveyTimer => exact execAutoSurveyTimer_bounds s
  | conversionWaitEnd us => exact execConversionWaitEnd_bounds us s
  | wakeToneEnd tone => exact execWakeToneEnd_bounds tone s
  | moduleWakeTimeEnd => exact execModuleWakeTimeEnd_bounds s
  | returnProbe addr => exact execReturnProbe_bounds addr s
  | balancingEnd addr => exact execBalancingEnd_bounds addr s
  | sampleLatch readings => exact execSampleLatch_bounds readings s
  | sampleComplete => exact execSampleComplete_bounds s
  | partTimeTick shunt => exact execPartTimeTick_bounds shunt s
  | snapshotTimer => exact execSnapshotTimer_bounds s
  | planDue index => exact execPlanDue_bounds index s
  | pauseWaitEnd index => exact execPauseWaitEnd_bounds index s
  | burstCaptureDue => exact execBurstCaptureDue_bounds s
  | setBuilt => exact execSetBuilt_bounds s
  | pageWriteEnd => exact execPageWriteEnd_bounds s
  | coilReport coil mA also => exact execCoilReport_bounds coil mA also s
  | inrushEnd => exact execInrushEnd_bounds s
  | prechargeTimeout => exact execPrechargeTimeout_bounds s
  | mainSettleEnd => exact execMainSettleEnd_bounds s
  | openingSecondStep => exact execOpeningSecondStep_bounds s
  | weldWindowEnd => exact execWeldWindowEnd_bounds s
  | deferralLimit => exact execDeferralLimit_bounds s
  | hardCurrent => exact execHardCurrent_bounds s
  | chainLoss => exact execChainLoss_bounds s
  | silenceWarn => exact execSilenceWarn_bounds s
  | silence => exact execSilence_bounds s
  | eventTake pick => exact execEventTake_bounds pick s
  | snapshotWaitLimit => exact execSnapshotWaitLimit_bounds s
  | deepEntry => exact execDeepEntry_bounds s
  | wakeTimer => exact execWakeTimer_bounds s
  | wakeCurrent => exact execWakeCurrent_bounds s
  | wakingSettleEnd => exact execWakingSettleEnd_bounds s
  | wakeOutEnd => exact execWakeOutEnd_bounds s
  | writeBegin => exact execWriteBegin_bounds s
  | writeEnd matched => exact execWriteEnd_bounds matched s
  | startUpReadEnd => exact execStartUpReadEnd_bounds s
  | absorptionStart => exact execAbsorptionStart_bounds s
  | absorptionEnd => exact execAbsorptionEnd_bounds s
  | checkEnd places bytes => exact execCheckEnd_bounds places bytes s
  | chainPauseLimit => exact execChainPauseLimit_bounds s
  | switchProbe => exact execSwitchProbe_bounds s
  | switchWindowEnd => exact execSwitchWindowEnd_bounds s
  | returnLimit addr => exact execReturnLimit_bounds addr s
  | resetNReleased => exact execResetNReleased_bounds s
  | vehicleWakeInputDeasserted => exact execVehicleWakeInputDeasserted_bounds s
  | chainAlertDeasserted => exact execChainAlertDeasserted_bounds s

theorem step_bounds {s t : State} (h : step s = .next t) : s.Bounds t := by
  unfold step at h
  split at h
  · obtain rfl := Host.Outcome.next.inj h
    exact bounds_self s
  · next i rest _ => exact (exec_bounds i { s with pending := rest } t h).before ⟨rfl, rfl, rfl, rfl, rfl⟩

/-- Settles O6. -/
theorem stepKeepsBounds : Obligations.StepKeepsBounds := fun _ _ hs h => step_bounds h hs

end Sys2Proof.Machine

namespace Sys2Proof.Machine

/-! ### A millisecond passes (R30) -/

/-- A calm state is calm after a millisecond: it touches nothing that the end of a step looks at. -/
theorem tick_calm {s : State} (h : s.calm) (shunt : Nat) : (s.tick shunt).calm :=
  calm_of_less h (by simp) (by simp) (by simp [Sup.surge]) (by simp) (by simp)

/-- Of the memory the silence count's moment rewrites only the count. -/
theorem sameBut_silenceShown {s n : State} {rs : List (Nat × Nat)} (h : s.sameBut n rs) (hw : n.canonical)
    (hr : silenceRec ∈ rs) : s.sameBut n.silenceShown rs := by
  intro a ha
  unfold State.silenceShown
  split
  · exact (read_put_of_out hw (by simpa [silenceRec] using ha _ hr)).trans (h a ha)
  · exact h a ha

/-- A rewrite of the converter record changes no other memory. -/
theorem sameBut_showConverter {s n : State} {rs : List (Nat × Nat)} (h : s.sameBut n rs) (hw : n.canonical)
    (hr : converterRec ∈ rs) : s.sameBut n.showConverter rs := fun a ha =>
  (read_store_of_out hw (by simpa [converterRec, converterBytes_length] using ha _ hr)).trans (h a ha)

/-- The millisecond of a part in RUN whose converter scans, before the loss is judged. -/
def State.runCounted (s : State) : State := { s with
  conv.part := s.conv.part + 1
  conv.snapTimer := bump snapshotEnd s.conv.snapTimer
  plan.inForce := s.plan.plans
  plan.dueDone := s.plan.dueDone.map fun _ => false
  sup.silence := if s.sup.armed then max s.sup.silence (min (s.sup.silence + 1) s.silenceEnd)
    else bump 4294967295 s.sup.silence }

theorem tick_run {s : State} (shunt : Nat) (hp : s.power.state = .run) (hs : s.conv.scanning = true) :
    s.tick shunt = s.runCounted.showConverter.silenceShown.judgeLoss := by
  simp [State.tick, State.countStopped, State.countPatrol, State.countSnapshot, State.countSilence, hp, hs,
    PowerState.awake, State.runCounted, Sup.armed, State.silenceEnd]

/-- The millisecond of a part in DEEP whose converter is stopped, before the loss is judged. -/
def State.deepCounted (s : State) (shunt : Nat) : State := { s with
  conv.part := s.conv.part + 1
  conv.unsampled := bump unsampledMax s.conv.unsampled
  plan.inForce := s.plan.plans
  plan.dueDone := s.plan.dueDone.map fun _ => false
  power.timer := s.power.timer - 1
  power.compRun := if s.power.wakeTable.threshold < shunt then bump 1000 s.power.compRun else 0
  power.compFired := decide (s.power.wakeTable.threshold < shunt) && s.power.compFired }

theorem tick_deep {s : State} (shunt : Nat) (hp : s.power.state = .deep) (hs : s.conv.scanning = false)
    (ht : s.power.timerRunning = true) : s.tick shunt = (s.deepCounted shunt).silenceShown.judgeLoss := by
  simp [State.tick, State.countStopped, State.countPatrol, State.countSnapshot, State.countSilence, hp, hs, ht,
    PowerState.awake, State.deepCounted]

/-- The silence count's moment touches the memory alone. -/
theorem silenceShown_eq (s : State) : s.silenceShown = { s with mem := s.silenceShown.mem } := by
  unfold State.silenceShown
  split <;> rfl

/-- A millisecond changes none of the records that the end of a step shows. -/
theorem tick_mirrors (s : State) (shunt : Nat) (rs : List (Nat × Nat)) : s.mirrors (s.tick shunt) rs := by
  simp [State.mirrors, pointerBytes, countBytes, contactorBytes, powerBytes, Sup.surge, Sup.coils]

/-- A millisecond completes with the counts that it leaves and the records of `rs` rewritten. -/
theorem goes_tick {s n : State} {p : State → Prop} (shunt : Nat) (rs : List (Nat × Nat)) (hw : s.canonical) (hc : s.calm)
    (hn : s.tick shunt = n) (hsame : s.sameBut n rs)
    (hp : ∀ M, s.sameBut { n with mem := M } rs → p { n with mem := M }) : Goes (.partTimeTick shunt) s p := by
  subst hn
  exact goes_shown _ rfl (tick_calm hc shunt) (by simp)
    (hp _ (sameBut_mirror (tick_wf s shunt hw) hsame (tick_mirrors s shunt rs)))

/-- Settles O44. -/
theorem millisecondPasses : Obligations.MillisecondPasses := by
  intro shunt s hw hc
  refine ⟨fun hp hs => ?_, fun hp hs ht => ?_⟩
  · have hsame : s.sameBut s.runCounted.showConverter.silenceShown [silenceRec, converterRec] :=
      sameBut_silenceShown (sameBut_showConverter (sameBut_of_mem rfl) hw (by simp)) (showConverter_wf _ hw) (by simp)
    refine goes_tick shunt _ hw hc (tick_run shunt hp hs) hsame fun M hM => ⟨?_, ?_, ?_, ?_, hM⟩
    · rw [silenceShown_eq]
      rfl
    all_goals
      rw [silenceShown_eq]
      simp only [State.judgeLoss, State.showConverter, State.runCounted, Sup.armed]
    · intro hl hn
      simp [hl, bump]
      omega
    · intro hl hn
      simp only [hl, decide_true, if_true]
      omega
    · intro hl hn
      simp only [hl, decide_true, if_true]
      omega
  · have hsame : s.sameBut (s.deepCounted shunt).silenceShown [silenceRec] :=
      sameBut_silenceShown (sameBut_of_mem rfl) hw (by simp)
    refine goes_tick shunt _ hw hc (tick_deep shunt hp hs ht) hsame fun M hM => ⟨?_, hM⟩
    rw [silenceShown_eq]
    rfl

end Sys2Proof.Machine

namespace Sys2Proof.Machine

/-! ### Writes are asked for and begin (R34, R131, R141) -/

/-- A step that changes the store's record alone completes with it rewritten. -/
theorem goes_storeShown {c : Instr} {s : State} {p : State → Prop} (n : State) (hex : exec c s = s.done n) (hw : s.canonical)
    (hc : s.calm) (hn : n = { s with conv := n.conv, store := n.store })
    (hp : ∀ M, s.sameBut { n with mem := M } [storeRec] → p { n with mem := M }) : Goes c s p := by
  have hcalm : n.calm := by
    rw [hn]
    exact calm_of_same hc rfl rfl rfl rfl
  have hmem : n.mem = s.mem := by rw [hn]
  refine goes_shown n hex hcalm (by rw [hn]; exact id) (hp _ ?_)
  refine sameBut_mirror (by rw [hmem]; exact hw) (sameBut_of_mem hmem) ?_
  rw [hn]
  simp [State.mirrors]

theorem writeBegin_next {s : State} (hc : s.calm) (h : s.beginWrite = s) : exec .writeBegin s = .next s :=
  next_done (n := s) (congrArg s.done h) hc (by simp [State.shownAlike])

theorem beginWrite_surge {s : State} (h : s.sup.surge = true) : s.beginWrite = s := by
  unfold State.beginWrite
  split
  · rw [if_pos h]
  · rfl

theorem beginWrite_busy {s : State} {r : Running} (h : s.store.running = some r) : s.beginWrite = s := by
  unfold State.beginWrite
  rw [h]

theorem beginWrite_begins {s : State} {q : WriteReq} {l : List WriteReq} (hr : s.store.running = none)
    (hq : s.store.queue = q :: l) (hs : s.sup.surge = false) :
    s.beginWrite = { s with store.queue := l, store.running := some ⟨q, s.store.inactive, s.now⟩ } := by
  simp [State.beginWrite, hr, hq, hs]

/-- No waiting write takes a key's, so a key's goes to the end of the queue. -/
theorem requestWrite_key (s : State) (b : List Byte) (who : Requester) :
    s.requestWrite (.key b) who = { s with store.queue := s.store.queue ++ [⟨.key b, [who]⟩] } := by
  have hjoin : ∀ q ∈ s.store.queue, q.payload.join (.key b) = none := fun q _ => by cases q.payload <;> rfl
  simp only [State.requestWrite, Store.alreadyDone, Bool.false_eq_true, if_false, enqueue_new hjoin]

theorem fit_eq_take {n : Nat} {l : List Byte} (h : n ≤ l.length) : fit n l = l.take n := by
  induction n generalizing l with
  | zero => simp [fit]
  | succ n ih =>
    cases l with
    | nil => simp at h
    | cons b bs => simp [fit, ih (by simpa using h)]

/-- An INSTALL_KEY that passes its checks records its slip and asks for the key's write (R141). -/
theorem takeInstallKey_free {s : State} {args : List Byte} (hl : 32 ≤ args.length) (h : answerAtOnce s args .installKey = none)
    (k : Nat) : s.takeInstallKey k args = { s with
      store.keySlip := some k
      store.queue := s.store.queue ++ [⟨.key (args.take 32), [.keySlip]⟩] } := by
  simp only [answerAtOnce] at h
  split_ifs at h with hbusy hkey hzero
  have hk : (decide (s.store.nv.working.key ≠ .empty) || s.store.keyWrite) = false := by simpa using hkey
  have hz : ((args.take 32).all fun b => decide (b = 0)) = false :=
    Bool.eq_false_iff.2 fun hall => hzero (List.eq_replicate_iff.2
      ⟨by simpa using hl, fun b hb => of_decide_eq_true (List.all_eq_true.1 hall b hb)⟩)
  rw [State.takeInstallKey]
  simp only [hbusy, hk, hz, Bool.false_eq_true, if_false, requestWrite_key, fit_eq_take hl]

/-- A slot just taken reads TAKEN and its slip is in flight. -/
theorem takenSlip_stillTaken {s : State} {w : Word} {rest : List Word} {k : Nat} {q : Option SlipKind} (hw : s.canonical)
    (h : postedSlip s w rest k q) : stillTaken (takenSlip s rest k) k := by
  obtain ⟨-, -, -, h7, hpost, -⟩ := h
  have hslot : getAt s.port.slots k = some none := by
    simp only [State.posted, Bool.and_eq_true, decide_eq_true_eq] at hpost
    exact hpost.1
  have hread : (takenSlip s rest k).mem.readBytes (slotAt k) 4 = le 4 2 :=
    readBytes_store (bs := le 4 2) hw (by simp only [le_length, slotAt, memSize]; omega)
  refine ⟨?_, ?_⟩
  · rw [Memory.num, hread, ofLe_le]
    rfl
  · simp [takenSlip, getAt_setAt, hslot]

/-- The slips' slots are not shown at the end of a step. -/
theorem read_mirror_mid {o n : State} (hw : n.mem.wf = true) {a : Nat} (h1 : 0x104 ≤ a) (h2 : a < 0x1200) :
    Memory.read (mirror o n).mem a = Memory.read n.mem a :=
  read_mirror hw (.inr (by omega)) (.inr (by omega)) (.inr (by omega)) (.inr (by omega)) (.inr (by omega)) (.inr (by omega))
    (.inr (by omega)) (.inr (by omega)) (.inr (by omega)) (.inr (by omega)) (.inr (by omega)) (.inr (by omega))
    (.inr (by omega))

/-- A slot that reads TAKEN reads TAKEN after the records are shown. -/
theorem stillTaken_mirror {o n : State} {k : Nat} (hw : n.mem.wf = true) (h7 : k ≤ 7) (h : stillTaken n k) :
    stillTaken { n with mem := (mirror o n).mem } k := by
  obtain ⟨hnum, hslot⟩ := h
  refine ⟨(num_congr fun a h1 h2 => ?_).trans hnum, hslot⟩
  simp only [slotAt] at h1 h2
  exact read_mirror_mid hw (by omega) (by omega)

/-- An INSTALL_KEY that passes its checks is in flight, its write waits, and nothing reacts (R141). -/
theorem goes_installKey {s : State} {w : Word} {rest : List Word} {k : Nat} (hw : s.canonical) (hc : s.calm)
    (hrest : s.restful) (hpow : s.power.state ≠ .enteringDeep) (hpost : postedSlip s w rest k (some .installKey))
    (hans : answerAtOnce s (slipArgs s k) .installKey = none) :
    Goes .post s fun t =>
      t = { takenSlip s rest k with
          store.keySlip := some k
          store.queue := s.store.queue ++ [⟨.key ((slipArgs s k).take 32), [.keySlip]⟩]
          mem := t.mem }
        ∧ stillTaken t k ∧ s.sameBut t [slotRec k, storeRec] := by
  have hex := post_react hpost hpow
  rw [show State.handSlip _ k .installKey _ = State.takeInstallKey _ k (slipArgs s k) from rfl,
    takeInstallKey_free (s := takenSlip s rest k) (by simp [slipArgs, readBytes_length]) hans] at hex
  have htaken := takenSlip_stillTaken hw hpost
  have hsame : s.sameBut (takenSlip s rest k) [slotRec k, storeRec] := fun a ha =>
    read_store_of_out hw (by have := ha (slotRec k) (by simp); simp only [slotRec, le_length] at *; omega)
  have hn : (takenSlip s rest k).mem.wf = true := store_wf hw
  obtain ⟨-, -, -, h7, -⟩ := hpost
  have hx : takenSlip s rest k = { s with port := (takenSlip s rest k).port, mem := (takenSlip s rest k).mem } := rfl
  have hq : s.store = (takenSlip s rest k).store := rfl
  rw [hq]
  generalize takenSlip s rest k = x at *
  have hrs : s.mirrors { x with
      store.keySlip := some k
      store.queue := x.store.queue ++ [⟨.key ((slipArgs s k).take 32), [.keySlip]⟩] } [slotRec k, storeRec] := by
    rw [hx]
    simp [State.mirrors]
  refine goes_shown_react _ hex ?_ ?_ ?_ ⟨rfl, stillTaken_mirror hn h7 htaken, sameBut_mirror hn hsame hrs⟩
  · rw [hx]
    exact restful_of_same hrest rfl rfl rfl rfl rfl
  · rw [hx]
    exact calm_of_same hc rfl rfl rfl rfl
  · rw [hx]
    exact id

/-- Settles O45. -/
theorem writesQueuedAndBegun : Obligations.WritesQueuedAndBegun := by
  intro s hw hc
  refine ⟨fun hp ht => ?_, fun q l hr hq => ⟨fun hs => ?_, fun hs => writeBegin_next hc (beginWrite_surge hs)⟩,
    fun r hr => writeBegin_next hc (beginWrite_busy hr),
    fun w rest k hrest hpow hpost hans => goes_installKey hw hc hrest hpow hpost hans⟩
  · have hex : exec .snapshotTimer s = s.done (s.requestSnapshot .snapTimer) := by
      show execSnapshotTimer s = _
      rw [execSnapshotTimer, if_pos (by simp [hp, snapshotEnd, ht])]
    exact goes_storeShown _ hex hw hc rfl fun M hM => ⟨rfl, hM, mem_requestSnapshot s .snapTimer⟩
  · exact goes_storeShown _ (congrArg s.done (beginWrite_begins hr hq hs)) hw hc rfl fun M hM => ⟨rfl, hM⟩

end Sys2Proof.Machine

namespace Sys2Proof.Machine

/-! ### The factors that reactions leave alone (R184) -/

/-- The factors that a reaction within a step can raise. -/
def Factor.ofReaction : Factor → Bool
  | .slipDone | .eventNew | .wakeReason | .updateState => true
  | _ => false

@[simp] theorem ofReaction_raised : Factor.slipDone.ofReaction = true ∧ Factor.eventNew.ofReaction = true
    ∧ Factor.wakeReason.ofReaction = true ∧ Factor.updateState.ofReaction = true := ⟨rfl, rfl, rfl, rfl⟩

section
variable {f : Factor} (hf : f.ofReaction = false)
include hf

/-- A raise of a factor that reactions raise leaves the others. -/
@[simp] theorem raise_marks (s : State) {g : Factor} (hg : g.ofReaction = true) :
    (s.raise g).attn.pending f = s.attn.pending f := by
  have hne : g ≠ f := fun h => by rw [h, hf] at hg; exact nomatch hg
  simp [raise_pending, hne]

omit hf in
theorem judgeAttn_marks (s : State) : s.judgeAttn.attn.pending f = s.attn.pending f := rfl

@[simp] theorem complete_marks (s : State) (k : Nat) (r : Result) :
    (s.complete k r).attn.pending f = s.attn.pending f := by
  unfold State.complete
  (repeat' split) <;> simp [hf]

@[simp] theorem completeAll_marks (s : State) (l : List Nat) (r : Result) :
    (s.completeAll l r).attn.pending f = s.attn.pending f := by
  unfold State.completeAll
  induction l generalizing s with
  | nil => rfl
  | cons k l ih => simp [ih, hf]

@[simp] theorem completeRecord_marks (s : State) (k : Nat) :
    (s.completeRecord k).attn.pending f = s.attn.pending f := by
  unfold State.completeRecord
  simp [hf]

@[simp] theorem rewrite_marks (s : State) (k : Nat) (g : EventRec → EventRec) :
    (s.rewrite k g).attn.pending f = s.attn.pending f := by
  unfold State.rewrite
  (repeat' split) <;> simp [hf]

@[simp] theorem answerLink_marks (s : State) (n : Nat) (a : Option Nat) :
    (s.answerLink n a).attn.pending f = s.attn.pending f := by
  unfold State.answerLink
  (repeat' split) <;> simp [hf]

@[simp] theorem endWindows_marks (s : State) : s.endWindows.attn.pending f = s.attn.pending f := by
  have hfold : ∀ (l : List Nat) (t : State), (l.foldl (fun s k => State.completeRecord
      { s with ev := s.ev.change k fun r => { r with windowSkipped := true } } k) t).attn.pending f = t.attn.pending f := by
    intro l t
    induction l generalizing t with
    | nil => rfl
    | cons k l ih => rw [List.foldl_cons, ih, completeRecord_marks hf]
  exact hfold _ _

@[simp] theorem endBalance_marks (s : State) (b : Balance) (c : ResultCode) (x : Option ResultCause) :
    (s.endBalance b c x).attn.pending f = s.attn.pending f := by
  unfold State.endBalance
  simp [hf]

@[simp] theorem balanceNext_marks (s : State) : s.balanceNext.attn.pending f = s.attn.pending f := by
  unfold State.balanceNext
  split
  · rfl
  · simp only []
    (repeat' split) <;> simp [hf]

@[simp] theorem balanceReact_marks (s : State) : s.balanceReact.attn.pending f = s.attn.pending f := by
  unfold State.balanceReact
  (repeat' split) <;> simp [hf]

@[simp] theorem askStop_marks (s : State) : s.askStop.attn.pending f = s.attn.pending f := by
  unfold State.askStop
  simp only []
  (repeat' split) <;> simp [hf]

omit hf in
@[simp] theorem makeEstimate_marks (s : State) : s.makeEstimate.attn.pending f = s.attn.pending f := by
  unfold State.makeEstimate
  (repeat' split) <;> simp

@[simp] theorem stopConverter_marks (s : State) : s.stopConverter.attn.pending f = s.attn.pending f := by
  unfold State.stopConverter
  (repeat' split) <;> simp [hf]

@[simp] theorem restartConverter_marks (s : State) : s.restartConverter.attn.pending f = s.attn.pending f := by
  unfold State.restartConverter
  (repeat' split) <;> simp [hf]

@[simp] theorem captureNotMade_marks (s : State) (p : Nat) :
    (s.captureNotMade p).attn.pending f = s.attn.pending f := by
  unfold State.captureNotMade
  (repeat' split) <;> simp [hf]

@[simp] theorem burstReact_marks (s : State) : s.burstReact.attn.pending f = s.attn.pending f := by
  unfold State.burstReact
  (repeat' split) <;> simp [hf]

omit hf in
@[simp] theorem toDeep_marks (s : State) : s.toDeep.attn.pending f = s.attn.pending f := by
  unfold State.toDeep
  simp only [lookAtFlags_frame]
  exact judgeAttn_marks _

@[simp] theorem enterRun_marks (s : State) (r : Option PatrolResult) :
    (s.enterRun r).attn.pending f = s.attn.pending f := by
  unfold State.enterRun
  refine (judgeAttn_marks _).trans ((raise_marks hf _ rfl).trans ?_)
  split <;> simp [hf]

@[simp] theorem endPatrol_marks (s : State) (r : PatrolResult) : (s.endPatrol r).attn.pending f = s.attn.pending f := by
  unfold State.endPatrol
  (repeat' split) <;> simp [hf]

@[simp] theorem patrolReact_marks (s : State) : s.patrolReact.attn.pending f = s.attn.pending f := by
  unfold State.patrolReact
  simp only []
  (repeat' split) <;> simp [hf]

@[simp] theorem returnReact_marks (s : State) : s.returnReact.attn.pending f = s.attn.pending f := by
  unfold State.returnReact
  (repeat' split) <;> simp [hf]

@[simp] theorem entryReact_marks (s : State) : s.entryReact.attn.pending f = s.attn.pending f := by
  unfold State.entryReact
  (repeat' split) <;> simp [hf]

@[simp] theorem toUpd_marks (s : State) (st : UpdState) : (s.toUpd st).attn.pending f = s.attn.pending f := by
  unfold State.toUpd
  simp [hf]

@[simp] theorem giveBack_marks (s : State) (buf : Buffer) (n : Nat) (st : BufferState) (c : Option RejectCause) :
    (s.giveBack buf n st c).attn.pending f = s.attn.pending f := by
  unfold State.giveBack
  simp [hf]

@[simp] theorem reject_marks (s : State) (buf : Buffer) (n : Nat) (c : RejectCause) :
    (s.reject buf n c).attn.pending f = s.attn.pending f := by
  unfold State.reject
  simp [hf]

@[simp] theorem stopIntake_marks (s : State) : s.stopIntake.attn.pending f = s.attn.pending f := by
  unfold State.stopIntake
  (repeat' split) <;> simp [hf]

@[simp] theorem endUpdate_marks (s : State) (o : UpdOutcome) (c : ResultCode) (x : Option ResultCause) :
    (s.endUpdate o c x).attn.pending f = s.attn.pending f := by
  unfold State.endUpdate
  simp only []
  (repeat' split) <;> simp [hf]

@[simp] theorem endSwitching_marks (s : State) : s.endSwitching.attn.pending f = s.attn.pending f := by
  unfold State.endSwitching
  simp only []
  (repeat' split) <;> simp [hf]

@[simp] theorem nextSwitch_marks (n : Nat) (s : State) : (State.nextSwitch n s).attn.pending f = s.attn.pending f := by
  induction n generalizing s with
  | zero => simp [State.nextSwitch, hf]
  | succ n ih =>
    unfold State.nextSwitch
    (repeat' split) <;> simp [hf, ih]

@[simp] theorem enterSwitching_marks (s : State) : s.enterSwitching.attn.pending f = s.attn.pending f := by
  unfold State.enterSwitching
  simp [hf]

@[simp] theorem endDistribution_marks (s : State) : s.endDistribution.attn.pending f = s.attn.pending f := by
  unfold State.endDistribution
  simp only []
  (repeat' split) <;> simp [hf]

@[simp] theorem nextRecord_marks (n : Nat) (s : State) : (State.nextRecord n s).attn.pending f = s.attn.pending f := by
  induction n generalizing s with
  | zero => simp [State.nextRecord, hf]
  | succ n ih =>
    unfold State.nextRecord
    (repeat' split) <;> simp [hf, ih]

@[simp] theorem failSpoiled_marks (s : State) (t : Turn) : (s.failSpoiled t).attn.pending f = s.attn.pending f := by
  unfold State.failSpoiled
  simp only []
  (repeat' split) <;> simp [hf]

@[simp] theorem updateReact_marks (s : State) : s.updateReact.attn.pending f = s.attn.pending f := by
  unfold State.updateReact
  (repeat' split) <;> simp [hf]

@[simp] theorem answerDown_marks (s : State) (r : Req) : (s.answerDown r).attn.pending f = s.attn.pending f := by
  unfold State.answerDown
  (repeat' split) <;> simp [hf]

@[simp] theorem answerRequests_marks (s : State) : s.answerRequests.attn.pending f = s.attn.pending f := by
  have hfold : ∀ (l : List Req) (t : State), (l.foldl State.answerDown t).attn.pending f = t.attn.pending f := by
    intro l t
    induction l generalizing t with
    | nil => rfl
    | cons r l ih => rw [List.foldl_cons, ih, answerDown_marks hf]
  unfold State.answerRequests
  split
  · exact hfold _ _
  · rfl

@[simp] theorem arbiterGrant_marks (s : State) : s.arbiterGrant.attn.pending f = s.attn.pending f := by
  unfold State.arbiterGrant
  simp only []
  (repeat' split) <;> simp [hf]

@[simp] theorem round_marks (s : State) : s.round.attn.pending f = s.attn.pending f := by
  unfold State.round
  simp [hf]

@[simp] theorem settle_marks (s : State) : s.settle.attn.pending f = s.attn.pending f := by
  unfold State.settle
  simp [hf]

end
end Sys2Proof.Machine

namespace Sys2Proof.Machine

/-! ### The load of the active limits at a reset (R136) -/

theorem loadLimits_reset (s : State) (l : Limits) (n : Nat) :
    (s.loadLimits l n .reset).attn = s.attn ∧ (s.loadLimits l n .reset).store = { s.store with
      active := l
      clampCount := n
      inForce := insideHard l s.store.taken
      hardClamps := changedFields 0 s.store.taken.toList (insideHard l s.store.taken).toList } := by
  constructor
  · exact tableStatus_reset_attn _ _ _ _
  · simp only [State.loadLimits]
    rw [tableStatus_eq]
    rfl

/-- The writes that the choice of a bank asks for, after those that wait: of the marker, unless it names the bank, and of a
floor that the bank's version passes (R134). -/
def startWrites (w : Working) (bk : BankId) (marked : Bool) (version : Nat) (l : List WriteReq) : List WriteReq :=
  let l1 := if marked then l else enqueue (.marker bk) .startUp l
  if version ≤ w.floor then l1 else enqueue (.floor version) .startUp l1

theorem raise_attn_congr {s t : State} (h1 : t.attn = s.attn) (h2 : t.mem = s.mem) (h3 : t.power.state = s.power.state)
    (f : Factor) : (t.raise f).attn = (s.raise f).attn := by rw [raise_congr h1 h2 h3]

theorem storeFault_store (s : State) (c : StoreFaultCause) (item : Option StoreItem) :
    (s.storeFault c item).store = { s.store with
      faultCause := some c, faultItem := item, faultCount := bump 65535 s.store.faultCount } := by
  rw [State.storeFault, raise_eq]

theorem storeFault_attn (s : State) (c : StoreFaultCause) (item : Option StoreItem) :
    (s.storeFault c item).attn = (s.raise .storeFault).attn := by
  rw [State.storeFault]
  exact raise_attn_congr (by rfl) (by rfl) (by rfl) _

/-- The writes of a start-up that uses a bank are asked for (R134). -/
def State.requestStart (s : State) (bk : BankId) (marked : Bool) : State :=
  let t := if marked then s else s.requestWrite (.marker bk) .startUp
  t.requestWrite (.floor t.store.activeVersion) .startUp

theorem requestStart_store (s : State) (bk : BankId) (marked : Bool) :
    (s.requestStart bk marked).attn = s.attn ∧ (s.requestStart bk marked).store = { s.store with
      queue := startWrites s.store.work bk marked s.store.activeVersion s.store.queue } := by
  cases marked <;> by_cases hv : s.store.activeVersion ≤ s.store.work.floor <;>
    simp [State.requestStart, State.requestWrite, Store.alreadyDone, startWrites, hv]

/-- What the choice of an image leaves of the store, but for the clamps of the limits (R134, R136). -/
structure State.Chosen (s c : State) : Prop where
  nv : c.store.nv = s.store.nv
  work : c.store.work = s.store.work
  startUp : c.store.startUp = s.store.startUp
  lost : c.store.lost = s.store.lost
  inForce : c.store.inForce = insideHard c.store.active s.store.taken

/-- The bank of the choice is used (R134). -/
theorem chooseImage_used {s : State} {bk : BankId} {marked : Bool} {i : Image}
    (h : s.store.nv.startChoice s.store.work = some (bk, marked)) (hi : s.store.nv.image bk = some i) :
    s.Chosen s.chooseImage ∧ s.chooseImage.attn = s.attn ∧ s.chooseImage.store.active = (loadImage i.body).1
      ∧ s.chooseImage.store.activeBank = some bk ∧ s.chooseImage.store.activeVersion = i.version
      ∧ s.chooseImage.store.outcome = (if marked then .markedBank else .otherBank)
      ∧ s.chooseImage.store.faultCause = s.store.faultCause ∧ s.chooseImage.store.faultItem = s.store.faultItem
      ∧ s.chooseImage.store.faultCount = s.store.faultCount
      ∧ s.chooseImage.store.queue = startWrites s.store.work bk marked i.version s.store.queue := by
  obtain ⟨ha, hs⟩ := loadLimits_reset { s with
    store.outcome := if marked then .markedBank else .otherBank
    store.activeBank := some bk
    store.activeVersion := i.version } (loadImage i.body).1 (loadImage i.body).2
  have hload : s.chooseImage = State.requestStart (State.loadLimits { s with
      store.outcome := if marked then .markedBank else .otherBank
      store.activeBank := some bk
      store.activeVersion := i.version } (loadImage i.body).1 (loadImage i.body).2 .reset) bk marked := by
    simp only [State.chooseImage, h, State.loadBank, hi]
    rfl
  obtain ⟨hattn, hstore⟩ := requestStart_store (State.loadLimits { s with
    store.outcome := if marked then .markedBank else .otherBank
    store.activeBank := some bk
    store.activeVersion := i.version } (loadImage i.body).1 (loadImage i.body).2 .reset) bk marked
  rw [hs] at hstore
  rw [hload, hattn, ha]
  exact ⟨by constructor <;> rw [hstore], rfl, by rw [hstore]; exact ⟨rfl, rfl, rfl, rfl, rfl, rfl, rfl, rfl⟩⟩

/-- With no bank to use the factory values come into force, with NO_IMAGE (R134). -/
theorem chooseImage_none {s : State} (h : s.store.nv.startChoice s.store.work = none) :
    s.Chosen s.chooseImage ∧ s.chooseImage.attn = (s.raise .storeFault).attn ∧ s.chooseImage.store.active = factoryLimits
      ∧ s.chooseImage.store.activeBank = none ∧ s.chooseImage.store.activeVersion = 0
      ∧ s.chooseImage.store.outcome = .factoryValues
      ∧ s.chooseImage.store.faultCause = some .noImage ∧ s.chooseImage.store.faultItem = none
      ∧ s.chooseImage.store.faultCount = bump 65535 s.store.faultCount
      ∧ s.chooseImage.store.queue = s.store.queue := by
  have hc : s.chooseImage = State.loadLimits (State.storeFault { s with
      store.activeBank := none, store.activeVersion := 0, store.outcome := .factoryValues } .noImage none) factoryLimits 0 .reset := by
    simp only [State.chooseImage, h]
  obtain ⟨ha, hs⟩ := loadLimits_reset (State.storeFault { s with
    store.activeBank := none, store.activeVersion := 0, store.outcome := .factoryValues } .noImage none) factoryLimits 0
  rw [storeFault_store] at hs
  rw [hc, ha, storeFault_attn]
  exact ⟨by constructor <;> rw [hs], raise_attn_congr (by rfl) (by rfl) (by rfl) _, by rw [hs]; exact
    ⟨rfl, rfl, rfl, rfl, rfl, rfl, rfl, rfl⟩⟩

/-- The records are read: their working copies, the LOST ones and the fault that they raise (R133). -/
def State.recordsRead (s : State) : State :=
  let t : State := { s with store.work := s.store.nv.working, store.lost := s.store.nv.lostBits, store.startUp := false }
  if s.store.nv.lostBits = 0 then t else t.storeFault .recordLost s.store.nv.firstLost

theorem readStore_eq (s : State) : s.readStore = s.recordsRead.chooseImage := rfl

theorem recordsRead_whole {s : State} (h : s.store.nv.lostBits = 0) : s.recordsRead = { s with
    store.work := s.store.nv.working, store.lost := s.store.nv.lostBits, store.startUp := false } := if_pos h

theorem recordsRead_lost {s : State} (h : s.store.nv.lostBits ≠ 0) :
    s.recordsRead.attn = (s.raise .storeFault).attn ∧ s.recordsRead.store = { s.store with
      work := s.store.nv.working
      lost := s.store.nv.lostBits
      startUp := false
      faultCause := some .recordLost
      faultItem := s.store.nv.firstLost
      faultCount := bump 65535 s.store.faultCount } := by
  have hr : s.recordsRead = State.storeFault { s with
      store.work := s.store.nv.working, store.lost := s.store.nv.lostBits, store.startUp := false } .recordLost
      s.store.nv.firstLost := if_neg h
  rw [hr, storeFault_attn, storeFault_store]
  exact ⟨raise_attn_congr (by rfl) (by rfl) (by rfl) _, rfl⟩

/-- What the reading of the records leaves of the store, the last fault apart (R133). -/
theorem recordsRead_store (s : State) : s.recordsRead.store.nv = s.store.nv ∧ s.recordsRead.store.work = s.store.nv.working
    ∧ s.recordsRead.store.startUp = false ∧ s.recordsRead.store.lost = s.store.nv.lostBits
    ∧ s.recordsRead.store.taken = s.store.taken ∧ s.recordsRead.store.queue = s.store.queue := by
  by_cases h : s.store.nv.lostBits = 0
  · rw [recordsRead_whole h]
    exact ⟨rfl, rfl, rfl, rfl, rfl, rfl⟩
  · rw [(recordsRead_lost h).2]
    exact ⟨rfl, rfl, rfl, rfl, rfl, rfl⟩
end Sys2Proof.Machine

namespace Sys2Proof.Machine

/-! ### The choice of the active image (R134) -/

theorem startChoice_marked {n : Nv} {w : Working} {bk : BankId} {i : Image} (hm : w.marker = some bk)
    (hi : n.image bk = some i) : n.startChoice w = some (bk, true) := by
  simp [Nv.startChoice, hm, hi]

theorem other_other (bk : BankId) : bk.other.other = bk := by cases bk <;> rfl

/-- The marked bank is not valid, and the other one is fit. -/
theorem startChoice_other {n : Nv} {w : Working} {bk : BankId} {i : Image} (hi : n.image bk = some i)
    (hf : w.floor ≤ i.version) (hm : w.marker = some bk.other) (ho : n.image bk.other = none) :
    n.startChoice w = some (bk, false) := by
  simp [Nv.startChoice, hm, ho, other_other, hi, hf]

/-- The marker is LOST: of the fit banks the one of the higher version, or bank A. -/
theorem startChoice_lost {n : Nv} {w : Working} {bk : BankId} {i : Image} (hi : n.image bk = some i)
    (hf : w.floor ≤ i.version) (hm : w.marker = none) (ho : ∀ j, n.image bk.other = some j → w.floor ≤ j.version →
      j.version < i.version ∨ j.version = i.version ∧ bk = .a) : n.startChoice w = some (bk, false) := by
  cases bk with
  | a =>
    cases hj : n.image .b with
    | none => simp [Nv.startChoice, hm, hi, hf, hj]
    | some j =>
      by_cases hfj : w.floor ≤ j.version
      · have hle : j.version ≤ i.version := by have := ho j hj hfj; omega
        simp [Nv.startChoice, hm, hi, hf, hj, hfj, hle]
      · simp [Nv.startChoice, hm, hi, hf, hj, hfj]
  | b =>
    cases hj : n.image .a with
    | none => simp [Nv.startChoice, hm, hi, hf, hj]
    | some j =>
      by_cases hfj : w.floor ≤ j.version
      · have hlt : j.version < i.version := by simpa using ho j hj hfj
        simp [Nv.startChoice, hm, hi, hf, hj, hfj, hlt]
      · simp [Nv.startChoice, hm, hi, hf, hj, hfj]

/-- A chosen bank is valid. -/
theorem startChoice_image {n : Nv} {w : Working} {bk : BankId} {marked : Bool} (h : n.startChoice w = some (bk, marked)) :
    ∃ i, n.image bk = some i := by
  cases hm : w.marker with
  | some m =>
    cases hi : n.image m with
    | some i =>
      simp only [Nv.startChoice, hm, hi, Option.isSome_some, if_true, Option.some.injEq, Prod.mk.injEq] at h
      exact ⟨i, h.1 ▸ hi⟩
    | none =>
      cases ho : n.image m.other with
      | none => simp [Nv.startChoice, hm, hi, ho] at h
      | some j =>
        simp only [Nv.startChoice, hm, hi, ho, Option.isSome_none, Bool.false_eq_true, if_false, decide_eq_true_eq,
          Option.ite_none_right_eq_some, Option.some.injEq, Prod.mk.injEq] at h
        exact ⟨j, h.2.1 ▸ ho⟩
  | none =>
    refine Option.isSome_iff_exists.1 ?_
    by_contra hno
    rw [Option.not_isSome_iff_eq_none] at hno
    cases bk with
    | a =>
      cases hb : n.image .b <;> simp only [Nv.startChoice, hm, hno, hb] at h
      · exact nomatch h
      · split at h <;> simp_all
    | b =>
      cases ha : n.image .a <;> simp only [Nv.startChoice, hm, hno, ha] at h
      · exact nomatch h
      · split at h <;> simp_all

/-! ### The writes of a start-up (R134) -/

theorem mem_enqueue_of_mem {q : WriteReq} {l : List WriteReq} (p : Payload) (who : Requester) (hq : q ∈ l)
    (hj : q.payload.join p = none) : q ∈ enqueue p who l := by
  induction l with
  | nil => exact nomatch hq
  | cons x l ih =>
    rcases List.mem_cons.1 hq with rfl | hq
    · simp [enqueue, hj]
    · rw [enqueue]
      split
      · exact List.mem_cons_of_mem _ hq
      · exact List.mem_cons_of_mem _ (ih hq)

theorem marker_mem_startWrites (w : Working) (bk : BankId) (v : Nat) (l : List WriteReq) :
    ∃ q ∈ startWrites w bk false v l, q.payload = .marker bk := by
  have hnew : enqueue (.marker bk) .startUp l = l ++ [⟨.marker bk, [.startUp]⟩] :=
    enqueue_new fun q _ => by cases q.payload <;> rfl
  refine ⟨⟨.marker bk, [.startUp]⟩, ?_, rfl⟩
  simp only [startWrites, hnew, Bool.false_eq_true, if_false]
  split
  · simp
  · exact mem_enqueue_of_mem _ _ (by simp) rfl

theorem floor_mem_startWrites {w : Working} {v : Nat} (h : w.floor < v) (bk : BankId) (marked : Bool) (l : List WriteReq) :
    ∃ q ∈ startWrites w bk marked v l, .startUp ∈ q.who ∧ ∃ u, q.payload = .floor u ∧ v ≤ u := by
  simp only [startWrites, if_neg (Nat.not_le.2 h)]
  obtain ⟨q, hq, hwho, hp⟩ := mem_enqueue (.floor v) .startUp (if marked then l else enqueue (.marker bk) .startUp l)
  refine ⟨q, hq, hwho, ?_⟩
  rcases hp with hp | ⟨x, -, hx⟩
  · exact ⟨v, hp, le_rfl⟩
  · cases hpay : x.payload <;> rw [hpay] at hx <;> simp only [Payload.join, Option.some.injEq, reduceCtorEq] at hx
    exact ⟨_, hx.symm, le_max_right _ _⟩

theorem startWrites_nil (w : Working) (bk : BankId) (marked : Bool) (v : Nat) :
    startWrites w bk marked v [] = (if marked then [] else [⟨.marker bk, [.startUp]⟩])
      ++ if w.floor < v then [⟨.floor v, [.startUp]⟩] else [] := by
  by_cases h : w.floor < v
  · cases marked <;> simp [startWrites, h, enqueue, Payload.join]
  · cases marked <;> simp [startWrites, h, enqueue]

end Sys2Proof.Machine

namespace Sys2Proof.Machine

/-! ### The end of the start-up read (R74, R133) -/

theorem startUpReadEnd_react {s : State} (hs : s.store.startUp = true) (ht : 2 ≤ elapsed s.now 0) :
    exec .startUpReadEnd s = s.react s.endStartUp := by
  show execStartUpReadEnd s = _
  rw [execStartUpReadEnd, if_pos (by simpa [hs, startUpTime] using ht)]

/-- The store's part of the end of the start-up read, where a bank is used. -/
theorem readStore_used {s : State} {bk : BankId} {marked : Bool} {i : Image}
    (h : s.store.nv.startChoice s.store.nv.working = some (bk, marked)) (hi : s.store.nv.image bk = some i) :
    s.readStore.attn = s.recordsRead.attn ∧ s.readStore.store.active = (loadImage i.body).1
      ∧ s.readStore.store.activeBank = some bk ∧ s.readStore.store.activeVersion = i.version
      ∧ s.readStore.store.outcome = (if marked then .markedBank else .otherBank)
      ∧ s.readStore.store.faultCause = s.recordsRead.store.faultCause
      ∧ s.readStore.store.faultItem = s.recordsRead.store.faultItem
      ∧ s.readStore.store.faultCount = s.recordsRead.store.faultCount
      ∧ s.readStore.store.queue = startWrites s.store.nv.working bk marked i.version s.store.queue := by
  obtain ⟨hnv, hwork, -, -, -, hqueue⟩ := recordsRead_store s
  obtain ⟨-, hrest⟩ := chooseImage_used (s := s.recordsRead) (bk := bk) (marked := marked) (i := i)
    (by rw [hnv, hwork]; exact h) (by rw [hnv]; exact hi)
  rw [hwork, hqueue, ← readStore_eq] at hrest
  exact hrest

/-- The store's part of the end of the start-up read, where no bank is used. -/
theorem readStore_none {s : State} (h : s.store.nv.startChoice s.store.nv.working = none) :
    s.readStore.attn = (s.recordsRead.raise .storeFault).attn ∧ s.readStore.store.active = factoryLimits
      ∧ s.readStore.store.activeBank = none ∧ s.readStore.store.activeVersion = 0
      ∧ s.readStore.store.outcome = .factoryValues
      ∧ s.readStore.store.faultCause = some .noImage ∧ s.readStore.store.faultItem = none
      ∧ s.readStore.store.faultCount = bump 65535 s.recordsRead.store.faultCount
      ∧ s.readStore.store.queue = s.store.queue := by
  obtain ⟨hnv, hwork, -, -, -, hqueue⟩ := recordsRead_store s
  obtain ⟨-, hrest⟩ := chooseImage_none (s := s.recordsRead) (by rw [hnv, hwork]; exact h)
  rw [hqueue, ← readStore_eq] at hrest
  exact hrest

/-- What the end of the start-up read leaves of the store whatever it chooses (R133). -/
theorem readStore_always (s : State) : s.readStore.store.nv = s.store.nv ∧ s.readStore.store.work = s.store.nv.working
    ∧ s.readStore.store.startUp = false ∧ s.readStore.store.lost = s.store.nv.lostBits
    ∧ s.readStore.store.inForce = insideHard s.readStore.store.active s.store.taken := by
  obtain ⟨hnv, hwork, hstart, hlost, htaken, -⟩ := recordsRead_store s
  have hc : s.recordsRead.Chosen s.readStore := by
    cases h : s.recordsRead.store.nv.startChoice s.recordsRead.store.work with
    | none => exact (chooseImage_none h).1
    | some c =>
      obtain ⟨i, hi⟩ := startChoice_image h
      exact (chooseImage_used h hi).1
  exact ⟨hc.nv.trans hnv, hc.work.trans hwork, hc.startUp.trans hstart, hc.lost.trans hlost, by rw [hc.inForce, htaken]⟩

/-- The factors that the reading of the records raises: STORE_FAULT, if a record is LOST (R133). -/
theorem recordsRead_pending (s : State) (f : Factor) :
    s.recordsRead.attn.pending f = (decide (f = .storeFault ∧ s.store.nv.lostBits ≠ 0) || s.attn.pending f) := by
  by_cases h : s.store.nv.lostBits = 0
  · rw [recordsRead_whole h]
    simp [h]
  · rw [(recordsRead_lost h).1, raise_pending]
    have hl : s.store.nv.lostBits ≠ 0#16 := h
    simp [hl, eq_comm (a := f)]

/-- Of the factors the end of the start-up read raises STORE_FAULT and LOCKOUT alone. -/
theorem readStore_pending (s : State) {f : Factor} (hf : f ≠ .storeFault) : s.readStore.attn.pending f = s.attn.pending f := by
  cases h : s.store.nv.startChoice s.store.nv.working with
  | none =>
    rw [(readStore_none h).1, raise_pending, recordsRead_pending]
    simp [hf, hf.symm]
  | some c =>
    obtain ⟨i, hi⟩ := startChoice_image h
    rw [(readStore_used h hi).1, recordsRead_pending]
    simp [hf]

/-- What the wait's end does to the supervisor and the factors (R74). -/
theorem endStartUp_sup (s : State) :
    s.endStartUp.sup = { s.sup with
        waiting := false
        state := if s.store.nv.working.lockout.set = true then s.sup.state else .open_ }
      ∧ ∀ f, s.endStartUp.attn.pending f
        = (decide (f = .lockout ∧ s.store.nv.working.lockout.set = true) || s.readStore.attn.pending f) := by
  obtain ⟨-, hwork, -⟩ := readStore_always s
  have hw : s.readStore.restoreCharge.store.work.lockout.set = s.store.nv.working.lockout.set := by simp [hwork]
  cases hl : s.store.nv.working.lockout.set
  · have : s.endStartUp = { s.readStore.restoreCharge.put 0x90 (storeBytes s.readStore.restoreCharge.store) with
        sup.waiting := false, sup.state := .open_ } := by
      rw [State.endStartUp, State.leaveWait]
      exact if_neg (by simp [hwork, hl])
    rw [this]
    simp
  · have : s.endStartUp = State.raise { s.readStore.restoreCharge.put 0x90 (storeBytes s.readStore.restoreCharge.store) with
        sup.waiting := false } .lockout := by
      rw [State.endStartUp, State.leaveWait]
      exact if_pos (by simp [hwork, hl])
    rw [this]
    refine ⟨by simp, fun f => ?_⟩
    rw [raise_pending]
    simp [eq_comm (a := f)]

/-- The converter after the end of the start-up read (R36, R37). -/
theorem endStartUp_conv (s : State) : s.endStartUp.conv = match s.power.lastReset with
    | .powerOn => { s.conv.restore s.store.nv.working.snapshot with recNumber := cycle 65535 s.conv.recNumber }
    | .resetLine => s.conv := by
  obtain ⟨-, hwork, -⟩ := readStore_always s
  have hconv : s.endStartUp.conv = s.readStore.restoreCharge.conv := by simp [State.endStartUp]
  have hpow : s.readStore.power = s.power := by simp
  have hcv : s.readStore.conv = s.conv := by simp
  rw [hconv, State.restoreCharge, hpow]
  cases s.power.lastReset with
  | powerOn =>
    simp only [State.showConverter, hwork, hcv]
    cases s.store.nv.working.snapshot <;> rfl
  | resetLine => exact hcv

/-- Nothing that reactions look at changes at the end of the start-up read. -/
theorem endStartUp_restful {s : State} (h : s.restful) : s.endStartUp.restful :=
  restful_of_held h (by simp) (by simp)

/-- The charge counter that a saturating addition leaves is that of R31. -/
theorem addCharge_eq (c : Int) (b : Bool) (d : Int) : addCharge c b d = chargeAdded (c, b) d := by
  cases b with
  | true => rfl
  | false =>
    have hmax : chargeMax = 9223372036854775807 := rfl
    simp only [addCharge, chargeAdded, Bool.false_eq_true, if_false]
    by_cases hhi : chargeMax < c + d
    · rw [if_pos hhi]
      exact Prod.ext (by simp only []; omega) (Eq.symm (decide_eq_true (by omega)))
    · rw [if_neg hhi]
      by_cases hlo : c + d < -chargeMax
      · rw [if_pos hlo]
        exact Prod.ext (by simp only []; omega) (Eq.symm (decide_eq_true (by omega)))
      · rw [if_neg hlo]
        exact Prod.ext (by simp only []; omega) (Eq.symm (decide_eq_false (by omega)))

end Sys2Proof.Machine

namespace Sys2Proof.Machine

/-- What the reactions and the step's end keep of the end of the start-up read. -/
structure State.StartedUp (s t : State) : Prop where
  records : t.store.nv = s.readStore.store.nv ∧ t.store.work = s.readStore.store.work
    ∧ t.store.startUp = s.readStore.store.startUp ∧ t.store.lost = s.readStore.store.lost
  image : t.store.active = s.readStore.store.active ∧ t.store.activeBank = s.readStore.store.activeBank
    ∧ t.store.activeVersion = s.readStore.store.activeVersion ∧ t.store.outcome = s.readStore.store.outcome
    ∧ t.store.inForce = s.readStore.store.inForce
  fault : t.store.faultCause = s.readStore.store.faultCause ∧ t.store.faultItem = s.readStore.store.faultItem
    ∧ t.store.faultCount = s.readStore.store.faultCount
  queue : s.restful → t.store.queue = s.readStore.store.queue
  pending : ∀ f, f.ofReaction = false → t.attn.pending f
    = (decide (f = .lockout ∧ s.store.nv.working.lockout.set = true) || s.readStore.attn.pending f)
  waiting : t.sup.waiting = false
  state : t.sup.state = if s.store.nv.working.lockout.set = true then s.sup.state else .open_
  coils : t.sup.mainNeg = s.sup.mainNeg ∧ t.sup.precharge = s.sup.precharge ∧ t.sup.mainPos = s.sup.mainPos
  conv : s.awake → t.conv = s.endStartUp.conv
  frame : t.port.notes = s.port.notes ∧ t.plan.pages = s.plan.pages ∧ t.conv.part = s.conv.part ∧ t.pins = s.pins

theorem startedUp (s : State) : s.StartedUp (State.finish s s.endStartUp.settle) := by
  obtain ⟨hsup, hpend⟩ := endStartUp_sup s
  have hstore : s.endStartUp.store = s.readStore.store := by simp [State.endStartUp]
  refine ⟨by simp [hstore], by simp [hstore], by simp [hstore], fun h => ?_, fun f hf => ?_, ?_, ?_, by simp, fun h => ?_,
    by simp⟩
  · simp [settle_restful (endStartUp_restful h), hstore]
  · simp [hf, hpend]
  · simp [hsup]
  · simp [hsup]
  · have ha : s.endStartUp.awake := by simpa [State.awake] using h
    obtain ⟨-, hc, -⟩ := settle_awake ha
    simp [hc]

/-- Settles O47. -/
theorem startUpReadEnds : Obligations.StartUpReadEnds := by
  intro s hs ht
  refine goes_react _ (startUpReadEnd_react hs ht) ?_
  obtain ⟨⟨hnv', hwork', hstart', hlost'⟩, ⟨hact', hbank', hver', hout', hforce'⟩, ⟨hcause', hitem', hcount'⟩, hqueue, hpend,
    hwait, hstate, hcoils, hconv, hframe⟩ := startedUp s
  generalize State.finish s s.endStartUp.settle = t at *
  obtain ⟨hnv, hwork, hstart, hlost, hforce⟩ := readStore_always s
  rw [hnv', hwork', hstart', hlost', hact', hbank', hver', hout', hforce', hcause', hitem', hcount']
  refine ⟨hstart, hwork, hnv, hlost, fun bk i hm hi => ?_,
    fun bk i hi hf hc => ?_, fun hnone => ?_, fun hsome => ?_, fun bk hr hb => ?_, hforce, hwait, hstate,
    fun hl hset => ?_, fun hset => ?_, fun hset => ?_, ?_, fun ha hr => ?_, fun ha hr => ?_, hcoils.1, hcoils.2.1, hcoils.2.2,
    hframe⟩
  · obtain ⟨-, hact, hbank, hver, hout, -⟩ := readStore_used (startChoice_marked hm hi) hi
    exact ⟨hact, hbank, hver, hout⟩
  · have hch : s.store.nv.startChoice s.store.nv.working = some (bk, false) := by
      rcases hc with ⟨hm, ho⟩ | ⟨hm, ho⟩
      · exact startChoice_other hi hf hm ho
      · exact startChoice_lost hi hf hm ho
    obtain ⟨-, hact, hbank, hver, hout, -, -, -, hq⟩ := readStore_used hch hi
    refine ⟨hact, hbank, hver, hout, fun hr => ?_⟩
    rw [hqueue hr, hq]
    exact marker_mem_startWrites _ _ _ _
  · obtain ⟨hattn, hact, hbank, hver, hout, hcause, hitem, hcount, hq⟩ := readStore_none hnone
    refine ⟨hact, hbank, hver, hout, hcause, hitem, ?_, ?_, fun hr => by rw [hqueue hr, hq]⟩
    · rw [hpend _ rfl, hattn]
      simp
    · rw [hcount]
      split
      · next h => rw [recordsRead_whole h]
      · next h => rw [(recordsRead_lost h).2]
  · obtain ⟨⟨bk, marked⟩, hch⟩ := Option.ne_none_iff_exists'.1 hsome
    obtain ⟨i, hi⟩ := startChoice_image hch
    obtain ⟨hattn, -, -, -, -, hcause, hitem, hcount, -⟩ := readStore_used hch hi
    rw [hpend _ rfl, hattn, recordsRead_pending, hcause, hitem, hcount]
    refine ⟨fun h => ?_, fun h => ?_⟩
    · rw [(recordsRead_lost h).2]
      have hl : s.store.nv.lostBits ≠ 0#16 := h
      simp [hl]
    · rw [recordsRead_whole h]
      have hl : s.store.nv.lostBits = 0#16 := h
      simp [hl]
  · rw [hqueue hr]
    cases hch : s.store.nv.startChoice s.store.nv.working with
    | none =>
      obtain ⟨-, -, hbank, -⟩ := readStore_none hch
      exact nomatch hb.symm.trans hbank
    | some c =>
      obtain ⟨bk', marked⟩ := c
      obtain ⟨i, hi⟩ := startChoice_image hch
      obtain ⟨-, -, hbank, hver, hout, -, -, -, hq⟩ := readStore_used hch hi
      obtain rfl : bk' = bk := Option.some.inj (hbank.symm.trans hb)
      rw [hver, hout, hq]
      refine ⟨fun hlt => floor_mem_startWrites hlt _ _ _, fun hnil => ?_⟩
      rw [hnil, startWrites_nil]
      cases marked <;> rfl
  · rw [hstate, if_pos hset]
    exact (hl.waiting (hl.startUp hs)).1
  · rw [hpend _ rfl]
    simp [hset]
  · rw [hpend _ rfl, readStore_pending s (by decide)]
    simp [hset]
  · rw [hpend _ rfl, readStore_pending s (by decide)]
    simp
  · rw [hconv ha, endStartUp_conv, hr]
    refine ⟨fun x hx => ?_, fun hx => ?_⟩
    · simp only [hx, Conv.restore, addCharge_eq, cycle]
    · simp only [hx, Conv.restore, cycle]
  · rw [hconv ha, endStartUp_conv, hr]

end Sys2Proof.Machine


namespace Sys2Proof.Machine

/-! ### A latch (R25, R26) -/

/-- A latched reading is held at full scale with its mark (R26). -/
theorem sampleOf_eq (t : Us) (r : Readings) : sampleOf t r =
    { t := t
      i := max (-60000) (min 60000 r.i)
      vBatt := (max 0 (min 120000 r.vBatt)).toNat
      vLink := (max 0 (min 120000 r.vLink)).toNat
      vCoil := (max 0 (min 3200 r.vCoil)).toNat
      satI := decide (60000 ≤ r.i.natAbs)
      satBatt := decide (120000 ≤ r.vBatt)
      satLink := decide (120000 ≤ r.vLink)
      satCoil := decide (3200 ≤ r.vCoil) } := by
  have hclamp : ∀ lo hi v : Int, lo ≤ hi → clampInt lo hi v = max lo (min hi v) := fun lo hi v h => by
    unfold clampInt
    split
    · omega
    · split <;> omega
  have hmark : (r.i ≤ -60000 ∨ 60000 ≤ r.i) ↔ 60000 ≤ r.i.natAbs := by omega
  simp only [sampleOf, hclamp _ _ _ (by decide : (-60000 : Int) ≤ 60000), hclamp _ _ _ (by decide : (0 : Int) ≤ 120000),
    hclamp _ _ _ (by decide : (0 : Int) ≤ 3200), hmark]

theorem sampleLatch_next {r : Readings} {s : State} (hc : s.calm) (hs : s.conv.scanning = true) :
    exec (.sampleLatch r) s = .next { s with
      conv.us := laterUs s.conv.us (s.conv.lastLatch + 100)
      conv.lastLatch := s.conv.lastLatch + 100
      conv.latched := some (sampleOf (s.conv.lastLatch + 100) r) } := by
  refine next_done ?_ (calm_of_same hc rfl rfl rfl rfl) (by simp [State.shownAlike])
  show execSampleLatch r s = _
  rw [execSampleLatch, if_pos hs]
  rfl

theorem sampleLatch_stopped {r : Readings} {s : State} (hc : s.calm) (hs : s.conv.scanning = false) :
    exec (.sampleLatch r) s = .next s := by
  refine next_done (n := s) ?_ hc (by simp [State.shownAlike])
  show execSampleLatch r s = _
  rw [execSampleLatch, if_neg (by simp [hs])]

/-! ### A sample that completes: what its readers but the supervisor take (R27, R31, R33, R49) -/

theorem sampleComplete_react {s : State} {x : Sample} (hs : s.conv.scanning = true) (hl : s.conv.latched = some x) :
    exec .sampleComplete s = s.react (s.completeSample x) := by
  show execSampleComplete s = _
  simp only [execSampleComplete, hl, if_pos hs]

/-- A completed sample has joined the history and the charge counter, and the captures have their pairs. -/
def State.entered (s : State) (x : Sample) : State := { s with
  conv.us := laterUs s.conv.us (x.t + BitVec.ofNat 32 completionTime)
  conv.latched := none
  conv.history := pushSample s.conv.history x
  conv.charge := (addCharge s.conv.charge s.conv.chargeSat x.i).1
  conv.chargeSat := (addCharge s.conv.charge s.conv.chargeSat x.i).2
  plan.captures := s.plan.captures.map (Capture.pairUp (pushSample s.conv.history x) x) }

/-- A collecting estimate has taken the sample, too. -/
def State.sampled (s : State) (x : Sample) : State := (s.entered x).collect x.i

theorem completeSample_eq (s : State) (x : Sample) : s.completeSample x = ((s.sampled x).supSample x).fillWindows x := rfl

/-- The supervisor has read the coil supply and counted the hard current run (R73, R85). -/
def State.sampleRead (s : State) (x : Sample) : State :=
  State.countHard { s.sampled x with sup.lowSupply := decide ((x.vCoil : Int) < (s.sampled x).store.active.surge) } x.i

/-- The supervisor's judgements of a sample begin in the state in which it has been read. -/
theorem supSample_eq (s : State) (x : Sample) : (s.sampled x).supSample x =
    let b := s.sampleRead x
    let c := if b.sup.deferral.isSome && decide ((x.i.natAbs : Int) < b.store.active.breakLimit) then b.endDeferral else b
    let d := c.reachPrecharge x
    match d.sup.weld with
    | some w => if w.waitingSample then d.judgeWeld w x else d
    | none => d := rfl

theorem newest_sampled (s : State) (x : Sample) : (s.sampled x).newest = some x := by
  have h : (s.sampled x).conv.history = pushSample s.conv.history x := by simp [State.sampled, State.entered]
  rw [State.newest, h, pushSample]
  split <;> exact lastOf_append _ _

/-- What a sample that has been read shares with the state before. -/
structure State.SampleTaken (s : State) (x : Sample) (b : State) : Prop where
  follows : s.Follows b
  newest : b.newest = some x
  history : b.conv.history = if s.conv.history.length < 64 then s.conv.history ++ [x] else s.conv.history.drop 1 ++ [x]
  latched : b.conv.latched = none
  part : b.conv.part = s.conv.part
  chain : b.chain = s.chain
  ev : b.ev = s.ev
  power : b.power = { s.power with estimate := b.power.estimate }
  plan : b.plan = { s.plan with captures := s.plan.captures.map (Capture.pairUp b.conv.history x) }
  upd : b.upd = s.upd
  store : b.store = s.store
  port : b.port = s.port
  pins : b.pins = s.pins
  attn : b.attn = s.attn
  sup : b.sup = { s.sup with
    lowSupply := decide ((x.vCoil : Int) < s.store.active.surge)
    hardRun := if s.store.active.hardCurrent < (x.i.natAbs : Int) then min s.store.active.hardCount.toNat (s.sup.hardRun + 1) else 0
    hardFell := b.sup.hardFell
    hardDue := b.sup.hardDue }

theorem follows_collect (s : State) (i : Int) : s.Follows (s.collect i) := by
  unfold State.collect
  split
  · exact follows_self s
  · simp only []
    split
    · exact follows_of_same rfl rfl rfl rfl rfl
    · exact (follows_makeEstimate _).before rfl rfl rfl rfl rfl

theorem follows_sampled (s : State) (x : Sample) : s.Follows (s.sampled x) := by
  refine State.Follows.trans ?_ (follows_collect _ _)
  exact (follows_captures s (pairUp_slot (pushSample s.conv.history x) x)).after rfl rfl rfl rfl rfl

theorem follows_countHard (s : State) (i : Int) : s.Follows (s.countHard i) :=
  follows_of_same (by simp) (by simp) (by simp) (by simp [State.slips]) (by simp [State.sizes])

theorem countHard_sup (s : State) (i : Int) : (s.countHard i).sup = { s.sup with
    hardRun := if s.store.active.hardCurrent < (i.natAbs : Int) then min s.store.active.hardCount.toNat (s.sup.hardRun + 1) else 0
    hardFell := (s.countHard i).sup.hardFell
    hardDue := (s.countHard i).sup.hardDue } := by
  unfold State.countHard
  simp only []
  split
  · split <;> rfl
  · rfl

theorem makeEstimate_power (s : State) : s.makeEstimate.power = { s.power with estimate := s.makeEstimate.power.estimate } := by
  unfold State.makeEstimate
  split
  · rfl
  · split <;> rfl

theorem collect_power (s : State) (i : Int) : (s.collect i).power = { s.power with estimate := (s.collect i).power.estimate } := by
  unfold State.collect
  split
  · rfl
  · simp only []
    split
    · rfl
    · exact makeEstimate_power _

theorem sampled_fields (s : State) (x : Sample) : (s.sampled x).conv.history = pushSample s.conv.history x
    ∧ (s.sampled x).conv.latched = none ∧ (s.sampled x).conv.part = s.conv.part ∧ (s.sampled x).chain = s.chain
    ∧ (s.sampled x).ev = s.ev ∧ (s.sampled x).plan = (s.entered x).plan ∧ (s.sampled x).upd = s.upd
    ∧ (s.sampled x).store = s.store ∧ (s.sampled x).port = s.port ∧ (s.sampled x).pins = s.pins
    ∧ (s.sampled x).attn = s.attn ∧ (s.sampled x).sup = s.sup := by
  simp [State.sampled, State.entered]

theorem sampleTaken (s : State) (x : Sample) : s.SampleTaken x (s.sampleRead x) := by
  obtain ⟨hhist, hlat, hpart, hchain, hev, hplan, hupd, hstore, hport, hpins, hattn, hsup⟩ := sampled_fields s x
  have hpow := collect_power (s.entered x) x.i
  unfold State.sampleRead
  constructor
  · refine State.Follows.trans ?_ (follows_countHard _ _)
    exact (follows_sampled s x).after rfl rfl rfl rfl rfl
  · simpa [State.newest] using newest_sampled s x
  · simp [hhist, pushSample]
  · simp [hlat]
  · simp [hpart]
  · simp [hchain]
  · simp [hev]
  · simp only [countHard_frame]
    exact hpow
  · simp only [countHard_frame, hplan, hhist]
    rfl
  · simp [hupd]
  · simp [hstore]
  · simp [hport]
  · simp [hpins]
  · simp [hattn]
  · rw [countHard_sup]
    simp only [hstore, hsup]

end Sys2Proof.Machine

namespace Sys2Proof.Machine

/-! ### The charge counter and the estimate (R31, R33) -/

theorem sumInts_eq (l : List Int) : sumInts l = l.sum := by
  induction l with
  | nil => rfl
  | cons a l ih => simp [sumInts, ih]

theorem collect_none {s : State} (h : s.conv.estimate = none) (i : Int) : s.collect i = s := by
  unfold State.collect
  rw [h]

theorem collect_some {s : State} {e : Estimate} (h : s.conv.estimate = some e) (hl : e.currents.length < 15) (i : Int) :
    s.collect i = { s with conv.estimate := some { e with currents := e.currents ++ [i] } } := by
  unfold State.collect
  rw [h]
  exact if_pos (by omega)

/-- The 16th current makes the estimate: the counter takes it, and the power controller. -/
theorem collect_full {s : State} {e : Estimate} (h : s.conv.estimate = some e) (hl : e.currents.length = 15) (i : Int)
    {avg : Int} (ha : avg = roundHalfAway (e.currents ++ [i]).sum 16) :
    (s.collect i).conv.estimate = none ∧ (s.collect i).power.estimate = .made avg (s.collect i).conv.charge
      ∧ ((s.collect i).conv.charge, (s.collect i).conv.chargeSat) = chargeAdded (s.conv.charge, s.conv.chargeSat)
          (avg * (10 * min (min e.frozen (2000 * s.power.wakeTable.period)) 86400000 : Nat)) := by
  have hspan : estimateSpan e.frozen s.power.wakeTable.period
      = 10 * min (min e.frozen (2000 * s.power.wakeTable.period)) 86400000 := by
    rw [estimateSpan, unsampledMax, ← Nat.mul_assoc]
  obtain ⟨c, l, hcl⟩ : ∃ c l, e.currents ++ [i] = c :: l := List.exists_cons_of_ne_nil (by simp)
  have hlen : (c :: l).length = 16 := by
    rw [← hcl]
    simp [hl]
  have hc : s.collect i = State.makeEstimate { s with conv.estimate := some { e with currents := c :: l } } := by
    unfold State.collect
    rw [h]
    simp only [hcl]
    exact if_neg (by omega)
  subst ha
  rw [hc, hcl]
  simp only [State.makeEstimate, State.showConverter, State.charge, sumInts_eq, hlen, hspan, addCharge_eq]
  exact ⟨trivial, trivial, trivial⟩

theorem sampleRead_conv (s : State) (x : Sample) : (s.sampleRead x).conv = (s.sampled x).conv
    ∧ (s.sampleRead x).power = (s.sampled x).power := by
  simp [State.sampleRead]

theorem entered_charge (s : State) (x : Sample) :
    ((s.entered x).conv.charge, (s.entered x).conv.chargeSat) = chargeAdded (s.conv.charge, s.conv.chargeSat) x.i :=
  addCharge_eq _ _ _

/-- A sample that makes no estimate is added to the counter alone. -/
theorem sampled_charge {s : State} (x : Sample) (h : ∀ e, s.conv.estimate = some e → e.currents.length < 15) :
    ((s.sampled x).conv.charge, (s.sampled x).conv.chargeSat) = chargeAdded (s.conv.charge, s.conv.chargeSat) x.i := by
  rw [← entered_charge]
  cases he : s.conv.estimate with
  | none => rw [State.sampled, collect_none (s := s.entered x) he]
  | some e => rw [State.sampled, collect_some (s := s.entered x) he (h e he)]

end Sys2Proof.Machine

namespace Sys2Proof.Machine

/-! ### The captures' pairs and broadcast readings (R49) -/

/-- What a completed sample makes of a listed address. -/
def Item.pairUp (h : List Sample) (x : Sample) (m : Item) : Item :=
  if m.pair.isNone && liesAfter h x m.tm then { m with pair := some (pairOf h x m.tm) } else m

/-- What a completed sample makes of a capture's broadcast readings, after its CAPTURE has left. -/
def broadcastUp (h : List Sample) (x : Sample) (tb : Us) (old : Option Broadcast) : Option Broadcast :=
  if old.isNone && liesAfter h x tb then some (broadcastOf h x tb) else old

theorem pairUp_none {c : Capture} (h : List Sample) (x : Sample) (ht : c.tb = none) : c.pairUp h x = c := by
  unfold Capture.pairUp
  rw [ht]

theorem pairUp_some {c : Capture} {tb : Us} (h : List Sample) (x : Sample) (ht : c.tb = some tb) :
    c.pairUp h x = { c with bcast := broadcastUp h x tb c.bcast, items := c.items.map (Item.pairUp h x) } := by
  unfold Capture.pairUp
  rw [ht]
  rfl

theorem liesAfter_later {h : List Sample} {x : Sample} {t : Us} (hne : x.t ≠ t) (hlt : elapsed x.t t < 2 ^ 31) :
    liesAfter h x t = true := by
  have hlt' : elapsed x.t t < 2147483648 := hlt
  simp [liesAfter, hne, hlt']

theorem liesAfter_earlier {h : List Sample} {x : Sample} {t : Us} (hle : x.t = t ∨ 2 ^ 31 ≤ elapsed x.t t) :
    liesAfter h x t = (decide (h = [x]) && decide (1000 ≤ elapsed t x.t)) := by
  have hno : (decide (x.t ≠ t) && decide (elapsed x.t t < 2147483648)) = false := by
    rcases hle with he | hl
    · simp [he]
    · have hl' : 2147483648 ≤ elapsed x.t t := hl
      simp [Nat.not_lt.2 hl']
  rw [liesAfter, hno, Bool.false_or]

theorem sampleAt_single (x : Sample) : sampleAt [x] (x.t - 100) = none := by
  have h : x.t ≠ x.t - 100 := by
    intro h
    have := congrArg (fun v => x.t - v) h
    simp at this
  simpa [sampleAt] using h

theorem pairTaken_pairUp (h : List Sample) (x : Sample) (m : Item) : pairTaken h x m (m.pairUp h x) := by
  refine ⟨?_, fun hs => ?_, fun hn hne hlt => ?_, fun hn hle => ?_⟩
  · unfold Item.pairUp
    split <;> rfl
  · simp [Item.pairUp, Option.isNone_eq_false_iff.2 hs]
  · have hp : (m.pairUp h x).pair = some (pairOf h x m.tm) := by
      simp [Item.pairUp, hn, liesAfter_later hne hlt]
    rw [hp, pairOf, sampleAt]
    exact ⟨fun a ha => by rw [ha], fun ha => by rw [ha]⟩
  · have hl := liesAfter_earlier (h := h) hle
    refine ⟨fun hx => ?_, fun hx => ?_⟩
    · simp [Item.pairUp, hl, hx, hn]
    · subst hx
      simp only [Item.pairUp, hl, hn, pairOf, sampleAt_single]
      by_cases ht : 1000 ≤ elapsed m.tm x.t <;> simp [ht, hn]

theorem broadcastTaken_broadcastUp (h : List Sample) (x : Sample) (tb : Us) (old : Option Broadcast) :
    broadcastTaken h x tb old (broadcastUp h x tb old) := by
  refine ⟨fun hs => ?_, fun hn hne hlt => ?_, fun hn hle hx => ?_⟩
  · simp [broadcastUp, Option.isNone_eq_false_iff.2 hs]
  · have hp : broadcastUp h x tb old = some (broadcastOf h x tb) := by
      simp [broadcastUp, hn, liesAfter_later hne hlt]
    rw [hp]
    unfold broadcastOf sampleAt
    cases hf : h.find? fun z => decide (z.t = x.t - 100) with
    | none => exact ⟨x, rfl, (fun a ha => nomatch ha), fun _ => rfl⟩
    | some a => exact ⟨if elapsed tb a.t < 50 then a else x, rfl, fun b hb => by rw [Option.some.inj hb], (fun hb => nomatch hb)⟩
  · simp [broadcastUp, liesAfter_earlier hle, hx, hn]

/-! ### A sample that no judgement awaits but the precharge (R76) -/

theorem reachPrecharge_other {s : State} (h : s.sup.state ≠ .precharging) (x : Sample) : s.reachPrecharge x = s := by
  unfold State.reachPrecharge
  split
  · next hst _ => exact absurd hst h
  · rfl

theorem reachPrecharge_reached {s : State} {c : Close} {x : Sample} (h : s.sup.state = .precharging)
    (hc : s.sup.close = some c) (hr : c.ratio * x.vBatt ≤ x.vLink * 1000) :
    s.reachPrecharge x = State.toSup (State.inrush { s with
      sup.mainPos := coilOn s.now
      sup.settleAt := s.now
      sup.close := some { c with reachedMs := elapsed s.now c.entered, vLink := x.vLink, vBatt := x.vBatt } }) .closing := by
  unfold State.reachPrecharge
  rw [h, hc]
  exact if_pos (decide_eq_true hr)

/-- Where no deferral ends and no weld window waits, a sample is judged by the precharge alone. -/
theorem completeSample_quiet {s : State} {x : Sample} (hw : ∀ w, s.sup.weld = some w → w.waitingSample = false)
    (hd : ∀ d, s.sup.deferral = some d → s.store.active.breakLimit ≤ (x.i.natAbs : Int)) :
    s.completeSample x = ((s.sampleRead x).reachPrecharge x).fillWindows x := by
  have hb := sampleTaken s x
  rw [completeSample_eq, supSample_eq]
  have hdef : ((s.sampleRead x).sup.deferral.isSome
      && decide ((x.i.natAbs : Int) < (s.sampleRead x).store.active.breakLimit)) = false := by
    have hdb : (s.sampleRead x).sup.deferral = s.sup.deferral := by rw [hb.sup]
    rw [hdb, hb.store]
    cases h : s.sup.deferral with
    | none => rfl
    | some d => exact decide_eq_false (Int.not_lt.2 (hd d h))
  have hweld : ((s.sampleRead x).reachPrecharge x).sup.weld = s.sup.weld := by
    simp only [reachPrecharge_frame]
    rw [hb.sup]
  simp only [hdef, Bool.false_eq_true, if_false, hweld]
  split
  · next w h => rw [hw w h, if_neg (by simp)]
  · rfl

end Sys2Proof.Machine

namespace Sys2Proof.Machine

/-! ### The filling windows take a sample (R98) -/

/-- A record's window takes a sample: it is stamped 400 µs after the window's last one, or after the event's. -/
def EventRec.joins (x : Sample) (r : EventRec) : Bool := decide ((x.t - r.tn).toNat = 400 * (r.post.length + 1))

/-- The sample is the last that the window takes. -/
def EventRec.fills (x : Sample) (r : EventRec) : Bool := r.joins x && decide (15 ≤ r.post.length)

/-- A record after a sample, with the surge state at that moment. -/
def EventRec.filled (x : Sample) (surge : Bool) (r : EventRec) : EventRec :=
  if r.fills x then { r with
    post := r.post ++ [WindowEntry.of x], windowComplete := true, complete := true, surge := r.surge || surge }
  else if r.joins x then { r with post := r.post ++ [WindowEntry.of x] }
  else r

theorem windowEntry_of (x : Sample) : WindowEntry.of x = ⟨x.i, (x.vBatt + 5) / 10, (x.vLink + 5) / 10⟩ := by
  have h : ∀ n : Nat, (roundHalfUp (n : Int) 10).toNat = (n + 5) / 10 := fun n => by
    unfold roundHalfUp
    omega
  rw [WindowEntry.of, h, h]

/-- A window that has taken a sample does not take it again. -/
theorem joins_filled (x : Sample) (surge : Bool) (r : EventRec) : (r.filled x surge).joins x = false := by
  by_cases hj : r.joins x = true
  · have hn := of_decide_eq_true hj
    obtain ⟨htn, hpost⟩ : (r.filled x surge).tn = r.tn ∧ (r.filled x surge).post.length = r.post.length + 1 := by
      unfold EventRec.filled
      split
      · exact ⟨rfl, List.length_append⟩
      · exact ⟨rfl, List.length_append⟩
    refine decide_eq_false ?_
    rw [htn, hpost, hn]
    omega
  · rw [EventRec.filled, if_neg (by simp [EventRec.fills, hj]), if_neg hj]
    exact Bool.eq_false_iff.2 hj

theorem fills_filled (x : Sample) (surge : Bool) (r : EventRec) : (r.filled x surge).fills x = false := by
  rw [EventRec.fills, joins_filled, Bool.false_and]

theorem filled_filled (x : Sample) (surge : Bool) (r : EventRec) : (r.filled x surge).filled x surge = r.filled x surge := by
  rw [EventRec.filled, fills_filled, joins_filled, if_neg (by simp), if_neg (by simp)]

theorem fillOne_leaves {s : State} {x : Sample} {k : Nat} (h : (s.ev.at k).any (EventRec.joins x) = false) :
    s.fillOne x k = s := by
  unfold State.fillOne
  cases hk : s.ev.at k with
  | none => rfl
  | some r =>
    rw [hk] at h
    exact if_neg (of_decide_eq_false h)

theorem fillOne_joins {s : State} {x : Sample} {k : Nat} {r : EventRec} (hk : s.ev.at k = some r) (hj : r.joins x = true)
    (hf : r.fills x = false) :
    s.fillOne x k = { s with ev := s.ev.change k fun r => { r with post := r.post ++ [WindowEntry.of x] } } := by
  have hlen : r.post.length + 1 < 16 := by
    have : ¬15 ≤ r.post.length := by simpa [EventRec.fills, hj] using hf
    omega
  unfold State.fillOne
  simp only [hk]
  rw [if_pos (of_decide_eq_true hj), if_pos hlen]

theorem fillOne_fills {s : State} {x : Sample} {k : Nat} {r : EventRec} (hk : s.ev.at k = some r) (hf : r.fills x = true) :
    s.fillOne x k = State.completeRecord { s with ev := { (s.ev.change k fun r =>
      { r with post := r.post ++ [WindowEntry.of x] }).change k fun r =>
        { r with windowComplete := true, surge := r.surge || s.sup.surge } with
      filling := s.ev.filling.filter (· ≠ k) } } k := by
  obtain ⟨hj, hlen⟩ := Bool.and_eq_true_iff.1 hf
  have hlen' : ¬r.post.length + 1 < 16 := by
    have := of_decide_eq_true hlen
    omega
  unfold State.fillOne
  simp only [hk]
  rw [if_pos (of_decide_eq_true hj), if_neg hlen']
  rfl

/-- What a sample makes of the record in a slot, of the filling windows and of EVENT_NEW. -/
theorem fillOne_fields (s : State) (x : Sample) (k : Nat) :
    (∀ j, (s.fillOne x k).ev.at j = if j = k then (s.ev.at j).map (EventRec.filled x s.sup.surge) else s.ev.at j)
      ∧ (∀ j, j ∈ (s.fillOne x k).ev.filling ↔ j ∈ s.ev.filling ∧ ¬(j = k ∧ (s.ev.at k).any (EventRec.fills x) = true))
      ∧ ((s.ev.at k).any (EventRec.fills x) = true → (s.fillOne x k).attn.pending .eventNew = true) := by
  cases hk : s.ev.at k with
  | none =>
    rw [fillOne_leaves (by rw [hk]; rfl)]
    refine ⟨fun j => ?_, fun j => by simp, fun h => nomatch h⟩
    split
    · next h => rw [h, hk]; rfl
    · rfl
  | some r =>
    cases hf : r.fills x with
    | true =>
      rw [fillOne_fills hk hf]
      refine ⟨fun j => ?_, fun j => ?_, fun _ => raise_pending_self _ _⟩
      · rw [show ∀ u : State, (u.completeRecord k).ev = u.ev.change k fun r => { r with complete := true } from fun u => by
          simp [State.completeRecord]]
        rw [change_at]
        show (if j = k then Option.map _ (Recorder.at ((s.ev.change k _).change k _) j)
          else Recorder.at ((s.ev.change k _).change k _) j) = _
        simp only [change_at]
        split
        · next h =>
          rw [h, hk]
          simp [EventRec.filled, hf]
        · rfl
      · simp [State.completeRecord, hf, Recorder.change]
    | false =>
      cases hj : r.joins x with
      | true =>
        rw [fillOne_joins hk hj hf]
        refine ⟨fun j => ?_, fun j => by simp [hf, Recorder.change], fun h => nomatch hf.symm.trans h⟩
        simp only [change_at]
        split
        · next h =>
          rw [h, hk]
          simp [EventRec.filled, hf, hj]
        · rfl
      | false =>
        rw [fillOne_leaves (by rw [hk]; exact hj)]
        refine ⟨fun j => ?_, fun j => by simp [hf], fun h => nomatch hf.symm.trans h⟩
        split
        · next h =>
          rw [h, hk]
          simp [EventRec.filled, hf, hj]
        · rfl

theorem follows_fillOne (s : State) (x : Sample) (k : Nat) : s.Follows (s.fillOne x k) := by
  cases hj : (s.ev.at k).any (EventRec.joins x) with
  | false =>
    rw [fillOne_leaves hj]
    exact follows_self s
  | true =>
    obtain ⟨r, hk, hjoin⟩ := (Option.any_eq_true _ _).1 hj
    cases hf : r.fills x with
    | true =>
      rw [fillOne_fills hk hf]
      exact (follows_completeRecord _ _).before rfl rfl rfl rfl (by simp [State.sizes])
    | false =>
      rw [fillOne_joins hk hjoin hf]
      exact follows_of_same rfl rfl rfl rfl (by simp [State.sizes])

theorem follows_fillAll (x : Sample) (l : List Nat) (s : State) : s.Follows (l.foldl (fun s k => s.fillOne x k) s) := by
  induction l generalizing s with
  | nil => exact follows_self s
  | cons k l ih => exact (follows_fillOne s x k).trans (ih _)

theorem follows_fillWindows (s : State) (x : Sample) : s.Follows (s.fillWindows x) := follows_fillAll x _ s

/-- What a sample makes of the records in a list of slots. -/
theorem fillAll_fields (x : Sample) (l : List Nat) (s : State) :
    (∀ j, (l.foldl (fun s k => s.fillOne x k) s).ev.at j
        = if j ∈ l then (s.ev.at j).map (EventRec.filled x s.sup.surge) else s.ev.at j)
      ∧ (∀ j, j ∈ (l.foldl (fun s k => s.fillOne x k) s).ev.filling
        ↔ j ∈ s.ev.filling ∧ ¬(j ∈ l ∧ (s.ev.at j).any (EventRec.fills x) = true))
      ∧ ∀ j ∈ l, (s.ev.at j).any (EventRec.fills x) = true →
        (l.foldl (fun s k => s.fillOne x k) s).attn.pending .eventNew = true := by
  induction l generalizing s with
  | nil => simp
  | cons k l ih =>
    obtain ⟨hat, hfill, hnew⟩ := fillOne_fields s x k
    obtain ⟨hat', hfill', hnew'⟩ := ih (s.fillOne x k)
    have hsup : (s.fillOne x k).sup = s.sup := by simp
    rw [hsup] at hat'
    have hany : ∀ j, ((s.fillOne x k).ev.at j).any (EventRec.fills x) = (decide (j ≠ k) && (s.ev.at j).any (EventRec.fills x)) := by
      intro j
      rw [hat j]
      by_cases hjk : j = k
      · cases s.ev.at j <;> simp [hjk, fills_filled]
      · simp [hjk]
    simp only [List.foldl_cons]
    refine ⟨fun j => ?_, fun j => ?_, fun j hj hf => ?_⟩
    · rw [hat' j, hat j]
      by_cases hjk : j = k
      · cases s.ev.at j <;> simp [hjk, filled_filled]
      · simp [hjk]
    · rw [hfill' j, hfill j, hany j]
      by_cases hjk : j = k
      · simp [hjk]
      · simp [hjk]
    · by_cases hjk : j = k
      · exact (follows_fillAll x l _).pending _ (hnew (hjk ▸ hf))
      · exact hnew' j ((List.mem_cons.1 hj).resolve_left hjk) (by rw [hany j]; simp [hjk, hf])

end Sys2Proof.Machine

namespace Sys2Proof.Machine

/-! ### The end of the step of a sample (R54, R98) -/

theorem change_all_at (l : List Nat) (v : Recorder) (f : EventRec → EventRec) (hf : ∀ r, f (f r) = f r) (j : Nat) :
    (l.foldl (fun v k => v.change k f) v).at j = if j ∈ l then (v.at j).map f else v.at j := by
  induction l generalizing v with
  | nil => simp
  | cons k l ih =>
    rw [List.foldl_cons, ih, change_at]
    by_cases hjk : j = k
    · cases v.at j <;> simp [hjk, hf]
    · simp [hjk]

theorem trackFaulted_keeps (o n : State) : (State.trackFaulted o n).ev = n.ev ∧ (State.trackFaulted o n).plan = n.plan
    ∧ (State.trackFaulted o n).sup.surge = n.sup.surge := by
  rw [trackFaulted_eq]
  exact ⟨rfl, rfl, rfl⟩

/-- While surge holds, the end of a step marks the records whose windows fill. -/
theorem finish_at (o n : State) (j : Nat) : (State.finish o n).ev.at j
    = if j ∈ n.ev.filling then (n.ev.at j).map fun r => { r with surge := r.surge || n.sup.surge } else n.ev.at j := by
  obtain ⟨hev, -, hsurge⟩ := trackFaulted_keeps o n
  have hfin : (State.finish o n).ev.at j = (State.trackFaulted o n).markSurge.ev.at j := by
    show (State.trackFaulted o n).markSurge.markCaptureSurge.ev.at j = _
    simp
  rw [hfin, State.markSurge, hev, hsurge]
  cases hs : n.sup.surge with
  | false =>
    simp only [Bool.false_and, Bool.false_eq_true, if_false, hev, Bool.or_false]
    split
    · cases n.ev.at j <;> rfl
    · rfl
  | true =>
    simp only [Bool.true_and, Bool.or_true]
    split
    · exact change_all_at _ _ (fun r => { r with surge := true }) (fun _ => rfl) j
    · next h =>
      have hnil : n.ev.filling = [] := by simpa using h
      simp [hnil]

/-- While surge holds, the end of a step marks the capture that holds the chain after its broadcast. -/
theorem finish_captures (o n : State) : (State.finish o n).plan.captures = n.plan.captures.map fun c =>
    { c with surge := c.surge || (c.holding && c.tb.isSome && n.sup.surge) } := by
  obtain ⟨-, hplan, hsurge⟩ := trackFaulted_keeps o n
  have hfin : (State.finish o n).plan.captures = (State.trackFaulted o n).markSurge.markCaptureSurge.plan.captures := rfl
  have hsup : (State.trackFaulted o n).markSurge.sup.surge = n.sup.surge := by
    rw [← hsurge]
    simp [Sup.surge]
  rw [hfin, State.markCaptureSurge, hsup]
  cases hs : n.sup.surge with
  | false => simp
  | true =>
    rw [if_pos rfl]
    simp only [State.editHeld, markSurge_frame, hplan]
    refine List.map_congr_left fun c _ => ?_
    cases c.holding <;> simp

end Sys2Proof.Machine

namespace Sys2Proof.Machine

/-- The filling windows after the step of a sample, where nothing reacts (R98). -/
theorem finish_fillWindows {s d : State} {x : Sample} (hn : (d.fillWindows x).settle = d.fillWindows x) (hev : d.ev = s.ev) :
    (∀ k r, k ∈ s.ev.filling → s.ev.at k = some r →
        (State.finish s (d.fillWindows x).settle).ev.at k = some
            (if r.fills x then r.filled x d.sup.surge
             else { r.filled x d.sup.surge with surge := (r.filled x d.sup.surge).surge || d.sup.surge })
          ∧ (k ∈ (State.finish s (d.fillWindows x).settle).ev.filling ↔ r.fills x = false)
          ∧ (r.fills x = true → (State.finish s (d.fillWindows x).settle).attn.pending .eventNew = true))
      ∧ ∀ j, j ∉ s.ev.filling → (State.finish s (d.fillWindows x).settle).ev.at j = s.ev.at j
        ∧ j ∉ (State.finish s (d.fillWindows x).settle).ev.filling := by
  obtain ⟨hat, hfill, hnew⟩ := fillAll_fields x d.ev.filling d
  rw [show (d.ev.filling.foldl (fun s k => s.fillOne x k) d) = d.fillWindows x from rfl, hev] at hat hfill hnew
  have hsurge : (d.fillWindows x).sup.surge = d.sup.surge := by simp
  rw [hn]
  simp only [finish_at, finish_frame, hsurge]
  refine ⟨fun k r hk hr => ⟨?_, ?_, fun hf => hnew k hk (by rw [hr]; exact hf)⟩, fun j hj => ⟨?_, ?_⟩⟩
  · cases hf : r.fills x with
    | true =>
      rw [if_neg (by rw [hfill]; simp [hr, hf, hk]), hat, if_pos hk, hr]
      rfl
    | false =>
      rw [if_pos ((hfill k).2 ⟨hk, by simp [hr, hf]⟩), hat, if_pos hk, hr]
      rfl
  · rw [hfill, hr]
    simp [hk]
  · rw [if_neg (by rw [hfill]; simp [hj]), hat, if_neg hj]
  · rw [hfill]
    simp [hj]

/-- The filling windows after the step of a sample, in the words of the statement. -/
theorem windows_taken {s d : State} {x : Sample} (hn : (d.fillWindows x).settle = d.fillWindows x) (hev : d.ev = s.ev)
    {k : Nat} {r : EventRec} (hk : k ∈ s.ev.filling) (hr : s.ev.at k = some r) {t : State}
    (ht : t = State.finish s (d.fillWindows x).settle) :
    ((x.t - r.tn).toNat ≠ 400 * (r.post.length + 1) →
        t.ev.at k = some { r with surge := r.surge || t.sup.surge } ∧ k ∈ t.ev.filling)
      ∧ ((x.t - r.tn).toNat = 400 * (r.post.length + 1) → r.post.length < 15 →
        t.ev.at k = some { r with
            post := r.post ++ [⟨x.i, (x.vBatt + 5) / 10, (x.vLink + 5) / 10⟩]
            surge := r.surge || t.sup.surge } ∧ k ∈ t.ev.filling)
      ∧ ((x.t - r.tn).toNat = 400 * (r.post.length + 1) → r.post.length = 15 →
        t.ev.at k = some { r with
            post := r.post ++ [⟨x.i, (x.vBatt + 5) / 10, (x.vLink + 5) / 10⟩]
            windowComplete := true
            complete := true
            surge := r.surge || t.sup.surge }
          ∧ k ∉ t.ev.filling ∧ t.attn.pending .eventNew = true) := by
  have hsurge : t.sup.surge = d.sup.surge := by
    rw [ht, hn]
    simp [Sup.surge]
  obtain ⟨hat, hfill, hnew⟩ := (finish_fillWindows hn hev).1 k r hk hr
  rw [← ht] at hat hfill hnew
  rw [hsurge]
  refine ⟨fun hj => ?_, fun hj hl => ?_, fun hj hl => ?_⟩
  · have hjoin : r.joins x = false := decide_eq_false hj
    have hf : r.fills x = false := by simp [EventRec.fills, hjoin]
    rw [hf, EventRec.filled, hf, hjoin] at hat
    exact ⟨hat, hfill.2 hf⟩
  · have hjoin : r.joins x = true := decide_eq_true hj
    have hf : r.fills x = false := by simp [EventRec.fills, hl]
    rw [hf, EventRec.filled, hf, hjoin, windowEntry_of] at hat
    exact ⟨hat, hfill.2 hf⟩
  · have hf : r.fills x = true := by simp [EventRec.fills, EventRec.joins, hj, hl]
    rw [hf, EventRec.filled, hf, windowEntry_of] at hat
    exact ⟨hat, by rw [hfill, hf]; simp, hnew hf⟩

end Sys2Proof.Machine

namespace Sys2Proof.Machine

/-! ### A sample that no opening and no weld window awaits (R27, R31, R76, R85, R98) -/

theorem State.SampleTaken.sameAround {s b : State} {x : Sample} (h : s.SampleTaken x b) : s.sameAround b := by
  refine ⟨by rw [h.port], by rw [h.port], by rw [h.port], by rw [h.port], by rw [h.port], by rw [h.attn], by rw [h.attn],
    by rw [h.attn], by rw [h.store], by rw [h.plan], by rw [h.plan], by rw [h.plan], by rw [h.plan], by rw [h.plan],
    by rw [h.plan], by rw [h.plan], by rw [h.plan], h.part, h.pins, by rw [h.power], by rw [h.power], by rw [h.power],
    by rw [h.upd], by rw [h.upd], by rw [h.upd], by rw [h.upd], by rw [h.upd], by rw [h.upd], by rw [h.upd]⟩

theorem State.SampleTaken.now {s b : State} {x : Sample} (h : s.SampleTaken x b) : b.now = s.now := h.part

/-- The judged sample of a part that reacts to nothing of it. -/
def State.precharged (s : State) (x : Sample) : State := (s.sampleRead x).reachPrecharge x

theorem precharged_sameAround (s : State) (x : Sample) : s.sameAround ((s.precharged x).fillWindows x) := by
  simpa [State.sameAround, State.precharged] using (sampleTaken s x).sameAround

theorem precharged_awake {s : State} (x : Sample) (h : s.awake) : ((s.precharged x).fillWindows x).awake := by
  have hp := (sampleTaken s x).power
  simp only [State.awake, State.precharged, fillWindows_frame, reachPrecharge_frame] at h ⊢
  rw [hp]
  exact h

theorem precharged_restful {s : State} (x : Sample) (h : s.restful) : ((s.precharged x).fillWindows x).restful := by
  obtain ⟨-, -, -, -, -, hchain, -, hp, hplan, hupd, -⟩ := sampleTaken s x
  refine restful_of_held h ?_ ?_
  · simp only [State.precharged, fillWindows_frame, reachPrecharge_frame]
    rw [hp, hplan, hupd, hchain]
    exact ⟨rfl, rfl, rfl, rfl, rfl, rfl, rfl, rfl⟩
  · simp only [State.precharged, fillWindows_frame, reachPrecharge_frame]
    rw [hchain]
    exact ⟨rfl, rfl, rfl⟩

/-- Of the supervisor the end of a step touches the faulted-since time alone. -/
theorem finish_sup (o n : State) : ∃ f, (State.finish o n).sup = { n.sup with faultedSince := f } := by
  have hfin : (State.finish o n).sup = (State.trackFaulted o n).sup := by
    show (State.trackFaulted o n).markSurge.markCaptureSurge.sup = _
    simp
  rw [hfin, trackFaulted_eq]
  exact ⟨_, rfl⟩

/-- The converter and the supervisor after the step of a sample that is judged by the precharge alone. -/
theorem precharged_step {s : State} (x : Sample) (ha : s.awake) :
    (State.finish s ((s.precharged x).fillWindows x).settle).conv = (s.sampled x).conv
      ∧ ∃ f, (State.finish s ((s.precharged x).fillWindows x).settle).sup = { (s.precharged x).sup with faultedSince := f } := by
  obtain ⟨-, hconv, hsup, -⟩ := settle_awake (precharged_awake x ha)
  obtain ⟨f, hf⟩ := finish_sup s ((s.precharged x).fillWindows x).settle
  refine ⟨?_, f, ?_⟩
  · have hread : ((s.precharged x).fillWindows x).conv = (s.sampled x).conv := by
      simp [State.precharged, sampleRead_conv]
    simp only [finish_frame, hconv, hread]
  · rw [hf, hsup]
    simp

/-- The precharge is reached by a sample that has been read. -/
theorem precharged_reached {s : State} {c : Close} {x : Sample} (h : s.sup.state = .precharging) (hc : s.sup.close = some c)
    (hr : c.ratio * x.vBatt ≤ x.vLink * 1000) :
    (s.precharged x).sup.state = .closing ∧ (s.precharged x).sup.mainPos = coilOn s.now
      ∧ (s.precharged x).sup.settleAt = s.now ∧ (s.precharged x).sup.inrush = some (s.now + 40)
      ∧ (s.precharged x).sup.close = some { c with
          reachedMs := elapsed s.now c.entered, vLink := x.vLink, vBatt := x.vBatt } := by
  have hb := sampleTaken s x
  rw [State.precharged, reachPrecharge_reached (c := c) (by rw [hb.sup]; exact h) (by rw [hb.sup]; exact hc) hr, hb.now]
  simp [State.toSup, State.inrush, State.now, hb.part]

/-- What a sample that is judged by the precharge alone leaves of the supervisor. -/
theorem precharged_fields (s : State) (x : Sample) :
    (s.precharged x).sup.lowSupply = decide ((x.vCoil : Int) < s.store.active.surge)
      ∧ (s.precharged x).sup.hardRun = (if s.store.active.hardCurrent < (x.i.natAbs : Int) then
          min s.store.active.hardCount.toNat (s.sup.hardRun + 1) else 0)
      ∧ (s.precharged x).sup.mainNeg = s.sup.mainNeg ∧ (s.precharged x).sup.precharge = s.sup.precharge
      ∧ (s.precharged x).sup.silence = s.sup.silence := by
  have hsup := (sampleTaken s x).sup
  simp only [State.precharged, reachPrecharge_frame]
  rw [hsup]
  exact ⟨rfl, rfl, rfl, rfl, rfl⟩

theorem precharged_other {s : State} (x : Sample) (h : s.sup.state ≠ .precharging) : s.sameContactors (s.precharged x) := by
  have hsup := (sampleTaken s x).sup
  rw [State.precharged, reachPrecharge_other (by rw [hsup]; exact h)]
  unfold State.sameContactors Sup.coils
  rw [hsup]
  exact ⟨rfl, rfl, rfl, rfl, rfl, rfl, rfl, rfl, rfl, rfl, rfl⟩

end Sys2Proof.Machine

namespace Sys2Proof.Machine

/-! ### What every completed sample leaves to the converter and to the captures (R31, R33, R49) -/

/-- An opening with a sample to draw on asks for the balancing stop and for nothing else. -/
theorem startOpening_requests {s : State} {x : Sample} (hx : s.newest = some x) (causes : List CauseRec)
    (hq : s.chain.requests = []) : (s.startOpening none causes).chain.requests = [.stop] := by
  obtain ⟨-, -, -, -, -, -, -, -, hchain, -⟩ := openingSent_fields hx none causes
  rw [startOpening_auto]
  exact askStop_only (by simp [hchain, hq])

theorem endDeferral_requests {s : State} {x : Sample} (hx : s.newest = some x) (hq : s.chain.requests = []) :
    s.endDeferral.chain.requests = [] ∨ s.endDeferral.chain.requests = [.stop] := by
  unfold State.endDeferral
  split
  · exact .inl hq
  · exact .inr (startOpening_requests hx _ hq)

/-- A completed sample asks for the balancing stop at most. -/
theorem completeSample_requests {s : State} (x : Sample) (hq : s.chain.requests = []) :
    (s.completeSample x).chain.requests = [] ∨ (s.completeSample x).chain.requests = [.stop] := by
  have hb := sampleTaken s x
  have hqb : (s.sampleRead x).chain.requests = [] := by rw [hb.chain, hq]
  have hjudged : ((s.sampled x).supSample x).chain
      = (if (s.sampleRead x).sup.deferral.isSome && decide ((x.i.natAbs : Int) < (s.sampleRead x).store.active.breakLimit)
          then (s.sampleRead x).endDeferral else s.sampleRead x).chain := by
    rw [supSample_eq]
    simp only []
    split
    · split <;> simp only [judgeWeld_frame, reachPrecharge_frame]
    · simp only [reachPrecharge_frame]
  simp only [completeSample_eq, fillWindows_frame, hjudged]
  split
  · exact endDeferral_requests hb.newest hqb
  · exact .inl hqb

theorem completeSample_resting {s : State} (x : Sample) (h : s.resting) : (s.completeSample x).resting := by
  obtain ⟨-, -, -, hchain, -, hplan, hupd, -⟩ := sampled_fields s x
  have hpow := collect_power (s.entered x) x.i
  have hentry : (s.sampled x).power.entry = s.power.entry := by
    rw [State.sampled, hpow]
    rfl
  have hpatrol : (s.sampled x).power.patrol = s.power.patrol := by
    rw [State.sampled, hpow]
    rfl
  have hreturning : (s.sampled x).power.returning = s.power.returning := by
    rw [State.sampled, hpow]
    rfl
  have hplan' : (s.sampled x).plan.burst = s.plan.burst ∧ (s.sampled x).plan.patrolReport = s.plan.patrolReport := by
    rw [hplan]
    exact ⟨rfl, rfl⟩
  have hn := completeSample_eq s x
  refine resting_of_same h ?_ ?_ ?_ ?_ ?_ ?_ ?_ ?_
  all_goals
    simp only [hn, fillWindows_frame, supSample_frame, hchain, hupd, hentry, hpatrol, hreturning, hplan']

/-- The reactions to a completed sample, at rest, change the chain alone. -/
theorem settle_completeSample {s : State} (x : Sample) (h : s.restful) :
    ∃ c, (s.completeSample x).settle = { s.completeSample x with chain := c } := by
  obtain ⟨hrest, hocc⟩ := h
  have hn := completeSample_resting x hrest
  have hstop : ((s.completeSample x).chain.requests = [.stop] ∨ (s.completeSample x).chain.occupied) →
      ∃ c, (s.completeSample x).settle = { s.completeSample x with chain := c } := fun hq => by
    rcases settle_askStop hn hq with hset | ⟨-, hset⟩ | ⟨-, hset⟩ <;> exact ⟨_, hset⟩
  rcases hocc with hq | ho
  · rcases completeSample_requests x hq with hnone | hone
    · exact ⟨_, settle_restful ⟨hn, .inl hnone⟩⟩
    · exact hstop (.inl hone)
  · obtain ⟨-, -, -, hchain, -⟩ := sampled_fields s x
    refine hstop (.inr ?_)
    simpa only [completeSample_eq, Chain.occupied, Chain.down, fillWindows_frame, supSample_frame, hchain] using ho

theorem finish_surge (o n : State) : (State.finish o n).sup.surge = n.sup.surge := by
  obtain ⟨f, hsup⟩ := finish_sup o n
  rw [hsup]
  rfl

/-- The converter, the power controller and the captures after the step of a sample. -/
theorem completeSample_step {s : State} (x : Sample) (h : s.restful) :
    (State.finish s (s.completeSample x).settle).conv = (s.sampled x).conv
      ∧ (State.finish s (s.completeSample x).settle).power = (s.sampled x).power
      ∧ (State.finish s (s.completeSample x).settle).plan.captures
        = (s.plan.captures.map (Capture.pairUp (pushSample s.conv.history x) x)).map fun c => { c with
          surge := c.surge || (c.holding && c.tb.isSome && (State.finish s (s.completeSample x).settle).sup.surge) } := by
  obtain ⟨c, hset⟩ := settle_completeSample x h
  obtain ⟨-, -, -, -, -, hplan, -⟩ := sampled_fields s x
  have hcaps : (s.completeSample x).settle.plan.captures = s.plan.captures.map (Capture.pairUp (pushSample s.conv.history x) x) := by
    rw [hset]
    simp only [completeSample_eq, fillWindows_frame, supSample_frame, hplan]
    rfl
  refine ⟨?_, ?_, ?_⟩
  · rw [hset]
    simp only [finish_frame, completeSample_eq, fillWindows_frame, supSample_frame]
  · rw [hset]
    simp only [finish_frame, completeSample_eq, fillWindows_frame, supSample_frame]
  · rw [finish_surge, finish_captures, hcaps]

end Sys2Proof.Machine

namespace Sys2Proof.Machine

/-- A collecting estimate takes the current of a completed sample (R33). -/
theorem estimate_collects {x : Sample} {s : State} (hr : s.restful) (hs : s.conv.scanning = true)
    (hl : s.conv.latched = some x) {e : Estimate} (he : s.conv.estimate = some e) (hlen : e.currents.length < 15) :
    Goes .sampleComplete s fun t =>
      t.conv.estimate = some { e with currents := e.currents ++ [x.i] } ∧ t.power.estimate = s.power.estimate
        ∧ (t.conv.charge, t.conv.chargeSat) = chargeAdded (s.conv.charge, s.conv.chargeSat) x.i := by
  have hcol : s.sampled x = { s.entered x with conv.estimate := some { e with currents := e.currents ++ [x.i] } } :=
    collect_some (s := s.entered x) he hlen x.i
  have hcharge := entered_charge s x
  refine goes_react _ (sampleComplete_react hs hl) ?_
  obtain ⟨hconv, hpow, -⟩ := completeSample_step x hr
  generalize State.finish s (s.completeSample x).settle = t at *
  rw [hconv, hpow, hcol]
  exact ⟨rfl, rfl, hcharge⟩

/-- The 16th current makes the estimate (R33). -/
theorem estimate_completes {x : Sample} {s : State} (hr : s.restful) (hs : s.conv.scanning = true)
    (hl : s.conv.latched = some x) {e : Estimate} (he : s.conv.estimate = some e) {avg : Int} (hlen : e.currents.length = 15)
    (havg : avg = roundHalfAway (e.currents ++ [x.i]).sum 16) :
    Goes .sampleComplete s fun t =>
      t.conv.estimate = none ∧ t.power.estimate = .made avg t.conv.charge
        ∧ (t.conv.charge, t.conv.chargeSat) = chargeAdded (chargeAdded (s.conv.charge, s.conv.chargeSat) x.i)
            (avg * (10 * min (min e.frozen (2000 * s.power.wakeTable.period)) 86400000 : Nat)) := by
  have hcol := collect_full (s := s.entered x) he hlen x.i havg
  rw [entered_charge] at hcol
  refine goes_react _ (sampleComplete_react hs hl) ?_
  obtain ⟨hconv, hpow, -⟩ := completeSample_step x hr
  generalize State.finish s (s.completeSample x).settle = t at *
  rw [hconv, hpow]
  exact hcol

/-- A capture before its CAPTURE has left takes nothing of a sample (R49). -/
theorem capture_waits {x : Sample} {s : State} (hr : s.restful) (hs : s.conv.scanning = true) (hl : s.conv.latched = some x)
    {n : Nat} {c : Capture} (hc : getAt s.plan.captures n = some c) (htb : c.tb = none) :
    Goes .sampleComplete s fun t => getAt t.plan.captures n = some c := by
  refine goes_react _ (sampleComplete_react hs hl) ?_
  obtain ⟨-, -, hcaps⟩ := completeSample_step x hr
  generalize State.finish s (s.completeSample x).settle = t at *
  rw [hcaps, getAt_map, getAt_map, hc]
  have hno : c.tb.isSome = false := by rw [htb]; rfl
  simp only [Option.map_some, pairUp_none _ x htb, hno, Bool.and_false, Bool.false_and, Bool.or_false]

/-- A capture in progress takes its pairs and its broadcast readings (R49). -/
theorem capture_takes {x : Sample} {s : State} (hr : s.restful) (hs : s.conv.scanning = true) (hl : s.conv.latched = some x)
    {n : Nat} {c : Capture} (hc : getAt s.plan.captures n = some c) {tb : Us} (htb : c.tb = some tb) :
    Goes .sampleComplete s fun t =>
      ∃ c', getAt t.plan.captures n = some c'
        ∧ c' = { c with bcast := c'.bcast, items := c'.items, surge := c.surge || (c.holding && t.sup.surge) }
        ∧ broadcastTaken t.conv.history x tb c.bcast c'.bcast ∧ c'.items.length = c.items.length
        ∧ ∀ j m, getAt c.items j = some m → ∃ m', getAt c'.items j = some m' ∧ pairTaken t.conv.history x m m' := by
  refine goes_react _ (sampleComplete_react hs hl) ?_
  obtain ⟨hconv, -, hcaps⟩ := completeSample_step x hr
  obtain ⟨hhist, -⟩ := sampled_fields s x
  generalize State.finish s (s.completeSample x).settle = t at *
  rw [hcaps, getAt_map, getAt_map, hc, hconv, hhist, Option.map_some, Option.map_some, pairUp_some _ x htb]
  refine ⟨_, rfl, ?_, broadcastTaken_broadcastUp _ _ _ _, List.length_map .., fun j m hm => ⟨_, ?_, pairTaken_pairUp _ _ _⟩⟩
  · have hyes : c.tb.isSome = true := by rw [htb]; rfl
    simp only [hyes, Bool.and_true]
    rfl
  · rw [getAt_map, hm]
    rfl

end Sys2Proof.Machine

namespace Sys2Proof.Machine

/-! ### A sample below the break limit ends a deferral (R88) -/

/-- The autonomous open that a sample below the break limit begins, once the filling windows have taken the sample. -/
def State.deferralEnded (s : State) (x : Sample) (causes : List CauseRec) : State :=
  ((s.sampleRead x).startOpening none causes).fillWindows x

theorem State.SampleTaken.coils {s b : State} {x : Sample} (h : s.SampleTaken x b) : b.sup.coils = s.sup.coils := by
  unfold Sup.coils
  rw [h.sup]

theorem State.SampleTaken.deferralLength {s b : State} {x : Sample} (h : s.SampleTaken x b) :
    b.deferralLength = s.deferralLength := by
  have hdef : b.sup.deferral = s.sup.deferral := by rw [h.sup]
  unfold State.deferralLength
  rw [hdef, h.now]

theorem completeSample_opens {s : State} {x : Sample} {d : Deferral} (hd : s.sup.deferral = some d) (hw : s.sup.weld = none)
    (hi : (x.i.natAbs : Int) < s.store.active.breakLimit) : s.completeSample x = s.deferralEnded x d.causes := by
  have hb := sampleTaken s x
  have hdef : (s.sampleRead x).sup.deferral = some d := by
    rw [← hd, hb.sup]
  have hopened : (s.sampleRead x).endDeferral = (s.sampleRead x).startOpening none d.causes := by
    rw [State.endDeferral, hdef]
  have hstate : ((s.sampleRead x).startOpening none d.causes).sup.state = .opening := by
    obtain ⟨hst, -⟩ := openingSent_fields hb.newest none d.causes
    rw [startOpening_none]
    simpa [State.openedAlone] using hst
  have hweld : ((s.sampleRead x).startOpening none d.causes).sup.weld = none := by
    simp only [startOpening_frame]
    rw [← hw, hb.sup]
  have hlow : (x.i.natAbs : Int) < (s.sampleRead x).store.active.breakLimit := by
    rw [hb.store]
    exact hi
  rw [completeSample_eq, supSample_eq]
  simp only [hdef, Option.isSome_some, Bool.true_and, decide_eq_true hlow, if_true, hopened,
    reachPrecharge_other (show _ ≠ SupState.precharging by rw [hstate]; decide), hweld]
  rfl

/-- The supervisor, the chain and the store of the autonomous open. -/
theorem deferralEnded_fields (s : State) (x : Sample) (causes : List CauseRec) :
    (s.deferralEnded x causes).sup = ((s.sampleRead x).openingSent none causes).sup
      ∧ (s.deferralEnded x causes).chain = ((s.sampleRead x).openedAlone causes).askStop.chain
      ∧ (s.deferralEnded x causes).store = (s.sampleRead x).releasePos.store
      ∧ (s.deferralEnded x causes).ev.inbox = ((s.sampleRead x).openingSent none causes).ev.inbox := by
  obtain ⟨-, -, -, -, -, -, -, -, -, hstore⟩ := openingSent_fields (sampleTaken s x).newest none causes
  simp only [State.deferralEnded, fillWindows_frame, startOpening_none, askStop_frame]
  simp [State.openedAlone, hstore]

theorem follows_deferralEnded (s : State) (x : Sample) (causes : List CauseRec) :
    ((s.sampleRead x).openedAlone causes).askStop.Follows (State.finish s (s.deferralEnded x causes).settle) := by
  rw [← startOpening_none]
  exact (follows_fillWindows _ x).trans ((follows_settle _).trans follows_finish)

/-- The part rests after it, with the balancing stop alone waiting or with a chain in use. -/
theorem deferralEnded_rests {s : State} (x : Sample) (causes : List CauseRec) (h : s.restful) :
    (s.deferralEnded x causes).resting
      ∧ ((s.deferralEnded x causes).chain.requests = [.stop] ∨ (s.deferralEnded x causes).chain.occupied) := by
  have hb := sampleTaken s x
  obtain ⟨hrest, hocc⟩ := h
  obtain ⟨-, hchain, -⟩ := deferralEnded_fields s x causes
  obtain ⟨-, -, -, -, -, -, -, -, hsent, -⟩ := openingSent_fields hb.newest none causes
  have halone : ((s.sampleRead x).openedAlone causes).chain = s.chain := by
    simp [State.openedAlone, hsent, hb.chain]
  have hpow := hb.power
  have hentry : (s.sampleRead x).power.entry = s.power.entry := by rw [hpow]
  have hpatrol : (s.sampleRead x).power.patrol = s.power.patrol := by rw [hpow]
  have hreturning : (s.sampleRead x).power.returning = s.power.returning := by rw [hpow]
  have hplan := hb.plan
  have hburst : (s.sampleRead x).plan.burst = s.plan.burst := by rw [hplan]
  have hreport : (s.sampleRead x).plan.patrolReport = s.plan.patrolReport := by rw [hplan]
  refine ⟨?_, hocc.imp (fun hq => ?_) fun ho => ?_⟩
  · refine resting_of_same hrest ?_ ?_ ?_ ?_ ?_ ?_ ?_ ?_
    all_goals
      simp only [State.deferralEnded, fillWindows_frame, startOpening_frame, hentry, hpatrol, hreturning, hburst, hreport,
        hb.upd, hb.chain]
  · rw [hchain]
    exact askStop_only (by rw [halone, hq])
  · simpa [Chain.occupied, Chain.down, hchain, halone] using ho

theorem deferralEnded_stop {s : State} (x : Sample) (causes : List CauseRec) (hs : s.slipsRight) (hr : s.restful) :
    stopAsked s (State.finish s (s.deferralEnded x causes).settle) := by
  have hb := sampleTaken s x
  have hfol : s.Follows ((s.sampleRead x).openedAlone causes) := hb.follows.trans (follows_openedAlone _ causes)
  obtain ⟨-, -, -, -, -, -, -, -, hsent, -⟩ := openingSent_fields hb.newest none causes
  have halone : ((s.sampleRead x).openedAlone causes).chain = s.chain := by
    simp [State.openedAlone, hsent, hb.chain]
  obtain ⟨hrest, hq⟩ := deferralEnded_rests x causes hr
  have hset := settle_askStop hrest hq
  obtain ⟨-, hchain, -⟩ := deferralEnded_fields s x causes
  obtain ⟨hmem, honly, hbal⟩ := askStop_asked (hfol.slips hs)
  have hafter := (follows_deferralEnded s x causes).toServes
  have hchainFree : (s.deferralEnded x causes).chain.free = s.chain.free := by
    simp [hchain, Chain.free, halone]
  have htag : (s.deferralEnded x causes).chain.exTag = s.chain.exTag := by
    simp [hchain, halone]
  generalize hz : (s.sampleRead x).openedAlone causes = z at *
  generalize hn : s.deferralEnded x causes = n at *
  refine ⟨fun ho => ?_, fun hreq hf => ?_, fun bal hbl => ⟨fun hh => ?_, fun hh => ⟨?_, fun hc hi => ?_⟩⟩⟩
  · have hocc : n.chain.occupied := by
      simpa [Chain.occupied, Chain.down, hchain, halone] using ho
    simp only [finish_frame, settle_restful ⟨hrest, .inr hocc⟩, hchain]
    exact hmem
  · have hfree : n.chain.free = true := hchainFree.trans hf
    have hone : n.chain.requests = [.stop] := by
      rw [hchain]
      exact honly (by rw [halone, hreq])
    simp only [finish_frame, settle_stop hrest hone (Chain.awake_of_free hfree), if_pos hfree, State.stopSent, htag]
    exact ⟨trivial, trivial⟩
  · have hend := (hbal bal (by rw [halone, hbl])).1 (by rw [halone, hh])
    rw [← hchain] at hend
    simp only [finish_frame]
    rcases hset with h | ⟨-, h⟩ | ⟨-, h⟩ <;> (rw [h]; exact hend)
  · obtain ⟨hnone, -⟩ := (hbal bal (by rw [halone, hbl])).2 (by rwa [halone])
    rw [← hchain] at hnone
    simp only [finish_frame]
    rcases hset with h | ⟨-, h⟩ | ⟨-, h⟩ <;> (rw [h]; exact hnone)
  · obtain ⟨-, hdone⟩ := (hbal bal (by rw [halone, hbl])).2 (by rwa [halone])
    have hzc : z.canonical := hfol.wf hc
    exact hafter.showsDone ((follows_askStop _).wf hzc) hi.1 (hdone hzc)

/-- The reactions to the autonomous open leave its events and its writes. -/
theorem settle_deferralEnded {s : State} (x : Sample) (causes : List CauseRec) (hr : s.restful) :
    (s.deferralEnded x causes).settle.ev = (s.deferralEnded x causes).ev
      ∧ (s.deferralEnded x causes).settle.store = (s.deferralEnded x causes).store := by
  obtain ⟨hrest, hq⟩ := deferralEnded_rests x causes hr
  rcases settle_askStop hrest hq with h | ⟨-, h⟩ | ⟨-, h⟩ <;> (rw [h]; exact ⟨rfl, rfl⟩)

theorem deferralEnded_inbox {s : State} (x : Sample) (causes : List CauseRec) (hcalm : s.calm) (hr : s.restful) :
    (State.finish s (s.deferralEnded x causes).settle).ev.inbox = s.ev.inbox
      ++ ⟨.autoOpen, (causes.head?.map (·.cause.code)).getD 0, s.sup.coils, ⟨s.sup.mainNeg.on, false, false⟩, .release x.i,
          causes.drop 1, s.deferralLength, true, false, false⟩
        :: (if s.store.active.breakLimit ≤ (x.i.natAbs : Int) then
          [⟨.highCurrentBreak, 0, s.sup.coils, ⟨s.sup.mainNeg.on, false, false⟩, .release x.i, [], none, false, true, false⟩]
          else []) := by
  have hb := sampleTaken s x
  obtain ⟨-, -, -, hfresh⟩ := hcalm
  obtain ⟨-, -, -, hin⟩ := deferralEnded_fields s x causes
  have hneg : (s.sampleRead x).sup.mainNeg = s.sup.mainNeg := by rw [hb.sup]
  rw [finish_inbox, (settle_deferralEnded x causes hr).1, hin, openingSent_inbox hb.newest (by rwa [hb.ev]) none causes,
    openingEvent_auto hb.newest, breakEvent_eq hb.newest, hb.ev, hb.store, hb.coils, hneg, hb.deferralLength]

theorem deferralEnded_queue {s : State} (x : Sample) (causes : List CauseRec) (hr : s.restful)
    (hon : s.sup.mainPos.on = true) (hq : ∀ q ∈ s.store.queue, ∀ d, q.payload ≠ .wearPos d) :
    (State.finish s (s.deferralEnded x causes).settle).store.queue
      = s.store.queue ++ [⟨.wearPos (releaseWear s x.i), [.wear]⟩] := by
  have hb := sampleTaken s x
  obtain ⟨-, -, hstore, -⟩ := deferralEnded_fields s x causes
  have hpos : (s.sampleRead x).sup.mainPos.on = true := by rw [hb.sup]; exact hon
  have hwear : releaseWear (s.sampleRead x) x.i = releaseWear s x.i := by unfold releaseWear; rw [hb.store]
  have hwait : ∀ q ∈ (s.sampleRead x).store.queue, ∀ d, q.payload ≠ .wearPos d := by rwa [hb.store]
  simp only [finish_frame, (settle_deferralEnded x causes hr).2, hstore]
  rw [releasePos_queue hb.newest hpos hwait, hb.store, hwear]

/-- A sample below the break limit ends a deferral in an autonomous open (R88). -/
theorem sample_ends_deferral {x : Sample} {s : State} (hs : s.slipsRight) (hscan : s.conv.scanning = true)
    (hl : s.conv.latched = some x) {d : Deferral} (hd : s.sup.deferral = some d) (hw : s.sup.weld = none)
    (hi : (x.i.natAbs : Int) < s.store.active.breakLimit) :
    Goes .sampleComplete s fun t => autonomousOpen s t x.i d.causes ∧ s.sameAround t := by
  have hb := sampleTaken s x
  have hex : exec .sampleComplete s = s.react (s.deferralEnded x d.causes) :=
    (sampleComplete_react hscan hl).trans (congrArg s.react (completeSample_opens hd hw hi))
  have haround : s.sameAround (s.deferralEnded x d.causes) := by
    simpa [State.sameAround, State.deferralEnded] using sameAround_startOpening hb.sameAround hb.newest none d.causes
  refine goes_react _ hex ⟨?_, sameAround_finish (sameAround_settle haround)⟩
  obtain ⟨hfields, -⟩ := deferralEnded_fields s x d.causes
  obtain ⟨hst, hpos, hpre, hneg, hop, hdef, honce, hcl, -, -⟩ := openingSent_fields hb.newest none d.causes
  obtain ⟨-, -, -, -, -, -, -, hclose, -, -, -, hport, hchange⟩ := openingBegun_fields hb.newest none d.causes
  have hsup := hb.sup
  have hafter : ((s.sampleRead x).openedAlone d.causes).Serves (State.finish s (s.deferralEnded x d.causes).settle) :=
    ((follows_askStop _).trans (follows_deferralEnded s x d.causes)).toServes
  have hsent : ((s.sampleRead x).openingBegun none d.causes).abortClose.Serves
      (State.finish s (s.deferralEnded x d.causes).settle) :=
    ((follows_openingSent _ none d.causes).trans (follows_raise _ _)).toServes.trans hafter
  refine ⟨?_, ?_, ?_, ?_, ?_, ?_, ?_, ?_, ?_, ?_, fun cl hcls hc hin => ?_, deferralEnded_inbox x d.causes,
    deferralEnded_queue x d.causes, deferralEnded_stop x d.causes hs⟩
  · simp only [finish_frame, settle_frame, hfields, hst]
  · simp only [finish_frame, settle_frame, hfields, hpos]
  · simp only [finish_frame, settle_frame, hfields, hpre]
  · simp only [finish_frame, settle_frame, hfields, hneg]
    rw [hsup]
  · simp only [finish_frame, settle_frame, hfields, hop, hb.now]
    rfl
  · simp only [finish_frame, settle_frame, hfields, hcl]
  · simp only [finish_frame, settle_frame, hfields, hdef]
  · simp only [finish_frame, settle_frame, hfields, honce]
    rw [hsup]
  · exact hafter.pending _ (raise_pending_self _ _)
  · exact hsent.pending _ ((follows_abortClose _).pending _ hchange)
  · have hbegun := (hb.follows.trans (follows_openingBegun _ d.causes)).wf hc
    have hheld : ((s.sampleRead x).openingBegun none d.causes).sup.close = some cl := by
      rw [hclose, hsup, ← hcls]
    have hslot : ((s.sampleRead x).openingBegun none d.causes).inFlight cl.slot := by
      unfold State.inFlight
      rw [hport, hb.port]
      exact hin
    exact hsent.showsDone ((follows_abortClose _).wf hbegun) hin.1 (abortClose_showsDone hheld hbegun hslot)

end Sys2Proof.Machine

namespace Sys2Proof.Machine

/-! ### A weld window that is judged on a sample (R82 to R84) -/

/-- A write of the lockout record joins no other (R130). -/
theorem requestWrite_lockout (s : State) (l : Lockout) (who : Requester) :
    s.requestWrite (.lockout l) who = { s with store.queue := s.store.queue ++ [⟨.lockout l, [who]⟩] } := by
  have hjoin : ∀ q ∈ s.store.queue, q.payload.join (.lockout l) = none := fun q _ => by cases q.payload <;> rfl
  rw [State.requestWrite, ← enqueue_new hjoin]
  rfl

/-- The window of an opening, judged welded (R82, R83). -/
theorem judgeWeld_welded {s : State} {w : Weld} {x : Sample} (hf : w.forClear = false)
    (hr : s.store.active.weldRatio.toNat * x.vBatt ≤ x.vLink * 1000) :
    s.judgeWeld w x = State.requestWrite
      (State.raise (State.toSup (State.sendStill { s with sup.weld := none } .weldSuspect 0
        (.weldSuspect x.vLink x.vBatt s.store.active.weldRatio.toNat)) .lockedOut) .lockout)
      (.lockout ⟨true, s.now, x.vLink, x.vBatt⟩) .weldSet := by
  have hreach : reaches s.store.active.weldRatio.toNat x.vLink x.vBatt = true := decide_eq_true hr
  unfold State.judgeWeld
  simp only [hf, hreach]
  rfl

/-- The window of an opening, judged open (R82). -/
theorem judgeWeld_opened {s : State} {w : Weld} {x : Sample} (hf : w.forClear = false)
    (hr : x.vLink * 1000 < s.store.active.weldRatio.toNat * x.vBatt) :
    s.judgeWeld w x = State.toSup { s with sup.weld := none } .open_ := by
  have hreach : reaches s.store.active.weldRatio.toNat x.vLink x.vBatt = false := decide_eq_false (Nat.not_le.2 hr)
  unfold State.judgeWeld
  simp only [hf, hreach]
  rfl

/-- The window of a CLEAR_LOCKOUT, judged welded (R84). -/
theorem judgeWeld_refused {s : State} {w : Weld} {c : Clear} {x : Sample} (hf : w.forClear = true)
    (hc : s.sup.clear = some c) (hr : s.store.active.weldRatio.toNat * x.vBatt ≤ x.vLink * 1000) :
    s.judgeWeld w x = State.complete { s with sup.weld := none, sup.clear := none } c.slot
      (.refuse .stillWelded (le 4 x.vLink ++ le 4 x.vBatt)) := by
  have hreach : reaches s.store.active.weldRatio.toNat x.vLink x.vBatt = true := decide_eq_true hr
  unfold State.judgeWeld
  simp only [hf, hc, hreach]
  rfl

/-- The window of a CLEAR_LOCKOUT, judged open (R84). -/
theorem judgeWeld_clears {s : State} {w : Weld} {c : Clear} {x : Sample} (hf : w.forClear = true)
    (hc : s.sup.clear = some c) (hr : x.vLink * 1000 < s.store.active.weldRatio.toNat * x.vBatt) :
    s.judgeWeld w x = State.requestWrite { s with sup.weld := none, sup.clear := some ⟨c.slot, x.vLink, x.vBatt⟩ }
      (.lockout ⟨false, s.now, x.vLink, x.vBatt⟩) .weldClear := by
  have hreach : reaches s.store.active.weldRatio.toNat x.vLink x.vBatt = false := decide_eq_false (Nat.not_le.2 hr)
  unfold State.judgeWeld
  simp only [hf, hc, hreach]
  rfl

theorem sameAround_judgeWeld {s u : State} (h : s.sameAround u) (w : Weld) (x : Sample) : s.sameAround (u.judgeWeld w x) := by
  simp only [State.judgeWeld]
  split
  · split
    · exact h
    · split
      · refine sameAround_complete ?_ _ _
        exact h
      · refine sameAround_requestWrite ?_ _ _
        exact h
  · split
    · exact sameAround_requestWrite (by simpa [State.sameAround, State.toSup, State.sendStill, State.send] using h) _ _
    · simpa [State.sameAround, State.toSup] using h

/-- The judgement of a weld window, once the filling windows have taken the sample. -/
def State.weldJudged (s : State) (w : Weld) (x : Sample) : State := ((s.sampleRead x).judgeWeld w x).fillWindows x

theorem completeSample_judges {s : State} {x : Sample} {w : Weld} (hw : s.sup.weld = some w) (hwait : w.waitingSample = true)
    (hd : s.sup.deferral = none) (hst : s.sup.state ≠ .precharging) : s.completeSample x = s.weldJudged w x := by
  have hsup := (sampleTaken s x).sup
  have hdef : (s.sampleRead x).sup.deferral = none := by rw [hsup]; exact hd
  have hweld : (s.sampleRead x).sup.weld = some w := by rw [hsup]; exact hw
  have hstate : (s.sampleRead x).sup.state ≠ .precharging := by rw [hsup]; exact hst
  rw [completeSample_eq, supSample_eq]
  simp only [hdef, Option.isSome_none, Bool.false_and, Bool.false_eq_true, if_false, reachPrecharge_other hstate, hweld, hwait,
    if_true]
  rfl

theorem weldJudged_restful {s : State} (w : Weld) (x : Sample) (h : s.restful) : (s.weldJudged w x).restful := by
  obtain ⟨-, -, -, -, -, hchain, -, hp, hplan, hupd, -⟩ := sampleTaken s x
  refine restful_of_held h ?_ ?_
  · simp only [State.weldJudged, fillWindows_frame, judgeWeld_frame]
    rw [hp, hplan, hupd, hchain]
    exact ⟨rfl, rfl, rfl, rfl, rfl, rfl, rfl, rfl⟩
  · simp only [State.weldJudged, fillWindows_frame, judgeWeld_frame]
    rw [hchain]
    exact ⟨rfl, rfl, rfl⟩

theorem follows_weldJudged (s : State) (w : Weld) (x : Sample) :
    ((s.sampleRead x).judgeWeld w x).Follows (State.finish s (s.weldJudged w x).settle) :=
  (follows_fillWindows _ x).trans ((follows_settle _).trans follows_finish)

/-- What the step of a judged weld window leaves alone. -/
theorem weldJudged_frame (s : State) (w : Weld) (x : Sample) :
    (State.finish s (s.weldJudged w x).settle).sup.coils = s.sup.coils
      ∧ (State.finish s (s.weldJudged w x).settle).sup.once = s.sup.once
      ∧ s.sameAround (State.finish s (s.weldJudged w x).settle) := by
  have hb := sampleTaken s x
  have hsup := hb.sup
  refine ⟨?_, ?_, sameAround_finish (sameAround_settle ?_)⟩
  · simp only [Sup.coils, finish_frame, settle_frame, State.weldJudged, fillWindows_frame, judgeWeld_frame]
    rw [hsup]
  · simp only [finish_frame, settle_frame, State.weldJudged, fillWindows_frame, judgeWeld_frame]
    rw [hsup]
  · simpa [State.sameAround, State.weldJudged] using sameAround_judgeWeld hb.sameAround w x

/-- The supervisor's state, weld window and CLEAR_LOCKOUT after the step are those of the judgement. -/
theorem weldJudged_sup (s : State) (w : Weld) (x : Sample) :
    (State.finish s (s.weldJudged w x).settle).sup.state = ((s.sampleRead x).judgeWeld w x).sup.state
      ∧ (State.finish s (s.weldJudged w x).settle).sup.weld = ((s.sampleRead x).judgeWeld w x).sup.weld
      ∧ (State.finish s (s.weldJudged w x).settle).sup.clear = ((s.sampleRead x).judgeWeld w x).sup.clear := by
  simp only [finish_frame, settle_frame, State.weldJudged, fillWindows_frame, and_self]

/-- At rest the events and the writes after the step are those of the judgement. -/
theorem weldJudged_queues {s : State} (w : Weld) (x : Sample) (h : s.restful) :
    (State.finish s (s.weldJudged w x).settle).ev.inbox = sentEvents ((s.sampleRead x).judgeWeld w x).ev.inbox
      ∧ (State.finish s (s.weldJudged w x).settle).store.queue = ((s.sampleRead x).judgeWeld w x).store.queue := by
  rw [finish_inbox, settle_restful (weldJudged_restful w x h)]
  simp only [finish_frame, State.weldJudged, fillWindows_frame, and_self]

end Sys2Proof.Machine

namespace Sys2Proof.Machine

/-- What a judgement as welded makes of the supervisor, its events and its writes (R82, R83). -/
theorem judgeWeld_welded_fields {s : State} {w : Weld} {x : Sample} (hf : w.forClear = false)
    (hr : s.store.active.weldRatio.toNat * x.vBatt ≤ x.vLink * 1000) :
    (s.judgeWeld w x).sup.state = .lockedOut ∧ (s.judgeWeld w x).sup.weld = none
      ∧ (s.judgeWeld w x).attn.pending .contactorChange = true ∧ (s.judgeWeld w x).attn.pending .lockout = true
      ∧ sentEvents (s.judgeWeld w x).ev.inbox = sentEvents s.ev.inbox ++ [⟨.weldSuspect, 0, s.sup.coils, s.sup.coils,
          .weldSuspect x.vLink x.vBatt s.store.active.weldRatio.toNat, [], none, false, (lastOf s.ev.inbox).any (·.fresh), false⟩]
      ∧ (s.judgeWeld w x).store.queue
        = s.store.queue ++ [⟨.lockout ⟨true, s.now, x.vLink, x.vBatt⟩, [.weldSet]⟩] := by
  rw [judgeWeld_welded hf hr, requestWrite_lockout]
  refine ⟨by simp [State.toSup], by simp [State.toSup], ?_, raise_pending_self _ _, ?_, by simp [State.toSup]⟩
  · exact (follows_raise _ _).pending _ (raise_pending_self _ _)
  · have hsent := sentEvents_send (s := { s with sup.weld := none }) ⟨.weldSuspect, 0, s.sup.coils, s.sup.coils,
      .weldSuspect x.vLink x.vBatt s.store.active.weldRatio.toNat, [], none, false, false, false⟩ rfl
    simpa only [State.toSup, State.sendStill, Sup.coils, raise_frame] using hsent

/-- What a judgement as open makes of the supervisor, its events and its writes (R82). -/
theorem judgeWeld_opened_fields {s : State} {w : Weld} {x : Sample} (hf : w.forClear = false)
    (hr : x.vLink * 1000 < s.store.active.weldRatio.toNat * x.vBatt) :
    (s.judgeWeld w x).sup.state = .open_ ∧ (s.judgeWeld w x).sup.weld = none
      ∧ (s.judgeWeld w x).attn.pending .contactorChange = true ∧ (s.judgeWeld w x).ev.inbox = s.ev.inbox
      ∧ (s.judgeWeld w x).store.queue = s.store.queue := by
  rw [judgeWeld_opened hf hr]
  exact ⟨by simp [State.toSup], by simp [State.toSup], raise_pending_self _ _, by simp [State.toSup], by simp [State.toSup]⟩

/-- What a judgement of a CLEAR_LOCKOUT as welded makes of the supervisor and of its slip (R84). -/
theorem judgeWeld_refused_fields {s : State} {w : Weld} {c : Clear} {x : Sample} (hf : w.forClear = true)
    (hc : s.sup.clear = some c) (hr : s.store.active.weldRatio.toNat * x.vBatt ≤ x.vLink * 1000) :
    (s.judgeWeld w x).sup.state = s.sup.state ∧ (s.judgeWeld w x).sup.weld = none ∧ (s.judgeWeld w x).sup.clear = none
      ∧ (s.canonical → s.inFlight c.slot → (s.judgeWeld w x).showsDone c.slot 3 13
        ∧ (s.judgeWeld w x).mem.readBytes (slotAt c.slot + 52) 8 = le 4 x.vLink ++ le 4 x.vBatt) := by
  rw [judgeWeld_refused hf hc hr]
  refine ⟨by simp, by simp, by simp, fun hcan hin => ⟨?_, ?_⟩⟩
  · exact complete_showsDone (s := { s with sup.weld := none, sup.clear := none }) hcan hin _
  · obtain ⟨hk, cp, hslot⟩ := hin
    obtain ⟨-, -, hfields⟩ := complete_readBytes (s := { s with sup.weld := none, sup.clear := none }) hcan hk hslot
      (.refuse .stillWelded (le 4 x.vLink ++ le 4 x.vBatt))
    rw [readBytes_take _ _ 8 4, hfields]
    rfl

/-- What a judgement of a CLEAR_LOCKOUT as open makes of the supervisor and of its writes (R84). -/
theorem judgeWeld_clears_fields {s : State} {w : Weld} {c : Clear} {x : Sample} (hf : w.forClear = true)
    (hc : s.sup.clear = some c) (hr : x.vLink * 1000 < s.store.active.weldRatio.toNat * x.vBatt) :
    (s.judgeWeld w x).sup.state = s.sup.state ∧ (s.judgeWeld w x).sup.weld = none
      ∧ (s.judgeWeld w x).sup.clear = some ⟨c.slot, x.vLink, x.vBatt⟩
      ∧ (s.judgeWeld w x).store.queue
        = s.store.queue ++ [⟨.lockout ⟨false, s.now, x.vLink, x.vBatt⟩, [.weldClear]⟩] := by
  rw [judgeWeld_clears hf hc hr, requestWrite_lockout]
  exact ⟨rfl, rfl, rfl, rfl⟩

theorem weldJudged_react {s : State} {x : Sample} {w : Weld} (hs : s.conv.scanning = true) (hl : s.conv.latched = some x)
    (hw : s.sup.weld = some w) (hwait : w.waitingSample = true) (hd : s.sup.deferral = none)
    (hst : s.sup.state ≠ .precharging) : exec .sampleComplete s = s.react (s.weldJudged w x) :=
  (sampleComplete_react hs hl).trans (congrArg s.react (completeSample_judges hw hwait hd hst))

/-- A weld window after an opening is judged on a completed sample (R82, R83). -/
theorem sample_judges_opening {x : Sample} {s : State} (hs : s.conv.scanning = true) (hl : s.conv.latched = some x)
    {w : Weld} (hw : s.sup.weld = some w) (hwait : w.waitingSample = true) (hd : s.sup.deferral = none)
    (hf : w.forClear = false) (hst : s.sup.state = .weldCheck) :
    Goes .sampleComplete s fun t =>
      t.sup.weld = none ∧ t.sup.coils = s.sup.coils ∧ t.sup.once = s.sup.once ∧ t.attn.pending .contactorChange = true
        ∧ (s.store.active.weldRatio.toNat * x.vBatt ≤ x.vLink * 1000 →
          t.sup.state = .lockedOut ∧ t.attn.pending .lockout = true
            ∧ (s.calm → s.restful → t.ev.inbox = s.ev.inbox ++ [⟨.weldSuspect, 0, s.sup.coils, s.sup.coils,
                .weldSuspect x.vLink x.vBatt s.store.active.weldRatio.toNat, [], none, false, false, false⟩])
            ∧ (s.restful → t.store.queue
                = s.store.queue ++ [⟨.lockout ⟨true, s.now, x.vLink, x.vBatt⟩, [.weldSet]⟩]))
        ∧ (x.vLink * 1000 < s.store.active.weldRatio.toNat * x.vBatt →
          t.sup.state = .open_
            ∧ (s.calm → s.restful → t.ev.inbox = s.ev.inbox ∧ t.store.queue = s.store.queue))
        ∧ s.sameAround t := by
  have hb := sampleTaken s x
  have hwelded := judgeWeld_welded_fields (s := s.sampleRead x) (x := x) hf
  have hopened := judgeWeld_opened_fields (s := s.sampleRead x) (x := x) hf
  rw [hb.store, hb.ev, hb.coils, hb.now] at hwelded
  rw [hb.store, hb.ev] at hopened
  refine goes_react _ (weldJudged_react hs hl hw hwait hd (by rw [hst]; decide)) ?_
  obtain ⟨hcoils, honce, haround⟩ := weldJudged_frame s w x
  obtain ⟨hstate, hweld, -⟩ := weldJudged_sup s w x
  have hqueues := weldJudged_queues (s := s) w x
  have hpend := (follows_weldJudged s w x).pending
  generalize State.finish s (s.weldJudged w x).settle = t at *
  have hends : t.sup.weld = none ∧ t.attn.pending .contactorChange = true := by
    rcases Nat.lt_or_ge (x.vLink * 1000) (s.store.active.weldRatio.toNat * x.vBatt) with hr | hr
    · obtain ⟨-, hnone, hchange, -⟩ := hopened hr
      exact ⟨hweld.trans hnone, hpend _ hchange⟩
    · obtain ⟨-, hnone, hchange, -⟩ := hwelded hr
      exact ⟨hweld.trans hnone, hpend _ hchange⟩
  obtain ⟨hnone, hchange⟩ := hends
  refine ⟨hnone, hcoils, honce, hchange, fun hr => ?_, fun hr => ?_, haround⟩
  · obtain ⟨hlocked, -, -, hlockout, hevents, hqueue⟩ := hwelded hr
    refine ⟨hstate.trans hlocked, hpend _ hlockout, fun hc hrest => ?_, fun hrest => (hqueues hrest).2.trans hqueue⟩
    rw [(hqueues hrest).1, hevents, sentEvents_calm hc, lastOf_fresh_calm hc]
  · obtain ⟨hopen, -, -, hevents, hqueue⟩ := hopened hr
    refine ⟨hstate.trans hopen, fun hc hrest => ?_⟩
    obtain ⟨hin, hqu⟩ := hqueues hrest
    exact ⟨by rw [hin, hevents, sentEvents_calm hc], hqu.trans hqueue⟩

/-- The weld window of a CLEAR_LOCKOUT is judged on a completed sample (R84). -/
theorem sample_judges_clear {x : Sample} {s : State} (hs : s.conv.scanning = true) (hl : s.conv.latched = some x)
    {w : Weld} (hw : s.sup.weld = some w) (hwait : w.waitingSample = true) (hd : s.sup.deferral = none) {c : Clear}
    (hf : w.forClear = true) (hcl : s.sup.clear = some c) (hst : s.sup.state = .lockedOut) :
    Goes .sampleComplete s fun t =>
      t.sup.state = .lockedOut ∧ t.sup.weld = none ∧ t.sup.coils = s.sup.coils ∧ t.sup.once = s.sup.once
        ∧ (s.store.active.weldRatio.toNat * x.vBatt ≤ x.vLink * 1000 →
          t.sup.clear = none ∧ (s.canonical → s.inFlight c.slot → t.showsDone c.slot 3 13
            ∧ t.mem.readBytes (slotAt c.slot + 52) 8 = le 4 x.vLink ++ le 4 x.vBatt))
        ∧ (x.vLink * 1000 < s.store.active.weldRatio.toNat * x.vBatt →
          t.sup.clear = some ⟨c.slot, x.vLink, x.vBatt⟩
            ∧ (s.restful → t.store.queue
                = s.store.queue ++ [⟨.lockout ⟨false, s.now, x.vLink, x.vBatt⟩, [.weldClear]⟩]))
        ∧ s.sameAround t := by
  have hb := sampleTaken s x
  have hsup := hb.sup
  have hheld : (s.sampleRead x).sup.clear = some c := by rw [hsup]; exact hcl
  have hlocked : (s.sampleRead x).sup.state = .lockedOut := by rw [hsup]; exact hst
  have hrefused := judgeWeld_refused_fields (x := x) hf hheld
  have hclears := judgeWeld_clears_fields (x := x) hf hheld
  rw [hb.store, hlocked] at hrefused
  rw [hb.store, hlocked, hb.now] at hclears
  refine goes_react _ (weldJudged_react hs hl hw hwait hd (by rw [hst]; decide)) ?_
  obtain ⟨hcoils, honce, haround⟩ := weldJudged_frame s w x
  obtain ⟨hstate, hweld, hclear⟩ := weldJudged_sup s w x
  have hqueues := weldJudged_queues (s := s) w x
  have hserves := (follows_weldJudged s w x).toServes
  generalize State.finish s (s.weldJudged w x).settle = t at *
  have hends : t.sup.state = .lockedOut ∧ t.sup.weld = none := by
    rcases Nat.lt_or_ge (x.vLink * 1000) (s.store.active.weldRatio.toNat * x.vBatt) with hr | hr
    · obtain ⟨hstays, hnone, -⟩ := hclears hr
      exact ⟨hstate.trans hstays, hweld.trans hnone⟩
    · obtain ⟨hstays, hnone, -⟩ := hrefused hr
      exact ⟨hstate.trans hstays, hweld.trans hnone⟩
  obtain ⟨hstays, hgone⟩ := hends
  refine ⟨hstays, hgone, hcoils, honce, fun hr => ?_, fun hr => ?_, haround⟩
  · obtain ⟨-, -, hnone, hdone⟩ := hrefused hr
    refine ⟨hclear.trans hnone, fun hc hin => ?_⟩
    have hcan : (s.sampleRead x).canonical := hb.follows.wf hc
    obtain ⟨hshows, hbytes⟩ := hdone hcan (by unfold State.inFlight; rw [hb.port]; exact hin)
    obtain ⟨-, -, -, hfree, -⟩ := id hshows
    have hjudged : ((s.sampleRead x).judgeWeld w x).canonical := judgeWeld_wf _ w x hcan
    have hslot := (hserves.slot c.slot).elim id fun hn => hn.trans hfree.symm
    refine ⟨hserves.showsDone hjudged hin.1 hshows, ?_⟩
    rw [← hbytes]
    exact readBytes_congr fun a h1 h2 => hserves.bytes hjudged _ hin.1 hslot a (by omega) (by omega)
  · obtain ⟨-, -, hsome, hqueue⟩ := hclears hr
    exact ⟨hclear.trans hsome, fun hrest => (hqueues hrest).2.trans hqueue⟩

/-- Settles O43: a latch by the sampling of its channels; a completed sample by the judgement that awaits it (the precharge, a
deferral's end, a weld window), and by what the converter and the captures take of it before. -/
theorem sampleLatchesAndCompletes : Obligations.SampleLatchesAndCompletes := by
  refine ⟨fun r s hc => ⟨fun hs => ?_, sampleLatch_stopped hc⟩, fun x s ha hs hl hw hd => ?_,
    fun x s hr hs hl => ⟨fun e he => ⟨estimate_collects hr hs hl he, fun avg => estimate_completes hr hs hl he⟩,
      fun n c hc => ⟨capture_waits hr hs hl hc, fun tb => capture_takes hr hs hl hc⟩⟩,
    fun x s hslips hs hl => ⟨fun d => sample_ends_deferral hslips hs hl, fun w hw hwait hd =>
      ⟨sample_judges_opening hs hl hw hwait hd, fun c => sample_judges_clear hs hl hw hwait hd⟩⟩⟩
  · rw [sampleLatch_next hc hs, sampleOf_eq]
  · have hb := sampleTaken s x
    have hex : exec .sampleComplete s = s.react ((s.precharged x).fillWindows x) :=
      (sampleComplete_react hs hl).trans (congrArg s.react (completeSample_quiet hw hd))
    have hev : (s.precharged x).ev = s.ev := by
      simp only [State.precharged, reachPrecharge_frame]
      exact hb.ev
    have hset (hr : s.restful) := settle_restful (precharged_restful x hr)
    obtain ⟨hlow, hrun, hneg, hpre, hsil⟩ := precharged_fields s x
    obtain ⟨hconv, f, hsup⟩ := precharged_step x ha
    obtain ⟨hhist, hlat, -⟩ := sampled_fields s x
    refine goes_react _ hex ?_
    have haround := sameAround_finish (sameAround_settle (precharged_sameAround s x))
    have hwin := fun k r (hr : s.restful) hk hkr => windows_taken (k := k) (r := r) (hset hr) hev hk hkr rfl
    have hrest := fun hr : s.restful => (finish_fillWindows (hset hr) hev).2
    generalize State.finish s ((s.precharged x).fillWindows x).settle = t at *
    refine ⟨by rw [hconv]; exact hhist, by rw [hconv]; exact hlat, fun he => by rw [hconv]; exact sampled_charge x he,
      by rw [hsup]; exact hlow, by rw [hsup]; exact hrun,
      fun c hp hc hr => by rw [hsup]; exact precharged_reached hp hc hr, fun hp => ?_,
      by rw [hsup]; exact hneg, by rw [hsup]; exact hpre, by rw [hsup]; exact hsil, hwin, hrest, haround⟩
    have hsame := precharged_other x hp
    unfold State.sameContactors Sup.coils at hsame ⊢
    rw [hsup]
    exact hsame

end Sys2Proof.Machine
